-- ==== Sys2Proof/Word.lean ====
section
/-! DEFINITION. Words, bytes and byte strings, with their plainest arithmetic. -/

namespace Sys2Proof

/-- One byte. -/
abbrev Byte := BitVec 8

/-- One 32-bit register (00 R9). -/
abbrev Word := BitVec 32

/-- A byte string, first byte first. -/
abbrev Bytes := List Byte

/-- `n` zero bytes. -/
def zeros (n : Nat) : Bytes := List.replicate n 0

/-- The little-endian value of a byte string (00, Notation). -/
def leVal : Bytes → Nat
  | [] => 0
  | b :: r => b.toNat + 256 * leVal r

/-- The big-endian value of a byte string. -/
def beVal (bs : Bytes) : Nat := bs.foldl (fun a b => a * 256 + b.toNat) 0

/-- `n` bytes of `v`, little-endian. -/
def leBytes : Nat → Nat → Bytes
  | 0, _ => []
  | n + 1, v => BitVec.ofNat 8 v :: leBytes n (v / 256)

/-- `n` bytes of `v`, big-endian. -/
def beBytes (n v : Nat) : Bytes := (leBytes n v).reverse

/-- `len` bytes from offset `off` (fewer where the string ends). -/
def sub (b : Bytes) (off len : Nat) : Bytes := (b.drop off).take len

/-- Byte `i` as a number; 0 beyond the end. -/
def byteAt (b : Bytes) (i : Nat) : Nat := (b.getD i 0).toNat

/-- Little-endian field of `len` bytes at `off`. -/
def leAt (b : Bytes) (off len : Nat) : Nat := leVal (sub b off len)

/-- Big-endian field of `len` bytes at `off`. -/
def beAt (b : Bytes) (off len : Nat) : Nat := beVal (sub b off len)

/-- `b` cut or filled with zeros to exactly `n` bytes. -/
def fit (n : Nat) (b : Bytes) : Bytes := (b ++ zeros n).take n

/-- `b` with `v` written over the bytes from `off`. -/
def patch (b : Bytes) (off : Nat) (v : Bytes) : Bytes :=
  fit off b ++ v ++ b.drop (off + v.length)

/-- Bytewise exclusive or of two strings, as long as the shorter. -/
def xorB (a b : Bytes) : Bytes := List.zipWith (fun x y => x ^^^ y) a b

/-- Every byte is zero. -/
def allZero (b : Bytes) : Bool := b.all (fun x => x == 0)

/-- `len` bits of `v` from bit `lo`. -/
def fieldOf (v lo len : Nat) : Nat := (v >>> lo) % 2 ^ len

/-- Bit `i` of `v`. -/
def bitOf (v i : Nat) : Bool := Nat.testBit v i

/-- 1 for true, 0 for false. -/
def flag (b : Bool) : Nat := if b then 1 else 0

/-- The characters of an ASCII label. -/
def ascii (s : String) : Bytes := s.toList.map (fun c => BitVec.ofNat 8 c.toNat)

/-- `v + k`, held at the largest value of `w` bits. -/
def satAdd (w v k : Nat) : Nat := min (v + k) (2 ^ w - 1)

/-- The nibbles of a byte string, high nibble first. -/
def nibbles (b : Bytes) : List Nat := b.flatMap (fun x => [x.toNat / 16, x.toNat % 16])

/-- Bytes of a list of nibbles, high nibble first; an odd last nibble is followed by 0. -/
def packNibbles : List Nat → Bytes
  | [] => []
  | [a] => [BitVec.ofNat 8 (16 * a)]
  | a :: b :: r => BitVec.ofNat 8 (16 * a + b) :: packNibbles r

/-- The blocks of `n` bytes of a string; the last one may be short (`fuel` bounds their number). -/
def chunksAux (n : Nat) : Nat → Bytes → List Bytes
  | 0, _ => []
  | fuel + 1, b => if b.isEmpty then [] else b.take n :: chunksAux n fuel (b.drop n)

/-- The blocks of `n` bytes of a string; the last one may be short. -/
def chunks (n : Nat) (b : Bytes) : List Bytes := chunksAux n b.length b

/-- `⌈a / b⌉`. -/
def ceilDiv (a b : Nat) : Nat := (a + b - 1) / b

end Sys2Proof
end

