-- ==== Sys2Proof/Syntax.lean ====
section
/-! DEFINITION. The commands: one constructor per row of the spec's table of operations and events. -/

namespace Sys2Proof

/-- What a host read brings back (02 R43). -/
inductive ReadAns
  /-- The bytes read. -/
  | data (bytes : Bytes)
  /-- Unsupported Request. -/
  | ur
  /-- Completer Abort. -/
  | ca
  /-- Completion timeout. -/
  | timeout
  /-- Poisoned data. -/
  | poison
  deriving DecidableEq, Repr

/-- A fault reported for a call before its figure's final step (10 R317). -/
inductive FigFault
  /-- No fault. -/
  | none
  /-- An error in the context buffer or the tower scratch that the ECC corrects (R434): the figure goes on. -/
  | corrected
  /-- An uncorrectable error in the context buffer (R434). -/
  | ecc
  /-- A residue mismatch of a lane the call holds, in the figure's last run (R260): the lane's kind and number. -/
  | lane (hash : Bool) (i : Nat)
  /-- A residue mismatch of the Spire the call holds (R299). -/
  | spire
  /-- The Keep's check of the final step's write failed (R317). -/
  | keepWrite
  /-- The context makes an access of the internal space: read or write, its address, and whether the target's check passes it
  (R373, R384). One that the checks allow changes nothing. -/
  | access (write : Bool) (addr : Nat) (target : Bool)
  deriving DecidableEq, Repr

/-- How one step of the fuse engine goes: a policy block, or a life-cycle row (14 R398 to R400). -/
inductive StepBurn
  /-- Every bit burned. -/
  | ok
  /-- The first try failed its read-back, and was made void; the repeat in the next row or block succeeded. -/
  | retry
  /-- The repeat failed as well. -/
  | lost
  /-- Power was lost during the first try, or while it was made void: `bits` of the row or block stand. -/
  | cut (bits : Bytes)
  /-- Power was lost during the repeat: `bits` of the next row or block stand. -/
  | cutAgain (bits : Bytes)
  deriving DecidableEq, Repr

/-- How the burning of a transition went: the policy block of a COMMISSION, then the row (14 R398 to R400). A row's bits are 4 bytes, lowest
first. -/
structure BurnResult where
  /-- Step 2. -/
  block : StepBurn := .ok
  /-- Step 3. -/
  row : StepBurn := .ok
  deriving DecidableEq, Repr

/-- A part that the sparing controller tests (15 R433). -/
inductive TestPart
  /-- A cipher lane (`hash` false) or hash lane of a tower. -/
  | lane (tower : Nat) (hash : Bool) (i : Nat)
  /-- A tower's Spire. -/
  | spire (tower : Nat)
  /-- The spare tower. -/
  | spareTower (tower : Nat)
  deriving DecidableEq, Repr

/-- What the header of a Reel message says beside CLASS and TYPE (11 R327). -/
structure Hdr where
  /-- SRC address. -/
  src : Nat := 0
  /-- DST address; 0xFFFF is a broadcast. -/
  dst : Nat := 0
  /-- SEQ of its class on the link by which it arrives. -/
  seq : Nat := 0
  deriving DecidableEq, Repr

/-- The commands (opcode_table.json). `fn` is a function number: 0 to 1,023 a TF, 0xFFFF the MF (R41).
`tower` and `ctx` name a figure context (R301). An argument with a default value may be left unwritten; the value has no other meaning. -/
inductive Instr
  /-- QP_SQ_TAIL_DB (R49). -/
  | qpSqTailDb (fn : Nat) (q : Nat) (value : Word)
  /-- QP_CQ_HEAD_DB (R53). -/
  | qpCqHeadDb (fn : Nat) (q : Nat) (value : Word)
  /-- QP_ENABLE (R48). -/
  | qpEnable (fn : Nat) (q : Nat)
  /-- QUEUE_RESET (R63). -/
  | queueReset (fn : Nat) (q : Nat) (reset : Bool) (enable : Bool)
  /-- HELD_QUEUE_RESET (R65). -/
  | heldQueueReset (fn : Nat) (q : Nat)
  /-- DESC_FETCH (R49). -/
  | descFetch (fn : Nat) (q : Nat)
  /-- DESC_READ_DONE (R49). -/
  | descReadDone (fn : Nat) (q : Nat) (first : Nat) (ans : ReadAns)
  /-- ADMISSION (R22). -/
  | admission
  /-- DISPATCH (R26), with what the ECC of the tower key cache finds as the keys are fetched: the handle slots whose entry has an
  uncorrectable error, and the number of corrections (R434). -/
  | dispatch (bad : List Nat) (fixed : Nat)
  /-- VAULT_FILL (R235). -/
  | vaultFill (tower : Nat) (ctx : Nat) (mem : List (Nat × Bytes)) (failed : Bool)
  /-- KEEP_GRANT (R225). -/
  | keepGrant (fault : Option (Nat × Nat) := none)
  /-- GRANT_REVOKE (R224). -/
  | grantRevoke (tower : Nat) (ctx : Nat)
  /-- LANE_GRANT (R256). -/
  | laneGrant (tower : Nat) (hash : Bool) (fault : Option Nat) (ends : List Nat := [])
  /-- LANE_SAVE (R269). -/
  | laneSave (tower : Nat) (hash : Bool) (lane : Nat) (fault : Bool)
  /-- SPIRE_GRANT (R283). -/
  | spireGrant (tower : Nat) (fault : Bool)
  /-- SPIRE_SWITCH (R288). -/
  | spireSwitch (tower : Nat) (fault : Bool)
  /-- DMA_GRANT (R308). -/
  | dmaGrant (fault : Bool := false)
  /-- LIST_READ (R85). -/
  | listRead (tower : Nat) (ctx : Nat) (ans : ReadAns)
  /-- BLOB_READ (R213). -/
  | blobRead (tower : Nat) (ctx : Nat) (ans : ReadAns)
  /-- CHUNK_READ (R87). -/
  | chunkRead (tower : Nat) (ctx : Nat) (ans : ReadAns) (fault : FigFault := .none)
  /-- DRBG_DRAW (R277). -/
  | drbgDraw (tower : Nat)
  /-- COMPLETION_WRITE (R51). -/
  | completionWrite (fn : Nat) (q : Nat)
  /-- COAL_TIMER_EXPIRY (R54). -/
  | coalTimerExpiry (fn : Nat) (q : Nat)
  /-- STALL_BREAK (R315). -/
  | stallBreak
  /-- KEEP_ROW_REPAIR (R434). -/
  | keepRowRepair (row : Nat) (uncorrectable : Bool) (line : Option Nat)
  /-- ECHO (R94). -/
  | echo (tower : Nat) (ctx : Nat) (fault : FigFault)
  /-- JOB_SUSPEND (R101). -/
  | jobSuspend (tower : Nat) (ctx : Nat) (fault : FigFault)
  /-- JOB_SUSPENSION (R101). -/
  | jobSuspension (tower : Nat) (ctx : Nat)
  /-- JOB_RESUME (R102). -/
  | jobResume (tower : Nat) (ctx : Nat) (fault : FigFault)
  /-- JOB_CANCEL (R103). -/
  | jobCancel (tower : Nat) (ctx : Nat) (fault : FigFault)
  /-- JOB_CANCELLATION (R103). -/
  | jobCancellation (tower : Nat) (ctx : Nat)
  /-- JOB_QUERY (R104). -/
  | jobQuery (tower : Nat) (ctx : Nat) (fault : FigFault)
  /-- PIN_TRANSLATE (R122). -/
  | pinTranslate (tower : Nat) (ctx : Nat) (fault : FigFault)
  /-- PIN_VERIFY_OFFSET (R125). -/
  | pinVerifyOffset (tower : Nat) (ctx : Nat) (fault : FigFault)
  /-- PIN_VERIFY_PVV (R127). -/
  | pinVerifyPvv (tower : Nat) (ctx : Nat) (fault : FigFault)
  /-- PIN_GENERATE_OFFSET (R125). -/
  | pinGenerateOffset (tower : Nat) (ctx : Nat) (fault : FigFault)
  /-- PIN_GENERATE_PVV (R127). -/
  | pinGeneratePvv (tower : Nat) (ctx : Nat) (fault : FigFault)
  /-- PIN_CHANGE (R130). -/
  | pinChange (tower : Nat) (ctx : Nat) (fault : FigFault)
  /-- PIN_FROM_DUKPT (R139). -/
  | pinFromDukpt (tower : Nat) (ctx : Nat) (fault : FigFault)
  /-- DUKPT_DERIVE_INITIAL (R140). -/
  | dukptDeriveInitial (tower : Nat) (ctx : Nat) (fault : FigFault)
  /-- DUKPT_DATA_DECRYPT (R142). -/
  | dukptDataDecrypt (tower : Nat) (ctx : Nat) (fault : FigFault)
  /-- DUKPT_MAC_VERIFY (R142). -/
  | dukptMacVerify (tower : Nat) (ctx : Nat) (fault : FigFault)
  /-- CVV_GENERATE (R147). -/
  | cvvGenerate (tower : Nat) (ctx : Nat) (fault : FigFault)
  /-- CVV_VERIFY (R148). -/
  | cvvVerify (tower : Nat) (ctx : Nat) (fault : FigFault)
  /-- DCVV_VERIFY (R148). -/
  | dcvvVerify (tower : Nat) (ctx : Nat) (fault : FigFault)
  /-- ARQC_VERIFY (R151). -/
  | arqcVerify (tower : Nat) (ctx : Nat) (fault : FigFault)
  /-- SCRIPT_MAC (R153). -/
  | scriptMac (tower : Nat) (ctx : Nat) (fault : FigFault)
  /-- MAC_GENERATE (R155). -/
  | macGenerate (tower : Nat) (ctx : Nat) (fault : FigFault)
  /-- MAC_VERIFY (R155). -/
  | macVerify (tower : Nat) (ctx : Nat) (fault : FigFault)
  /-- DATA_ENCRYPT (R162). -/
  | dataEncrypt (tower : Nat) (ctx : Nat) (fault : FigFault)
  /-- DATA_DECRYPT (R161). -/
  | dataDecrypt (tower : Nat) (ctx : Nat) (fault : FigFault)
  /-- DATA_TRANSLATE (R163). -/
  | dataTranslate (tower : Nat) (ctx : Nat) (fault : FigFault)
  /-- TOKENIZE (R169). -/
  | tokenize (tower : Nat) (ctx : Nat) (fault : FigFault)
  /-- DETOKENIZE (R169). -/
  | detokenize (tower : Nat) (ctx : Nat) (fault : FigFault)
  /-- TOKEN_RETIRE (R169). -/
  | tokenRetire (tower : Nat) (ctx : Nat) (fault : FigFault)
  /-- KEY_GENERATE (R198). -/
  | keyGenerate (tower : Nat) (ctx : Nat) (fault : FigFault)
  /-- KEY_IMPORT_BLOCK (R208). -/
  | keyImportBlock (tower : Nat) (ctx : Nat) (fault : FigFault)
  /-- KEY_EXPORT_BLOCK (R212). -/
  | keyExportBlock (tower : Nat) (ctx : Nat) (fault : FigFault)
  /-- KEY_DERIVE (R199). -/
  | keyDerive (tower : Nat) (ctx : Nat) (fault : FigFault)
  /-- KEY_DESTROY (R200). -/
  | keyDestroy (tower : Nat) (ctx : Nat) (fault : FigFault)
  /-- KEY_ATTRIBUTES (R201). -/
  | keyAttributes (tower : Nat) (ctx : Nat) (fault : FigFault)
  /-- KEY_IMPORT_PK (R205). -/
  | keyImportPk (tower : Nat) (ctx : Nat) (fault : FigFault)
  /-- BINDING_RECORD_IMPORT (R182). -/
  | bindingRecordImport (tower : Nat) (ctx : Nat) (fault : FigFault)
  /-- PARTITION_UNBIND (R183). -/
  | partitionUnbind (tower : Nat) (ctx : Nat) (fault : FigFault)
  /-- KEY_CHECK_VALUE (R201). -/
  | keyCheckValue (tower : Nat) (ctx : Nat) (fault : FigFault)
  /-- KEY_ROTATE_SCHEDULE (R203). -/
  | keyRotateSchedule (tower : Nat) (ctx : Nat) (fault : FigFault)
  /-- ROTATE_CANCEL (R204). -/
  | rotateCancel (tower : Nat) (ctx : Nat) (fault : FigFault)
  /-- PK_SIGN (R291). -/
  | pkSign (tower : Nat) (ctx : Nat) (fault : FigFault)
  /-- PK_VERIFY (R291). -/
  | pkVerify (tower : Nat) (ctx : Nat) (fault : FigFault)
  /-- PK_DECRYPT (R293). -/
  | pkDecrypt (tower : Nat) (ctx : Nat) (fault : FigFault)
  /-- PK_AGREE (R292). -/
  | pkAgree (tower : Nat) (ctx : Nat) (fault : FigFault)
  /-- PK_KEYGEN (R291). -/
  | pkKeygen (tower : Nat) (ctx : Nat) (fault : FigFault)
  /-- PQ_KEM_DECAPS (R294). -/
  | pqKemDecaps (tower : Nat) (ctx : Nat) (fault : FigFault)
  /-- PQ_SIGN (R294). -/
  | pqSign (tower : Nat) (ctx : Nat) (fault : FigFault)
  /-- PQ_VERIFY (R294). -/
  | pqVerify (tower : Nat) (ctx : Nat) (fault : FigFault)
  /-- CURVE_LOAD (R296). -/
  | curveLoad (tower : Nat) (ctx : Nat) (fault : FigFault)
  /-- RANDOM (R279). -/
  | randomCall (tower : Nat) (ctx : Nat) (fault : FigFault)
  /-- VAULT_REKEY (R243). -/
  | vaultRekey (tower : Nat) (ctx : Nat) (fault : FigFault)
  /-- VAULT_SCRUB (R244). -/
  | vaultScrub (tower : Nat) (ctx : Nat) (fault : FigFault)
  /-- VAULT_SEAL_ROOT (R248). -/
  | vaultSealRoot (tower : Nat) (ctx : Nat) (fault : FigFault)
  /-- VAULT_SEAL_RELEASE (R248). -/
  | vaultSealRelease (tower : Nat) (ctx : Nat) (fault : FigFault)
  /-- VAULT_ADOPT (R249). -/
  | vaultAdopt (tower : Nat) (ctx : Nat) (fault : FigFault) (seals : List Bytes) (answers : List (Option Bytes))
      (mem : List (Nat × Bytes) := []) (failed : Bool := false)
  /-- PARTITION_HANDOFF (R251). -/
  | partitionHandoff (tower : Nat) (ctx : Nat) (fault : FigFault)
  /-- ATTEST (R414). -/
  | attest (tower : Nat) (ctx : Nat) (fault : FigFault)
  /-- TALLY_STATEMENT (R368). -/
  | tallyStatement (tower : Nat) (ctx : Nat) (fault : FigFault)
  /-- CEREMONY_OPEN (R405). -/
  | ceremonyOpen (tower : Nat) (ctx : Nat) (fault : FigFault)
  /-- TABLE_LOAD (R403). -/
  | tableLoad (tower : Nat) (ctx : Nat) (fault : FigFault)
  /-- CUSTODIAN_AUTH (R409). -/
  | custodianAuth (tower : Nat) (ctx : Nat) (fault : FigFault)
  /-- CARD_RESPONSE (R408). -/
  | cardResponse (tower : Nat) (ctx : Nat) (resp : Bytes)
  /-- CARD_TIMEOUT (R408). -/
  | cardTimeout (tower : Nat) (ctx : Nat)
  /-- DMK_LOAD (R176). -/
  | dmkLoad (tower : Nat) (ctx : Nat) (fault : FigFault)
  /-- DMK_PROMOTE (R177). -/
  | dmkPromote (tower : Nat) (ctx : Nat) (fault : FigFault)
  /-- PARTITION_CREATE (R179). -/
  | partitionCreate (tower : Nat) (ctx : Nat) (fault : FigFault)
  /-- PARTITION_DELETE (R179). -/
  | partitionDelete (tower : Nat) (ctx : Nat) (fault : FigFault)
  /-- COMMISSION (R411). -/
  | commission (tower : Nat) (ctx : Nat) (fault : FigFault)
  /-- RECOMMISSION (R411). -/
  | recommission (tower : Nat) (ctx : Nat) (fault : FigFault)
  /-- RETURN (R411). -/
  | returnCer (tower : Nat) (ctx : Nat) (fault : FigFault)
  /-- SCRAP (R411). -/
  | scrap (tower : Nat) (ctx : Nat) (fault : FigFault)
  /-- CEREMONY_ABORT (R412). -/
  | ceremonyAbort (tower : Nat) (ctx : Nat) (fault : FigFault)
  /-- CEREMONY_WINDOW_EXPIRY (R406). -/
  | ceremonyWindowExpiry
  /-- LIFECYCLE_TRANSITION (R398). -/
  | lifecycleTransition (burn : BurnResult)
  /-- LCS_REQUEST (R401). -/
  | lcsRequest (target : Nat)
  /-- LCS_EXECUTE (R401). -/
  | lcsExecute (target : Nat)
  /-- REEL_CLONE_DOMAIN (R352). -/
  | reelCloneDomain (tower : Nat) (ctx : Nat) (fault : FigFault)
  /-- REEL_SEND (R349). -/
  | reelSend (tower : Nat) (ctx : Nat) (fault : FigFault)
  /-- REEL_SNAPSHOT (R346). -/
  | reelSnapshot (tower : Nat) (ctx : Nat) (fault : FigFault)
  /-- BATCH_CLOSE (R236). -/
  | batchClose
  /-- JOURNAL_WRITTEN (R239). -/
  | journalWritten (failed : Bool)
  /-- HOME_APPLIED (R239). -/
  | homeApplied (failed : Bool)
  /-- APPLY_RETRY (R240). -/
  | applyRetry (failed : Bool)
  /-- PAGE_LOCK (R242). -/
  | pageLock (tower : Nat) (ctx : Nat) (mem : List (Nat × Bytes)) (failed : Bool := false)
  /-- CREATE (R255). -/
  | vaultCreate
  /-- ATTACH (R255). -/
  | vaultAttach
  /-- DETACH (R255). -/
  | vaultDetach
  /-- KEEP_MAP_COMMIT (R221). -/
  | keepMapCommit
  /-- ARB_COMMIT (R310). -/
  | arbCommit
  /-- BLK_SHADOW_COMMIT (R12). -/
  | blkShadowCommit (page : Nat) (value : Word)
  /-- BLK_IRQ_TEST (R11). -/
  | blkIrqTest (page : Nat) (value : Word)
  /-- BLK_LOCK (R7). -/
  | blkLock (page : Nat) (value : Word)
  /-- LOW_HALF_READ (R9). -/
  | lowHalfRead (fn : Nat) (off : Nat) (width : Nat)
  /-- REGISTER_WRITE (R7). -/
  | registerWrite (fn : Nat) (off : Nat) (width : Nat) (value : Nat)
  /-- ACU_ENTRY_WRITE (R382). -/
  | acuEntryWrite (off : Nat) (width : Nat) (value : Nat)
  /-- MBOX_TO_MF (R60). -/
  | mboxToMf (tf : Nat) (value : Word)
  /-- CH_FROM_MF (R61). -/
  | chFromMf (tf : Nat) (value : Word)
  /-- TF_STOP (R70). -/
  | tfStop (tf : Nat)
  /-- TF_STOP_CLEAR (R70). -/
  | tfStopClear (tf : Nat)
  /-- TF_QUIESCED (R70). -/
  | tfQuiesced (tf : Nat)
  /-- TF_RESET (R66). -/
  | tfReset (tf : Nat)
  /-- TF_RESET_DONE (R66). -/
  | tfResetDone (tf : Nat)
  /-- TF_CEASE (R75). -/
  | tfCease (num : Nat)
  /-- HARVEST (R72). -/
  | dirtyHarvest (tf : Nat)
  /-- HARVEST_DONE (R72). -/
  | harvestDone (tf : Nat)
  /-- SAVE (R73). -/
  | qctxSave
  /-- RESTORE (R74). -/
  | qctxRestore
  /-- LINK_CHANGE (R75). -/
  | linkChange (speed : Nat) (width : Nat) (reversed : Bool)
  /-- MF_FLR (R67). -/
  | mfFlr (perst : Bool)
  /-- WARM_RESET (R450). -/
  | warmReset
  /-- COLD_RESET (R448). -/
  | coldReset (pwrgood : Bool) (cut : Option (Bool × Nat) := none)
  /-- STRAP_SAMPLE (R445). -/
  | strapSample (tn : BitVec 24)
  /-- FUSE_LOAD (R395). -/
  | fuseLoad
  /-- DEVICE_READY (R445). -/
  | deviceReady (lanes : List (Nat × Bool × Nat)) (spires : List Nat) (sources : List Nat) (core : Bool) (us : Nat)
  /-- DOME_POWER_UP (R421). -/
  | domePowerUp (lost : Bool)
  /-- TAMPER_EVENT (R424). -/
  | tamperEvent (cause : BitVec 15) (temp : BitVec 8) (vbat : Nat)
  /-- TAMPER_TOGGLE (R423). -/
  | tamperToggle (cause : BitVec 15)
  /-- ERASE_DONE (R424). -/
  | eraseDone
  /-- KEEP_ERASE_DONE (R424). -/
  | keepEraseDone
  /-- BATT_LOW (R422). -/
  | battLow (vbat : Nat)
  /-- DOME_ACK (R426). -/
  | domeAck (value : Word) (live : BitVec 15)
  /-- DROOP (R429). -/
  | droop (mv : Nat)
  /-- DROOP_RECOVERY (R429). -/
  | droopRecovery (mv : Nat)
  /-- BROWNOUT (R429). -/
  | brownout (mv : Nat)
  /-- THERMAL_READING (R430). -/
  | thermalReading (temps : List (BitVec 8))
  /-- THROTTLE_UPDATE (R430). -/
  | throttleUpdate
  /-- THERMAL_STOPPED (R432). -/
  | thermalStopped
  /-- THERMAL_STOP_TIMEOUT (R432). -/
  | thermalStopTimeout
  /-- SELF_TEST_START (R433). -/
  | selfTestStart (part : TestPart)
  /-- SELF_TEST_DONE (R433). -/
  | selfTestDone (part : TestPart) (pass : Bool)
  /-- SPARE_TOWER_TEST (R433). -/
  | spareTowerTest
  /-- TOWER_DRAINED (R436). -/
  | towerDrained (tower : Nat)
  /-- SPARING_FUSE_BURN (R437). -/
  | sparingFuseBurn (copyLost : Bool)
  /-- NOISE_WINDOW (R273). -/
  | noiseWindow (src : Nat) (samples : Bytes)
  /-- SEED_READY (R275). -/
  | seedReady
  /-- DRBG_INSTANTIATE (R276). -/
  | drbgInstantiate (inst : Nat)
  /-- DRBG_RESEED (R276). -/
  | drbgReseed (inst : Nat)
  /-- DRBG_GENERATE (R277). -/
  | drbgGenerate (inst : Nat)
  /-- DRBG_REQUEST_DONE (R277). -/
  | drbgRequestDone (inst : Nat)
  /-- SUP_CTX_UNFREEZE (R385). -/
  | supCtxUnfreeze (value : Word)
  /-- SUP_VIOL_POP (R387). -/
  | supViolPop (value : Word)
  /-- TARIFF_ARM (R359). -/
  | tariffArm
  /-- TARIFF_CANCEL (R359). -/
  | tariffCancel
  /-- TARIFF_SWITCH (R362). -/
  | tariffSwitch
  /-- INTERVAL_CLOSE (R365). -/
  | intervalClose
  /-- SNAP_BANK_SWAP (R370). -/
  | snapBankSwap
  /-- REEL_CTRL_PROMENADE (R324). -/
  | reelCtrlPromenade
  /-- PROMENADE (R324). -/
  | promenade (addr : Nat) (d : Nat) (echoes : List Nat) (seq : Nat := 0)
  /-- PROMENADE_END (R324). -/
  | promenadeEnd (n : Nat) (seq : Nat := 0)
  /-- TOPOLOGY (R324). -/
  | topology (n : Nat) (topo : Nat) (brk : Nat) (seq : Nat := 0) (src : Nat := 0)
  /-- DELAY_ECHO (R324). -/
  | delayEcho (down : Bool) (roundTrip : Nat)
  /-- LANE_SWAP (R323). -/
  | laneSwap (down : Bool) (lane : Nat) (seq : Nat := 0)
  /-- REEL_LANE_RETIRE (R323). -/
  | reelLaneRetire (down : Bool) (lane : Nat)
  /-- REEL_LINK_DOWN (R332). -/
  | reelLinkDown (down : Bool)
  /-- REEL_LINK_UP (R332). -/
  | reelLinkUp (down : Bool)
  /-- BREAK_NOTICE (R332). -/
  | breakNotice (addr : Nat) (h : Hdr := {})
  /-- RETRANSMIT_TIMEOUT (R328). -/
  | retransmitTimeout (down : Bool) (cls : Nat)
  /-- LINK_ACK (R328). -/
  | linkAck (down : Bool) (cls : Nat) (seq : Nat) (credits : List Nat)
  /-- LINK_NAK (R328). -/
  | linkNak (down : Bool) (cls : Nat) (seq : Nat)
  /-- WORD (R350). -/
  | reelWord (h : Hdr) (value : Word)
  /-- WITNESS (R247). -/
  | witnessRec (h : Hdr) (record : Bytes)
  /-- WITNESS_ACK (R247). -/
  | witnessAck (h : Hdr) (owner : Nat) (epoch : Nat)
  /-- SNAP_ORDER (R347). -/
  | snapOrder (bell : Nat) (issuer : Nat) (h : Hdr := {})
  /-- SNAPSHOT_CAPTURE (R347). -/
  | snapshotCapture
  /-- SNAP_ACK (R348). -/
  | snapAck (h : Hdr) (bell : Nat) (ans : Nat)
  /-- SET_ACK (R348). -/
  | setAck (h : Hdr) (bell : Nat) (captured : Nat) (missed : Nat)
  /-- SET_GATHER_TIMEOUT (R348). -/
  | setGatherTimeout (bell : Nat)
  /-- SNAP_DONE_TIMEOUT (R348). -/
  | snapDoneTimeout
  /-- PEER_QUERY (R251). -/
  | peerQuery (h : Hdr) (payload : Bytes)
  /-- PEER_REPLY (R251). -/
  | peerReply (h : Hdr) (payload : Bytes)
  /-- HANDOFF_PAGE (R251). -/
  | handoffPage (h : Hdr) (payload : Bytes)
  /-- HANDOFF_DESC (R252). -/
  | handoffDesc (h : Hdr) (payload : Bytes)
  /-- CLONE_HELLO (R352). -/
  | cloneHello (h : Hdr) (payload : Bytes)
  /-- CLONE_REPLY (R352). -/
  | cloneReply (h : Hdr) (payload : Bytes)
  /-- CLONE_KEY (R352). -/
  | cloneKey (h : Hdr) (payload : Bytes)
  /-- CLONE_DONE (R352). -/
  | cloneDone (h : Hdr) (payload : Bytes)
  /-- CLONE_SESSION_EXPIRY (R352). -/
  | cloneSessionExpiry
  /-- REEL_REPLY_TIMEOUT (R333). -/
  | reelReplyTimeout (tower : Nat) (ctx : Nat)
  /-- BELL (R335). -/
  | bellBlock (low40 : Nat) (corr : Nat)
  /-- BELL_ASSERT (R344). -/
  | bellAssert
  /-- BELL_LOSS (R340). -/
  | bellLoss
  /-- TIME_FULL (R337). -/
  | timeFull (number : Nat) (headState : Nat) (seq : Nat := 0)
  /-- PPS_EDGE (R338), with the ns for which the input was low before it and stays high after it (R457). -/
  | ppsEdge (gap : Nat) (phase : BitVec 32) (low : Nat := 1000) (high : Nat := 1000)
  /-- PPS_WINDOW_MISSED (R338). -/
  | ppsWindowMissed
  /-- TOD_FRAME (R339); `raw` gives it as the samples of its bits (R457). -/
  | todFrame (frame : Bytes) (afterMs : Nat) (raw : List (List Bool) := [])
  /-- TIME_SET (R342). -/
  | timeSet
  /-- PPS_OUT_END (R339). -/
  | ppsOutEnd
  /-- TOD_TX (R339). -/
  | todTx
  /-- INPUT_SAMPLE (R458). -/
  | inputSample (levels : BitVec 4)
  /-- STATUS (R459); with another `code`, or with bytes written beyond the command code, the transfer is NACKed or is another read. -/
  | smbStatus (code : Nat := 1) (extra : Bytes := [])
  /-- TEMPS (R459). -/
  | smbTemps
  /-- VOLTS (R459). -/
  | smbVolts
  /-- IDENT (R459). -/
  | smbIdent
  /-- COUNTS (R459). -/
  | smbCounts
  /-- ALERT (R460). -/
  | smbAlert
  /-- ALERT_RESPONSE (R459). -/
  | smbAlertResponse
  /-- VDD_AON_LOSS (R419). -/
  | vddAonLoss (vbat : Nat)
  /-- HOLDUP_OK_LOW (R397). -/
  | holdupOkLow
  /-- VF_ENABLE (R67). -/
  | vfEnable (num : Nat)
  /-- CTRL_DONE (R255). -/
  | ctrlDone (mem : List (Nat × Bytes))
  /-- QCTX_COMMAND_DONE (R74). -/
  | qctxCommandDone
  /-- REEL_PORT_DROP (R327). -/
  | reelPortDrop (down : Bool) (badCrc : Bool) (cls : Nat := 0) (seq : Nat := 0)
  deriving DecidableEq, Repr

end Sys2Proof
end

