-- ==== Sys2Proof/Decode.lean ====
section
/-! DEFINITION. Words that spell commands: the table gives bits to no row. -/

namespace Sys2Proof

/-- The command that the low `nbits` bits of `w` spell. No row of opcode_table.json has bits, so no word spells one. -/
def decodeTableWord (_nbits _w : Nat) : Option Instr := none

end Sys2Proof
end

