-- ==== Sys2Proof/Config.lean ====
section
/-! DEFINITION. Values that the spec leaves open, as constants without a body. -/

namespace Sys2Proof.Config

/-- The free values of the model, by number (log 3): a value that the spec leaves open. -/
opaque freeValue : Nat → Nat

/-- The keyed hash of a key handle, 16 bits of it used (10 R306): not given by the spec (log 3). -/
opaque handleHash : Nat → Nat → Nat

/-- The keyed hash that places a line in a set of its pool: key number, class, record index (07 R218): not given by
the spec (log 3). -/
opaque keepHash : Nat → Nat → Nat → Nat

/-- The P-384 public keys in mask ROM, 97 bytes big-endian: 0 is the manufacturer test root, 1 the RMA root (14 R391): not
given by the spec (log 3). -/
opaque romKey : Nat → Nat

end Sys2Proof.Config
end

