-- ==== Sys2Proof/Machine/Table.lean ====
section
/-! DEFINITION. Sparse tables: sorted lists of (index, entry) pairs in one canonical form. -/

namespace Sys2Proof.Machine

/-- A table by index. Indices rise strictly, and no entry equals the default the table is read with. -/
abbrev Tbl (α : Type) := List (Nat × α)

/-- Entry `k`, or the default `d` where the table lists none. -/
def tblGet {α : Type} (d : α) : Tbl α → Nat → α
  | [], _ => d
  | (j, v) :: r, k => if j = k then v else tblGet d r k

/-- The table without any entry `k`, so that a read after a write gives the value written in every table. -/
def tblErase {α : Type} : Tbl α → Nat → Tbl α
  | [], _ => []
  | (j, v) :: r, k => if j = k then tblErase r k else (j, v) :: tblErase r k

/-- The table with `v` at `k`, whatever `v` is. -/
def tblInsert {α : Type} : Tbl α → Nat → α → Tbl α
  | [], k, v => [(k, v)]
  | (j, w) :: r, k, v =>
    if j = k then (k, v) :: r else if k < j then (k, v) :: (j, w) :: r else (j, w) :: tblInsert r k v

/-- The table with `v` at `k`: an entry equal to the default is removed. -/
def tblSet {α : Type} [DecidableEq α] (d : α) (t : Tbl α) (k : Nat) (v : α) : Tbl α :=
  if v = d then tblErase t k else tblInsert t k v

/-- The canonical form: indices strictly rising, no entry equal to the default. -/
def tblWf {α : Type} [DecidableEq α] (d : α) : Tbl α → Bool
  | [] => true
  | (j, v) :: r => decide (v ≠ d) && r.all (fun e => decide (j < e.1)) && tblWf d r

/-- Writes a run of consecutive entries from `k`. -/
def tblSetRun {α : Type} [DecidableEq α] (d : α) : Tbl α → Nat → List α → Tbl α
  | t, _, [] => t
  | t, k, v :: r => tblSetRun d (tblSet d t k v) (k + 1) r

end Sys2Proof.Machine
end

