-- ==== Sys2Proof/Machine/State.lean ====
section
/-! DEFINITION. The state of the block, as plain data, and its value right after a cold reset.
Each field's text gives its width, the rule that names it and its reset value. -/

namespace Sys2Proof.Machine

/-- The function number of the MF in calls (02 R41). -/
abbrev mfNum : Nat := 0xFFFF

/-! ## Calls and figure contexts -/

/-- What a call waits for before its figure's last run, in the order of ranks (10 R314). -/
inductive Need
  /-- A line of the record in handle slot `slot` is in WRITING (R224, R226). -/
  | line (slot : Nat)
  /-- The vault fetch of the key in handle slot `slot` (R30). -/
  | fill (slot : Nat)
  /-- The vault fetch of a class 1 line of the call's partition (R170, R197). -/
  | fillLine (idx : Nat)
  /-- Ownership of Keep lines (R224). -/
  | keep (lines : List Nat) (excl : Bool)
  /-- A half of the tower's Spire (R283). -/
  | spire
  /-- Lanes of one kind (R256). -/
  | lanes (hash : Bool) (count config : Nat)
  /-- Bytes of the tower DRBG's buffer (R268). -/
  | draw (n : Nat)
  /-- Bytes of DRBG instance 17 (R279). -/
  | draw17 (n : Nat)
  /-- The scatter list (R85). -/
  | list
  /-- A blob read whole (R213). -/
  | blob
  /-- Input chunks up to IN_LEN (R87). -/
  | chunk
  /-- The target of a job operation reaches its resume point or its handoff (R101, R103). -/
  | job (tower ctx : Nat)
  /-- The journal commit of the call's group (R236). -/
  | commit
  /-- An answer over the Reel (R251, R352). -/
  | reel
  /-- A credit of one message class at a Reel port (R329, R346, R349). -/
  | credit (cls : Nat)
  /-- The card's response (R408). -/
  | card
  /-- The next page lock of a vault job (R242). -/
  | page
  /-- Ways that may be replaced, for Keep lines that the final step installs (R218). -/
  | way (lines : List Nat)
  /-- The ceremony calls that were dispatched earlier (R413). -/
  | turn
  deriving DecidableEq, Repr

/-- State of a figure context (10 R301). -/
inductive CtxState
  /-- Holds no call. -/
  | free
  /-- Executes a step of its figure. -/
  | running
  /-- Waits for the first of its needs. -/
  | waiting
  /-- Stopped by a violation (R384). -/
  | frozen
  deriving DecidableEq, Repr

/-- A call taken in by admission (03 R76, 01 R16). -/
structure Call where
  /-- Issuing function (R41). -/
  fn : Nat := 0
  /-- Queue pair of the issuing function. -/
  qp : Nat := 0
  /-- The 128 bytes of the descriptor (R76). -/
  desc : Bytes := []
  /-- Order of cycle 0 among all calls (R305): no two are equal. -/
  seq : Nat := 0
  /-- Bell number current at cycle 0; none while Reel time is unknown (R19, R20, R343). -/
  bell : Option Nat := none
  /-- DEV_STATUS.DEGRADED at cycle 0 (R92). -/
  degraded : Bool := false
  /-- Admission classified the call as a job (R98). -/
  isJob : Bool := false
  /-- Key bytes of the hash of HANDLE0 (R306). -/
  hash : Nat := 0
  /-- Core cycle of cycle 0 (R16). -/
  cycle0 : Nat := 0
  /-- The function has ceased to exist since cycle 0 (R67, R75): the completion is discarded. -/
  dead : Bool := false
  deriving DecidableEq, Repr

/-- The fields of a key record (06 R187), with its material in clear. -/
structure KeyRec where
  /-- FORMAT, 8 bits. -/
  format : Nat := 0
  /-- ALG, 8 bits (R191). -/
  alg : Nat := 0
  /-- USAGE, two characters, first character in the high byte. -/
  usage : Nat := 0
  /-- MODE, one character. -/
  mode : Nat := 0
  /-- EXPORT, one character. -/
  exportC : Nat := 0
  /-- FLAGS, 8 bits. -/
  flags : Nat := 0
  /-- CHECK, 8 bits. -/
  check : Nat := 0
  /-- VERSION, 16 bits. -/
  version : Nat := 0
  /-- LINES, 8 bits. -/
  lines : Nat := 0
  /-- ROT_STATE, 8 bits. -/
  rotState : Nat := 0
  /-- NOT_BEFORE, 48 bits. -/
  notBefore : Nat := 0
  /-- NOT_AFTER, 48 bits. -/
  notAfter : Nat := 0
  /-- KCV, 3 bytes. -/
  kcv : Bytes := []
  /-- AEAD_COUNT, 40 bits. -/
  aead : Nat := 0
  /-- ROTATE_AT, 48 bits. -/
  rotateAt : Nat := 0
  /-- SUCCESSOR, 48 bits. -/
  successor : Nat := 0
  /-- DMK_ID, 2 bytes. -/
  dmkId : Bytes := []
  /-- KEYLEN, 16 bits. -/
  keylen : Nat := 0
  /-- EXT, 16 bytes (R188). -/
  ext : Bytes := []
  /-- Clear material, KEYLEN bytes. -/
  material : Bytes := []
  deriving DecidableEq, Repr

/-- One entry of a scatter list (03 R84). -/
structure Seg where
  /-- SEG_ADDR, 64 bits. -/
  addr : Nat := 0
  /-- SEG_LEN, 25 bits. -/
  len : Nat := 0
  /-- SEG_FLAGS.OUT. -/
  out : Bool := false
  deriving DecidableEq, Repr

/-- A slot of the Spire's private memory (09 R282): 4,096 bits with a declared length. -/
structure SpSlot where
  /-- Declared bit length. -/
  len : Nat := 0
  /-- Contents. -/
  val : Nat := 0
  deriving DecidableEq, Repr

/-- The work of a call so far: what its context area and staging blocks hold (10 R303), or a suspended job's
entry (R99). -/
structure Work where
  /-- Bytes of the scatter list received so far (R85). -/
  listRaw : Bytes := []
  /-- Segments of the scatter list, once it has passed its checks (R85). -/
  segs : List Seg := []
  /-- The blob, once read (R213). -/
  blob : Bytes := []
  /-- Input stream bytes received so far (R87): they stand for the chaining state. -/
  input : Bytes := []
  /-- Output stream bytes written so far (R88). -/
  outLen : Nat := 0
  /-- Input bytes that earlier carrying calls consumed (R356). -/
  inBase : Nat := 0
  /-- Output bytes that earlier carrying calls produced (R356). -/
  outBase : Nat := 0
  /-- Bytes drawn from the DRBG for the call (R268). -/
  drawn : Bytes := []
  /-- Units of work done (R101). -/
  progress : Nat := 0
  /-- Units in the whole job (R101). -/
  total : Nat := 0
  /-- Step reached by a figure of several phases (R251, R352, R293). -/
  phase : Nat := 0
  /-- Values a figure keeps between its phases. -/
  vals : List Nat := []
  /-- Bytes a figure keeps between its phases. -/
  keep : Bytes := []
  /-- The figure has done its work but for its completion (R239 step 3). -/
  done : Bool := false
  /-- A byte for the first CHECK of a volatile index has been asked for: it is the last one drawn (06 R186). -/
  check : Bool := false
  /-- The Spire half of a job that is suspended, beside the operands of its key and input, by slot of the half (09 R289). -/
  half : Tbl SpSlot := []
  /-- Slots of the half that hold the operands of key and input (09 R282). -/
  ops : Nat := 0
  /-- Step of the figure's Spire step list that comes next (09 R284). -/
  pc : Nat := 0
  /-- Parts of that step's command that are done: 64 exponent or scalar bits, or a layer of a transform (09 R288). -/
  bits : Nat := 0
  /-- Spire command cycles of the work, over all its carrying calls (09 R290; 12 R356). -/
  sp : Nat := 0
  /-- Cycles of the work, on lanes or the Spire, that earlier carrying calls did (03 R102; 12 R356). -/
  base : Nat := 0
  /-- Strings and polynomials that a Spire figure keeps in its context buffer between commands (09 R282). -/
  buf : Tbl SpSlot := []
  deriving DecidableEq, Repr

/-- The registers of a lane behind its lock register, which no command of the host reads (08 R258, R261, R269). All are clear at
reset. -/
structure LaneRegs where
  /-- Key register; of an HMAC, the key block. -/
  key : Bytes := []
  /-- The key register was loaded from the root slot (R261). -/
  opaque_ : Bool := false
  /-- Root slot of a cipher lane: a DMK, or a partition root (R261). -/
  root : Bytes := []
  /-- Chaining value, IV or counter block. -/
  chain : Bytes := []
  /-- CMAC or GHASH accumulator; of a hash lane, the chaining state. -/
  acc : Bytes := []
  /-- CMAC subkeys or GHASH subkey. -/
  sub : Bytes := []
  /-- Byte count; of a hash lane, the message length. -/
  count : Nat := 0
  deriving DecidableEq, Repr

/-- A save area: the state of one lane that the context must get back (08 R269). -/
structure Saved where
  /-- Hash lane. -/
  hash : Bool := false
  /-- Configuration. -/
  config : Nat := 0
  /-- The lane's registers. -/
  regs : LaneRegs := {}
  /-- The figure has released the lane itself, before a wait for the Keep or a fetch: the new request adds no cycles (R259). -/
  own : Bool := false
  deriving DecidableEq, Repr

/-- Lines that a fill has fetched and verified (07 R218, R235). -/
structure Fetch where
  /-- Index of the first line. -/
  idx : Nat := 0
  /-- First index of the record they are; none where they are no record. -/
  first : Option Nat := none
  /-- The lines in clear. -/
  lines : List Bytes := []
  /-- The key record they hold. -/
  key : Option KeyRec := none
  deriving DecidableEq, Repr

/-- A figure context (10 R301, R321). -/
structure Ctx where
  /-- TWR_CTX_STATE.STATE; FREE at reset. -/
  st : CtxState := .free
  /-- The call; none at reset. -/
  call : Option Call := none
  /-- What the call still waits for, first the one it waits for now. -/
  needs : List Need := []
  /-- Copies of the call's key records, by handle slot (R28, R200). -/
  keys : List (Option KeyRec) := []
  /-- Outcome of each handle slot's fetch: 0, or the status of a failed fill (R30). -/
  keyErr : List Nat := []
  /-- The keys have passed the checks of R28: completion build counts their use (01 R32). -/
  keysOk : Bool := false
  /-- A job's claim of its entry has failed: status, path-table value and results of a call whose keys pass (03 R99). -/
  claim : Option (Nat × Nat × Bytes) := none
  /-- Record space claimed at dispatch: class and first index of two lines (04 R140). -/
  space : Option (Nat × Nat) := none
  /-- At least one key missed the tower key cache (CFLAGS.KEEP, R92). -/
  keepHit : Bool := false
  /-- At least one key came from the vault (CFLAGS.VAULT, R92). -/
  vaultHit : Bool := false
  /-- Lines filled from the vault for the call (tally 11, R355). -/
  vaultReads : Nat := 0
  /-- Wait cycles counted so far (R17). -/
  waits : Nat := 0
  /-- Vault fetch cycles counted so far (R30). -/
  fetchCycles : Nat := 0
  /-- TWR_CTX_STATE.STALL, 20 bits; 0 at reset (R315). -/
  stall : Nat := 0
  /-- Cycles the present request has waited: its age at a lane or DRBG arbiter (R256, R277), or the wait for a reply over the
  Reel (R333). -/
  age : Nat := 0
  /-- Age of the context's last lane request when it was granted: a suspended context asks again with it (R270). -/
  laneAge : Nat := 0
  /-- Age at ARB_KEEP, at ARB_SPIRE and at ARB_DMA (R309). -/
  arbAge : List Nat := [0, 0, 0]
  /-- Staging blocks claimed (R303). -/
  blocks : Nat := 0
  /-- Lane states in the save areas (R269). -/
  saved : List Saved := []
  /-- A lane of the context was saved in this cycle (REASON 10, R321). -/
  saving : Bool := false
  /-- Keep lines granted to the context (R224). -/
  grant : List Nat := []
  /-- The grant is exclusive. -/
  grantExcl : Bool := false
  /-- Working cycles of the grant (R224). -/
  work256 : Nat := 0
  /-- What the figure has gathered. -/
  work : Work := {}
  /-- The outcome of a call that waits for its group's commit (R239): status, path-table value, Spire command cycles
  and results. -/
  held : Option (Nat × Nat × Nat × Bytes) := none
  /-- Lines in the call's group (tally 12, R355). -/
  groupLines : Nat := 0
  /-- The fetches that the vault engine has asked for and that are not answered, oldest first (01 R30). -/
  asked : List Need := []
  /-- Lines fetched and verified for a need of the call that wait in the vault engine for a way (07 R218). -/
  ready : List (Need × Fetch) := []
  /-- Order of the call's dispatch: how many came before it (14 R413). -/
  disp : Nat := 0
  deriving DecidableEq, Repr

/-- A lane's lock register (08 R256, R281). -/
structure Lane where
  /-- OWNER, 3 bits, and HELD; none at reset. -/
  owner : Option Nat := none
  /-- MARKED; 0 at reset. -/
  marked : Bool := false
  /-- CONFIG, 3 bits; 0 at reset. -/
  config : Nat := 0
  /-- ROLE: 0 SPARE, 1 IN_SERVICE, 2 RETIRED. -/
  role : Nat := 1
  /-- The residue check failed: no further grants (R260). -/
  faulty : Bool := false
  /-- A self-test runs in the lane (R433). -/
  testing : Bool := false
  /-- Its other registers. -/
  regs : LaneRegs := {}
  deriving DecidableEq, Repr

/-- One entry of a tower key cache (07 R216, R217). -/
structure CacheEnt where
  /-- Partition of the key. -/
  part : Nat := 0
  /-- CLASS of the key. -/
  cls : Nat := 0
  /-- RECORD of the key. -/
  idx : Nat := 0
  /-- The record. -/
  key : KeyRec := {}
  /-- Order of last use (01 R32). -/
  used : Nat := 0
  /-- Use count (01 R32; 10 R317), of no given width (DESIGN CHOICE, log 117). -/
  uses : Nat := 0
  /-- Of a tokenization key, the token index key (08 R262); otherwise empty. -/
  tidx : Bytes := []
  /-- CMAC subkeys of an M6 key, or of the token index key (05 R156, R164). -/
  sub : Bytes := []
  /-- GCM hash subkey of an AES key of usage D0 (05 R162). -/
  hsub : Bytes := []
  /-- HMAC inner and outer states of an M7 key, each after its key block: under SHA-256, SHA-384, SHA-512 and SHA3-256 (05 R156). -/
  hmac : List Bytes := []
  deriving DecidableEq, Repr

/-- A tower's Spire (09 R282, R300). -/
structure Spire where
  /-- HALF0_OWNER and HALF0_HELD; none at reset. -/
  half0 : Option Nat := none
  /-- HALF1_OWNER and HALF1_HELD; none at reset. -/
  half1 : Option Nat := none
  /-- RESIDENT and RESIDENT_HALF; none at reset. -/
  resident : Option Nat := none
  /-- The resident job has yielded to the call of the other half (R288). -/
  switched : Bool := false
  /-- The Spire is back with the resident job, which has not reached its next yield point (R288). -/
  owed : Bool := false
  /-- Private memory by slot 0 to 63: half 0 and half 1 (R282); clear at reset. -/
  slots : Tbl SpSlot := []
  /-- The flag of MCMP and PSCMP (R285); 0 at reset. -/
  flag : Bool := false
  /-- RETIRED; 0 at reset. -/
  retired : Bool := false
  /-- TWR_SPIRE_CMD, 32 bits; 0 at reset. -/
  cmd : Word := 0
  /-- TWR_SPIRE_BUSY, 64 bits; 0 at reset. -/
  busy : Nat := 0
  /-- TWR_SPIRE_YIELDS, 32 bits saturating; 0 at reset. -/
  yields : Nat := 0
  /-- TWR_SPIRE_REFUSALS, 32 bits saturating; 0 at reset. -/
  refusals : Nat := 0
  /-- TWR_SPIRE_FAULTS, 32 bits saturating; 0 at reset. -/
  faults : Nat := 0
  /-- A self-test runs in a half (R433). -/
  testing : Bool := false
  /-- First cycle in which this tower's instance of ARB_SPIRE holds a round again after a withdrawal (10 R311). -/
  dead : Nat := 0
  deriving DecidableEq, Repr

/-- A DRBG instance (08 R276, R277). -/
structure Drbg where
  /-- STATE without STARVED: 0 UNSEEDED, 1 SERVING, 2 RESEED_DUE; 0 at reset. -/
  st : Nat := 0
  /-- REQS, 13 bits; 0 at reset. -/
  reqs : Nat := 0
  /-- Key of the CTR_DRBG, 32 bytes; PRESUMED (SP 800-90A); none before instantiation. -/
  key : Bytes := []
  /-- V of the CTR_DRBG, 16 bytes; PRESUMED (SP 800-90A). -/
  v : Bytes := []
  /-- A request in progress: 1 generate, 2 reseed; 0 at reset. -/
  busy : Nat := 0
  /-- Cycles left of the request in progress, of 56 (R276, R277). -/
  left : Nat := 0
  /-- Cycle since which the instance waits for a seed (R278). -/
  due : Nat := 0
  /-- RNG_INST_RESEEDS, 32 bits saturating; 0 at reset. -/
  reseeds : Nat := 0
  /-- A seed given out for a reseed in progress. -/
  seed : Bytes := []
  deriving DecidableEq, Repr

/-- A tower (00 R3). -/
structure Tower where
  /-- Cipher lanes 0 to 5 (R281). -/
  clanes : List Lane := List.replicate 5 ({} : Lane) ++ [({ role := 0 } : Lane)]
  /-- Hash lanes 0 to 2 (R281). -/
  hlanes : List Lane := List.replicate 2 ({} : Lane) ++ [({ role := 0 } : Lane)]
  /-- Figure contexts 0 to 7 (R301). -/
  ctxs : List Ctx := List.replicate 8 ({} : Ctx)
  /-- Tower key cache, by entry 0 to 255; empty at reset (R216). -/
  cache : Tbl CacheEnt := []
  /-- The Spire. -/
  spire : Spire := {}
  /-- DRBG buffer, at most 256 bytes; empty at reset (R277). -/
  buf : Bytes := []
  /-- Free staging blocks, of 6 (R303). -/
  blocks : Nat := 6
  /-- TWR_LANE_WAIT, 32 bits saturating; 0 at reset. -/
  laneWait : Nat := 0
  /-- TWR_LANE_PREEMPTS, 32 bits saturating; 0 at reset. -/
  lanePreempts : Nat := 0
  /-- TWR_LANE_FAULTS, 32 bits saturating; 0 at reset. -/
  laneFaults : Nat := 0
  /-- TWR_DRBG_DRAWS, 32 bits saturating; 0 at reset. -/
  draws : Nat := 0
  /-- TWR_DISPATCHES, 32 bits saturating; 0 at reset. -/
  dispatches : Nat := 0
  deriving DecidableEq, Repr

/-- A job-store entry (03 R99, R100). -/
structure Job where
  /-- Owning function. -/
  fn : Nat := 0
  /-- Tag of the call that created the job. -/
  tag : Nat := 0
  /-- Carrying queue pair. -/
  qp : Nat := 0
  /-- SUSPENDED; otherwise RUNNING. -/
  suspended : Bool := false
  /-- Tower and context of the carrying call while RUNNING. -/
  at_ : Nat × Nat := (0, 0)
  /-- The call that created the job. -/
  call : Call := {}
  /-- The work saved at the last resume point (R101). -/
  work : Work := {}
  /-- PROGRESS at the last resume point passed (R104). -/
  progress : Nat := 0
  /-- TOTAL (R101). -/
  total : Nat := 0
  /-- A suspension is asked for by the call of this tower and context (R101). -/
  suspendBy : Option (Nat × Nat) := none
  /-- A cancellation is asked for by the call of this tower and context (R103). -/
  cancelBy : Option (Nat × Nat) := none
  deriving DecidableEq, Repr

/-! ## Pages -/

/-- The common head of a block page (00 R11). -/
structure Head where
  /-- BLK_CTRL, 32 bits; 0 at reset. -/
  ctrl : Word := 0
  /-- BLK_STATUS.WERR; 0 at reset. -/
  werr : Bool := false
  /-- BLK_IRQ_STATUS, 32 bits; 0 at reset. -/
  irqStatus : Word := 0
  /-- BLK_IRQ_ENABLE, 32 bits; 0 at reset. -/
  irqEnable : Word := 0
  /-- BLK_LOCK, 32 bits; 0 at reset; kept by every reset but cold (R449). -/
  lock : Word := 0
  /-- A BLK_SHADOW_COMMIT waits for the page's commit point (R12); 0 at reset. -/
  commit : Bool := false
  /-- BLK_WERR_COUNT, 32 bits saturating; 0 at reset. -/
  werrCount : Nat := 0
  /-- High half latched by a dword read of the low half, with the high half's offset (R9). -/
  latch : Option (Nat × Word) := none
  deriving DecidableEq, Repr

/-- The DEV page and the pins (16 R461). -/
structure Dev where
  /-- DEV_STATUS.READY; "-", 0 until R445 sets it. -/
  ready : Bool := false
  /-- DEV_STATUS.SELFTEST_FAIL; "-" (DESIGN CHOICE 0, log 10). -/
  selftestFail : Bool := false
  /-- DEV_STATUS.STRAP_ERR; "-" (DESIGN CHOICE 0, log 10). -/
  strapErr : Bool := false
  /-- DEV_STATUS.TN_PHASE: 0 STRAP, 1 SETTLE, 2 SERVICE, 3 TEST; 0 until the straps are sampled (R445). -/
  tnPhase : Nat := 0
  /-- DEV_STRAPS, 24 bits; "-" (DESIGN CHOICE 0, log 10). -/
  straps : BitVec 24 := 0
  /-- DEV_SELFTEST, 24 bits; "-" (DESIGN CHOICE 0, log 10). -/
  selftest : BitVec 24 := 0
  /-- DEV_BOOT_US, 16 bits saturating; "-" (DESIGN CHOICE 0, log 10). -/
  bootUs : Nat := 0
  /-- DEV_TN_IN, 4 bits: FAN_FAIL, ENCL_OPEN, CARD_A, CARD_B; 0 at reset. -/
  tnIn : BitVec 4 := 0
  /-- Consecutive samples of each debounced input that disagree with its state (R458); 0 at reset. -/
  disagree : List Nat := [0, 0, 0, 0]
  /-- DEV_TN_OUT, 4 bits; 0 at reset. -/
  tnOut : BitVec 4 := 0
  /-- SERVICE-phase pin PPS_OUT (R339, R455); low at reset. -/
  ppsOut : Bool := false
  /-- Last TOD frame sent on TOD_TX (R339); none at reset. -/
  todTx : Bytes := []
  /-- PE_PERST_N holds the link down (R448). -/
  perst : Bool := false
  deriving DecidableEq, Repr

/-- One violation-log entry: its four dwords (13 R390). -/
abbrev VLog := List Word

/-- The SUP page (13 R390, 15 R441). -/
structure Sup where
  /-- SUP_VIOL_LOG, at most 16 entries, oldest first; empty at reset. -/
  log : List VLog := []
  /-- SUP_VIOL_TOTAL, 32 bits saturating; 0 at reset. -/
  total : Nat := 0
  /-- SUP_VIOL_LOST, 32 bits saturating; 0 at reset. -/
  lost : Nat := 0
  /-- SUP_TOWER_SUSPECT, 17 bits; 0 at reset. -/
  suspect : BitVec 17 := 0
  /-- SUP_SPARE_CTRL.TEST_EN; 1 at reset. -/
  testEn : Bool := true
  /-- SUP_TOWER_ROLE, 2 bits for each tower: 0 SPARE, 1 IN_SERVICE, 2 RETIRED, 3 DRAINING; "-", TOWER16 the spare (R436). -/
  roles : List Nat := List.replicate 16 1 ++ [0]
  /-- SUP_TESTS, 64 bits; 0 at reset. -/
  tests : Nat := 0
  /-- SUP_TEST_FAILS, 32 bits saturating; 0 at reset. -/
  testFails : Nat := 0
  /-- SUP_LAST_RETIRE, 32 bits; 0 at reset. -/
  lastRetire : Word := 0
  /-- SUP_FUSE_STATUS.PENDING: sparing records that wait to be burned (R437); none at reset. -/
  pending : List Nat := []
  /-- SUP_FUSE_STATUS.COPY_LOST; 0 at reset. -/
  copyLost : Bool := false
  /-- SUP_KEEP_ROWS_DISABLED: the rows disabled; none at reset (R434). -/
  rowsDisabled : List Nat := []
  /-- Keep rows whose lock the controller waits for, oldest first (R434). -/
  rowsWaiting : List Nat := []
  /-- Corrections per Keep row since cold reset (R434); none at reset. -/
  rowCorr : Tbl Nat := []
  /-- SUP_ECC_CORR, 32 bits saturating; 0 at reset. -/
  eccCorr : Nat := 0
  /-- SUP_ECC_UNCORR, 32 bits saturating; 0 at reset. -/
  eccUncorr : Nat := 0
  /-- Cycles since the spare tower's last test (R433). -/
  spareTimer : Nat := 0
  /-- The spare tower is under its test (R433). -/
  spareTesting : Bool := false
  /-- A drained tower whose spare must pass its test before it enters service (R436). -/
  replacing : Option (Nat × Nat) := none
  /-- That spare has passed its test, and enters service once its DRBG is instantiated (R436). -/
  spareReady : Bool := false
  /-- Parts of suspect towers that are to be tested at their next idle slots (R385, R433); none at reset. -/
  owed : List TestPart := []
  /-- SUP_DEGRADED as last seen, for DEGRADED_CHANGE; 0 at reset. -/
  degradedSeen : Nat := 0
  deriving DecidableEq, Repr

/-- The PWR page (15 R440). -/
structure Pwr where
  /-- PWR_STATUS.DROOP; 0 at reset. -/
  droop : Bool := false
  /-- PWR_STATUS.THERMAL: 0 NORMAL, 1 THROTTLE, 2 STOPPING, 3 STOPPED; 0 at reset. -/
  thermal : Nat := 0
  /-- PWR_DROOP_COUNT, 32 bits saturating; 0 at reset. -/
  droopCount : Nat := 0
  /-- PWR_VCORE, 10 bits, mV; "-", the nominal 750 (DESIGN CHOICE, log 10). -/
  vcore : Nat := 750
  /-- PWR_TJ by sensor 0 to 17, 8 bits each; "-" (DESIGN CHOICE 0, log 10). -/
  tj : List (BitVec 8) := List.replicate 18 0
  /-- PWR_TJ_SEL, 5 bits; 0 at reset. -/
  tjSel : Nat := 0
  /-- PWR_TJ_PEAK: highest reading since cold reset and its sensor; none at reset: it reads 0 (R440). -/
  tjPeak : Option (BitVec 8 × Nat) := none
  /-- PWR_THROTTLED, 17 bits; 0 at reset. -/
  throttled : BitVec 17 := 0
  /-- PWR_THROTTLE_COUNT, 32 bits saturating; 0 at reset. -/
  throttleCount : Nat := 0
  /-- PWR_RESET_CAUSE, 5 bits; "-": PORST after a cold reset (R449). -/
  cause : BitVec 5 := 1
  /-- Towers powered off by a thermal stop (R432). -/
  towersOff : Bool := false
  /-- HOLDUP_OK as the pin reads (LCS_POWER, R397); LCS_POWER is 0 at reset. -/
  holdup : Bool := false
  /-- VDD_CORE is above its warning level (LCS_POWER.SUPPLY_OK, R397, R416); LCS_POWER is 0 at reset. -/
  supplyOk : Bool := false
  deriving DecidableEq, Repr

/-- The fuse array (14 R394 to R400, R418; 15 R437). -/
structure Fuse where
  /-- FUSE_STATUS.LOADED; "-", 0 until the fuses load. -/
  loaded : Bool := false
  /-- Life-cycle rows 0 to 23, 32 bits each; blank in a new part (DESIGN CHOICE, log 11). -/
  rows : List Word := List.replicate 24 0
  /-- Policy blocks 0 to 11, 49 bytes each; blank in a new part (DESIGN CHOICE, log 11). -/
  policy : List Bytes := List.replicate 12 (zeros 49)
  /-- Owner digest, 48 bytes; zero: no owner (R391; DESIGN CHOICE, log 11). -/
  owner : Bytes := zeros 48
  /-- Device serial, 64 bits (DESIGN CHOICE 0, log 11). -/
  serial : Nat := 0
  /-- Grade C8400-X (0x58); otherwise C8400-C (0x43) (R5; DESIGN CHOICE, log 11). -/
  gradeX : Bool := false
  /-- UDS, 32 bytes (R172; DESIGN CHOICE 0, log 11). -/
  uds : Bytes := zeros 32
  /-- Sparing fuses: records of retired lanes, towers and repaired Keep rows, each with the mask of its three copies that are burned
  (R437); none in a new part. -/
  sparing : List (Nat × Nat) := []
  /-- FUSE_CFG_DIGEST, 48 bytes; "-", computed at fuse load (DESIGN CHOICE zero before, log 10). -/
  cfgDigest : Bytes := zeros 48
  /-- A burn has failed twice: the device is LOST (R399). -/
  lost : Bool := false
  /-- FUSE_POLICY_SEL, 4 bits; 0 at reset. -/
  policySel : Nat := 0
  deriving DecidableEq, Repr

/-- The life cycle (14 R391, R416). -/
structure Lcs where
  /-- LCS_STATE.STATE: 0 BLANK, 1 TEST, 2 SEALED, 3 SERVICE, 4 RETURN, 5 SCRAP, 6 LOST; "-", decided at fuse load. -/
  st : Nat := 0
  /-- LCS_LAST_RESULT.RESULT, 4 bits; 0 at reset. -/
  result : Nat := 0
  /-- LCS_LAST_RESULT.TARGET, 3 bits; 0 at reset. -/
  target : Nat := 0
  /-- LCS_CHALLENGE, 32 bytes; 0 at reset. -/
  challenge : Bytes := zeros 32
  /-- The challenge has not been used by an EXECUTE: its TARGET (R401). -/
  armed : Option Nat := none
  /-- LCS_AUTH, 96 bytes; 0 at reset. -/
  auth : Bytes := zeros 96
  /-- LCS_OWNER, 48 bytes; 0 at reset. -/
  owner : Bytes := zeros 48
  /-- A transition in step 1 of R398: its target STATE, with the tower and context of the ceremony commit. -/
  transition : Option (Nat × Option (Nat × Nat)) := none
  deriving DecidableEq, Repr

/-- An open ceremony (14 R404 to R410). -/
structure Ceremony where
  /-- TYPE. -/
  typ : Nat := 0
  /-- PORTS. -/
  ports : Nat := 0
  /-- The input of CEREMONY_OPEN. -/
  input : Bytes := []
  /-- CHALLENGE, 32 bytes. -/
  challenge : Bytes := []
  /-- PDIGEST, 48 bytes. -/
  pdigest : Bytes := []
  /-- AUTHORIZED (R410). -/
  authorized : Bool := false
  /-- Slots counted (CUS_AUTHED). -/
  counted : List Nat := []
  /-- Components accepted, in order (R410). -/
  comps : List Bytes := []
  /-- AUTH_REJECTED outcomes in this ceremony (R409). -/
  rejects : Nat := 0
  /-- Reel second whose Bell closes it; none for a window counted in cycles (R406). -/
  expires : Option Nat := none
  /-- Cycles left of a window counted in cycles (R406). -/
  cyclesLeft : Nat := 0
  /-- The ephemeral private key in the Dome, for DMK_LOAD (R405). -/
  eph : Nat := 0
  deriving DecidableEq, Repr

/-- What the device drives at a card port: supply, reset, clock, and the data line where it is not high-impedance (16 R456). -/
structure CardPins where
  /-- VCC_EN. -/
  vcc : Bool := false
  /-- RST. -/
  rst : Bool := false
  /-- CLK runs. -/
  clk : Bool := false
  /-- IO: a level, or none while it is high-impedance. -/
  io : Option Bool := none
  deriving DecidableEq, Repr

/-- Custody: the CUS page (14 R417). -/
structure Cus where
  /-- The loaded custodian table, 1,761 bytes; none at reset (R403). -/
  table : Option Bytes := none
  /-- The open ceremony; none at reset. -/
  cer : Option Ceremony := none
  /-- CUS_STATUS.LAST_CLOSE, 4 bits; 0 at reset. -/
  lastClose : Nat := 0
  /-- CUS_REJECTS, 32 bits saturating; 0 at reset. -/
  rejects : Nat := 0
  /-- CUS_CARD.A_ACTIVE and B_ACTIVE; 0 at reset. -/
  active : Bool × Bool := (false, false)
  /-- The steps of the last activation or deactivation of port A and of port B; the last of them holds now (16 R456); none at reset. -/
  pins : List CardPins × List CardPins := ([], [])
  /-- A ceremony whose window has ended, for the calls whose cycle 0 came before: those with a sequence number below the second
  part (R406); none at reset. -/
  closing : Option (Ceremony × Nat) := none
  /-- The command last sent to the card of port A and of port B (R408); none at reset. -/
  apdu : Bytes × Bytes := ([], [])
  deriving DecidableEq, Repr

/-- A key set of the vault (07 R230). -/
structure KeySet where
  /-- DMK_ID, 2 bytes. -/
  dmkId : Bytes := []
  /-- VKEY_GEN, 16 bits. -/
  gen : Nat := 0
  deriving DecidableEq, Repr

/-- A root slot of the Dome (07 R239). -/
structure RootSlot where
  /-- The VALID word. -/
  valid : Bool := false
  /-- VAULT_ID, 8 bytes. -/
  vaultId : Bytes := []
  /-- EPOCH, 64 bits. -/
  epoch : Nat := 0
  /-- P / 2^23 - 1. -/
  p : Nat := 0
  /-- log2 J - 24. -/
  j : Nat := 0
  /-- Key set 0. -/
  set0 : KeySet := {}
  /-- Key set 1, where valid. -/
  set1 : Option KeySet := none
  /-- CURRENT_SET. -/
  cur : Bool := false
  /-- The root node, 64 bytes. -/
  root : Bytes := []
  /-- SEQ of its batch. -/
  seq : Nat := 0
  /-- Journal line of its batch's header. -/
  off : Nat := 0
  /-- N of its batch. -/
  n : Nat := 0
  /-- Header tag of its batch, 8 bytes. -/
  tag : Bytes := []
  deriving DecidableEq, Repr

/-- One entry of the tamper log (15 R427). -/
structure TamperEnt where
  /-- EVENT. -/
  event : Nat := 0
  /-- CAUSE. -/
  cause : BitVec 15 := 0
  /-- ON_BATTERY. -/
  onBattery : Bool := false
  /-- CACHES_CLEARED. -/
  cleared : Bool := false
  /-- TIME_BELL_NOW. -/
  bell : Nat := 0
  /-- Temperature. -/
  temp : BitVec 8 := 0
  /-- VBAT in mV. -/
  vbat : Nat := 0
  /-- Toggles counted. -/
  toggles : Nat := 0
  deriving DecidableEq, Repr

/-- OPEN or CLOSED word of a TF (12 R364). -/
structure LedgerWord where
  /-- COST, 40 bits. -/
  cost : Nat := 0
  /-- PEAK, 23 bits. -/
  peak : Nat := 0
  /-- P. -/
  par : Bool := false
  deriving DecidableEq, Repr

/-- The metering ledger in Dome RAM (12 R364). A blank Dome reads as a head of zeros, with LEN 60 and AT all
ones (R371). -/
structure Ledger where
  /-- BEGIN. -/
  begin_ : Nat := 0
  /-- COMMIT. -/
  commit : Nat := 0
  /-- OPEN_START. -/
  openStart : Nat := 0
  /-- CLOSED_START. -/
  closedStart : Nat := 0
  /-- CLOSED_LEN. -/
  closedLen : Nat := 0
  /-- CLOSED_FLAGS. -/
  closedFlags : Nat := 0
  /-- OPEN_FLAGS. -/
  openFlags : Nat := 0
  /-- LEN. -/
  len : Nat := 60
  /-- CLOSED_COMMIT. -/
  closedCommit : Nat := 0
  /-- ACTIVE_ID. -/
  activeId : Word := 0
  /-- PENDING_ID. -/
  pendingId : Word := 0
  /-- AT; none when nothing is armed (all ones). -/
  at_ : Option Nat := none
  /-- ACTIVE weights 0 to 15, 16 bits each. -/
  active : List Nat := List.replicate 16 0
  /-- PENDING weights 0 to 15, 16 bits each. -/
  pending : List Nat := List.replicate 16 0
  /-- An interval is open: OPEN_START stands. -/
  open_ : Bool := false
  /-- An interval has closed since the ledger was blank (R367). -/
  everClosed : Bool := false
  /-- OPEN words by TF. -/
  openW : Tbl LedgerWord := []
  /-- CLOSED words by TF. -/
  closedW : Tbl LedgerWord := []
  deriving DecidableEq, Repr

/-- The Dome (15 R419 to R427, R439). -/
structure Dome where
  /-- DOME_STATUS.TAMPERED; "-" (DESIGN CHOICE 0, log 10). -/
  tampered : Bool := false
  /-- DOME_STATUS.ACKED; "-" (DESIGN CHOICE 0, log 10). -/
  acked : Bool := false
  /-- DOME_STATUS.ERASING; "-" (DESIGN CHOICE 0, log 10). -/
  erasing : Bool := false
  /-- DOME_STATUS.BATT_LOW; "-" (DESIGN CHOICE 0, log 10). -/
  battLow : Bool := false
  /-- DOME_STATUS.BLANK_START; "-" (DESIGN CHOICE 0, log 10). -/
  blankStart : Bool := false
  /-- DOME_STATUS.ON_MAIN; "-" (DESIGN CHOICE 1: VDD_AON is present at a cold reset, log 10). -/
  onMain : Bool := true
  /-- DOME_CAUSE, 15 bits; "-" (DESIGN CHOICE 0, log 10). -/
  cause : BitVec 15 := 0
  /-- DOME_LIVE, 15 bits; 0 at reset. -/
  live : BitVec 15 := 0
  /-- DOME_TAMPER_COUNT, 32 bits saturating; "-" (DESIGN CHOICE 0, log 10). -/
  count : Nat := 0
  /-- DOME_TOGGLES, 32 bits saturating; "-" (DESIGN CHOICE 0, log 10). -/
  toggles : Nat := 0
  /-- DOME_SENSOR_EN, 6 bits; "-": 0x3F, as a blank start leaves it (R421). -/
  sensorEn : BitVec 6 := 0x3F
  /-- DOME_VBAT, 12 bits, mV; 0 at reset. -/
  vbat : Nat := 0
  /-- DOME_LOG_SEL, 5 bits; 0 at reset. -/
  logSel : Nat := 0
  /-- Tamper log by index 0 to 31; "-" (DESIGN CHOICE empty, log 10). -/
  log : Tbl TamperEnt := []
  /-- DOME_LOG_NEXT, 5 bits; "-" (DESIGN CHOICE 0, log 10). -/
  logNext : Nat := 0
  /-- DIK private scalar; none before it is derived (R173). -/
  dik : Option Nat := none
  /-- DMK slot CURRENT, 32 bytes; empty in a blank Dome (R176). -/
  cur : Option Bytes := none
  /-- DMK slot NEXT, 32 bytes; empty in a blank Dome (R176). -/
  next : Option Bytes := none
  /-- Root slots 0 and 1 (R239); empty in a blank Dome. -/
  slots : RootSlot × RootSlot := ({}, {})
  /-- The selector: the COMMITTED slot is slot 1 (R239). -/
  sel : Bool := false
  /-- 64 witness slots, a 64-byte record each (R247); empty in a blank Dome. -/
  witness : List Bytes := []
  /-- The metering ledger. -/
  ledger : Ledger := {}
  /-- A tamper event met on VBAT alone is handled when main power returns (R425). -/
  unhandled : Bool := false
  /-- The canary word, 64 bits (15 R421); its values are not given: free values (log 3). -/
  canary : Nat := 0
  deriving DecidableEq, Repr

/-- A noise source (08 R272 to R274, R280). -/
structure NoiseSrc where
  /-- ROLE: 0 SPARE, 1 IN_SERVICE, 2 RETIRED, 3 STARTING; "-", sources 0 to 3 start, 4 and 5 are spares (R272, R273). -/
  role : Nat := 3
  /-- STARTUP_FAILED. -/
  startupFailed : Bool := false
  /-- Pass or fail of the last 64 windows, newest first. -/
  recent : List Bool := []
  /-- RNG_SRC_WINDOWS, 32 bits saturating; 0 at reset. -/
  windows : Nat := 0
  /-- Repetition count failures, 16 bits saturating; 0 at reset. -/
  repFails : Nat := 0
  /-- Adaptive proportion failures, 16 bits saturating; 0 at reset. -/
  propFails : Nat := 0
  deriving DecidableEq, Repr

/-- The RNG (08 R272 to R280). -/
structure Rng where
  /-- RNG_STATUS.STATE: 0 STARTUP, 1 SERVING, 2 DEPLETED; 0 until the start-up tests end. -/
  st : Nat := 0
  /-- The six noise sources. -/
  srcs : List NoiseSrc := List.replicate 4 ({} : NoiseSrc) ++ List.replicate 2 ({ role := 0 } : NoiseSrc)
  /-- Passed windows not yet used: source and samples (R275). -/
  windows : List (Nat × Bytes) := []
  /-- Ready seeds, at most 4, 32 bytes each (R275). -/
  pool : List Bytes := []
  /-- RNG_SEEDS, 64 bits; 0 at reset. -/
  seeds : Nat := 0
  /-- RNG_SRC_SEL, 3 bits; 0 at reset. -/
  srcSel : Nat := 0
  /-- RNG_INST_SEL, 5 bits; 0 at reset. -/
  instSel : Nat := 0
  /-- RNG_UNAVAIL_COUNT, 32 bits saturating; 0 at reset. -/
  unavail : Nat := 0
  /-- DRBG instances 0 to 17. -/
  insts : List Drbg := List.replicate 18 ({} : Drbg)
  deriving DecidableEq, Repr

/-- Reel time (11 R334 to R345, R353). -/
structure Time where
  /-- TIME_STATUS.STATE: 0 UNKNOWN, 1 TRACKING, 2 FREE_RUN, 3 HOLDOVER, 4 RESYNC; 0 at reset. -/
  st : Nat := 0
  /-- TIME_BELL_NOW, 64 bits; 0 at reset. -/
  bell : Nat := 0
  /-- TIME_FRAC, 24 bits saturating; 0 at reset. -/
  frac : Nat := 0
  /-- TIME_SET, 48 bits; 0 at reset. -/
  set : Nat := 0
  /-- A SET that waits for its Bell (R342). -/
  setPending : Option Nat := none
  /-- TIME_SRC_CTRL, 4 bits: PPS_EN, TOD_EN, PPS_OUT_EN, TOD_TX_EN; 0 at reset. -/
  src : BitVec 4 := 0
  /-- TIME_PPS_IGNORED, 32 bits saturating; 0 at reset. -/
  ignored : Nat := 0
  /-- TIME_PPS_MISSED, 32 bits saturating; 0 at reset. -/
  missed : Nat := 0
  /-- TIME_PHASE_ERR, 32 bits; 0 at reset. -/
  phase : Word := 0
  /-- TIME_DELAY, 24 bits; 0 at reset. -/
  delay : Nat := 0
  /-- A delay of a new Promenade, adopted at the next Bell (R326). -/
  newDelay : Option Nat := none
  /-- TIME_HOLDOVER_COUNT, 32 bits saturating; 0 at reset. -/
  holdovers : Nat := 0
  /-- TIME_LATE_EVENTS, 32 bits saturating; 0 at reset. -/
  late : Nat := 0
  /-- Consecutive accepted PPS edges, and whether one has been accepted since PPS_EN (R338, R353). -/
  edges : Nat := 0
  /-- Consecutive missed windows (R340). -/
  missRun : Nat := 0
  /-- TIME_STATUS.TOD_VALID; 0 at reset. -/
  todValid : Bool := false
  /-- Second named by the last valid TOD frame (R339). -/
  todSecond : Option Nat := none
  /-- TIME_STATUS.SECOND_MISMATCH; 0 at reset. -/
  mismatch : Bool := false
  /-- The Bell that is due next, scheduled by a Bell block or by the head's own count (R335). -/
  due : Option Nat := none
  /-- Number a member without a count expects after a TIME_FULL (R337). -/
  expect : Option Nat := none
  /-- Time from the arrival of the last Bell block to its Bell's instant, in 0.1 ns (R335). -/
  lead : Nat := 0
  deriving DecidableEq, Repr

/-- Metering (12 R355 to R371). -/
structure Mtr where
  /-- Tally i of TF n at 16 n + i, 64 bits; 0 at reset. -/
  tally : Tbl Nat := []
  /-- Tallies at the last fold (R361). -/
  folded : Tbl Nat := []
  /-- The visible snapshot bank (R370); 0 at reset. -/
  snap : Tbl Nat := []
  /-- The hidden snapshot bank, filled by a capture that has not swapped yet (R370). -/
  hidden : Option (Nat × Tbl Nat) := none
  /-- Totals of the open interval at 16 n + i (R368); gone after a cold reset. -/
  openTot : Option (Tbl Nat) := none
  /-- Totals of the last closed interval (R368); gone after a cold reset. -/
  closedTot : Option (Tbl Nat) := none
  /-- TARIFF_ID in force at the first second of the open and of the closed interval (R368). -/
  firstId : Word × Word := (0, 0)
  /-- TARIFF_ID in force at the last second of the closed interval (R368). -/
  lastId : Word := 0
  /-- TARIFF_ID in force at the last second that a fold of the open interval covers (R368). -/
  foldId : Word := 0
  /-- The ledger before the writes of the last second's fold, after the fold and after the close, while those writes last: none at
  reset (R365). -/
  trail : List Ledger := []
  /-- MTR_STATUS.RECOVERING: the ledger waits for R366; 0 at reset. -/
  recovering : Bool := false
  /-- The second of the last fold, or at which the first interval opened (R363). -/
  lastSecond : Option Nat := none
  /-- MTR_INTERVAL shadow, 12 bits; "-": the ledger's LEN (R371). -/
  interval : Nat := 60
  /-- MTR_TARIFF_AT, 48 bits; "-": all ones on a blank Dome (R371). -/
  at_ : Nat := 2 ^ 48 - 1
  /-- MTR_LATE_SWITCHES, 32 bits saturating; 0 at reset. -/
  lateSwitches : Nat := 0
  /-- MTR_SNAP_SEQ, 32 bits wrapping; 0 at reset. -/
  snapSeq : Nat := 0
  /-- MTR_SNAP_BELL, 64 bits; 0 at reset. -/
  snapBell : Nat := 0
  /-- MTR_MF_CALLS, 64 bits; 0 at reset. -/
  mfCalls : Nat := 0
  deriving DecidableEq, Repr

/-- One arbiter's registers (10 R308, R319). -/
structure Arbiter where
  /-- ARB_x_BASE shadow, 16 bits. -/
  base : Nat := 0
  /-- ARB_x_LIVE_BASE, 16 bits. -/
  live : Nat := 0
  /-- ARB_x_GRANTS, 64 bits; 0 at reset. -/
  grants : Nat := 0
  /-- ARB_x_LOST, 32 bits saturating; 0 at reset. -/
  lost : Nat := 0
  /-- ARB_x_SATURATED, 32 bits saturating; 0 at reset. -/
  saturated : Nat := 0
  /-- ARB_x_WITHDRAWS, 32 bits saturating; 0 at reset. -/
  withdraws : Nat := 0
  /-- First cycle in which the arbiter holds a round again after a withdrawal (10 R311). -/
  dead : Nat := 0
  deriving DecidableEq, Repr

/-- The Caller (10 R304 to R306, R320) and the arbiters (R319). -/
structure Caller where
  /-- ARB_KEEP; BASE 0x048C at reset. -/
  arbKeep : Arbiter := { base := 0x048C, live := 0x048C }
  /-- ARB_DMA; BASE 0x48CC at reset. -/
  arbDma : Arbiter := { base := 0x48CC, live := 0x48CC }
  /-- ARB_QUEUE; BASE 0xC840 at reset. -/
  arbQueue : Arbiter := { base := 0xC840, live := 0xC840 }
  /-- ARB_SPIRE; BASE 0x048C at reset. -/
  arbSpire : Arbiter := { base := 0x048C, live := 0x048C }
  /-- ARB_REEL; BASE 0xF08C at reset. -/
  arbReel : Arbiter := { base := 0xF08C, live := 0xF08C }
  /-- The four class queues, at most 128 calls each; empty at reset. -/
  queues : List (List Call) := [[], [], [], []]
  /-- The job queue, at most 256 calls; empty at reset. -/
  jobQ : List Call := []
  /-- The starvation count (R305); 0 at reset. -/
  starve : Nat := 0
  /-- CALLER_JOB_CTX.MAX, 3 bits; 4 at reset. -/
  jobMax : Nat := 4
  /-- CALLER_STARVE.LIMIT, 8 bits; 0x40 at reset. -/
  limit : Nat := 0x40
  /-- CALLER_DISPATCHES, 64 bits; 0 at reset. -/
  dispatches : Nat := 0
  /-- CALLER_STARVE_SERVES, 32 bits saturating; 0 at reset. -/
  starveServes : Nat := 0
  /-- CALLER_PREEMPTS, 32 bits saturating; 0 at reset. -/
  preempts : Nat := 0
  /-- CALLER_STALL_COUNT, 32 bits saturating; 0 at reset. -/
  stallCount : Nat := 0
  /-- CALLER_STALL_LAST, 32 bits; 0 at reset. -/
  stallLast : Word := 0
  /-- CALLER_TOWER_MAP, 64 entries; "-": entry k names TOWER k mod 16 (DESIGN CHOICE within R306, log 10). -/
  map : List Nat := (List.range 64).map (fun k => k % 16)
  /-- The key of the handle hash, drawn at each warm or cold reset: its number among the free values (R306). -/
  hashKey : Nat := 0
  /-- Function last granted by ARB_QUEUE (R313); none at reset. -/
  lastFn : Option Nat := none
  /-- The next call's order of cycle 0 (R305). -/
  seq : Nat := 0
  /-- Cycle of the ARB page's last BLK_SHADOW_COMMIT write (R310). -/
  commitAt : Nat := 0
  /-- First cycle in which ARB_QUEUE may hold its next round (R308: one in every 4 cycles). -/
  nextRound : Nat := 0
  /-- First cycle in which the next dispatch may begin (01 R26). -/
  nextDispatch : Nat := 0
  deriving DecidableEq, Repr

/-- State of a Keep line (07 R226). -/
inductive LineState
  /-- Equal to the committed vault line. -/
  | clean
  /-- Written by a final step; its batch's PENDING root is not yet written. -/
  | writing
  /-- Durable, not yet applied. -/
  | durable
  /-- A class 0 or class 2 record. -/
  | pinned
  deriving DecidableEq, Repr

/-- A line of the Keep, in clear (07 R216). -/
structure KeepLine where
  /-- The 64 bytes. -/
  data : Bytes := []
  /-- Its state. -/
  st : LineState := .clean
  /-- Order of last use (R218). -/
  used : Nat := 0
  /-- The way of its set that holds it, 0 to 15 (R218). -/
  way : Nat := 0
  /-- First index of the record that the line is part of; none of a token bucket and of a line that no record holds. -/
  first : Option Nat := none
  /-- Of the first line of an M6 key's record, its CMAC subkeys (05 R156). -/
  sub : Bytes := []
  /-- Of the first line of a record of usage D0 with an AES key, its GCM hash subkey (05 R162). -/
  hsub : Bytes := []
  /-- Of the first line of an M7 key's record, its HMAC inner and outer states (05 R156). -/
  hmac : List Bytes := []
  deriving DecidableEq, Repr

/-- An owner that a map in force names (07 R253): none where VALID is 0. -/
abbrev Owner := Option Nat

/-- The Keep (07 R216 to R226, R253). -/
structure Keep where
  /-- Lines by `keepKey partition class record`; empty at reset. -/
  lines : Tbl KeepLine := []
  /-- KEEP_ROOM_MAP shadow by room, 16 bits in the map format; 0 at reset. -/
  rooms : Tbl Nat := []
  /-- The room map in force; unassigned at reset. -/
  liveRooms : Tbl Owner := []
  /-- KEEP_TC_MAP shadow by entry, 16 bits in the map format; 0 at reset. -/
  tc : Tbl Nat := []
  /-- The tower-cache map in force; unassigned at reset. -/
  liveTc : Tbl Owner := []
  /-- KEEP_ROOM_SEL, 10 bits; 0 at reset. -/
  roomSel : Nat := 0
  /-- KEEP_MAP_REJECT: last room refused and its VALID; none at reset. -/
  reject : Option Nat := none
  /-- KEEP_MAP_REJECT count, 16 bits saturating; 0 at reset. -/
  rejects : Nat := 0
  /-- KEEP_HITS, 64 bits; 0 at reset. -/
  hits : Nat := 0
  /-- KEEP_FILLS, 64 bits; 0 at reset. -/
  fillCount : Nat := 0
  /-- KEEP_REVOKES, 32 bits saturating; 0 at reset. -/
  revokes : Nat := 0
  /-- KEEP_REPAIR_ROWS, 7 bits: rows moved into field-repair rows; none at reset. -/
  repaired : List Nat := []
  /-- Keep data rows are not yet zero after a tamper event (R424); false at reset. -/
  erasing : Bool := false
  /-- Lines in use are ordered by this count (R218). -/
  clock : Nat := 0
  /-- The set hash's key, drawn at each Keep initialisation: its number among the free values (R218). -/
  hashKey : Nat := 0
  /-- Cursors of the volatile classes by 4 partition + class (R185); 0 at reset. -/
  cursors : Tbl Nat := []
  deriving DecidableEq, Repr

/-- A change of the key sets that a group makes before its lines (07 R243). -/
inductive SetOp
  /-- None. -/
  | keep
  /-- A new key set becomes the current one. -/
  | add (k : KeySet)
  /-- The key set that is not current is dropped. -/
  | drop
  deriving DecidableEq, Repr

/-- Pages that a group re-enciphers whole (07 R243, R244). -/
structure PageRun where
  /-- First page. -/
  first : Nat := 0
  /-- Pages: 2 where a record of 128 lines spans two. -/
  count : Nat := 1
  /-- They move to the current key set; otherwise they keep theirs. -/
  move : Bool := false
  /-- Their records are rewrapped under the NEXT DMK. -/
  rewrap : Bool := false
  deriving DecidableEq, Repr

/-- A group of lines that one final step passed to the vault engine (07 R236). -/
structure Group where
  /-- Tower and context of the call that waits for it. -/
  at_ : Nat × Nat := (0, 0)
  /-- Partition, record index and stored content of each line. -/
  lines : List (Nat × Nat × Bytes) := []
  /-- Partition descriptors that the group changes, before and after, for a batch that fails (R240). -/
  undo : List (Nat × Bytes × Bytes) := []
  /-- Binding table entries that the group changes, before and after, for a batch that fails (06 R182). -/
  unbind : List (Nat × Option Nat × Option Nat) := []
  /-- Pages that a vault job hands over (R242). -/
  runs : List PageRun := []
  /-- A change of the key sets (R243). -/
  sets : SetOp := .keep
  deriving DecidableEq, Repr

/-- A closed batch (07 R236 to R239). -/
structure Batch where
  /-- Its groups. -/
  groups : List Group := []
  /-- Step 4 of R239 has failed and waits for its retry (R240). -/
  failed : Bool := false
  /-- Changed window-space lines with their new contents, home writes of step 4. -/
  changed : List (Nat × Bytes) := []
  /-- The PENDING slot it writes. -/
  slot : RootSlot := {}
  /-- Cycles since step 4 failed (R240). -/
  retry : Nat := 0
  /-- Pages in write-back ownership until the PENDING root is written (R237, R242). -/
  pages : List Nat := []
  deriving DecidableEq, Repr

/-- The vault engine and the VAULT page (07 R227 to R255). -/
structure Vault where
  /-- VAULT_STATE.STATE: 0 NONE, 1 DETACHED, 2 RECOVERING, 3 ONLINE, 4 FENCED; "-": NONE with a blank Dome (R255). -/
  st : Nat := 0
  /-- VAULT_STATE.REKEY_ACTIVE; 0 at reset. -/
  rekey : Option Nat := none
  /-- VAULT_STATE.NEXT_READY; "-" (DESIGN CHOICE 0, log 10). -/
  nextReady : Bool := false
  /-- VAULT_STATE.JOURNAL_LOST; "-" (DESIGN CHOICE 0, log 10). -/
  journalLost : Bool := false
  /-- VAULT_STATE.WITNESS_SHORT; 0 at reset. -/
  short : Bool := false
  /-- VAULT_RESULT, 4 bits; 0 at reset. -/
  result : Nat := 0
  /-- VAULT_RESULT.BUSY: 1 ATTACH, 2 DETACH in progress; 0 at reset. -/
  busy : Nat := 0
  /-- VAULT_GEOMETRY.P field, 16 bits; 0 at reset. -/
  p : Nat := 0
  /-- VAULT_GEOMETRY.J field, 3 bits; 0 at reset. -/
  j : Nat := 0
  /-- VAULT_WIN_SEL, 4 bits; 0 at reset. -/
  winSel : Nat := 0
  /-- VAULT_WIN_BASE and VAULT_WIN_SIZE of windows 0 to 15; 0 at reset. -/
  wins : List (Nat × Nat) := List.replicate 16 (0, 0)
  /-- VAULT_PSPAN by partition, 16 bits; 0 at reset. -/
  pspan : Tbl Nat := []
  /-- VAULT_WITNESS: acknowledgements at the last mirror, 2 bits; 0 at reset. -/
  acks : Nat := 0
  /-- Witnesses of the last mirror whose acknowledgements are still awaited, by Reel address (R247). -/
  awaiting : List Nat := []
  /-- WCOUNT of the last mirror (R246, R247). -/
  wcount : Nat := 0
  /-- Fence records sent whose acknowledgements are still awaited, by Reel address (R249). -/
  fences : List Nat := []
  /-- VAULT_WITNESS: mirrors with fewer acknowledgements, 16 bits saturating; 0 at reset. -/
  shorts : Nat := 0
  /-- VAULT_FILLS, 64 bits; 0 at reset. -/
  fills : Nat := 0
  /-- VAULT_INTEGRITY_COUNT, 32 bits saturating; 0 at reset. -/
  integCount : Nat := 0
  /-- VAULT_INTEGRITY_LINE, 64 bits; 0 at reset. -/
  integLine : Nat := 0
  /-- VAULT_APPLY_RETRIES, 32 bits saturating; 0 at reset. -/
  retries : Nat := 0
  /-- Window-space lines the engine has written, 64 bytes each: what the memory holds unless a command says otherwise. -/
  mem : Tbl Bytes := []
  /-- Metadata lines held and verified in the metadata cache, by window-space line, with the partition of the share
  (1,024 for the common part) (R223); empty at reset. -/
  meta_ : Tbl (Nat × Bytes) := []
  /-- Partition descriptors as last written, by partition (R178): a descriptor not listed is all zeros. -/
  descs : Tbl Bytes := []
  /-- Groups gathered for the next batch (R236). -/
  groups : List Group := []
  /-- The batch in step 1 of R239: its journal lines are being written. -/
  writing : Option Batch := none
  /-- The batch in step 4 of R239: durable, its home lines are being written. -/
  batch : Option Batch := none
  /-- New batches are held for a detachment or a life-cycle transition (R255, R398). -/
  hold : Bool := false
  /-- Pages whose locks the engine waits for, to re-encipher them in the next batch (R237, R242). -/
  asked : List Nat := []
  /-- The two seals last written (R245, R246): the even and the odd second's. -/
  seals : List Bytes := [zeros 128, zeros 128]
  deriving DecidableEq, Repr

/-- A class H entry (13 R389). -/
structure RegionH where
  /-- H_BASE. -/
  base : Nat := 0
  /-- H_CFG.SIZE. -/
  size : Nat := 0
  /-- H_CFG.SUB_DIS. -/
  subDis : Nat := 0
  /-- H_CFG.RD. -/
  rd : Bool := false
  /-- H_CFG.WR. -/
  wr : Bool := false
  /-- H_CFG.LOCK. -/
  lock : Bool := false
  /-- H_CFG.VALID. -/
  valid : Bool := false
  deriving DecidableEq, Repr

/-- A class I entry (13 R388). -/
structure RegionI where
  /-- ACU_I_BASE. -/
  base : Nat := 0
  /-- ACU_I_CFG.SIZE. -/
  size : Nat := 0
  /-- ACU_I_CFG.RD. -/
  rd : Bool := false
  /-- ACU_I_CFG.WR. -/
  wr : Bool := false
  /-- ACU_I_CFG.LOCK. -/
  lock : Bool := false
  /-- ACU_I_CFG.VALID. -/
  valid : Bool := false
  /-- ACU_I_INIT. -/
  init : Nat := 0
  deriving DecidableEq, Repr

/-- Access control (13 R376 to R389). -/
structure Acu where
  /-- Class H entry e of TF n at 8 n + e; all clear after a cold reset. -/
  tf : Tbl RegionH := []
  /-- The MF's class H entries 0 to 7; all clear after a cold reset. -/
  mf : Tbl RegionH := []
  /-- Class I entries 0 to 15; all clear after a cold reset. -/
  int : Tbl RegionI := []
  deriving DecidableEq, Repr

/-! ## The host interface -/

/-- A read of descriptors in flight (02 R49): first index, count, and whether ARB_DMA has issued it. -/
structure DescRead where
  /-- First SQ index. -/
  first : Nat := 0
  /-- Entries read. -/
  count : Nat := 0
  /-- The descriptors, once they have arrived. -/
  data : Option (List Bytes) := none
  /-- ARB_DMA has granted it (R308): it is an outstanding read (R39). -/
  issued : Bool := false
  /-- Its queue pair has discarded it since (R63): its answer, still awaited, brings nothing. -/
  dropped : Bool := false
  deriving DecidableEq, Repr

/-- A queue pair (02 R44, R48 to R57). -/
structure Qp where
  /-- SQ base, 64 bits; 0 at reset. -/
  sqBase : Nat := 0
  /-- CQ base, 64 bits; 0 at reset. -/
  cqBase : Nat := 0
  /-- SQ_K, 5 bits; 4 at reset. -/
  sqK : Nat := 4
  /-- CQ_K, 5 bits; 4 at reset. -/
  cqK : Nat := 4
  /-- PRIO_REQ, 2 bits; 0 at reset. -/
  prio : Nat := 0
  /-- COAL_LOG, 4 bits; 0 at reset. -/
  coalLog : Nat := 0
  /-- COAL_TIME, 8 bits; 0 at reset. -/
  coalTime : Nat := 0
  /-- ENABLE; 0 at reset. -/
  enable : Bool := false
  /-- GEN, 8 bits; 0 at reset. -/
  gen : Nat := 0
  /-- ERR_CAUSE, 4 bits, and ERROR: 0 none; 0 at reset. -/
  err : Nat := 0
  /-- Submission head, 16 bits; 0 at reset. -/
  sqHead : Nat := 0
  /-- Submission tail, 16 bits; 0 at reset. -/
  sqTail : Nat := 0
  /-- Completion tail, 16 bits; 0 at reset. -/
  cqTail : Nat := 0
  /-- Completion head, 16 bits; 0 at reset. -/
  cqHead : Nat := 0
  /-- Device phase; 1 when enabled (R48). -/
  phase : Bool := true
  /-- Descriptor reads in flight, in ring order (R49). -/
  reads : List DescRead := []
  /-- Fetched descriptors that admission has not taken in, oldest first (R49). -/
  fetched : List Bytes := []
  /-- Admitted calls of the current generation before handoff, and handed-off completions not yet written (R52). -/
  live : Nat := 0
  /-- Admitted calls of older generations before handoff: RESET_BUSY while not 0 (R63, R64). -/
  old : Nat := 0
  /-- A queue reset is held, and whether an enable is held with it (R65). -/
  heldReset : Option Bool := none
  /-- The held reset is that of a TF reset: QP_CFG and the ring bases return to reset with it (R65, R66). -/
  heldCfg : Bool := false
  /-- Completions written since the last signal (R54). -/
  unsignalled : Nat := 0
  /-- Cycles the oldest unsignalled completion has waited (R54). -/
  coalAge : Nat := 0
  /-- Age at ARB_QUEUE (R313). -/
  age : Nat := 0
  deriving DecidableEq, Repr

/-- MSI-X of one function (02 R39, R58, R59). -/
structure Msix where
  /-- MSI-X Enable; 0 at reset (PCIe). -/
  enable : Bool := false
  /-- Function Mask; 0 at reset (PCIe). -/
  fmask : Bool := false
  /-- Table entries by vector: address, data, vector mask. -/
  table : Tbl (Nat × Nat × Bool) := []
  /-- PBA bits; 0 at reset. -/
  pba : Nat := 0
  deriving DecidableEq, Repr

/-- A tenant function (02 R44, R60, R66, R70 to R72, R75). -/
structure Tf where
  /-- TF_STATUS.FROZEN; 0 at reset. -/
  frozen : Bool := false
  /-- HIF_TF_CTRL.STOP and TF_STATUS.STOPPED; 0 at reset. -/
  stop : Bool := false
  /-- HIF_TF_STATE.QUIESCED; 0 at reset. -/
  quiesced : Bool := false
  /-- HIF_TF_CTRL.PRIO_CAP, 2 bits; 3 at reset. -/
  cap : Nat := 3
  /-- HIF_TF_CTRL.DIRTY_EN; 0 at reset. -/
  dirtyEn : Bool := false
  /-- TF_GEN, 8 bits; 0 at reset. -/
  gen : Nat := 0
  /-- A TF reset waits for every RESET_BUSY to clear (TF_RESET_DONE, R66). -/
  resetting : Bool := false
  /-- HIF_TF_DIRTY_A, 64 bits; 0 at reset. -/
  dirtyA : Nat := 0
  /-- HIF_TF_DIRTY_B, 64 bits; 0 at reset. -/
  dirtyB : Nat := 0
  /-- HIF_TF_DIRTY_RANGE, 64 bits; 0 at reset. -/
  range : Nat := 0
  /-- HIF_TF_DIRTY_PAGES, 32 bits; 0 at reset. -/
  pages : Nat := 0
  /-- DIRTY_CTRL.ACTIVE: buffer B; 0 at reset. -/
  actB : Bool := false
  /-- Pages marked in the active buffer (R71, R72). -/
  marks : List Nat := []
  /-- Pages of the old buffer that a harvest flushes; HARVEST_BUSY while it runs. -/
  flush : Option (List Nat) := none
  /-- DIRTY_CTRL.OVF; 0 at reset. -/
  ovf : Bool := false
  /-- Last word to the MF: CH_TO_MF, 32 bits; 0 at reset. -/
  toMf : Word := 0
  /-- CH_TO_MF_STAT.FULL; 0 at reset. -/
  toMfFull : Bool := false
  /-- CH_TO_MF_STAT.DROPS, 8 bits saturating; 0 at reset. -/
  toMfDrops : Nat := 0
  /-- MBOX_FROM_MF, 32 bits; 0 at reset. -/
  fromMf : Word := 0
  /-- MBOX_FROM_MF_FULL.FULL; 0 at reset. -/
  fromMfFull : Bool := false
  /-- MBOX_FROM_MF_FULL.DROPS, 8 bits saturating; 0 at reset. -/
  fromMfDrops : Nat := 0
  /-- MSI-X of the TF. -/
  msix : Msix := {}
  /-- Queue pair last granted by ARB_QUEUE (R313). -/
  lastQ : Option Nat := none
  /-- High half latched by a dword read of a 64-bit register (R45, R9). -/
  latch : Option (Nat × Word) := none
  deriving DecidableEq, Repr

/-- A completion handed off and not yet written (02 R52). -/
structure Cpl where
  /-- Function. -/
  fn : Nat := 0
  /-- Queue pair. -/
  qp : Nat := 0
  /-- The 64 bytes, with PHASE clear. -/
  bytes : Bytes := []
  /-- FLAGS.IRQ_NOW (R77). -/
  irqNow : Bool := false
  deriving DecidableEq, Repr

/-- What a host read of call data is for. -/
inductive DmaFor
  /-- A piece of the scatter list (R85). -/
  | list
  /-- The blob (R213). -/
  | blob
  /-- An input chunk (R87). -/
  | chunk
  deriving DecidableEq, Repr

/-- A host read of call data: pieces not yet granted, and whether all have been (10 R308, 13 R379). -/
structure DmaReq where
  /-- Tower. -/
  tower : Nat := 0
  /-- Context. -/
  ctx : Nat := 0
  /-- Its purpose. -/
  what : DmaFor := .list
  /-- Reads still to be granted: address, length, and whether it begins a 4 KiB piece, which is judged as it is issued (R379, R382). -/
  pieces : List (Nat × Nat × Bool) := []
  /-- Bytes to be read in all. -/
  len : Nat := 0
  /-- Pieces granted, each an outstanding read until the answer (R39). -/
  granted : Nat := 0
  /-- The call waits for it; otherwise the call has ended, and its answer, still awaited, brings nothing. -/
  live : Bool := true
  /-- Function of the call (R43). -/
  fn : Nat := 0
  /-- Bytes whose pieces were refused while the TF was frozen, as offset and length: they read as zeros (13 R384, R386). -/
  holes : List (Nat × Nat) := []
  deriving DecidableEq, Repr

/-- The host interface (02 R39 to R75). -/
structure Hif where
  /-- HIF_LINK_STATUS.SPEED, 3 bits; 0 at reset. -/
  speed : Nat := 0
  /-- HIF_LINK_STATUS.WIDTH, 4 bits; 0 at reset. -/
  width : Nat := 0
  /-- HIF_LINK_STATUS.LANE_REVERSED; 0 at reset. -/
  reversed : Bool := false
  /-- HIF_NUM_TF: NumVFs while VF Enable is set, 11 bits; 0 at reset. -/
  numTf : Nat := 0
  /-- HIF_TF_SEL, 10 bits; 0 at reset. -/
  sel : Nat := 0
  /-- HIF_TF_WERR_LAST; none at reset. -/
  werrLast : Option Nat := none
  /-- Tenant functions by number. -/
  tfs : Tbl Tf := []
  /-- Queue pairs at 16 fn + q. -/
  qps : Tbl Qp := []
  /-- MSI-X of the MF. -/
  mfMsix : Msix := {}
  /-- The MF's queue pair last granted by ARB_QUEUE (R313). -/
  mfLastQ : Option Nat := none
  /-- Age of the descriptor fetcher at ARB_DMA (R309). -/
  descAge : Nat := 0
  /-- Completions waiting to be written, in handoff order (R32, R52). -/
  cpls : List Cpl := []
  /-- Reads of call data. -/
  dma : List DmaReq := []
  /-- Reads issued and not yet answered (HIF_NP_OUTSTANDING). -/
  np : Nat := 0
  /-- Max_Read_Request_Size in the MF's Device Control register, in bytes (R39); 512 at reset (PCIe, PRESUMED, log 92). -/
  mrrs : Nat := 512
  /-- AER uncorrectable error status by function: the causes logged (R39, R43; PCIe bits, PRESUMED, log 92); 0 at reset. -/
  aer : Tbl Nat := []
  /-- Age of the vault engine at ARB_DMA (10 R308, R309). -/
  vaultAge : Nat := 0
  /-- Age of the completion writer at ARB_DMA (10 R308, R309). -/
  cplAge : Nat := 0
  /-- ARB_DMA has granted the completion writer its next write (10 R308). -/
  cplGranted : Bool := false
  /-- Vault reads that ARB_DMA has granted and that are not yet answered: tower, context, and whether its call still waits
  (10 R308). -/
  fills : List (Nat × Nat × Bool) := []
  /-- MSI-X messages, newest first: function, vector, address, data (R42). -/
  msgs : List (Nat × Nat × Nat × Nat) := []
  /-- How many of them, the newest, wait for ARB_DMA (10 R308). -/
  msiWaiting : Nat := 0
  /-- Transfers of the vault engine other than fetches that wait for ARB_DMA (10 R308). -/
  vaultOuts : Nat := 0
  /-- Pieces of call data written that wait for ARB_DMA, by tower and context of the requester (10 R308). -/
  outs : List (Nat × Nat) := []
  /-- QCTX_SEL: TF number, 10 bits; 0 at reset. -/
  qctxTf : Nat := 0
  /-- QCTX_SEL: queue pair, 3 bits; 0 at reset. -/
  qctxQ : Nat := 0
  /-- QCTX_STATUS.BUSY: 1 SAVE, 2 RESTORE in progress; 0 at reset. -/
  qctxBusy : Nat := 0
  /-- QCTX_STATUS.RESULT, 3 bits; 0 at reset. -/
  qctxResult : Nat := 0
  /-- QCTX_IMAGE, 48 bytes; 0 at reset. -/
  qctxImage : Bytes := zeros 48
  deriving DecidableEq, Repr

/-! ## The Reel and the curves -/

/-- A Reel message that waits at a port or waits for its acknowledgement (11 R327, R328). -/
structure Msg where
  /-- CLASS. -/
  cls : Nat := 0
  /-- TYPE. -/
  typ : Nat := 0
  /-- SRC. -/
  src : Nat := 0
  /-- DST. -/
  dst : Nat := 0
  /-- Payload. -/
  payload : Bytes := []
  /-- It takes a buffer of the HIGH set at the next hop: on a RING, once it has crossed the link between N − 1 and 0 (R329). -/
  high : Bool := false
  /-- A message that is passed on: the port it came in at (true: DOWN), its SEQ there, and whether it holds a buffer of that port's HIGH
  set (R329, R331). -/
  came : Option (Bool × Nat × Bool) := none
  deriving DecidableEq, Repr

/-- A Reel port (11 R322 to R331, R354). -/
structure Port where
  /-- LINK: 0 DOWN, 1 TRAINING, 2 UP; 0 at reset. -/
  link : Nat := 0
  /-- LANE0 to LANE2, transmit direction: 0 SPARE, 1 IN_SERVICE, 2 RETIRED; "-" (R323). -/
  lanes : List Nat := [1, 1, 0]
  /-- The three lanes of the receive direction, in the same coding (R323, R414). -/
  rx : List Nat := [1, 1, 0]
  /-- REEL_PORT_DELAY, 16 bits; 0 at reset. -/
  delay : Nat := 0
  /-- DELAY_ECHO round trips measured, in 0.1 ns (R324). -/
  echoes : List Nat := []
  /-- REEL_PORT_RETRIES, 32 bits saturating; 0 at reset. -/
  retries : Nat := 0
  /-- REEL_PORT_DROPS, 32 bits saturating; 0 at reset. -/
  drops : Nat := 0
  /-- Messages sent and not acknowledged, by class and SEQ, oldest first (R328). -/
  unacked : List (Nat × Nat × Msg) := []
  /-- Next SEQ by class (R327). -/
  seqs : List Nat := [0, 0, 0, 0]
  /-- Credits by class; on a RING those of the LOW set (R329). -/
  credits : List Nat := [16, 32, 4, 64]
  /-- Credits of the HIGH set on a RING (R329). -/
  high : List Nat := [16, 32, 4, 64]
  /-- SEQ expected next, by class; none until a message of the class has come since the link trained or Promenade ran (R328). -/
  rxSeqs : List (Option Nat) := [none, none, none, none]
  /-- Messages queued for want of credit, by arrival (R329). -/
  queue : List Msg := []
  /-- Consecutive failed attempts (R328). -/
  fails : Nat := 0
  /-- LINK_NAKs sent (R327). -/
  naks : Nat := 0
  /-- What the last LINK_NAK asked for: the class and the SEQ to retransmit (R327). -/
  lastNak : Option (Nat × Nat) := none
  /-- LINK_ACKs sent (R328). -/
  acks : Nat := 0
  /-- The last LINK_ACK sent: class, SEQ acknowledged, credits returned by class, those of the LOW set and then those of the HIGH one
  (R327, R329). -/
  lastAck : Option (Nat × Nat × List Nat) := none
  /-- Receive buffers in use, by class: those of the LOW set and then those of the HIGH one (R329). -/
  held : List Nat := [0, 0, 0, 0, 0, 0, 0, 0]
  /-- The Bell block last sent: the low 40 bits of its number and its correction C (R334). -/
  bell : Option (Nat × Nat) := none
  /-- Age of each class at this port direction's ARB_REEL (R309). -/
  ages : List Nat := [0, 0, 0, 0]
  deriving DecidableEq, Repr

/-- A clone session at the destination (11 R352). -/
structure Session where
  /-- Address of the source. -/
  src : Nat := 0
  /-- The source's nonce and ephemeral public key. -/
  hello : Bytes := []
  /-- The destination's ephemeral private key. -/
  eph : Nat := 0
  /-- The destination's nonce. -/
  nonce : Bytes := []
  /-- Reel second of its last message. -/
  last : Nat := 0
  deriving DecidableEq, Repr

/-- The Reel (11 R322 to R333, R346 to R352, R354). -/
structure Reel where
  /-- ROLE: 0 member, 1 head, 2 tail, 3 alone; "-", from the straps. -/
  role : Nat := 0
  /-- CLOSED; "-", from the straps. -/
  closed : Bool := false
  /-- TOPOLOGY: 0 NONE, 1 LINE, 2 RING, 3 BROKEN_RING; 0 at reset. -/
  topo : Nat := 0
  /-- ADDRESSED; 0 at reset. -/
  addressed : Bool := false
  /-- ADDRESS, 10 bits; 0 at reset. -/
  addr : Nat := 0
  /-- OVERFLOW; 0 at reset. -/
  overflow : Bool := false
  /-- CONFLICT; 0 at reset. -/
  conflict : Bool := false
  /-- The head's Promenade runs (R324). -/
  walking : Bool := false
  /-- REEL_COUNT, 10 bits; 0 at reset. -/
  count : Nat := 0
  /-- REEL_BREAK; none at reset. -/
  brk : Option Nat := none
  /-- Links known to be down on the line that the Reel forms, each by the address upstream of it, but for that of REEL_BREAK (R333). -/
  cuts : List Nat := []
  /-- REEL_CTRL.UP_EN; 1 at reset. -/
  upEn : Bool := true
  /-- REEL_CTRL.DN_EN; 1 at reset. -/
  dnEn : Bool := true
  /-- The UP port. -/
  up : Port := {}
  /-- The DOWN port. -/
  dn : Port := {}
  /-- Snapshot order not yet captured: Bell and issuers (R347); none at reset. -/
  order : Option (Nat × List Nat) := none
  /-- REEL_SNAP_STATUS.GATHERING; 0 at reset. -/
  gathering : Bool := false
  /-- REEL_SNAP_STATUS.DONE; 0 at reset. -/
  snapDone : Bool := false
  /-- REEL_SNAP_STATUS.LOCAL_LATE; 0 at reset. -/
  localLate : Bool := false
  /-- REEL_SNAP_BELL, 64 bits; 0 at reset. -/
  snapBell : Nat := 0
  /-- Bell of this device's own last order (R348). -/
  issued : Nat := 0
  /-- REEL_SNAP_NOT_CAPTURED, 10 bits; 0 at reset. -/
  notCaptured : Nat := 0
  /-- REEL_SNAP_ACK: captured devices; none at reset. -/
  acks : List Nat := []
  /-- Sets that have reported to this issuer (R348). -/
  sets : List Nat := []
  /-- A set lead's gathering by Bell: issuers, captured and answered members (R348). -/
  gather : List (Nat × List Nat × List Nat × List Nat) := []
  /-- REEL_MBOX channels: word, FULL, DROPS; 0 at reset. -/
  mbox : Tbl (Word × Bool × Nat) := []
  /-- The clone session; none at reset. -/
  session : Option Session := none
  /-- A handoff that this device receives: source, partition, nonce (R251). -/
  inbound : Option (Nat × Nat × Bytes) := none
  deriving DecidableEq, Repr

/-- A loaded curve (09 R295 to R298). -/
structure Curve where
  /-- p. -/
  p : Nat := 0
  /-- a. -/
  a : Nat := 0
  /-- b. -/
  b : Nat := 0
  /-- Gx. -/
  gx : Nat := 0
  /-- Gy. -/
  gy : Nat := 0
  /-- n. -/
  n : Nat := 0
  /-- Cofactor. -/
  h : Nat := 0
  /-- First 8 bytes of SHA-256 over the input. -/
  digest : Bytes := []
  deriving DecidableEq, Repr

/-- The CURVES page (09 R298). -/
structure Curves where
  /-- Slots 0 to 15; empty after a cold reset. -/
  slots : Tbl (Option Curve) := []
  /-- CURVES_SEL, 4 bits; 0 at reset. -/
  sel : Nat := 0
  /-- CURVES_REJECT: cause and slot; none at reset. -/
  reject : Option (Nat × Nat) := none
  deriving DecidableEq, Repr

/-- SMBus and the board outputs (16 R455, R459, R460). -/
structure Smb where
  /-- ALERT causes, 6 bits; 0 at reset. -/
  alert : BitVec 6 := 0
  /-- Last answer of the SMBus target: the block read, or the address answered. -/
  answer : Option Bytes := none
  /-- Read-data port of the register interface: the value last returned (R9). -/
  readData : Nat := 0
  deriving DecidableEq, Repr

/-! ## The state -/

/-- The state of the block. -/
structure State where
  /-- Core cycle number (01 R17, 10 R308); 0 at reset. -/
  cycle : Nat := 0
  /-- The MODEL's own counter of free values taken (log 3); 0 at reset (DESIGN CHOICE). -/
  free : Nat := 0
  /-- The common heads by page (00 R11). -/
  heads : Tbl Head := []
  /-- DEV page and pins. -/
  dev : Dev := {}
  /-- SUP page. -/
  sup : Sup := {}
  /-- PWR page. -/
  pwr : Pwr := {}
  /-- Fuses. -/
  fuse : Fuse := {}
  /-- Life cycle. -/
  lcs : Lcs := {}
  /-- Custody. -/
  cus : Cus := {}
  /-- The Dome. -/
  dome : Dome := {}
  /-- RNG. -/
  rng : Rng := {}
  /-- Reel time. -/
  time : Time := {}
  /-- Metering. -/
  mtr : Mtr := {}
  /-- The Caller and the arbiters. -/
  caller : Caller := {}
  /-- The Keep. -/
  keep : Keep := {}
  /-- The vault. -/
  vault : Vault := {}
  /-- Access control. -/
  acu : Acu := {}
  /-- The host interface. -/
  hif : Hif := {}
  /-- The Reel. -/
  reel : Reel := {}
  /-- Loaded curves. -/
  curves : Curves := {}
  /-- Towers 0 to 16. -/
  towers : List Tower := List.replicate 17 ({} : Tower)
  /-- The job store, at most 4,096 entries (R99). -/
  jobs : List Job := []
  /-- The binding table: partition to TF (R180); empty at reset. -/
  bind : Tbl (Option Nat) := []
  /-- Bytes the device has written to host memory; a byte not listed reads as 0 (DESIGN CHOICE, log 4). -/
  host : List Host.Cell := []
  /-- SMBus, pins and the read-data port. -/
  smb : Smb := {}
  /-- The commands that wait, first in first out; empty at reset. -/
  pending : List Instr := []
  deriving DecidableEq, Repr

/-- The reasons for which a step stops the block. There is none: every error that the spec describes is an effect on
the state (log 2). -/
inductive Fault
  deriving DecidableEq, Repr

/-- The reasons for which a command is turned away. -/
inductive Refusal
  /-- Raised by the dispatcher for a row of the table that has no meaning yet. Safe: the model stops there. -/
  | notModelled (mnemonic : String)
  deriving DecidableEq, Repr

/-- The block right after a cold reset (16 R448), of a part with blank fuses and a blank Dome. -/
def State.reset : State := {}

end Sys2Proof.Machine
end

