-- ==== Sys2Proof/Machine/Flags.lean ====
section
/-! DEFINITION. Status codes, completion flags and the status words that are computed from other state. -/

namespace Sys2Proof.Machine

/-! ## Status codes (03 R96) -/

/-- OK. -/
abbrev stOk : Nat := 0x0000
/-- ILLEGAL_OPCODE. -/
abbrev stIllegal : Nat := 0x0100
/-- RESERVED_NONZERO. -/
abbrev stReserved : Nat := 0x0101
/-- BAD_LENGTH. -/
abbrev stBadLength : Nat := 0x0102
/-- BAD_PARAMETER. -/
abbrev stBadParam : Nat := 0x0103
/-- KEY_NOT_FOUND. -/
abbrev stKeyNotFound : Nat := 0x0200
/-- KEY_USAGE. -/
abbrev stKeyUsage : Nat := 0x0201
/-- KEY_EXPIRED. -/
abbrev stKeyExpired : Nat := 0x0202
/-- KEY_NOT_YET_VALID. -/
abbrev stKeyEarly : Nat := 0x0203
/-- KEY_BLOCK_REJECTED. -/
abbrev stKeyBlock : Nat := 0x0204
/-- VERIFY_FAIL. -/
abbrev stVerifyFail : Nat := 0x0300
/-- PIN_FORMAT. -/
abbrev stPinFormat : Nat := 0x0301
/-- INTEGRITY. -/
abbrev stIntegrity : Nat := 0x0400
/-- VAULT_UNREACHABLE. -/
abbrev stVaultUnreach : Nat := 0x0401
/-- REFUSED_INPUT. -/
abbrev stRefusedInput : Nat := 0x0500
/-- CURVE_REJECTED. -/
abbrev stCurveRejected : Nat := 0x0501
/-- RNG_UNAVAILABLE. -/
abbrev stRngUnavail : Nat := 0x0600
/-- SUSPENDED. -/
abbrev stSuspended : Nat := 0x0700
/-- CANCELLED. -/
abbrev stCancelled : Nat := 0x0701
/-- STALL_BROKEN. -/
abbrev stStallBroken : Nat := 0x0702
/-- NO_SUCH_JOB. -/
abbrev stNoSuchJob : Nat := 0x0703
/-- JOB_STATE. -/
abbrev stJobState : Nat := 0x0704
/-- CAPACITY. -/
abbrev stCapacity : Nat := 0x0800
/-- TIME_UNKNOWN. -/
abbrev stTimeUnknown : Nat := 0x0900
/-- DUAL_CONTROL_REQUIRED. -/
abbrev stDualControl : Nat := 0x0A00
/-- STATE_NOT_PERMITTED. -/
abbrev stStateNot : Nat := 0x0A01
/-- CEREMONY_NOT_OPEN. -/
abbrev stCeremony : Nat := 0x0A02
/-- AUTH_REJECTED. -/
abbrev stAuthRejected : Nat := 0x0A03
/-- DEVICE_FAULT. -/
abbrev stDeviceFault : Nat := 0x0B00
/-- REEL_UNREACHABLE. -/
abbrev stReelUnreach : Nat := 0x0C00

/-! ## Flags computed from other state -/

/-- Reel time is known (11 R343). -/
def timeKnown (s : State) : Bool := s.time.st != 0

/-- The current Reel second (11 R335). -/
def reelSecond (s : State) : Nat := s.time.bell / 1024

/-- Towers in service. -/
def inService (s : State) : List Nat := (List.range 17).filter (fun t => s.sup.roles.getD t 2 == 1)

/-- Lanes of one kind of a tower. -/
def Tower.lanes (t : Tower) (hash : Bool) : List Lane := if hash then t.hlanes else t.clanes

/-- Lanes in service of one kind. -/
def Tower.lanesUp (t : Tower) (hash : Bool) : Nat := ((t.lanes hash).filter (fun l => l.role == 1)).length

/-- REEL_PORT_STATUS.DEGRADED: the port is not down for want of lanes and runs on one lane (11 R323). -/
def Port.degraded (p : Port) : Bool :=
  (p.lanes.filter (· == 1)).length == 1 || (p.rx.filter (· == 1)).length == 1

/-- SUP_DEGRADED (15 R441). -/
def supDegraded (s : State) : Nat :=
  let noise := (s.rng.srcs.filter (fun x => x.role == 1)).length < 4 &&
    !(s.rng.srcs.any (fun x => x.role == 0))
  flag (decide ((inService s).length < 16))
    + 2 * flag (s.towers.any (fun t => decide (t.lanesUp false < 5) || decide (t.lanesUp true < 2)))
    + 4 * flag noise
    + 8 * flag (s.reel.up.degraded || s.reel.dn.degraded)
    + 16 * flag (!s.sup.rowsDisabled.isEmpty)
    + 32 * flag (inService s).isEmpty

/-- DEV_STATUS.DEGRADED (15 R438). -/
def degraded (s : State) : Bool := supDegraded s % 32 != 0

/-- SUP_DEGRADED.FAILED (15 R438). -/
def failed (s : State) : Bool := (inService s).isEmpty

/-- CFLAGS of a completion without PHASE (03 R92). -/
def cflags (job keep vault deg : Bool) : Nat := 2 * flag job + 4 * flag keep + 8 * flag vault + 16 * flag deg

end Sys2Proof.Machine
end

