-- ==== Sys2Proof/Machine/Ops.lean ====
section
/-! DEFINITION. Shared operations over the state: page heads and interrupts, functions and queue pairs, host accesses
and violations, figure contexts, and the end of a call. -/

namespace Sys2Proof.Machine

/-- What a command answers. -/
abbrev Out := Host.Outcome State Fault Refusal

/-! ## Page numbers (00 R15) -/

/-- DEV. -/
abbrev pgDev : Nat := 0x000
/-- SUP. -/
abbrev pgSup : Nat := 0x001
/-- PWR. -/
abbrev pgPwr : Nat := 0x002
/-- LCS. -/
abbrev pgLcs : Nat := 0x003
/-- CUS. -/
abbrev pgCus : Nat := 0x004
/-- DOME. -/
abbrev pgDome : Nat := 0x005
/-- RNG. -/
abbrev pgRng : Nat := 0x006
/-- TIME. -/
abbrev pgTime : Nat := 0x007
/-- MTR. -/
abbrev pgMtr : Nat := 0x008
/-- ARB. -/
abbrev pgArb : Nat := 0x009
/-- CALLER. -/
abbrev pgCaller : Nat := 0x00A
/-- KEEP. -/
abbrev pgKeep : Nat := 0x00B
/-- VAULT. -/
abbrev pgVault : Nat := 0x00C
/-- ACU. -/
abbrev pgAcu : Nat := 0x00D
/-- HIF. -/
abbrev pgHif : Nat := 0x00E
/-- QCTX. -/
abbrev pgQctx : Nat := 0x00F
/-- MBOX. -/
abbrev pgMbox : Nat := 0x010
/-- REEL. -/
abbrev pgReel : Nat := 0x011
/-- FUSE. -/
abbrev pgFuse : Nat := 0x012
/-- CURVES. -/
abbrev pgCurves : Nat := 0x013
/-- TOWER t. -/
abbrev pgTower (t : Nat) : Nat := 0x100 + t

/-! ## Reading and writing the parts of the state -/

/-- The common head of page `p`. -/
def State.head (s : State) (p : Nat) : Head := tblGet ({} : Head) s.heads p

/-- Writes the head of page `p`. -/
def State.setHead (s : State) (p : Nat) (h : Head) : State := { s with heads := tblSet ({} : Head) s.heads p h }

/-- TF `n`. -/
def State.tf (s : State) (n : Nat) : Tf := tblGet ({} : Tf) s.hif.tfs n

/-- Writes TF `n`. -/
def State.setTf (s : State) (n : Nat) (t : Tf) : State :=
  { s with hif := { s.hif with tfs := tblSet ({} : Tf) s.hif.tfs n t } }

/-- Queue pair `q` of function `fn`. -/
def State.qp (s : State) (fn q : Nat) : Qp := tblGet ({} : Qp) s.hif.qps (16 * fn + q)

/-- Writes queue pair `q` of function `fn`. -/
def State.setQp (s : State) (fn q : Nat) (x : Qp) : State :=
  { s with hif := { s.hif with qps := tblSet ({} : Qp) s.hif.qps (16 * fn + q) x } }

/-- Tower `t`. -/
def State.tower (s : State) (t : Nat) : Tower := s.towers.getD t {}

/-- Writes tower `t`. -/
def State.setTower (s : State) (t : Nat) (x : Tower) : State := { s with towers := s.towers.set t x }

/-- Context `c` of tower `t`. -/
def State.ctx (s : State) (t c : Nat) : Ctx := (s.tower t).ctxs.getD c {}

/-- Writes context `c` of tower `t`. -/
def State.setCtx (s : State) (t c : Nat) (x : Ctx) : State :=
  s.setTower t { s.tower t with ctxs := (s.tower t).ctxs.set c x }

/-- `fn` names the MF. -/
def isMf (fn : Nat) : Bool := fn == mfNum

/-- The function exists: the MF, or a TF that NumVFs covers (02 R75). -/
def fnExists (s : State) (fn : Nat) : Bool := isMf fn || decide (fn < s.hif.numTf)

/-- The function has a queue pair `q`: 8 for a TF, 16 for the MF (02, Queue pairs and rings). -/
def qpExists (s : State) (fn q : Nat) : Bool := if isMf fn then decide (q < 16) else decide (fn < s.hif.numTf) && decide (q < 8)

/-- Counts corrections of the ECC (15 R434). -/
def countFixed (s : State) (n : Nat) : State :=
  if n = 0 then s else { s with sup := { s.sup with eccCorr := satAdd 32 s.sup.eccCorr n } }

/-- Counts an uncorrectable error (15 R434). -/
def countUncorr (s : State) : State := { s with sup := { s.sup with eccUncorr := satAdd 32 s.sup.eccUncorr 1 } }

/-- A fresh free value: its number (log 3). -/
def State.takeFree (s : State) : State × Nat := ({ s with free := s.free + 1 }, s.free)

/-- `n` fresh free bytes (log 3). -/
def State.takeBytes (s : State) (n : Nat) : State × Bytes :=
  ({ s with free := s.free + 1 }, leBytes n (Config.freeValue s.free))

/-- Pages that answer while READY is 0: those of the AON, Dome and REEL domains (16 R447). -/
def aonPage (p : Nat) : Bool :=
  ([pgDev, pgSup, pgPwr, pgLcs, pgCus, pgFuse, pgCurves, pgDome, pgTime, pgReel, 0x080, 0x081] : List Nat).contains p

/-- A page that reads 0 and ignores writes, with nothing recorded, because READY is 0 (16 R447). -/
def pageShut (s : State) (p : Nat) : Bool := !s.dev.ready && !aonPage p

/-! ## Interrupts (00 R11; 02 R58, R59) -/

/-- MSI-X of a function. -/
def State.msix (s : State) (fn : Nat) : Msix := if isMf fn then s.hif.mfMsix else (s.tf fn).msix

/-- Writes MSI-X of a function. -/
def State.setMsix (s : State) (fn : Nat) (m : Msix) : State :=
  if isMf fn then { s with hif := { s.hif with mfMsix := m } } else s.setTf fn { s.tf fn with msix := m }

/-- Signals vector `v` of a function: a message, or a pending bit where the vector is masked or the TF is frozen
(02 R68); nothing while MSI-X is disabled. -/
def signal (s : State) (fn v : Nat) : State :=
  let m := s.msix fn
  if !m.enable then s
  else
    let e := tblGet (0, 0, true) m.table v
    if e.2.2 || m.fmask || (!isMf fn && (s.tf fn).frozen) then s.setMsix fn { m with pba := m.pba ||| 2 ^ v }
    else { s with hif := { s.hif with msgs := (fn, v, e.1, e.2.1) :: s.hif.msgs, msiWaiting := s.hif.msiWaiting + 1 } }

/-- The MF vector of block page `p` (02 R59). -/
def irqVector (p : Nat) : Option Nat :=
  if p ≤ 0x013 then some (32 + p) else if 0x100 ≤ p ∧ p ≤ 0x110 then some (64 + (p - 0x100)) else none

/-- Writes a head; a cause that is newly both set and enabled signals the page's MF vector (00 R11). -/
def putHead (s : State) (p : Nat) (h : Head) : State :=
  let old := s.head p
  let s' := s.setHead p h
  if (h.irqStatus &&& h.irqEnable) &&& ~~~(old.irqStatus &&& old.irqEnable) = 0 then s'
  else match irqVector p with
    | some v => signal s' mfNum v
    | none => s'

/-- Sets interrupt cause `bit` of page `p` (00 R11). -/
def raise (s : State) (p bit : Nat) : State :=
  let h := s.head p
  putHead s p { h with irqStatus := h.irqStatus ||| BitVec.ofNat 32 (2 ^ bit) }

/-- Latches a cause in ALERT (16 R459, R460). -/
def alertCause (s : State) (bit : Nat) : State :=
  { s with smb := { s.smb with alert := s.smb.alert ||| BitVec.ofNat 6 (2 ^ bit) } }

/-- Records a write that R9 or R13 ignores, in the head of page `p` (00 R13, R14). -/
def recordWerr (s : State) (p : Nat) : State :=
  let h := s.head p
  putHead s p { h with werr := true, werrCount := satAdd 32 h.werrCount 1, irqStatus := h.irqStatus ||| 1 }

/-- Records an ignored write to the BAR0 of TF `n` (02 R45). -/
def recordTfWerr (s : State) (n : Nat) : State :=
  recordWerr { s with hif := { s.hif with werrLast := some n } } pgHif

/-- The existing TFs. -/
def tfList (s : State) : List Nat := List.range s.hif.numTf

/-- Signals the event vector of every TF (02 R58). -/
def signalAll (s : State) : State := (tfList s).foldl (fun a n => signal a n 8) s

/-- Follows SUP_DEGRADED: DEGRADED_CHANGE, and the TFs' event vectors when DEGRADED changes (15 R438, R441; 02 R58). -/
def degradeCheck (s : State) : State :=
  let now := supDegraded s
  if now = s.sup.degradedSeen then s
  else
    let old := s.sup.degradedSeen
    let s1 := raise { s with sup := { s.sup with degradedSeen := now } } pgSup 4
    if (now % 32 != 0) = (old % 32 != 0) then s1 else signalAll s1

/-! ## Access control (13 R372 to R387) -/

/-- The log dword 3: the low half of the Bell number, 0 while Reel time is unknown (13 R390). -/
def bellLow (s : State) : Nat := if timeKnown s then s.time.bell % 2 ^ 32 else 0

/-- No queue pair of any function fetches: before READY, after a failed self-test, with no tower in service, while a thermal
stop is in force or a life-cycle transition begins, and in SCRAP and LOST (14 R392, R398; 15 R432, R438; 16 R445, R446). -/
def fetchHeld (s : State) : Bool :=
  !s.dev.ready || s.dev.selftestFail || failed s || decide (s.pwr.thermal ≥ 2) || s.lcs.transition.isSome || decide (s.lcs.st ≥ 5)

/-- Fetching is held by a TF stop or a freeze (R55), or for every function. -/
def qpHeld (s : State) (fn : Nat) : Bool := fetchHeld s || (!isMf fn && ((s.tf fn).stop || (s.tf fn).frozen))

/-- Logs an uncorrectable error in the AER of a function (02 R39, R43): `bit` is its place in the PCIe status register
(PRESUMED, log 92). -/
def logAer (s : State) (fn bit : Nat) : State :=
  { s with hif := { s.hif with aer := tblSet 0 s.hif.aer fn (tblGet 0 s.hif.aer fn ||| 2 ^ bit) } }

/-- The AER bit of an answer that is no data (02 R43). -/
def aerBit : ReadAns → Option Nat
  | .data _ => none
  | .ur => some 20
  | .ca => some 15
  | .timeout => some 14
  | .poison => some 12

/-- Logs the failure of a read in the AER of the function that issued it (02 R43). -/
def logAns (s : State) (fn : Nat) (ans : ReadAns) : State :=
  match aerBit ans with
  | some b => logAer s fn b
  | none => s

/-- A vault window access has failed: it is logged against the MF (02 R43). Which of the four causes it was is open here: a free
value. -/
def logVaultError (s : State) : State :=
  logAer { s with free := s.free + 1 } mfNum (([12, 14, 15, 20] : List Nat).getD (Config.freeValue s.free % 4) 12)

/-- Logs a violation (13 R387, R390). -/
def logViolation (s : State) (init kind : Nat) (write host : Bool) (source d1 d2 : Nat) : State :=
  let e : VLog := [BitVec.ofNat 32 (init + 16 * kind + 256 * flag write + 512 * flag host + 65536 * source),
    BitVec.ofNat 32 d1, BitVec.ofNat 32 d2, BitVec.ofNat 32 (bellLow s)]
  let s1 := { s with sup := { s.sup with total := satAdd 32 s.sup.total 1 } }
  if s.sup.log.length < 16 then raise { s1 with sup := { s1.sup with log := s1.sup.log ++ [e] } } pgSup 1
  else raise (raise { s1 with sup := { s1.sup with lost := satAdd 32 s1.sup.lost 1 } } pgSup 1) pgSup 2

/-- A queue pair withdraws the descriptor read that ARB_DMA has not granted: it no longer fetches (02 R55). -/
def Qp.withdraw (x : Qp) : Qp := { x with reads := x.reads.filter (·.issued) }

/-- The queue pairs of TF `n` withdraw their reads. -/
def withdrawTf (s : State) (n : Nat) : State :=
  (List.range 8).foldl (fun a q => a.setQp n q (a.qp n q).withdraw) s

/-- Freezes a TF: from that cycle it fetches nothing (13 R384; 02 R68). -/
def freezeTf (s : State) (n : Nat) : State := withdrawTf (s.setTf n { s.tf n with frozen := true }) n

/-- Class H entry `e` of a function (13 R376, R389). -/
def regionH (s : State) (fn e : Nat) : RegionH :=
  if isMf fn then tblGet {} s.acu.mf e else tblGet {} s.acu.tf (8 * fn + e)

/-- A class H entry matches an access that begins at `addr` (13 R376). -/
def RegionH.matches (r : RegionH) (addr : Nat) : Bool :=
  r.valid && decide (r.base ≤ addr) && decide (addr < r.base + 2 ^ (15 + r.size)) &&
    !bitOf r.subDis ((addr - r.base) / 2 ^ (12 + r.size))

/-- The kind of violation that a host access of a function is; none if it is allowed (13 R376, R380). -/
def hostRefusal (s : State) (fn : Nat) (write : Bool) (addr : Nat) : Option Nat :=
  match ((List.range 8).map (regionH s fn)).find? (fun r => r.matches addr) with
  | some r => if (if write then r.wr else r.rd) then none else some 1
  | none => if isMf fn then none else some 0

/-- A host access of a function that is refused: logged, and a TF is frozen (13 R374, R384). -/
def hostViolation (s : State) (fn kind : Nat) (write : Bool) (addr : Nat) : State :=
  let s1 := logViolation s 4 kind write true fn (addr % 2 ^ 32) (addr / 2 ^ 32)
  if isMf fn then s1 else freezeTf s1 fn

/-- Checks one piece of a host transfer (13 R379): the state after it, and whether it may be made. -/
def hostCheck (s : State) (fn : Nat) (write : Bool) (addr : Nat) : State × Bool :=
  match hostRefusal s fn write addr with
  | none => (s, true)
  | some k => (hostViolation s fn k write addr, false)

/-- The pieces of a host transfer: it is split at each 4 KiB boundary (13 R379). -/
def piecesAux : Nat → Nat → Nat → List (Nat × Nat)
  | 0, _, _ => []
  | fuel + 1, addr, len =>
    if len = 0 then []
    else
      let n := min len (4096 - addr % 4096)
      (addr, n) :: piecesAux fuel (addr + n) (len - n)

/-- The pieces of a host transfer (13 R379). -/
def pieces (addr len : Nat) : List (Nat × Nat) := piecesAux (len / 4096 + 2) addr len

/-- A piece cut into reads of at most `m` bytes; the first of them is marked. -/
def cutPiece (m : Nat) (first : Bool) : Nat → Nat × Nat → List (Nat × Nat × Bool)
  | 0, (a, n) => [(a, n, first)]
  | fuel + 1, (a, n) => if n ≤ m then [(a, n, first)] else (a, m, first) :: cutPiece m false fuel (a + m, n - m)

/-- The reads of a host transfer: its pieces, none larger than the Max_Read_Request_Size in force (02 R39). -/
def readPieces (s : State) (addr len : Nat) : List (Nat × Nat × Bool) :=
  (pieces addr len).flatMap (cutPiece (max 128 s.hif.mrrs) true 32)

/-- Marks a page the device wrote for a TF (02 R71). -/
def markDirty (s : State) (fn addr : Nat) : State :=
  let t := s.tf fn
  if isMf fn || !t.dirtyEn then s
  else
    let p := addr / 4096
    let base := t.range / 4096
    if base ≤ p ∧ p - base < t.pages then
      if t.marks.contains (p - base) then s else s.setTf fn { t with marks := (p - base) :: t.marks }
    else s.setTf fn { t with ovf := true }

/-- The canonical form of the bytes of host memory: addresses strictly rising, and no byte listed that is 0. -/
abbrev Memory.wf (m : List Host.Cell) : Bool := tblWf (0 : Byte) m

/-- Bytes of host memory as the device has written them. -/
def putHost (s : State) (addr : Nat) (b : Bytes) : State := { s with host := tblSetRun (0 : Byte) s.host addr b }

/-- Writes the pieces of a host transfer for a function; it stops at the first refused piece. The number is how many
bytes were written. -/
def writePieces (fn : Nat) : State → List (Nat × Nat) → Bytes → State × Nat
  | s, [], _ => (s, 0)
  | s, (a, n) :: r, b =>
    let (s1, ok) := hostCheck s fn true a
    if ok then
      let (s2, k) := writePieces fn (markDirty (putHost s1 a (b.take n)) fn a) r (b.drop n)
      (s2, n + k)
    else (s1, 0)

/-- A host write for a function: checked piece by piece, dropped without a check while the TF is frozen (02 R68).
The number is how many bytes were written or dropped: all of them unless a piece was refused. -/
def hostWrite (s : State) (fn addr : Nat) (b : Bytes) : State × Nat :=
  if !isMf fn && (s.tf fn).frozen then (s, b.length) else writePieces fn s (pieces addr b.length) b

/-- The target classes of the internal space (13 R375). -/
inductive Target
  /-- Register pages. -/
  | pages
  /-- The Keep. -/
  | keep
  /-- Dome RAM. -/
  | dome
  /-- The fuse array. -/
  | fuse
  deriving DecidableEq, Repr

/-- The target of an internal address (13 R375). -/
def targetOf (addr : Nat) : Option Target :=
  if addr < 0x04000000 then some .pages
  else if 0x10000000 ≤ addr ∧ addr < 0x14000000 then some .keep
  else if 0x20000000 ≤ addr ∧ addr < 0x20010000 then some .dome
  else if 0x21000000 ≤ addr ∧ addr < 0x21001000 then some .fuse
  else none

/-- A class I entry matches an access of an initiator (13 R377). -/
def RegionI.matches (r : RegionI) (init addr : Nat) : Bool :=
  r.valid && bitOf r.init init && decide (r.base ≤ addr) && decide (addr < r.base + 2 ^ r.size)

/-- The register page lies in a supervisor engine's own block: VAULT of the vault engine; REEL and TIME of the Reel engine; LCS, CUS, DOME, MTR,
FUSE and the tally arrays of the engines of number 6 (13 R372, R380; which pages are whose is DEDUCED, log 87). -/
def ownPage (init pg : Nat) : Bool :=
  match init with
  | 3 => pg == pgVault
  | 5 => pg == pgReel || pg == pgTime
  | 6 => pg == pgLcs || pg == pgCus || pg == pgDome || pg == pgMtr || pg == pgFuse || (decide (0x40 ≤ pg) && decide (pg < 0x80))
  | _ => false

/-- The default map for initiators 1, 2 (acting for the MF), 3, 5 and 6 (13 R380). -/
def defaultMap (init addr : Nat) : Target → Bool
  | .pages => init == 1 || ownPage init (addr / 4096)
  | .keep => init == 2 || init == 3 || init == 5
  | .dome => init == 3 || init == 5 || init == 6
  | .fuse => init == 6

/-- The kind of violation that an internal access of a privileged initiator is; none if it is allowed
(13 R375, R377, R380). -/
def intRefusal (s : State) (init : Nat) (write : Bool) (addr : Nat) : Option Nat :=
  match targetOf addr with
  | none => some 5
  | some tg =>
    if !defaultMap init addr tg then some 0
    else match ((List.range 16).map (tblGet ({} : RegionI) s.acu.int)).find? (fun r => r.matches init addr) with
      | some r => if (if write then r.wr else r.rd) then none else some 1
      | none => none

/-- Checks an internal access; a refused one is logged and freezes nothing (13 R384). -/
def intCheck (s : State) (init : Nat) (write : Bool) (source addr : Nat) : State × Bool :=
  match intRefusal s init write addr with
  | none => (s, true)
  | some k => (logViolation s init k write false source (addr % 2 ^ 32) (addr / 2 ^ 32), false)

/-! ### What the supervisor engines reach (13 R372, R373; 15 R420; log 87) -/

/-- The key and root area of Dome RAM, its place in the internal space. -/
abbrev domeKeys : Nat := 0x20000000
/-- The metering ledger. -/
abbrev domeLedger : Nat := 0x20004000
/-- The witness slots. -/
abbrev domeWitness : Nat := 0x2000A000
/-- The tamper log. -/
abbrev domeLog : Nat := 0x2000B000
/-- The fuse array. -/
abbrev fuseArray : Nat := 0x21000000

/-- An access of the vault engine, initiator 3, to the root slots. -/
def rootAccess (s : State) (write : Bool) : State × Bool := intCheck s 3 write 0 domeKeys

/-- An access of a life-cycle, metering or Dome engine, initiator 6. -/
def domeAccess (s : State) (addr : Nat) : State × Bool := intCheck s 6 true 0 addr

/-! ## Queue pairs (02 R52 to R65) -/

/-- A queue pair enters ERROR, unless it is disabled or already there (02 R55, R56). -/
def qpError (s : State) (fn q cause : Nat) : State :=
  let x := s.qp fn q
  if !x.enable || x.err != 0 then s
  else
    let s1 := s.setQp fn q { x.withdraw with err := cause }
    if isMf fn then raise s1 pgHif 1 else signal s1 fn 8

/-- The call is of an older generation of its queue pair, or its function has ceased since (02 R64, R67). -/
def staleCall (s : State) (k : Call) : Bool := k.dead || byteAt k.desc 10 != (s.qp k.fn k.qp).gen

/-- A call leaves the count of R52, or the count of calls of older generations (R64). -/
def callDone (s : State) (k : Call) : State :=
  let x := s.qp k.fn k.qp
  s.setQp k.fn k.qp (if staleCall s k then { x with old := x.old - 1 } else { x with live := x.live - 1 })

/-- Entries from index `a` forward to index `b` of a ring of 2^k. -/
def ringDist (k a b : Nat) : Nat := (b + 2 ^ k - a) % 2 ^ k

/-- A completion of the queue pair may be written: the ring has space, and no freeze holds it (02 R52, R68). -/
def cplOpen (s : State) (fn q : Nat) : Bool :=
  (isMf fn || !(s.tf fn).frozen) && ringDist (s.qp fn q).cqK (s.qp fn q).cqHead (s.qp fn q).cqTail != 2 ^ (s.qp fn q).cqK - 1

/-- Completions of a queue pair that are handed off and not yet written. -/
def cplCount (s : State) (fn q : Nat) : Nat := (s.hif.cpls.filter (fun c => c.fn == fn && c.qp == q)).length

/-- The reads of a queue pair that discards what it has fetched: those whose answer is still awaited stay outstanding, and
bring nothing (02 R39, R63). -/
def dropReads (l : List DescRead) : List DescRead :=
  (l.filter (fun r => r.issued && r.data.isNone)).map (fun r => { r with dropped := true })

/-- QP_CFG and the ring bases at their reset values (02 R66). -/
def Qp.clearCfg (x : Qp) : Qp :=
  { x with sqBase := 0, cqBase := 0, sqK := 4, cqK := 4, prio := 0, coalLog := 0, coalTime := 0 }

/-- The steps of a queue reset (02 R63; 10 R313). Completions that are written and not yet signalled are never signalled: the count and
the timer of R54 are cleared (DESIGN CHOICE, log 133). -/
def queueReset (s : State) (fn q : Nat) : State :=
  let x := s.qp fn q
  let y := { x with
    gen := (x.gen + 1) % 256, enable := false, err := 0, reads := dropReads x.reads, fetched := [],
    old := x.old + (x.live - cplCount s fn q), live := 0, heldReset := none, heldCfg := false
    unsignalled := 0, coalAge := 0, age := 0 }
  let s1 := s.setQp fn q y
  { s1 with
    jobs := s1.jobs.filter (fun j => !(j.fn == fn && j.qp == q && j.suspended)),
    hif := { s1.hif with cpls := s1.hif.cpls.filter (fun c => !(c.fn == fn && c.qp == q)) } }

/-- ENABLE goes from 0 to 1 (02 R48). -/
def qpEnable (s : State) (fn q : Nat) : State :=
  s.setQp fn q { s.qp fn q with enable := true, sqHead := 0, sqTail := 0, cqTail := 0, cqHead := 0, phase := true }

/-- A queue reset takes effect, with its enable, and with the reset of QP_CFG and the ring bases where `cfg` (02 R63, R66). -/
def doReset (s : State) (fn q : Nat) (enable cfg : Bool) : State :=
  let s1 := queueReset s fn q
  let s2 := if cfg then s1.setQp fn q (s1.qp fn q).clearCfg else s1
  if enable then qpEnable s2 fn q else s2

/-- A queue reset is asked for, with or without an enable, and by a TF reset where `cfg`: held while calls of an older generation
are in flight (02 R63, R65, R66). Of two resets held together the later one's ENABLE stands (DESIGN CHOICE, log 93: R65 names one
held reset only). -/
def askReset (s : State) (fn q : Nat) (enable cfg : Bool) : State :=
  let x := s.qp fn q
  if x.old ≠ 0 then s.setQp fn q { x with heldReset := some enable, heldCfg := x.heldCfg || cfg }
  else doReset s fn q enable cfg

/-! ## Descriptor fields (03 R76) -/

/-- The opcode in a descriptor. -/
def opOf (d : Bytes) : Nat := leAt d 0 2

/-- CLASS of a call. -/
def Call.cls (k : Call) : Nat := byteAt k.desc 3

/-- PART of a descriptor. -/
def partOf (d : Bytes) : Nat := leAt d 12 2 % 1024

/-- Handle `i` of a descriptor. -/
def handleOf (d : Bytes) (i : Nat) : Nat := leAt d (16 + 8 * i) 8

/-- DREF_FORM of a descriptor. -/
def formOf (d : Bytes) : Nat := byteAt d 2 % 4

/-- IN_LEN of a descriptor with a list, L of one with inline input, otherwise 0. -/
def inLenOf (d : Bytes) : Nat :=
  if formOf d = 2 then leAt d 56 4 else if formOf d = 1 then leAt d 48 2 else 0

/-! ## Handles (06 R184) -/

/-- PARTITION of a handle. -/
def hPart (h : Nat) : Nat := h / 2 ^ 54

/-- CLASS of a handle. -/
def hCls (h : Nat) : Nat := h / 2 ^ 52 % 4

/-- CHECK of a handle. -/
def hCheck (h : Nat) : Nat := h / 2 ^ 44 % 256

/-- RECORD of a handle. -/
def hIdx (h : Nat) : Nat := h % 2 ^ 44

/-- A handle from its fields. -/
def mkHandle (p cls check idx : Nat) : Nat := p * 2 ^ 54 + cls * 2 ^ 52 + check * 2 ^ 44 + idx

/-! ## Figure contexts and the end of a call (01 R32; 10 R301) -/

/-- The job that context `c` of tower `t` carries. -/
def jobAt (s : State) (t c : Nat) : Option Job := s.jobs.find? (fun j => !j.suspended && j.at_ == (t, c))

/-- The descriptor whose figure the context runs: the call's own, or that of the job it carries (03 R102). -/
def workDesc (s : State) (t c : Nat) : Bytes :=
  match jobAt s t c with
  | some j => j.call.desc
  | none => match (s.ctx t c).call with
    | some k => k.desc
    | none => []

/-- A lane at its release: the lock register and the key, chaining value and data registers are cleared (08 R258, R261). -/
def Lane.free (l : Lane) : Lane := { l with owner := none, marked := false, config := 0, regs := {} }

/-- Releases the lanes of one kind that context `c` holds. -/
def dropLanes (c : Nat) (ls : List Lane) : List Lane := ls.map (fun l => if l.owner = some c then l.free else l)

/-- Releases the halves of the Spire that context `c` holds: each is cleared in the same cycle (09 R283). -/
def Spire.drop (x : Spire) (c : Nat) : Spire :=
  { x with
    half0 := if x.half0 = some c then none else x.half0
    half1 := if x.half1 = some c then none else x.half1
    slots := x.slots.filter (fun e => !(if e.1 < 32 then x.half0 == some c else x.half1 == some c))
    resident := if x.resident = some c then none else x.resident
    switched := if x.resident = some c then false else x.switched
    owed := if x.resident = some c then false else x.owed
    cmd := if x.resident = some c then 0 else x.cmd }

/-- The context releases its lanes and its half of the Spire (08 R258; 09 R283). -/
def freeUnits (s : State) (t c : Nat) : State :=
  let w := s.tower t
  s.setTower t { w with clanes := dropLanes c w.clanes, hlanes := dropLanes c w.hlanes, spire := w.spire.drop c }

/-- The read of a call that ends: what ARB_DMA has granted of it stays outstanding until its answer (02 R39). -/
def dropDma (t c : Nat) (d : DmaReq) : Option DmaReq :=
  if !(d.tower == t && d.ctx == c && d.live) then some d
  else if d.granted = 0 then none else some { d with live := false, pieces := [] }

/-- Writes custody's state. -/
def State.setCus (s : State) (x : Cus) : State := { s with cus := x }

/-- The steps by which a card port is activated: supply with IO left to the card, clock, then RST high, as the ISO/IEC 7816-3 cold reset has
them (16 R456; that standard's order, PRESUMED, log 120). -/
def cardUp : List CardPins := [{ vcc := true }, { vcc := true, clk := true }, { vcc := true, clk := true, rst := true }]

/-- The steps by which it is deactivated: RST low, clock off, IO low, supply off with IO high-impedance (16 R456; PRESUMED, log 120). -/
def cardDown : List CardPins := [{ vcc := true, clk := true }, { vcc := true }, { vcc := true, io := some false }, {}]

/-- Card port 1 or 2 is activated, or deactivated where it is active (14 R408; 16 R456). -/
def setActive (s : State) (port : Nat) (on : Bool) : State :=
  let x := s.cus
  let was := if port = 1 then x.active.1 else x.active.2
  if !on && !was then s
  else
    let l := if on then cardUp else cardDown
    s.setCus (if port = 1 then { x with active := (on, x.active.2), pins := (l, x.pins.2) }
      else { x with active := (x.active.1, on), pins := (x.pins.1, l) })

/-- No card port is active any more (14 R408, R412). -/
def cardsOff (s : State) : State := setActive (setActive s 1 false) 2 false

/-- The call of a context leaves a card exchange that it is in: the card is powered down (14 R408). -/
def leaveCard (s : State) (t c : Nat) : State :=
  if (s.ctx t c).needs.head? = some .card then setActive s (byteAt (workDesc s t c) 64) false else s

/-- The context releases everything it holds and asks for, and is in state `st` (10 R301). -/
def endCtx (s0 : State) (t c : Nat) (st : CtxState) : State :=
  let s := leaveCard s0 t c
  let w := s.tower t
  let x := w.ctxs.getD c {}
  let w' := { w with
    clanes := dropLanes c w.clanes, hlanes := dropLanes c w.hlanes, spire := w.spire.drop c,
    blocks := w.blocks + x.blocks, ctxs := w.ctxs.set c { st := st } }
  let s1 := s.setTower t w'
  { s1 with hif := { s1.hif with
      dma := s1.hif.dma.filterMap (dropDma t c)
      fills := s1.hif.fills.map (fun f => if f.1 == t && f.2.1 == c then (t, c, false) else f) } }

/-- The bytes of a completion, PHASE clear (03 R91). -/
def cplBytes (k : Call) (status cf path : Nat) (results : Bytes) : Bytes :=
  sub k.desc 4 4 ++ leBytes 2 status ++ sub k.desc 10 1 ++ leBytes 1 cf ++ leBytes 4 (min path (2 ^ 32 - 1))
    ++ leBytes 4 (k.bell.getD 0) ++ fit 48 results

/-- Handoff: the completion waits to be written, or is discarded where its generation is stale or its TF is frozen
(01 R32; 02 R64, R68). -/
def handoff (s : State) (k : Call) (b : Bytes) : State :=
  if staleCall s k || (!isMf k.fn && (s.tf k.fn).frozen) then callDone s k
  else { s with hif := { s.hif with
    cpls := s.hif.cpls ++ [{ fn := k.fn, qp := k.qp, bytes := b, irqNow := bitOf (byteAt k.desc 2) 2 }] } }

/-- Charges a tally of a TF (12 R355); the MF has none. -/
def charge (s : State) (fn i n : Nat) : State :=
  if isMf fn then s
  else { s with mtr := { s.mtr with
    tally := tblSet 0 s.mtr.tally (16 * fn + i) ((tblGet 0 s.mtr.tally (16 * fn + i) + n) % 2 ^ 64) } }

/-- The outcome tallies of a call (12 R355). -/
def chargeOutcome (s : State) (x : Ctx) (k : Call) (status path spire : Nat) : State :=
  let bytes := (x.work.input.length - x.work.inBase) + x.work.blob.length + (x.work.outLen - x.work.outBase)
  let s1 := charge s k.fn 9 (ceilDiv bytes 1024)
  let s2 := charge s1 k.fn 10 (ceilDiv spire 1024)
  let s3 := charge s2 k.fn 11 x.vaultReads
  let s4 := charge s3 k.fn 12 x.groupLines
  let s5 := if status = stVerifyFail then charge s4 k.fn 13 1 else s4
  charge s5 k.fn 14 (ceilDiv (min path (2 ^ 32 - 1)) 1024)

/-- Addresses and lengths of `len` bytes of the stream from offset `off`, over the segments of one direction (03 R84). -/
def slices : List Seg → Nat → Nat → List (Nat × Nat)
  | [], _, _ => []
  | g :: r, off, len =>
    if len = 0 then []
    else if g.len ≤ off then slices r (off - g.len) len
    else
      let n := min len (g.len - off)
      (g.addr + off, n) :: slices r 0 (len - n)

/-- Writes a byte string over slices of the stream, until a write is refused. The number is how many bytes were written. -/
def writeSlices (fn : Nat) : State → List (Nat × Nat) → Bytes → State × Nat
  | s, [], _ => (s, 0)
  | s, (a, n) :: r, b =>
    let (s1, k) := hostWrite s fn a (b.take n)
    if k < n then (s1, k)
    else
      let (s2, j) := writeSlices fn s1 r (b.drop n)
      (s2, n + j)

/-- Zeros over one piece of written output. A refused write is not retried; once it has frozen the TF, the writes that follow are
dropped (02 R68). -/
def zeroPiece (fn : Nat) (s : State) (p : Nat × Nat) : State :=
  if !isMf fn && (s.tf fn).frozen then s
  else
    let (s1, ok) := hostCheck s fn true p.1
    if ok then markDirty (putHost s1 p.1 (zeros p.2)) fn p.1 else s1

/-- The zero overwrite of every output byte already written, as far as its writes are allowed (02 R465; 03 R89). -/
def zeroOutput (s : State) (fn : Nat) (w : Work) : State :=
  ((slices (w.segs.filter (·.out)) 0 w.outLen).flatMap (fun p => pieces p.1 p.2)).foldl (zeroPiece fn) s

/-- Context `c` of tower `t` asks ARB_DMA for `n` pieces of call data that are written (10 R308; log 16). -/
def askOut (s : State) (t c n : Nat) : State := { s with hif := { s.hif with outs := s.hif.outs ++ List.replicate n (t, c) } }

/-- How many pieces the first `n` bytes of a run of slices make (13 R379). -/
def pieceCount (l : List (Nat × Nat)) (n : Nat) : Nat := ((slices (l.map (fun p => { addr := p.1, len := p.2 })) 0 n).flatMap (fun p => pieces p.1 p.2)).length

/-- The zero overwrite of a call's output, whose writes ask ARB_DMA as others do (03 R89; 10 R308). -/
def zeroOut (s : State) (t c fn : Nat) (w : Work) : State :=
  askOut (zeroOutput s fn w) t c
    (if !isMf fn && (s.tf fn).frozen then 0 else pieceCount (slices (w.segs.filter (·.out)) 0 w.outLen) w.outLen)

/-- The path cycles of a call: table value, 14 if a key came from the Keep, fetch and wait cycles (01 R35). -/
def pathOf (x : Ctx) (table : Nat) : Nat := table + (if x.keepHit then 14 else 0) + x.fetchCycles + x.waits

/-- One use of the key of a handle: the use count and the last-use mark of its entry in the tower's key cache (01 R32). -/
def bookKey (t h : Nat) (s : State) : State :=
  let w := s.tower t
  let s1 := s.setTower t { w with cache := w.cache.map (fun e =>
    if e.2.part = hPart h ∧ e.2.cls = hCls h ∧ e.2.idx = hIdx h then (e.1, { e.2 with uses := e.2.uses + 1, used := s.keep.clock }) else e) }
  { s1 with keep := { s1.keep with clock := s1.keep.clock + 1 } }

/-- Key bookkeeping: calls whose keys passed the checks of R28, unless a fault left no effect (01 R31, R32). -/
def bookKeys (s : State) (t c status : Nat) : State :=
  let x := s.ctx t c
  if !x.keysOk || status == stDeviceFault || status == stStallBroken then s
  else (List.range x.keys.length).foldl (fun a i => bookKey t (handleOf (workDesc s t c) i) a) s

/-- Spire command cycles that a call is charged for: of a figure that counts them as it goes, those that this carrying call ran, whatever its
outcome (12 R355, R356); of another, what it names. -/
def spireOf (w : Work) (spire : Nat) : Nat := if w.sp = 0 then spire else w.sp - w.base

/-- Completion build of the call in a context: overwrite, key bookkeeping, outcome tallies, stamp, handoff; the context becomes FREE
(01 R32; 03 R89, R91; 10 R301). `table` is the path-table value of the outcome, `spire` the Spire command cycles. -/
def finishCore (s : State) (t c status table spire : Nat) (results : Bytes) : State :=
  let x := s.ctx t c
  match x.call with
  | none => s
  | some k =>
    let s1 := if status = stOk ∨ status = stSuspended then s else zeroOut s t c k.fn x.work
    let path := pathOf x table
    let s2 := chargeOutcome (bookKeys s1 t c status) x k status path (spireOf x.work spire)
    let cf := cflags (jobAt s t c).isSome x.keepHit x.vaultHit k.degraded
    endCtx (handoff s2 k (cplBytes k status cf path results)) t c .free

/-- The call of a job operation that waits for a job completes (03 R101, R103, R105). -/
def finishWaiter (s : State) (w : Option (Nat × Nat)) (status : Nat) : State :=
  match w with
  | none => s
  | some (t, c) => finishCore s t c status 36 0 []

/-- Removes a job from the store. -/
def dropJob (s : State) (j : Job) : State :=
  { s with jobs := s.jobs.filter (fun x => !(x.fn == j.fn && x.tag == j.tag)) }

/-- The job of a context ends with its call: its entry is freed, and operations that wait for it find no job
(03 R99, R105). -/
def jobEnded (s : State) (job : Option Job) : State :=
  match job with
  | none => s
  | some j => finishWaiter (finishWaiter (dropJob s j) j.suspendBy stNoSuchJob) j.cancelBy stNoSuchJob

/-- The call of a context is a JOB_RESUME that carries a job (03 R102). -/
def carries (s : State) (t c : Nat) : Bool :=
  (jobAt s t c).isSome && ((s.ctx t c).call.map (fun k => leAt k.desc 0 2)).getD 0 == 3

/-- The call of a context is a job operation that carries no job: each of its completions has 36 path cycles and its waits,
whatever its status (03 R104). -/
def jobOpCall (s : State) (t c : Nat) : Bool :=
  ((s.ctx t c).call.map (fun k => decide (2 ≤ leAt k.desc 0 2) && decide (leAt k.desc 0 2 ≤ 5))).getD false && (jobAt s t c).isNone

/-- The path-table value of an outcome of a call: 36 for a job operation that carries no job (03 R104). A JOB_RESUME that carries a job counts
from its own cycle 0, so what earlier carrying calls did of the work is not in it (03 R102; DEDUCED, log 32). -/
def tableOf (s : State) (t c table : Nat) : Nat :=
  let b := if carries s t c then (s.ctx t c).work.base else 0
  if jobOpCall s t c then 36 else if 34 + b ≤ table then table - b else table

/-- The call of a context ends with a completion; `table` is the path-table value of the outcome for a figure that runs through in one call. -/
def finishCall (s : State) (t c status table spire : Nat) (results : Bytes) : State :=
  jobEnded (finishCore s t c status (tableOf s t c table) spire results) (jobAt s t c)

/-- A call ends at its key checks or at the claim of its entry: the entry is released in the same cycle (03 R99), so its completion does
not carry CFLAGS.JOB (DESIGN CHOICE, log 101: R92 does not say). A call that carries a job ends the job. -/
def finishUnkeyed (s : State) (t c status table : Nat) (results : Bytes) : State :=
  if carries s t c then finishCall s t c status table 0 results
  else match jobAt s t c with
    | none => finishCall s t c status table 0 results
    | some j => jobEnded (finishCore (dropJob s j) t c status table 0 results) (some j)

/-- The call of a context ends at once, with no completion and no outcome tallies (13 R384). -/
def abortCall (s : State) (t c : Nat) (st : CtxState) : State :=
  match (s.ctx t c).call with
  | none => s
  | some k =>
    let j := jobAt s t c
    jobEnded (endCtx (callDone s k) t c st) j

/-- A data read error, or a refused MF access to call data: the written output is overwritten, the completion is
withheld, and the queue pair enters ERROR (02 R43, R465; 03 R89). -/
def dataError (s : State) (t c cause : Nat) : State :=
  let x := s.ctx t c
  match x.call with
  | none => s
  | some k =>
    qpError (abortCall (zeroOut s t c k.fn x.work) t c .free) k.fn k.qp cause

/-- A host access of a call was refused: a TF's call ends at once, the MF's as R465 states. -/
def refusedAccess (s : State) (t c cause : Nat) : State :=
  match (s.ctx t c).call with
  | none => s
  | some k => if isMf k.fn then dataError s t c cause else abortCall s t c .free

/-- Writes the next bytes of the call's output stream (03 R88). False where the call ended over it. -/
def writeOut (s : State) (t c : Nat) (b : Bytes) : State × Bool :=
  let x := s.ctx t c
  match x.call with
  | none => (s, false)
  | some k =>
    let l := slices (x.work.segs.filter (·.out)) x.work.outLen b.length
    let (s1, n) := writeSlices k.fn s l b
    let y := s1.ctx t c
    let s2 := askOut (s1.setCtx t c { y with work := { y.work with outLen := y.work.outLen + n } }) t c
      (if !isMf k.fn && (s.tf k.fn).frozen then 0 else pieceCount l n)
    if n < b.length then (refusedAccess s2 t c 4, false) else (s2, true)

/-! ## Needs -/

/-- Asks for the host read that the context needs, unless it has been asked for: the next piece of the scatter list, in
parallel with key fetch (03 R85), and as its first need the blob whole (06 R213), or the next chunk of at most 4 KiB (03 R87). -/
def armDma (s : State) (t c : Nat) : State :=
  let x := s.ctx t c
  let d := workDesc s t c
  let ask := fun (what : DmaFor) (ps : List (Nat × Nat × Bool)) (len : Nat) =>
    { s with hif := { s.hif with
      dma := s.hif.dma ++ [{ tower := t, ctx := c, what := what, pieces := ps, len := len, fn := (x.call.map (·.fn)).getD 0 }] } }
  let over_ := fun (off len : Nat) => (slices (x.work.segs.filter (fun g => !g.out)) off len).flatMap (fun p => readPieces s p.1 p.2)
  let want := if x.needs.contains .list then some Need.list else x.needs.head?
  if s.hif.dma.any (fun r => r.live && r.tower == t && r.ctx == c) then s
  else match want with
    | some .list =>
      let a := leAt d 48 8 + x.work.listRaw.length
      let n := min (4096 - a % 4096) (4096 - x.work.listRaw.length)
      ask .list (readPieces s a n) n
    | some .blob => ask .blob (over_ 0 (inLenOf d)) (inLenOf d)
    | some .chunk =>
      let n := min 4096 (inLenOf d - x.work.input.length)
      ask .chunk (over_ x.work.input.length n) n
    | _ => s

/-- The context's needs after its first one is met; it runs when none is left (10 R301). -/
def popNeed (s : State) (t c : Nat) : State :=
  let x := s.ctx t c
  let r := x.needs.drop 1
  armDma (s.setCtx t c { x with needs := r, st := if r.isEmpty then .running else .waiting, stall := 0, age := 0 }) t c

/-- A need of the context is met, wherever it stands. -/
def dropNeed (s : State) (t c : Nat) (n : Need) : State :=
  let x := s.ctx t c
  if x.needs.head? = some n then popNeed s t c else s.setCtx t c { x with needs := x.needs.erase n }

/-- The context's first need. -/
def firstNeed (s : State) (t c : Nat) : Option Need := (s.ctx t c).needs.head?

/-- Replaces the context's needs. -/
def setNeeds (s : State) (t c : Nat) (n : List Need) : State :=
  let x := s.ctx t c
  armDma (s.setCtx t c { x with needs := n, st := if n.isEmpty then .running else .waiting, stall := 0, age := 0 }) t c

/-- A resource has made a grant, or its holder has advanced: the stall counts of the contexts that wait for it, as `p` says of
their tower and need, start again (10 R315). -/
def unstall (s : State) (p : Nat → Need → Bool) : State :=
  { s with towers := s.towers.zipIdx.map (fun e => { e.1 with ctxs := e.1.ctxs.map (fun x =>
      match x.st, x.needs.head? with
      | .waiting, some n => if p e.2 n then { x with stall := 0 } else x
      | _, _ => x) }) }

/-- The contexts of a tower. -/
def ctxIds : List Nat := List.range 8

/-- All figure contexts. -/
def allCtx : List (Nat × Nat) := (List.range 17).flatMap (fun t => ctxIds.map (fun c => (t, c)))

end Sys2Proof.Machine
end

