-- ==== Sys2Proof/Machine/Arbiters.lean ====
section
/-! DEFINITION. The rule set of the five arbiters (10 R308 to R313). -/

namespace Sys2Proof.Machine

/-- Base `i` of an arbiter in force. -/
def Arbiter.baseOf (a : Arbiter) (i : Nat) : Nat := fieldOf a.live (4 * i) 4

/-- Effective priority of a requester with an age, at BASE index `i` (10 R309). -/
def Arbiter.eff (a : Arbiter) (i age : Nat) : Nat := min 15 (a.baseOf i + age)

/-- The age of a requester that loses a round (10 R309). -/
def Arbiter.aged (a : Arbiter) (i age : Nat) : Nat := if a.baseOf i + age ≥ 15 then age else age + 1

/-- The counters after a round that granted a requester of effective priority `eff`, with `lost` losers (10 R319). -/
def Arbiter.count (a : Arbiter) (eff lost : Nat) : Arbiter :=
  { a with
    grants := (a.grants + 1) % 2 ^ 64
    lost := satAdd 32 a.lost lost
    saturated := if eff = 15 then satAdd 32 a.saturated 1 else a.saturated }

/-- A withdrawal after grant in cycle `now`: the arbiter's next round falls after a dead cycle (10 R311). -/
def Arbiter.withdrawn (a : Arbiter) (now : Nat) : Arbiter := { a with withdraws := satAdd 32 a.withdraws 1, dead := now + 1 }

/-- An arbiter takes its shadow bases. -/
def Arbiter.commit (a : Arbiter) : Arbiter := { a with live := a.base }

/-- BLK_SHADOW_COMMIT of page `p` has been carried out. -/
def shadowDone (s : State) (p : Nat) : State := putHead s p { s.head p with commit := false }

/-- The commit of the ARB page is due: this is the first cycle whose number is a multiple of 4 strictly after the write, or a later
one (10 R310). -/
def commitDue (s : State) : Bool := (s.head pgArb).commit && s.cycle % 4 == 0 && decide (s.caller.commitAt < s.cycle)

/-- All arbiters take their new bases together where the commit is due: no round of the commit cycle or after it decides with the
old ones, and none before it with the new (10 R310). -/
def commitArb (s : State) : State :=
  if !commitDue s then s
  else
    let k := s.caller
    let s1 := { s with caller := { k with
      arbKeep := k.arbKeep.commit, arbDma := k.arbDma.commit, arbQueue := k.arbQueue.commit
      arbSpire := k.arbSpire.commit, arbReel := k.arbReel.commit } }
    raise (shadowDone s1 pgArb) pgArb 1

/-- The first entry of greatest value. -/
def bestBy {α : Type} (f : α → Nat) : List α → Option α
  | [] => none
  | x :: r => match bestBy f r with
    | none => some x
    | some y => if f x ≥ f y then some x else some y

/-! ## ARB_QUEUE (10 R312, R313) -/

/-- The queue priority of a queue pair (02 R57). -/
def queuePrio (s : State) (fn q : Nat) : Nat :=
  if isMf fn then (s.qp fn q).prio else min (s.qp fn q).prio (s.tf fn).cap

/-- The functions in ascending order of their numbers: the TFs, then the MF. -/
def fnOrder (s : State) : List Nat := tfList s ++ [mfNum]

/-- The numbers of a function's queue pairs. -/
def qpIds (fn : Nat) : List Nat := if isMf fn then List.range 16 else List.range 8

/-- A queue pair requests admission (10 R312). -/
def qpPending (s : State) (fn q : Nat) : Bool :=
  !(s.qp fn q).fetched.isEmpty && (isMf fn || !(s.tf fn).frozen)

/-- The pending queue pairs of a function. -/
def pendingQps (s : State) (fn : Nat) : List Nat := (qpIds fn).filter (qpPending s fn)

/-- Effective priority of a queue pair at ARB_QUEUE. -/
def qpEff (s : State) (fn q : Nat) : Nat := s.caller.arbQueue.eff (queuePrio s fn q) (s.qp fn q).age

/-- Effective priority of a function: the highest among its pending queue pairs. -/
def fnEff (s : State) (fn : Nat) : Nat := (pendingQps s fn).foldl (fun a q => max a (qpEff s fn q)) 0

/-- An ascending list turned so that it begins with the first entry after `last`, which need not be in it (10 R313). -/
def rotateAfter (last : Option Nat) (l : List Nat) : List Nat :=
  match last with
  | some k => l.filter (fun x => decide (k < x)) ++ l.filter (fun x => decide (x ≤ k))
  | none => l

/-- The queue pair that an ARB_QUEUE round grants (10 R313). -/
def queueChoice (s : State) : Option (Nat × Nat) :=
  let fs := (rotateAfter s.caller.lastFn (fnOrder s)).filter (fun f => !(pendingQps s f).isEmpty)
  match bestBy (fnEff s) fs with
  | none => none
  | some f =>
    let last := if isMf f then s.hif.mfLastQ else (s.tf f).lastQ
    let qs := (rotateAfter last (qpIds f)).filter (qpPending s f)
    (bestBy (qpEff s f) qs).map (fun q => (f, q))

/-- The ages and counters after a round that granted queue pair (fn, q) (10 R309, R313). -/
def queueRound (s : State) (fn q : Nat) : State :=
  let a := s.caller.arbQueue
  let losers := ((fnOrder s).flatMap (fun f => (pendingQps s f).map (fun x => (f, x)))).filter (fun p => p != (fn, q))
  let s1 := losers.foldl (fun b p =>
    b.setQp p.1 p.2 { b.qp p.1 p.2 with age := a.aged (queuePrio s p.1 p.2) (s.qp p.1 p.2).age }) s
  let s2 := s1.setQp fn q { s1.qp fn q with age := 0 }
  let s3 := if isMf fn then { s2 with hif := { s2.hif with mfLastQ := some q } }
    else s2.setTf fn { s2.tf fn with lastQ := some q }
  { s3 with caller := { s3.caller with
    arbQueue := a.count (qpEff s fn q) losers.length, lastFn := some fn, nextRound := s.cycle + 1 } }

end Sys2Proof.Machine
end

