-- ==== Sys2Proof/Machine/Hash.lean ====
section
/-! DEFINITION. The hash functions of the hash lanes and of the Spire's Keccak unit (08 R263; 09 R285): SHA-2, SHA-3, SHAKE and HMAC (named by the spec and not
restated by it: log 5, PRESUMED). -/

namespace Sys2Proof.Machine

/-- The round constants of SHA-256. -/
def shaK256 : List Nat :=
  [0x428a2f98, 0x71374491, 0xb5c0fbcf, 0xe9b5dba5, 0x3956c25b, 0x59f111f1, 0x923f82a4, 0xab1c5ed5] ++
  [0xd807aa98, 0x12835b01, 0x243185be, 0x550c7dc3, 0x72be5d74, 0x80deb1fe, 0x9bdc06a7, 0xc19bf174] ++
  [0xe49b69c1, 0xefbe4786, 0xfc19dc6, 0x240ca1cc, 0x2de92c6f, 0x4a7484aa, 0x5cb0a9dc, 0x76f988da] ++
  [0x983e5152, 0xa831c66d, 0xb00327c8, 0xbf597fc7, 0xc6e00bf3, 0xd5a79147, 0x6ca6351, 0x14292967] ++
  [0x27b70a85, 0x2e1b2138, 0x4d2c6dfc, 0x53380d13, 0x650a7354, 0x766a0abb, 0x81c2c92e, 0x92722c85] ++
  [0xa2bfe8a1, 0xa81a664b, 0xc24b8b70, 0xc76c51a3, 0xd192e819, 0xd6990624, 0xf40e3585, 0x106aa070] ++
  [0x19a4c116, 0x1e376c08, 0x2748774c, 0x34b0bcb5, 0x391c0cb3, 0x4ed8aa4a, 0x5b9cca4f, 0x682e6ff3] ++
  [0x748f82ee, 0x78a5636f, 0x84c87814, 0x8cc70208, 0x90befffa, 0xa4506ceb, 0xbef9a3f7, 0xc67178f2]

/-- The round constants of SHA-384 and SHA-512. -/
def shaK512 : List Nat :=
  [0x428a2f98d728ae22, 0x7137449123ef65cd, 0xb5c0fbcfec4d3b2f, 0xe9b5dba58189dbbc] ++
  [0x3956c25bf348b538, 0x59f111f1b605d019, 0x923f82a4af194f9b, 0xab1c5ed5da6d8118] ++
  [0xd807aa98a3030242, 0x12835b0145706fbe, 0x243185be4ee4b28c, 0x550c7dc3d5ffb4e2] ++
  [0x72be5d74f27b896f, 0x80deb1fe3b1696b1, 0x9bdc06a725c71235, 0xc19bf174cf692694] ++
  [0xe49b69c19ef14ad2, 0xefbe4786384f25e3, 0xfc19dc68b8cd5b5, 0x240ca1cc77ac9c65] ++
  [0x2de92c6f592b0275, 0x4a7484aa6ea6e483, 0x5cb0a9dcbd41fbd4, 0x76f988da831153b5] ++
  [0x983e5152ee66dfab, 0xa831c66d2db43210, 0xb00327c898fb213f, 0xbf597fc7beef0ee4] ++
  [0xc6e00bf33da88fc2, 0xd5a79147930aa725, 0x6ca6351e003826f, 0x142929670a0e6e70] ++
  [0x27b70a8546d22ffc, 0x2e1b21385c26c926, 0x4d2c6dfc5ac42aed, 0x53380d139d95b3df] ++
  [0x650a73548baf63de, 0x766a0abb3c77b2a8, 0x81c2c92e47edaee6, 0x92722c851482353b] ++
  [0xa2bfe8a14cf10364, 0xa81a664bbc423001, 0xc24b8b70d0f89791, 0xc76c51a30654be30] ++
  [0xd192e819d6ef5218, 0xd69906245565a910, 0xf40e35855771202a, 0x106aa07032bbd1b8] ++
  [0x19a4c116b8d2d0c8, 0x1e376c085141ab53, 0x2748774cdf8eeb99, 0x34b0bcb5e19b48a8] ++
  [0x391c0cb3c5c95a63, 0x4ed8aa4ae3418acb, 0x5b9cca4f7763e373, 0x682e6ff3d6b2b8a3] ++
  [0x748f82ee5defb2fc, 0x78a5636f43172f60, 0x84c87814a1f0ab72, 0x8cc702081a6439ec] ++
  [0x90befffa23631e28, 0xa4506cebde82bde9, 0xbef9a3f7b2c67915, 0xc67178f2e372532b] ++
  [0xca273eceea26619c, 0xd186b8c721c0c207, 0xeada7dd6cde0eb1e, 0xf57d4f7fee6ed178] ++
  [0x6f067aa72176fba, 0xa637dc5a2c898a6, 0x113f9804bef90dae, 0x1b710b35131c471b] ++
  [0x28db77f523047d84, 0x32caab7b40c72493, 0x3c9ebe0a15c9bebc, 0x431d67c49c100d4c] ++
  [0x4cc5d4becb3e42b6, 0x597f299cfc657e2a, 0x5fcb6fab3ad6faec, 0x6c44198c4a475817]

/-- The initial value of SHA-256. -/
def shaH256 : List Nat :=
  [0x6a09e667, 0xbb67ae85, 0x3c6ef372, 0xa54ff53a] ++
  [0x510e527f, 0x9b05688c, 0x1f83d9ab, 0x5be0cd19]

/-- The initial value of SHA-384. -/
def shaH384 : List Nat :=
  [0xcbbb9d5dc1059ed8, 0x629a292a367cd507, 0x9159015a3070dd17, 0x152fecd8f70e5939] ++
  [0x67332667ffc00b31, 0x8eb44a8768581511, 0xdb0c2e0d64f98fa7, 0x47b5481dbefa4fa4]

/-- The initial value of SHA-512. -/
def shaH512 : List Nat :=
  [0x6a09e667f3bcc908, 0xbb67ae8584caa73b, 0x3c6ef372fe94f82b, 0xa54ff53a5f1d36f1] ++
  [0x510e527fade682d1, 0x9b05688c2b3e6c1f, 0x1f83d9abfb41bd6b, 0x5be0cd19137e2179]

/-- The round constants of Keccak. -/
def keccakRc : List Nat :=
  [0x1, 0x8082, 0x800000000000808a, 0x8000000080008000] ++
  [0x808b, 0x80000001, 0x8000000080008081, 0x8000000000008009] ++
  [0x8a, 0x88, 0x80008009, 0x8000000a] ++
  [0x8000808b, 0x800000000000008b, 0x8000000000008089, 0x8000000000008003] ++
  [0x8000000000008002, 0x8000000000000080, 0x800a, 0x800000008000000a] ++
  [0x8000000080008081, 0x8000000000008080, 0x80000001, 0x8000000080008008]

/-- The rotations of Keccak, lane x + 5y. -/
def keccakRot : List Nat :=
  [0x0, 0x1, 0x3e, 0x1c, 0x1b] ++
  [0x24, 0x2c, 0x6, 0x37, 0x14] ++
  [0x3, 0xa, 0x2b, 0x19, 0x27] ++
  [0x29, 0x2d, 0xf, 0x15, 0x8] ++
  [0x12, 0x2, 0x3d, 0x38, 0xe]

/-- The constants that tell SHA-256 from SHA-512: word bits, rounds' constants and the rotations. -/
structure ShaKind where
  /-- Bits in a word. -/
  w : Nat
  /-- Round constants. -/
  k : List Nat
  /-- Rotations of the two sums and, with a shift last, of the two schedule functions. -/
  rots : List Nat

/-- SHA-256. -/
def sha256K : ShaKind := { w := 32, k := shaK256, rots := [2, 13, 22, 6, 11, 25, 7, 18, 3, 17, 19, 10] }

/-- SHA-384 and SHA-512. -/
def sha512K : ShaKind := { w := 64, k := shaK512, rots := [28, 34, 39, 14, 18, 41, 1, 8, 7, 19, 61, 6] }

/-- Right rotation of a word of `w` bits. -/
def rotr (w v k : Nat) : Nat := v / 2 ^ k + (v * 2 ^ (w - k)) % 2 ^ w

/-- A sum of three rotations, numbered from `i` among the kind's rotations. -/
def shaSum (t : ShaKind) (i v : Nat) : Nat :=
  Nat.xor (Nat.xor (rotr t.w v (t.rots.getD i 0)) (rotr t.w v (t.rots.getD (i + 1) 0))) (rotr t.w v (t.rots.getD (i + 2) 0))

/-- A schedule function: two rotations and a shift, numbered from `i`. -/
def shaSig (t : ShaKind) (i v : Nat) : Nat :=
  Nat.xor (Nat.xor (rotr t.w v (t.rots.getD i 0)) (rotr t.w v (t.rots.getD (i + 1) 0))) (v / 2 ^ t.rots.getD (i + 2) 0)

/-- The message schedule, last word first, extended by the given number of words. -/
def shaSched (t : ShaKind) : Nat → List Nat → List Nat
  | 0, ws => ws
  | n + 1, ws =>
    let x := (shaSig t 9 (ws.getD 1 0) + ws.getD 6 0 + shaSig t 6 (ws.getD 14 0) + ws.getD 15 0) % 2 ^ t.w
    shaSched t n (x :: ws)

/-- One round over the eight working variables. -/
def shaRound (t : ShaKind) (v : List Nat) (kw : Nat × Nat) : List Nat :=
  match v with
  | [a, b, c, d, e, f, g, h] =>
    let m := 2 ^ t.w
    let ch := Nat.xor (Nat.land e f) (Nat.land (m - 1 - e) g)
    let maj := Nat.xor (Nat.xor (Nat.land a b) (Nat.land a c)) (Nat.land b c)
    let t1 := h + shaSum t 3 e + ch + kw.1 + kw.2
    let t2 := shaSum t 0 a + maj
    [(t1 + t2) % m, a, b, c, (d + t1) % m, e, f, g]
  | _ => v

/-- The compression function. -/
def shaCompress (t : ShaKind) (h : List Nat) (blk : Bytes) : List Nat :=
  let ws := (shaSched t (t.k.length - 16) ((chunks (t.w / 8) blk).map beVal).reverse).reverse
  List.zipWith (fun x y => (x + y) % 2 ^ t.w) h ((t.k.zip ws).foldl (shaRound t) h)

/-- The padded message. -/
def shaPad (t : ShaKind) (b : Bytes) : Bytes :=
  let n := t.w / 4
  let blk := 2 * t.w
  let x := b ++ [0x80]
  x ++ zeros ((blk - (x.length + n) % blk) % blk) ++ beBytes n (8 * b.length)

/-- SHA-2 from an initial value. -/
def sha2 (t : ShaKind) (iv : List Nat) (b : Bytes) : Bytes :=
  ((chunks (2 * t.w) (shaPad t b)).foldl (shaCompress t) iv).flatMap (beBytes (t.w / 8))

/-- SHA-256. -/
def sha256 (b : Bytes) : Bytes := sha2 sha256K shaH256 b

/-- SHA-384. -/
def sha384 (b : Bytes) : Bytes := (sha2 sha512K shaH384 b).take 48

/-- SHA-512. -/
def sha512 (b : Bytes) : Bytes := sha2 sha512K shaH512 b

/-- Left rotation of a 64-bit lane. -/
def rotl64 (v k : Nat) : Nat := (v * 2 ^ k) % 2 ^ 64 + v / 2 ^ (64 - k)

/-- Lane x + 5y of the state. -/
def lane (a : List Nat) (i : Nat) : Nat := a.getD i 0

/-- One round of Keccak-f[1600]. -/
def keccakRound (a : List Nat) (rc : Nat) : List Nat :=
  let c := (List.range 5).map (fun x =>
    Nat.xor (Nat.xor (Nat.xor (Nat.xor (lane a x) (lane a (x + 5))) (lane a (x + 10))) (lane a (x + 15))) (lane a (x + 20)))
  let d := (List.range 5).map (fun x => Nat.xor (lane c ((x + 4) % 5)) (rotl64 (lane c ((x + 1) % 5)) 1))
  let e := (List.range 25).map (fun i => Nat.xor (lane a i) (lane d (i % 5)))
  let b := (List.range 25).map (fun i =>
    let x := i % 5
    let y := i / 5
    let j := (x + 3 * y) % 5 + 5 * x
    rotl64 (lane e j) (lane keccakRot j))
  let f := (List.range 25).map (fun i =>
    let x := i % 5
    let y := 5 * (i / 5)
    Nat.xor (lane b i) (Nat.land (2 ^ 64 - 1 - lane b (y + (x + 1) % 5)) (lane b (y + (x + 2) % 5))))
  match f with
  | [] => []
  | z :: r => Nat.xor z rc :: r

/-- Keccak-f[1600]. -/
def keccakF (a : List Nat) : List Nat := keccakRc.foldl keccakRound a

/-- A block of `rate` bytes added to the state. -/
def keccakAdd (rate : Nat) (a : List Nat) (blk : Bytes) : List Nat :=
  List.zipWith Nat.xor a ((chunks 8 blk).map leVal ++ List.replicate (25 - rate / 8) 0)

/-- The sponge's state after a message padded with the suffix byte `x` (SHA-3 06, SHAKE 1F). -/
def absorb (rate : Nat) (x : Byte) (b : Bytes) : List Nat :=
  let y := b ++ [x]
  let z := y ++ zeros ((rate - y.length % rate) % rate)
  (chunks rate (z.dropLast ++ [z.getLastD 0 ^^^ 0x80])).foldl (fun a blk => keccakF (keccakAdd rate a blk)) (List.replicate 25 0)

/-- The block that a state shows. -/
def keccakOut (rate : Nat) (a : List Nat) : Bytes := (a.take (rate / 8)).flatMap (leBytes 8)

/-- A number of blocks squeezed from a state. -/
def squeeze (rate : Nat) : Nat → List Nat → Bytes
  | 0, _ => []
  | n + 1, a => keccakOut rate a ++ squeeze rate n (keccakF a)

/-- SHA3-256: rate 136 bytes. -/
def sha3_256 (b : Bytes) : Bytes := (keccakOut 136 (absorb 136 0x06 b)).take 32

/-- SHA3-512: rate 72 bytes. -/
def sha3_512 (b : Bytes) : Bytes := (keccakOut 72 (absorb 72 0x06 b)).take 64

/-- SHAKE256 with `n` bytes of output: rate 136 bytes. -/
def shake256 (b : Bytes) (n : Nat) : Bytes := (squeeze 136 (ceilDiv n 136) (absorb 136 0x1F b)).take n

/-- HMAC over a hash with blocks of `blk` bytes. -/
def hmac (h : Bytes → Bytes) (blk : Nat) (key b : Bytes) : Bytes :=
  let k := fit blk (if key.length > blk then h key else key)
  h (k.map (· ^^^ 0x5C) ++ h (k.map (· ^^^ 0x36) ++ b))

end Sys2Proof.Machine
end

