-- ==== Sys2Proof/Machine/Aes.lean ====
section
/-! DEFINITION. The AES block operations (FIPS 197, named by the spec and not restated by it: log 5, PRESUMED). A block, the
State of FIPS 197 and a round key are numbers of 128 bits whose most significant byte is the first one, and a word of the key
schedule is one of 32 bits, so that a column of the State is 32 bits in a row. -/

namespace Sys2Proof.Machine

/-- The S-box (FIPS 197). -/
def aesSbox : List Nat :=
  [99, 124, 119, 123, 242, 107, 111, 197, 48, 1, 103, 43, 254, 215, 171, 118] ++
  [202, 130, 201, 125, 250, 89, 71, 240, 173, 212, 162, 175, 156, 164, 114, 192] ++
  [183, 253, 147, 38, 54, 63, 247, 204, 52, 165, 229, 241, 113, 216, 49, 21] ++
  [4, 199, 35, 195, 24, 150, 5, 154, 7, 18, 128, 226, 235, 39, 178, 117] ++
  [9, 131, 44, 26, 27, 110, 90, 160, 82, 59, 214, 179, 41, 227, 47, 132] ++
  [83, 209, 0, 237, 32, 252, 177, 91, 106, 203, 190, 57, 74, 76, 88, 207] ++
  [208, 239, 170, 251, 67, 77, 51, 133, 69, 249, 2, 127, 80, 60, 159, 168] ++
  [81, 163, 64, 143, 146, 157, 56, 245, 188, 182, 218, 33, 16, 255, 243, 210] ++
  [205, 12, 19, 236, 95, 151, 68, 23, 196, 167, 126, 61, 100, 93, 25, 115] ++
  [96, 129, 79, 220, 34, 42, 144, 136, 70, 238, 184, 20, 222, 94, 11, 219] ++
  [224, 50, 58, 10, 73, 6, 36, 92, 194, 211, 172, 98, 145, 149, 228, 121] ++
  [231, 200, 55, 109, 141, 213, 78, 169, 108, 86, 244, 234, 101, 122, 174, 8] ++
  [186, 120, 37, 46, 28, 166, 180, 198, 232, 221, 116, 31, 75, 189, 139, 138] ++
  [112, 62, 181, 102, 72, 3, 246, 14, 97, 53, 87, 185, 134, 193, 29, 158] ++
  [225, 248, 152, 17, 105, 217, 142, 148, 155, 30, 135, 233, 206, 85, 40, 223] ++
  [140, 161, 137, 13, 191, 230, 66, 104, 65, 153, 45, 15, 176, 84, 187, 22]

/-- The inverse S-box (FIPS 197). -/
def aesInvSbox : List Nat :=
  [82, 9, 106, 213, 48, 54, 165, 56, 191, 64, 163, 158, 129, 243, 215, 251] ++
  [124, 227, 57, 130, 155, 47, 255, 135, 52, 142, 67, 68, 196, 222, 233, 203] ++
  [84, 123, 148, 50, 166, 194, 35, 61, 238, 76, 149, 11, 66, 250, 195, 78] ++
  [8, 46, 161, 102, 40, 217, 36, 178, 118, 91, 162, 73, 109, 139, 209, 37] ++
  [114, 248, 246, 100, 134, 104, 152, 22, 212, 164, 92, 204, 93, 101, 182, 146] ++
  [108, 112, 72, 80, 253, 237, 185, 218, 94, 21, 70, 87, 167, 141, 157, 132] ++
  [144, 216, 171, 0, 140, 188, 211, 10, 247, 228, 88, 5, 184, 179, 69, 6] ++
  [208, 44, 30, 143, 202, 63, 15, 2, 193, 175, 189, 3, 1, 19, 138, 107] ++
  [58, 145, 17, 65, 79, 103, 220, 234, 151, 242, 207, 206, 240, 180, 230, 115] ++
  [150, 172, 116, 34, 231, 173, 53, 133, 226, 249, 55, 232, 28, 117, 223, 110] ++
  [71, 241, 26, 113, 29, 41, 197, 137, 111, 183, 98, 14, 170, 24, 190, 27] ++
  [252, 86, 62, 75, 198, 210, 121, 32, 154, 219, 192, 254, 120, 205, 90, 244] ++
  [31, 221, 168, 51, 136, 7, 199, 49, 177, 18, 16, 89, 39, 128, 236, 95] ++
  [96, 81, 127, 169, 25, 181, 74, 13, 45, 229, 122, 159, 147, 201, 156, 239] ++
  [160, 224, 59, 77, 174, 42, 245, 176, 200, 235, 187, 60, 131, 83, 153, 97] ++
  [23, 43, 4, 126, 186, 119, 214, 38, 225, 105, 20, 99, 85, 33, 12, 125]

/-- A table of bytes as one number, entry `i` in bits 8i+7..8i. -/
def packTable (t : List Nat) : Nat := t.foldr (fun x a => a * 256 + x) 0

/-- The S-box as one number. -/
def aesSub : Nat := packTable aesSbox

/-- The inverse S-box as one number. -/
def aesInvSub : Nat := packTable aesInvSbox

/-- One look-up in a table. -/
def tableByte (t b : Nat) : Nat := (t >>> (8 * b)) % 256

/-- Byte `i` of a block. -/
def blockByte (s i : Nat) : Nat := (s >>> (120 - 8 * i)) % 256

/-- SubBytes and ShiftRows with the S-box `t`, or their inverses where `k` is 3: byte i comes from row i mod 4 of column
i/4 + k·(i mod 4). -/
def subShift (t k s : Nat) : Nat :=
  (List.range 16).foldl (fun a i => a * 256 + tableByte t (blockByte s (4 * ((i / 4 + k * (i % 4)) % 4) + i % 4))) 0

/-- Every byte of a block times x in GF(2^8). -/
def xtimes (s : Nat) : Nat :=
  ((s &&& 0x7f7f7f7f7f7f7f7f7f7f7f7f7f7f7f7f) <<< 1) ^^^ (((s >>> 7) &&& 0x01010101010101010101010101010101) * 0x1b)

/-- Every column moved up by one row: row r gets what row r + 1 held. -/
def rotCols (s : Nat) : Nat :=
  ((s &&& 0x00ffffff00ffffff00ffffff00ffffff) <<< 8) ||| ((s >>> 24) &&& 0x000000ff000000ff000000ff000000ff)

/-- MixColumns: row r gets 2·r + 3·(r+1) + (r+2) + (r+3). -/
def mixColumns (s : Nat) : Nat :=
  let d := xtimes s
  let s1 := rotCols s
  let s2 := rotCols s1
  d ^^^ rotCols d ^^^ s1 ^^^ s2 ^^^ rotCols s2

/-- InvMixColumns: MixColumns after row r got 5·r + 4·(r+2), for (2, 3, 1, 1)·(5, 0, 4, 0) = (14, 11, 13, 9). -/
def invMixColumns (s : Nat) : Nat := mixColumns (s ^^^ xtimes (xtimes (s ^^^ rotCols (rotCols s))))

/-- SubWord of the key schedule. -/
def subWord (w : Nat) : Nat := [24, 16, 8, 0].foldl (fun a i => a * 256 + tableByte aesSub ((w >>> i) % 256)) 0

/-- RotWord of the key schedule. -/
def rotWord (w : Nat) : Nat := (w % 2 ^ 24) * 256 + w / 2 ^ 24

/-- The key schedule's words, last first, `n` more words from word number `i` on, for keys of `nk` words; `rc` is the round constant. -/
def aesWords (nk : Nat) : Nat → Nat → Nat → List Nat → List Nat
  | 0, _, _, ws => ws
  | n + 1, i, rc, ws =>
    let prev := ws.headD 0
    let back := ws.getD (nk - 1) 0
    if i % nk = 0 then aesWords nk n (i + 1) (xtimes rc) ((back ^^^ subWord (rotWord prev) ^^^ (rc <<< 24)) :: ws)
    else if nk > 6 ∧ i % nk = 4 then aesWords nk n (i + 1) rc ((back ^^^ subWord prev) :: ws)
    else aesWords nk n (i + 1) rc ((back ^^^ prev) :: ws)

/-- Every four words as a round key, from a list that begins with the last word, prepended to `a`: the first round key comes first. -/
def roundKeys (a : List Nat) : List Nat → List Nat
  | w3 :: w2 :: w1 :: w0 :: r => roundKeys ((w0 * 2 ^ 96 + w1 * 2 ^ 64 + w2 * 2 ^ 32 + w3) :: a) r
  | _ => a

/-- The round keys of a key of 16, 24 or 32 bytes. -/
def aesRoundKeys (key : Bytes) : List Nat :=
  let nk := key.length / 4
  roundKeys [] (aesWords nk (4 * (nk + 7) - nk) nk 1 ((chunks 4 key).map beVal).reverse)

/-- The rounds of the cipher after the first key addition. -/
def aesRounds (s : Nat) : List Nat → Nat
  | [] => s
  | [k] => subShift aesSub 1 s ^^^ k
  | k :: r => aesRounds (mixColumns (subShift aesSub 1 s) ^^^ k) r

/-- AES encryption of one 16-byte block. -/
def aesEnc (key blk : Bytes) : Bytes :=
  match aesRoundKeys key with
  | [] => blk
  | k :: r => beBytes 16 (aesRounds (beVal blk ^^^ k) r)

/-- The rounds of the inverse cipher after the first key addition; the remaining round keys come last first. -/
def aesInvRounds (s : Nat) : List Nat → Nat
  | [] => s
  | [k] => subShift aesInvSub 3 s ^^^ k
  | k :: r => aesInvRounds (invMixColumns (subShift aesInvSub 3 s ^^^ k)) r

/-- AES decryption of one 16-byte block. -/
def aesDec (key blk : Bytes) : Bytes :=
  match (aesRoundKeys key).reverse with
  | [] => blk
  | k :: r => beBytes 16 (aesInvRounds (beVal blk ^^^ k) r)

end Sys2Proof.Machine
end

