-- ==== Sys2Proof/Machine/Des.lean ====
section
/-! DEFINITION. DES and TDES block operations (named by the spec and not restated by it: log 5, PRESUMED). -/

namespace Sys2Proof.Machine

/-- The initial permutation. -/
def desIp : List Nat :=
  [58, 50, 42, 34, 26, 18, 10, 2, 60, 52, 44, 36, 28, 20, 12, 4] ++
  [62, 54, 46, 38, 30, 22, 14, 6, 64, 56, 48, 40, 32, 24, 16, 8] ++
  [57, 49, 41, 33, 25, 17, 9, 1, 59, 51, 43, 35, 27, 19, 11, 3] ++
  [61, 53, 45, 37, 29, 21, 13, 5, 63, 55, 47, 39, 31, 23, 15, 7]

/-- The final permutation. -/
def desFp : List Nat :=
  [40, 8, 48, 16, 56, 24, 64, 32, 39, 7, 47, 15, 55, 23, 63, 31] ++
  [38, 6, 46, 14, 54, 22, 62, 30, 37, 5, 45, 13, 53, 21, 61, 29] ++
  [36, 4, 44, 12, 52, 20, 60, 28, 35, 3, 43, 11, 51, 19, 59, 27] ++
  [34, 2, 42, 10, 50, 18, 58, 26, 33, 1, 41, 9, 49, 17, 57, 25]

/-- The expansion. -/
def desE : List Nat :=
  [32, 1, 2, 3, 4, 5, 4, 5, 6, 7, 8, 9, 8, 9, 10, 11] ++
  [12, 13, 12, 13, 14, 15, 16, 17, 16, 17, 18, 19, 20, 21, 20, 21] ++
  [22, 23, 24, 25, 24, 25, 26, 27, 28, 29, 28, 29, 30, 31, 32, 1]

/-- The permutation after the S-boxes. -/
def desP : List Nat :=
  [16, 7, 20, 21, 29, 12, 28, 17, 1, 15, 23, 26, 5, 18, 31, 10] ++
  [2, 8, 24, 14, 32, 27, 3, 9, 19, 13, 30, 6, 22, 11, 4, 25]

/-- Permuted choice 1. -/
def desPc1 : List Nat :=
  [57, 49, 41, 33, 25, 17, 9, 1, 58, 50, 42, 34, 26, 18, 10, 2] ++
  [59, 51, 43, 35, 27, 19, 11, 3, 60, 52, 44, 36, 63, 55, 47, 39] ++
  [31, 23, 15, 7, 62, 54, 46, 38, 30, 22, 14, 6, 61, 53, 45, 37] ++
  [29, 21, 13, 5, 28, 20, 12, 4]

/-- Permuted choice 2. -/
def desPc2 : List Nat :=
  [14, 17, 11, 24, 1, 5, 3, 28, 15, 6, 21, 10, 23, 19, 12, 4] ++
  [26, 8, 16, 7, 27, 20, 13, 2, 41, 52, 31, 37, 47, 55, 30, 40] ++
  [51, 45, 33, 48, 44, 49, 39, 56, 34, 53, 46, 42, 50, 36, 29, 32]

/-- S-box 1, row by row. -/
def desS1 : List Nat :=
  [14, 4, 13, 1, 2, 15, 11, 8, 3, 10, 6, 12, 5, 9, 0, 7] ++
  [0, 15, 7, 4, 14, 2, 13, 1, 10, 6, 12, 11, 9, 5, 3, 8] ++
  [4, 1, 14, 8, 13, 6, 2, 11, 15, 12, 9, 7, 3, 10, 5, 0] ++
  [15, 12, 8, 2, 4, 9, 1, 7, 5, 11, 3, 14, 10, 0, 6, 13]

/-- S-box 2, row by row. -/
def desS2 : List Nat :=
  [15, 1, 8, 14, 6, 11, 3, 4, 9, 7, 2, 13, 12, 0, 5, 10] ++
  [3, 13, 4, 7, 15, 2, 8, 14, 12, 0, 1, 10, 6, 9, 11, 5] ++
  [0, 14, 7, 11, 10, 4, 13, 1, 5, 8, 12, 6, 9, 3, 2, 15] ++
  [13, 8, 10, 1, 3, 15, 4, 2, 11, 6, 7, 12, 0, 5, 14, 9]

/-- S-box 3, row by row. -/
def desS3 : List Nat :=
  [10, 0, 9, 14, 6, 3, 15, 5, 1, 13, 12, 7, 11, 4, 2, 8] ++
  [13, 7, 0, 9, 3, 4, 6, 10, 2, 8, 5, 14, 12, 11, 15, 1] ++
  [13, 6, 4, 9, 8, 15, 3, 0, 11, 1, 2, 12, 5, 10, 14, 7] ++
  [1, 10, 13, 0, 6, 9, 8, 7, 4, 15, 14, 3, 11, 5, 2, 12]

/-- S-box 4, row by row. -/
def desS4 : List Nat :=
  [7, 13, 14, 3, 0, 6, 9, 10, 1, 2, 8, 5, 11, 12, 4, 15] ++
  [13, 8, 11, 5, 6, 15, 0, 3, 4, 7, 2, 12, 1, 10, 14, 9] ++
  [10, 6, 9, 0, 12, 11, 7, 13, 15, 1, 3, 14, 5, 2, 8, 4] ++
  [3, 15, 0, 6, 10, 1, 13, 8, 9, 4, 5, 11, 12, 7, 2, 14]

/-- S-box 5, row by row. -/
def desS5 : List Nat :=
  [2, 12, 4, 1, 7, 10, 11, 6, 8, 5, 3, 15, 13, 0, 14, 9] ++
  [14, 11, 2, 12, 4, 7, 13, 1, 5, 0, 15, 10, 3, 9, 8, 6] ++
  [4, 2, 1, 11, 10, 13, 7, 8, 15, 9, 12, 5, 6, 3, 0, 14] ++
  [11, 8, 12, 7, 1, 14, 2, 13, 6, 15, 0, 9, 10, 4, 5, 3]

/-- S-box 6, row by row. -/
def desS6 : List Nat :=
  [12, 1, 10, 15, 9, 2, 6, 8, 0, 13, 3, 4, 14, 7, 5, 11] ++
  [10, 15, 4, 2, 7, 12, 9, 5, 6, 1, 13, 14, 0, 11, 3, 8] ++
  [9, 14, 15, 5, 2, 8, 12, 3, 7, 0, 4, 10, 1, 13, 11, 6] ++
  [4, 3, 2, 12, 9, 5, 15, 10, 11, 14, 1, 7, 6, 0, 8, 13]

/-- S-box 7, row by row. -/
def desS7 : List Nat :=
  [4, 11, 2, 14, 15, 0, 8, 13, 3, 12, 9, 7, 5, 10, 6, 1] ++
  [13, 0, 11, 7, 4, 9, 1, 10, 14, 3, 5, 12, 2, 15, 8, 6] ++
  [1, 4, 11, 13, 12, 3, 7, 14, 10, 15, 6, 8, 0, 5, 9, 2] ++
  [6, 11, 13, 8, 1, 4, 10, 7, 9, 5, 0, 15, 14, 2, 3, 12]

/-- S-box 8, row by row. -/
def desS8 : List Nat :=
  [13, 2, 8, 4, 6, 15, 11, 1, 10, 9, 3, 14, 5, 0, 12, 7] ++
  [1, 15, 13, 8, 10, 3, 7, 4, 12, 5, 6, 11, 0, 14, 9, 2] ++
  [7, 11, 4, 1, 9, 12, 14, 2, 0, 6, 10, 13, 15, 3, 5, 8] ++
  [2, 1, 14, 7, 4, 10, 8, 13, 15, 12, 9, 0, 3, 5, 6, 11]

/-- Picks bits of an `n`-bit number: table entries count from 1 at the most significant bit. -/
def pickBits (n : Nat) (t : List Nat) (v : Nat) : Nat := t.foldl (fun a i => 2 * a + fieldOf v (n - i) 1) 0

/-- Left rotation of a 28-bit half. -/
def rot28 (v k : Nat) : Nat := (v * 2 ^ k) % 2 ^ 28 + v / 2 ^ (28 - k)

/-- The rotations of the sixteen rounds. -/
def desShifts : List Nat := [1, 1, 2, 2, 2, 2, 2, 2, 1, 2, 2, 2, 2, 2, 2, 1]

/-- The round keys, in order, from the halves and the rotations left. -/
def desKeysAux : List Nat → Nat → Nat → List Nat
  | [], _, _ => []
  | k :: r, c, d => pickBits 56 desPc2 (rot28 c k * 2 ^ 28 + rot28 d k) :: desKeysAux r (rot28 c k) (rot28 d k)

/-- The sixteen round keys of an 8-byte key. -/
def desKeys (key : Bytes) : List Nat :=
  let v := pickBits 64 desPc1 (beVal key)
  desKeysAux desShifts (v / 2 ^ 28) (v % 2 ^ 28)

/-- One S-box of six input bits: the row is the outer bits, the column the inner ones. -/
def desS (t : List Nat) (x : Nat) : Nat := t.getD (16 * (2 * (x / 32) + x % 2) + x / 2 % 16) 0

/-- The round function. -/
def desF (r k : Nat) : Nat :=
  let x := Nat.xor (pickBits 32 desE r) k
  let boxes := [desS1, desS2, desS3, desS4, desS5, desS6, desS7, desS8]
  pickBits 32 desP ((List.range 8).foldl (fun a i => 16 * a + desS (boxes.getD i []) (fieldOf x (42 - 6 * i) 6)) 0)

/-- The sixteen rounds with the given keys, the halves exchanged at the end. -/
def desRounds : List Nat → Nat → Nat → Nat
  | [], l, r => r * 2 ^ 32 + l
  | k :: ks, l, r => desRounds ks r (Nat.xor l (desF r k))

/-- DES over one block with the round keys in the order given. -/
def desBlock (ks : List Nat) (blk : Bytes) : Bytes :=
  let v := pickBits 64 desIp (beVal blk)
  beBytes 8 (pickBits 64 desFp (desRounds ks (v / 2 ^ 32) (v % 2 ^ 32)))

/-- DES encryption. -/
def desEnc (key blk : Bytes) : Bytes := desBlock (desKeys key) blk

/-- DES decryption. -/
def desDec (key blk : Bytes) : Bytes := desBlock (desKeys key).reverse blk

/-- Key `i` of a TDES key of 8, 16 or 24 bytes: a short key repeats from its start. -/
def tdesPart (key : Bytes) (i : Nat) : Bytes := if 8 * i < key.length then sub key (8 * i) 8 else key.take 8

/-- TDES encryption of one 8-byte block. -/
def tdesEnc (key blk : Bytes) : Bytes := desEnc (tdesPart key 2) (desDec (tdesPart key 1) (desEnc (tdesPart key 0) blk))

/-- TDES decryption of one 8-byte block. -/
def tdesDec (key blk : Bytes) : Bytes := desDec (tdesPart key 0) (desEnc (tdesPart key 1) (desDec (tdesPart key 2) blk))

/-- The number of ones in a byte. -/
def popCount (b : Byte) : Nat := (List.range 8).foldl (fun a i => a + flag (b.getLsbD i)) 0

/-- A byte with its lowest bit set so that the number of ones is odd. -/
def oddByte (b : Byte) : Byte :=
  let x := b &&& 0xFE
  if popCount x % 2 = 0 then x ||| 1 else x

/-- A key with odd parity in every byte. -/
def oddParity (b : Bytes) : Bytes := b.map oddByte

end Sys2Proof.Machine
end

