-- ==== Sys2Proof/Machine/Modes.lean ====
section
/-! DEFINITION. Block-cipher modes of the cipher lanes (08 R262, R263, R265, R267). The standards are named by the spec
and not restated by it (log 5, PRESUMED). -/

namespace Sys2Proof.Machine

/-- A block cipher under one key: block length, encryption and decryption of one block. -/
structure BlockCipher where
  /-- Bytes in a block: 16 for AES, 8 for DES and TDES. -/
  n : Nat
  /-- Encryption of one block. -/
  enc : Bytes → Bytes
  /-- Decryption of one block. -/
  dec : Bytes → Bytes

/-- AES under a key. -/
def aesC (k : Bytes) : BlockCipher := { n := 16, enc := aesEnc k, dec := aesDec k }

/-- TDES under a key. -/
def tdesC (k : Bytes) : BlockCipher := { n := 8, enc := tdesEnc k, dec := tdesDec k }

/-- ECB encryption of whole blocks. -/
def ecbEnc (c : BlockCipher) (b : Bytes) : Bytes := (chunks c.n b).flatMap c.enc

/-- ECB decryption of whole blocks. -/
def ecbDec (c : BlockCipher) (b : Bytes) : Bytes := (chunks c.n b).flatMap c.dec

/-- CBC encryption of a list of blocks. -/
def cbcEncL (c : BlockCipher) : Bytes → List Bytes → List Bytes
  | _, [] => []
  | iv, b :: r =>
    let y := c.enc (xorB iv b)
    y :: cbcEncL c y r

/-- CBC encryption of whole blocks. -/
def cbcEnc (c : BlockCipher) (iv b : Bytes) : Bytes := (cbcEncL c iv (chunks c.n b)).flatten

/-- CBC decryption of a list of blocks. -/
def cbcDecL (c : BlockCipher) : Bytes → List Bytes → List Bytes
  | _, [] => []
  | iv, b :: r => xorB iv (c.dec b) :: cbcDecL c b r

/-- CBC decryption of whole blocks. -/
def cbcDec (c : BlockCipher) (iv b : Bytes) : Bytes := (cbcDecL c iv (chunks c.n b)).flatten

/-- The chaining value after CBC encryption of a list of blocks from `iv`. -/
def cbcMacL (c : BlockCipher) (iv : Bytes) (bs : List Bytes) : Bytes := bs.foldl (fun a b => c.enc (xorB a b)) iv

/-- Counter block `i` of R267: only the rightmost 8 bytes count, modulo 2^64. -/
def ctrBlock (cb : Bytes) (i : Nat) : Bytes := cb.take 8 ++ beBytes 8 ((beAt cb 8 8 + i) % 2 ^ 64)

/-- CTR over a string (08 R267). -/
def ctrXor (c : BlockCipher) (cb b : Bytes) : Bytes :=
  ((chunks 16 b).zipIdx.map (fun p => xorB p.1 (c.enc (ctrBlock cb p.2)))).flatten

/-! ## Padding (08 R265) -/

/-- ISO/IEC 9797-1 method 1: zeros up to a block; nothing if full. -/
def padM1 (n : Nat) (b : Bytes) : Bytes := b ++ zeros ((n - b.length % n) % n)

/-- ISO/IEC 9797-1 method 2: 0x80, then zeros up to a block. -/
def padM2 (n : Nat) (b : Bytes) : Bytes := padM1 n (b ++ [0x80])

/-- PKCS #7. -/
def padP7 (n : Nat) (b : Bytes) : Bytes :=
  let v := n - b.length % n
  b ++ List.replicate v (BitVec.ofNat 8 v)

/-- The length of method 2 padding in the last block, 0 when malformed (08 R266). -/
def unpadM2 (last : Bytes) : Nat :=
  match (last.reverse.dropWhile (· == 0)) with
  | 0x80 :: r => last.length - r.length
  | _ => 0

/-- The length of PKCS #7 padding in the last block, 0 when malformed (08 R266). -/
def unpadP7 (last : Bytes) : Nat :=
  let v := (last.getLastD 0).toNat
  if 1 ≤ v ∧ v ≤ last.length ∧ (last.drop (last.length - v)).all (fun x => x.toNat == v) then v else 0

/-! ## MACs -/

/-- Doubling in GF(2^(8n)) for CMAC subkeys. -/
def dbl (n : Nat) (b : Bytes) : Bytes :=
  let v := beVal b
  let w := 2 * v % 2 ^ (8 * n)
  let r := if n = 16 then 0x87 else 0x1B
  beBytes n (if bitOf v (8 * n - 1) then Nat.xor w r else w)

/-- CMAC with a full-block tag (SP 800-38B). -/
def cmac (c : BlockCipher) (b : Bytes) : Bytes :=
  let k1 := dbl c.n (c.enc (zeros c.n))
  let k2 := dbl c.n k1
  let bs := chunks c.n b
  let last := bs.getLastD []
  let fin := if last.length = c.n then xorB last k1 else xorB (fit c.n (last ++ [0x80])) k2
  cbcMacL c (zeros c.n) (bs.dropLast ++ [fin])

/-- ISO/IEC 9797-1 algorithm 1 over whole blocks. -/
def macAlg1 (c : BlockCipher) (b : Bytes) : Bytes := cbcMacL c (zeros c.n) (chunks c.n b)

/-- ISO/IEC 9797-1 algorithm 3 over whole blocks: single DES chaining under the first key part, TDES last; a
three-key TDES key gives the third part (05 R155). -/
def macAlg3 (key b : Bytes) : Bytes :=
  let k1 := key.take 8
  let k2 := sub key 8 8
  desEnc (tdesPart key 2) (desDec k2 (cbcMacL { n := 8, enc := desEnc k1, dec := desDec k1 } (zeros 8) (chunks 8 b)))

/-! ## Derivation (08 R262) -/

/-- SP 800-108 counter mode with CMAC: the leftmost `bits` bits. -/
def kdf108 (c : BlockCipher) (label ctx : Bytes) (bits : Nat) : Bytes :=
  (((List.range (ceilDiv bits (8 * c.n))).map
    (fun i => cmac c (beBytes 4 (i + 1) ++ label ++ [0] ++ ctx ++ beBytes 4 bits))).flatten).take (bits / 8)

/-! ## KW and KWP (SP 800-38F) -/

/-- One wrapping round over the semiblocks: `t` is the step counter. -/
def kwStep (c : BlockCipher) : Nat → Bytes → List Bytes → Nat × Bytes × List Bytes
  | t, a, [] => (t, a, [])
  | t, a, r :: rs =>
    let x := c.enc (a ++ r)
    let a' := xorB (x.take 8) (beBytes 8 t)
    let (t2, a2, out) := kwStep c (t + 1) a' rs
    (t2, a2, x.drop 8 :: out)

/-- `k` wrapping rounds. -/
def kwRounds (c : BlockCipher) : Nat → Nat → Bytes → List Bytes → Bytes
  | 0, _, a, rs => a ++ rs.flatten
  | k + 1, t, a, rs =>
    let (t2, a2, out) := kwStep c t a rs
    kwRounds c k t2 a2 out

/-- One unwrapping round over the semiblocks, last first. -/
def kwStepInv (c : BlockCipher) : Nat → Bytes → List Bytes → Nat × Bytes × List Bytes
  | t, a, [] => (t, a, [])
  | t, a, r :: rs =>
    let x := c.dec (xorB a (beBytes 8 t) ++ r)
    let (t2, a2, out) := kwStepInv c (t - 1) (x.take 8) rs
    (t2, a2, x.drop 8 :: out)

/-- `k` unwrapping rounds over the semiblocks, last first. -/
def kwRoundsInv (c : BlockCipher) : Nat → Nat → Bytes → List Bytes → Bytes × List Bytes
  | 0, _, a, rs => (a, rs)
  | k + 1, t, a, rs =>
    let (t2, a2, out) := kwStepInv c t a rs
    kwRoundsInv c k t2 a2 out

/-- The initial value of KW. -/
def kwIv : Bytes := List.replicate 8 0xA6

/-- KW wrapping of whole semiblocks. -/
def kwWrap (c : BlockCipher) (p : Bytes) : Bytes := kwRounds c 6 1 kwIv (chunks 8 p)

/-- The inverse of the six wrapping rounds. -/
def kwOpen (c : BlockCipher) (w : Bytes) : Bytes × Bytes :=
  let n := w.length / 8 - 1
  let (a, rs) := kwRoundsInv c 6 (6 * n) (w.take 8) (chunks 8 (w.drop 8)).reverse
  (a, rs.reverse.flatten)

/-- KW unwrapping; none where the integrity check fails. -/
def kwUnwrap (c : BlockCipher) (w : Bytes) : Option Bytes :=
  let (a, p) := kwOpen c w
  if a = kwIv then some p else none

/-- KWP wrapping. -/
def kwpWrap (c : BlockCipher) (p : Bytes) : Bytes :=
  let aiv := [0xA6, 0x59, 0x59, 0xA6] ++ beBytes 4 p.length
  let q := padM1 8 p
  if q.length = 8 then c.enc (aiv ++ q) else kwRounds c 6 1 aiv (chunks 8 q)

/-- KWP unwrapping; none where the integrity check fails. -/
def kwpUnwrap (c : BlockCipher) (w : Bytes) : Option Bytes :=
  let (a, p) := if w.length = 16 then ((c.dec w).take 8, (c.dec w).drop 8) else kwOpen c w
  let n := beAt a 4 4
  if a.take 4 = [0xA6, 0x59, 0x59, 0xA6] ∧ n ≤ p.length ∧ p.length < n + 8 ∧ allZero (p.drop n) then some (p.take n) else none

/-! ## GCM and CCM -/

/-- Multiplication in the field of GHASH, by the bits of `y` from the most significant one; `fuel` bits are left. -/
def ghMulAux (y : Nat) : Nat → Nat → Nat → Nat
  | 0, _, z => z
  | i + 1, v, z =>
    let z' := if bitOf y i then Nat.xor z v else z
    let v' := if v % 2 = 1 then Nat.xor (v / 2) (0xE1 * 2 ^ 120) else v / 2
    ghMulAux y i v' z'

/-- Multiplication in the field of GHASH. -/
def ghMul (x y : Nat) : Nat := ghMulAux y 128 x 0

/-- GHASH over whole blocks. -/
def ghash (h : Nat) (b : Bytes) : Nat := (chunks 16 b).foldl (fun a x => ghMul (Nat.xor a (beVal x)) h) 0

/-- Counter block `i` of GCM: the rightmost 32 bits count. -/
def gcmBlock (iv : Bytes) (i : Nat) : Bytes := iv ++ beBytes 4 (i % 2 ^ 32)

/-- CTR of GCM from block 2 on. -/
def gcmCtr (c : BlockCipher) (iv b : Bytes) : Bytes :=
  ((chunks 16 b).zipIdx.map (fun p => xorB p.1 (c.enc (gcmBlock iv (p.2 + 2))))).flatten

/-- The 16-byte tag of GCM over additional data and ciphertext. -/
def gcmTag (c : BlockCipher) (iv aad ct : Bytes) : Bytes :=
  let h := beVal (c.enc (zeros 16))
  let s := ghash h (padM1 16 aad ++ padM1 16 ct ++ beBytes 8 (8 * aad.length) ++ beBytes 8 (8 * ct.length))
  xorB (beBytes 16 s) (c.enc (gcmBlock iv 1))

/-- GCM encryption: ciphertext and tag. -/
def gcmEnc (c : BlockCipher) (iv aad p : Bytes) : Bytes × Bytes :=
  let ct := gcmCtr c iv p
  (ct, gcmTag c iv aad ct)

/-- The length encoding of CCM's additional data (08 R265). -/
def ccmAad (a : Bytes) : Bytes :=
  if a.isEmpty then []
  else padM1 16 ((if a.length < 0xFF00 then beBytes 2 a.length else [0xFF, 0xFE] ++ beBytes 4 a.length) ++ a)

/-- CCM's tag before encryption: an 11-byte nonce, 4 bytes of length (08 R267). -/
def ccmMac (c : BlockCipher) (nonce aad p : Bytes) (tag : Nat) : Bytes :=
  let b0 := BitVec.ofNat 8 ((if aad.isEmpty then 0 else 64) + 8 * ((tag - 2) / 2) + 3) :: (nonce ++ beBytes 4 p.length)
  cbcMacL c (zeros 16) (chunks 16 (b0 ++ ccmAad aad ++ padM1 16 p))

/-- Counter block `i` of CCM. -/
def ccmBlock (nonce : Bytes) (i : Nat) : Bytes := (3 : Byte) :: (nonce ++ beBytes 4 i)

/-- CTR of CCM from block 1 on. -/
def ccmCtr (c : BlockCipher) (nonce b : Bytes) : Bytes :=
  ((chunks 16 b).zipIdx.map (fun p => xorB p.1 (c.enc (ccmBlock nonce (p.2 + 1))))).flatten

/-- CCM's tag over the clear text. -/
def ccmTag (c : BlockCipher) (nonce aad p : Bytes) (tag : Nat) : Bytes :=
  (xorB (ccmMac c nonce aad p tag) (c.enc (ccmBlock nonce 0))).take tag

/-! ## XTS over whole blocks (IEEE 1619) -/

/-- The next tweak: multiplication by α, little-endian. -/
def xtsNext (t : Bytes) : Bytes :=
  let v := leVal t
  let w := 2 * v % 2 ^ 128
  leBytes 16 (if bitOf v 127 then Nat.xor w 0x87 else w)

/-- XTS over a list of blocks with a block function. -/
def xtsL (f : Bytes → Bytes) : Bytes → List Bytes → List Bytes
  | _, [] => []
  | t, b :: r => xorB (f (xorB b t)) t :: xtsL f (xtsNext t) r

/-- XTS encryption of whole blocks: data key, tweak key, tweak value. -/
def xtsEnc (k1 k2 tweak b : Bytes) : Bytes := (xtsL (aesEnc k1) (aesEnc k2 tweak) (chunks 16 b)).flatten

/-- XTS decryption of whole blocks. -/
def xtsDec (k1 k2 tweak b : Bytes) : Bytes := (xtsL (aesDec k1) (aesEnc k2 tweak) (chunks 16 b)).flatten

/-! ## FF1 (SP 800-38G) -/

/-- The value of a numeral string, most significant first. -/
def numVal (radix : Nat) (x : List Nat) : Nat := x.foldl (fun a d => a * radix + d) 0

/-- `m` numerals of a value, least significant first. -/
def numStrLe (radix : Nat) : Nat → Nat → List Nat
  | 0, _ => []
  | m + 1, v => v % radix :: numStrLe radix m (v / radix)

/-- `m` numerals of a value, most significant first. -/
def numStr (radix m v : Nat) : List Nat := (numStrLe radix m v).reverse

/-- The least number of bytes that holds all values below `v`. -/
def bytesFor (v : Nat) : Nat := ceilDiv (Nat.log2 (v - 1) + 1) 8

/-- The round value y of FF1. -/
def ff1Y (c : BlockCipher) (radix : Nat) (tweak : Bytes) (n u v i : Nat) (bVal : Nat) : Nat :=
  let b := bytesFor (radix ^ v)
  let d := 4 * ceilDiv b 4 + 4
  let p := [(1 : Byte), 2, 1] ++ beBytes 3 radix ++ [10, BitVec.ofNat 8 u] ++ beBytes 4 n ++ beBytes 4 tweak.length
  let q := tweak ++ zeros ((16 - (tweak.length + b + 1) % 16) % 16) ++ [BitVec.ofNat 8 i] ++ beBytes b bVal
  let r := cbcMacL c (zeros 16) (chunks 16 (p ++ q))
  let s := r ++ ((List.range (ceilDiv d 16 - 1)).flatMap (fun j => c.enc (xorB r (beBytes 16 (j + 1)))))
  beVal (s.take d)

/-- The ten FF1 rounds of encryption, from round `i`, with the rounds left. -/
def ff1Rounds (c : BlockCipher) (radix : Nat) (tweak : Bytes) (n u v : Nat) : Nat → Nat → List Nat → List Nat → List Nat
  | 0, _, a, b => a ++ b
  | k + 1, i, a, b =>
    let m := if i % 2 = 0 then u else v
    let y := ff1Y c radix tweak n u v i (numVal radix b)
    ff1Rounds c radix tweak n u v k (i + 1) b (numStr radix m ((numVal radix a + y) % radix ^ m))

/-- FF1 encryption of a numeral string. -/
def ff1Enc (c : BlockCipher) (radix : Nat) (tweak : Bytes) (x : List Nat) : List Nat :=
  let n := x.length
  let u := n / 2
  ff1Rounds c radix tweak n u (n - u) 10 0 (x.take u) (x.drop u)

/-- The ten FF1 rounds of decryption, with the rounds left. -/
def ff1RoundsInv (c : BlockCipher) (radix : Nat) (tweak : Bytes) (n u v : Nat) : Nat → List Nat → List Nat → List Nat
  | 0, a, b => a ++ b
  | k + 1, a, b =>
    let m := if k % 2 = 0 then u else v
    let y := ff1Y c radix tweak n u v k (numVal radix a)
    ff1RoundsInv c radix tweak n u v k (numStr radix m ((numVal radix b + radix ^ m - y % radix ^ m) % radix ^ m)) a

/-- FF1 decryption of a numeral string. -/
def ff1Dec (c : BlockCipher) (radix : Nat) (tweak : Bytes) (x : List Nat) : List Nat :=
  let n := x.length
  let u := n / 2
  ff1RoundsInv c radix tweak n u (n - u) 10 (x.take u) (x.drop u)

end Sys2Proof.Machine
end

