-- ==== Sys2Proof/Machine/Keep.lean ====
section
/-! DEFINITION. Key records, the roots that protect them, the Keep and the tower key caches (06 R172 to R194;
07 R216 to R226). -/

namespace Sys2Proof.Machine

/-! ## Roots (06 R174 to R177) -/

/-- The check value of an AES key, DMKs included: 3 bytes (06 R193). -/
def kcvAes (k : Bytes) : Bytes := (cmac (aesC k) (zeros 16)).take 3

/-- DMK_ID of a slot: the first two bytes of its check value (06 R177). -/
def dmkId (k : Bytes) : Bytes := (kcvAes k).take 2

/-- The DMK with a DMK_ID (06 R174). -/
def dmkById (s : State) (id : Bytes) : Option Bytes :=
  match s.dome.cur with
  | some k => if dmkId k = id then some k else s.dome.next.filter (fun k => dmkId k == id)
  | none => s.dome.next.filter (fun k => dmkId k == id)

/-- Partition 0's descriptor before anything is written to it. No ceremony creates partition 0: it is ACTIVE, gives out
indices from 4,096, above the descriptors, and has no limit of its own (DESIGN CHOICE, log 20). -/
def desc0 : Bytes :=
  [4, 1] ++ zeros 2 ++ [0xFF, 0xFF] ++ zeros 10 ++ leBytes 6 4096 ++ leBytes 6 (2 ^ 44 - 1) ++ zeros 228

/-- The partition descriptor as last written (06 R178). -/
def descOf (s : State) (p : Nat) : Bytes :=
  let d := tblGet (zeros 256) s.vault.descs p
  if p = 0 ∧ d = zeros 256 then desc0 else d

/-- Writes a partition descriptor's copy in the device. -/
def setDesc (s : State) (p : Nat) (d : Bytes) : State :=
  { s with vault := { s.vault with descs := tblSet (zeros 256) s.vault.descs p d } }

/-- PSTATE of a partition: 0 FREE, 1 ACTIVE, 2 MOVED (06 R178). -/
def pstate (s : State) (p : Nat) : Nat := byteAt (descOf s p) 1

/-- PVERSION. -/
def pversion (s : State) (p : Nat) : Nat := leAt (descOf s p) 2 2

/-- ALLOC_NEXT. -/
def allocNext (s : State) (p : Nat) : Nat := leAt (descOf s p) 16 6

/-- REC_LIMIT. -/
def recLimit (s : State) (p : Nat) : Nat := leAt (descOf s p) 22 6

/-- BIND_DIGEST; 48 zero bytes for partition 0 (06 R174). -/
def bindDigest (s : State) (p : Nat) : Bytes := if p = 0 then zeros 48 else sub (descOf s p) 129 48

/-- The root slot of a lane is loaded over the Dome key path with the DMK of a slot (08 R261). -/
def LaneRegs.loadDmk (r : LaneRegs) (dmk : Bytes) : LaneRegs := { r with root := dmk, key := [], opaque_ := false }

/-- A derivation of a partition root in the lane, into its root slot (08 R261, R262). -/
def LaneRegs.derivePart (r : LaneRegs) (digest : Bytes) (p ver : Nat) : LaneRegs :=
  { r with root := kdf108 (aesC r.root) (ascii "PART") (beBytes 2 p ++ digest ++ beBytes 2 ver) 256 }

/-- A derivation of RWRP or RTAG from the root slot, into the key register: the key is opaque (08 R261, R262). -/
def LaneRegs.deriveOpaque (r : LaneRegs) (label : String) (p : Nat) : LaneRegs :=
  { r with key := kdf108 (aesC r.root) (ascii label) (beBytes 2 p) 256, opaque_ := true }

/-- What a figure may ask of a lane's key register (08 R261). -/
inductive LaneOp
  /-- KW or KWP wrap or unwrap. -/
  | wrap
  /-- CMAC. -/
  | cmac
  /-- GCM. -/
  | gcm
  /-- Any other mode. -/
  | other
  deriving DecidableEq, Repr

/-- The lane offers an operation: with an opaque key, only KW, KWP, CMAC and GCM (08 R261). -/
def LaneRegs.offers (r : LaneRegs) (o : LaneOp) : Bool := !r.opaque_ || o != .other

/-- A derivation from the key register into the key register (08 R262). -/
def LaneRegs.deriveKey (r : LaneRegs) (label : String) (ctx : Bytes) (bits : Nat) : LaneRegs :=
  { r with key := kdf108 (aesC r.key) (ascii label) ctx bits }

/-- KW or KWP of record material in a lane (08 R261, R263). -/
def LaneRegs.wrap (r : LaneRegs) (kwp : Bool) (m : Bytes) : Bytes :=
  if r.offers .wrap then (if kwp then kwpWrap (aesC r.key) m else kwWrap (aesC r.key) m) else []

/-- CMAC in a lane, whose result is a tag (08 R261, R263). -/
def LaneRegs.tag (r : LaneRegs) (b : Bytes) : Bytes := if r.offers .cmac then cmac (aesC r.key) b else []

/-- What the save area takes of a lane's registers: neither the root slot nor an opaque key leaves the lane (08 R261, R269). -/
def LaneRegs.toSave (r : LaneRegs) : LaneRegs := { r with root := [], key := if r.opaque_ then [] else r.key }

/-- The lane with an opaque key. -/
def opaqueLane (key : Bytes) : LaneRegs := { key := key, opaque_ := true }

/-- A partition root under a DMK, as a lane derives it (06 R174). -/
def partRoot (dmk digest : Bytes) (p ver : Nat) : Bytes := ((({} : LaneRegs).loadDmk dmk).derivePart digest p ver).root

/-- RWRP or RTAG of a partition, as a lane derives it from its root slot (06 R175). -/
def recKey (label : String) (root : Bytes) (p : Nat) : Bytes := (({ root := root } : LaneRegs).deriveOpaque label p).key

/-! ## Records (06 R187 to R189) -/

/-- Bytes of a record of `l` lines. -/
def recBytes (l : Nat) : Nat := 64 * l

/-- The header of a record (06 R187). -/
def encodeHead (k : KeyRec) : Bytes :=
  [BitVec.ofNat 8 k.format, BitVec.ofNat 8 k.alg] ++ beBytes 2 k.usage ++ [BitVec.ofNat 8 k.mode, BitVec.ofNat 8 k.exportC,
    BitVec.ofNat 8 k.flags, BitVec.ofNat 8 k.check] ++ beBytes 2 k.version ++ [BitVec.ofNat 8 k.lines, BitVec.ofNat 8 k.rotState]
    ++ leBytes 6 k.notBefore ++ leBytes 6 k.notAfter ++ fit 3 k.kcv ++ leBytes 5 k.aead ++ leBytes 6 k.rotateAt
    ++ leBytes 6 k.successor ++ fit 2 k.dmkId ++ leBytes 2 k.keylen ++ fit 16 k.ext

/-- A record in clear, TAG zero: the form the Keep holds. -/
def encodeRec (k : KeyRec) : Bytes := fit (recBytes k.lines) (encodeHead k ++ k.material)

/-- The fields of a record in clear. -/
def decodeRec (b : Bytes) : KeyRec :=
  { format := byteAt b 0, alg := byteAt b 1, usage := beAt b 2 2, mode := byteAt b 4, exportC := byteAt b 5,
    flags := byteAt b 6, check := byteAt b 7, version := beAt b 8 2, lines := byteAt b 10, rotState := byteAt b 11,
    notBefore := leAt b 12 6, notAfter := leAt b 18 6, kcv := sub b 24 3, aead := leAt b 27 5, rotateAt := leAt b 32 6,
    successor := leAt b 38 6, dmkId := sub b 44 2, keylen := leAt b 46 2, ext := sub b 48 16,
    material := sub b 64 (leAt b 46 2) }

/-- The material as a record stores it: KW for a multiple of 8 bytes, KWP otherwise; a symmetric key is first padded
with zeros to 32 bytes (06 R175, R187). -/
def wrapMaterial (rwrp : Bytes) (k : KeyRec) : Bytes :=
  if k.format = 2 then k.material
  else if k.format = 1 then (opaqueLane rwrp).wrap false (fit 32 k.material)
  else (opaqueLane rwrp).wrap (k.material.length % 8 != 0) k.material

/-- TAG over a record at an index of a partition (06 R189; byte order DEDUCED, log 6). -/
def recTag (rtag : Bytes) (p idx : Nat) (body : Bytes) : Bytes := (opaqueLane rtag).tag (leBytes 6 idx ++ leBytes 2 p ++ body)

/-- A body of `n` bytes with its TAG in the last 16. -/
def withTag (rtag : Bytes) (p idx n : Nat) (body : Bytes) : Bytes :=
  let b := fit (n - 16) body
  b ++ recTag rtag p idx b

/-- A record as the vault stores it, under a partition root (06 R187, R189). -/
def storeRec (root : Bytes) (p idx : Nat) (k : KeyRec) : Bytes :=
  withTag (recKey "RTAG" root p) p idx (recBytes k.lines) (encodeHead k ++ wrapMaterial (recKey "RWRP" root p) k)

/-- TAG of a stored record verifies (06 R189). -/
def tagOk (rtag : Bytes) (p idx : Nat) (b : Bytes) : Bool :=
  decide (16 ≤ b.length) && b.drop (b.length - 16) == recTag rtag p idx (b.take (b.length - 16))

/-- The clear record in a stored one whose TAG verifies; none where the unwrapping or a field fails (06 R187, R189). -/
def openRec (root : Bytes) (p idx : Nat) (b : Bytes) : Option KeyRec :=
  let k := decodeRec b
  if !tagOk (recKey "RTAG" root p) p idx b then none
  else if k.format = 2 then some k
  else
    let c := aesC (recKey "RWRP" root p)
    let n := if k.format = 1 then 40 else if k.keylen % 8 = 0 then k.keylen + 8 else 8 * ceilDiv k.keylen 8 + 8
    let w := sub b 64 n
    let m := if k.format = 1 ∨ k.keylen % 8 = 0 then kwUnwrap c w else kwpUnwrap c w
    m.map (fun x => { k with material := x.take k.keylen })

/-! ## Rooms, pools and lines (07 R217 to R226) -/

/-- The number of a Keep line in the table of lines. -/
def keepKey (p cls idx : Nat) : Nat := (4 * p + cls) * 2 ^ 44 + idx

/-- The partition of a Keep line. -/
def keyPart (k : Nat) : Nat := k / 2 ^ 46

/-- The class of a Keep line. -/
def keyCls (k : Nat) : Nat := k / 2 ^ 44 % 4

/-- The record index of a Keep line. -/
def keyIdx (k : Nat) : Nat := k % 2 ^ 44

/-- The rooms of a partition (07 R217). -/
def roomsOf (s : State) (p : Nat) : List Nat :=
  (s.keep.liveRooms.filter (fun e => e.2 == some p)).map (·.1)

/-- The sets of a partition's pool: 64 for each room (07 R218). -/
def poolSets (s : State) (p : Nat) : Nat := 64 * (roomsOf s p).length

/-- The set of a line (07 R218). -/
def setOf (s : State) (p cls idx : Nat) : Nat := Config.keepHash s.keep.hashKey cls idx % poolSets s p

/-- Indices of a volatile class: 0 to 512·n − 1 (07 R219). -/
def volLimit (s : State) (p : Nat) : Nat := 512 * (roomsOf s p).length

/-- A line of the Keep. -/
def keepLine (s : State) (p cls idx : Nat) : Option KeepLine :=
  (s.keep.lines.find? (fun e => e.1 == keepKey p cls idx)).map (·.2)

/-- Ways of a set: 16, less one for each disabled row of its room; row `r` is a way of the 64 sets of room `r / 16`
(15 R434; DEDUCED, log 33). -/
def setWays (s : State) (p st : Nat) : Nat :=
  16 - (s.sup.rowsDisabled.filter (fun r => (roomsOf s p)[st / 64]? == some (r / 16))).length

/-- The lines of a set. -/
def setLines (s : State) (p st : Nat) : Tbl KeepLine :=
  s.keep.lines.filter (fun e => keyPart e.1 == p && setOf s p (keyCls e.1) (keyIdx e.1) == st)

/-- The ways of a set that no disabled row has taken: row `r` is way `r mod 16` of the 64 sets of room `r / 16` (15 R434; DEDUCED, log
33). -/
def waysOf (s : State) (p st : Nat) : List Nat :=
  (List.range 16).filter (fun w => !s.sup.rowsDisabled.any (fun r => (roomsOf s p)[st / 64]? == some (r / 16) && r % 16 == w))

/-- The way that a line new to a set takes: the lowest that is free. -/
def freeWay (s : State) (p st : Nat) : Nat :=
  ((waysOf s p st).find? (fun w => !(setLines s p st).any (fun e => e.2.way == w))).getD 0

/-- The lines of the Keep that a row holds (15 R434). -/
def rowLines (s : State) (row : Nat) : Tbl KeepLine :=
  match (tblGet none s.keep.liveRooms (row / 16) : Option Nat) with
  | none => []
  | some p => s.keep.lines.filter (fun e => keyPart e.1 == p && e.2.way == row % 16 &&
      (roomsOf s p)[setOf s p (keyCls e.1) (keyIdx e.1) / 64]? == some (row / 16))

/-- The lines of a set that a fill may replace (07 R218, R226): CLEAN. -/
def evictable (s : State) (p st : Nat) : Tbl KeepLine := (setLines s p st).filter (fun e => e.2.st == .clean)

/-- Writes the Keep's line table. -/
def State.setLinesTbl (s : State) (l : Tbl KeepLine) : State := { s with keep := { s.keep with lines := l } }

/-- Puts a line into the Keep with its use order, replacing nothing. `first` is the first index of its record. -/
def putLine (s : State) (p cls idx : Nat) (d : Bytes) (st : LineState) (first : Option Nat) : State :=
  { s with keep := { s.keep with
      lines := tblInsert s.keep.lines (keepKey p cls idx) {
        data := d, st := st, used := s.keep.clock, first := first
        way := ((keepLine s p cls idx).map (·.way)).getD (freeWay s p (setOf s p cls idx)) }
      clock := s.keep.clock + 1 } }

/-- Installs a line: over its own earlier copy, into a free way, or over the least recently used way that may be
replaced. None where the set has no such way (07 R218). -/
def installLine (s : State) (p cls idx : Nat) (d : Bytes) (st : LineState) (first : Option Nat) : Option State :=
  if (keepLine s p cls idx).isSome then some (putLine s p cls idx d st first)
  else if poolSets s p = 0 then none
  else
    let q := setOf s p cls idx
    if (setLines s p q).length < setWays s p q then some (putLine s p cls idx d st first)
    else match bestBy' (evictable s p q) with
      | none => none
      | some k => some (putLine (s.setLinesTbl (tblErase s.keep.lines k)) p cls idx d st first)
where
  /-- The number of the least recently used line. -/
  bestBy' : Tbl KeepLine → Option Nat
    | [] => none
    | e :: r => match bestBy' r with
      | none => some e.1
      | some k => if e.2.used ≤ ((r.find? (fun x => x.1 == k)).map (·.2.used)).getD 0 then some e.1 else some k

/-- A line for the Keep: partition, index, first index of its record, and its bytes in clear. -/
abbrev KeepCopy := Nat × Nat × Option Nat × Bytes

/-- The lines of a record, or of a partition descriptor, for the Keep. -/
def copiesOf (p idx : Nat) (b : Bytes) : List KeepCopy := (chunks 64 b).zipIdx.map (fun e => (p, idx + e.2, some idx, e.1))

/-- Lines for the Keep that no record holds. -/
def rawCopies (l : List (Nat × Nat × Bytes)) : List KeepCopy := l.map (fun x => (x.1, x.2.1, none, x.2.2))

/-- Installs lines of a class, one after another; none where one of them finds no way. A partition without rooms has no Keep lines
(07 R220): of it nothing is installed. -/
def installLines (cls : Nat) (st : LineState) : State → List KeepCopy → Option State
  | s, [] => some s
  | s, x :: r =>
    if poolSets s x.1 = 0 then installLines cls st s r
    else match installLine s x.1 cls x.2.1 x.2.2.2 st x.2.2.1 with
      | none => none
      | some s1 => installLines cls st s1 r

/-- The two CMAC subkeys of a cipher (05 R156). -/
def cmacSubkeys (c : BlockCipher) : Bytes :=
  let k1 := dbl c.n (c.enc (zeros c.n))
  k1 ++ dbl c.n k1

/-- The HMAC states of key material, each after its key block (05 R156): inner and outer, by hash. -/
def hmacStates (key : Bytes) : List Bytes :=
  let blk := fun (n : Nat) (x : Byte) => (fit n key).map (· ^^^ x)
  let st := fun (t : ShaKind) (iv : List Nat) (x : Byte) => (shaCompress t iv (blk (2 * t.w) x)).flatMap (beBytes (t.w / 8))
  let sp := fun (x : Byte) => (keccakF (keccakAdd 136 (List.replicate 25 0) (blk 136 x))).flatMap (leBytes 8)
  [st sha256K shaH256 0x36, st sha256K shaH256 0x5C, st sha512K shaH384 0x36, st sha512K shaH384 0x5C,
    st sha512K shaH512 0x36, st sha512K shaH512 0x5C, sp 0x36, sp 0x5C]

/-- The CMAC subkeys that a key carries: those of an M6 key (05 R156). -/
def keySub (k : KeyRec) : Bytes :=
  if k.usage = beVal (ascii "M6") then cmacSubkeys (if k.alg = 1 ∨ k.alg = 2 then tdesC k.material else aesC k.material) else []

/-- The GCM hash subkey that a key carries: that of an AES key of usage D0 (05 R162). -/
def keyHsub (k : KeyRec) : Bytes :=
  if k.usage = beVal (ascii "D0") ∧ 3 ≤ k.alg ∧ k.alg ≤ 5 then aesEnc k.material (zeros 16) else []

/-- The HMAC states that a key carries: those of an M7 key (05 R156). -/
def keyHmac (k : KeyRec) : List Bytes := if k.usage = beVal (ascii "M7") then hmacStates k.material else []

/-- The first line of a record carries what its key carries (05 R156, R162). -/
def carryKey (cls : Nat) (l : List KeepCopy) (s : State) (x : KeepCopy) : State :=
  if x.2.2.1 ≠ some x.2.1 then s
  else
    let k := decodeRec ((l.filter (fun y => y.1 == x.1 && y.2.2.1 == some x.2.1)).flatMap (·.2.2.2))
    if k.format ≠ 1 then s
    else s.setLinesTbl (s.keep.lines.map (fun e =>
      if e.1 = keepKey x.1 cls x.2.1 then (e.1, { e.2 with sub := keySub k, hsub := keyHsub k, hmac := keyHmac k }) else e))

/-- Installs lines of a class with what the keys in them carry; none where one of them finds no way. -/
def installAll (cls : Nat) (st : LineState) (s : State) (l : List KeepCopy) : Option State :=
  (installLines cls st s l).map (fun a => l.foldl (carryKey cls l) a)

/-- Each of these Keep lines would find a way (07 R218). -/
def waysFor (s : State) (ks : List Nat) : Bool :=
  (ks.foldl (fun (a : Option State) k => a.bind (fun b =>
    if poolSets b (keyPart k) = 0 then some b else installLine b (keyPart k) (keyCls k) (keyIdx k) [] .writing none)) (some s)).isSome

/-- Where a line of the Keep lies in the internal space: in the room of its set, at 1 KiB for each set of 16 ways. Its way in the set is not
told apart (13 R375; 07 R218; the order within a room is a DESIGN CHOICE, log 87). -/
def keepAddr (s : State) (p cls idx : Nat) : Nat :=
  let q := setOf s p cls idx
  0x10000000 + 0x10000 * (roomsOf s p).getD (q / 64) 0 + 0x400 * (q % 64)

/-- Accesses of the vault engine, initiator 3, to class 1 lines of the Keep (13 R373). -/
def engineKeep (s : State) (write : Bool) (ks : List (Nat × Nat)) : State × Bool :=
  ks.foldl (fun a k => if !a.2 || poolSets a.1 k.1 = 0 then a else intCheck a.1 3 write 0 (keepAddr a.1 k.1 1 k.2)) (s, true)

/-- Pinned ways in a set (07 R219). -/
def pinnedIn (s : State) (p st : Nat) : Nat := ((setLines s p st).filter (fun e => e.2.st == .pinned)).length

/-- Removes the lines that satisfy a test. -/
def dropLines (s : State) (f : Nat → KeepLine → Bool) : State :=
  s.setLinesTbl (s.keep.lines.filter (fun e => !f e.1 e.2))

/-- A run of `n` lines of the Keep: their bytes, where all of them are present. -/
def keepRun (s : State) (p cls idx n : Nat) : Option Bytes :=
  (List.range n).foldl (fun a i => match a, keepLine s p cls (idx + i) with
    | some b, some l => some (b ++ l.data)
    | _, _ => none) (some [])

/-- Some line of a run is in WRITING (07 R226). -/
def runWriting (s : State) (p cls idx n : Nat) : Bool :=
  (List.range n).any (fun i => ((keepLine s p cls (idx + i)).map (fun l => l.st == .writing)).getD false)

/-- The record that begins at an index of the Keep, where it is present whole. An empty line is a record of FORMAT 0x00; any other line
that begins no record is none (06 R185). -/
def keepRec (s : State) (p cls idx : Nat) : Option KeyRec :=
  match keepLine s p cls idx with
  | none => none
  | some l =>
    let n := byteAt l.data 10
    if byteAt l.data 0 = 0 then some (decodeRec l.data)
    else if l.first ≠ some idx then none
    else (keepRun s p cls idx n).map decodeRec

/-- Marks the lines of a run as used last (07 R218). -/
def touchRun (s : State) (p cls idx n : Nat) : State :=
  (List.range n).foldl (fun a i => match keepLine a p cls (idx + i) with
    | some l => putLine a p cls (idx + i) l.data l.st l.first
    | none => a) s

/-! ## Tower key caches (07 R216, R217, R222) -/

/-- The cache entries of a partition (07 R217). -/
def tcEntries (s : State) (p : Nat) : List Nat :=
  (s.keep.liveTc.filter (fun e => e.2 == some p)).map (·.1)

/-- A key in a tower's key cache. -/
def tcLookup (s : State) (t p cls idx : Nat) : Option KeyRec :=
  ((s.tower t).cache.find? (fun e => e.2.part == p && e.2.cls == cls && e.2.idx == idx)).map (·.2.key)

/-- The entry that a key of the partition takes: its own, an unused one, or the least recently used one. -/
def tcVictim (s : State) (t p cls idx : Nat) : Option Nat :=
  let c := (s.tower t).cache
  match c.find? (fun e => e.2.part == p && e.2.cls == cls && e.2.idx == idx) with
  | some e => some e.1
  | none =>
    let own := tcEntries s p
    match own.find? (fun i => !(c.any (fun e => e.1 == i))) with
    | some i => some i
    | none => own.foldl (fun a i => match a with
      | none => some i
      | some j => if (tblGet {} c i).used < (tblGet {} c j).used then some i else some j) none

/-- The token index key of a tokenization key (05 R164; 08 R262). -/
def indexKey (k : KeyRec) (p idx : Nat) : Bytes :=
  kdf108 (aesC k.material) (ascii "TIDX") (beBytes 2 p ++ beBytes 6 idx) 256

/-- The entry of a key in a tower key cache, with what is computed when it is installed (05 R156, R162, R164; 08 R262). -/
def cacheEnt (p cls idx : Nat) (k : KeyRec) (used : Nat) : CacheEnt :=
  let tok := bitOf k.flags 1
  let x := indexKey k p idx
  { part := p, cls := cls, idx := idx, key := k, used := used, tidx := if tok then x else []
    sub := if tok then cmacSubkeys (aesC x) else keySub k
    hsub := keyHsub k
    hmac := keyHmac k }

/-- Installs a key in a tower's key cache (01 R30). -/
def tcInstall (s : State) (t p cls idx : Nat) (k : KeyRec) : State :=
  match tcVictim s t p cls idx with
  | none => s
  | some i =>
    let w := s.tower t
    let s1 := s.setTower t { w with cache := tblInsert w.cache i (cacheEnt p cls idx k s.keep.clock) }
    { s1 with keep := { s1.keep with clock := s1.keep.clock + 1 } }

/-- The index key that a tower's key cache holds for a tokenization key; a key that has no entry there has it derived (08 R262). -/
def tcIndexKey (s : State) (t p idx : Nat) (k : KeyRec) : Bytes :=
  match (s.tower t).cache.find? (fun e => e.2.part == p && e.2.cls == 1 && e.2.idx == idx && !e.2.tidx.isEmpty) with
  | some e => e.2.tidx
  | none => indexKey k p idx

/-- Removes the tower-cache entries that satisfy a test, in every tower. -/
def tcDrop (s : State) (f : Nat → CacheEnt → Bool) : State :=
  { s with towers := s.towers.map (fun w => { w with cache := w.cache.filter (fun e => !f e.1 e.2) }) }

/-- Removes a key's entry from one tower's key cache. -/
def tcEvict (s : State) (t p cls idx : Nat) : State :=
  let w := s.tower t
  s.setTower t { w with cache := w.cache.filter (fun e => !(e.2.part == p && e.2.cls == cls && e.2.idx == idx)) }

/-- The calls whose key fetch is still running lose their copies of a key: they will find none (06 R200). -/
def loseKey (s : State) (p cls idx : Nat) : State :=
  allCtx.foldl (fun a x =>
    let y := a.ctx x.1 x.2
    if y.keysOk ∨ y.keys.isEmpty ∨ y.call.isNone then a
    else
      let hit := fun (i : Nat) =>
        let h := handleOf (workDesc a x.1 x.2) i
        hPart h == p && hCls h == cls && hIdx h == idx && (y.keys.getD i none).isSome
      a.setCtx x.1 x.2 { y with
        keys := y.keys.zipIdx.map (fun e => if hit e.2 then none else e.1)
        keyErr := y.keyErr.zipIdx.map (fun e => if hit e.2 then stKeyNotFound else e.1) }) s

/-- A key leaves the Keep (all its lines) and every tower key cache, and the calls that are still fetching their keys (06 R200). -/
def forgetKey (s : State) (p cls idx n : Nat) : State :=
  let s1 := dropLines s (fun k _ => keyPart k == p && keyCls k == cls && decide (idx ≤ keyIdx k) && decide (keyIdx k < idx + n))
  loseKey (tcDrop s1 (fun _ e => e.part == p && e.cls == cls && e.idx == idx)) p cls idx

/-- Everything of a partition leaves the Keep and the tower key caches. -/
def forgetPart (s : State) (p : Nat) : State :=
  tcDrop (dropLines s (fun k _ => keyPart k == p)) (fun _ e => e.part == p)

/-- The Keep and every tower key cache are invalidated; volatile records end (06 R214, R215). -/
def clearKeys (s : State) : State :=
  let s1 := tcDrop (s.setLinesTbl []) (fun _ _ => true)
  { s1 with keep := { s1.keep with cursors := [] } }

/-! ## Attributes (06 R190, R191) -/

/-- A two-character usage. -/
def usageOf (s : String) : Nat := beVal (ascii s)

/-- A one-character mode or exportability. -/
def chr (s : String) : Nat := beVal (ascii s)

/-- Algorithm groups of R190. -/
def isTdes (a : Nat) : Bool := a == 1 || a == 2

/-- AES of any length. -/
def isAes (a : Nat) : Bool := a == 3 || a == 4 || a == 5

/-- EC of any curve. -/
def isEc (a : Nat) : Bool := a == 0x10 || a == 0x11 || a == 0x12 || a == 0x13

/-- An ALG value that R191 marks reserved. -/
def algReserved (a : Nat) : Bool :=
  !(decide (1 ≤ a) && decide (a ≤ 6)) && !(decide (0x10 ≤ a) && decide (a ≤ 0x13)) && a != 0x18 &&
    !(decide (0x20 ≤ a) && decide (a ≤ 0x23))

/-- Usage, algorithm and mode form a row of R190. -/
def attrRow (u a m : Nat) : Bool :=
  let tdesAes := isTdes a || isAes a
  let x := m == chr "X"
  let bde := m == chr "B" || m == chr "D" || m == chr "E"
  let cgv := m == chr "C" || m == chr "G" || m == chr "V"
  if u = usageOf "B0" ∨ u = usageOf "B1" ∨ u = usageOf "E0" ∨ u = usageOf "E2" then tdesAes && x
  else if u = usageOf "C0" ∨ u = usageOf "M3" ∨ u = usageOf "V1" ∨ u = usageOf "V2" then isTdes a && cgv
  else if u = usageOf "D0" ∨ u = usageOf "K1" ∨ u = usageOf "P0" then tdesAes && bde
  else if u = usageOf "K0" then isAes a && x
  else if u = usageOf "M1" ∨ u = usageOf "M6" then tdesAes && cgv
  else if u = usageOf "M7" then a == 6 && cgv
  else if u = usageOf "S0" then (a == 0x18 || isEc a || a == 0x22 || a == 0x23) && (m == chr "S" || m == chr "V")
  else if u = usageOf "D1" then a == 0x18 && (m == chr "D" || m == chr "E")
  else if u = usageOf "K3" then (isEc a || a == 0x20 || a == 0x21) && m == chr "N"
  else false

/-- Strength rank of a symmetric algorithm (06 R191): an HMAC key ranks as AES-256. -/
def strength (a : Nat) : Nat := if a = 6 then 5 else a

/-- Bytes of a symmetric key (06 R191); HMAC keys carry their own length. -/
def algBytes (a : Nat) : Nat := if a = 1 then 16 else if a = 2 then 24 else if a = 3 then 16 else if a = 4 then 24 else 32

/-- The block cipher of a symmetric key. -/
def cipherOf (k : KeyRec) : BlockCipher := if isTdes k.alg then tdesC k.material else aesC k.material

/-- Lane cycles of one block operation under an algorithm (01 R34). -/
def laneTime (a : Nat) : Nat := if a = 3 then 6 else if a = 4 then 7 else if a = 5 then 8 else 13

/-- The check value of symmetric material (06 R193). -/
def kcvSym (alg : Nat) (m : Bytes) : Bytes :=
  if isTdes alg then (tdesEnc m (zeros 8)).take 3 else if isAes alg then kcvAes m else (sha256 m).take 3

/-- Cycles to compute a check value (06 R193). -/
def kcvCycles (alg : Nat) : Nat := if isTdes alg then 13 else if isAes alg then 2 * laneTime alg else 17

/-- The effective not-after of a key (06 R194). GRACE stands in EXT bytes 60 to 63, the last four of the field. -/
def effNotAfter (k : KeyRec) : Nat :=
  if k.rotState = 1 then min k.notAfter (k.rotateAt + leAt k.ext 12 4) else k.notAfter

/-- A key with bounds 0 and all ones needs no Reel time (06 R194). -/
def timeless (k : KeyRec) : Bool := k.notBefore == 0 && effNotAfter k == 2 ^ 48 - 1

/-- FLAGS meets R192. -/
def flagsOk (flags usage alg mode cls : Nat) : Bool :=
  decide (flags < 4) && (!bitOf flags 0 || usage == usageOf "P0") &&
    (!bitOf flags 1 || (cls == 1 && alg == 5 && usage == usageOf "D0" && mode == chr "B"))

/-- An alphanumeric ASCII character. -/
def alnum (c : Nat) : Bool :=
  (decide (48 ≤ c) && decide (c ≤ 57)) || (decide (65 ≤ c) && decide (c ≤ 90)) || (decide (97 ≤ c) && decide (c ≤ 122))

/-- VERSION meets R187. -/
def versionOk (v : Nat) : Bool := v == 0 || (alnum (v / 256) && alnum (v % 256))

end Sys2Proof.Machine
end

