-- ==== Sys2Proof/Machine/Vault.lean ====
section
/-! DEFINITION. The vault engine's operations: geometry, verified reads, batches and commits (07 R227 to R241).
Multi-byte fields whose order the chapter does not give are little-endian, as the Notation says (log 6, DEDUCED). -/

namespace Sys2Proof.Machine

/-! ## Geometry (07 R227, R228, R234) -/

/-- The COMMITTED slot (07 R239). -/
def committed (s : State) : RootSlot := if s.dome.sel then s.dome.slots.2 else s.dome.slots.1

/-- The PENDING slot. -/
def pendingSlot (s : State) : RootSlot := if s.dome.sel then s.dome.slots.1 else s.dome.slots.2

/-- Writes the COMMITTED slot. -/
def setCommitted (s : State) (r : RootSlot) : State :=
  { s with dome := { s.dome with slots := if s.dome.sel then (s.dome.slots.1, r) else (r, s.dome.slots.2) } }

/-- Writes the PENDING slot. -/
def setPendingSlot (s : State) (r : RootSlot) : State :=
  { s with dome := { s.dome with slots := if s.dome.sel then (r, s.dome.slots.2) else (s.dome.slots.1, r) } }

/-- Payload lines of a geometry (07 R228). -/
def geoP (p : Nat) : Nat := (p + 1) * 2 ^ 23

/-- Journal lines, seal lines included. -/
def geoJ (j : Nat) : Nat := 2 ^ (j + 24) / 64

/-- Nodes of tree level `k` (07 R228). -/
def treeN (p k : Nat) : Nat := ceilDiv (geoP p) (64 * 8 ^ k)

/-- First line of tree level `k`, from level 1. -/
def treeBase (p j k : Nat) : Nat :=
  (List.range (k - 1)).foldl (fun a i => a + treeN p (i + 1)) (geoJ j + geoP p + geoP p / 8 + geoP p / 64)

/-- VAULT_SPACE_NEEDED: bytes of window space (07 R228). -/
def spaceNeeded (p j : Nat) : Nat := 64 * treeBase p j 11

/-- Window-space line of payload line `l`. -/
def payW (r : RootSlot) (l : Nat) : Nat := geoJ r.j + l

/-- Window-space line of the MAC line of payload line `l`. -/
def macW (r : RootSlot) (l : Nat) : Nat := geoJ r.j + geoP r.p + l / 8

/-- Window-space line of a tree item: level 0 is the counter line. -/
def nodeW (r : RootSlot) (k idx : Nat) : Nat :=
  if k = 0 then geoJ r.j + geoP r.p + geoP r.p / 8 + idx else treeBase r.p r.j k + idx

/-- Payload line of record index `idx` of a partition (07 R229). -/
def payLine (s : State) (p idx : Nat) : Nat := tblGet 0 s.vault.pspan p * 2 ^ 23 + idx

/-- The bytes of the windows in all. -/
def windowBytes (s : State) : Nat := s.vault.wins.foldl (fun a w => a + w.2 * 2 ^ 21) 0

/-- The bus address of window-space line `w` (07 R227); none beyond the windows. -/
def windowAddr : List (Nat × Nat) → Nat → Option Nat
  | [], _ => none
  | (b, n) :: r, w => if w < n * 2 ^ 15 then some (b + 64 * w) else windowAddr r (w - n * 2 ^ 15)

/-- Checks window accesses, made for the MF, a page at a time (07 R227; 13 R380). -/
def windowCheck (s : State) (write : Bool) (ws : List Nat) : State × Bool :=
  ws.foldl (fun a w => if !a.2 then a else match windowAddr a.1.vault.wins w with
    | none => (a.1, false)
    | some x => hostCheck a.1 mfNum write x) (s, true)

/-- A transfer of the vault engine other than a fetch: checked, and put to ARB_DMA as one request (10 R308; log 96). -/
def windowMove (s : State) (write : Bool) (ws : List Nat) : State × Bool :=
  let (s1, ok) := windowCheck s write ws
  ({ s1 with hif := { s1.hif with vaultOuts := s1.hif.vaultOuts + (if ws.isEmpty then 0 else 1) } }, ok)

/-! ## Keys (07 R230) -/

/-- A vault key of a key set: none where no DMK has its DMK_ID. -/
def vaultKey (s : State) (id : Bytes) (k : KeySet) (label : String) : Option Bytes :=
  (dmkById s k.dmkId).map (fun d => kdf108 (aesC d) (ascii label) (id ++ beBytes 2 k.gen) 256)

/-- Key set 0 or 1 of a slot. -/
def RootSlot.keySet (r : RootSlot) (b : Bool) : KeySet := if b then r.set1.getD {} else r.set0

/-- The current key set of a slot. -/
def RootSlot.curSet (r : RootSlot) : KeySet := r.keySet r.cur

/-! ## Tags and lines (07 R231 to R233) -/

/-- The tag of a tree child: 63 bits, never 0, with the key set in bit 63 (07 R233). -/
def childTag (mac child : Bytes) (level idx : Nat) (set : Bool) : Nat :=
  let v := beVal ((cmac (aesC mac) (child ++ leBytes 1 level ++ leBytes 7 idx)).take 8) / 2
  (if v = 0 then 1 else v) + 2 ^ 63 * flag set

/-- MAJOR of a counter line. -/
def ctrMajor (b : Bytes) : Nat := fieldOf (leVal b) 0 56

/-- KSET of a counter line. -/
def ctrSet (b : Bytes) : Bool := bitOf (leVal b) 56

/-- MINOR(i) of a counter line. -/
def ctrMinor (b : Bytes) (i : Nat) : Nat := fieldOf (leVal b) (64 + 7 * i) 7

/-- A counter line from its fields (07 R231). -/
def mkCtr (major : Nat) (set : Bool) (minors : List Nat) : Bytes :=
  leBytes 64 (major % 2 ^ 56 + 2 ^ 56 * flag set
    + (minors.zipIdx.foldl (fun a p => a + (p.1 % 128) * 2 ^ (64 + 7 * p.2)) 0))

/-- The key stream of a payload line (07 R232). -/
def lineStream (enc : Bytes) (w major minor : Nat) : Bytes :=
  (List.range 4).flatMap (fun b => aesEnc enc (leBytes 5 w ++ leBytes 7 major ++ leBytes 1 minor ++ leBytes 1 b ++ [0, 0]))

/-- The MAC of a payload line (07 R232). -/
def lineMac (mac ct : Bytes) (w major minor : Nat) : Bytes :=
  (cmac (aesC mac) (ct ++ leBytes 5 w ++ leBytes 7 major ++ leBytes 1 minor)).take 8

/-- A reading of the window space. -/
abbrev View := Nat → Bytes

/-- The verified item of level `stop` on the path of counter line `c`, below a verified item of the level given; none where a tag fails
(07 R233, R235). -/
def walkDown (s : State) (r : RootSlot) (get : View) (c stop : Nat) : Nat → Bytes → Option Bytes
  | 0, node => some node
  | k + 1, parent =>
    let idx := c / 8 ^ k
    let tag := leAt parent (8 * (idx % 8)) 8
    if k + 1 ≤ stop then some parent
    else if tag = 0 then walkDown s r get c stop k (zeros 64)
    else
      let child := get (nodeW r k idx)
      match vaultKey s r.vaultId (r.keySet (bitOf tag 63)) "VMAC" with
      | none => none
      | some m => if childTag m child k idx (bitOf tag 63) = tag then walkDown s r get c stop k child else none

/-- The verified counter line of payload line `l`. -/
def readCtr (s : State) (r : RootSlot) (get : View) (l : Nat) : Option Bytes := walkDown s r get (l / 64) 0 11 r.root

/-- A payload line in clear, given its verified counter line (07 R231, R232, R235). -/
def openLine (s : State) (r : RootSlot) (get : View) (ctr : Bytes) (l : Nat) : Option Bytes :=
  let mi := ctrMinor ctr (l % 64)
  if mi = 0 then some (zeros 64)
  else
    let ks := r.keySet (ctrSet ctr)
    match vaultKey s r.vaultId ks "VENC", vaultKey s r.vaultId ks "VMAC" with
    | some e, some m =>
      let w := payW r l
      let ct := get w
      if sub (get (macW r l)) (8 * (l % 8)) 8 = lineMac m ct w (ctrMajor ctr) mi then
        some (xorB ct (lineStream e w (ctrMajor ctr) mi)) else none
    | _, _ => none

/-- A payload line, verified and in clear (07 R235). -/
def readLine (s : State) (r : RootSlot) (get : View) (l : Nat) : Option Bytes :=
  match readCtr s r get l with
  | none => none
  | some ctr => openLine s r get ctr l

/-! ## Changed lines (07 R236, R237) -/

/-- The vault as a batch has changed it: lines over what the memory holds, and the root node. -/
structure VaultImage where
  /-- Changed window-space lines. -/
  chg : Tbl Bytes
  /-- The slot with its root. -/
  slot : RootSlot
  /-- Pages re-enciphered whole. -/
  pages : List Nat := []

/-- What the engine sees of a window-space line: the durable batch, then verified metadata, then the memory (07 R223, R235). -/
def fillView (s : State) : View := fun w =>
  match (s.vault.batch.map (·.changed)).bind (fun l => l.find? (fun e => e.1 == w)) with
  | some e => e.2
  | none => match s.vault.meta_.find? (fun e => e.1 == w) with
    | some e => e.2.2
    | none => tblGet (zeros 64) s.vault.mem w

/-- The window space under the changes of an image, over what the engine sees. -/
def imageView (s : State) (m : VaultImage) : View := fun w =>
  match m.chg.find? (fun e => e.1 == w) with
  | some e => e.2
  | none => fillView s w

/-- Puts a changed line. -/
def VaultImage.put (m : VaultImage) (w : Nat) (b : Bytes) : VaultImage := { m with chg := tblInsert m.chg w b }

/-- The image that the next batch begins from: the durable batch's slot, else the COMMITTED slot (07 R239). -/
def baseImage (s : State) : VaultImage :=
  { chg := [], slot := match s.vault.batch with
    | some b => b.slot
    | none => committed s }

/-- Tags the path of counter line `c` anew, from level `k` up: `child` is the new content at that level. A node that its parent says has
never been written is all zeros, and is not read (07 R233). -/
def tagUp (s : State) (mac : Bytes) (set : Bool) (c : Nat) : Nat → Nat → Bytes → VaultImage → VaultImage
  | 0, _, _, m => m
  | fuel + 1, k, child, m =>
    let idx := c / 8 ^ k
    let tag := leBytes 8 (childTag mac child k idx set)
    if k = 10 then { m with slot := { m.slot with root := patch m.slot.root (8 * (idx % 8)) tag } }
    else
      let w := nodeW m.slot (k + 1) (idx / 8)
      let node := patch ((walkDown s m.slot (imageView s m) c (k + 1) 11 m.slot.root).getD (zeros 64)) (8 * (idx % 8)) tag
      tagUp s mac set c fuel (k + 1) node (m.put w node)

/-- Stores a counter line and tags its path under the current key set. -/
def putCtr (s : State) (m : VaultImage) (c : Nat) (ctr : Bytes) : Option VaultImage :=
  match vaultKey s m.slot.vaultId m.slot.curSet "VMAC" with
  | none => none
  | some mac => some (tagUp s mac m.slot.cur c 11 0 ctr (m.put (nodeW m.slot 0 c) ctr))

/-- Enciphers a payload line under a counter, and stores it with its MAC (07 R232). -/
def putLine' (s : State) (m : VaultImage) (ks : KeySet) (l major minor : Nat) (clear : Bytes) : Option VaultImage :=
  match vaultKey s m.slot.vaultId ks "VENC", vaultKey s m.slot.vaultId ks "VMAC" with
  | some e, some k =>
    let w := payW m.slot l
    let ct := xorB (fit 64 clear) (lineStream e w major minor)
    let mw := macW m.slot l
    let macs := patch (imageView s m mw) (8 * (l % 8)) (lineMac k ct w major minor)
    some ((m.put w ct).put mw macs)
  | _, _ => none

/-- The minors of a page. -/
def minorsOf (ctr : Bytes) : List Nat := (List.range 64).map (ctrMinor ctr)

/-- Re-enciphers every written line of a page under MAJOR + 1, MINOR 1 and key set `set`, changing each clear line by `f`
(07 R237, R243). None where the page fails verification, or MAJOR would wrap (07 R236). -/
def recipher (s : State) (m : VaultImage) (c : Nat) (set : Bool) (f : Nat → Bytes → Bytes) : Option VaultImage :=
  match readCtr s m.slot (imageView s m) (64 * c) with
  | none => none
  | some ctr =>
    let major := ctrMajor ctr + 1
    if major ≥ 2 ^ 56 then none
    else
      let lines := (List.range 64).map (fun i => openLine s m.slot (imageView s m) ctr (64 * c + i))
      if lines.any (·.isNone) then none
      else
        let m1 := (List.range 64).foldl (fun (a : Option VaultImage) i =>
          if ctrMinor ctr i = 0 then a
          else a.bind (fun x => putLine' s x (x.slot.keySet set) (64 * c + i) major 1 (f i ((lines.getD i none).getD []))))
          (some m)
        m1.bind (fun x => (putCtr s x c (mkCtr major set ((minorsOf ctr).map (fun k => if k = 0 then 0 else 1)))).map
          (fun y => { y with pages := y.pages ++ [c] }))

/-- Writes one payload line (07 R231, R236, R237). -/
def writeLine (s : State) (m : VaultImage) (l : Nat) (clear : Bytes) : Option VaultImage :=
  let c := l / 64
  match readCtr s m.slot (imageView s m) l with
  | none => none
  | some ctr =>
    let i := l % 64
    let fresh := ctr == zeros 64
    let set := if fresh then m.slot.cur else ctrSet ctr
    let mi := ctrMinor ctr i
    if mi = 127 then
      (recipher s m c set (fun j b => if j = i then clear else b))
    else
      let ctr' := mkCtr (ctrMajor ctr) set ((minorsOf ctr).set i (mi + 1))
      (putLine' s m (m.slot.keySet set) l (ctrMajor ctr) (mi + 1) clear).bind (fun x => putCtr s x c ctr')

/-- The partitions whose records may stand at a payload line, with the record index there. -/
def ownersOf (s : State) (l : Nat) : List (Nat × Nat) :=
  (List.range 1024).filterMap (fun p =>
    let base := tblGet 0 s.vault.pspan p * 2 ^ 23
    if pstate s p ≠ 0 ∧ base ≤ l ∧ l - base < recLimit s p then some (p, l - base) else none)

/-- A record rewrapped under another DMK: its root, DMK_ID and TAG; a descriptor has its TAG alone (07 R243). -/
def rewrapAs (s : State) (dmk : Bytes) (b : Bytes) (p idx : Nat) : Option Bytes :=
  let root := fun d => partRoot d (bindDigest s p) p (pversion s p)
  if byteAt b 0 = 4 then
    let olds := [s.dome.cur, s.dome.next].filterMap id
    if olds.any (fun d => tagOk (recKey "RTAG" (root d) p) p idx b) then
      some (withTag (recKey "RTAG" (root dmk) p) p idx 256 b) else none
  else
    (dmkById s (sub b 44 2)).bind (fun d => (openRec (root d) p idx b).map (fun k =>
      storeRec (root dmk) p idx { k with dmkId := dmkId dmk }))

/-- Lines of the record that begins with a line, where FORMAT and LINES are valid. -/
def recordSpan (b : Bytes) : Option Nat :=
  if byteAt b 0 = 4 then some 4
  else if 1 ≤ byteAt b 0 ∧ byteAt b 0 ≤ 3 ∧ ([2, 4, 8, 16, 32, 64, 128] : List Nat).contains (byteAt b 10) then some (byteAt b 10)
  else none

/-- The lines from payload line `l` with every record rewrapped, and the number of records (07 R243). -/
def rewrapLines (s : State) (dmk : Bytes) : Nat → Nat → List Bytes → List Bytes × Nat
  | 0, _, ls => (ls, 0)
  | fuel + 1, l, ls => match ls with
    | [] => ([], 0)
    | b :: r =>
      let found := match recordSpan b with
        | none => none
        | some n =>
          if ls.length < n then none
          else ((ownersOf s l).findSome? (fun o => rewrapAs s dmk (ls.take n).flatten o.1 o.2)).map (fun x => (n, x))
      match found with
      | some (n, x) =>
        let (r', k) := rewrapLines s dmk fuel (l + n) (ls.drop n)
        (chunks 64 x ++ r', k + 1)
      | none =>
        let (r', k) := rewrapLines s dmk fuel (l + 1) r
        (b :: r', k)

/-- The lines of a page in clear; none where the page fails verification (07 R242). -/
def openPage (s : State) (m : VaultImage) (c : Nat) : Option (List Bytes) :=
  match readCtr s m.slot (imageView s m) (64 * c) with
  | none => none
  | some ctr => (List.range 64).mapM (fun i => openLine s m.slot (imageView s m) ctr (64 * c + i))

/-- The lines of a run of pages in clear. -/
def openRun (s : State) (m : VaultImage) (first count : Nat) : Option (List Bytes) :=
  ((List.range count).mapM (fun i => openPage s m (first + i))).map List.flatten

/-- Re-enciphers a run of pages (07 R242 to R244). -/
def applyRun (s : State) (m : VaultImage) (r : PageRun) : Option VaultImage :=
  match openRun s m r.first r.count with
  | none => none
  | some ls =>
    let out := if r.rewrap then match s.dome.next with
        | some d => (rewrapLines s d ls.length (64 * r.first) ls).1
        | none => ls
      else ls
    (List.range r.count).foldl (fun (a : Option VaultImage) i => a.bind (fun x =>
      match readCtr s x.slot (imageView s x) (64 * (r.first + i)) with
      | none => none
      | some ctr =>
        if ctr = zeros 64 then some x
        else recipher s x (r.first + i) (if r.move then x.slot.cur else ctrSet ctr) (fun j _ => out.getD (64 * i + j) (zeros 64)))) (some m)

/-- A change of the key sets (07 R243): a new set takes the place that is not current. -/
def applySets (r : RootSlot) : SetOp → RootSlot
  | .keep => r
  | .add k => if r.cur then { r with set0 := k, cur := false } else { r with set1 := some k, cur := true }
  | .drop => if r.cur then { r with set0 := {} } else { r with set1 := none }

/-- The payload line of a group's first line that cannot be written. -/
def firstBad (s : State) : VaultImage → List (Nat × Nat × Bytes) → Option Nat
  | _, [] => none
  | m, x :: r => match writeLine s m (payLine s x.1 x.2.1) x.2.2 with
    | some m1 => firstBad s m1 r
    | none => some (payLine s x.1 x.2.1)

/-- Why a group cannot be written: its call's status, and the window-space line that failed verification; none where a counter would
wrap, or a line lies beyond P (07 R229, R235, R236). -/
def groupFault (s : State) (m : VaultImage) (g : Group) : Nat × Option Nat :=
  if g.lines.any (fun x => decide (payLine s x.1 x.2.1 ≥ geoP m.slot.p)) then (stVaultUnreach, none)
  else
    let l := (firstBad s { m with slot := applySets m.slot g.sets } g.lines).getD (64 * ((g.runs.map (·.first)).headD 0))
    (stIntegrity, if (openPage s m (l / 64)).isSome then none else some (payW m.slot l))

/-- Applies a group: its key sets, its lines and its pages; a line at or beyond P fails (07 R229). -/
def writeGroup (s : State) (m : VaultImage) (g : Group) : Option VaultImage :=
  let m1 := g.lines.foldl (fun (a : Option VaultImage) x => a.bind (fun y =>
    let l := payLine s x.1 x.2.1
    if l ≥ geoP y.slot.p then none else writeLine s y l x.2.2)) (some { m with slot := applySets m.slot g.sets })
  g.runs.foldl (fun a r => a.bind (fun y => applyRun s y r)) m1

/-! ## The journal (07 R238) -/

/-- Lines of a batch of `n` changed lines in the journal. -/
def batchLines (n : Nat) : Nat := 1 + ceilDiv n 8 + n

/-- The journal line at which the batch after slot `r` begins (07 R238). -/
def journalNext (r : RootSlot) (n : Nat) : Nat :=
  let at_ := if r.off < 2 then 2 else r.off + batchLines r.n
  if at_ + batchLines n ≤ geoJ r.j then at_ else 2

/-- Enciphers a journal line at a position of a batch. -/
def journalCrypt (k1 k2 : Bytes) (seq pos : Nat) (b : Bytes) : Bytes :=
  xtsEnc k1 k2 (leBytes 8 seq ++ leBytes 8 pos) b

/-- The stored index and data lines of a batch, in order. -/
def journalBody (k1 k2 : Bytes) (seq : Nat) (chg : Tbl Bytes) : List Bytes :=
  let idx := (chunks 64 (chg.flatMap (fun e => leBytes 8 e.1))).map (fit 64)
  (idx ++ chg.map (fun e => fit 64 e.2)).zipIdx.map (fun p => journalCrypt k1 k2 seq (p.2 + 1) p.1)

/-- The header line of a batch and its tag (07 R238). -/
def journalHead (mac rootBefore : Bytes) (n seq epoch : Nat) (body : List Bytes) : Bytes × Bytes :=
  let h := ascii "JRNL" ++ leBytes 4 n ++ leBytes 8 seq ++ leBytes 8 epoch ++ (sha256 rootBefore).take 24 ++ zeros 8
  let t := (cmac (aesC mac) (h ++ body.flatten)).take 8
  (h ++ t, t)

/-- The halves of the journal key of a slot's current key set (07 R230). -/
def journalKeys (s : State) (r : RootSlot) : Option (Bytes × Bytes × Bytes) :=
  match vaultKey s r.vaultId r.curSet "VJR1", vaultKey s r.vaultId r.curSet "VJR2", vaultKey s r.vaultId r.curSet "VMAC" with
  | some a, some b, some m => some (a, b, m)
  | _, _, _ => none

/-- Writes lines into the window space. -/
def putMem (s : State) (l : Tbl Bytes) : State :=
  { s with vault := { s.vault with mem := l.foldl (fun a e => tblSet (zeros 64) a e.1 e.2) s.vault.mem } }

/-! ## Contexts that wait for a commit -/

/-- The outcome of a call that goes on with its next phase once its group commits (07 R243, R252). -/
abbrev goOn : Nat := 0xFFFF

/-- The call of a context that waits for its commit completes (07 R239 step 3), or goes on. -/
def commitDone (s : State) (t c : Nat) (lines : Nat) : State :=
  let x := s.ctx t c
  match x.held, x.needs with
  | some (st, table, spire, res), .commit :: _ =>
    if st = goOn then
      popNeed (s.setCtx t c { x with groupLines := x.groupLines + lines, held := none }) t c
    else finishCall (s.setCtx t c { x with groupLines := x.groupLines + lines }) t c st table spire res
  | _, _ => s

/-- The call of a context that waits for its commit ends with a status, with no effect (07 R240; 10 R316). -/
def commitFailed (s : State) (status : Nat) (t c : Nat) : State :=
  let x := s.ctx t c
  match x.held, x.needs with
  | some (_, table, spire, _), .commit :: _ => finishCall s t c status table spire []
  | _, _ => s

/-- The Keep lines of a group, by table number: class 1 of its partitions. -/
def groupKeys (g : Group) : List Nat := g.lines.map (fun x => keepKey x.1 1 x.2.1)

/-- The Keep lines of groups that are in one state move to another. -/
def moveLines (s : State) (gs : List Group) (a b : LineState) : State :=
  let ks := gs.flatMap groupKeys
  s.setLinesTbl (s.keep.lines.map (fun e => if ks.contains e.1 && e.2.st == a then (e.1, { e.2 with st := b }) else e))

/-- The group begins a new key set. -/
def Group.addsSet (g : Group) : Bool :=
  match g.sets with
  | .add _ => true
  | _ => false

/-- The DMK under which records are written: NEXT from the start of a rekey to it until its promotion, else CURRENT (06 R174; 07 R243). -/
def writeDmk (s : State) : Option Bytes := if s.vault.rekey = some 1 ∨ s.vault.nextReady then s.dome.next else s.dome.cur

/-- The root under which a partition's records are written. -/
def writeRoot (s : State) (p : Nat) : Option Bytes :=
  (writeDmk s).map (fun d => partRoot d (bindDigest s p) p (pversion s p))

/-- The lines of a stored record. -/
def groupLinesOf (p idx : Nat) (b : Bytes) : List (Nat × Nat × Bytes) :=
  (chunks 64 b).zipIdx.map (fun e => (p, idx + e.2, e.1))

/-- A partition descriptor as lines to store and as lines of the Keep, which are the same: a record of partition 0 at index 4·p (06 R178). -/
def descLines (s : State) (p : Nat) (d : Bytes) : Option (List (Nat × Nat × Bytes) × List KeepCopy) :=
  (writeRoot s 0).map (fun r =>
    let b := withTag (recKey "RTAG" r 0) 0 (4 * p) 256 d
    (groupLinesOf 0 (4 * p) b, copiesOf 0 (4 * p) b))

/-- The fields of a partition descriptor that one call changes together, as first byte and length: its incarnation, its binding, and its
cursor (06 R178, R179, R182, R185). -/
def descUnits : List (List (Nat × Nat)) := [[(0, 4), (22, 6), (32, 145)], [(4, 2), (8, 8)], [(16, 6)]]

/-- The bytes of such a unit. -/
def unitOf (d : Bytes) (u : List (Nat × Nat)) : Bytes := u.flatMap (fun r => sub d r.1 r.2)

/-- A descriptor with the change of `a` into `b` taken back in each unit that no later change has come over. -/
def takeBack (a b d : Bytes) : Bytes :=
  descUnits.foldl (fun x u =>
    if unitOf a u ≠ unitOf b u ∧ unitOf x u = unitOf b u then u.foldl (fun y r => patch y r.1 (sub a r.1 r.2)) x else x) d

/-- A group gathered after one that is given up goes on without the changes of that one: its descriptor is sealed anew. -/
def Group.without (s : State) (u : Nat × Bytes × Bytes) (g : Group) : Group :=
  let f := takeBack u.2.1 u.2.2
  match g.undo.find? (fun w => w.1 == u.1) with
  | none => g
  | some w =>
    let keep := g.lines.filter (fun l => !(l.1 == 0 && decide (4 * u.1 ≤ l.2.1) && decide (l.2.1 < 4 * u.1 + 4)))
    { g with
      undo := g.undo.map (fun w => if w.1 = u.1 then (w.1, f w.2.1, f w.2.2) else w)
      lines := match descLines s u.1 (f w.2.2) with
        | some l => if f w.2.2 = w.2.2 then g.lines else keep ++ l.1
        | none => g.lines }

/-- The Keep's copies of a descriptor's lines in WRITING follow the descriptor. -/
def refreshDesc (s : State) (p : Nat) : State :=
  match descLines s p (descOf s p) with
  | none => s
  | some l => s.setLinesTbl (s.keep.lines.map (fun e =>
      match l.2.find? (fun x => keepKey x.1 1 x.2.1 == e.1) with
      | some x => if e.2.st = .writing then (e.1, { e.2 with data := x.2.2.2 }) else e
      | none => e))

/-- A descriptor returns to what it was before a group that is given up, but for what later groups have changed (07 R240). -/
def undoDesc (s : State) (u : Nat × Bytes × Bytes) : State :=
  let s1 := setDesc s u.1 (takeBack u.2.1 u.2.2 (descOf s u.1))
  refreshDesc { s1 with vault := { s1.vault with groups := s1.vault.groups.map (Group.without s1 u) } } u.1

/-- An entry of the binding table returns to what it was before a group that is given up, where no later group has changed it; a later
group that has changed it starts from there (06 R182, R183; 07 R240). -/
def undoBind (s : State) (u : Nat × Option Nat × Option Nat) : State :=
  let later := s.vault.groups.any (fun g => g.unbind.any (fun w => w.1 == u.1))
  let gs := s.vault.groups.map (fun (g : Group) =>
    { g with unbind := g.unbind.map (fun w => if w.1 = u.1 ∧ w.2.1 = u.2.2 then (w.1, u.2.1, w.2.2) else w) })
  let s1 := { s with vault := { s.vault with groups := gs } }
  if !later ∧ (tblGet none s.bind u.1 : Option Nat) = u.2.2 then { s1 with bind := tblSet none s1.bind u.1 u.2.1 } else s1

/-- Groups are given up: their WRITING lines leave the Keep and the caches, but for those that a later group writes; what they changed in
descriptors and bindings is taken back, and a rekey whose key set was not added has not begun (07 R240; 10 R316). -/
def dropGroups (s : State) (gs : List Group) : State :=
  let rest := s.vault.groups.flatMap groupKeys
  let ks := (gs.flatMap groupKeys).filter (fun k => !rest.contains k)
  let s1 := dropLines s (fun k l => ks.contains k && l.st == .writing)
  let s2 := tcDrop s1 (fun _ e => ks.contains (keepKey e.part e.cls e.idx))
  let s3 := (gs.reverse.flatMap (·.undo)).foldl undoDesc s2
  let s4 := (gs.reverse.flatMap (·.unbind)).foldl undoBind s3
  if gs.any (·.addsSet) then { s4 with vault := { s4.vault with rekey := none } } else s4

/-- Every call of the groups ends with a status (07 R240). -/
def failGroups (s : State) (gs : List Group) (status : Nat) : State :=
  gs.foldl (fun a g => commitFailed a status g.at_.1 g.at_.2) (dropGroups s gs)

/-- Nothing is in flight to the vault: no batch is in a commit step. -/
def vaultQuiet (s : State) : Bool := s.vault.writing.isNone && s.vault.batch.isNone

/-- A VAULT_SEAL_ROOT with OP 0x01 has begun its seal step (07 R248). -/
def releasing (s : State) : Bool :=
  allCtx.any (fun x => opOf (workDesc s x.1 x.2) == 0x0A03 && byteAt (workDesc s x.1 x.2) 64 == 1 && (s.ctx x.1 x.2).work.phase != 0)

/-- New batches are held (07 R248, R255; 14 R398). -/
def batchesHeld (s : State) : Bool := s.vault.hold || releasing s

/-- The seal that waits for the batch in flight goes on once nothing is in flight (07 R248). -/
def sealReady (s : State) : State :=
  if !vaultQuiet s then s
  else (allCtx.filter (fun x => firstNeed s x.1 x.2 == some .commit && (s.ctx x.1 x.2).held.isNone)).foldl (fun a x => popNeed a x.1 x.2) s

/-- The Keep lines of copies of class 1. -/
def copyKeys (l : List KeepCopy) : List Nat := l.map (fun x => keepKey x.1 1 x.2.1)

/-- The context's final step runs by `f` once each line that it writes into the Keep finds a way; until then the call waits, its units
released (07 R218, R226; 08 R259; 10 R317). -/
def finalStep (s : State) (t c : Nat) (ks : List Nat) (f : State → State) : State :=
  if waysFor s ks then f s else setNeeds (freeUnits s t c) t c [.way ks]

/-- A final step passes a group to the vault engine: its Keep lines enter WRITING, the context's lanes are released, and the
call waits for the commit (07 R226, R236; 08 R258; 10 R317). `clear` gives the lines of the Keep's copy, which find their ways. -/
def passGroup (s : State) (t c : Nat) (g : Group) (clear : List KeepCopy) (held : Nat × Nat × Nat × Bytes) : State :=
  let s1 := (installAll 1 .writing s clear).getD s
  let s2 := { s1 with vault := { s1.vault with groups := s1.vault.groups ++ [{ g with at_ := (t, c) }] } }
  let s3 := freeUnits s2 t c
  let x := s3.ctx t c
  s3.setCtx t c { x with needs := [.commit], st := .waiting, held := some held, stall := 0, age := 0, grant := [] }

/-- A page is in write-back ownership: a group gathered, or one of the batch in step 1, re-enciphers it (07 R237, R242). -/
def pageHeld (s : State) (pg : Nat) : Bool :=
  s.vault.groups.any (fun g => g.runs.any (fun r => decide (r.first ≤ pg) && decide (pg < r.first + r.count))) ||
    s.vault.writing.any (fun b => b.pages.contains pg)

/-- The pages of the lock that begins with a page: the next page too where a record of 128 lines spans both (07 R242). -/
def lockSpan (s : State) (pg : Nat) : Nat :=
  match readLine s (baseImage s).slot (fillView s) (64 * pg) with
  | some b => if recordSpan b = some 128 then 2 else 1
  | none => 1

/-- A Keep line lies in one of `n` pages from `pg`. -/
def inPages (s : State) (pg n k : Nat) : Bool :=
  let l := payLine s (keyPart k) (keyIdx k) / 64
  keyCls k == 1 && decide (pg ≤ l) && decide (l < pg + n)

/-- Some line of the pages is held, or in WRITING but for the lines `own` (07 R237, R242). -/
def pageBusyBut (s : State) (pg n : Nat) (own : List Nat) : Bool :=
  s.keep.lines.any (fun e => inPages s pg n e.1 && e.2.st == .writing && !own.contains e.1) ||
    allCtx.any (fun x => (s.ctx x.1 x.2).grant.any (inPages s pg n))

/-- Some line of the pages is held, or in WRITING (07 R242). -/
def pageBusy (s : State) (pg n : Nat) : Bool := pageBusyBut s pg n []

/-- The metadata lines on the path of payload line `l` that a share caches. -/
def metaPath (r : RootSlot) (l : Nat) : List Nat :=
  macW r l :: nodeW r 0 (l / 64) :: (List.range 5).map (fun k => nodeW r (k + 1) (l / 64 / 8 ^ (k + 1)))

/-- The cached metadata of a page is dropped (07 R223). -/
def dropMeta (s : State) (r : RootSlot) (pg : Nat) : State :=
  let ws := (List.range 8).flatMap (fun i => metaPath r (64 * pg + 8 * i))
  { s with vault := { s.vault with meta_ := s.vault.meta_.filter (fun e => !(ws.contains e.1 && e.2.1 != 1024)) } }

/-- Every cached copy of the lines of pages that a vault job rewrites is dropped: in the Keep, in the tower key caches, and of their
metadata (07 R223). -/
def dropPages (s : State) (r : RootSlot) (pg n : Nat) : State :=
  let s1 := dropLines s (fun k _ => inPages s pg n k)
  let s2 := tcDrop s1 (fun _ e => (List.range e.key.lines).any (fun i => inPages s pg n (keepKey e.part e.cls (e.idx + i))))
  (List.range n).foldl (fun a i => dropMeta a r (pg + i)) s2

/-- The accesses by which the engine reads pages whole, one for each 4 KiB (07 R227, R242). -/
def pageReads (s : State) (r : RootSlot) (pg n : Nat) : List Nat :=
  (List.range n).flatMap (fun i => payW r (64 * (pg + i)) ::
    (metaPath r (64 * (pg + i))).filter (fun w => !(s.vault.meta_.any (fun e => e.1 == w))))

/-- Some line of a run is in WRITING, or in a page in write-back ownership: its readers wait (07 R224, R226, R242). -/
def runBusy (s : State) (p cls idx n : Nat) : Bool :=
  runWriting s p cls idx n || (cls == 1 && (List.range n).any (fun i => pageHeld s (payLine s p (idx + i) / 64)))

/-- Writes the vault's state. -/
def State.setVault (s : State) (v : Vault) : State := { s with vault := v }

/-- DETACH is complete once nothing is in flight (07 R255). -/
def detachCheck (s : State) : State :=
  if s.vault.busy = 2 ∧ s.vault.writing.isNone ∧ s.vault.batch.isNone then
    let s1 := failGroups (s.setVault { s.vault with st := 1, busy := 0, result := 0, hold := false, groups := [] })
      s.vault.groups stVaultUnreach
    raise s1 pgVault 1
  else s

/-- The batch in step 1 fails, or is given up: its calls end with a status, and a release or a detachment that waits for it goes on
(07 R240, R248, R255; 10 R316). -/
def failBatch (s : State) (b : Batch) (status : Nat) : State :=
  sealReady (detachCheck (failGroups (s.setVault { s.vault with writing := none }) b.groups status))

/-- Lines are written, and the last of them is read back (07 R239, R241, R246). -/
def writeCheck (s : State) (ws : List Nat) : State × Bool :=
  let (s1, ok) := windowMove s true ws
  if ok then windowMove s1 false ws.getLast?.toList else (s1, false)

/-- The window-space lines that the engine reads to write a batch: its counter, MAC and tree lines that the metadata cache lacks, and the
payload of pages that it re-enciphers (07 R227, R235, R237). -/
def batchReads (s : State) (m : VaultImage) : List Nat :=
  let lo := geoJ m.slot.j
  let payload := fun (w : Nat) => decide (lo ≤ w) && decide (w < lo + geoP m.slot.p)
  (m.chg.map (·.1)).filter (fun w => if payload w then m.pages.contains ((w - lo) / 64) else !(s.vault.meta_.any (fun e => e.1 == w)))

end Sys2Proof.Machine
end

