-- ==== Sys2Proof/Machine/FigBase.lean ====
section
/-! DEFINITION. Retirement of parts, faults of a running figure, and the frame in which every figure runs (10 R317, R318;
15 R435 to R438; 08 R260; 09 R299). -/

namespace Sys2Proof.Machine

/-! ## Retirement -/

/-- The number under which a retired lane waits to be burned into the sparing fuses (15 R437). -/
def fuseLane (t : Nat) (hash : Bool) (i : Nat) : Nat := 0x100 * t + 16 * flag hash + i

/-- The number of a retired tower in the sparing fuses. -/
def fuseTower (t : Nat) : Nat := 0x10000 + t

/-- The number of a repaired Keep row in the sparing fuses. -/
def fuseRow (r : Nat) : Nat := 0x20000 + r

/-- The sparing records that the fuses hold: those of which two copies of the three are burned (15 R437). -/
def sparingRecs (f : Fuse) : List Nat :=
  (f.sparing.filter (fun e => ((List.range 3).filter (bitOf e.2)).length ≥ 2)).map (·.1)

/-- Notes a retirement: SUP_LAST_RETIRE, RETIRED, and a sparing record that waits for its burn (15 R437, R441). -/
def noteRetire (s : State) (kind tower lane reason row : Nat) (fuse : Option Nat) : State :=
  let w := kind + 8 * tower + 256 * lane + 2048 * reason + 32768 * row + 2 ^ 31
  let s1 := { s with sup := { s.sup with
    lastRetire := BitVec.ofNat 32 w
    pending := match fuse with
      | some f => if s.sup.pending.contains f || (sparingRecs s.fuse).contains f then s.sup.pending else s.sup.pending ++ [f]
      | none => s.sup.pending } }
  raise s1 pgSup 3

/-- Writes the role of tower `t`. -/
def setRole (s : State) (t r : Nat) : State := { s with sup := { s.sup with roles := s.sup.roles.set t r } }

/-- Hands the entries of tower `t` in CALLER_TOWER_MAP, one at a time, to the in-service tower with the fewest (10 R306). -/
def handOut (t : Nat) (ups : List Nat) : List Nat → List Nat → List Nat
  | _, [] => []
  | seen, e :: r =>
    if e ≠ t then e :: handOut t ups seen r
    else
      let count := fun k => (seen.filter (· == k)).length
      match bestBy (fun k => 1000 - count k) ups with
      | none => e :: handOut t ups seen r
      | some k => k :: handOut t ups (k :: seen) r

/-- CALLER_TOWER_MAP after tower `t` has left service with no spare. -/
def mapWithout (s : State) (t : Nat) : List Nat :=
  handOut t (inService s) (s.caller.map.filter (· != t)) s.caller.map

/-- The unused spare tower. -/
def spareTower (s : State) : Option Nat :=
  if s.sup.replacing.isSome then none else (List.range 17).find? (fun t => s.sup.roles.getD t 2 == 0)

/-- A tower begins to drain (15 R436). -/
def drainTower (s : State) (t : Nat) : State :=
  if s.sup.roles.getD t 2 ≠ 1 then s
  else
    let s1 := setRole s t 3
    let s2 := match spareTower s1 with
      | some k => { s1 with sup := { s1.sup with replacing := some (t, k), spareReady := false } }
      | none =>
        let m := mapWithout s1 t
        if m = s1.caller.map then s1 else raise { s1 with caller := { s1.caller with map := m } } pgCaller 2
    let s3 := if failed s2 then alertCause (raise s2 pgSup 5) 3 else s2
    degradeCheck s3

/-- The spare tower enters service with the entries of the tower it replaces (10 R306; 15 R436). -/
def spareEnters (s : State) (d k : Nat) : State :=
  let s1 := setRole s k 1
  let s2 := { s1 with
    sup := { s1.sup with replacing := none, spareReady := false }
    caller := { s1.caller with map := s1.caller.map.map (fun e => if e = d then k else e) } }
  degradeCheck (raise s2 pgCaller 2)

/-- The spare that has passed its test enters service once its DRBG is instantiated (15 R436). -/
def spareSettle (s : State) : State :=
  match s.sup.replacing with
  | some (d, k) => if s.sup.spareReady && (s.rng.insts.getD k {}).st != 0 then spareEnters s d k else s
  | none => s

/-- Changes lane `i` of one kind of a tower. -/
def modLane (s : State) (t : Nat) (hash : Bool) (i : Nat) (f : Lane → Lane) : State :=
  let w := s.tower t
  s.setTower t (if hash then { w with hlanes := w.hlanes.modify i f } else { w with clanes := w.clanes.modify i f })

/-- A tower lacks lanes: fewer than two of a kind in service, and no spare of that kind that may still enter (15 R435;
DEDUCED, log 12). -/
def shortOfLanes (w : Tower) (hash : Bool) : Bool :=
  decide (w.lanesUp hash < 2) && !((w.lanes hash).any (fun l => l.role == 0))

/-- A lane is marked retired, and the retirement noted (15 R435). -/
def markLane (s : State) (t : Nat) (hash : Bool) (i reason : Nat) : State :=
  let s1 := modLane s t hash i (fun l => { l with role := 2, faulty := true, testing := false })
  noteRetire s1 (if hash then 2 else 1) t i reason 0 (some (fuseLane t hash i))

/-- A lane is retired: the spare of its kind is put to its test, or the tower drains for want of lanes (15 R435). -/
def retireLane (s : State) (t : Nat) (hash : Bool) (i reason : Nat) : State :=
  let s2 := markLane s t hash i reason
  let s3 := if shortOfLanes (s2.tower t) hash then drainTower s2 t else s2
  degradeCheck s3

/-- The lanes of one kind that are faulty, idle and not yet retired are retired (15 R435). -/
def retireIdle (s : State) (t : Nat) (hash : Bool) : State :=
  (((s.tower t).lanes hash).zipIdx.filter (fun p => p.1.faulty && p.1.role != 2 && p.1.owner.isNone)).foldl
    (fun a p => retireLane a t hash p.2 0) s

/-! ## Faults of a figure -/

/-- The call of a context ends DEVICE_FAULT, with no effect (01 R31). How many cycles a faulted figure has run is open:
a free value (log 3). -/
def deviceFault (s : State) (t c : Nat) : State :=
  let (s1, n) := s.takeFree
  finishCall s1 t c stDeviceFault (Config.freeValue n % 2 ^ 32) 0 []

/-- A residue mismatch of a lane that the context holds (08 R260). -/
def laneFault (s : State) (t c : Nat) (hash : Bool) (i : Nat) : State :=
  match ((s.tower t).lanes hash)[i]? with
  | none => s
  | some l =>
    if l.owner ≠ some c then s
    else
      let s1 := modLane s t hash i (fun x => { x with faulty := true })
      let w := s1.tower t
      let s2 := raise (s1.setTower t { w with laneFaults := satAdd 32 w.laneFaults 1 }) (pgTower t) 1
      retireIdle (deviceFault s2 t c) t hash

/-- A tower's Spire takes no further grants (09 R299). -/
def markSpire (s : State) (t : Nat) : State :=
  let w := s.tower t
  s.setTower t { w with spire := { w.spire with retired := true } }

/-- The Spire of a tower fails: it takes no further grants, its resident job ends, and the tower drains (09 R299;
15 R435). -/
def retireSpire (s : State) (t : Nat) : State :=
  let w := s.tower t
  let s1 := markSpire s t
  let s2 := match w.spire.resident with
    | some r => deviceFault s1 t r
    | none => s1
  drainTower s2 t

/-- Counts a Spire fault (09 R299). -/
def countSpireFault (s : State) (t : Nat) : State :=
  let w := s.tower t
  raise (s.setTower t { w with spire := { w.spire with faults := satAdd 32 w.spire.faults 1 } }) (pgTower t) 3

/-- The context holds a half of its Spire. -/
def holdsSpire (s : State) (t c : Nat) : Bool :=
  (s.tower t).spire.half0 == some c || (s.tower t).spire.half1 == some c || (s.tower t).spire.resident == some c

/-- A residue mismatch of the Spire that the context holds (09 R299). -/
def spireFault (s : State) (t c : Nat) : State :=
  if !holdsSpire s t c then s
  else retireSpire (deviceFault (countSpireFault s t) t c) t

/-- An uncorrectable error in a context buffer (15 R434). -/
def eccFault (s : State) (t c : Nat) : State :=
  deviceFault (countUncorr s) t c

/-- The Keep's check of the final step's write fails: every line of the group is invalidated, and the call ends
DEVICE_FAULT (10 R317). -/
def keepWriteFault (s : State) (t c : Nat) : State :=
  let g := (s.ctx t c).grant
  if g.isEmpty then s else deviceFault (dropLines s (fun k _ => g.contains k)) t c

/-! ## Internal accesses of a context (13 R373 to R384) -/

/-- The address lies in one of the implicit regions of a partition: its rooms (13 R375, R378). -/
def inRooms (s : State) (p addr : Nat) : Bool :=
  targetOf addr == some .keep && (roomsOf s p).contains ((addr - 0x10000000) / 0x10000)

/-- The partition of the work in a context, that of its job where it carries one; none where the opcode has no PART: the families 0x00, 0x09
and 0x0B, REEL_MBOX_SEND and REEL_SNAPSHOT (03 R79; 13 R378). -/
def workPart (d : Bytes) : Option Nat :=
  let op := opOf d
  if op / 256 = 0 ∨ op / 256 = 9 ∨ op / 256 = 0x0B ∨ op = 0x0D02 ∨ op = 0x0D03 then none else some (partOf d)

/-- The kind of violation that an internal access of a context that works on descriptor `d` is; none if it is allowed. A TF's context reaches
the Keep in its implicit regions only, and elsewhere what an entry grants it (13 R376 to R380; DEDUCED, log 99). -/
def ctxRefusal (s : State) (k : Call) (d : Bytes) (write : Bool) (addr : Nat) : Option Nat :=
  if (workPart d).any (fun p => inRooms s p addr) then none
  else if isMf k.fn then intRefusal s 2 write addr
  else match targetOf addr with
    | none => some 5
    | some tg =>
      match ((List.range 16).map (tblGet ({} : RegionI) s.acu.int)).find? (fun r => r.matches 2 addr) with
      | some r => if tg = .keep then some 0 else if (if write then r.wr else r.rd) then none else some 1
      | none => some 0

/-- The parts of a tower: its lanes and its Spire (15 R433). -/
def towerParts (t : Nat) : List TestPart :=
  (List.range 6).map (TestPart.lane t false) ++ (List.range 3).map (TestPart.lane t true) ++ [.spire t]

/-- A tower is suspect: each of its lanes and its Spire is to be tested at its next idle slot (13 R385; 15 R433). -/
def suspectTower (s : State) (t : Nat) : State :=
  { s with sup := { s.sup with
      suspect := s.sup.suspect ||| BitVec.ofNat 17 (2 ^ t)
      owed := s.sup.owed.filter (fun p => !(towerParts t).contains p) ++ towerParts t } }

/-- A figure context whose access is refused, by its own check or by the target's: the violation is logged, the context enters FROZEN,
its call ends with no completion, and its tower is suspect (13 R384). -/
def ctxAccess (s : State) (t c : Nat) (write : Bool) (addr : Nat) (target : Bool) (f : State → State) : State :=
  match (s.ctx t c).call with
  | none => s
  | some k =>
    match (match ctxRefusal s k (workDesc s t c) write addr with
      | some v => some v
      | none => if target then none else some 4) with
    | none => f s
    | some v =>
      let s1 := abortCall (logViolation s 2 v write false (t + 32 * c) (addr % 2 ^ 32) (addr / 2 ^ 32)) t c .frozen
      suspectTower s1 t

/-! ## The frame of a figure -/

/-- The context runs, all its needs are met, and its figure is that of opcode `op`. -/
def atFigure (s : State) (t c op : Nat) : Bool :=
  decide (t < 17) && decide (c < 8) && (s.ctx t c).st == .running && (s.ctx t c).call.isSome &&
    (s.ctx t c).needs.isEmpty && opOf (workDesc s t c) == op

/-- A fault can be reported for the call of a context: it holds the unit that fails. -/
def faultFits (s : State) (t c : Nat) : FigFault → Bool
  | .lane hash i => (((s.tower t).lanes hash)[i]?).any (fun l => l.owner == some c)
  | .spire => holdsSpire s t c
  | .keepWrite => !(s.ctx t c).grant.isEmpty
  | _ => true

/-- Changes the work of a context. -/
def modWork (s : State) (t c : Nat) (f : Work → Work) : State :=
  let x := s.ctx t c
  s.setCtx t c { x with work := f x.work }

/-- The Spire commands that a figure has run when a fault ends its call count as busy, and for tally 10: how many cycles they took is open, a
free value (09 R300; 12 R355; log 3). -/
def spireSpent (s : State) (t c : Nat) : State :=
  if !holdsSpire s t c then s
  else
    let w := s.tower t
    let n := Config.freeValue s.free % 2 ^ 32
    modWork { s.setTower t { w with spire := { w.spire with busy := (w.spire.busy + n) % 2 ^ 64 } } with free := s.free + 1 } t c
      (fun k => { k with sp := k.sp + n })

/-- The work of a context goes on by `f`, unless a fault is reported for its call (10 R317). -/
def withFault (s0 : State) (t c : Nat) (fault : FigFault) (f : State → State) : State :=
  let s := match fault with
    | .none => s0
    | .corrected => s0
    | .access _ _ _ => s0
    | _ => spireSpent s0 t c
  match fault with
  | .none => f s
  | .corrected => f (countFixed s 1)
  | .ecc => eccFault s t c
  | .lane hash i => laneFault s t c hash i
  | .spire => spireFault s t c
  | .keepWrite => keepWriteFault s t c
  | .access write addr target => ctxAccess s t c write addr target f

/-- The resident job of a Spire runs: it owes no run to its next yield point any longer (09 R288). -/
def pastYield (s : State) (t c : Nat) : State :=
  let w := s.tower t
  if w.spire.resident = some c ∧ w.spire.owed then s.setTower t { w with spire := { w.spire with owed := false } } else s

/-- The figure of opcode `op` in a context runs to its end by `f`, unless a fault was reported for the call in an earlier
cycle (10 R317). Without such a call, or with a fault that it cannot meet, the state is unchanged (log 2). -/
def runFigure (s : State) (t c op : Nat) (fault : FigFault) (f : State → State) : State :=
  if !atFigure s t c op || !faultFits s t c fault then s else withFault (pastYield s t c) t c fault f

/-- The Spire, a cipher lane for CMAC and a hash lane for SHA-512, in the order of ranks (10 R314). -/
def unitNeeds : List Need := [.spire, .lanes false 1 4, .lanes true 1 2]

/-- The key in handle slot `i` of a context. -/
def keyOf (s : State) (t c i : Nat) : KeyRec := ((s.ctx t c).keys.getD i none).getD {}

/-- Random bytes that the context has drawn. -/
def drawnOf (s : State) (t c : Nat) : Bytes := (s.ctx t c).work.drawn

/-- The whole input of a call: the inline bytes, the stream, or the blob read from host memory (03 R82, R83). -/
def inputOf (s : State) (t c : Nat) : Bytes :=
  if (s.ctx t c).work.blob.isEmpty then (s.ctx t c).work.input else (s.ctx t c).work.blob

end Sys2Proof.Machine
end

