-- ==== Sys2Proof/Machine/Operands.lean ====
section
/-! DEFINITION. What the opcodes' layouts say of a descriptor: handle slots, DREF forms, reserved fields, lengths,
staging blocks and the requirements on keys (03 R79 to R90, R94, R98; the service chapters' layouts). -/

namespace Sys2Proof.Machine

/-- What an opcode's layout says of one descriptor. -/
structure OpInfo where
  /-- Only the MF may issue the opcode (R94). -/
  mfOnly : Bool := false
  /-- The opcode uses a partition (R94). -/
  part : Bool := true
  /-- Handle slots used, from HANDLE0 (R90). -/
  handles : Nat := 0
  /-- DREF forms taken (R464). -/
  forms : List Nat := [0]
  /-- The byte after the PARAMS layout (R82). -/
  pEnd : Nat := 64
  /-- A reserved byte or encoding within the layout is set (R80). -/
  bad : Bool := false
  /-- The declared input length is outside the opcode's limits (R86). -/
  lenBad : Bool := false
  /-- Output length that the call requires (R86). -/
  need : Nat := 0
  /-- RESULTS bytes that the layout leaves for output (R82). -/
  space : Nat := 48
  /-- The opcode admits jobs by this descriptor (R98). -/
  job : Bool := false
  /-- Staging blocks (R303). -/
  blocks : Nat := 0

/-- Bytes `a` to `b - 1` of a descriptor are zero. -/
def zeroIn (d : Bytes) (a b : Nat) : Bool := allZero (sub d a (b - a))

/-- A RECORD field with its reserved bits [47:44] clear. -/
def recordOk (d : Bytes) (off : Nat) : Bool := leAt d off 6 < 2 ^ 44

/-- The figure's limit above which a call is a job (R98). -/
def jobLimit : Nat := 131072

/-! ## Family 0x07 (06 R195 to R213) -/

/-- PARAMS byte `i` of a descriptor. -/
abbrev par (d : Bytes) (i : Nat) : Nat := byteAt d i

/-- The attribute fields that KEY_GENERATE and KEY_DERIVE share hold no reserved encoding (06 R195). -/
def attrBad (d : Bytes) : Bool :=
  algReserved (par d 64) || decide (par d 65 > 2) || decide (par d 70 ≥ 4) || !zeroIn d 86 88 || !recordOk d 88 ||
    !zeroIn d 94 96

/-- Layouts of the key opcodes. The layout of KEY_DERIVE gives only zeros after CTX_LEN bytes of CONTEXT, and KIND 5 alone a curve slot, of
which there are 16: the model takes other values as reserved encodings (DESIGN CHOICE, logs 104 and 105). -/
def keyInfo (op : Nat) (d : Bytes) : OpInfo :=
  match op with
  | 0x0701 => { pEnd := 110, bad := attrBad d || par d 97 != 0 }
  | 0x0702 =>
    { handles := 1, forms := [2], pEnd := 74, blocks := 2,
      bad := decide (par d 64 > 2) || !zeroIn d 65 68 || !recordOk d 68,
      lenBad := decide (inLenOf d < 16) || decide (inLenOf d > 4096) }
  | 0x0703 =>
    { handles := 2, forms := [2], pEnd := 65, blocks := 2, need := 256,
      bad := par d 64 != 0x42 && par d 64 != 0x44, lenBad := inLenOf d != 0 }
  | 0x0704 =>
    { handles := 1, pEnd := 128,
      bad := attrBad d || (decide (par d 96 ≤ 31) && !zeroIn d (97 + par d 96) 128) }
  | 0x0705 => { handles := 1 }
  | 0x0706 => { handles := 1 }
  | 0x0707 =>
    let k := par d 64
    if k = 0x10 then { forms := [1, 2], pEnd := 65, lenBad := inLenOf d != 160, blocks := if formOf d = 2 then 2 else 0 }
    else if k = 0x11 then { pEnd := 74, bad := !zeroIn d 65 72 }
    else
      { forms := [1, 2], pEnd := 94, lenBad := decide (inLenOf d > 4096), blocks := if formOf d = 2 then 2 else 0,
        bad := k == 0 || decide (k > 7) || decide (par d 65 > 2) || (k != 5 && par d 71 != 0) || decide (par d 70 ≥ 4) ||
          decide (par d 71 > 15) || !zeroIn d 86 88 || !recordOk d 88 }
  | 0x0708 => { handles := 1 }
  | 0x0709 =>
    if par d 64 = 1 then { handles := 1, pEnd := 65 }
    else { handles := 1, pEnd := 94, bad := par d 64 != 0 || !zeroIn d 65 68 || !zeroIn d 78 80 || !recordOk d 80 }
  | _ => {}

/-- Usage, mode and algorithm of a key block protection key, given as the modes that the call takes. -/
def kbpkOk (k : KeyRec) (m1 m2 : Nat) : Bool := k.usage == usageOf "K1" && (k.mode == m1 || k.mode == m2)

/-- The export rules of R211 for the key in HANDLE1 under the KBPK in HANDLE0. -/
def exportOk (ver : Nat) (kbpk k : KeyRec) : Bool :=
  k.exportC != chr "N" && (if ver = 0x42 then kbpk.alg == 2 else isAes kbpk.alg) &&
    (k.exportC != chr "E" || (ver == 0x44 && decide (strength kbpk.alg ≥ strength k.alg)))

/-- Check 4 of R194 for the key opcodes: slot `i` holds `ks[i]`. -/
def keyUse (op : Nat) (d : Bytes) (ks : List KeyRec) (i : Nat) : Bool :=
  let k := ks.getD i {}
  match op with
  | 0x0702 => kbpkOk k (chr "B") (chr "D")
  | 0x0703 =>
    if i = 0 then kbpkOk k (chr "B") (chr "E")
    else decide (k.format = 1) && exportOk (par d 64) (ks.getD 0 {}) k
  | 0x0704 => k.usage == usageOf "K0" && k.mode == chr "X" && isAes k.alg
  | _ => true

/-! ## Family 0x08 (09 R285, R290 to R295) -/

/-- Words of a declared length. -/
def spW (l : Nat) : Nat := ceilDiv l 64

/-- M(L) (09 R285). -/
def spM (l : Nat) : Nat := 2 * spW l * ceilDiv (spW l) 16 + 6

/-- A(L) (09 R285). -/
def spA (l : Nat) : Nat := ceilDiv (spW l) 4 + 2

/-- I(L), MINV (09 R285). -/
def spI (l : Nat) : Nat := 2 * l + 4 * spW l + 10

/-- MEXP over L bits with an exponent of E bits (09 R285). -/
def spExp (l e : Nat) : Nat := 2 * e * spM l + 2 * spM l + 4

/-- MEXPP over L bits with an exponent of E bits, v of them one (09 R285). -/
def spExpP (l e v : Nat) : Nat := (e + v) * spM l + 4

/-- Bytes of a hash by its HASH code. -/
def hashLen (h : Nat) : Nat := if h = 1 then 32 else if h = 2 then 48 else 64

/-- RSA private operation of an `m`-bit modulus, with an exponent of E bits, v of them one (09 R293). -/
def rsaPrivCycles (m e v : Nat) : Nat :=
  let t := m / 2
  4 * spM t + 2 * spExp t t + spA t + spM t + spM m + 2 * spA m + spExpP m e v

/-- H of PSS and OAEP for a modulus of `k` bytes (09 R293). -/
def hashWork (h k : Nat) : Nat :=
  (if h = 1 then 17 else 21) * (2 + ceilDiv (ceilDiv (k - hashLen h - 1) (hashLen h)) 2) + 4

/-- H of an RSA figure: SCHEME and HASH (09 R293). -/
def rsaH (scheme h k : Nat) : Nat := if scheme = 2 then 4 else hashWork h k

/-- A KEYBITS value that R291 defines for the RSA schemes. -/
def keyBitsOk (n : Nat) : Bool := decide (1024 ≤ n) && decide (n ≤ 4096) && n % 8 == 0

/-- Path value of PK_SIGN and PK_DECRYPT by the declared parameters (03 R98; 09 R293). -/
def pkPathValue (scheme h bits : Nat) : Nat := 38 + rsaH scheme h (bits / 8) + rsaPrivCycles bits 17 2 + 15

/-- Bytes of a public key in R205's encoding, by ALG and MODBITS, for the algorithms that fix it. -/
def pubLen (alg modbits : Nat) : Nat :=
  match alg with
  | 0x10 => 65
  | 0x11 => 97
  | 0x12 => 133
  | 0x18 => 4 + modbits / 8 + 4 + 3
  | 0x20 => 1184
  | 0x21 => 1568
  | 0x22 => 1952
  | 0x23 => 2592
  | _ => 0

/-- OUT_CAP of a descriptor with a list. -/
def outCap (d : Bytes) : Nat := leAt d 60 4

/-- Layouts of the Spire opcodes. Non-zero CONTEXT bytes after CTX_LEN in PK_AGREE, and a curve slot above 15 in PK_KEYGEN, are taken as
reserved encodings (DESIGN CHOICE, logs 104 and 105). -/
def pkInfo (op : Nat) (d : Bytes) : OpInfo :=
  let scheme := par d 64
  let bits := leAt d 66 2
  match op with
  | 0x0801 =>
    { handles := 1, forms := [2], pEnd := 68, blocks := 2,
      bad := scheme == 0 || decide (scheme > 3) || par d 65 == 0 || decide (par d 65 > 3) ||
        (if scheme = 1 then bits != 0 && !keyBitsOk bits else !keyBitsOk bits)
      lenBad := inLenOf d != hashLen (par d 65)
      job := scheme != 1 && decide (pkPathValue scheme (par d 65) bits > jobLimit) }
  | 0x0802 =>
    { handles := 1, forms := [2], pEnd := 68, blocks := 2,
      bad := scheme == 0 || decide (scheme > 3) || par d 65 == 0 || decide (par d 65 > 3)
      lenBad := outCap d != 0 }
  | 0x0803 =>
    { handles := 1, forms := [2], pEnd := 68, blocks := 2,
      bad := scheme != 4 || par d 65 == 0 || decide (par d 65 > 3) || !keyBitsOk bits
      job := decide (pkPathValue scheme (par d 65) bits > jobLimit) }
  | 0x0804 =>
    { handles := 1, forms := [2], pEnd := 128, blocks := 2,
      bad := attrBad d || (decide (par d 96 ≤ 31) && !zeroIn d (97 + par d 96) 128) }
  | 0x0805 =>
    { forms := [2], pEnd := 99, blocks := 2, bad := attrBad d || decide (par d 98 > 15), lenBad := inLenOf d != 0,
      need := pubLen (par d 64) (leAt d 96 2), job := par d 64 == 0x18 }
  | 0x0806 => { handles := 1, forms := [2], pEnd := 96, blocks := 2, bad := attrBad d }
  | 0x0807 => { handles := 1, forms := [2], blocks := 2, lenBad := decide (inLenOf d > 4096), job := true }
  | 0x0808 => { handles := 1, forms := [2], pEnd := 66, blocks := 2 }
  | 0x0809 =>
    { mfOnly := true, forms := [2], pEnd := 66, blocks := 2, job := true,
      bad := (decide (par d 64 > 15) && par d 64 != 0xFF) || decide (par d 65 < 24) || decide (par d 65 > 66)
      lenBad := outCap d != 0 || inLenOf d != 6 * par d 65 + 1 }
  | _ => {}

/-! ## RANDOM (08 R279) -/

/-- Layout of RANDOM. -/
def randomInfo (d : Bytes) : OpInfo :=
  if formOf d = 2 then
    { part := false, forms := [0, 2], pEnd := 68, lenBad := inLenOf d != 0, need := leAt d 64 4, blocks := 2 }
  else { part := false, forms := [0, 2], pEnd := 65 }

end Sys2Proof.Machine
end

