-- ==== Sys2Proof/Machine/Rng.lean ====
section
/-! DEFINITION. The random number generator: noise sources, seeds, DRBG instances and RANDOM (08 R268, R272 to R279). -/

namespace Sys2Proof.Machine

/-! ## Health tests (08 R272, R273) -/

/-- The 1,024 samples of a window, first sample first: bit 0 of byte 0 is the first sample (DESIGN CHOICE, log 14). -/
def samplesOf (b : Bytes) : List Bool := b.flatMap (fun x => (List.range 8).map (fun i => x.getLsbD i))

/-- The longest run of equal samples: the previous sample, the present run and the longest so far. -/
def longestRun (l : List Bool) : Nat :=
  (l.foldl (fun (a : Option Bool × Nat × Nat) x =>
    let r := if a.1 = some x then a.2.1 + 1 else 1
    (some x, r, max a.2.2 r)) (none, 0, 0)).2.2

/-- The repetition count test with cutoff 61 passes. -/
def repOk (l : List Bool) : Bool := decide (longestRun l < 61)

/-- The adaptive proportion test with cutoff 840 passes: occurrences of the first sample in the window. -/
def propOk (l : List Bool) : Bool := decide ((l.filter (fun x => some x == l.head?)).length < 840)

/-- Healthy sources (08 R274). -/
def healthy (s : State) : Nat := (s.rng.srcs.filter (fun x => x.role == 1)).length

/-- Writes the RNG. -/
def State.setRng (s : State) (r : Rng) : State := { s with rng := r }

/-- Writes noise source `i`. -/
def setSrc (s : State) (i : Nat) (x : NoiseSrc) : State := s.setRng { s.rng with srcs := s.rng.srcs.set i x }

/-- A DRBG instance. -/
def inst (s : State) (i : Nat) : Drbg := s.rng.insts.getD i {}

/-- Writes a DRBG instance. -/
def setInst (s : State) (i : Nat) (x : Drbg) : State := s.setRng { s.rng with insts := s.rng.insts.set i x }

/-- An instance is STARVED (08 R277): RESEED_DUE with no seed taken, DEPLETED, and the pool empty. -/
def starved (s : State) (i : Nat) : Bool :=
  (inst s i).st == 2 && (inst s i).busy != 2 && s.rng.st == 2 && s.rng.pool.isEmpty

/-- A call ends RNG_UNAVAILABLE. The path cycles of that end are those of R116 for a PIN figure, which its context holds;
for the others they are open: a free value (log 3). -/
def rngUnavailable (s : State) (t c : Nat) : State :=
  let (s1, n) := s.takeFree
  let table := if opOf (workDesc s t c) / 256 = 1 then (s.ctx t c).work.vals.getD 0 0 else Config.freeValue n % 2 ^ 32
  finishCall { s1 with rng := { s1.rng with unavail := satAdd 32 s1.rng.unavail 1 } } t c stRngUnavail table 0 []

/-- The contexts that wait for instance 17. -/
def waits17 (s : State) : List (Nat × Nat) :=
  allCtx.filter (fun x => match firstNeed s x.1 x.2 with
    | some (.draw17 _) => true
    | _ => false)

/-- What follows when instances enter STARVED, against an earlier state: interrupts, and the end of the calls that wait
for instance 17 (08 R277, R279 to R281). -/
def starveCheck (old s : State) : State :=
  (List.range 18).foldl (fun a i =>
    if starved s i && !starved old i then
      let b := raise a pgRng 4
      if i = 17 then (waits17 b).foldl (fun d x => rngUnavailable d x.1 x.2) b else raise b (pgTower i) 2
    else a) s

/-- RNG_STATUS.STATE after a change of sources (08 R273, R274). Start-up ends when no source is under its test. -/
def rngState (s : State) : State :=
  let n := healthy s
  if s.rng.st = 0 then
    if s.rng.srcs.any (fun x => x.role == 3) then s
    else if n ≥ 2 then s.setRng { s.rng with st := 1 } else raise (s.setRng { s.rng with st := 2 }) pgRng 2
  else if s.rng.st = 1 ∧ n < 2 then raise (s.setRng { s.rng with st := 2 }) pgRng 2
  else if s.rng.st = 2 ∧ n ≥ 2 then raise (s.setRng { s.rng with st := 1 }) pgRng 3
  else s

/-- A source retires, and a spare source starts its start-up test (08 R273). -/
def retireSource (s : State) (i : Nat) (startup : Bool) : State :=
  let x := s.rng.srcs.getD i {}
  let s1 := raise (setSrc s i { x with role := 2, startupFailed := startup }) pgRng 1
  match s1.rng.srcs.findIdx? (fun y => y.role == 0) with
  | some j => setSrc s1 j { s1.rng.srcs.getD j {} with role := 3 }
  | none => s1

/-- A window of a source that is tested. -/
def noiseTested (s : State) (i : Nat) (w : Bytes) : State :=
  let x := s.rng.srcs.getD i {}
  let l := samplesOf w
  let ok := repOk l && propOk l
  let y := { x with
    recent := (ok :: x.recent).take 64
    windows := satAdd 32 x.windows 1
    repFails := if repOk l then x.repFails else satAdd 16 x.repFails 1
    propFails := if propOk l then x.propFails else satAdd 16 x.propFails 1 }
  if ok then
    let s1 := setSrc s i { y with role := 1 }
    s1.setRng { s1.rng with windows := s1.rng.windows ++ [(i, w)] }
  else if x.role = 3 then retireSource (setSrc s i y) i true
  else if (y.recent.filter (fun b => !b)).length ≥ 3 then retireSource (setSrc s i y) i false
  else setSrc s i y

/-- NOISE_WINDOW (08 R272 to R274): only sources in service or under their start-up test yield windows; in SCRAP and LOST the
RNG is not started (14 R392). -/
def execNoiseWindow (src : Nat) (samples : Bytes) (s : State) : Out :=
  match s.rng.srcs[src]? with
  | none => .next s
  | some x =>
    if (x.role = 1 ∨ x.role = 3) ∧ s.lcs.st < 5 then
      .next (degradeCheck (starveCheck s (rngState (noiseTested s src (fit 128 samples)))))
    else .next s

/-! ## Seeds (08 R275, R278) -/

/-- The two oldest windows that come from different sources, and the windows that remain. -/
def windowPair : List (Nat × Bytes) → Option (Bytes × Bytes × List (Nat × Bytes))
  | [] => none
  | x :: r => match r.findIdx? (fun y => y.1 != x.1) with
    | some i => some (x.2, (r.getD i (0, [])).2, r.eraseIdx i)
    | none => none

/-- SEED_READY (08 R275): the digest of two passed windows of different sources enters the pool of 4. -/
def execSeedReady (s : State) : Out :=
  if s.rng.st ≠ 1 ∨ s.rng.pool.length ≥ 4 then .next s
  else match windowPair s.rng.windows with
    | none => .next s
    | some (a, b, r) =>
      .next (s.setRng { s.rng with
        windows := r, pool := s.rng.pool ++ [sha3_256 (a ++ b)], seeds := (s.rng.seeds + 1) % 2 ^ 64 })

/-- An instance waits for a seed (08 R276): it is not seeded and its tower is in service or draining (R436), or has passed the test before
it enters service (15 R436); or it is RESEED_DUE with no reseed in progress. -/
def wantsSeed (s : State) (i : Nat) : Bool :=
  let x := inst s i
  let up := i == 17 || s.sup.roles.getD i 2 == 1 || s.sup.roles.getD i 2 == 3 || (s.sup.spareReady && (s.sup.replacing.map (·.2)) == some i)
  up && ((x.st == 0) || (x.st == 2 && x.busy == 0))

/-- The instance that receives the next seed: tower instances first, the earliest due, ties to the lower number
(08 R278). -/
def seedTurn (s : State) : Option Nat :=
  match bestBy (fun i => 2 ^ 70 - (inst s i).due) ((List.range 17).filter (wantsSeed s)) with
  | some i => some i
  | none => if wantsSeed s 17 then some 17 else none

/-! ## CTR_DRBG with AES-256 and the derivation function (SP 800-90A, which R276 names; PRESUMED, log 5) -/

/-- The derivation function to 48 bytes. -/
def drbgDf (input : Bytes) : Bytes :=
  let m := beBytes 4 input.length ++ beBytes 4 48 ++ input ++ [0x80]
  let k0 : Bytes := (List.range 32).map (BitVec.ofNat 8)
  let bcc := fun (i : Nat) => cbcMacL (aesC k0) (zeros 16) (chunks 16 (padM1 16 (beBytes 4 i ++ zeros 12 ++ m)))
  let t := bcc 0 ++ bcc 1 ++ bcc 2
  let k := t.take 32
  let x1 := aesEnc k (t.drop 32)
  let x2 := aesEnc k x1
  x1 ++ x2 ++ aesEnc k x2

/-- Blocks of the counter from V + 1. -/
def drbgBlocks (k : Bytes) (v n : Nat) : Bytes :=
  (List.range n).flatMap (fun i => aesEnc k (beBytes 16 ((v + i + 1) % 2 ^ 128)))

/-- The update step. -/
def drbgUpdate (x : Drbg) (d : Bytes) : Drbg :=
  let t := xorB (drbgBlocks (fit 32 x.key) (beVal (fit 16 x.v)) 3) (fit 48 d)
  { x with key := t.take 32, v := t.drop 32 }

/-- Instantiate: entropy, nonce and personalization string. -/
def drbgInit (x : Drbg) (entropy nonce pers : Bytes) : Drbg :=
  drbgUpdate { x with key := zeros 32, v := zeros 16 } (drbgDf (entropy ++ nonce ++ pers))

/-- Generate `n` bytes. -/
def drbgGen (x : Drbg) (n : Nat) : Drbg × Bytes :=
  let b := ceilDiv n 16
  let v := beVal (fit 16 x.v)
  (drbgUpdate { x with v := beBytes 16 ((v + b) % 2 ^ 128) } (zeros 48), (drbgBlocks (fit 32 x.key) v b).take n)

/-! ## The instances (08 R276, R277) -/

/-- The personalization string: the device serial, 8 bytes little-endian, then the instance number, 1 byte (widths and
order DESIGN CHOICE, log 14). -/
def personal (s : State) (i : Nat) : Bytes := leBytes 8 s.fuse.serial ++ leBytes 1 i

/-- DRBG_INSTANTIATE (08 R276): two seeds, the second one's leftmost 128 bits as nonce. A spare tower
that waits for it enters service (15 R436). -/
def execDrbgInstantiate (i : Nat) (s : State) : Out :=
  match s.rng.pool with
  | a :: b :: r =>
    if (inst s i).st = 0 ∧ seedTurn s = some i then
      let s1 := s.setRng { s.rng with pool := r }
      .next (spareSettle (starveCheck s (setInst s1 i { drbgInit (inst s i) a (b.take 16) (personal s i) with st := 1, reqs := 0 })))
    else .next s
  | _ => .next s

/-- Instances that no DRBG_INSTANTIATE has instantiated are, as the device starts up with its RNG serving: each from two seeds of its own,
which are free (08 R276; 16 R445; log 3). -/
def startDrbgs (s : State) : State :=
  if s.rng.st ≠ 1 then s
  else ((List.range 18).filter (fun i => wantsSeed s i && (inst s i).st == 0)).foldl (fun a i =>
    let (a1, x) := a.takeBytes 32
    let (a2, y) := a1.takeBytes 32
    let a3 := a2.setRng { a2.rng with seeds := (a2.rng.seeds + 2) % 2 ^ 64 }
    setInst a3 i { drbgInit (inst a3 i) x (y.take 16) (personal s i) with st := 1, reqs := 0 }) s

/-- DRBG_RESEED (08 R276): the instance takes one seed; its reseed lasts 56 cycles. -/
def execDrbgReseed (i : Nat) (s : State) : Out :=
  match s.rng.pool with
  | a :: r =>
    if (inst s i).st = 2 ∧ (inst s i).busy = 0 ∧ seedTurn s = some i then
      let s1 := s.setRng { s.rng with pool := r }
      .next (starveCheck s (setInst s1 i { inst s i with busy := 2, left := 56, seed := a }))
    else .next s
  | _ => .next s

/-- DRBG_GENERATE (08 R277): a tower instance starts a 64-byte request while its buffer holds 192 bytes or fewer. -/
def execDrbgGenerate (i : Nat) (s : State) : Out :=
  let x := inst s i
  if i < 17 ∧ x.st = 1 ∧ x.busy = 0 ∧ (s.tower i).buf.length ≤ 192 then
    .next (setInst s i { x with busy := 1, left := 56, reqs := x.reqs + 1 })
  else .next s

/-- An instance enters RESEED_DUE after exactly 4,096 requests (08 R276). -/
def reseedDue (s : State) (x : Drbg) : Drbg := if x.reqs ≥ 4096 ∧ x.st = 1 then { x with st := 2, due := s.cycle } else x

/-- N of a RANDOM call (08 R279). -/
def randomN (d : Bytes) : Nat := if formOf d = 2 then leAt d 64 4 else byteAt d 64

/-- A context with RANDOM that was dispatched before this one (08 R279). -/
def randomEarlier (s : State) (t c : Nat) : Bool :=
  allCtx.any (fun x => x != (t, c) && opOf (workDesc s x.1 x.2) == 0x0901 &&
    decide ((s.ctx x.1 x.2).work.vals.getD 0 0 < (s.ctx t c).work.vals.getD 0 0))

/-- A draw from a tower's buffer. -/
def Need.isDraw : Need → Bool
  | .draw _ => true
  | _ => false

/-- A draw from instance 17. -/
def Need.isDraw17 : Need → Bool
  | .draw17 _ => true
  | _ => false

/-- The call in dispatch order that waits for instance 17 goes on, where the instance serves (08 R279); the others that wait for it are not
stalled then (10 R315). -/
def release17 (s : State) : State :=
  let go := (waits17 s).filter (fun x => !randomEarlier s x.1 x.2)
  if (inst s 17).st ≠ 1 ∨ go.isEmpty then s
  else unstall (go.foldl (fun a x => popNeed a x.1 x.2) s) (fun _ n => n.isDraw17)

/-- DRBG_REQUEST_DONE (08 R276, R277): the 56 cycles of a request are over. -/
def execDrbgRequestDone (i : Nat) (s : State) : Out :=
  let x := inst s i
  if x.busy = 0 ∨ x.left ≠ 0 then .next s
  else if x.busy = 2 then
    let y := drbgUpdate x (drbgDf x.seed)
    let s1 := setInst s i { y with st := 1, reqs := 0, busy := 0, seed := [], reseeds := satAdd 32 x.reseeds 1 }
    .next (if i = 17 then release17 s1 else s1)
  else
    let (y, out) := drbgGen x 64
    let s1 := setInst s i (reseedDue s { y with busy := 0 })
    let w := s1.tower i
    .next (starveCheck s (s1.setTower i { w with buf := w.buf ++ out }))

/-! ## Draws (08 R268, R277) -/

/-- The length of the draw that a context waits for. -/
def drawLen (s : State) (t c : Nat) : Option Nat :=
  match firstNeed s t c with
  | some (.draw n) => some n
  | _ => none

/-- CLASS of the call in a context. -/
def ctxCls (s : State) (t c : Nat) : Nat := ((s.ctx t c).call.map Call.cls).getD 3

/-- Rank of a waiting context: class, urgent first, then age, then the lower context (08 R256, R277). -/
def ctxRank (s : State) (t c : Nat) : Nat := (3 - min 3 (ctxCls s t c)) * 2 ^ 64 + min (s.ctx t c).age (2 ^ 64 - 1)

/-- The draw that the buffer serves next. -/
def drawTurn (s : State) (t : Nat) : Option Nat :=
  bestBy (ctxRank s t) (ctxIds.filter (fun c => (drawLen s t c).isSome))

/-- DRBG_DRAW (08 R268, R277): the highest-ranked waiting draw is served whole, or its call ends RNG_UNAVAILABLE. In the cycle of a draw no
other that waits for the buffer is stalled (10 R315). -/
def execDrbgDraw (tower : Nat) (s : State) : Out :=
  match drawTurn s tower with
  | none => .next s
  | some c =>
    let n := (drawLen s tower c).getD 0
    let w := s.tower tower
    if n ≤ w.buf.length then
      let s1 := s.setTower tower { w with buf := w.buf.drop n, draws := satAdd 32 w.draws 1 }
      let x := s1.ctx tower c
      .next (unstall (popNeed (s1.setCtx tower c { x with work := { x.work with drawn := x.work.drawn ++ w.buf.take n } }) tower c)
        (fun t m => t == tower && m.isDraw))
    else if starved s tower then .next (rngUnavailable s tower c)
    else .next s

/-! ## RANDOM (08 R279) -/

/-- N is in the range of the form. -/
def randomOk (d : Bytes) : Bool :=
  decide (1 ≤ randomN d) && decide (randomN d ≤ (if formOf d = 2 then 65536 else 48))

/-- RANDOM's figure: one request on instance 17, in dispatch order. While an earlier call has the instance, or it is not SERVING, the
call waits with wait cycles; where it is STARVED the call ends RNG_UNAVAILABLE. -/
def randomFig (t c : Nat) (s : State) : State :=
  let d := workDesc s t c
  let n := randomN d
  let x := inst s 17
  if starved s 17 then rngUnavailable s t c
  else if randomEarlier s t c || x.st != 1 then setNeeds s t c [.draw17 n]
  else
    let (y, out) := drbgGen x n
    let s1 := starveCheck s (setInst s 17 (reseedDue s { y with reqs := x.reqs + 1 }))
    if formOf d = 2 then
      let (s2, ok) := writeOut s1 t c out
      release17 (if ok then finishCall s2 t c stOk (34 + 8 * ceilDiv n 16) 0 [] else s2)
    else release17 (finishCall s1 t c stOk (35 + 8 * ceilDiv n 16) 0 out)

/-- RANDOM. -/
def execRandomCall (tower ctx : Nat) (fault : FigFault) (s : State) : Out :=
  .next (runFigure s tower ctx 0x0901 fault (randomFig tower ctx))

end Sys2Proof.Machine
end

