-- ==== Sys2Proof/Machine/Grants.lean ====
section
/-! DEFINITION. Grants of shared resources and the stall watchdog (07 R224, R225; 08 R256 to R271; 09 R283, R288; 10 R307
to R316). -/

namespace Sys2Proof.Machine

/-- The call in a context is a job, or carries one (03 R98, R102). -/
def isJobCtx (s : State) (t c : Nat) : Bool := ((s.ctx t c).call.map (·.isJob)).getD false || (jobAt s t c).isSome

/-- Age `i` of a context: 0 ARB_KEEP, 1 ARB_SPIRE, 2 ARB_DMA. -/
def arbAge (s : State) (t c i : Nat) : Nat := (s.ctx t c).arbAge.getD i 0

/-- Writes age `i` of a context. -/
def setArbAge (s : State) (t c i v : Nat) : State :=
  let x := s.ctx t c
  s.setCtx t c { x with arbAge := x.arbAge.set i v }

/-! ## The ownership directory (07 R224, R225) -/

/-- The ownership that a context asks for. -/
def keepAsk (s : State) (t c : Nat) : Option (List Nat × Bool) :=
  match firstNeed s t c with
  | some (.keep l e) => if (s.ctx t c).st = .waiting then some (l, e) else none
  | _ => none

/-- A line is free for a request: not in WRITING nor in a page in write-back ownership, and held by no context, or by readers only where
the request is shared. -/
def lineFree (s : State) (k : Nat) (excl : Bool) : Bool :=
  !(keyCls k == 1 && pageHeld s (payLine s (keyPart k) (keyIdx k) / 64)) && !(((s.keep.lines.find? (fun e => e.1 == k)).map (fun e => e.2.st == .writing)).getD false) &&
    !(allCtx.any (fun x => (s.ctx x.1 x.2).grant.contains k && (excl || (s.ctx x.1 x.2).grantExcl)))

/-- The figure request of a tower: by class, then age, then the lower context (10 R308). -/
def keepOfTower (s : State) (t : Nat) : Option Nat :=
  bestBy (fun c => (3 - min 3 (ctxCls s t c)) * 2 ^ 32 + arbAge s t c 0) (ctxIds.filter (fun c => (keepAsk s t c).isSome))

/-- The first page of the lock that a vault job asks for next (07 R242). -/
def lockFirst (s : State) (t c : Nat) : Nat :=
  let op := opOf (workDesc s t c)
  let w := (s.ctx t c).work
  if op = 0x0A02 then leAt (workDesc s t c) 64 8 + w.progress
  else if op = 0x0A05 then payLine s (leAt (workDesc s t c) 66 2) 0 / 64 + w.progress else w.progress

/-- The pages whose locks the vault engine waits for: for its jobs, and for pages that the next batch re-enciphers (07 R237, R242). -/
def lockPages (s : State) : List Nat :=
  s.vault.asked ++ (allCtx.filter (fun x => firstNeed s x.1 x.2 == some .page && (s.ctx x.1 x.2).st == .waiting)).flatMap (fun x =>
    let pg := lockFirst s x.1 x.2
    (List.range (lockSpan s pg)).map (pg + ·))

/-- The lines of the pages whose locks the vault engine waits for, and of the rows whose locks the sparing controller waits for: these
requests are decided before the figures' ones, and block those that share a line with them (07 R225, R242; 15 R434). -/
def pageClaims (s : State) : List Nat :=
  let pgs := lockPages s
  let hit := fun (k : Nat) => keyCls k == 1 && pgs.contains (payLine s (keyPart k) (keyIdx k) / 64)
  let rows := s.sup.rowsWaiting.flatMap (fun r => (rowLines s r).map (·.1))
  if pgs.isEmpty then rows
  else rows ++ (s.keep.lines.map (·.1) ++ (allCtx.filterMap (fun x => (keepAsk s x.1 x.2).map (·.1))).flatten).filter hit

/-- The requests of a decision cycle in ARB_KEEP order: `n` bounds their number. -/
def keepOrder (s : State) : Nat → List (Nat × Nat) → List (Nat × Nat)
  | 0, _ => []
  | n + 1, l => match bestBy (fun x => s.caller.arbKeep.eff (ctxCls s x.1 x.2) (arbAge s x.1 x.2 0)) l with
    | none => []
    | some x => x :: keepOrder s n (l.filter (· != x))

/-- Decides the requests in order: a request that is not granted blocks later ones that share a line with it. The result
names the requests granted. -/
def keepDecide : State → List (Nat × Nat) → List Nat → State × List (Nat × Nat)
  | s, [], _ => (s, [])
  | s, x :: r, blocked => match keepAsk s x.1 x.2 with
    | none => keepDecide s r blocked
    | some (ls, e) =>
      if ls.all (fun k => lineFree s k e && !blocked.contains k) then
        let y := s.ctx x.1 x.2
        let s1 := s.setCtx x.1 x.2 { y with
          grant := y.grant ++ ls, grantExcl := e || (y.grantExcl && !y.grant.isEmpty), work256 := if y.grant.isEmpty then 0 else y.work256 }
        let (s2, g) := keepDecide (popNeed s1 x.1 x.2) r blocked
        (s2, x :: g)
      else keepDecide s r (blocked ++ ls)

/-- A need of Keep ownership. -/
def Need.isKeep : Need → Bool
  | .keep _ _ => true
  | _ => false

/-- KEEP_GRANT: one decision cycle of the directory (07 R225; 10 R309). `fault`: in this cycle an uncorrectable error in its context
buffer ends the call of this context. If it has just been granted, that is a withdrawal after grant (10 R311, R318). -/
def execKeepGrant (s0 : State) (fault : Option (Nat × Nat) := none) : Out :=
  let s := commitArb s0
  let reqs := (List.range 17).filterMap (fun t => (keepOfTower s t).map (fun c => (t, c)))
  let order := keepOrder s reqs.length reqs
  let (s1, g) := keepDecide s order (pageClaims s)
  if g.isEmpty ∨ s.cycle < s.caller.arbKeep.dead then .next s
  else
    let lost := order.filter (fun x => !g.contains x)
    let a := s.caller.arbKeep
    let kept := g.filter (fun x => some x != fault)
    let s2 := lost.foldl (fun b x => setArbAge b x.1 x.2 0 (a.aged (ctxCls s x.1 x.2) (arbAge s x.1 x.2 0))) s1
    let s3 := kept.foldl (fun b x => setArbAge b x.1 x.2 0 0) s2
    let a1 := kept.foldl (fun b x => b.count (a.eff (ctxCls s x.1 x.2) (arbAge s x.1 x.2 0)) 0) a
    let a2 := if kept.length < g.length then a1.withdrawn s.cycle else a1
    let s4 := unstall { s3 with caller := { s3.caller with arbKeep := { a2 with lost := satAdd 32 a.lost lost.length } } }
      (fun _ n => n.isKeep)
    .next (match fault with
      | some (t, c) => if g.contains (t, c) then eccFault s4 t c else s4
      | none => s4)

/-- GRANT_REVOKE (07 R224): the holder has used 256 working cycles. -/
def execGrantRevoke (tower ctx : Nat) (s : State) : Out :=
  let x := s.ctx tower ctx
  if x.call.isNone ∨ x.grant.isEmpty ∨ x.work256 < 256 then .next s
  else
    let s1 := raise { s with keep := { s.keep with revokes := satAdd 32 s.keep.revokes 1 } } pgKeep 3
    .next (deviceFault s1 tower ctx)

/-! ## Lanes (08 R256 to R271; 10 R307) -/

/-- The context holds lanes of a kind. -/
def holdsLanes (s : State) (t : Nat) (hash : Bool) (c : Nat) : Bool := ((s.tower t).lanes hash).any (fun l => l.owner == some c)

/-- The lane request of a context: count and configuration. Cipher lanes are asked for once the hash lanes have been released (10 R314). -/
def laneAsk (s : State) (t : Nat) (hash : Bool) (c : Nat) : Option (Nat × Nat) :=
  match firstNeed s t c with
  | some (.lanes h n cfg) => if h = hash ∧ (s.ctx t c).st = .waiting ∧ (hash ∨ !holdsLanes s t true c) then some (n, cfg) else none
  | _ => none

/-- The contexts that wait for lanes of a kind. -/
def laneWaiters (s : State) (t : Nat) (hash : Bool) : List Nat := ctxIds.filter (fun c => (laneAsk s t hash c).isSome)

/-- The free in-service lanes of a kind. -/
def freeLanes (s : State) (t : Nat) (hash : Bool) : List Nat :=
  (((s.tower t).lanes hash).zipIdx.filter (fun p => p.1.role == 1 && p.1.owner.isNone && !p.1.faulty)).map (·.2)

/-- A need of lanes of a kind. -/
def Need.isLanes (hash : Bool) : Need → Bool
  | .lanes h _ _ => h == hash
  | _ => false

/-- The state that a hash lane begins with: an HMAC's inner state, which its key carries, or the hash's own (05 R156; 08 R263). `h` is the
HASH that a Spire opcode names. -/
def hashStart (hmac : Option Bytes) (cfg h : Nat) : Bytes :=
  match hmac with
  | some b => b
  | none =>
    if cfg = 1 then shaH256.flatMap (beBytes 4)
    else if cfg = 3 then zeros 200
    else (if h = 3 then shaH512 else shaH384).flatMap (beBytes 8)

/-- The root slot's lane for records of a partition: it loads the DMK under which they are written, CURRENT or NEXT, and derives the
partition root and RWRP (06 R174, R175; 08 R261, R262). -/
def rootLane (s : State) (p : Nat) : LaneRegs :=
  match writeDmk s with
  | some dmk => ((({} : LaneRegs).loadDmk dmk).derivePart (bindDigest s p) p (pversion s p)).deriveOpaque "RWRP" p
  | none => {}

/-- The registers of the `i`-th lane that a context is granted: a cipher lane's key register holds the key that it works with and what that
key carries, or for a record to be written the lane derives its root; a hash lane holds its first state, of an HMAC the one that the key
carries (05 R156, R162; 08 R257, R261, R262). -/
def grantRegs (s : State) (t c : Nat) (hash : Bool) (cfg i : Nat) : LaneRegs :=
  let d := workDesc s t c
  let op := opOf d
  let k := keyOf s t c (min i ((s.ctx t c).keys.length - 1))
  if hash then
    (if op / 256 = 4 then
      { key := k.material, acc := hashStart (some ((hmacStates k.material).getD (2 * (par d 64 - 6)) [])) cfg 0 }
    else { acc := hashStart none cfg (if op / 256 = 8 then par d 65 else 2) })
  else if cfg = 4 ∧ op ≠ 0x0704 ∧ (op / 256 = 7 ∨ op / 256 = 8) then rootLane s (partOf d)
  else { key := k.material, sub := if k.usage = beVal (ascii "M6") then keySub k else keyHsub k }

/-- CONFIG of a cipher lane for an algorithm (08 R281). -/
def cfgOfAlg (alg : Nat) : Nat := if isAes alg then 1 else 2

/-- CONFIG of the `i`-th lane of a grant: that of the request; the second lane of DATA_TRANSLATE runs the destination key's algorithm
(05 R163). -/
def laneCfg (s : State) (t c : Nat) (hash : Bool) (cfg i : Nat) : Nat :=
  if !hash ∧ i = 1 ∧ opOf (workDesc s t c) = 0x0503 then cfgOfAlg (keyOf s t c 1).alg else cfg

/-- The lock register and the registers of the `i`-th lane granted to a context: those of its save area, where it has one (08 R257,
R270). A root slot and an opaque key are not saved; they are loaded again (R261). -/
def grantLane (s : State) (t : Nat) (hash : Bool) (c cfg i : Nat) (l : Lane) : Lane :=
  let fresh := grantRegs s t c hash cfg i
  let m := { l with owner := some c, marked := false, testing := false }
  match ((s.ctx t c).saved.filter (fun v => v.hash == hash))[i]? with
  | some v => { m with config := v.config, regs := if v.regs.opaque_ then fresh else { v.regs with root := fresh.root } }
  | none => { m with config := laneCfg s t c hash cfg i, regs := fresh }

/-- Writes the lock registers of the granted lanes; saved state is restored, in 2 wait cycles where the lane had been preempted, and in none
where the figure had released it itself (08 R257, R259, R270). -/
def grantLanes (s : State) (t : Nat) (hash : Bool) (c cfg : Nat) (ls : List Nat) : State :=
  let s1 := ls.zipIdx.foldl (fun a e => modLane a t hash e.1 (grantLane s t hash c cfg e.2)) s
  let x := s1.ctx t c
  let back := x.saved.any (fun v => v.hash == hash && !v.own)
  popNeed (s1.setCtx t c { x with
    waits := x.waits + (if back then 2 else 0), laneAge := x.age, saved := x.saved.filter (fun v => v.hash != hash) }) t c

/-- Decides the pending requests of a kind in order, until one is not granted. The contexts granted are named. -/
def laneDecide (t : Nat) (hash : Bool) : Nat → State → List Nat → State × List Nat
  | 0, s, _ => (s, [])
  | n + 1, s, l => match bestBy (ctxRank s t) l with
    | none => (s, [])
    | some c => match laneAsk s t hash c with
      | none => (s, [])
      | some (k, cfg) =>
        let free := freeLanes s t hash
        if k ≤ free.length then
          let (s1, g) := laneDecide t hash n (grantLanes s t hash c cfg (free.take k)) (l.filter (· != c))
          (s1, c :: g)
        else (s, [])

/-- Puts a lane into a list ordered by the end of the operation in progress, then by number (10 R307). -/
def insertLane (ends : List Nat) (i : Nat) : List Nat → List Nat
  | [] => [i]
  | j :: r => if ends.getD i 0 < ends.getD j 0 ∨ (ends.getD i 0 = ends.getD j 0 ∧ i ≤ j) then i :: j :: r else j :: insertLane ends i r

/-- Marks held lanes for the urgent requests that are not granted: bulk holders before normal ones, then the lane whose operation in
progress ends soonest, then the lower lane number (10 R307). `ends` gives, by lane, the cycles until that operation ends (log 15). -/
def markLanes (s : State) (t : Nat) (hash : Bool) (ends : List Nat) : State :=
  let urgent := (laneWaiters s t hash).filter (fun c => ctxCls s t c == 0)
  let want := (urgent.map (fun c => ((laneAsk s t hash c).map (·.1)).getD 0)).sum
  let ls := ((s.tower t).lanes hash).zipIdx
  let marked := (ls.filter (fun p => p.1.marked)).length
  let cand := fun (k : Nat) => ((ls.filter (fun p => p.1.role == 1 && !p.1.marked &&
    (p.1.owner.map (fun c => ctxCls s t c == k)).getD false)).map (·.2)).foldr (insertLane ends) []
  let pick := (cand 3 ++ cand 2).take (want - (freeLanes s t hash).length - marked)
  let s1 := pick.foldl (fun a i => modLane a t hash i (fun l => { l with marked := true })) s
  { s1 with caller := { s1.caller with preempts := satAdd 32 s1.caller.preempts pick.length } }

/-- Needs that begin with the request for one more lane of a kind: a lane joins the request of the same kind that its
saved neighbour has made. -/
def askBack (x : Ctx) (hash : Bool) (cfg : Nat) (l : List Need) : List Need :=
  match l with
  | .lanes h k cf :: r =>
    if h = hash ∧ x.saved.any (fun v => v.hash == hash) then .lanes h (k + 1) cf :: r else .lanes hash 1 cfg :: l
  | _ => .lanes hash 1 cfg :: l

/-- The needs of a context after one more of its lanes of a kind has been saved: cipher lanes before hash lanes (10 R314). -/
def savedNeeds (x : Ctx) (hash : Bool) (cfg : Nat) : List Need :=
  match x.needs with
  | .lanes false k cf :: r => if hash then .lanes false k cf :: askBack x hash cfg r else askBack x hash cfg x.needs
  | l => askBack x hash cfg l

/-- LANE_SAVE (08 R269, R270, R271): the holder of a marked lane saves the lane's state in 2 wait cycles and asks for a lane again with
its age; its other lanes follow at their own boundaries, while it waits. A fault during the save ends the call. -/
def execLaneSave (tower : Nat) (hash : Bool) (i : Nat) (fault : Bool) (s : State) : Out :=
  match ((s.tower tower).lanes hash)[i]? with
  | none => .next s
  | some l => match l.owner with
    | none => .next s
    | some c =>
      if !l.marked then .next s
      else if fault then .next (laneFault s tower c hash i)
      else
        let x := s.ctx tower c
        let s1 := modLane s tower hash i Lane.free
        let mark := fun (m : Lane) => if m.owner = some c then { m with marked := true } else m
        let w := s1.tower tower
        let s2 := s1.setTower tower { w with
          clanes := w.clanes.map mark, hlanes := w.hlanes.map mark
          lanePreempts := if x.saved.isEmpty then satAdd 32 w.lanePreempts 1 else w.lanePreempts }
        .next (retireIdle (s2.setCtx tower c { x with
          saved := x.saved ++ [{ hash := hash, config := l.config, regs := l.regs.toSave }]
          needs := savedNeeds x hash l.config, st := .waiting, saving := true
          waits := if x.st == .waiting then x.waits else x.waits + 2
          stall := 0, age := if x.saved.isEmpty then x.laneAge else x.age }) tower hash)

/-! ## The Spire (09 R283, R288; 10 R308) -/

/-- The halves' owners. -/
def Spire.owners (x : Spire) : List Nat := [x.half0, x.half1].filterMap id

/-- The contexts that wait for a half of the tower's Spire and hold none. -/
def spireWaiters (s : State) (t : Nat) : List Nat :=
  ctxIds.filter (fun c => firstNeed s t c == some .spire && (s.ctx t c).st == .waiting && !(s.tower t).spire.owners.contains c)

/-- A half may go to the context: a job needs that no job is resident, another call that no other call holds a half. -/
def spireEligible (s : State) (t c : Nat) : Bool :=
  let x := (s.tower t).spire
  if isJobCtx s t c then x.resident.isNone else x.owners.all (fun o => x.resident == some o)

/-- Gives a free half to a context: a call beside a resident job runs once the job has yielded to it (R288). -/
def giveHalf (s : State) (t c : Nat) : State :=
  let w := s.tower t
  let x := w.spire
  let y := if x.half0.isNone then { x with half0 := some c } else { x with half1 := some c }
  let job := isJobCtx s t c
  let s1 := s.setTower t { w with spire := { y with
    resident := if job then some c else y.resident, testing := false } }
  if job || x.resident.isNone then popNeed s1 t c else s1

/-- The call that is not a job and holds a half. -/
def spireGuest (x : Spire) : Option Nat := x.owners.find? (fun c => x.resident != some c)

/-- A need of the Spire. -/
def Need.isSpire : Need → Bool
  | .spire => true
  | _ => false

/-- The call that holds a half beside a job and waits for the switch. -/
def spireWaiting (s : State) (t : Nat) : Option Nat :=
  (spireGuest (s.tower t).spire).filter (fun c => firstNeed s t c == some .spire && (s.ctx t c).st == .waiting)

/-- A call that waits for the switch, and whose job has left the Spire, has the Spire to itself; on a failed Spire it ends DEVICE_FAULT
(09 R283, R299). -/
def spireSettle (s : State) (t : Nat) : State :=
  match spireWaiting s t with
  | none => s
  | some c =>
    if (s.tower t).spire.retired then deviceFault s t c
    else if (s.tower t).spire.resident.isNone then popNeed s t c else s

/-- SPIRE_GRANT: one round of a tower's ARB_SPIRE (09 R283; 10 R308, R309). A call that gets its half beside a resident
job runs once the job has yielded (R288). On a failed Spire each request ends DEVICE_FAULT (15 R435). `fault`: the Spire's
residue check fails in the cycle of the grant (10 R318). -/
def execSpireGrant (tower : Nat) (fault : Bool) (s0 : State) : Out :=
  let s := spireSettle (commitArb s0) tower
  let x := (s.tower tower).spire
  let ws := spireWaiters s tower
  if x.retired then .next (ws.foldl (fun a c => deviceFault a tower c) s)
  else if (x.half0.isSome ∧ x.half1.isSome) ∨ s.cycle < x.dead then .next s
  else
    let a := s.caller.arbSpire
    let eff := fun c => a.eff (ctxCls s tower c) (arbAge s tower c 1)
    match bestBy eff (ws.filter (spireEligible s tower)) with
    | none => .next s
    | some c =>
      let losers := ws.filter (· != c)
      let s1 := losers.foldl (fun b d => setArbAge b tower d 1 (a.aged (ctxCls s tower d) (arbAge s tower d 1))) s
      if fault then
        let w := s1.tower tower
        let s2 := s1.setTower tower { w with spire := { w.spire with dead := s.cycle + 1 } }
        let s3 := { s2 with caller := { s2.caller with
          arbSpire := { a.withdrawn s.cycle with lost := satAdd 32 a.lost losers.length, dead := a.dead } } }
        .next (retireSpire (deviceFault (countSpireFault s3 tower) tower c) tower)
      else
        let s2 := { s1 with caller := { s1.caller with arbSpire := a.count (eff c) losers.length } }
        .next (unstall (giveHalf (setArbAge s2 tower c 1 0) tower c) (fun t n => t == tower && n.isSpire))

/-- The resident job of a tower waits for its Spire from now on (09 R288; 10 R321). -/
def yieldJob (s : State) (t r : Nat) : State :=
  let x := s.ctx t r
  s.setCtx t r { x with needs := .spire :: x.needs, st := .waiting, stall := 0, age := 0 }

/-- SPIRE_SWITCH (09 R288): the resident job, at a yield point, yields to the waiting call, or the Spire goes back to the job after that
call's last command; then the job runs at least to its next yield point. A fault during the switch ends the call that was switching in
(10 R318). -/
def execSpireSwitch (tower : Nat) (fault : Bool) (s0 : State) : Out :=
  let s := spireSettle s0 tower
  let w := s.tower tower
  let x := w.spire
  match x.resident with
  | none => .next s
  | some r =>
    let addWait := fun (a : State) (c : Nat) => let y := a.ctx tower c; a.setCtx tower c { y with waits := y.waits + 4 }
    if x.switched then
      if (spireGuest x).isSome && (spireWaiting s tower).isNone then .next s
      else if fault then .next (deviceFault s tower r)
      else
        .next (popNeed (addWait (s.setTower tower { w with spire := { x with switched := false, owed := true } }) r) tower r)
    else match spireWaiting s tower with
      | none => .next s
      | some c =>
        if x.owed then .next s
        else if fault then .next (deviceFault s tower c)
        else
          let s1 := s.setTower tower { w with spire := { x with switched := true, yields := satAdd 32 x.yields 1 } }
          .next (popNeed (addWait (yieldJob s1 tower r) c) tower c)

/-! ## ARB_DMA (10 R308; 13 R379) -/

/-- The context waits for a vault fetch. -/
def Need.isFill : Need → Bool
  | .fill _ => true
  | .fillLine _ => true
  | _ => false

/-- The page of the line that a fill begins with is in write-back ownership: the fill waits (07 R242). -/
def fillHeld (s : State) (t c : Nat) (n : Need) : Bool :=
  let d := workDesc s t c
  match n with
  | .fill i => pageHeld s (payLine s (partOf d) (hIdx (handleOf d i)) / 64)
  | .fillLine idx => pageHeld s (payLine s (partOf d) idx / 64)
  | _ => false

/-- The needs of a call's key fetch at the head of a list: the keys that it waits for, side by side (01 R30). -/
def keyRun : List Need → List Need
  | .fill i :: r => .fill i :: keyRun r
  | .line i :: r => .line i :: keyRun r
  | _ => []

/-- The fetches that a context's needs name now: those of every missed key in parallel (01 R30), or the line that its figure works on. -/
def fillsOf (l : List Need) : List Need :=
  match l with
  | .fillLine j :: _ => [.fillLine j]
  | _ => (keyRun l).filter Need.isFill

/-- The fetch of a context that the vault engine asks for next: the first that it has not asked for, has not brought, and whose page is not
in write-back ownership. -/
def fillNext (s : State) (t c : Nat) : Option Need :=
  let x := s.ctx t c
  if x.st ≠ .waiting then none
  else (fillsOf x.needs).find? (fun n => !x.asked.contains n && !x.ready.any (fun e => e.1 == n) && !fillHeld s t c n)

/-- The vault fetch that the vault engine asks ARB_DMA for: of the waiting call with the earliest cycle 0 that names one, while the vault is
ONLINE. A fetch counts as one read (DESIGN CHOICE, log 96). -/
def fillAsk (s : State) : Option (Nat × Nat) :=
  if s.vault.st ≠ 3 then none
  else bestBy (fun x => 2 ^ 70 - ((s.ctx x.1 x.2).call.map (·.seq)).getD 0) (allCtx.filter (fun x => (fillNext s x.1 x.2).isSome))

/-- The completion and MSI-X writer has a message to send, or a completion that may be written and no grant that it has not used. -/
def cplAsk (s : State) : Bool :=
  decide (s.hif.msiWaiting > 0) || (!s.hif.cplGranted && s.hif.cpls.any (fun c => cplOpen s c.fn c.qp))

/-- A queue pair with a descriptor read that ARB_DMA has not granted: its table number. -/
def descAsk (s : State) : Option Nat :=
  (s.hif.qps.find? (fun e => e.2.enable && e.2.err == 0 && !qpHeld s (e.1 / 16) && e.2.reads.any (fun r => !r.issued))).map (·.1)

/-- The requesters of ARB_DMA that are pending now, in ascending order: number, BASE index and age (10 R308). While 768 reads are
outstanding only writes may go on (02 R39). -/
def dmaReqs (s : State) : List (Nat × Nat × Nat) :=
  let reads := decide (s.hif.np < 768)
  let data := allCtx.filter (fun x => s.hif.outs.contains x ||
    (reads && s.hif.dma.any (fun d => d.live && d.tower == x.1 && d.ctx == x.2 && !d.pieces.isEmpty)))
  (if (reads && (fillAsk s).isSome) || decide (s.hif.vaultOuts > 0) then [(0, 0, s.hif.vaultAge)] else []) ++
    (if cplAsk s then [(1, 1, s.hif.cplAge)] else []) ++
    (if reads && (descAsk s).isSome then [(2, 2, s.hif.descAge)] else []) ++
    data.map (fun x => (3 + 8 * x.1 + x.2, 3, arbAge s x.1 x.2 2))

/-- Writes the age of a requester of ARB_DMA. -/
def setDmaAge (s : State) (k v : Nat) : State :=
  match k with
  | 0 => { s with hif := { s.hif with vaultAge := v } }
  | 1 => { s with hif := { s.hif with cplAge := v } }
  | 2 => { s with hif := { s.hif with descAge := v } }
  | m + 3 => setArbAge s (m / 8) (m % 8) 2 v

/-- A fetch of a context is granted: it becomes an outstanding read. -/
def askFill (s : State) (t c : Nat) (n : Need) : State :=
  let x := s.ctx t c
  let s1 := s.setCtx t c { x with asked := x.asked ++ [n] }
  { s1 with hif := { s1.hif with np := s1.hif.np + 1, fills := s1.hif.fills ++ [(t, c, true)] } }

/-- Grants the vault engine: its transfer that waits longest, or a fetch. -/
def grantFill (s : State) : State :=
  if s.hif.vaultOuts > 0 then { s with hif := { s.hif with vaultOuts := s.hif.vaultOuts - 1 } }
  else match fillAsk s with
    | none => s
    | some (t, c) => match fillNext s t c with
      | none => s
      | some n => askFill s t c n

/-- Grants the completion and MSI-X writer: messages go first, each after the completion that it tells of. -/
def grantCpl (s : State) : State :=
  if s.hif.msiWaiting > 0 then { s with hif := { s.hif with msiWaiting := s.hif.msiWaiting - 1 } }
  else { s with hif := { s.hif with cplGranted := true } }

/-- Grants the descriptor fetcher: its read is checked for the function and issued, and QP_SQ_HEAD moves past it (02 R47, R49,
R465). -/
def grantDesc (s : State) : State :=
  match descAsk s with
  | none => s
  | some k =>
    let fn := k / 16
    let q := k % 16
    let x := s.qp fn q
    match x.reads.find? (fun r => !r.issued) with
    | none => s
    | some r =>
      let (s1, ok) := hostCheck s fn false (x.sqBase + 128 * r.first)
      let y := s1.qp fn q
      if ok then
        let s2 := s1.setQp fn q { y with
          sqHead := (r.first + r.count) % 2 ^ y.sqK, reads := y.reads.map (fun e => { e with issued := true }) }
        { s2 with hif := { s2.hif with np := s2.hif.np + 1 } }
      else
        let s2 := s1.setQp fn q y.withdraw
        if isMf fn then qpError s2 fn q 2 else s2

/-- The next part of a call's read: its function, its address, and whether it begins a piece, which is judged then (13 R379, R382). -/
def nextPiece (s : State) (t c : Nat) : Option (Nat × Nat × Bool) :=
  match s.hif.dma.find? (fun d => d.live && d.tower == t && d.ctx == c), (s.ctx t c).call with
  | some d, some k => d.pieces.head?.map (fun p => (k.fn, p.1, p.2.2))
  | _, _ => none

/-- A function is a frozen TF. -/
def fnFrozen (s : State) (fn : Nat) : Bool := !isMf fn && (s.tf fn).frozen

/-- The kind of violation over which the next part of a call's read ends it: none where its TF is frozen already (13 R384, R386). -/
def pieceRefusal (s : State) (t c : Nat) : Option Nat :=
  match nextPiece s t c with
  | some (fn, a, true) => if fnFrozen s fn then none else hostRefusal s fn false a
  | _ => none

/-- A piece of a read is not issued: its bytes read as zeros (13 R384). -/
def DmaReq.blank (d : DmaReq) : DmaReq :=
  let rest := (d.pieces.drop 1).dropWhile (fun p => !p.2.2)
  let left := fun (l : List (Nat × Nat × Bool)) => (l.map (fun p => p.2.1)).sum
  { d with pieces := rest, holes := d.holes ++ [(d.len - left d.pieces, left d.pieces - left rest)] }

/-- Grants a part of a call's read. A refused piece ends the call (13 R384; 02 R465); where the TF is frozen already, the violation is logged
and changes nothing more: the piece reads as zeros (13 R386). -/
def grantRead (s : State) (t c : Nat) : State :=
  match nextPiece s t c with
  | none => s
  | some (fn, a, first) =>
    let (s1, ok) := if first then hostCheck s fn false a else (s, true)
    if ok then
      { s1 with hif := { s1.hif with
          np := s1.hif.np + 1
          dma := s1.hif.dma.map (fun e => if e.live && e.tower == t && e.ctx == c then
            { e with pieces := e.pieces.drop 1, granted := e.granted + 1 } else e) } }
    else if fnFrozen s fn then
      { s1 with hif := { s1.hif with dma := s1.hif.dma.map (fun e => if e.live && e.tower == t && e.ctx == c then e.blank else e) } }
    else refusedAccess s1 t c 3

/-- Grants a context for call data: a piece that it has written, or a part of its read. -/
def grantData (s : State) (t c : Nat) : State :=
  if s.hif.outs.contains (t, c) then { s with hif := { s.hif with outs := s.hif.outs.erase (t, c) } } else grantRead s t c

/-- The requester granted withdraws in the cycle of its grant: its call ends over a refused access or a fault (10 R311, R318). -/
def dmaWithdraws (s : State) (k : Nat) (fault : Bool) : Bool :=
  let x := ((k - 3) / 8, (k - 3) % 8)
  decide (3 ≤ k) && (fault || (!s.hif.outs.contains x && (pieceRefusal s x.1 x.2).isSome))

/-- Carries out the grant of requester `k`. -/
def grantDma (s : State) (k : Nat) (fault : Bool) : State :=
  match k with
  | 0 => unstall (grantFill s) (fun _ n => n.isFill)
  | 1 => grantCpl s
  | 2 => grantDesc s
  | m + 3 => if fault then eccFault s (m / 8) (m % 8) else grantData s (m / 8) (m % 8)

/-- DMA_GRANT: one round of ARB_DMA over the vault engine, the completion and MSI-X writer, the descriptor fetcher and call data (02 R39;
10 R308, R309). What a write brings is in memory when it arises; its request stands until it is granted (log 16). `fault`: in this cycle an uncorrectable
error in its context buffer ends the call whose read is granted (10 R318). -/
def execDmaGrant (s0 : State) (fault : Bool := false) : Out :=
  let s := commitArb s0
  let a := s.caller.arbDma
  let reqs := dmaReqs s
  if s.cycle < a.dead then .next s
  else match bestBy (fun r => a.eff r.2.1 r.2.2) reqs with
    | none => .next s
    | some r =>
      let losers := reqs.filter (fun x => x.1 != r.1)
      let s1 := losers.foldl (fun b x => setDmaAge b x.1 (a.aged x.2.1 x.2.2)) s
      if dmaWithdraws s r.1 fault then
        .next (grantDma { s1 with caller := { s1.caller with
          arbDma := { a.withdrawn s.cycle with lost := satAdd 32 a.lost losers.length } } } r.1 fault)
      else
        .next (grantDma (setDmaAge { s1 with caller := { s1.caller with
          arbDma := a.count (a.eff r.2.1 r.2.2) losers.length } } r.1 0) r.1 fault)

/-! ## The stall watchdog (10 R315, R316) -/

/-- REASON of a context (10 R321). -/
def reasonOf (x : Ctx) : Nat :=
  if x.st ≠ .waiting then 0
  else match x.needs.head? with
    | some (.keep _ _) => 1
    | some (.line _) => 2
    | some (.way _) => 2
    | some .page => 2
    | some (.fill _) => 3
    | some (.fillLine _) => 3
    | some .commit => 4
    | some .turn => 4
    | some .spire => 5
    | some (.lanes h _ _) => if x.saving then 10 else if h then 7 else 6
    | some (.draw _) => 8
    | some (.draw17 _) => 8
    | some .list => 9
    | some .blob => 9
    | some .chunk => 9
    | _ => 0

/-- Records a break: the count, CALLER_STALL_LAST and the interrupt (10 R315, R320). -/
def noteStall (s : State) (t c n : Nat) : State :=
  let x := s.ctx t c
  let fn := (x.call.map (·.fn)).getD 0
  let w := fn + 2 ^ 16 * t + 2 ^ 24 * c + 2 ^ 27 * reasonOf x + 2 ^ 31
  raise { s with caller := { s.caller with
    stallCount := satAdd 32 s.caller.stallCount n, stallLast := BitVec.ofNat 32 w } } pgCaller 1

/-- The call of a context ends STALL_BROKEN. How many cycles of its path have run is open: a free value (log 3). -/
def breakCall (s : State) (t c : Nat) : State :=
  let (s1, n) := (noteStall s t c 1).takeFree
  finishCall s1 t c stStallBroken (Config.freeValue n % 2 ^ 32) 0 []

/-- A call that waits for its batch is broken (10 R316). -/
def breakCommit (s : State) (t c : Nat) : State :=
  match s.vault.groups.find? (fun g => g.at_ == (t, c)) with
  | some g =>
    let s1 := noteStall s t c 1
    failGroups { s1 with vault := { s1.vault with groups := s1.vault.groups.filter (fun h => h.at_ != (t, c)) } } [g] stStallBroken
  | none => match s.vault.writing with
    | none => s
    | some b =>
      if b.groups.any (fun g => g.at_ == (t, c)) then
        let s1 := noteStall s t c (b.groups.filter (fun g => ((s.ctx g.at_.1 g.at_.2).call).isSome && firstNeed s g.at_.1 g.at_.2 == some .commit)).length
        failBatch s1 b stStallBroken
      else s

/-- A context may be broken: it waits for no commit, or its batch is not past step 2 (10 R316). -/
def breakable (s : State) (t c : Nat) : Bool :=
  firstNeed s t c != some .commit || (s.ctx t c).held.isNone || s.vault.groups.any (fun g => g.at_ == (t, c)) ||
    s.vault.writing.any (fun b => b.groups.any (fun g => g.at_ == (t, c)))

/-- The contexts whose count has reached 2^20. -/
def stalledCtx (s : State) : List (Nat × Nat) :=
  allCtx.filter (fun x => (s.ctx x.1 x.2).st == .waiting && (s.ctx x.1 x.2).call.isSome &&
    decide ((s.ctx x.1 x.2).stall ≥ 2 ^ 20) && breakable s x.1 x.2)

/-- STALL_BREAK: the stalled call with the earliest cycle 0 ends (10 R315). -/
def execStallBreak (s : State) : Out :=
  match bestBy (fun x => 2 ^ 70 - ((s.ctx x.1 x.2).call.map (·.seq)).getD 0) (stalledCtx s) with
  | none => .next s
  | some (t, c) => .next (if firstNeed s t c = some .commit ∧ (s.ctx t c).held.isSome then breakCommit s t c else breakCall s t c)

end Sys2Proof.Machine
end

