-- ==== Sys2Proof/Machine/ReelOps.lean ====
section
/-! DEFINITION. The Reel: ports, routing, messages, Promenade, breaks, mailboxes and snapshot orders (11 R322 to R333,
R346 to R350). -/

namespace Sys2Proof.Machine

/-! ## Ports and routing -/

/-- Writes the Reel. -/
def State.setReel (s : State) (r : Reel) : State := { s with reel := r }

/-- A port: DOWN or UP. -/
def portOf (s : State) (down : Bool) : Port := if down then s.reel.dn else s.reel.up

/-- Writes a port. -/
def setPort (s : State) (down : Bool) (p : Port) : State :=
  s.setReel (if down then { s.reel with dn := p } else { s.reel with up := p })

/-- A port that the role and REEL_CTRL leave enabled (11 R322, R354). -/
def portEnabled (s : State) (down : Bool) : Bool :=
  s.reel.role != 3 && !(down && s.reel.role == 2) && (if down then s.reel.dnEn else s.reel.upEn)

/-- A port that carries messages. -/
def portUp (s : State) (down : Bool) : Bool := portEnabled s down && (portOf s down).link == 2

/-- Place of an address on the line that a broken ring forms (11 R332). -/
def linePos (r : Reel) (a : Nat) : Nat := (a + r.count - (r.brk.getD 0 + 1) % r.count) % r.count

/-- Direction of a message between two addresses: true is DOWN (11 R330). -/
def dirTo (r : Reel) (src dst : Nat) : Option Bool :=
  if !r.addressed || src == dst || decide (dst ≥ r.count) then none
  else match r.topo with
    | 1 => some (decide (src < dst))
    | 2 => some (decide ((dst + r.count - src) % r.count ≤ r.count / 2))
    | 3 => some (decide (linePos r src < linePos r dst))
    | _ => none

/-- Place of an address on the line that the Reel forms: on a LINE the address itself. -/
def lineAt (r : Reel) (a : Nat) : Nat := if r.topo = 3 then linePos r a else a

/-- A link known to be down lies between two addresses of a line (11 R333). -/
def cutOff (r : Reel) (a b : Nat) : Bool :=
  r.topo != 2 && r.cuts.any (fun c => decide (min (lineAt r a) (lineAt r b) ≤ lineAt r c ∧ lineAt r c < max (lineAt r a) (lineAt r b)))

/-- The port toward a device, where the device can be reached: no link known to be down cuts it off (11 R333). -/
def portTo (s : State) (dst : Nat) : Option Bool :=
  match dirTo s.reel s.reel.addr dst with
  | some d => if portUp s d && !cutOff s.reel s.reel.addr dst then some d else none
  | none => none

/-- Some device is reached by a broadcast in a direction (11 R330). -/
def someone (s : State) (down : Bool) : Bool :=
  portUp s down && (List.range s.reel.count).any (fun a => dirTo s.reel s.reel.addr a == some down)

/-- The broadcast of `src` goes on in a direction from this device: it came from the other side, and routing from `src`
reaches further devices there. -/
def goesOn (s : State) (src : Nat) (down : Bool) : Bool :=
  dirTo s.reel src s.reel.addr == some down && portUp s down &&
    dirTo s.reel src ((s.reel.addr + (if down then 1 else s.reel.count - 1)) % s.reel.count) == some down

/-! ## Sending (11 R327 to R331; 10 R308) -/

/-- A message of `src` that has come to address `at_`, moving DOWN or UP, holds a buffer of the HIGH set there: on a RING it has crossed
the link between N − 1 and 0 (R329). -/
def crossed (s : State) (src at_ : Nat) (down : Bool) : Bool :=
  s.reel.topo == 2 && (if down then decide (at_ < src) else decide (src < at_))

/-- A message of `src` that leaves by a port takes a buffer of the HIGH set at the next hop (R329). -/
def takesHigh (s : State) (src : Nat) (down : Bool) : Bool :=
  crossed s src ((s.reel.addr + (if down then 1 else s.reel.count - 1)) % s.reel.count) down

/-- Credits of a class in one of the two sets (R329). -/
def Port.credit (p : Port) (high : Bool) (cls : Nat) : Nat := if high then p.high.getD cls 0 else p.credits.getD cls 0

/-- Starts a message on a port: it takes a SEQ and a credit, and is held until it is acknowledged, whatever its class (R328, R329). -/
def Port.start (p : Port) (m : Msg) : Port :=
  let q := p.seqs.getD m.cls 0
  let left := p.credit m.high m.cls - 1
  { p with
    seqs := p.seqs.set m.cls ((q + 1) % 65536)
    credits := if m.high then p.credits else p.credits.set m.cls left
    high := if m.high then p.high.set m.cls left else p.high
    unacked := p.unacked ++ [(m.cls, q, { m with came := none })] }

/-- Credits that one freed buffer gives back: by class, those of the LOW set and then those of the HIGH one (R329). -/
def creditOf (cls : Nat) (high : Bool) (n : Nat) : List Nat :=
  (List.range 8).map (fun k => if k = cls + (if high then 4 else 0) then n else 0)

/-- A message passed on has started at the next hop: its receive buffer is free, and a LINK_ACK gives the credit back (R329, R331; DESIGN
CHOICE, log 22). -/
def Port.release (p : Port) (cls seq : Nat) (high : Bool) : Port :=
  { p with
    held := List.zipWith (· - ·) p.held (creditOf cls high 1)
    acks := p.acks + 1
    lastAck := some (cls, seq, creditOf cls high 1) }

/-- Frees the buffer that a message passed on has held. -/
def freeBuffer (s : State) (m : Msg) : State :=
  match m.came with
  | some (d, seq, high) => setPort s d ((portOf s d).release m.cls seq high)
  | none => s

/-- The classes of a port whose oldest message waiting has a credit: order is kept within each class (R328, R329). -/
def Port.ready (p : Port) : List Nat :=
  (List.range 4).filter (fun k => match p.queue.find? (fun m => m.cls == k) with
    | some m => decide (p.credit m.high k > 0)
    | none => false)

/-- One round of ARB_REEL on a port, with the bases in force in its cycle (10 R308 to R310). -/
def reelRound (s0 : State) (down : Bool) : State :=
  let s := commitArb s0
  let p := portOf s down
  let a := s.caller.arbReel
  let eff := fun k => a.eff k (p.ages.getD k 0)
  match bestBy eff p.ready with
  | none => s
  | some k => match p.queue.find? (fun m => m.cls == k) with
    | none => s
    | some m =>
      let ages := p.ages.zipIdx.map (fun e => if e.2 = k then 0 else if p.ready.contains e.2 then a.aged e.2 e.1 else e.1)
      let p' := { (p.start m) with queue := p.queue.erase m, ages := ages }
      let s1 := freeBuffer (setPort s down p') m
      { s1 with caller := { s1.caller with arbReel := a.count (eff k) (p.ready.length - 1) } }

/-- Rounds until nothing more can start; `n` bounds their number. -/
def reelPump (down : Bool) : Nat → State → State
  | 0, s => s
  | n + 1, s => if (portOf s down).ready.isEmpty then s else reelPump down n (reelRound s down)

/-- Puts a message on a port: it is lost where the link is not up (11 R333). -/
def putOn (s : State) (down : Bool) (m : Msg) : State :=
  if !portUp s down then s
  else
    let p := portOf s down
    let s1 := setPort s down { p with queue := p.queue ++ [{ m with high := takesHigh s m.src down }] }
    reelPump down (p.queue.length + 1) s1

/-- Sends a message to a device; one that cannot be reached gets nothing (11 R330, R333). -/
def sendTo (s : State) (cls typ dst : Nat) (payload : Bytes) : State :=
  match portTo s dst with
  | some d => putOn s d { cls := cls, typ := typ, src := s.reel.addr, dst := dst, payload := payload }
  | none => s

/-- Sends a broadcast along both directions (11 R330). -/
def broadcast (s : State) (typ : Nat) (payload : Bytes) : State :=
  [true, false].foldl (fun a d =>
    if someone a d then putOn a d { cls := 0, typ := typ, src := a.reel.addr, dst := 0xFFFF, payload := payload } else a) s

/-- Copies a broadcast of `src` onward (11 R330); `came` is the receive buffer that it holds until then. -/
def relay (s : State) (typ src : Nat) (payload : Bytes) (came : Option (Bool × Nat × Bool) := none) : State :=
  [true, false].foldl (fun a d =>
    if goesOn a src d then putOn a d { cls := 0, typ := typ, src := src, dst := 0xFFFF, payload := payload, came := came } else a) s

/-- Place of a SEQ among those of its class on a port: 0 is the one expected next, 1 has come before, 2 lies ahead (R328). -/
def Port.place (p : Port) (cls seq : Nat) : Nat :=
  match p.rxSeqs.getD cls none with
  | none => 0
  | some e =>
    let d := (seq + 65536 - e) % 65536
    if d = 0 then 0 else if d ≥ 32768 then 1 else 2

/-- Credits of the four classes, which are their receive buffers in each set (11 R329). -/
def fullCredits : List Nat := [16, 32, 4, 64]

/-- A receive buffer of a class is free in a set (R329). -/
def Port.room (p : Port) (cls : Nat) (high : Bool) : Bool :=
  decide (p.held.getD (cls + (if high then 4 else 0)) 0 < fullCredits.getD cls 0)

/-- LINK_ACK of a message of any class, with the credit of its buffer where the buffer is free again (R328, R329; that a message of class
ACK is acknowledged too is DEDUCED, log 22). -/
def Port.ack (p : Port) (cls seq : Nat) (high kept : Bool := false) : Port :=
  { p with acks := p.acks + 1, lastAck := some (cls, seq, creditOf cls high (flag (!kept))) }

/-- A message passed on still holds the buffer in which it came (R331). -/
def stillHeld (s : State) (down : Bool) (cls seq : Nat) : Bool :=
  [true, false].any (fun d => (portOf s d).queue.any (fun m => m.cls == cls && m.came.any (fun x => x.1 == down && x.2.1 == seq)))

/-- A message of a class arrives at a port and takes a receive buffer, which is free again at once unless the message is passed on
(`keep`; R331): the one expected next is acknowledged and taken; one that has come before is acknowledged again and not taken; one ahead of
those expected is not taken, so that order is kept (R328; DEDUCED, log 22). -/
def hop (s : State) (down : Bool) (cls seq : Nat) (high keep : Bool := false) : State × Bool :=
  let p := portOf s down
  if !portUp s down then (s, false)
  else match p.place cls seq with
    | 0 => if !p.room cls high then (s, false)
      else
        let p1 := p.ack cls seq high keep
        (setPort s down { p1 with
          held := if keep then List.zipWith (· + ·) p.held (creditOf cls high 1) else p.held
          rxSeqs := p.rxSeqs.set cls (some ((seq + 1) % 65536)) }, true)
    | 1 => (setPort s down (p.ack cls seq high (stillHeld s down cls seq)), false)
    | _ => (s, false)

/-- The directions in which a message that arrives is passed on (R330). -/
def onward (s : State) (h : Hdr) : List Bool :=
  if h.dst = s.reel.addr then []
  else if h.dst = 0xFFFF then [true, false].filter (goesOn s h.src)
  else match dirTo s.reel h.src s.reel.addr with
    | some d => if dirTo s.reel h.src h.dst = some d && portUp s d then [d] else []
    | none => []

/-- The receive buffer that a message which is passed on holds: the port, the SEQ and the set (R329). -/
def cameBy (s : State) (h : Hdr) : Option (Bool × Nat × Bool) :=
  match dirTo s.reel h.src s.reel.addr with
  | some d => if (onward s h).isEmpty then none else some (!d, h.seq, crossed s h.src s.reel.addr d)
  | none => none

/-- A message of class `cls` arrives at the port toward its source (R328, R330): the state after it, and whether it is taken. None arrives
where the device is not addressed: its ports carry no messages (R325; DESIGN CHOICE, log 117). -/
def hears (s : State) (h : Hdr) (cls : Nat) : State × Bool :=
  match dirTo s.reel h.src s.reel.addr with
  | some d => hop s (!d) cls h.seq (crossed s h.src s.reel.addr d) (!(onward s h).isEmpty)
  | none => (s, false)

/-- The state in which a message that has arrived is taken; none where it is not. -/
def heard (s : State) (h : Hdr) (cls : Nat) : Option State :=
  let x := hears s h cls
  if x.2 then some x.1 else none

/-- A message for another device goes on in its direction (R330). -/
def forward (s : State) (h : Hdr) (cls typ : Nat) (payload : Bytes) : State :=
  match dirTo s.reel h.src s.reel.addr with
  | some d =>
    if dirTo s.reel h.src h.dst = some d then
      putOn s d { cls := cls, typ := typ, src := h.src, dst := h.dst, payload := payload, came := cameBy s h } else s
  | none => s

/-- A message arrives: what is for this device, or for all, has its effect `f`; a broadcast is copied onward, and a message for another
device goes on (R328, R330). -/
def receive (s : State) (h : Hdr) (cls typ : Nat) (payload : Bytes) (f : State → State) : State :=
  match heard s h cls with
  | none => (hears s h cls).1
  | some s1 =>
    if h.dst = s1.reel.addr then f s1
    else if h.dst = 0xFFFF then f (relay s1 typ h.src payload (cameBy s1 h))
    else forward s1 h cls typ payload

/-- A credit of a class at every port on which a message to `dst` would go: all of them for a broadcast. -/
def hasCredit (s : State) (cls dst : Nat) : Bool :=
  let ok := fun d => decide ((portOf s d).credit (takesHigh s s.reel.addr d) cls > 0)
  if dst = 0xFFFF then [true, false].all (fun d => !someone s d || ok d)
  else match portTo s dst with
    | some d => ok d
    | none => true

/-- The contexts that wait for a credit. -/
def creditWaiters (s : State) : List (Nat × Nat) :=
  allCtx.filter (fun x => match firstNeed s x.1 x.2 with
    | some (.credit _) => (s.ctx x.1 x.2).st == .waiting
    | _ => false)

/-- The contexts that wait for a credit look again: each asks anew where there is still none. -/
def creditCheck (s : State) : State := (creditWaiters s).foldl (fun a x => popNeed a x.1 x.2) s

/-- LINK_ACK: a SEQ is acknowledged and credits come back: by class, for the LOW set and then for the HIGH one (11 R328, R329). -/
def execLinkAck (down : Bool) (cls seq : Nat) (credits : List Nat) (s : State) : Out :=
  if !portUp s down then .next s
  else
    let p := portOf s down
    let hit := p.unacked.any (fun e => e.1 == cls && e.2.1 == seq)
    let s1 := setPort s down { p with
      unacked := p.unacked.filter (fun e => !(e.1 == cls && e.2.1 == seq)), fails := if hit then 0 else p.fails
      credits := (List.range 4).map (fun k => min (fullCredits.getD k 0) (p.credits.getD k 0 + credits.getD k 0))
      high := (List.range 4).map (fun k => min (fullCredits.getD k 0) (p.high.getD k 0 + credits.getD (4 + k) 0)) }
    .next (creditCheck (reelPump down p.queue.length s1))

/-! ## Links and breaks (11 R323, R332, R333) -/

/-- Every device sets BROKEN_RING (11 R332). -/
def ringBroken (s : State) (up : Nat) : State :=
  if s.reel.topo ≠ 2 then s else raise (s.setReel { s.reel with topo := 3, brk := some up }) pgReel 3

/-- A mirror has had fewer acknowledgements than WCOUNT (07 R247, R254). -/
def shortMirror (s : State) : State :=
  raise { s with vault := { s.vault with short := true, shorts := satAdd 16 s.vault.shorts 1 } } pgVault 4

/-- The last mirror has all the answers that it will get: WITNESS_SHORT follows (07 R247, R254). -/
def mirrorSettle (s : State) : State :=
  if !s.vault.awaiting.isEmpty then s
  else if s.vault.acks < s.vault.wcount then shortMirror s
  else { s with vault := { s.vault with short := false } }

/-- The answer of a witness to a record of this device: to a fence where one is awaited from it, else to the last mirror (07 R247,
R249). `got` says that it has come; otherwise it will not. -/
def witnessAnswer (got : Bool) (s : State) (w : Nat) : State :=
  let v := s.vault
  if v.fences.contains w then { s with vault := { v with fences := v.fences.erase w } }
  else if !v.awaiting.contains w then s
  else mirrorSettle { s with vault := { v with acks := if got then min 2 (v.acks + 1) else v.acks, awaiting := v.awaiting.erase w } }

/-- The contexts whose VAULT_SEAL_ROOT waits for its witnesses go on once none is awaited (07 R248). -/
def sealWaiters (s : State) : State :=
  if !s.vault.awaiting.isEmpty then s
  else (allCtx.filter (fun x => firstNeed s x.1 x.2 == some .reel && opOf (workDesc s x.1 x.2) == 0x0A03)).foldl
    (fun a x => popNeed a x.1 x.2) s

/-- Messages lost on a link that held witness records: each counts as missing (11 R333; 07 R247). -/
def lostWitness (s : State) (l : List (Nat × Nat × Msg)) : State :=
  sealWaiters (((l.filter (fun e => e.2.2.typ == 0x06 && e.2.2.src == s.reel.addr)).map (·.2.2.dst)).foldl (witnessAnswer false) s)

/-- The address upstream of the link of a port. -/
def linkAt (s : State) (down : Bool) : Nat := if down then s.reel.addr else (s.reel.addr + s.reel.count - 1) % s.reel.count

/-- A link of this address is known to be down: a RING becomes a BROKEN_RING, and a line is cut there (11 R332, R333). -/
def noteBreak (s : State) (at_ : Nat) : State :=
  if s.reel.topo = 2 then ringBroken s at_
  else if s.reel.topo = 0 ∨ (s.reel.topo = 3 ∧ s.reel.brk = some at_) ∨ s.reel.cuts.contains at_ then s
  else s.setReel { s.reel with cuts := s.reel.cuts ++ [at_] }

/-- A link of this address has trained again. A broken ring whose break it was is a RING once more, or is broken at another link that is
known to be down (11 R332, R333; DESIGN CHOICE, log 125). -/
def noteMend (s : State) (at_ : Nat) : State :=
  let rest := s.reel.cuts.filter (· != at_)
  if s.reel.topo = 3 ∧ s.reel.brk = some at_ then
    s.setReel { s.reel with topo := if rest.isEmpty then 2 else 3, brk := rest.head?, cuts := rest.drop 1 }
  else s.setReel { s.reel with cuts := rest }

/-- The messages queued that came by a port whose link is down hold no buffer there any more. -/
def Port.forget (p : Port) (down : Bool) : Port :=
  { p with queue := p.queue.map (fun m => if m.came.any (fun x => x.1 == down) then { m with came := none } else m) }

/-- A link goes down: what it had not acknowledged is lost, and BREAK_NOTICE makes the break known away from it (11 R332, R333). On a line
the notice is a DESIGN CHOICE (log 125). -/
def linkDown (s : State) (down : Bool) : State :=
  let p := portOf s down
  if p.link = 0 then s
  else
    let s0 := setPort s down { p with link := 0, unacked := [], held := [0, 0, 0, 0, 0, 0, 0, 0], fails := 0 }
    let s1 := raise (setPort s0 (!down) ((portOf s0 (!down)).forget down)) pgReel 2
    let s2 := lostWitness s1 p.unacked
    let at_ := linkAt s down
    let s3 := if s.reel.topo = 0 then s2 else
      noteBreak (putOn s2 (!down) { cls := 0, typ := 0x08, src := s.reel.addr, dst := 0xFFFF, payload := leBytes 2 at_ }) at_
    creditCheck s3

/-- REEL_LINK_DOWN. -/
def execReelLinkDown (down : Bool) (s : State) : Out := .next (linkDown s down)

/-- BREAK_NOTICE: a broadcast of a device beside the break, which comes along the line that the ring has become (11 R332). One that has
come before is acknowledged again (R328). -/
def execBreakNotice (addr : Nat) (s : State) (h : Hdr := {}) : Out :=
  .next (if addr ≥ s.reel.count then s
    else match heard (noteBreak s addr) h 0 with
      | none => (hears s h 0).1
      | some s1 => relay s1 0x08 h.src (leBytes 2 addr) (cameBy s1 h))

/-- A failed attempt: the message is sent again; after 16 in a row the link is down (11 R328). -/
def failedAttempt (s : State) (down : Bool) : State :=
  let p := portOf s down
  if p.fails + 1 ≥ 16 then linkDown s down
  else setPort s down { p with retries := satAdd 32 p.retries 1, fails := p.fails + 1 }

/-- RETRANSMIT_TIMEOUT (11 R328). -/
def execRetransmitTimeout (down : Bool) (cls : Nat) (s : State) : Out :=
  .next (if portUp s down && (portOf s down).unacked.any (fun e => e.1 == cls) then failedAttempt s down else s)

/-- LINK_NAK (11 R328). -/
def execLinkNak (down : Bool) (cls seq : Nat) (s : State) : Out :=
  .next (if portUp s down && (portOf s down).unacked.any (fun e => e.1 == cls && e.2.1 == seq) then failedAttempt s down else s)

/-- REEL_PORT_DROP: `cls` and `seq` are those of the message's header. A LINK_NAK asks for them again (11 R327). -/
def execReelPortDrop (down badCrc : Bool) (s : State) (cls seq : Nat := 0) : Out :=
  let p := portOf s down
  .next (if portUp s down then
    setPort s down { p with
      drops := satAdd 32 p.drops 1
      naks := if badCrc then p.naks + 1 else p.naks
      lastNak := if badCrc then some (cls, seq) else p.lastNak } else s)

/-- A port direction has lost a lane: LANE_SPARED, and the port's degradation (11 R323, R354). -/
def laneLost (s : State) (down dead : Bool) : State :=
  let s1 := degradeCheck (raise s pgReel 6)
  if dead then linkDown s1 down else s1

/-- A lane is retired, and where it was in service the first spare takes its place (11 R323). -/
def swapLane (l : List Nat) (i : Nat) : List Nat :=
  let l1 := l.set i 2
  match if l.getD i 2 = 1 then l1.findIdx? (· == 0) else none with
  | some k => l1.set k 1
  | none => l1

/-- REEL_LANE_RETIRE: a lane of the receive direction, in service or spare, is retired, and the other end is told by LANE_SWAP (11
R323). -/
def execReelLaneRetire (down : Bool) (lane : Nat) (s : State) : Out :=
  let p := portOf s down
  if p.rx.getD lane 2 = 2 ∨ !portEnabled s down then .next s
  else
    let l := swapLane p.rx lane
    let s1 := setPort s down { p with rx := l }
    let s2 := putOn s1 down
      { cls := 0, typ := 0x05, src := s.reel.addr, dst := s.reel.addr, payload := [BitVec.ofNat 8 (flag down), BitVec.ofNat 8 lane] }
    .next (laneLost s2 down (!(l.any (· == 1))))

/-- LANE_SWAP: the other end has retired a lane of this port's transmit direction; its traffic moves to the spare
(11 R323). -/
def execLaneSwap (down : Bool) (lane : Nat) (s : State) (seq : Nat := 0) : Out :=
  let (s1, ok) := hop s down 0 seq
  let p := portOf s1 down
  if !ok then .next s1
  else if p.lanes.getD lane 2 = 2 then .next s1
  else
    let l := swapLane p.lanes lane
    .next (laneLost (setPort s1 down { p with lanes := l }) down (!(l.any (· == 1))))

/-! ## Promenade (11 R324 to R326) -/

/-- The link delay after 16 round trips: half their mean, in 0.1 ns. -/
def delayOf (l : List Nat) : Nat := l.sum / 32

/-- One DELAY_ECHO round trip: after 16 of them the link delay is known, and a link above 600 ns fails training
(11 R324). -/
def echoOne (s : State) (down : Bool) (rt : Nat) : State :=
  let p := portOf s down
  let l := p.echoes ++ [rt]
  if l.length < 16 then setPort s down { p with echoes := l }
  else
    let d := delayOf l
    let s1 := setPort s down { p with echoes := [], delay := min d 65535 }
    if d > 6000 then linkDown s1 down else s1

/-- DELAY_ECHO. -/
def execDelayEcho (down : Bool) (roundTrip : Nat) (s : State) : Out :=
  .next (if portEnabled s down ∧ (portOf s down).link ≠ 0 then echoOne s down roundTrip else s)

/-- The phase of a clone job whose session a second Promenade has ended (11 R326). -/
abbrev cloneGone : Nat := 9

/-- The clones that this device is the source of end REEL_UNREACHABLE: in a context at once, a suspended job when it is resumed
(11 R326). -/
def cloneLost (s : State) : State :=
  let s1 := (allCtx.filter (fun x => opOf (workDesc s x.1 x.2) == 0x0D01 && (s.ctx x.1 x.2).call.isSome &&
      (s.ctx x.1 x.2).work.phase != 0)).foldl
    (fun a x => finishCall { a with free := a.free + 1 } x.1 x.2 stReelUnreach (Config.freeValue a.free % 2 ^ 32) 0 []) s
  { s1 with jobs := s1.jobs.map (fun j =>
      if j.suspended && opOf j.call.desc == 0x0D01 && j.work.phase != 0 then { j with work := { j.work with phase := cloneGone } } else j) }

/-- A port after Promenade has begun, or its link has trained: no message is queued or held, its credits are whole, and a message of any
SEQ may come next (11 R326, R328; log 22). -/
def Port.fresh (p : Port) : Port :=
  { p with unacked := [], held := [0, 0, 0, 0, 0, 0, 0, 0], credits := fullCredits, high := fullCredits, rxSeqs := [none, none, none, none], fails := 0 }

/-- What a second Promenade ends (11 R326). -/
def promenadeClear (s : State) : State :=
  let wipe := fun (p : Port) => { p.fresh with queue := [] }
  creditCheck (cloneLost (s.setReel { s.reel with
    up := wipe s.reel.up, dn := wipe s.reel.dn, mbox := [], order := none, session := none, conflict := false }))

/-- This device takes part in the Reel of `n` devices (11 R324). -/
def setTopology (s : State) (n topo : Nat) (brk : Option Nat) : State :=
  raise (s.setReel { s.reel with addressed := true, count := n, topo := topo, brk := brk, cuts := [] }) pgReel 4

/-- The payload of TOPOLOGY. -/
def topoBytes (n topo : Nat) (brk : Option Nat) : Bytes := leBytes 2 n ++ leBytes 1 topo ++ leBytes 2 (brk.getD 0)

/-- The head ends Promenade: it broadcasts N and the topology (11 R324, R325). A count above 1,000 says that a device found
no address (log 23). -/
def promenadeDone (s : State) (n : Nat) (closed : Bool) : State :=
  let over_ := decide (n > 1000)
  let m := min n 1000
  let topo := if closed ∧ !over_ ∧ m ≥ 3 then 2 else 1
  let s1 := setTopology (s.setReel { s.reel with overflow := over_, walking := false }) m topo none
  broadcast s1 0x03 (topoBytes m topo none)

/-- The head begins Promenade (11 R324). -/
def promenadeStart (s : State) : State :=
  let s1 := promenadeClear s
  let s2 := s1.setReel { s1.reel with addr := 0, walking := true }
  if portUp s2 true then
    putOn s2 true { cls := 0, typ := 0x01, src := 0, dst := 1, payload := leBytes 2 1 ++ leBytes 3 0 }
  else promenadeDone s2 1 false

/-- REEL_CTRL.PROMENADE (11 R324, R354). -/
def execReelCtrlPromenade (s : State) : Out :=
  .next (if s.reel.role = 1 then promenadeStart s else recordWerr s pgReel)

/-- Sends PROMENADE_END on the UP port with a count: above 1,000 where a device found no address, 0 where a head has refused
PROMENADE (11 R324, R325; the two codes are a DESIGN CHOICE, log 23). -/
def sendEnd (s : State) (n : Nat) : State :=
  putOn s false { cls := 0, typ := 0x02, src := s.reel.addr, dst := 0, payload := leBytes 2 n }

/-- Forwards PROMENADE, or ends the Reel here (11 R324). -/
def promenadeForward (s : State) (addr d : Nat) : State :=
  if portUp s true then
    putOn s true { cls := 0, typ := 0x01, src := addr, dst := addr + 1, payload := leBytes 2 (addr + 1) ++ leBytes 3 d }
  else sendEnd s (addr + 1)

/-- A device takes the address that PROMENADE brings: a second Promenade's delay holds from the next Bell (11 R324, R326). -/
def takeAddress (s : State) (addr d : Nat) : State :=
  let s1 := s.setReel { s.reel with addr := addr }
  { s1 with time := if s.reel.addressed then { s1.time with newDelay := some d } else { s1.time with delay := d } }

/-- PROMENADE arrives at the UP port with the next address, the cumulative delay and the round trips of the link's
measurement (11 R324 to R326). The head of a closed Reel takes it as the end of its own Promenade while that runs; otherwise a head
refuses it. -/
def execPromenade (addr d : Nat) (echoes : List Nat) (s : State) (seq : Nat := 0) : Out :=
  let s1 := echoes.foldl (fun a e => echoOne a false e) s
  if !portUp s1 false ∨ (portOf s1 false).place 0 seq = 1 then .next (hop s1 false 0 seq).1
  else if s.reel.role = 1 then
    let s2 := (hop (setPort s1 false { portOf s1 false with rxSeqs := (portOf s1 false).rxSeqs.set 0 none }) false 0 seq).1
    .next (if s.reel.closed ∧ s.reel.walking then promenadeDone s2 addr true
      else sendEnd (s2.setReel { s2.reel with conflict := true }) 0)
  else if addr = 0 then .next s1
  else
    let s2 := (hop (promenadeClear s1) false 0 seq).1
    .next (if addr ≥ 1000 then sendEnd (s2.setReel { s2.reel with addressed := false }) 1001
      else promenadeForward (takeAddress s2 addr (d + s2.reel.up.delay)) addr (d + s2.reel.up.delay))

/-- PROMENADE_END arrives at the DOWN port: at the head it ends Promenade; another device passes it on. Where it says that a head has
refused PROMENADE, the Reel ends here, in conflict (11 R324, R325). -/
def execPromenadeEnd (n : Nat) (s : State) (seq : Nat := 0) : Out :=
  let (s1, ok) := hop s true 0 seq
  let s2 := if n = 0 then s1.setReel { s1.reel with conflict := true } else s1
  let m := if n = 0 then s.reel.addr + 1 else n
  .next (if !ok then s1 else if s.reel.role = 1 then (if s.reel.walking then promenadeDone s2 m false else s1) else sendEnd s2 m)

/-- TOPOLOGY: a device that Promenade gave an address learns N, the topology and the break; it is a broadcast of the head (11 R324).
One of another device says that the link it names has trained again, by which the devices that do not stand beside that link learn it (11
R332; DESIGN CHOICE, log 125). One that has come before is acknowledged again (R328). -/
def execTopology (n topo brk : Nat) (s : State) (seq : Nat := 0) (src : Nat := 0) : Out :=
  let b := if topo = 3 then some brk else none
  let h : Hdr := { src := src, dst := 0xFFFF, seq := seq }
  .next (if src ≠ 0 then
      (if n ≠ s.reel.count then s
      else match heard (noteMend s brk) h 0 with
        | none => (hears s h 0).1
        | some s1 => relay s1 0x03 src (leBytes 2 n ++ leBytes 1 topo ++ leBytes 2 brk) (cameBy s1 h))
    else if s.reel.role % 2 = 1 ∨ s.reel.addr = 0 ∨ s.reel.addr ≥ n ∨ n > 1000 ∨ topo = 0 ∨ topo > 3 then s
    else match heard (setTopology s n topo b) h 0 with
      | none => (hears s h 0).1
      | some s1 => relay s1 0x03 0 (topoBytes n topo b) (cameBy s1 h))

/-- A link has trained again: the Reel's shape follows, and a device beside the link that is not the head makes it known (11 R332; DESIGN
CHOICE, log 125). -/
def linkMended (s : State) (down : Bool) : State :=
  let at_ := linkAt s down
  if !s.reel.addressed ∨ !(s.reel.brk == some at_ || s.reel.cuts.contains at_) then s
  else
    let s1 := noteMend s at_
    if s.reel.addr = 0 then s1
    else broadcast s1 0x03 (leBytes 2 s1.reel.count ++ leBytes 1 s1.reel.topo ++ leBytes 2 at_)

/-- REEL_LINK_UP: a link has trained. The credits are whole again, a ring closes, and the head's first Promenade runs once
its ports have trained (11 R324, R332). -/
def execReelLinkUp (down : Bool) (s : State) : Out :=
  let p := portOf s down
  if !portEnabled s down ∨ p.link = 2 ∨ !(p.rx.any (· == 1)) ∨ !(p.lanes.any (· == 1)) then .next s
  else
    let s1 := raise (setPort s down { p.fresh with link := 2 }) pgReel 2
    let s3 := creditCheck (reelPump down p.queue.length (linkMended s1 down))
    .next (if s3.reel.role = 1 ∧ s3.reel.topo = 0 ∧ portUp s3 true ∧ (!s3.reel.closed || portUp s3 false) then
      promenadeStart s3 else s3)

/-! ## Mailboxes (11 R349, R350) -/

/-- A word is delivered into the channel of device `src` (11 R350). -/
def takeWord (src : Nat) (value : Word) (s : State) : State :=
  let (w, full, drops) := tblGet ((0 : Word), false, 0) s.reel.mbox src
  let put := fun (a : State) e => a.setReel { a.reel with mbox := tblSet ((0 : Word), false, 0) a.reel.mbox src e }
  if full then put s (w, true, satAdd 8 drops 1) else raise (put s (value, true, drops)) pgReel 1

/-- WORD: a word arrives. -/
def execReelWord (h : Hdr) (value : Word) (s : State) : Out :=
  .next (receive s h 1 0x10 (leBytes 4 value.toNat ++ zeros 4) (takeWord h.src value))

/-- Layouts of the Reel opcodes (11 R346, R349, R351). -/
def reelInfo (op : Nat) (d : Bytes) : OpInfo :=
  match op with
  | 0x0D01 => { mfOnly := true, pEnd := 67, bad := decide (par d 66 > 1), job := true }
  | 0x0D02 => { mfOnly := true, part := false, pEnd := 72, bad := !zeroIn d 66 68 }
  | 0x0D03 => { mfOnly := true, part := false, pEnd := 72 }
  | _ => {}

/-- REEL_SEND (11 R349). -/
def reelSend (t c : Nat) (s : State) : State :=
  let d := workDesc s t c
  let dst := leAt d 64 2
  if (portTo s dst).isNone then finishCall s t c stReelUnreach 39 0 []
  else if !hasCredit s 1 dst then setNeeds s t c [.credit 1]
  else finishCall (sendTo s 1 0x10 dst (sub d 68 4 ++ zeros 4)) t c stOk 36 0 []

/-- Runs REEL_SEND. -/
def execReelSend (tower ctx : Nat) (fault : FigFault) (s : State) : Out := .next (runFigure s tower ctx 0x0D02 fault (reelSend tower ctx))

/-! ## Snapshot orders (11 R346 to R348) -/

/-- The set lead of an address. -/
def leadOf (a : Nat) : Nat := 8 * (a / 8)

/-- This device is its set's lead. -/
def isLead (s : State) : Bool := s.reel.addr % 8 == 0

/-- The members that Promenade gave this device's set. -/
def setMembers (s : State) : List Nat := ((List.range 8).map (fun i => leadOf s.reel.addr + i)).filter (· < s.reel.count)

/-- The issuer's gathering is over (11 R348). -/
def snapFinish (s : State) : State :=
  raise (s.setReel { s.reel with
    gathering := false, snapDone := true, notCaptured := s.reel.count - s.reel.acks.length }) pgReel 5

/-- Bits of a mask over the positions of a set, as addresses. -/
def maskAddrs (lead mask : Nat) : List Nat := ((List.range 8).filter (fun i => bitOf mask i)).map (fun i => lead + i)

/-- The issuer takes in a set's answer (11 R348). -/
def takeSet (s : State) (lead bell captured : Nat) : State :=
  if !s.reel.gathering || s.reel.issued != bell || s.reel.sets.contains (lead / 8) then s
  else
    let s1 := s.setReel { s.reel with
      sets := s.reel.sets ++ [lead / 8], acks := s.reel.acks ++ (maskAddrs lead captured).filter (fun a => !s.reel.acks.contains a) }
    if s1.reel.sets.length ≥ ceilDiv s1.reel.count 8 then snapFinish s1 else s1

/-- A set lead reports to every issuer and forgets the order (11 R348). -/
def reportSet (s : State) (bell : Nat) : State :=
  match s.reel.gather.find? (fun g => g.1 == bell) with
  | none => s
  | some (_, issuers, cap, _) =>
    let ms := setMembers s
    let mask := fun (f : Nat → Bool) => (ms.filter f).foldl (fun n a => n + 2 ^ (a % 8)) 0
    let yes := mask (fun a => cap.contains a)
    let no := mask (fun a => !cap.contains a)
    let s1 := s.setReel { s.reel with gather := s.reel.gather.filter (fun g => g.1 != bell) }
    issuers.foldl (fun a i =>
      if i = a.reel.addr then takeSet a a.reel.addr bell yes
      else sendTo a 3 0x34 i (leBytes 8 bell ++ leBytes 1 yes ++ leBytes 1 no)) s1

/-- A set lead takes in a member's answer; 0 is CAPTURED (11 R348; the codes are a DESIGN CHOICE, log 23). -/
def takeAnswer (s : State) (src bell ans : Nat) : State :=
  let g' := s.reel.gather.map (fun g =>
    if g.1 = bell ∧ !g.2.2.2.contains src then
      (g.1, g.2.1, (if ans = 0 then g.2.2.1 ++ [src] else g.2.2.1), g.2.2.2 ++ [src]) else g)
  let s1 := s.setReel { s.reel with gather := g' }
  match g'.find? (fun g => g.1 == bell) with
  | some g => if (setMembers s1).all (fun a => g.2.2.2.contains a) then reportSet s1 bell else s1
  | none => s1

/-- Answers a snapshot order to the set lead. -/
def answerOrder (s : State) (bell ans : Nat) : State :=
  if isLead s then takeAnswer s s.reel.addr bell ans
  else sendTo s 3 0x33 (leadOf s.reel.addr) (leBytes 8 bell ++ leBytes 1 ans)

/-- A set lead begins to gather for an issuer (11 R348). -/
def beginGather (s : State) (bell issuer : Nat) : State :=
  if !isLead s then s
  else match s.reel.gather.find? (fun g => g.1 == bell) with
    | some _ => s.setReel { s.reel with gather := s.reel.gather.map (fun g =>
        if g.1 = bell ∧ !g.2.1.contains issuer then (g.1, g.2.1 ++ [issuer], g.2.2.1, g.2.2.2) else g) }
    | none => s.setReel { s.reel with gather := s.reel.gather ++ [(bell, [issuer], [], [])] }

/-- Records a snapshot order, or answers LATE (1) or BUSY (2) (11 R347). -/
def takeOrder (s : State) (bell issuer : Nat) : State :=
  let s1 := beginGather s bell issuer
  if timeKnown s ∧ bell ≤ s.time.bell then
    answerOrder (s1.setReel { s1.reel with localLate := true }) bell 1
  else match s.reel.order with
    | none => s1.setReel { s1.reel with order := some (bell, [issuer]), snapBell := bell, localLate := false }
    | some (b, is) =>
      if b = bell then s1.setReel { s1.reel with order := some (b, if is.contains issuer then is else is ++ [issuer]) }
      else answerOrder s1 bell 2

/-- SNAP_ORDER, a broadcast of its issuer (11 R347). -/
def execSnapOrder (bell issuer : Nat) (s : State) (h : Hdr := {}) : Out :=
  .next (receive s h 0 0x07 (leBytes 8 bell ++ leBytes 2 issuer) (fun a => takeOrder a bell issuer))

/-- SNAP_ACK (11 R348). -/
def execSnapAck (h : Hdr) (bell ans : Nat) (s : State) : Out :=
  .next (receive s h 3 0x33 (leBytes 8 bell ++ leBytes 1 ans) (fun a =>
    if isLead a ∧ leadOf h.src = a.reel.addr then takeAnswer a h.src bell ans else a))

/-- SET_ACK (11 R348). -/
def execSetAck (h : Hdr) (bell captured missed : Nat) (s : State) : Out :=
  .next (receive s h 3 0x34 (leBytes 8 bell ++ leBytes 1 captured ++ leBytes 1 missed) (fun a =>
    if captured + missed < 256 ∧ h.src % 8 = 0 then takeSet a h.src bell captured else a))

/-- SET_GATHER_TIMEOUT: 64 Bells after the snapshot Bell (11 R348). -/
def execSetGatherTimeout (bell : Nat) (s : State) : Out :=
  .next (if timeKnown s ∧ s.time.bell ≥ bell + 64 then reportSet s bell else s)

/-- SNAP_DONE_TIMEOUT: 128 Bells after the snapshot Bell (11 R348). -/
def execSnapDoneTimeout (s : State) : Out :=
  .next (if s.reel.gathering ∧ timeKnown s ∧ s.time.bell ≥ s.reel.issued + 128 then snapFinish s else s)

/-- REEL_SNAPSHOT (11 R346). -/
def reelSnapshot (t c : Nat) (s : State) : State :=
  let d := workDesc s t c
  let bell := leAt d 64 8
  if !hasCredit s 0 0xFFFF then setNeeds s t c [.credit 0]
  else
    let s0 := s.setReel { s.reel with gathering := true, snapDone := false, issued := bell, acks := [], sets := [] }
    let s1 := takeOrder s0 bell s.reel.addr
    let s2 := broadcast s1 0x07 (leBytes 8 bell ++ leBytes 2 s.reel.addr)
    finishCall s2 t c stOk 37 0 (leBytes 8 bell)

/-- Runs REEL_SNAPSHOT. -/
def execReelSnapshot (tower ctx : Nat) (fault : FigFault) (s : State) : Out :=
  .next (runFigure s tower ctx 0x0D03 fault (reelSnapshot tower ctx))

/-- The checks of the Reel opcodes before their figure: the status of a call that fails one (11 R325, R343, R346, R349). Reel time is
that of the call's cycle 0 (01 R20). -/
def reelParams (s : State) (op : Nat) (k : Call) (d : Bytes) : Option Nat :=
  match op with
  | 0x0D02 =>
    if leAt d 64 2 = s.reel.addr ∧ s.reel.addressed then some stBadParam
    else if (portTo s (leAt d 64 2)).isNone then some stReelUnreach else none
  | 0x0D03 =>
    let b := leAt d 64 8
    match k.bell with
    | none => some stTimeUnknown
    | some now =>
      if !s.reel.addressed then some stReelUnreach
      else if b < now + 4 ∨ b > now + 2 ^ 20 ∨ (s.reel.order.any (fun o => o.1 != b)) then some stBadParam
      else none
  | _ => none

end Sys2Proof.Machine
end

