-- ==== Sys2Proof/Machine/Create.lean ====
section
/-! DEFINITION. Writing key records and partition descriptors (06 R185, R186, R195 to R197; 07 R219, R220, R236). -/

namespace Sys2Proof.Machine

/-- The vault is ONLINE (07 R255). -/
def vaultOnline (s : State) : Bool := s.vault.st == 3

/-- A record with the DMK_ID under which it is written now (06 R177, R187). -/
def underDmk (s : State) (k : KeyRec) : KeyRec := { k with dmkId := ((writeDmk s).map dmkId).getD [0, 0] }

/-- A record as lines to store, and as lines of the Keep. -/
def recLines (s : State) (p idx : Nat) (k : KeyRec) : Option (List (Nat × Nat × Bytes) × List KeepCopy) :=
  (writeRoot s p).map (fun r =>
    (groupLinesOf p idx (storeRec r p idx (underDmk s k)), copiesOf p idx (encodeRec (underDmk s k))))

/-- CHECK of a record that replaces a line (06 R186). -/
def nextCheck (c : Nat) : Nat := if (c + 1) % 256 = 0 then 1 else (c + 1) % 256

/-- A multiple of `n` at or above `v`. -/
def alignUp (v n : Nat) : Nat := ceilDiv v n * n

/-- The all-ones RECORD field (06 R185). -/
def recAny : Nat := 0xFFFFFFFFFFF

/-- The record space that calls have claimed in a class of a partition: first indices (04 R140). -/
def claimed (s : State) (p cls : Nat) : List Nat :=
  allCtx.filterMap (fun x => match (s.ctx x.1 x.2).space, (s.ctx x.1 x.2).call with
    | some (k, i), some call => if k = cls ∧ partOf call.desc = p then some i else none
    | _, _ => none)

/-- The index that a creating call's record takes: `named` is its RECORD field (06 R185). Space that another call has claimed is passed
over (04 R140). -/
def targetIdx (s : State) (p cls named lines : Nat) : Nat :=
  if named ≠ recAny then named
  else
    let next := if cls = 1 then allocNext s p else tblGet 0 s.keep.cursors (4 * p + cls)
    alignUp ((claimed s p cls).foldl (fun a i => max a (i + 2)) next) lines

/-- Record indices of a class: REC_LIMIT, or the volatile limit (06 R196; 07 R219). -/
def idxLimit (s : State) (p cls : Nat) : Nat := if cls = 1 then recLimit s p else volLimit s p

/-- The line at an index, as the Keep holds it: none where it was never written. -/
def oldLine (s : State) (p cls idx : Nat) : Bytes := ((keepLine s p cls idx).map (·.data)).getD (zeros 64)

/-- FORMAT of the line at an index. -/
def oldFormat (s : State) (p cls idx : Nat) : Nat := byteAt (oldLine s p cls idx) 0

/-- CHECK of the line at an index. -/
def oldCheck (s : State) (p cls idx : Nat) : Nat := byteAt (oldLine s p cls idx) 7

/-- The sets that the lines of a volatile record not yet in the Keep go to. -/
def freshSets (s : State) (p cls idx lines : Nat) : List Nat :=
  ((List.range lines).filter (fun i => (keepLine s p cls (idx + i)).isNone)).map (fun i => setOf s p cls (idx + i))

/-- A record at the index would exceed 8 pinned ways in some set, its own lines and those of claimed space counted together (07 R219;
04 R140). -/
def pinFull (s : State) (p cls idx lines : Nat) : Bool :=
  let mine := freshSets s p cls idx lines
  let others := ((claimed s p 0).filter (fun i => !(cls == 0 && i == idx))).flatMap (fun i => freshSets s p 0 i 2)
  mine.any (fun q => decide (8 < pinnedIn s p q + (mine ++ others).count q))

/-- No record of so many lines fits at an index of a class (06 R185, R197; 07 R219, R220). -/
def spaceShort (s : State) (p cls named idx lines : Nat) : Bool :=
  poolSets s p == 0 || (named == recAny && decide (idx + lines > idxLimit s p cls)) || (cls != 1 && pinFull s p cls idx lines)

/-- The Keep lines of a record. -/
def recKeys (p cls idx lines : Nat) : List Nat := (List.range lines).map (fun i => keepKey p cls (idx + i))

/-- Exclusive ownership of Keep lines. A grant covers a set of at most 4, and nothing of rank 3 may be asked for while one is held: the sets
of a longer record are granted together, in one cycle or not at all (07 R224; 10 R314; DESIGN CHOICE, log 106). -/
def keepNeeds (ks : List Nat) : List Need := if ks.isEmpty then [] else [.keep ks true]

/-- The class 1 lines of a run that the Keep lacks: they are filled (06 R197; 07 R226). -/
def missing (s : State) (p idx n : Nat) : List Need :=
  ((List.range n).filter (fun j => (keepLine s p 1 (idx + j)).isNone)).map (fun j => .fillLine (idx + j))

/-- Needs of a creating call for its target: ownership, and the old line of a class 1 record (06 R197; 10 R314). A partition without
rooms has no lines to own (07 R220). -/
def createNeeds (s : State) (p cls idx lines : Nat) : List Need :=
  if poolSets s p = 0 then [] else keepNeeds (recKeys p cls idx lines) ++ (if cls = 1 then missing s p idx 1 else [])

/-- A record that a creating call writes. -/
structure NewRec where
  /-- Partition. -/
  part : Nat
  /-- Class. -/
  cls : Nat
  /-- RECORD field of the call. -/
  named : Nat
  /-- The record; CHECK, KCV's place and DMK_ID are filled in by the write. -/
  body : KeyRec

/-- Moves the cursor of a class past a record that it placed (06 R185). -/
def advanceCursor (s : State) (n : NewRec) (idx : Nat) : State :=
  let k := 4 * n.part + n.cls
  let past := idx + n.body.lines
  if n.named ≠ recAny then s
  else if n.cls = 1 then setDesc s n.part (patch (descOf s n.part) 16 (leBytes 6 (max (allocNext s n.part) past)))
  else { s with keep := { s.keep with cursors := tblSet 0 s.keep.cursors k (max (tblGet 0 s.keep.cursors k) past) } }

/-- Releases the lanes of a context (08 R258, R259). -/
def releaseLanes (s : State) (t c : Nat) : State :=
  let w := s.tower t
  retireIdle (retireIdle (s.setTower t { w with clanes := dropLanes c w.clanes, hlanes := dropLanes c w.hlanes }) t false) t true

/-- What a context saves of the lanes of a kind that it releases itself (08 R259, R269). -/
def ownSaved (s : State) (t c : Nat) (hash : Bool) : List Saved :=
  (((s.tower t).lanes hash).filter (fun l => l.owner == some c)).map (fun l =>
    { hash := hash, config := l.config, regs := l.regs.toSave, own := true })

/-- The request for lanes that have been released. -/
def backNeeds (l : List Saved) : List Need :=
  [false, true].flatMap (fun h => match l.filter (fun v => v.hash == h) with
    | [] => []
    | v :: r => [.lanes h (r.length + 1) v.config])

/-- The context goes back to resources of an earlier rank: it releases its units, saving the state of its lanes, and asks for the lanes
again after those resources (08 R259, R269). -/
def stepBack (s : State) (t c : Nat) (n : List Need) : State :=
  let sv := ownSaved s t c false ++ ownSaved s t c true
  let s1 := releaseLanes (freeUnits s t c) t c
  let x := s1.ctx t c
  setNeeds (s1.setCtx t c { x with saved := x.saved ++ sv }) t c (n ++ backNeeds sv)

/-- The context releases its units and its Keep grant, and asks for resources of an earlier rank again (10 R314). -/
def askAgain (s : State) (t c : Nat) (n : List Need) : State :=
  stepBack (s.setCtx t c { s.ctx t c with grant := [], work256 := 0 }) t c n

/-- Class 1 lines that a final step works on are in the Keep; those evicted since they were asked for are filled again. -/
def withLines (s : State) (t c p idx n : Nat) (f : State → State) : State :=
  if (missing s p idx n).isEmpty then f s else stepBack s t c (missing s p idx n)

/-- Writes the registers of the first cipher lane that a context holds. -/
def holdLane (s : State) (t c : Nat) (r : LaneRegs) : State :=
  let w := s.tower t
  match w.clanes.findIdx? (fun l => l.owner == some c) with
  | some i => s.setTower t { w with clanes := w.clanes.zipIdx.map (fun e => if e.2 = i then { e.1 with regs := r } else e.1) }
  | none => s

/-- The CHECK of a new record: one more than that of the line it replaces, or for a volatile index a drawn byte, never 0 (06 R186). -/
def newCheck (s : State) (t c : Nat) (n : NewRec) (idx : Nat) : Nat :=
  let b := byteAt ((s.ctx t c).work.drawn.reverse) 0
  if n.cls ≠ 1 ∧ (keepLine s n.part n.cls idx).isNone then (if b = 0 then 1 else b) else nextCheck (oldCheck s n.part n.cls idx)

/-- The final step of a creating call: the record at its index, in the Keep or through the journal (06 R197; 10 R317). -/
def placeRecord (s : State) (t c : Nat) (n : NewRec) (idx table spire : Nat) (more : List (Nat × Nat × Bytes)) (moreClear : List KeepCopy)
    (res : Nat → KeyRec → Bytes) : State :=
  let check := newCheck s t c n idx
  let k := underDmk s { n.body with check := check }
  let results := res (mkHandle n.part n.cls check idx) k
  let s1 := advanceCursor s n idx
  if n.cls = 1 then
    match recLines s n.part idx k, (if n.named = recAny then descLines s n.part (descOf s1 n.part) else some ([], [])) with
    | some a, some b =>
      if !vaultOnline s then finishCall s t c stVaultUnreach table spire []
      else finalStep s t c (copyKeys (a.2 ++ b.2 ++ moreClear)) (fun _ => passGroup s1 t c
        { at_ := (t, c), lines := a.1 ++ b.1 ++ more, undo := if n.named = recAny then [(n.part, descOf s n.part, descOf s1 n.part)] else [] }
        (a.2 ++ b.2 ++ moreClear) (stOk, table, spire, results))
    | _, _ => finishCall s t c stVaultUnreach table spire []
  else
    finalStep s t c (recKeys n.part n.cls idx n.body.lines) (fun _ =>
      finishCall ((installAll n.cls .pinned s1 (copiesOf n.part idx (encodeRec k))).getD s1) t c stOk table spire results)

/-- Places a record and completes the call: `table` are the OK path cycles, `res` the results from the handle and the
record, `more` lines that go into the same group (06 R197, R203). Where the index has moved since its lines were asked for, they are
asked for again. An index that the cursor gave or a claim holds is judged as a named one is: where a record has come to stand there the
call ends BAD_PARAMETER, at the OK path (04 R140; DESIGN CHOICE, log 134). -/
def createRecord (s : State) (t c : Nat) (n : NewRec) (table spire : Nat) (more : List (Nat × Nat × Bytes))
    (moreClear : List KeepCopy) (res : Nat → KeyRec → Bytes) : State :=
  let x := s.ctx t c
  let l := n.body.lines
  let idx := (x.space.map (·.2)).getD (targetIdx s n.part n.cls n.named l)
  if n.cls = 1 ∧ !vaultOnline s then finishCall s t c stVaultUnreach table spire []
  else if x.space.isNone ∧ spaceShort s n.part n.cls n.named idx l then finishCall s t c stCapacity table spire [4]
  else if !(recKeys n.part n.cls idx l).all (fun k => x.grant.contains k) then askAgain s t c (createNeeds s n.part n.cls idx l)
  else if n.cls = 1 ∧ (keepLine s n.part 1 idx).isNone then withLines s t c n.part idx 1 id
  else if oldFormat s n.part n.cls idx ≠ 0 then finishCall s t c stBadParam table spire []
  else if n.cls ≠ 1 ∧ (keepLine s n.part n.cls idx).isNone ∧ !x.work.check then
    setNeeds (modWork s t c (fun w => { w with check := true })) t c [.draw 1]
  else placeRecord s t c n idx table spire more moreClear res

/-- RESULTS of a creating call: the handle and the check value (06 R197). -/
def createResults (h : Nat) (k : KeyRec) : Bytes := leBytes 8 h ++ fit 3 k.kcv

/-- Writes anew a class 1 record that the Keep holds, and completes the call once its group commits; `f` is what else the final step does. -/
def rewriteRecord (s : State) (t c p idx : Nat) (k : KeyRec) (held : Nat × Nat × Nat × Bytes) (f : State → State) : State :=
  match recLines s p idx k with
  | none => finishCall s t c stVaultUnreach held.2.1 held.2.2.1 []
  | some l =>
    if !vaultOnline s then finishCall s t c stVaultUnreach held.2.1 held.2.2.1 []
    else finalStep s t c (copyKeys l.2) (fun a => passGroup (f a) t c { at_ := (t, c), lines := l.1 } l.2 held)

/-- A class 1 record emptied: FORMAT 0x00 with CHECK kept, as lines to store and to hold in clear (06 R186, R200). -/
def emptyLine (check : Nat) : Bytes := zeros 7 ++ [BitVec.ofNat 8 check] ++ zeros 56

/-- Writes a partition descriptor and completes the call once it commits; `f` is what else the final step does, and `unbind` undoes it in
the binding table. -/
def writeDesc (s : State) (t c p : Nat) (d : Bytes) (unbind : List (Nat × Option Nat × Option Nat)) (held : Nat × Nat × Nat × Bytes)
    (f : State → State) : State :=
  match descLines s p d with
  | none => finishCall s t c stVaultUnreach held.2.1 held.2.2.1 []
  | some l =>
    if !vaultOnline s then finishCall s t c stVaultUnreach held.2.1 held.2.2.1 []
    else finalStep s t c (copyKeys l.2) (fun a =>
      passGroup (setDesc (f a) p d) t c { at_ := (t, c), lines := l.1, undo := [(p, descOf s p, d)], unbind := unbind } l.2 held)

/-! ## Parameter checks of creating calls (06 R196) -/

/-- The attribute fields of KEY_GENERATE and KEY_DERIVE as a record. -/
def attrRec (d : Bytes) : KeyRec :=
  { format := 1, alg := byteAt d 64, usage := beAt d 66 2, mode := byteAt d 68, exportC := byteAt d 69,
    flags := byteAt d 70, version := beAt d 72 2, lines := 2, notBefore := leAt d 74 6, notAfter := leAt d 80 6,
    keylen := if byteAt d 64 = 6 then byteAt d 71 else algBytes (byteAt d 64) }

/-- EXPORT is 'E', 'N' or 'S'. -/
def exportChar (e : Nat) : Bool := e == chr "E" || e == chr "N" || e == chr "S"

/-- RECORD is all ones, or even and below the limit of its class (06 R196 check 6): aligned to the record's lines. The
vault's indices 0 to 4,095 of partition 0 hold only descriptors (06, Partitions and binding). -/
def recordField (s : State) (p cls r lines : Nat) : Bool :=
  r == recAny || (r % lines == 0 && decide (r < idxLimit s p cls) && !(p == 0 && cls == 1 && decide (r < 4096)))

/-- R196 over a symmetric record: true where every check passes. -/
def attrChecks (s : State) (p cls named : Nat) (k : KeyRec) (derive : Bool) (keylen : Nat) : Bool :=
  attrRow k.usage k.alg k.mode && decide (k.alg ≤ 6) && (!derive || decide (3 ≤ k.alg)) && k.usage != usageOf "B1" &&
    (if k.alg = 6 then decide (1 ≤ keylen) && decide (keylen ≤ 32) else keylen == 0) && exportChar k.exportC &&
    flagsOk k.flags k.usage k.alg k.mode cls && versionOk k.version && decide (k.notBefore < k.notAfter) &&
    recordField s p cls named 2

/-- Two runs of lines are disjoint. -/
def disjoint (a n b m : Nat) : Bool := decide (a + n ≤ b) || decide (b + m ≤ a)

/-- R196 check 7: token tables below REC_LIMIT, apart from each other and from the record; without TOKENIZATION the
fields are 0. -/
def tokenChecks (s : State) (p idx flags k pan tok : Nat) : Bool :=
  if bitOf flags 1 then
    decide (10 ≤ k) && decide (k ≤ 32) && decide (pan + 2 ^ k ≤ recLimit s p) && decide (tok + 2 ^ k ≤ recLimit s p) &&
      disjoint pan (2 ^ k) tok (2 ^ k) && disjoint pan (2 ^ k) idx 2 && disjoint tok (2 ^ k) idx 2
  else k == 0 && pan == 0 && tok == 0

/-- A draw of `n` bytes in parts of at most 128, so that the 256-byte buffer can always serve each (08 R268, R277; how a
long draw is parted is a DESIGN CHOICE, log 13). -/
def drawAux : Nat → Nat → List Need
  | 0, _ => []
  | k + 1, n => if n = 0 then [] else if n ≤ 128 then [.draw n] else .draw 128 :: drawAux k (n - 128)

/-- The draws for `n` bytes. -/
def drawNeeds (n : Nat) : List Need := drawAux (n / 128 + 1) n

end Sys2Proof.Machine
end

