-- ==== Sys2Proof/Machine/Lattice.lean ====
section
/-! DEFINITION. The polynomial arithmetic of the Spire, ML-KEM and ML-DSA (09 R285, R286, R291, R294; FIPS 203 and FIPS 204 are
named by the spec and not restated by it: log 5, PRESUMED). A polynomial is the list of its 256 coefficients below q. -/

namespace Sys2Proof.Machine

/-! ## Polynomials (PNTT, PINTT, PMUL, PADD, PSUB) -/

/-- A polynomial. -/
abbrev Poly := List Nat

/-- The zero polynomial. -/
def zeroPoly : Poly := List.replicate 256 0

/-- PADD. -/
def pAdd (q : Nat) (f g : Poly) : Poly := List.zipWith (fun a b => (a + b) % q) f g

/-- PSUB. -/
def pSub (q : Nat) (f g : Poly) : Poly := List.zipWith (fun a b => (a + q - b) % q) f g

/-- The number of `w` bits with its bits in reverse order. -/
def bitRev : Nat → Nat → Nat
  | 0, _ => 0
  | w + 1, v => (v % 2) * 2 ^ w + bitRev w (v / 2)

/-- The forward transform, `d` layers deep from block number `i`: the halves of block i are the blocks 2i and 2i + 1. -/
def nttAux (q : Nat) (z : Nat → Nat) : Nat → Nat → Poly → Poly
  | 0, _, f => f
  | d + 1, i, f =>
    let lo := f.take (f.length / 2)
    let hi := (f.drop (f.length / 2)).map (fun a => z i * a % q)
    nttAux q z d (2 * i) (pAdd q lo hi) ++ nttAux q z d (2 * i + 1) (pSub q lo hi)

/-- The inverse transform without its last scaling: its blocks count down. -/
def inttAux (q : Nat) (z : Nat → Nat) : Nat → Nat → Poly → Poly
  | 0, _, f => f
  | d + 1, i, f =>
    let lo := inttAux q z d (2 * i + 1) (f.take (f.length / 2))
    let hi := inttAux q z d (2 * i) (f.drop (f.length / 2))
    pAdd q lo hi ++ (pSub q hi lo).map (fun a => z i * a % q)

/-- The sum of polynomials. -/
def pSum (q : Nat) (fs : List Poly) : Poly := fs.foldl (pAdd q) zeroPoly

/-- Coefficients of `w` bits as bytes, the first one lowest. -/
def packBits (w : Nat) (f : List Nat) : Bytes := leBytes (f.length * w / 8) (f.foldr (fun x a => a * 2 ^ w + x) 0)

/-- The 256 coefficients of `w` bits in a byte string. -/
def unpackBits (w : Nat) (b : Bytes) : List Nat :=
  let v := leVal b
  (List.range 256).map (fun i => (v >>> (w * i)) % 2 ^ w)

/-- Coefficients of rejection sampling: blocks of `rate` bytes until there are `n`, and how many blocks it took (09 R286). -/
def sampleFrom (rate : Nat) (parse : Bytes → List Nat) (n : Nat) : Nat → Nat → List Nat → List Nat → List Nat × Nat
  | 0, k, acc, _ => (acc.take n, k)
  | f + 1, k, acc, a =>
    let more := acc ++ parse (keccakOut rate a)
    if n ≤ more.length then (more.take n, k + 1) else sampleFrom rate parse n f (k + 1) more (keccakF a)

/-- The most blocks that a sampling takes (log 91: the spec gives no bound; that five blocks fall short has a chance below 2⁻¹²⁰). -/
def sampleFuel : Nat := 64

/-! ## ML-KEM (FIPS 203) -/

/-- The modulus of ML-KEM. -/
def kemQ : Nat := 3329

/-- Rank, and the bits of the compressed u and v. -/
structure KemSet where
  /-- Rank of the module. -/
  k : Nat
  /-- Bits of a coefficient of u. -/
  du : Nat
  /-- Bits of a coefficient of v. -/
  dv : Nat

/-- ML-KEM-768 (ALG 0x20) and ML-KEM-1024. -/
def kemSet (alg : Nat) : KemSet := if alg = 0x20 then { k := 3, du := 10, dv := 4 } else { k := 4, du := 11, dv := 5 }

/-- The factor of block `i`: 17 to the power of its reversed bits. -/
def kemZeta (i : Nat) : Nat := 17 ^ bitRev 7 i % kemQ

/-- PNTT in 7 layers. -/
def kemNtt (f : Poly) : Poly := nttAux kemQ kemZeta 7 1 f

/-- PINTT in 7 layers; 3303 is the inverse of 128. -/
def kemIntt (f : Poly) : Poly := (inttAux kemQ kemZeta 7 1 f).map (fun a => a * 3303 % kemQ)

/-- The product of degree-one polynomials, pair by pair from pair number `i`. -/
def kemMulAux : Nat → Poly → Poly → Poly
  | i, a0 :: a1 :: f, b0 :: b1 :: g =>
    (a0 * b0 + a1 * b1 % kemQ * (17 ^ (2 * bitRev 7 i + 1) % kemQ)) % kemQ :: (a0 * b1 + a1 * b0) % kemQ :: kemMulAux (i + 1) f g
  | _, _, _ => []

/-- PMUL. -/
def kemMul (f g : Poly) : Poly := kemMulAux 0 f g

/-- The inner product of two vectors in the NTT domain. -/
def kemDot (u v : List Poly) : Poly := pSum kemQ (List.zipWith kemMul u v)

/-- Two values of 12 bits from three bytes, those below q kept. -/
def kemParse : Bytes → List Nat
  | a :: b :: c :: r =>
    ([a.toNat + 256 * (b.toNat % 16), b.toNat / 16 + 16 * c.toNat].filter (fun x => decide (x < kemQ))) ++ kemParse r
  | _ => []

/-- PSAMU: the entry at row `i` and column `j` of the matrix, with the SHAKE128 blocks it took. -/
def kemEntry (rho : Bytes) (i j : Nat) : Poly × Nat :=
  sampleFrom 168 kemParse 256 sampleFuel 0 [] (absorb 168 0x1F (rho ++ [BitVec.ofNat 8 j, BitVec.ofNat 8 i]))

/-- PCBD with η 2: the sample of a seed and a counter. -/
def kemCbd (seed : Bytes) (n : Nat) : Poly :=
  (unpackBits 4 (shake256 (seed ++ [BitVec.ofNat 8 n]) 128)).map
    (fun x => (x % 2 + x / 2 % 2 + kemQ - (x / 4 % 2 + x / 8)) % kemQ)

/-- PCOEF 2, compression to `d` bits. -/
def kemCompress (d : Nat) (f : Poly) : List Nat := f.map (fun x => (2 * x * 2 ^ d + kemQ) / (2 * kemQ) % 2 ^ d)

/-- PCOEF 3, decompression from `d` bits. -/
def kemExpand (d : Nat) (f : List Nat) : Poly := f.map (fun y => (2 * y * kemQ + 2 ^ d) / 2 ^ (d + 1))

/-- The vector of polynomials that an encoding of 12 bits a coefficient gives. -/
def kemVec (k : Nat) (b : Bytes) : List Poly := ((chunks 384 b).take k).map (fun x => (unpackBits 12 x).map (· % kemQ))

/-- Key generation from the seeds d and z: the private and the public key. -/
def kemKeyPair (alg : Nat) (d z : Bytes) : Bytes × Bytes :=
  let p := kemSet alg
  let g := sha3_512 (d ++ [BitVec.ofNat 8 p.k])
  let rho := g.take 32
  let sig := g.drop 32
  let ix := List.range p.k
  let s := ix.map (fun i => kemNtt (kemCbd sig i))
  let e := ix.map (fun i => kemNtt (kemCbd sig (p.k + i)))
  let t := ix.map (fun i => pAdd kemQ (kemDot (ix.map (fun j => (kemEntry rho i j).1)) s) (e.getD i zeroPoly))
  let ek := t.flatMap (packBits 12) ++ rho
  (s.flatMap (packBits 12) ++ ek ++ sha3_256 ek ++ z, ek)

/-- K-PKE encryption of a message of 32 bytes with the randomness `r`. -/
def kemEncrypt (alg : Nat) (ek m r : Bytes) : Bytes :=
  let p := kemSet alg
  let t := kemVec p.k ek
  let rho := ek.drop (384 * p.k)
  let ix := List.range p.k
  let y := ix.map (fun i => kemNtt (kemCbd r i))
  let u := ix.map (fun i => pAdd kemQ (kemIntt (kemDot (ix.map (fun j => (kemEntry rho j i).1)) y)) (kemCbd r (p.k + i)))
  let v := pAdd kemQ (pAdd kemQ (kemIntt (kemDot t y)) (kemCbd r (2 * p.k))) (kemExpand 1 (unpackBits 1 m))
  u.flatMap (fun f => packBits p.du (kemCompress p.du f)) ++ packBits p.dv (kemCompress p.dv v)

/-- K-PKE decryption. -/
def kemDecrypt (alg : Nat) (dk c : Bytes) : Bytes :=
  let p := kemSet alg
  let u := ((chunks (32 * p.du) c).take p.k).map (fun x => kemNtt (kemExpand p.du (unpackBits p.du x)))
  let v := kemExpand p.dv (unpackBits p.dv (c.drop (32 * p.du * p.k)))
  packBits 1 (kemCompress 1 (pSub kemQ v (kemIntt (kemDot (kemVec p.k dk) u))))

/-- Decapsulation with implicit rejection (09 R294): K where the ciphertext encrypts again to itself, else K̄. -/
def kemDecaps (alg : Nat) (dk c : Bytes) : Bytes :=
  let n := 384 * (kemSet alg).k
  let ek := sub dk n (n + 32)
  let m := kemDecrypt alg dk c
  let g := sha3_512 (m ++ sub dk (2 * n + 32) 32)
  if c = kemEncrypt alg ek m (g.drop 32) then g.take 32 else shake256 (sub dk (2 * n + 64) 32 ++ c) 32

/-- The blocks beyond five that the matrix of a seed takes (09 R286). -/
def kemExtra (alg : Nat) (rho : Bytes) : Nat :=
  let k := (kemSet alg).k
  ((List.range (k * k)).map (fun i => (kemEntry rho (i / k) (i % k)).2 - 5)).sum

/-! ## ML-DSA (FIPS 204) -/

/-- The modulus of ML-DSA. -/
def dsaQ : Nat := 8380417

/-- The parameters of ML-DSA. -/
structure DsaSet where
  /-- Rows of the matrix. -/
  k : Nat
  /-- Columns of the matrix. -/
  l : Nat
  /-- Range of the secret coefficients. -/
  eta : Nat
  /-- Ones of the challenge. -/
  tau : Nat
  /-- The most ones of a hint. -/
  omega : Nat
  /-- Bytes of the challenge's hash. -/
  ch : Nat

/-- ML-DSA-65 (ALG 0x22) and ML-DSA-87. -/
def dsaSet (alg : Nat) : DsaSet :=
  if alg = 0x22 then { k := 6, l := 5, eta := 4, tau := 49, omega := 55, ch := 48 }
  else { k := 8, l := 7, eta := 2, tau := 60, omega := 75, ch := 64 }

/-- γ1 of both sets. -/
def dsaG1 : Nat := 2 ^ 19

/-- γ2 of both sets. -/
def dsaG2 : Nat := 261888

/-- β = τ·η. -/
def DsaSet.beta (p : DsaSet) : Nat := p.tau * p.eta

/-- The bits of an encoded secret coefficient. -/
def DsaSet.etaBits (p : DsaSet) : Nat := if p.eta = 4 then 4 else 3

/-- `b ^ e mod q` by squaring, `w` bits of the exponent. -/
def dsaPow (b : Nat) : Nat → Nat → Nat
  | 0, _ => 1
  | w + 1, e =>
    let r := dsaPow b w (e / 2)
    if e % 2 = 1 then r * r % dsaQ * b % dsaQ else r * r % dsaQ

/-- The factor of block `i`: 1753 to the power of its reversed bits. -/
def dsaZeta (i : Nat) : Nat := dsaPow 1753 8 (bitRev 8 i)

/-- PNTT in 8 layers. -/
def dsaNtt (f : Poly) : Poly := nttAux dsaQ dsaZeta 8 1 f

/-- PINTT in 8 layers; 8347681 is the inverse of 256. -/
def dsaIntt (f : Poly) : Poly := (inttAux dsaQ dsaZeta 8 1 f).map (fun a => a * 8347681 % dsaQ)

/-- PMUL. -/
def dsaMul (f g : Poly) : Poly := List.zipWith (fun a b => a * b % dsaQ) f g

/-- The product of a matrix and a vector, back in the normal domain. -/
def dsaMat (m : List (List Poly)) (v : List Poly) : List Poly :=
  m.map (fun row => dsaIntt (pSum dsaQ (List.zipWith dsaMul row v)))

/-- The distance of a residue from 0. -/
def dsaAbs (a : Nat) : Nat := min a (dsaQ - a)

/-- PCOEF 5, the norm check: every coefficient stays below `b`. -/
def dsaBelow (b : Nat) (v : List Poly) : Bool := v.all (fun f => f.all (fun a => decide (dsaAbs a < b)))

/-- Coefficients encoded as `b` minus the coefficient, in `w` bits. -/
def dsaPack (w b : Nat) (f : Poly) : Bytes := packBits w (f.map (fun a => (b + dsaQ - a) % dsaQ))

/-- The inverse of `dsaPack`. -/
def dsaUnpack (w b : Nat) (x : Bytes) : Poly := (unpackBits w x).map (fun a => (b + dsaQ - a) % dsaQ)

/-- A value of 23 bits from three bytes, kept where it is below q. -/
def dsaParse : Bytes → List Nat
  | a :: b :: c :: r =>
    let x := a.toNat + 256 * b.toNat + 65536 * (c.toNat % 128)
    if x < dsaQ then x :: dsaParse r else dsaParse r
  | _ => []

/-- PSAMU: the entry at row `r` and column `s`, with the SHAKE128 blocks it took. -/
def dsaEntry (rho : Bytes) (r s : Nat) : Poly × Nat :=
  sampleFrom 168 dsaParse 256 sampleFuel 0 [] (absorb 168 0x1F (rho ++ [BitVec.ofNat 8 s, BitVec.ofNat 8 r]))

/-- The matrix of a seed. -/
def dsaMatrix (p : DsaSet) (rho : Bytes) : List (List Poly) :=
  (List.range p.k).map (fun r => (List.range p.l).map (fun s => (dsaEntry rho r s).1))

/-- The secret coefficient of a nibble, where it gives one. -/
def dsaNibble (eta x : Nat) : List Nat :=
  if eta = 2 then (if x < 15 then [(2 + dsaQ - x % 5) % dsaQ] else [])
  else if x < 9 then [(4 + dsaQ - x) % dsaQ] else []

/-- PETA: polynomial `n` of ExpandS, with the SHAKE256 blocks it took. -/
def dsaSecret (eta : Nat) (seed : Bytes) (n : Nat) : Poly × Nat :=
  sampleFrom 136 (fun b => b.flatMap (fun x => dsaNibble eta (x.toNat % 16) ++ dsaNibble eta (x.toNat / 16))) 256 sampleFuel 0 []
    (absorb 136 0x1F (seed ++ leBytes 2 n))

/-- PMASK: polynomial `n` of ExpandMask. -/
def dsaMask (seed : Bytes) (n : Nat) : Poly := dsaUnpack 20 dsaG1 (shake256 (seed ++ leBytes 2 n) 640)

/-- The swaps of SampleInBall: `todo` places are left, from place `i` on; the signs are the bits of `h`. Where the bytes end, the rest is
left undone. -/
def ballAux (h : Nat) : Nat → Nat → Bytes → Poly → Poly × Nat
  | _, _, [], c => (c, 0)
  | 0, _, r, c => (c, r.length)
  | todo + 1, i, j :: r, c =>
    if j.toNat > i then ballAux h (todo + 1) i r c
    else ballAux (h / 2) todo (i + 1) r ((c.set i (c.getD j.toNat 0)).set j.toNat (if h % 2 = 1 then dsaQ - 1 else 1))

/-- The challenge that `n` blocks of its hash give, and the bytes left over. -/
def dsaBallOf (p : DsaSet) (ct : Bytes) (n : Nat) : Poly × Nat :=
  let b := squeeze 136 n (absorb 136 0x1F ct)
  ballAux (leVal (b.take 8)) p.tau (256 - p.tau) (b.drop 8) zeroPoly

/-- The most blocks that a challenge takes (log 91). -/
def ballFuel : Nat := 8

/-- PBALL: SampleInBall. -/
def dsaBall (p : DsaSet) (ct : Bytes) : Poly := (dsaBallOf p ct ballFuel).1

/-- PCOEF 7, power-of-two rounding: the high part, and the low part modulo q. -/
def dsaRound (a : Nat) : Nat × Nat :=
  let lo := a % 8192
  if lo ≤ 4096 then (a / 8192, lo) else (a / 8192 + 1, lo + dsaQ - 8192)

/-- PCOEF 4, decomposition: the high part, and the low part modulo q. -/
def dsaSplit (a : Nat) : Nat × Nat :=
  let m := 2 * dsaG2
  let lo := a % m
  let base := if lo ≤ dsaG2 then a - lo else a - lo + m
  if base = dsaQ - 1 then (0, (lo + 2 * dsaQ - (if lo ≤ dsaG2 then 0 else m) - 1) % dsaQ)
  else (base / m, (lo + dsaQ - (if lo ≤ dsaG2 then 0 else m)) % dsaQ)

/-- The high part. -/
def dsaHigh (a : Nat) : Nat := (dsaSplit a).1

/-- The high part corrected by a hint; 16 is (q - 1)/(2·γ2). -/
def dsaUseHint (h : Bool) (a : Nat) : Nat :=
  let x := dsaSplit a
  if !h then x.1 else if x.2 ≠ 0 ∧ x.2 ≤ dsaG2 then (x.1 + 1) % 16 else (x.1 + 15) % 16

/-- The encoding of a hint: the places of its ones, then where each polynomial's ones end. -/
def dsaPackHint (p : DsaSet) (h : List (List Bool)) : Bytes :=
  let at1 := h.map (fun f => (List.range 256).filter (fun j => f.getD j false))
  let ends := (List.range p.k).map (fun i => ((at1.take (i + 1)).map List.length).sum)
  fit p.omega (at1.flatten.map (BitVec.ofNat 8)) ++ ends.map (BitVec.ofNat 8)

/-- The numbers rise strictly. -/
def rising : List Nat → Bool
  | a :: b :: r => decide (a < b) && rising (b :: r)
  | _ => true

/-- The hint that an encoding gives; none where it is malformed. -/
def dsaUnpackHint (p : DsaSet) (y : Bytes) : Option (List (List Bool)) :=
  let ends := (List.range p.k).map (fun i => byteAt y (p.omega + i))
  let starts := 0 :: ends
  let part := fun i => (sub y (starts.getD i 0) (ends.getD i 0 - starts.getD i 0)).map BitVec.toNat
  if (List.range p.k).all (fun i => decide (starts.getD i 0 ≤ ends.getD i 0) && decide (ends.getD i 0 ≤ p.omega) && rising (part i)) &&
      allZero (sub y (ends.getLastD 0) (p.omega - ends.getLastD 0))
  then some ((List.range p.k).map (fun i => (List.range 256).map (fun j => (part i).contains j)))
  else none

/-- Key generation from a seed of 32 bytes: the private and the public key. -/
def dsaKeyPair (alg : Nat) (seed : Bytes) : Bytes × Bytes :=
  let p := dsaSet alg
  let g := shake256 (seed ++ [BitVec.ofNat 8 p.k, BitVec.ofNat 8 p.l]) 128
  let rho := g.take 32
  let s1 := (List.range p.l).map (fun i => (dsaSecret p.eta (sub g 32 64) i).1)
  let s2 := (List.range p.k).map (fun i => (dsaSecret p.eta (sub g 32 64) (p.l + i)).1)
  let t := List.zipWith (pAdd dsaQ) (dsaMat (dsaMatrix p rho) (s1.map dsaNtt)) s2
  let pk := rho ++ t.flatMap (fun f => packBits 10 (f.map (fun a => (dsaRound a).1)))
  (rho ++ g.drop 96 ++ shake256 pk 64 ++ (s1 ++ s2).flatMap (dsaPack p.etaBits p.eta) ++
    t.flatMap (fun f => dsaPack 13 4096 (f.map (fun a => (dsaRound a).2))), pk)

/-- μ of a message with an empty context string (09 R291). -/
def dsaMu (tr msg : Bytes) : Bytes := shake256 (tr ++ [0, 0] ++ msg) 64

/-- The challenge's hash over μ and the high parts of w. -/
def dsaChallenge (p : DsaSet) (mu : Bytes) (w1 : List (List Nat)) : Bytes := shake256 (mu ++ w1.flatMap (packBits 4)) p.ch

/-- The challenge's hash of attempt `n` of a signature, from 1, with the mask and w. -/
def dsaTry (p : DsaSet) (sk msg rnd : Bytes) (n : Nat) : Bytes × List Poly × List Poly :=
  let mu := dsaMu (sub sk 64 64) msg
  let seed := shake256 (sub sk 32 32 ++ rnd ++ mu) 64
  let y := (List.range p.l).map (fun i => dsaMask seed ((n - 1) * p.l + i))
  let w := dsaMat (dsaMatrix p (sk.take 32)) (y.map dsaNtt)
  (dsaChallenge p mu (w.map (fun f => f.map dsaHigh)), y, w)

/-- Attempt `n` of a signature of a message with 32 random bytes; none where FIPS 204 rejects it (09 R294). -/
def dsaAttempt (alg : Nat) (sk msg rnd : Bytes) (n : Nat) : Option Bytes :=
  let p := dsaSet alg
  let eb := 32 * p.etaBits
  let s1 := ((chunks eb (sk.drop 128)).take p.l).map (fun x => dsaNtt (dsaUnpack p.etaBits p.eta x))
  let s2 := ((chunks eb (sk.drop (128 + eb * p.l))).take p.k).map (fun x => dsaNtt (dsaUnpack p.etaBits p.eta x))
  let t0 := ((chunks 416 (sk.drop (128 + eb * (p.l + p.k)))).take p.k).map (fun x => dsaNtt (dsaUnpack 13 4096 x))
  let (ct, y, w) := dsaTry p sk msg rnd n
  let c := dsaNtt (dsaBall p ct)
  let times := fun (v : List Poly) => v.map (fun f => dsaIntt (dsaMul c f))
  let z := List.zipWith (pAdd dsaQ) y (times s1)
  let r := List.zipWith (pSub dsaQ) w (times s2)
  let ct0 := times t0
  let r2 := List.zipWith (pAdd dsaQ) r ct0
  let h := List.zipWith (List.zipWith (fun a b => dsaHigh a != dsaHigh b)) r r2
  if dsaBelow (dsaG1 - p.beta) z && dsaBelow (dsaG2 - p.beta) (r.map (fun f => f.map (fun a => (dsaSplit a).2))) && dsaBelow dsaG2 ct0 &&
      decide ((h.map (fun f => f.countP id)).sum ≤ p.omega)
  then some (ct ++ z.flatMap (dsaPack 20 dsaG1) ++ dsaPackHint p h)
  else none

/-- The vector z of a signature. -/
def dsaZ (p : DsaSet) (sg : Bytes) : List Poly := ((chunks 640 (sg.drop p.ch)).take p.l).map (dsaUnpack 20 dsaG1)

/-- The high parts that a verification recovers with a hint. -/
def dsaRecover (p : DsaSet) (pk sg : Bytes) (h : List (List Bool)) : List (List Nat) :=
  let t1 := ((chunks 320 (pk.drop 32)).take p.k).map (fun x => dsaNtt ((unpackBits 10 x).map (· * 8192)))
  let c := dsaNtt (dsaBall p (sg.take p.ch))
  let az := (dsaMatrix p (pk.take 32)).map (fun row => pSum dsaQ (List.zipWith dsaMul row ((dsaZ p sg).map dsaNtt)))
  List.zipWith (List.zipWith dsaUseHint) h (List.zipWith (fun a t => dsaIntt (pSub dsaQ a (dsaMul c t))) az t1)

/-- Verification of a signature. -/
def dsaVerify (alg : Nat) (pk msg sg : Bytes) : Bool :=
  let p := dsaSet alg
  match dsaUnpackHint p (sg.drop (p.ch + 640 * p.l)) with
  | none => false
  | some h =>
    dsaBelow (dsaG1 - p.beta) (dsaZ p sg) && decide (sg.take p.ch = dsaChallenge p (dsaMu (shake256 pk 64) msg) (dsaRecover p pk sg h))

/-- The blocks beyond five that the matrix of a seed takes (09 R286). -/
def dsaExtra (alg : Nat) (rho : Bytes) : Nat :=
  let p := dsaSet alg
  ((List.range (p.k * p.l)).map (fun i => (dsaEntry rho (i / p.l) (i % p.l)).2 - 5)).sum

/-- The blocks beyond three that each secret polynomial of a key generation takes (09 R286). -/
def dsaExtraSecret (alg : Nat) (seed : Bytes) : Nat :=
  let p := dsaSet alg
  let g := shake256 (seed ++ [BitVec.ofNat 8 p.k, BitVec.ofNat 8 p.l]) 128
  ((List.range (p.k + p.l)).map (fun i => (dsaSecret p.eta (sub g 32 64) i).2 - 3)).sum

/-- The blocks beyond two that a challenge takes (09 R286). -/
def dsaExtraBall (alg : Nat) (ct : Bytes) : Nat :=
  let p := dsaSet alg
  ceilDiv (136 * ballFuel - (dsaBallOf p ct ballFuel).2) 136 - 2

end Sys2Proof.Machine
end

