-- ==== Sys2Proof/Machine/Pk.lean ====
section
/-! DEFINITION. Public-key arithmetic of the Spire: modular arithmetic, curves, ECDSA, ECDH and RSA (09 R285, R287,
R291 to R293, R296; the standards are named by the spec and not restated by it: log 5, PRESUMED). -/

namespace Sys2Proof.Machine

/-! ## Modular arithmetic -/

/-- The bits of a number from the least significant one, `fuel` of them. -/
def bitsLe : Nat → Nat → List Bool
  | 0, _ => []
  | f + 1, v => (v % 2 == 1) :: bitsLe f (v / 2)

/-- The bits of a number from its most significant one. -/
def bitsBe (v : Nat) : List Bool := if v = 0 then [] else (bitsLe (Nat.log2 v + 1) v).reverse

/-- The bit length of a number. -/
def bitLen (v : Nat) : Nat := if v = 0 then 0 else Nat.log2 v + 1

/-- `b ^ e mod m` (MEXP, MEXPP). -/
def modPow (b e m : Nat) : Nat := (bitsBe e).foldl (fun a x => if x then a * a % m * b % m else a * a % m) (1 % m)

/-- The extended Euclidean algorithm: the last remainder and the factor of the second argument's inverse. -/
def invAux (n : Nat) : Nat → Nat → Nat → Nat → Nat → Nat × Nat
  | 0, r0, _, t0, _ => (r0, t0)
  | f + 1, r0, r1, t0, t1 =>
    if r1 = 0 then (r0, t0) else invAux n f r1 (r0 % r1) t1 ((t0 + n - (r0 / r1) * t1 % n) % n)

/-- `a⁻¹ mod n`; none where `a` has none (MINV). -/
def modInv (a n : Nat) : Option Nat :=
  let (g, t) := invAux n (2 * bitLen n + 2) n (a % n) 0 (1 % n)
  if g = 1 then some t else none

/-- One Miller-Rabin round of an odd number for a base. -/
def mrRound (n base : Nat) : Bool :=
  let d := n - 1
  let k := (bitsLe (bitLen d) d).findIdx (· == true)
  let x := modPow base (d / 2 ^ k) n
  x == 1 || ((List.range k).foldl (fun (a : Nat × Bool) _ => (a.1 * a.1 % n, a.2 || a.1 == n - 1)) (x, false)).2

/-- A number passes Miller-Rabin rounds for the given bases. -/
def mrPrime (n : Nat) (bases : List Nat) : Bool := decide (3 ≤ n) && n % 2 == 1 && bases.all (mrRound n)

/-! ## Curves -/

/-- P-256 (SP 800-186). -/
def curveP256 : Curve :=
  { p := 0xffffffff00000001000000000000000000000000ffffffffffffffffffffffff,
    a := 0xffffffff00000001000000000000000000000000fffffffffffffffffffffffc,
    b := 0x5ac635d8aa3a93e7b3ebbd55769886bc651d06b0cc53b0f63bce3c3e27d2604b,
    gx := 0x6b17d1f2e12c4247f8bce6e563a440f277037d812deb33a0f4a13945d898c296,
    gy := 0x4fe342e2fe1a7f9b8ee7eb4a7c0f9e162bce33576b315ececbb6406837bf51f5,
    n := 0xffffffff00000000ffffffffffffffffbce6faada7179e84f3b9cac2fc632551,
    h := 1 }

/-- P-384 (SP 800-186). -/
def curveP384 : Curve :=
  { p := 0xfffffffffffffffffffffffffffffffffffffffffffffffffffffffffffffffeffffffff0000000000000000ffffffff,
    a := 0xfffffffffffffffffffffffffffffffffffffffffffffffffffffffffffffffeffffffff0000000000000000fffffffc,
    b := 0xb3312fa7e23ee7e4988e056be3f82d19181d9c6efe8141120314088f5013875ac656398d8a2ed19d2a85c8edd3ec2aef,
    gx := 0xaa87ca22be8b05378eb1c71ef320ad746e1d3b628ba79b9859f741e082542a385502f25dbf55296c3a545e3872760ab7,
    gy := 0x3617de4a96262c6f5d9e98bf9292dc29f8f41dbd289a147ce9da3113b5f0b8c00a60b1ce1d7e819d7a431d7c90ea0e5f,
    n := 0xffffffffffffffffffffffffffffffffffffffffffffffffc7634d81f4372ddf581a0db248b0a77aecec196accc52973,
    h := 1 }

/-- P-521 (SP 800-186). -/
def curveP521 : Curve :=
  { p := 0x1ffffffffffffffffffffffffffffffffffffffffffffffffffffffffffffffffffffffffffffffffffffffffffffffffffffffffffffffffffffffffffffffffff,
    a := 0x1fffffffffffffffffffffffffffffffffffffffffffffffffffffffffffffffffffffffffffffffffffffffffffffffffffffffffffffffffffffffffffffffffc,
    b := 0x51953eb9618e1c9a1f929a21a0b68540eea2da725b99b315f3b8b489918ef109e156193951ec7e937b1652c0bd3bb1bf073573df883d2c34f1ef451fd46b503f00,
    gx := 0xc6858e06b70404e9cd9e3ecb662395b4429c648139053fb521f828af606b4d3dbaa14b5e77efe75928fe1dc127a2ffa8de3348b3c1856a429bf97e7e31c2e5bd66,
    gy := 0x11839296a789a3bc0045c8a5fb42c7d1bd998f54449579b446817afbd17273e662c97ee72995ef42640c550b9013fad0761353c7086a272c24088be94769fd16650,
    n := 0x1fffffffffffffffffffffffffffffffffffffffffffffffffffffffffffffffffa51868783bf2f966b7fcc0148f709a5d03bb5c9b8899c47aebb6fb71e91386409,
    h := 1 }

/-- A point: none is the point at infinity. -/
abbrev Point := Option (Nat × Nat)

/-- The difference of two residues. -/
def subM (p a b : Nat) : Nat := (a + p - b % p) % p

/-- The third point of a line of slope `l`. -/
def ecThird (p l x1 y1 x2 : Nat) : Point :=
  let x := subM p (subM p (l * l % p) x1) x2
  some (x, subM p (l * subM p x1 x % p) y1)

/-- The sum of two points. -/
def ecAdd (c : Curve) (a b : Point) : Point :=
  match a, b with
  | none, q => q
  | q, none => q
  | some (x1, y1), some (x2, y2) =>
    if x1 = x2 then
      if (y1 + y2) % c.p = 0 then none
      else match modInv (2 * y1) c.p with
        | none => none
        | some i => ecThird c.p ((3 * x1 * x1 + c.a) % c.p * i % c.p) x1 y1 x2
    else match modInv (subM c.p x2 x1) c.p with
      | none => none
      | some i => ecThird c.p (subM c.p y2 y1 * i % c.p) x1 y1 x2

/-- `k` times a point (ECLAD). -/
def ecMul (c : Curve) (k : Nat) (q : Point) : Point :=
  (bitsBe k).foldl (fun a b => if b then ecAdd c (ecAdd c a a) q else ecAdd c a a) none

/-- The base point. -/
def ecG (c : Curve) : Point := some (c.gx, c.gy)

/-- The point has coordinates below p and lies on the curve (ECCHK). -/
def onCurve (c : Curve) (x y : Nat) : Bool :=
  decide (x < c.p) && decide (y < c.p) && y * y % c.p == ((x * x + c.a) % c.p * x + c.b) % c.p

/-- Bytes of a field element. -/
def Curve.fb (c : Curve) : Nat := ceilDiv (bitLen c.p) 8

/-- Bytes of a scalar. -/
def Curve.nb (c : Curve) : Nat := ceilDiv (bitLen c.n) 8

/-- An uncompressed point (06 R205). -/
def encPoint (c : Curve) (q : Point) : Bytes :=
  match q with
  | none => []
  | some (x, y) => 0x04 :: (beBytes c.fb x ++ beBytes c.fb y)

/-- A point from its encoding; none where the structure or the curve equation fails (06 R205). -/
def decPoint (c : Curve) (b : Bytes) : Option (Nat × Nat) :=
  let x := beAt b 1 c.fb
  let y := beAt b (1 + c.fb) c.fb
  if b.length = 1 + 2 * c.fb ∧ byteAt b 0 = 4 ∧ onCurve c x y then some (x, y) else none

/-- The leftmost bits of a digest as a number below 2^E (FIPS 186-5). -/
def digestNum (c : Curve) (d : Bytes) : Nat :=
  let e := bitLen c.n
  if 8 * d.length ≤ e then beVal d else beVal d / 2 ^ (8 * d.length - e)

/-- ECDSA signature (r, s) with the nonce `k`. -/
def ecdsaSign (c : Curve) (d k : Nat) (dig : Bytes) : Nat × Nat :=
  match ecMul c k (ecG c) with
  | none => (0, 0)
  | some (x, _) =>
    let r := x % c.n
    (r, ((modInv k c.n).getD 0) * (digestNum c dig + r * d) % c.n)

/-- ECDSA verification. -/
def ecdsaVerify (c : Curve) (q : Nat × Nat) (dig : Bytes) (r s : Nat) : Bool :=
  if r = 0 ∨ r ≥ c.n ∨ s = 0 ∨ s ≥ c.n then false
  else match modInv s c.n with
    | none => false
    | some w =>
      match ecAdd c (ecMul c (digestNum c dig * w % c.n) (ecG c)) (ecMul c (r * w % c.n) (some q)) with
      | none => false
      | some (x, _) => x % c.n == r

/-- How the steps of an ECDSA verification end: with a verdict, at a scalar that the joint ladder refuses, or at the point at infinity (09
R287, R292). -/
inductive EcdsaEnd
  /-- A verdict. -/
  | verdict (ok : Bool)
  /-- ECJNT refuses a scalar. -/
  | ladder
  /-- ECAFF refuses the sum. -/
  | affine
  deriving DecidableEq, Repr

/-- The steps of an ECDSA verification. -/
def ecdsaRun (c : Curve) (q : Nat × Nat) (dig : Bytes) (r s : Nat) : EcdsaEnd :=
  if r = 0 ∨ r ≥ c.n ∨ s = 0 ∨ s ≥ c.n then .verdict false
  else
    let w := (modInv s c.n).getD 0
    let u1 := digestNum c dig * w % c.n
    let u2 := r * w % c.n
    if u1 = 0 ∨ u2 = 0 then .ladder
    else match ecAdd c (ecMul c u1 (ecG c)) (ecMul c u2 (some q)) with
      | none => .affine
      | some (x, _) => .verdict (x % c.n == r)

/-! ## RSA (RFC 8017) -/

/-- MGF1 over a hash. -/
def mgf1 (h : Bytes → Bytes) (hl : Nat) (seed : Bytes) (n : Nat) : Bytes :=
  ((List.range (ceilDiv n hl)).flatMap (fun i => h (seed ++ beBytes 4 i))).take n

/-- The DigestInfo prefix of a hash of `hl` bytes. -/
def digestInfo (hl : Nat) : Bytes :=
  let o : Byte := if hl = 32 then 1 else if hl = 48 then 2 else 3
  [0x30, BitVec.ofNat 8 (hl + 17), 0x30, 0x0D, 0x06, 0x09, 0x60, 0x86, 0x48, 0x01, 0x65, 0x03, 0x04, 0x02, o, 0x05, 0x00,
    0x04, BitVec.ofNat 8 hl]

/-- EMSA-PKCS1-v1_5 in `k` bytes. -/
def emsaPkcs1 (k hl : Nat) (dig : Bytes) : Bytes :=
  let t := digestInfo hl ++ dig
  [0, 1] ++ List.replicate (k - 3 - t.length) 0xFF ++ [0] ++ t

/-- EMSA-PSS with a salt, for a modulus of `m` bits (a multiple of 8). -/
def emsaPss (h : Bytes → Bytes) (hl m : Nat) (dig salt : Bytes) : Bytes :=
  let em := ceilDiv (m - 1) 8
  let hh := h (zeros 8 ++ dig ++ salt)
  let db := zeros (em - hl - hl - 2) ++ [1] ++ salt
  let x := xorB db (mgf1 h hl hh (em - hl - 1))
  let top := 2 ^ (8 - (8 * em - (m - 1)))
  (match x with
    | [] => []
    | y :: r => BitVec.ofNat 8 (y.toNat % top) :: r) ++ hh ++ [0xBC]

/-- EMSA-PSS verification with salts of the hash length. -/
def pssVerify (h : Bytes → Bytes) (hl m : Nat) (dig em : Bytes) : Bool :=
  let n := em.length
  let db := em.take (n - hl - 1)
  let hh := sub em (n - hl - 1) hl
  let top := 2 ^ (8 - (8 * n - (m - 1)))
  let y := xorB db (mgf1 h hl hh (n - hl - 1))
  let z := (match y with
    | [] => []
    | b :: r => BitVec.ofNat 8 (b.toNat % top) :: r)
  let pad := n - hl - hl - 2
  decide (2 * hl + 2 ≤ n) && (em.getLastD 0) == 0xBC && decide ((db.headD 0).toNat < top) && allZero (z.take pad) &&
    byteAt z pad == 1 && h (zeros 8 ++ dig ++ z.drop (pad + 1)) == hh

/-- The salt that an encoding of EMSA-PSS holds. -/
def pssSalt (h : Bytes → Bytes) (hl : Nat) (em : Bytes) : Bytes :=
  let n := em.length
  let y := xorB (em.take (n - hl - 1)) (mgf1 h hl (sub em (n - hl - 1) hl) (n - hl - 1))
  y.drop (n - hl - hl - 1)

/-- OAEP decoding with an empty label; none where it fails. -/
def oaepDecode (h : Bytes → Bytes) (hl : Nat) (em : Bytes) : Option Bytes :=
  let k := em.length
  let ms := sub em 1 hl
  let mdb := em.drop (1 + hl)
  let seed := xorB ms (mgf1 h hl mdb hl)
  let db := xorB mdb (mgf1 h hl seed (k - hl - 1))
  let r := (db.drop hl).dropWhile (· == 0)
  if byteAt em 0 = 0 ∧ db.take hl = h [] ∧ r.head? = some 1 then some (r.drop 1) else none

/-- The RSA private operation by the CRT, from p, q and e. -/
def rsaPriv (p q e x : Nat) : Nat :=
  let n := p * q
  match modInv e ((p - 1) * (q - 1)), modInv q p with
  | some d, some qi =>
    let a := modPow (x % p) (d % (p - 1)) p
    let b := modPow (x % q) (d % (q - 1)) q
    (b + q * (qi * subM p a b % p)) % n
  | _, _ => 0

end Sys2Proof.Machine
end

