-- ==== Sys2Proof/Machine/Spire.lean ====
section
/-! DEFINITION. The Spire's private memory, its command words, their times, refusals and operations (09 R282 to R287). The spec does
not say how points, curves and polynomials lie in a slot: the layout here is a DESIGN CHOICE (log 100), which no register shows. -/

namespace Sys2Proof.Machine

/-! ## Command words (09 R284) -/

/-- The fields of a command word. -/
structure SpCmd where
  /-- OP, 5 bits. -/
  op : Nat := 0
  /-- D, 6 bits. -/
  d : Nat := 0
  /-- A, 6 bits. -/
  a : Nat := 0
  /-- B, 6 bits. -/
  b : Nat := 0
  /-- N, 6 bits. -/
  n : Nat := 0
  /-- PSET, 3 bits. -/
  pset : Nat := 0
  deriving DecidableEq, Repr

/-- The word of a command. -/
def SpCmd.word (c : SpCmd) : Word := BitVec.ofNat 32 (c.op + 2 ^ 5 * c.d + 2 ^ 11 * c.a + 2 ^ 17 * c.b + 2 ^ 23 * c.n + 2 ^ 29 * c.pset)

/-- The fields of a word. -/
def SpCmd.ofWord (w : Word) : SpCmd :=
  let f := fun (lo n : Nat) => fieldOf w.toNat lo n
  { op := f 0 5, d := f 5 6, a := f 11 6, b := f 17 6, n := f 23 6, pset := f 29 3 }

/-- The command is a polynomial one. -/
def SpCmd.isPoly (c : SpCmd) : Bool := decide (0x10 ≤ c.op)

/-- The encoding is defined: no reserved OP, PSET or transform, and N 0 for polynomial commands (09 R284, R285). -/
def SpCmd.defined (c : SpCmd) : Bool :=
  ((decide (1 ≤ c.op) && decide (c.op ≤ 0x0C) && c.pset == 0) ||
    (decide (0x10 ≤ c.op) && decide (c.op ≤ 0x1C) && (c.pset == 1 || c.pset == 2) && c.n == 0)) &&
    (c.op != 0x15 || decide (c.b ≤ 7))

/-- The command uses its D field: all but MCMP and ECCHK do (09 R285). -/
def SpCmd.hasD (c : SpCmd) : Bool := c.op != 0x08 && c.op != 0x0B

/-- The command uses its B field as a slot (09 R284, R285). -/
def SpCmd.hasB (c : SpCmd) : Bool :=
  ([0x01, 0x02, 0x03, 0x06, 0x07, 0x08, 0x09, 0x0A, 0x12, 0x13, 0x14, 0x1C] : List Nat).contains c.op

/-- The command reads its D slot: ECJNT its second scalar, the norm check its bound, the hints and PSCMP what they choose from. -/
def SpCmd.readsD (c : SpCmd) : Bool := c.op == 0x0A || c.op == 0x1C || (c.op == 0x15 && (c.b == 5 || c.b == 6))

/-- The command with its slots in the half that begins at slot `base`; an unused field stays 0 (09 R284). -/
def SpCmd.at_ (c : SpCmd) (base : Nat) : SpCmd :=
  { c with d := if c.hasD then c.d + base else c.d, a := c.a + base, b := if c.hasB then c.b + base else c.b,
           n := if c.isPoly then c.n else c.n + base }

/-! ## Slots -/

/-- Slot `i`. -/
def Spire.slot (x : Spire) (i : Nat) : SpSlot := tblGet ({} : SpSlot) x.slots i

/-- Writes slot `i`: the contents are cut to 4,096 bits. -/
def Spire.put (x : Spire) (i len val : Nat) : Spire :=
  { x with slots := tblSet ({} : SpSlot) x.slots i { len := len, val := val % 2 ^ 4096 } }

/-- Declares the length of slot `i` anew (09 R282). -/
def Spire.declare (x : Spire) (i len : Nat) : Spire := x.put i len (x.slot i).val

/-- The string that begins in slot `i`: one longer than 4,096 bits takes consecutive slots, and the first declares its whole length. -/
def Spire.wide (x : Spire) (i : Nat) : SpSlot :=
  let y := x.slot i
  if y.len ≤ 4096 then y
  else { y with val := (List.range (ceilDiv y.len 4096)).foldr (fun j v => v * 2 ^ 4096 + (x.slot (i + j)).val) 0 }

/-- Writes a string of `len` bits from slot `i`. -/
def Spire.putWide (x : Spire) (i len val : Nat) : Spire :=
  (List.range (max 1 (ceilDiv len 4096))).foldl
    (fun a j => a.put (i + j) (if j = 0 then len else min 4096 (len - 4096 * j)) (val / 2 ^ (4096 * j))) x

/-- Writes several slots from slot `i`: declared lengths and contents. -/
def Spire.putAll (x : Spire) (i : Nat) : List (Nat × Nat) → Spire
  | [] => x
  | (l, v) :: r => (x.put i l v).putAll (i + 1) r

/-- First slot of the half that a context holds. -/
def Spire.base (x : Spire) (c : Nat) : Nat := if x.half1 = some c then 32 else 0

/-- A point in a slot: the coordinates in 576 bits each; bit 1,152 is set for the point at infinity. -/
def pointVal : Point → Nat
  | none => 2 ^ 1152
  | some (x, y) => x + 2 ^ 576 * y

/-- The point that a slot holds. -/
def pointOf (v : Nat) : Point := if bitOf v 1152 then none else some (v % 2 ^ 576, v / 2 ^ 576 % 2 ^ 576)

/-- A curve in its slot: p, a, b, Gx, Gy and n in 576 bits each. -/
def curveVal (c : Curve) : Nat := [c.p, c.a, c.b, c.gx, c.gy, c.n].foldr (fun v a => a * 2 ^ 576 + v) 0

/-- The curve that a slot holds. -/
def curveIn (v : Nat) : Curve :=
  let f := fun (i : Nat) => v / 2 ^ (576 * i) % 2 ^ 576
  { p := f 0, a := f 1, b := f 2, gx := f 3, gy := f 4, n := f 5 }

/-- Bits of a coefficient: 16 for ML-KEM, so that a polynomial fills one slot; 32 for ML-DSA, so that it fills two. -/
def coefBits (pset : Nat) : Nat := if pset = 1 then 16 else 32

/-- The polynomial that begins in slot `i`: 256 coefficients, each of a 256th of the declared length. -/
def Spire.poly (x : Spire) (i : Nat) : Poly :=
  let y := x.wide i
  let w := y.len / 256
  (List.range 256).map (fun k => y.val / 2 ^ (w * k) % 2 ^ w)

/-- Coefficients of `w` bits as one number, the first one lowest. -/
def polyVal (w : Nat) (f : Poly) : Nat := f.foldr (fun a b => b * 2 ^ w + a % 2 ^ w) 0

/-- Writes a polynomial from slot `i`. -/
def Spire.putPoly (x : Spire) (pset i : Nat) (f : Poly) : Spire := x.putWide i (256 * coefBits pset) (polyVal (coefBits pset) f)

/-- Writes a polynomial of small coefficients, of `w` bits each, to slot `i`. -/
def Spire.putSmall (x : Spire) (w i : Nat) (f : Poly) : Spire := x.put i (256 * w) (polyVal w f)

/-- The bytes of a slot, as many as its declared length names. -/
def SpSlot.bytes (y : SpSlot) : Bytes := leBytes (y.len / 8) y.val

/-! ## Times (09 R285) -/

/-- Cycles of a command, from declared lengths, E, PSET and, for MEXPP, the ones of the public exponent (09 R285, R286). `more`: the
blocks that a sampling takes beyond its fixed ones. -/
def Spire.time (x : Spire) (c : SpCmd) (more : Nat) : Nat :=
  let l := (x.slot c.n).len
  let e := (x.slot c.b).len
  match c.op with
  | 0x01 => spA l
  | 0x02 => spA l
  | 0x03 => spM l
  | 0x04 => 2 * spM l
  | 0x05 => spI l
  | 0x06 => spExp l e
  | 0x07 => spExpP l e ((bitsBe (x.slot c.b).val).filter id).length
  | 0x08 => spA l
  | 0x09 => 242 * e
  | 0x0A => 242 * (e + 1)
  | 0x0B => 4 * spM l
  | 0x0C => spI l + 2 * spM l
  | 0x10 => if c.pset = 1 then 1800 else 2056
  | 0x11 => if c.pset = 1 then 1800 else 2056
  | 0x12 => if c.pset = 1 then 776 else 264
  | 0x13 => 136
  | 0x14 => 136
  | 0x15 => 136
  | 0x16 => (if c.pset = 1 then 408 else 268) + 80 * more
  | 0x17 => 160
  | 0x18 => 208 + 80 * more
  | 0x19 => 256
  | 0x1A => 184 + 80 * more
  | 0x1B => 24
  | 0x1C => ceilDiv (ceilDiv (x.slot c.a).len 8) 32 + 1
  | _ => 0

/-! ## Refusals (09 R287) -/

/-- The command refuses its operands. -/
def Spire.refuses (x : Spire) (c : SpCmd) : Bool :=
  let a := (x.slot c.a).val
  let b := (x.slot c.b).val
  let n := (x.slot c.n).val
  let exp := decide (a < 2) || decide (a ≥ n) || decide (b ≤ 1) || n % 2 == 0 || !bitOf n ((x.slot c.n).len - 1)
  match c.op with
  | 0x05 => a == 0 || Nat.gcd a n != 1
  | 0x06 => exp
  | 0x07 => exp || decide ((x.slot c.b).len + ((bitsBe b).filter id).length > 64)
  | 0x09 => b == 0
  | 0x0A => b == 0 || (x.slot c.d).val == 0
  | 0x0B => match pointOf a with
    | none => true
    | some (px, py) => !onCurve (curveIn n) px py
  | 0x0C => (pointOf a).isNone
  | _ => false

/-! ## Operations (09 R285) -/

/-- The least coefficient's distance that ML-DSA's encodings of `w` bits start from: η of 4 and 3 bits, 2^12 of t0, γ1 of z (FIPS 204). -/
def dsaOffset (w : Nat) : Nat := if w = 4 then 4 else if w = 3 then 2 else if w = 13 then 4096 else dsaG1

/-- PCOEF 0, decode: ML-KEM's coefficients reduced modulo q; of ML-DSA, t1 in 10 bits, and the signed encodings. -/
def spDecode (pset w : Nat) (b : Bytes) : Poly :=
  if pset = 1 then (unpackBits w b).map (· % kemQ)
  else if w = 10 then (unpackBits 10 b).map (· * 8192) else dsaUnpack w (dsaOffset w) b

/-- PCOEF: transform `b` of what begins in slot `a` into slot `d`, whose declared length tells the width of an encoding. Decomposition and
power-of-two rounding leave the high part, of 4 and of 10 bits a coefficient, in slot `d`, and the low part from slot `d` + 2 on. -/
def Spire.coef (x : Spire) (c : SpCmd) : Spire :=
  let y := x.wide c.a
  let f := x.poly c.a
  let da := y.len / 256
  let dd := (x.slot c.d).len / 256
  match c.b with
  | 0 => x.putPoly c.pset c.d (spDecode c.pset da (leBytes (y.len / 8) y.val))
  | 1 => x.put c.d (256 * dd) (leVal (if c.pset = 1 ∨ da = dd then packBits dd f else dsaPack dd (dsaOffset dd) f))
  | 2 => x.put c.d (256 * dd) (leVal (packBits dd (kemCompress dd f)))
  | 3 => x.putPoly c.pset c.d (kemExpand da f)
  | 4 => (x.putSmall 4 c.d (f.map dsaHigh)).putPoly c.pset (c.d + 2) (f.map (fun a => (dsaSplit a).2))
  | 5 => { x with flag := dsaBelow (x.slot c.d).val [f] }
  | 6 =>
    let h := x.poly c.d
    if dd = 1 then x.putSmall 4 c.d (List.zipWith (fun b a => dsaUseHint (b == 1) a) h f)
    else x.putSmall 1 c.d (List.zipWith (fun a b => if dsaHigh a = dsaHigh b then 0 else 1) f h)
  | _ => (x.putSmall 10 c.d (f.map (fun a => (dsaRound a).1))).putPoly c.pset (c.d + 2) (f.map (fun a => (dsaRound a).2))

/-- The matrix entry that a seed with its two indices gives, and the blocks it took. -/
def samEntry (pset : Nat) (b : Bytes) : Poly × Nat :=
  if pset = 1 then kemEntry (b.take 32) (byteAt b 33) (byteAt b 32) else dsaEntry (b.take 32) (byteAt b 33) (byteAt b 32)

/-- The set of ML-DSA whose challenge hash has `n` bits: ML-DSA-65 or ML-DSA-87. -/
def setOfHash (n : Nat) : DsaSet := dsaSet (if n = 384 then 0x22 else 0x23)

/-- Keccak-f on a state of 25 lanes of 64 bits, the first one lowest. -/
def keccakVal (a : Nat) : Nat :=
  (keccakF ((List.range 25).map (fun i => a / 2 ^ (64 * i) % 2 ^ 64))).foldr (fun v s => s * 2 ^ 64 + v) 0

/-- The blocks that a sampling command takes beyond its fixed ones (09 R286). -/
def Spire.more (x : Spire) (c : SpCmd) : Nat :=
  let b := (x.slot c.a).bytes
  match c.op with
  | 0x16 => (samEntry c.pset b).2 - 5
  | 0x18 => (dsaSecret (if (x.slot c.d).len = 768 then 2 else 4) (b.take 64) (leAt b 64 2)).2 - 3
  | 0x1A => if (x.slot c.a).len = 384 then dsaExtraBall 0x22 b else dsaExtraBall 0x23 b
  | _ => 0

/-- What a command leaves in the memory and the flag, where it refuses nothing. ECAFF leaves x in slot D and y in the next; PSCMP leaves in D
what slot D holds where the strings are equal, else what the next slot holds (DESIGN CHOICE, log 100: the spec gives the operations only). -/
def Spire.exec (x : Spire) (c : SpCmd) : Spire :=
  let a := (x.slot c.a).val
  let b := (x.slot c.b).val
  let n := (x.slot c.n).val
  let l := (x.slot c.n).len
  let q := if c.pset = 1 then kemQ else dsaQ
  let sb := (x.slot c.a).bytes
  let p := fun (i : Nat) => x.poly i
  match c.op with
  | 0x01 => x.put c.d l ((a + b) % n)
  | 0x02 => x.put c.d l ((a % n + n - b % n) % n)
  | 0x03 => x.put c.d l (a * b % n)
  | 0x04 => x.put c.d l (a % n)
  | 0x05 => x.put c.d l ((modInv a n).getD 0)
  | 0x06 => x.put c.d l (modPow a b n)
  | 0x07 => x.put c.d l (modPow a b n)
  | 0x08 => { x with flag := a == b }
  | 0x09 => x.put c.d l (pointVal (ecMul (curveIn n) b (pointOf a)))
  | 0x0A =>
    let e := curveIn n
    x.put c.d l (pointVal (ecAdd e (ecMul e b (pointOf a)) (ecMul e (x.slot c.d).val (ecG e))))
  | 0x0B => x
  | 0x0C => match pointOf a with
    | none => x
    | some (u, v) => (x.put c.d l u).put (c.d + 1) l v
  | 0x10 => x.putPoly c.pset c.d (if c.pset = 1 then kemNtt (p c.a) else dsaNtt (p c.a))
  | 0x11 => x.putPoly c.pset c.d (if c.pset = 1 then kemIntt (p c.a) else dsaIntt (p c.a))
  | 0x12 => x.putPoly c.pset c.d (if c.pset = 1 then kemMul (p c.a) (p c.b) else dsaMul (p c.a) (p c.b))
  | 0x13 => x.putPoly c.pset c.d (pAdd q (p c.a) (p c.b))
  | 0x14 => x.putPoly c.pset c.d (pSub q (p c.a) (p c.b))
  | 0x15 => x.coef c
  | 0x16 => x.putPoly c.pset c.d (samEntry c.pset sb).1
  | 0x17 => x.putPoly c.pset c.d (kemCbd (sb.take 32) (byteAt sb 32))
  | 0x18 => x.putPoly c.pset c.d (dsaSecret (if (x.slot c.d).len = 768 then 2 else 4) (sb.take 64) (leAt sb 64 2)).1
  | 0x19 => x.putPoly c.pset c.d (dsaMask (sb.take 64) (leAt sb 64 2))
  | 0x1A => x.putPoly c.pset c.d (dsaBall (setOfHash (x.slot c.a).len) sb)
  | 0x1B => x.put c.d 1600 (keccakVal a)
  | 0x1C =>
    let eq := (x.wide c.a).val == (x.wide c.b).val
    let y := x.slot (if eq then c.d else c.d + 1)
    { x.put c.d y.len y.val with flag := eq }
  | _ => x

/-- A command runs to its end, `past` of its cycles having been counted already: its full time counts as busy, and a refusal is counted
and leaves the memory as it was (09 R287, R300). The result says whether it refused. -/
def Spire.run (x : Spire) (c : SpCmd) (past : Nat) : Spire × Bool :=
  let y := { x with busy := (x.busy + (x.time c (x.more c) - past)) % 2 ^ 64, cmd := 0 }
  if x.refuses c then ({ y with refusals := satAdd 32 y.refusals 1 }, true) else (y.exec c, false)

/-! ## Programs of a figure -/

/-- A step of a figure's step list: a command by slots of the figure's half, what the figure writes into slots before it, and what it does
with the result. -/
structure SpStep where
  /-- The command. -/
  cmd : SpCmd
  /-- Declared length that the figure gives the destination afterwards; 0: the command's own (09 R282). -/
  len : Nat := 0
  /-- What the figure writes before it: slot, declared length and contents. -/
  given : Unit → List (Nat × Nat × Nat) := fun _ => []
  /-- Values of the context buffer that it loads before it: slot, and place in the buffer. -/
  ins : List (Nat × Nat) := []
  /-- Results that it takes into the context buffer after it: place in the buffer, and slot. -/
  outs : List (Nat × Nat) := []

/-- A step with a command alone. -/
def spDo (op d a b n : Nat) (len : Nat := 0) : SpStep := { cmd := { op := op, d := d, a := a, b := b, n := n }, len := len }

/-- The slots that a step reads. -/
def SpStep.reads (p : SpStep) : List Nat := p.cmd.a :: p.cmd.b :: (if p.cmd.readsD then [p.cmd.d] else [])

/-- Cycles of a list of polynomial commands, without blocks beyond the fixed ones: they depend on no declared length (09 R285, R286). -/
def polyCycles (l : List SpStep) : Nat := (l.map (fun p => ({} : Spire).time p.cmd 0)).sum

/-- A step's operands are written into the half. -/
def SpStep.load (p : SpStep) (base : Nat) (buf : Tbl SpSlot) (x : Spire) : Spire :=
  let y := (p.given ()).foldl (fun a g => a.putWide (base + g.1) g.2.1 g.2.2) x
  p.ins.foldl (fun a e => let v := tblGet ({} : SpSlot) buf e.2; a.putWide (base + e.1) v.len v.val) y

/-- A step's command has run: the figure declares the result's length, and takes results into the context buffer. -/
def SpStep.store (p : SpStep) (base : Nat) (x : Spire) (buf : Tbl SpSlot) : Spire × Tbl SpSlot :=
  let y := if p.len = 0 then x else x.declare (base + p.cmd.d) p.len
  (y, p.outs.foldl (fun a e => tblInsert a e.1 (y.wide (base + e.2))) buf)

/-- The parts into which its yield points cut a command of a job, and the cycles of each but the last: 64 exponent or scalar bits, or a
layer of a transform (09 R288). -/
def Spire.parts (x : Spire) (c : SpCmd) : Nat × Nat :=
  let e := ceilDiv (x.slot c.b).len 64
  match c.op with
  | 0x06 => (e, 128 * spM (x.slot c.n).len)
  | 0x09 => (e, 64 * 242)
  | 0x0A => (e, 64 * 242)
  | 0x10 => (if c.pset = 1 then 7 else 8, 256)
  | 0x11 => (if c.pset = 1 then 7 else 8, 256)
  | _ => (1, 0)

/-- The exponent or scalar bits of a command (09 R288). -/
def Spire.bits (x : Spire) (c : SpCmd) : Nat := if c.op = 0x06 ∨ c.op = 0x09 ∨ c.op = 0x0A then (x.slot c.b).len else 0

/-- The memory without the results of a half that no later step reads; the operands, in the first `ops` slots, stay (09 R289). -/
def Spire.keepLive (x : Spire) (base ops : Nat) (rest : List SpStep) : Spire :=
  { x with slots := x.slots.filter (fun e =>
      e.1 / 32 != base / 32 || decide (e.1 % 32 < ops) || rest.any (fun p => p.reads.contains (e.1 % 32))) }

/-- The memory with a half cleared. -/
def Spire.clearHalf (x : Spire) (base : Nat) : Spire := { x with slots := x.slots.filter (fun e => e.1 / 32 != base / 32) }

/-- A figure loads its operands into its half: those of its key and input as its step list begins; and where the half has been cleared since, as
a suspended job's, with what its job-store entry holds (09 R282, R289). -/
def loadHalf (s : State) (t c : Nat) (ops : List (Nat × Nat)) : State :=
  let w := s.tower t
  let x := w.spire
  let b := x.base c
  let k := (s.ctx t c).work
  let first := k.pc == 0 && k.bits == 0
  if !first && x.slots.any (fun e => e.1 / 32 == b / 32) then s
  else
    let y := (x.clearHalf b).putAll b ops
    let z := if first then y else { y with slots := k.half.foldl (fun a e => tblInsert a (b + e.1) e.2) y.slots }
    modWork (s.setTower t { w with spire := z }) t c (fun a => { a with half := [], ops := ops.length })

/-- What the half of a context holds beside the operands of its key and input, by slot of the half (09 R289). -/
def halfOf (s : State) (t c : Nat) : Tbl SpSlot :=
  let x := (s.tower t).spire
  if !x.half0 == some c && !x.half1 == some c then []
  else (x.slots.filter (fun e => e.1 / 32 == x.base c / 32 && decide ((s.ctx t c).work.ops ≤ e.1 % 32))).map (fun e => (e.1 % 32, e.2))

/-- The next part of a step list: its next command, or, in a job, one part of it up to the next yield point (09 R288). The work's `pc` is the
step, `bits` the parts of it that are done, `sp` the cycles so far; where `count` says so, `progress` counts exponent or scalar bits
(R289). The result says whether the command refused. -/
def spPart (prog : List SpStep) (job count : Bool) (t c : Nat) (s : State) : State × Bool :=
  let w := s.tower t
  let x := w.spire
  let k := (s.ctx t c).work
  let p := prog.getD k.pc { cmd := {} }
  let b := x.base c
  let y := if k.bits = 0 then p.load b k.buf x else x
  let cmd := p.cmd.at_ b
  let (n, unit) := y.parts cmd
  if job && decide (k.bits + 1 < n) then
    let z := { y with cmd := cmd.word, busy := (y.busy + unit) % 2 ^ 64 }
    (modWork (s.setTower t { w with spire := z }) t c (fun a =>
      { a with bits := a.bits + 1, sp := a.sp + unit, progress := a.progress + (if count then 64 else 0) }), false)
  else
    let past := if job then k.bits * unit else 0
    let r := y.run cmd past
    let z := p.store b r.1 k.buf
    let rest := prog.drop (k.pc + 1)
    let live := if job && !rest.isEmpty then z.1.keepLive b k.ops rest else z.1
    (modWork (s.setTower t { w with spire := live }) t c (fun a =>
      { a with pc := a.pc + 1, bits := 0, sp := a.sp + (y.time cmd (y.more cmd) - past), buf := z.2
               progress := a.progress + (if count then y.bits cmd - 64 * k.bits else 0) }), r.2)

/-- Parts of a step list, one after another, until one refuses. -/
def spRun (prog : List SpStep) (job count : Bool) (t c : Nat) : Nat → State → State × Bool
  | 0, s => (s, false)
  | n + 1, s =>
    let r := spPart prog job count t c s
    if r.2 then r else spRun prog job count t c n r.1

/-- The commands of a step list on the memory, until one refuses, from step to step with what the context buffer holds. -/
def Spire.runAll (base : Nat) : List SpStep → Spire → Tbl SpSlot → Spire
  | [], x, _ => x
  | p :: r, x, buf =>
    let y := (p.load base buf x).run (p.cmd.at_ base) 0
    if y.2 then y.1
    else
      let z := p.store base y.1 buf
      Spire.runAll base r z.1 z.2

/-- A call that is not a job runs a step list: its operands are loaded, its commands run, and its half is released and cleared after the last
of them (09 R282, R283). `n` are the cycles of the figure's commands, and `refused` says that a command refused its operands (09 R287,
R292, R300). -/
def spCall (s : State) (t c : Nat) (prog : List SpStep) (ops : List (Nat × Nat)) (n : Nat) (refused : Bool) : State :=
  let w := s.tower t
  let x := w.spire
  let y := Spire.runAll (x.base c) prog ((x.clearHalf (x.base c)).putAll (x.base c) ops) []
  s.setTower t { w with spire := { y.drop c with
    cmd := x.cmd, busy := (x.busy + n) % 2 ^ 64, flag := x.flag, refusals := if refused then satAdd 32 x.refusals 1 else x.refusals } }

/-- A context that has run its last command releases and clears its half (09 R283). -/
def freeHalf (s : State) (t c : Nat) : State :=
  let w := s.tower t
  s.setTower t { w with spire := w.spire.drop c }

end Sys2Proof.Machine
end

