-- ==== Sys2Proof/Machine/Programs.lean ====
section
/-! DEFINITION. The step lists of the Spire's figures (09 R282, R284, R292 to R294). The spec gives how many cycles each figure's commands take, and
for one figure how many commands of each kind; which slots and which order the steps take is a DESIGN CHOICE (log 100), such that the
commands' times add up to the spec's. -/

namespace Sys2Proof.Machine

/-! ## Elliptic curves (09 R292) -/

/-- ECDSA signature. Slots: 0 the curve, 1 n, 2 G, 3 k, 4 the private key, 5 the digest, 6 zero; the results r and s in 11 and 14. -/
def ecSignProg : List SpStep :=
  [spDo 0x09 8 2 3 0, spDo 0x0C 8 8 0 0, spDo 0x05 10 3 0 1, spDo 0x01 11 8 6 1, spDo 0x08 0 11 6 1, spDo 0x01 12 5 6 1,
    spDo 0x03 13 11 4 1, spDo 0x01 13 13 12 1, spDo 0x03 14 13 10 1, spDo 0x08 0 14 6 1]

/-- The operands of a signature with the private key `d` and the nonce `k`. -/
def ecSignOps (e : Curve) (d k : Nat) (dig : Bytes) : List (Nat × Nat) :=
  let l := bitLen e.p
  [(l, curveVal e), (l, e.n), (l, pointVal (ecG e)), (bitLen e.n, k), (l, d), (l, digestNum e dig), (l, 0)]

/-- ECDSA verification, both scalars declared of E bits. Slots: 0 the curve, 1 n, 2 the public key, 3 s, 4 r, 5 the digest, 6 zero. -/
def ecVerifyProg (e : Curve) : List SpStep :=
  let n := bitLen e.n
  [spDo 0x05 7 3 0 1, spDo 0x03 8 5 7 1 n, spDo 0x03 9 4 7 1 n, spDo 0x0A 8 2 9 0, spDo 0x0C 10 8 0 0, spDo 0x01 13 5 6 1, spDo 0x01 14 4 6 1,
    spDo 0x08 0 14 4 1, spDo 0x01 15 3 6 1, spDo 0x08 0 15 3 1, spDo 0x01 12 10 6 1, spDo 0x08 0 12 4 1]

/-- The operands of a verification. An r or s outside [1, n − 1] fails it after all the steps, which then run over a 1 in its place and of the
digest's (09 R292). -/
def ecVerifyOps (e : Curve) (q : Nat × Nat) (dig : Bytes) (r s : Nat) : List (Nat × Nat) :=
  let l := bitLen e.p
  let bad := r = 0 ∨ r ≥ e.n ∨ s = 0 ∨ s ≥ e.n
  [(l, curveVal e), (l, e.n), (l, pointVal (some q)), (l, if bad then 1 else s), (l, if bad then 1 else r), (l, if bad then 1 else digestNum e dig),
    (l, 0)]

/-- ECDH. Slots: 0 the curve, 1 the peer's point, 2 the scalar, 3 zero, 4 p; x in 8. -/
def ecDhProg : List SpStep := [spDo 0x0B 0 1 0 0, spDo 0x09 6 1 2 0, spDo 0x0C 6 6 0 0, spDo 0x01 8 6 3 4]

/-- Bits that the cofactor adds to the scalar of an agreement (09 R292). -/
def cofactorBits (e : Curve) : Nat := if e.h = 1 then 0 else if e.h = 2 then 1 else 2

/-- The operands of an agreement between the private key `d` and a peer's point. -/
def ecDhOps (e : Curve) (d : Nat) (q : Nat × Nat) : List (Nat × Nat) :=
  let l := bitLen e.p
  [(l, curveVal e), (l, pointVal (some q)), (bitLen e.n + cofactorBits e, e.h * d), (l, 0), (l, e.p)]

/-- EC key generation. Slots: 0 the curve, 1 n − 1, 2 the drawn number, 3 n, 4 one, 5 G; the scalar in 6, the public key from 8 on. -/
def ecGenProg (e : Curve) : List SpStep :=
  [spDo 0x04 6 2 0 1, spDo 0x01 6 6 4 3 (bitLen e.n), spDo 0x09 8 5 6 0, spDo 0x0C 8 8 0 0]

/-- The operands of a key generation from the drawn number `v`. -/
def ecGenOps (e : Curve) (v : Nat) : List (Nat × Nat) :=
  let l := bitLen e.p
  [(l, curveVal e), (l, e.n - 1), (2 * l, v), (l, e.n), (l, 1), (l, pointVal (ecG e))]

/-- The check of a point of a curve, and for a cofactor above 1 its product with n. Slots: 0 the curve, 1 the point, 2 n. -/
def ecCheckProg (e : Curve) : List SpStep := spDo 0x0B 0 1 0 0 :: (if e.h > 1 then [spDo 0x09 3 1 2 0] else [])

/-- The operands of a point's check. -/
def ecCheckOps (e : Curve) (q : Nat × Nat) : List (Nat × Nat) :=
  [(bitLen e.p, curveVal e), (bitLen e.p, pointVal (some q)), (bitLen e.n, e.n)]

/-- The check of a further point, written to slot 16, on the curve in slot 0. -/
def ecCheckOne (e : Curve) (q : Nat × Nat) : SpStep :=
  { spDo 0x0B 0 16 0 0 with given := fun _ => [(16, bitLen e.p, pointVal (some q))] }

/-! ## RSA (09 R293) -/

/-- The commands of an RSA private operation, by slots of its half: 0 the input, 1 p, 2 q, 3 and 4 the private exponents mod p − 1 and
mod q − 1, 5 the inverse of q mod p, 6 the modulus, 7 e, 8 and up what they give (09 R293). -/
def rsaProg : List SpStep :=
  [spDo 0x04 8 0 0 1, spDo 0x04 9 0 0 2, spDo 0x06 8 8 3 1, spDo 0x06 9 9 4 2, spDo 0x02 10 8 9 1, spDo 0x03 10 10 5 1, spDo 0x03 11 10 2 6,
    spDo 0x01 11 11 9 6, spDo 0x07 12 11 7 6, spDo 0x08 0 12 0 6]

/-- The public operation of `m` bits and its comparison with the encoding `em` that the hash lanes have made. Slots: 0 the signature, 1 the
exponent, 2 the modulus; the result in 3. -/
def rsaPubProg (m em : Nat) : List SpStep :=
  [spDo 0x07 3 0 1 2, { spDo 0x08 0 3 4 2 with given := fun _ => [(4, m, em)] }]

/-- One Miller-Rabin exponentiation: base, exponent and modulus in slots 0 to 2, of `l` bits each. Its squarings are the figure's own (R293 gives
MEXP alone). -/
def mrProg : List SpStep := [spDo 0x06 3 0 1 2]

/-- The odd part of a number. -/
def oddPart (v : Nat) : Nat := v / 2 ^ (bitsLe (bitLen v) v).findIdx (· == true)

/-- The operands of a Miller-Rabin round of `q`, declared of `l` bits. -/
def mrOps (l q base : Nat) : List (Nat × Nat) := [(l, base), (l, oddPart (q - 1)), (l, q)]

/-! ## Polynomials (09 R294) -/

/-- A command of parameter set `p` over values of the context buffer: its operands go to slots 0 and 2, its result comes from slot 4. -/
def spPoly (p op : Nat) (ins : List Nat) (out : Nat) : SpStep :=
  { cmd := { op := op, d := 4, a := 0, b := if ins.length = 2 then 2 else 0, pset := p },
    ins := ins.zipIdx.map (fun e => (2 * e.2, e.1)), outs := [(out, 4)] }

/-- A command over a byte string in slot 0. -/
def spBytes (p op out : Nat) (b : Unit → Bytes) : SpStep :=
  { cmd := { op := op, d := 4, a := 0, pset := p }, given := fun _ => [(0, 8 * (b ()).length, leVal (b ()))], outs := [(out, 4)] }

/-- PCOEF with a transform over a value of the context buffer; `w` is the width of the coefficients that it encodes. -/
def spCoef (p tr v out : Nat) (w : Nat := 0) : SpStep :=
  { cmd := { op := 0x15, d := 4, a := 0, b := tr, pset := p }, given := fun _ => if w = 0 then [] else [(4, 256 * w, 0)],
    ins := [(0, v)], outs := [(out, 4)] }

/-- PCOEF with a transform over a byte string. -/
def spCoefOf (p tr out : Nat) (b : Unit → Bytes) : SpStep :=
  { cmd := { op := 0x15, d := 4, a := 0, b := tr, pset := p }, given := fun _ => [(0, 8 * (b ()).length, leVal (b ()))], outs := [(out, 4)] }

/-- PCOEF 4 and 7: the high part goes to one place of the context buffer, the low part to another. -/
def spSplit (tr v hi lo : Nat) : SpStep :=
  { cmd := { op := 0x15, d := 4, a := 0, b := tr, pset := 2 }, ins := [(0, v)], outs := [(hi, 4), (lo, 6)] }

/-- PCOEF 5, the norm check of a value below `bound`. -/
def spNorm (v bound : Nat) : SpStep :=
  { cmd := { op := 0x15, d := 4, a := 0, b := 5, pset := 2 }, given := fun _ => [(4, 32, bound)], ins := [(0, v)] }

/-- PCOEF 6, the hint between two values. -/
def spHint (v v2 out : Nat) : SpStep :=
  { cmd := { op := 0x15, d := 4, a := 0, b := 6, pset := 2 }, ins := [(0, v), (4, v2)], outs := [(out, 4)] }

/-- The state of a sponge before permutation `i` over a message. -/
def spongeAt (rate : Nat) (x : Byte) (b : Bytes) (i : Nat) : Nat :=
  let y := b ++ [x]
  let z := y ++ zeros ((rate - y.length % rate) % rate)
  let blks := chunks rate (z.dropLast ++ [z.getLastD 0 ^^^ 0x80])
  let a := (blks.take i).foldl (fun a blk => keccakF (keccakAdd rate a blk)) (List.replicate 25 0)
  (keccakAdd rate a (blks.getD i [])).foldr (fun v s => s * 2 ^ 64 + v) 0

/-- KECCAK over the blocks of a message of `n` bytes. -/
def spHash (p rate n : Nat) (x : Byte) (b : Unit → Bytes) : List SpStep :=
  (List.range (n / rate + 1)).map (fun i =>
    { cmd := { op := 0x1B, d := 4, a := 0, pset := p }, given := fun _ => [(0, 1600, spongeAt rate x (b ()) i)] })

/-- An inner product of pairs of buffer places: PMUL for each, PADD for each but the first. -/
def spDot (p acc : Nat) : List (Nat × Nat) → List SpStep
  | [] => []
  | x :: r => spPoly p 0x12 [x.1, x.2] acc :: r.flatMap (fun y => [spPoly p 0x12 [y.1, y.2] 999, spPoly p 0x13 [acc, 999] acc])

/-- PSAMU of the entry that a seed with two index bytes gives. -/
def spSam (p out : Nat) (rho : Unit → Bytes) (j i : Nat) : SpStep :=
  spBytes p 0x16 out (fun _ => rho () ++ [BitVec.ofNat 8 j, BitVec.ofNat 8 i])

/-- ML-KEM key generation from the seed d. Places: 0 and up s, 10 and up e, 20 and up the rows. -/
def kemGenProg (alg : Nat) (d : Bytes) : List SpStep :=
  let k := (kemSet alg).k
  let ix := List.range k
  let seed := d ++ [BitVec.ofNat 8 k]
  let g := fun (_ : Unit) => sha3_512 seed
  let noise := fun (v n : Nat) => [spBytes 1 0x17 v (fun _ => (g ()).drop 32 ++ [BitVec.ofNat 8 n]), spPoly 1 0x10 [v] v]
  spHash 1 72 33 0x06 (fun _ => seed) ++ ix.flatMap (fun i => noise i i ++ noise (10 + i) (k + i)) ++
    ix.flatMap (fun i => ix.map (fun j => spSam 1 (100 + 4 * i + j) (fun _ => (g ()).take 32) j i) ++
      spDot 1 (20 + i) (ix.map (fun j => (100 + 4 * i + j, j))) ++ [spPoly 1 0x13 [20 + i, 10 + i] (20 + i)]) ++
    ix.flatMap (fun i => [spCoef 1 1 (20 + i) (30 + i) 12, spCoef 1 1 i (40 + i) 12]) ++
    spHash 1 136 (384 * k + 32) 0x06 (fun _ => (kemKeyPair alg d (zeros 32)).2)

/-- ML-KEM decapsulation. Places: 0 and up s, 10 and up t, 20 and up u, 30 v, 40 to 44 the message, 50 and up r, 60 and up e1, 70 e2, 80 and
up u′, 90 v′, 100 and up the matrix. -/
def kemDecapsProg (alg : Nat) (dk c : Bytes) : List SpStep :=
  let q := kemSet alg
  let k := q.k
  let ix := List.range k
  let n := 384 * k
  let m := fun (_ : Unit) => kemDecrypt alg dk c
  let g := fun (_ : Unit) => sha3_512 (m () ++ sub dk (2 * n + 32) 32)
  let r := fun (i : Nat) => (fun (_ : Unit) => (g ()).drop 32 ++ [BitVec.ofNat 8 i])
  let rho := fun (_ : Unit) => sub dk (2 * n) 32
  let kbar := fun (_ : Unit) => shake256 (sub dk (2 * n + 64) 32 ++ c) 32
  ix.flatMap (fun i => [spCoefOf 1 0 i (fun _ => sub dk (384 * i) 384), spCoefOf 1 0 (10 + i) (fun _ => sub dk (n + 384 * i) 384),
      spCoefOf 1 3 (20 + i) (fun _ => sub c (32 * q.du * i) (32 * q.du)), spPoly 1 0x10 [20 + i] (20 + i)]) ++
    [spCoefOf 1 3 30 (fun _ => c.drop (32 * q.du * k))] ++ spDot 1 40 (ix.map (fun i => (i, 20 + i))) ++
    [spPoly 1 0x11 [40] 40, spPoly 1 0x14 [30, 40] 41, spCoef 1 2 41 42 1, spCoef 1 3 42 44] ++
    spHash 1 72 64 0x06 (fun _ => m () ++ sub dk (2 * n + 32) 32) ++
    ix.flatMap (fun i => [spBytes 1 0x17 (50 + i) (r i), spPoly 1 0x10 [50 + i] (50 + i), spBytes 1 0x17 (60 + i) (r (k + i))]) ++
    [spBytes 1 0x17 70 (r (2 * k))] ++
    ix.flatMap (fun i => ix.map (fun j => spSam 1 (100 + 4 * i + j) rho i j) ++
      spDot 1 (80 + i) (ix.map (fun j => (100 + 4 * i + j, 50 + j))) ++
      [spPoly 1 0x11 [80 + i] (80 + i), spPoly 1 0x13 [80 + i, 60 + i] (80 + i), spCoef 1 2 (80 + i) (200 + i) q.du]) ++
    spDot 1 90 (ix.map (fun j => (10 + j, 50 + j))) ++
    [spPoly 1 0x11 [90] 90, spPoly 1 0x13 [90, 70] 90, spPoly 1 0x13 [90, 44] 90, spCoef 1 2 90 210 q.dv] ++
    spHash 1 136 (32 + c.length) 0x1F (fun _ => sub dk (2 * n + 64) 32 ++ c) ++
    [{ cmd := { op := 0x1C, d := 8, a := 0, b := 4, pset := 1 },
       given := fun _ => [(0, 8 * c.length, leVal c), (4, 8 * c.length, leVal (kemEncrypt alg (sub dk n (n + 32)) (m ()) ((g ()).drop 32))),
         (8, 256, leVal ((g ()).take 32)), (9, 256, leVal (kbar ()))] }]

/-- PSAMU for the whole matrix of ML-DSA: row r and column s at place 100 + 8r + s. -/
def dsaMatrixProg (p : DsaSet) (rho : Unit → Bytes) : List SpStep :=
  (List.range p.k).flatMap (fun r => (List.range p.l).map (fun s => spSam 2 (100 + 8 * r + s) rho s r))

/-- A row of the matrix times the vector at place `v`, in the NTT domain. -/
def dsaRowProg (p : DsaSet) (r v acc : Nat) : List SpStep := spDot 2 acc ((List.range p.l).map (fun s => (100 + 8 * r + s, v + s)))

/-- ML-DSA key generation from its seed. Places: 0 and up s1 and s2, 20 and up their transforms, 40 and up t, 50 and 60 and up its parts. -/
def dsaGenProg (alg : Nat) (seed : Bytes) : List SpStep :=
  let p := dsaSet alg
  let b := seed ++ [BitVec.ofNat 8 p.k, BitVec.ofNat 8 p.l]
  let g := fun (_ : Unit) => shake256 b 128
  spHash 2 136 34 0x1F (fun _ => b) ++ dsaMatrixProg p (fun _ => (g ()).take 32) ++
    (List.range (p.k + p.l)).flatMap (fun i =>
      [{ spBytes 2 0x18 i (fun _ => sub (g ()) 32 64 ++ leBytes 2 i) with
          given := fun _ => [(0, 528, leVal (sub (g ()) 32 64 ++ leBytes 2 i)), (4, 256 * p.etaBits, 0)] },
        spCoef 2 1 i 999 p.etaBits]) ++
    (List.range p.l).map (fun i => spPoly 2 0x10 [i] (20 + i)) ++
    (List.range p.k).flatMap (fun r => dsaRowProg p r 20 (40 + r) ++
      [spPoly 2 0x11 [40 + r] (40 + r), spPoly 2 0x13 [40 + r, p.l + r] (40 + r), spSplit 7 (40 + r) (50 + r) (60 + r),
        spCoef 2 1 (50 + r) 999 10, spCoef 2 1 (60 + r) 999 13]) ++
    spHash 2 136 (32 + 320 * p.k) 0x1F (fun _ => (dsaKeyPair alg seed).2)

/-- The setup of an ML-DSA signature. Places: 0 and up s1, 20 and up s2, 40 and up t0, all transformed; 100 and up the matrix. -/
def dsaSetupProg (alg : Nat) (sk msg rnd : Bytes) : List SpStep :=
  let p := dsaSet alg
  let eb := 32 * p.etaBits
  let part := fun (v off n : Nat) => [spCoefOf 2 0 v (fun _ => sub sk off n), spPoly 2 0x10 [v] v]
  dsaMatrixProg p (fun _ => sk.take 32) ++ (List.range p.l).flatMap (fun i => part i (128 + eb * i) eb) ++
    (List.range p.k).flatMap (fun i => part (20 + i) (128 + eb * (p.l + i)) eb ++ part (40 + i) (128 + eb * (p.l + p.k) + 416 * i) 416) ++
    spHash 2 136 (66 + msg.length) 0x1F (fun _ => sub sk 64 64 ++ [0, 0] ++ msg) ++
    spHash 2 136 128 0x1F (fun _ => sub sk 32 32 ++ rnd ++ dsaMu (sub sk 64 64) msg)

/-- Attempt `n` of an ML-DSA signature, from 1. Places: 200 and up y, 210 its transform, 220 w, 230 and 240 its parts, 250 the challenge, 260 z,
270 r, 280 its low part, 290 c·t0, 300 r + c·t0. -/
def dsaTryProg (alg : Nat) (sk msg rnd : Bytes) (n : Nat) : List SpStep :=
  let p := dsaSet alg
  let mu := fun (_ : Unit) => dsaMu (sub sk 64 64) msg
  let seed := fun (_ : Unit) => shake256 (sub sk 32 32 ++ rnd ++ mu ()) 64
  let times := fun (v out : Nat) => [spPoly 2 0x12 [250, v] out, spPoly 2 0x11 [out] out]
  (List.range p.l).flatMap (fun i =>
      [spBytes 2 0x19 (200 + i) (fun _ => seed () ++ leBytes 2 ((n - 1) * p.l + i)), spPoly 2 0x10 [200 + i] (210 + i)]) ++
    (List.range p.k).flatMap (fun r => dsaRowProg p r 210 (220 + r) ++
      [spPoly 2 0x11 [220 + r] (220 + r), spSplit 4 (220 + r) (230 + r) (240 + r), spCoef 2 1 (230 + r) 999 4]) ++
    spHash 2 136 (64 + 128 * p.k) 0x1F (fun _ =>
      mu () ++ ((dsaTry p sk msg rnd n).2.2.map (fun f => f.map dsaHigh)).flatMap (packBits 4)) ++
    [spBytes 2 0x1A 250 (fun _ => (dsaTry p sk msg rnd n).1), spPoly 2 0x10 [250] 250] ++
    (List.range p.l).flatMap (fun i =>
      times i (260 + i) ++ [spPoly 2 0x13 [200 + i, 260 + i] (260 + i), spNorm (260 + i) (dsaG1 - p.beta)]) ++
    (List.range p.k).flatMap (fun r =>
      times (20 + r) (270 + r) ++ [spPoly 2 0x14 [220 + r, 270 + r] (270 + r), spSplit 4 (270 + r) 999 (280 + r),
        spNorm (280 + r) (dsaG2 - p.beta)] ++
      times (40 + r) (290 + r) ++ [spNorm (290 + r) dsaG2, spPoly 2 0x13 [270 + r, 290 + r] (300 + r), spHint (270 + r) (300 + r) 999])

/-- ML-DSA verification. Places: 0 and up t1, 20 and up z, 40 the challenge, 50 and up the rows, 60 and 70 and up their parts, 80 and up the
hint. -/
def dsaVerifyProg (alg : Nat) (pk msg sg : Bytes) : List SpStep :=
  let p := dsaSet alg
  let hint := fun (_ : Unit) => (dsaUnpackHint p (sg.drop (p.ch + 640 * p.l))).getD []
  let h := fun (r : Nat) => (hint ()).getD r []
  let w1 := fun (_ : Unit) => dsaMu (shake256 pk 64) msg ++ (dsaRecover p pk sg (hint ())).flatMap (packBits 4)
  (List.range p.k).flatMap (fun i => [spCoefOf 2 0 i (fun _ => sub pk (32 + 320 * i) 320), spPoly 2 0x10 [i] i]) ++
    (List.range p.l).flatMap (fun i => [spCoefOf 2 0 (20 + i) (fun _ => sub sg (p.ch + 640 * i) 640), spNorm (20 + i) (dsaG1 - p.beta),
      spPoly 2 0x10 [20 + i] (20 + i)]) ++
    dsaMatrixProg p (fun _ => pk.take 32) ++ spHash 2 136 (32 + 320 * p.k) 0x1F (fun _ => pk) ++
    spHash 2 136 (66 + msg.length) 0x1F (fun _ => shake256 pk 64 ++ [0, 0] ++ msg) ++
    [spBytes 2 0x1A 40 (fun _ => sg.take p.ch), spPoly 2 0x10 [40] 40] ++
    (List.range p.k).flatMap (fun r => dsaRowProg p r 20 (50 + r) ++
      [spPoly 2 0x12 [40, r] 999, spPoly 2 0x14 [50 + r, 999] (50 + r), spPoly 2 0x11 [50 + r] (50 + r), spSplit 4 (50 + r) (60 + r) (70 + r),
        { cmd := { op := 0x15, d := 4, a := 0, b := 6, pset := 2 }, ins := [(0, 50 + r)], outs := [(80 + r, 4)],
          given := fun _ => [(4, 256, polyVal 1 ((h r).map (fun b => if b then 1 else 0)))] },
        spCoef 2 1 (80 + r) 999 4]) ++
    spHash 2 136 (64 + 128 * p.k) 0x1F w1

end Sys2Proof.Machine
end

