-- ==== Sys2Proof/Machine/SpireFam.lean ====
section
/-! DEFINITION. The figures of family 0x08 (09 R290 to R297). -/

namespace Sys2Proof.Machine

/-- The curve of an EC algorithm: built in, or in a CURVES slot (06 R191; 09 R297). -/
def curveOf (s : State) (alg slot : Nat) : Option Curve :=
  match alg with
  | 0x10 => some curveP256
  | 0x11 => some curveP384
  | 0x12 => some curveP521
  | 0x13 => tblGet none s.curves.slots slot
  | _ => none

/-- The curve of a key: EXT byte 48 names the slot (06 R188). -/
def keyCurve (s : State) (k : KeyRec) : Option Curve := curveOf s k.alg (byteAt k.ext 0)

/-- Modulus and exponent of an RSA public key in R205's encoding. -/
def rsaPub (b : Bytes) : Nat × Nat :=
  let m := leAt b 0 4
  (beAt b 4 m, beAt b (8 + m) (leAt b (4 + m) 4))

/-- The public exponent of every private key: RSA keys come from PK_KEYGEN only (09 R293). -/
def rsaE : Nat := 65537

/-- Modulus bits of an RSA key (06 R188). -/
def rsaBits (k : KeyRec) : Nat := leAt k.ext 0 2

/-- The primes of an RSA private key (layout DESIGN CHOICE, log 7). -/
def rsaPrimes (k : KeyRec) : Nat × Nat :=
  let t := rsaBits k / 16
  (beAt k.material 0 t, beAt k.material t t)

/-- The number of ones in a number. -/
def ones (v : Nat) : Nat := ((bitsBe v).filter id).length

/-- The hash of a HASH code. -/
def hashFn (h : Nat) : Bytes → Bytes := if h = 1 then sha256 else if h = 2 then sha384 else sha512

/-- Check 4 of R194 for the key in HANDLE0 of a Spire opcode (09 R291, R297). -/
def pkUse (s : State) (op : Nat) (d : Bytes) (k : KeyRec) : Bool :=
  let pair := if par d 64 = 1 then isEc k.alg else k.alg == 0x18
  let curve := !isEc k.alg || (keyCurve s k).isSome
  match op with
  | 0x0801 => k.format == 3 && k.usage == usageOf "S0" && k.mode == chr "S" && pair && curve
  | 0x0802 => k.format == 2 && k.usage == usageOf "S0" && k.mode == chr "V" && pair && curve
  | 0x0803 => k.format == 3 && k.usage == usageOf "D1" && k.mode == chr "D" && k.alg == 0x18
  | 0x0804 => k.format == 3 && k.usage == usageOf "K3" && k.mode == chr "N" && isEc k.alg && curve
  | 0x0806 => k.format == 3 && k.usage == usageOf "K3" && k.mode == chr "N" && (k.alg == 0x20 || k.alg == 0x21)
  | 0x0807 => k.format == 3 && k.usage == usageOf "S0" && k.mode == chr "S" && (k.alg == 0x22 || k.alg == 0x23)
  | 0x0808 => k.format == 2 && k.usage == usageOf "S0" && k.mode == chr "V" && (k.alg == 0x22 || k.alg == 0x23)
  | _ => true

/-- E + v of a public exponent is above 64 (09 R287). -/
def expTooLong (e : Nat) : Bool := decide (bitLen e + ones e > 64)

/-- Bytes of a signature under a key. -/
def sigLen (s : State) (k : KeyRec) : Nat :=
  match k.alg with
  | 0x18 => rsaBits k / 8
  | 0x22 => 3309
  | 0x23 => 4627
  | _ => 2 * ((keyCurve s k).map (·.nb)).getD 0

/-- Modulus bits of an RSA public key. -/
def rsaPubBits (k : KeyRec) : Nat := bitLen (rsaPub k.material).1

/-- CLASS of the record that a creating call of family 0x08 names. -/
def attrCls (d : Bytes) : Nat := par d 65

/-- RECORD field of the shared attribute layout. -/
def attrNamed (d : Bytes) : Nat := leAt d 88 6

/-- Attribute checks of a symmetric key that a figure derives (06 R196, R199). -/
def derivedOk (s : State) (d : Bytes) (algs : Nat → Bool) : Bool :=
  algs (par d 64) && attrChecks s (partOf d) (attrCls d) (attrNamed d) (attrRec d) true (par d 71) &&
    !bitOf (par d 70) 1

/-- The least LINES that holds `n` bytes of material, header and TAG (06 R187). -/
def linesFor (n : Nat) : Nat := (([2, 4, 8, 16, 32, 64, 128] : List Nat).find? (fun l => decide (80 + n ≤ 64 * l))).getD 128

/-- Bytes of wrapped private material. -/
def wrapLen (n : Nat) : Nat := 8 * ceilDiv n 8 + 8

/-- Bytes of private material by algorithm (layouts DESIGN CHOICE but for FIPS 203 and 204, log 7). -/
def privLen (s : State) (alg slot modbits : Nat) : Nat :=
  match alg with
  | 0x18 => modbits / 8
  | 0x20 => 2400
  | 0x21 => 3168
  | 0x22 => 4032
  | 0x23 => 4896
  | _ => ((curveOf s alg slot).map (·.nb)).getD 0

/-- LINES of the private key that PK_KEYGEN makes. -/
def keygenLines (s : State) (d : Bytes) : Nat := linesFor (wrapLen (privLen s (par d 64) (par d 98) (leAt d 96 2)))

/-- PK_KEYGEN's attribute checks (06 R196; 09 R291). -/
def keygenOk (s : State) (d : Bytes) : Bool :=
  let k := attrRec d
  let a := k.alg
  let m := leAt d 96 2
  decide (0x10 ≤ a) && attrRow k.usage a k.mode && k.mode != chr "V" && k.mode != chr "E" && par d 71 == 0 &&
    k.exportC == chr "N" && k.flags == 0 && versionOk k.version && decide (k.notBefore < k.notAfter) &&
    recordField s (partOf d) (attrCls d) (attrNamed d) (keygenLines s d) &&
    (if a = 0x18 then decide (1024 ≤ m) && decide (m ≤ 4096) && m % 256 == 0 else m == 0) &&
    (if a = 0x13 then (curveOf s a (par d 98)).isSome else par d 98 == 0)

/-- Parameter checks of the Spire opcodes at key fetch: the status of the first failure (09 R287, R290, R293). -/
def pkParams (s : State) (op : Nat) (d : Bytes) (k : KeyRec) : Option Nat :=
  let n := inLenOf d
  match op with
  | 0x0801 =>
    let bits := leAt d 66 2
    if (if k.alg = 0x18 then bits ≠ rsaBits k else bits ≠ 0) then some stBadParam
    else if outCap d < sigLen s k then some stBadLength else none
  | 0x0802 =>
    let pb := (rsaPub k.material).2
    if k.alg = 0x18 ∧ expTooLong pb then some stRefusedInput
    else
      let l := if k.alg = 0x18 then rsaPubBits k / 8 else sigLen s k
      if leAt d 66 2 ≠ l ∨ n ≠ hashLen (par d 65) + l then some stBadLength else none
  | 0x0803 =>
    let kb := rsaBits k / 8
    if leAt d 66 2 ≠ rsaBits k then some stBadParam
    else if n ≠ kb ∨ outCap d < kb - 2 * hashLen (par d 65) - 2 then some stBadLength else none
  | 0x0804 =>
    if !derivedOk s d (fun a => decide (3 ≤ a) && decide (a ≤ 6)) || decide (par d 96 > 31) then some stBadParam
    else if n ≠ 1 + 2 * ((keyCurve s k).map (·.fb)).getD 0 then some stBadLength else none
  | 0x0805 =>
    if !keygenOk s d then some stBadParam
    else if par d 64 = 0x13 ∧ outCap d < 1 + 2 * ((curveOf s 0x13 (par d 98)).map (·.fb)).getD 0 then some stBadLength else none
  | 0x0806 =>
    if !derivedOk s d (fun a => a == 5 || a == 6) then some stBadParam
    else if n ≠ (if k.alg = 0x20 then 1088 else 1568) then some stBadLength else none
  | 0x0807 => if outCap d < sigLen s k then some stBadLength else none
  | 0x0808 =>
    if leAt d 64 2 > 4096 then some stBadParam
    else if n ≠ sigLen s k + leAt d 64 2 then some stBadLength else none
  | 0x0809 =>
    if par d 64 ≤ 15 ∧ (tblGet none s.curves.slots (par d 64)).isSome then some stBadParam else none
  | _ => none

/-- Bytes that an EC figure draws for a scalar of the curve: E + 64 bits (09 R291). -/
def scalarDraw (c : Curve) : Nat := ceilDiv (bitLen c.n + 64) 8

/-- A scalar from drawn bytes: E + 64 bits reduced mod n − 1, plus 1 (09 R291). -/
def drawnScalar (c : Curve) (b : Bytes) : Nat := beVal b % 2 ^ (bitLen c.n + 64) % (c.n - 1) + 1

/-- Bytes that a key generation of ML-KEM (d and z) or ML-DSA (ξ) draws (FIPS 203, FIPS 204). -/
def pqSeed (alg : Nat) : Nat := if alg ≥ 0x22 then 32 else 64

/-- Needs of the Spire opcodes after list and blob (10 R314). -/
def pkNeeds (s : State) (op : Nat) (d : Bytes) (k : KeyRec) : List Need :=
  let p := partOf d
  let cls := attrCls d
  let named := attrNamed d
  let mk := fun (l : Nat) => createNeeds s p cls (targetIdx s p cls named l) l
  let drawIf := drawNeeds
  match op with
  | 0x0801 =>
    if k.alg = 0x18 then [.spire, .lanes true 2 (if par d 65 = 1 then 1 else 2)] ++
        drawIf (if par d 64 = 3 then hashLen (par d 65) else 0)
    else [.spire] ++ drawIf (((keyCurve s k).map scalarDraw).getD 0)
  | 0x0802 => if k.alg = 0x18 then [.spire, .lanes true 2 (if par d 65 = 1 then 1 else 2)] else [.spire]
  | 0x0803 => [.spire, .lanes true 2 (if par d 65 = 1 then 1 else 2)]
  | 0x0804 => mk 2 ++ [.spire, .lanes false 1 4]
  | 0x0805 =>
    let l := keygenLines s d
    let n := if par d 64 = 0x18 then leAt d 96 2 / 16
      else if par d 64 ≥ 0x20 then pqSeed (par d 64) else ((curveOf s (par d 64) (par d 98)).map scalarDraw).getD 0
    mk l ++ [.spire] ++ drawNeeds n
  | 0x0806 => mk 2 ++ [.spire, .lanes false 1 1]
  | 0x0807 => [.spire, .draw 32]
  | 0x0808 => [.spire]
  | 0x0809 => [.spire]
  | _ => []

/-- Counts Spire command cycles of a figure's work (09 R300; 12 R356). -/
def spireSpend (s : State) (t c n : Nat) : State :=
  let w := s.tower t
  modWork (s.setTower t { w with spire := { w.spire with busy := (w.spire.busy + n) % 2 ^ 64 } }) t c (fun k => { k with sp := k.sp + n })

/-- The commands of a figure that may ask for a record's lines again before it ends run once (09 R283). -/
def spireOnce (s : State) (t c : Nat) (prog : List SpStep) (ops : List (Nat × Nat)) (n : Nat) : State :=
  if (s.ctx t c).work.done then s else modWork (spCall s t c prog ops n false) t c (fun w => { w with done := true })

/-- A Spire figure whose commands have run ends with a verdict: 38 + H + S + 15 (09 R290). -/
def spireEnd (s : State) (t c h n status : Nat) (res : Bytes) : State := finishCall s t c status (38 + h + n + 15) n res

/-- A Spire figure whose commands have run ends with output and results. -/
def spireEndOut (s : State) (t c h n : Nat) (out res : Bytes) : State :=
  let (s1, ok) := writeOut s t c out
  if ok then spireEnd s1 t c h n stOk res else s1

/-- A refused operand after H and S cycles: 13 cycles of completion build follow (09 R287). -/
def spireRefused (s : State) (t c h n : Nat) : State := finishCall s t c stRefusedInput (38 + h + n + 13) n []

/-- A refused operand after S cycles and some of `k` commands of `a` cycles each: where they stand among the steps is open, a free value
(09 R292; log 3). -/
def spireRefuseOpen (s : State) (t c : Nat) (prog : List SpStep) (ops : List (Nat × Nat)) (n k a : Nat) : State :=
  let m := n + Config.freeValue s.free % (k + 1) * a
  spireRefused (spCall { s with free := s.free + 1 } t c prog ops m true) t c 0 m

/-- S of an ECDSA signature (09 R292). -/
def ecSignCycles (c : Curve) : Nat :=
  let l := bitLen c.p
  242 * bitLen c.n + 2 * spI l + 4 * spM l + 5 * spA l

/-- S of an ECDSA verification (09 R292). -/
def ecVerifyCycles (c : Curve) : Nat :=
  let l := bitLen c.p
  242 * (bitLen c.n + 1) + 2 * spI l + 4 * spM l + 7 * spA l

/-- S of an ECDH agreement (09 R292). -/
def ecDhCycles (c : Curve) : Nat :=
  let l := bitLen c.p
  242 * (bitLen c.n + cofactorBits c) + spI l + 6 * spM l + spA l

/-- S of an EC key generation (09 R292). -/
def ecGenCycles (c : Curve) : Nat :=
  let l := bitLen c.p
  242 * bitLen c.n + spI l + 4 * spM l + spA l

/-- The operands that the operation loads, from slot 0 on: declared lengths and values. -/
def rsaOperands (k : KeyRec) (x : Nat) : List (Nat × Nat) :=
  let (p, q) := rsaPrimes k
  let m := rsaBits k
  let d := (modInv rsaE ((p - 1) * (q - 1))).getD 0
  [(m, x), (m / 2, p), (m / 2, q), (m / 2, d % (p - 1)), (m / 2, d % (q - 1)), (m / 2, (modInv q p).getD 0), (m, p * q), (17, rsaE)]

/-- An RSA private figure from its encoded input: of a job, up to the next yield point; otherwise whole. `h` is its hash work, `hBefore`
what of it comes before the commands; `f` gives the output of the result (09 R287 to R289, R293). -/
def rsaFigure (s : State) (t c h hBefore : Nat) (k : KeyRec) (x : Nat) (f : State → Nat → Nat → State) : State :=
  let job := isJobCtx s t c
  let (s1, bad) := spRun rsaProg job true t c (if job then 1 else 10) (loadHalf s t c (rsaOperands k x))
  let w := (s1.ctx t c).work
  let y := (s1.tower t).spire
  if bad then spireRefused s1 t c hBefore w.sp
  else if w.pc < 10 then s1
  else
    let s2 := freeHalf s1 t c
    if y.flag then f s2 w.sp (y.slot (y.base c + 11)).val else spireEnd (countSpireFault s2 t) t c h w.sp stDeviceFault []

/-- PK_SIGN (09 R291 to R293). -/
def pkSign (t c : Nat) (s : State) : State :=
  let d := workDesc s t c
  let k := keyOf s t c 0
  let dig := inputOf s t c
  let r := drawnOf s t c
  if k.alg = 0x18 then
    let m := rsaBits k
    let hl := hashLen (par d 65)
    let h := rsaH (par d 64) (par d 65) (m / 8)
    let em := if par d 64 = 2 then emsaPkcs1 (m / 8) hl dig else emsaPss (hashFn (par d 65)) hl m dig (r.take hl)
    rsaFigure s t c h h k (beVal em) (fun a n y => spireEndOut a t c h n (beBytes (m / 8) y) [])
  else match keyCurve s k with
    | none => finishCall s t c stKeyUsage 39 0 []
    | some e =>
      let n := ecSignCycles e
      let sg := ecdsaSign e (beVal k.material) (drawnScalar e r) dig
      let s1 := spCall s t c ecSignProg (ecSignOps e (beVal k.material) (drawnScalar e r) dig) n false
      if sg.1 = 0 ∨ sg.2 = 0 then finishCall s1 t c stDeviceFault (38 + n + 15) n []
      else spireEndOut s1 t c 0 n (beBytes e.nb sg.1 ++ beBytes e.nb sg.2) []

/-- The encoding that the hash lanes make for the comparison with a signature's: of PSS, with the salt that the signature's encoding holds. -/
def rsaWant (scheme hash bits : Nat) (dig em : Bytes) : Nat :=
  let hl := hashLen hash
  beVal (if scheme = 2 then emsaPkcs1 (bits / 8) hl dig else emsaPss (hashFn hash) hl bits dig (pssSalt (hashFn hash) hl em))

/-- PK_VERIFY (09 R291 to R293). -/
def pkVerify (t c : Nat) (s : State) : State :=
  let d := workDesc s t c
  let k := keyOf s t c 0
  let hl := hashLen (par d 65)
  let dig := (inputOf s t c).take hl
  let sg := (inputOf s t c).drop hl
  if k.alg = 0x18 then
    let (m, e) := rsaPub k.material
    let bits := rsaPubBits k
    let h := rsaH (par d 64) (par d 65) (bits / 8)
    let x := beVal sg
    let prog := rsaPubProg bits (rsaWant (par d 64) (par d 65) bits dig (beBytes (bits / 8) (modPow x e m)))
    let (s1, bad) := spRun prog false false t c 2 (loadHalf s t c [(bits, x), (bitLen e, e), (bits, m)])
    let n := (s1.ctx t c).work.sp
    if bad then spireRefused s1 t c 0 n
    else
      let y := (s1.tower t).spire
      let em := beBytes (bits / 8) (y.slot (y.base c + 3)).val
      let ok := if par d 64 = 2 then decide (em = emsaPkcs1 (bits / 8) hl dig) else pssVerify (hashFn (par d 65)) hl bits dig em
      spireEnd (freeHalf s1 t c) t c h n (if ok then stOk else stVerifyFail) []
  else match keyCurve s k with
    | none => finishCall s t c stKeyUsage 39 0 []
    | some e =>
      let q := (decPoint e k.material).getD (0, 0)
      let l := bitLen e.p
      let upTo := spI l + 2 * spM l + 242 * (bitLen e.n + 1)
      let n := ecVerifyCycles e
      let r := beVal (sg.take e.nb)
      let v := beVal (sg.drop e.nb)
      let ops := ecVerifyOps e q dig r v
      match ecdsaRun e q dig r v with
      | .verdict ok => spireEnd (spCall s t c (ecVerifyProg e) ops n false) t c 0 n (if ok then stOk else stVerifyFail) []
      | .ladder => spireRefuseOpen s t c (ecVerifyProg e) ops upTo 7 (spA l)
      | .affine => spireRefuseOpen s t c (ecVerifyProg e) ops (upTo + spI l + 2 * spM l) 7 (spA l)

/-- PK_DECRYPT (09 R291, R293). -/
def pkDecrypt (t c : Nat) (s : State) : State :=
  let d := workDesc s t c
  let k := keyOf s t c 0
  let m := rsaBits k
  let h := hashWork (par d 65) (m / 8)
  rsaFigure s t c h 0 k (beVal (inputOf s t c)) (fun a n y =>
    match oaepDecode (hashFn (par d 65)) (hashLen (par d 65)) (beBytes (m / 8) y) with
    | none => spireEnd a t c h n stVerifyFail []
    | some msg => spireEndOut a t c h n msg (leBytes 2 msg.length))

/-- W, the record write of a key of `l` lines (06 R205). -/
def recWrite (l : Nat) : Nat := 8 + 4 * (l - 2)

/-- The NewRec of a creating call with the shared attribute layout. -/
def attrNew (d : Bytes) (k : KeyRec) : NewRec := { part := partOf d, cls := attrCls d, named := attrNamed d, body := k }

/-- A symmetric record from the attribute layout and its material. -/
def symRec (d : Bytes) (m : Bytes) : KeyRec :=
  let k := attrRec d
  { k with material := m.take k.keylen, kcv := kcvSym k.alg (m.take k.keylen) }

/-- A Spire figure that creates a symmetric key: 38 + S + D + check value + W + 14 (09 R290). -/
def spireCreate (s : State) (t c : Nat) (prog : List SpStep) (ops : List (Nat × Nat)) (n dv : Nat) (m : Bytes) : State :=
  let d := workDesc s t c
  let k := symRec d m
  createRecord (spireOnce s t c prog ops n) t c (attrNew d k)
    (38 + n + dv + kcvCycles k.alg + recWrite 2 + 14) n [] [] createResults

/-- The coordinates that an uncompressed point's bytes give, whether or not it lies on the curve. -/
def rawPoint (e : Curve) (b : Bytes) : Nat × Nat := (beAt b 1 e.fb, beAt b (1 + e.fb) e.fb)

/-- PK_AGREE (09 R291, R292; 08 R262). -/
def pkAgree (t c : Nat) (s : State) : State :=
  let d := workDesc s t c
  let k := keyOf s t c 0
  match keyCurve s k with
  | none => finishCall s t c stKeyUsage 39 0 []
  | some e =>
    let ops := ecDhOps e (beVal k.material) (rawPoint e (inputOf s t c))
    match decPoint e (inputOf s t c) with
    | none => let n := 4 * spM (bitLen e.p)
      spireRefused (spCall s t c ecDhProg ops n true) t c 0 n
    | some q =>
      match ecMul e (e.h * beVal k.material) (some q) with
      | none => spireRefuseOpen s t c ecDhProg ops (ecDhCycles e - spA (bitLen e.p)) 1 (spA (bitLen e.p))
      | some (x, _) =>
        let a := attrRec d
        let bits := if a.alg = 6 then 256 else 8 * algBytes a.alg
        let z := kdf108 (aesC (zeros 32)) (ascii "AGRX") (beBytes e.fb x) 256
        let ctx := sub d 97 (par d 96) ++ sub d 64 10
        spireCreate s t c ecDhProg ops (ecDhCycles e) 40 (kdf108 (aesC z) (ascii "AGRE") ctx bits)

/-- The public key of a private EC scalar, encoded. -/
def ecPublic (e : Curve) (x : Nat) : Bytes := encPoint e (ecMul e x (ecG e))

/-- PK_KEYGEN's last part: the public key to the output stream, the private key into its record (09 R290, R291). `n` are its command
cycles, `left` those of them that the step list `prog` has still to run. -/
def keygenPlace (s : State) (t c : Nat) (prog : List SpStep) (ops : List (Nat × Nat)) (n left : Nat) (priv pub ext : Bytes) : State :=
  let d := workDesc s t c
  let a := attrRec d
  let l := keygenLines s d
  let k : KeyRec := { a with format := 3, lines := l, keylen := priv.length, material := priv, ext := fit 16 ext,
                             kcv := (sha256 pub).take 3 }
  let (s1, ok) := if (s.ctx t c).work.done then (s, true) else writeOut (spireOnce s t c prog ops left) t c pub
  if ok then
    createRecord s1 t c (attrNew d k) (38 + n + 17 * ceilDiv (pub.length + 9) 64 + recWrite l + 14) n [] [] createResults
  else s1

/-- The context's work goes on by `f`, and asks for `n` more random bytes. -/
def askDraw (s : State) (t c n : Nat) (f : Work → Work) : State :=
  setNeeds (modWork s t c (fun w => { f w with drawn := [] })) t c (drawNeeds n)

/-- The key pair of two primes is placed; its commands have run, and the half is released (09 R283). -/
def rsaPlace (t c : Nat) (s : State) : State :=
  let w := (s.ctx t c).work
  let m := leAt (workDesc s t c) 96 2
  let p := w.vals.getD 0 0
  let q := w.vals.getD 1 0
  let pub := leBytes 4 (m / 8) ++ beBytes (m / 8) (p * q) ++ leBytes 4 3 ++ beBytes 3 rsaE
  keygenPlace s t c [] [] w.sp 0 (beBytes (m / 16) p ++ beBytes (m / 16) q) pub (leBytes 2 m)

/-- One step of RSA key generation (09 R293): the sieve of a candidate, or the part of a Miller-Rabin round's MEXP up to the next yield point
(R288), each round with its own draw (08 R268). `vals` holds the first prime and the candidate; `phase` the round that comes next. Of the
sieve, the spec gives the time only: the model lets it find the even numbers (DESIGN CHOICE, log 103). -/
def rsaCandidate (t c : Nat) (s : State) : State :=
  let d := workDesc s t c
  let tb := leAt d 96 2 / 2
  let w := (s.ctx t c).work
  let p := w.vals.getD 0 0
  let next := fun (a : State) (p' : Nat) =>
    askDraw a t c (tb / 8) (fun k => { k with phase := 0, pc := 0, progress := k.progress + 1, vals := [p'] })
  if w.drawn.length < tb / 8 then setNeeds s t c (drawNeeds (tb / 8 - w.drawn.length))
  else if w.phase = 0 then
    let cand := beVal (w.drawn.take (tb / 8)) % 2 ^ (tb - 2) + 3 * 2 ^ (tb - 2)
    let s1 := spireSpend s t c 256
    if cand % 2 = 0 then next s1 p
    else askDraw s1 t c (tb / 8) (fun k => { k with phase := 1, pc := 0, vals := [p, cand] })
  else
    let cand := w.vals.getD 1 0
    let base := beVal w.drawn % (cand - 3) + 2
    let s1 := (spPart mrProg true false t c (loadHalf s t c (mrOps tb cand base))).1
    if (s1.ctx t c).work.pc = 0 then s1
    else if !mrRound cand base then next s1 p
    else if w.phase < 40 then askDraw s1 t c (tb / 8) (fun k => { k with phase := k.phase + 1, pc := 0 })
    else if Nat.gcd rsaE (cand - 1) ≠ 1 ∨ (p ≠ 0 ∧ (if p ≥ cand then p - cand else cand - p) ≤ 2 ^ (tb - 100)) then next s1 p
    else if p = 0 then next s1 cand
    else rsaPlace t c (modWork s1 t c (fun k => { k with phase := 41, progress := k.progress + 1 }))

/-- The key pair of an ML-KEM or ML-DSA algorithm from its seed (09 R294). -/
def pqKeyPair (alg : Nat) (seed : Bytes) : Bytes × Bytes :=
  if alg ≥ 0x22 then dsaKeyPair alg seed else kemKeyPair alg (seed.take 32) (seed.drop 32)

/-- S of such a key generation: the table of R294, and 80 cycles for each block that a sampling takes beyond its fixed ones (09 R286). -/
def pqKeyCycles (alg : Nat) (seed pub : Bytes) : Nat :=
  match alg with
  | 0x20 => 24696 + 80 * kemExtra alg (sub pub 1152 32)
  | 0x21 => 38200 + 80 * kemExtra alg (sub pub 1536 32)
  | 0x22 => 49272 + 80 * (dsaExtra alg (pub.take 32) + dsaExtraSecret alg seed)
  | _ => 77176 + 80 * (dsaExtra alg (pub.take 32) + dsaExtraSecret alg seed)

/-- PK_KEYGEN (09 R290 to R294): for RSA, one step of its search for primes, up to the next yield point. -/
def pkKeygen (t c : Nat) (s : State) : State :=
  let d := workDesc s t c
  let a := par d 64
  let r := drawnOf s t c
  if a = 0x18 then
    if (s.ctx t c).work.phase = 41 then rsaPlace t c s else rsaCandidate t c s
  else if a ≥ 0x20 then
    let kp := pqKeyPair a (r.take (pqSeed a))
    let n := pqKeyCycles a (r.take (pqSeed a)) kp.2
    keygenPlace s t c (if a ≥ 0x22 then dsaGenProg a (r.take 32) else kemGenProg a (r.take 32)) [] n n kp.1 kp.2 []
  else match curveOf s a (par d 98) with
    | none => finishCall s t c stKeyUsage 39 0 []
    | some e =>
      let x := drawnScalar e (r.take (scalarDraw e))
      keygenPlace s t c (ecGenProg e) (ecGenOps e (beVal (r.take (scalarDraw e)) % 2 ^ (bitLen e.n + 64))) (ecGenCycles e) (ecGenCycles e)
        (beBytes e.nb x) (ecPublic e x)
        (if a = 0x13 then [BitVec.ofNat 8 (par d 98)] else [])

/-- S of a decapsulation under a private key: the table of R294, and 80 cycles for each further block (09 R286). -/
def pqDecapsCycles (alg : Nat) (dk : Bytes) : Nat :=
  (if alg = 0x20 then 40859 else 58274) + 80 * kemExtra alg (sub dk (768 * (kemSet alg).k) 32)

/-- PQ_KEM_DECAPS (09 R291, R294). -/
def pqDecaps (t c : Nat) (s : State) : State :=
  let k := keyOf s t c 0
  spireCreate s t c (kemDecapsProg k.alg k.material (inputOf s t c)) [] (pqDecapsCycles k.alg k.material) 0
    (kemDecaps k.alg k.material (inputOf s t c))

/-- Extra cycles of a message of `n` bytes (09 R294). -/
def pqExtra (n : Nat) : Nat := 24 * ceilDiv (n - 69) 136

/-- PQ_SIGN up to the next yield point of its commands (09 R288, R289, R294). An attempt that FIPS 204 rejects is followed by another; the
1,025th is not made. -/
def pqSign (t c : Nat) (s : State) : State :=
  let k := keyOf s t c 0
  let msg := inputOf s t c
  let r := drawnOf s t c
  let w := (s.ctx t c).work
  let n := w.progress + 1
  let setup := dsaSetupProg k.alg k.material msg r
  let prog := setup ++ dsaTryProg k.alg k.material msg r n
  if n > 1024 then spireEnd (freeHalf s t c) t c 0 w.sp stDeviceFault []
  else
    let s1 := (spPart prog true false t c (loadHalf s t c [])).1
    let w1 := (s1.ctx t c).work
    if w1.pc < prog.length then s1
    else match dsaAttempt k.alg k.material msg r n with
      | some sg => spireEndOut (freeHalf s1 t c) t c 0 w1.sp sg []
      | none => modWork s1 t c (fun a => { a with progress := n, pc := setup.length })

/-- S of a verification (09 R286, R294). -/
def pqVerifyCycles (alg : Nat) (pk msg sg : Bytes) : Nat :=
  (if alg = 0x22 then 63993 else 96025) + pqExtra msg.length +
    80 * (dsaExtra alg (pk.take 32) + dsaExtraBall alg (sg.take (dsaSet alg).ch))

/-- PQ_VERIFY (09 R291, R294). -/
def pqVerify (t c : Nat) (s : State) : State :=
  let k := keyOf s t c 0
  let l := sigLen s k
  let i := inputOf s t c
  let n := pqVerifyCycles k.alg k.material (i.drop l) (i.take l)
  spireEnd (spCall s t c (dsaVerifyProg k.alg k.material (i.drop l) (i.take l)) [] n false) t c 0 n
    (if dsaVerify k.alg k.material (i.drop l) (i.take l) then stOk else stVerifyFail) []

/-! ## CURVE_LOAD (09 R295 to R297) -/

/-- The curve that the input of CURVE_LOAD gives. -/
def inputCurve (fb : Nat) (b : Bytes) : Curve :=
  let f := fun i => beAt b (i * fb) fb
  { p := f 0, a := f 1, b := f 2, gx := f 3, gy := f 4, n := f 5, h := byteAt b (6 * fb), digest := (sha256 b).take 8 }

/-- Integer square root by bisection, rounded down. -/
def isqrtAux (n : Nat) : Nat → Nat → Nat
  | 0, r => r
  | k + 1, r => isqrtAux n k (if (r + 2 ^ k) * (r + 2 ^ k) ≤ n then r + 2 ^ k else r)

/-- h·n lies within p + 1 ± 2√p. -/
def hasseOk (c : Curve) : Bool :=
  let r := isqrtAux (4 * c.p) 300 0
  decide (c.p + 1 - r ≤ c.h * c.n) && decide (c.h * c.n ≤ c.p + 1 + r)

/-- The embedding degree exceeds 20. -/
def embedOk (c : Curve) : Bool :=
  ((List.range 20).foldl (fun (a : Nat × Bool) _ => (a.1 * c.p % c.n, a.2 && a.1 * c.p % c.n != 1)) (1 % c.n, true)).2

/-- The cause that check unit `u` (0 to 87) belongs to (09 R296). -/
def unitCause (u : Nat) : Nat :=
  if u = 0 then 1 else if u ≤ 40 then 2 else if u ≤ 44 then u - 38 else if u ≤ 84 then 7 else u - 77

/-- Check unit `u` passes; `r` are the bytes drawn for a Miller-Rabin base. -/
def unitOk (c : Curve) (fb u : Nat) (r : Bytes) : Bool :=
  let base := fun (n : Nat) => beVal r % (n - 3) + 2
  match unitCause u with
  | 1 => decide (192 ≤ bitLen c.p) && decide (bitLen c.p ≤ 521) && decide (bitLen c.p ≤ 8 * fb)
  | 2 => mrPrime c.p [base c.p]
  | 3 => decide (c.a < c.p) && decide (c.b < c.p)
  | 4 => (4 * c.a * c.a * c.a + 27 * c.b * c.b) % c.p != 0
  | 5 => onCurve c c.gx c.gy
  | 6 => decide (1 ≤ c.h) && decide (c.h ≤ 4) && c.n != c.p
  | 7 => mrPrime c.n [base c.n]
  | 8 => hasseOk c
  | 9 => (ecMul c c.n (ecG c)).isNone
  | _ => embedOk c

/-- The slot that CURVE_LOAD takes; none where 0xFF finds no empty slot (09 R295). -/
def curveSlot (s : State) (d : Bytes) : Option Nat :=
  if par d 64 ≤ 15 then some (par d 64)
  else (List.range 16).find? (fun i => (tblGet none s.curves.slots i).isNone)

/-- The commands of check unit `u` and their operands: MEXP of a Miller-Rabin round, unless it would refuse its operands; of the others those
that R285 has for the check. Which commands a unit issues the spec does not say (DESIGN CHOICE, log 100). -/
def curveUnit (c : Curve) (u : Nat) (r : Bytes) : List SpStep × List (Nat × Nat) :=
  let l := bitLen c.p
  let mr := fun (q : Nat) =>
    if q % 2 = 1 ∧ 5 ≤ q ∧ 2 ≤ oddPart (q - 1) then (mrProg, mrOps (bitLen q) q (beVal r % (q - 3) + 2)) else ([], [])
  match unitCause u with
  | 2 => mr c.p
  | 4 => ([spDo 0x03 6 0 0 5, spDo 0x03 6 6 0 5, spDo 0x03 6 6 2 5, spDo 0x03 7 1 1 5, spDo 0x03 7 7 3 5, spDo 0x01 8 6 7 5, spDo 0x08 0 8 4 5],
      [(l, c.a), (l, c.b), (l, 4), (l, 27), (l, 0), (l, c.p)])
  | 5 => ([spDo 0x0B 0 1 0 0], [(l, curveVal c), (l, pointVal (ecG c))])
  | 7 => mr c.n
  | 9 => ([spDo 0x09 3 1 2 0], [(l, curveVal c), (l, pointVal (ecG c)), (bitLen c.n, c.n)])
  | 10 => (spDo 0x04 3 0 0 1 :: spDo 0x08 0 3 2 1 :: (List.range 19).flatMap (fun _ => [spDo 0x03 3 3 0 1, spDo 0x08 0 3 2 1]),
      [(bitLen c.n, c.p % c.n), (bitLen c.n, c.n), (bitLen c.n, 1)])
  | _ => ([], [])

/-- CURVE_LOAD up to the next yield point of its commands: at the last of a check unit's, the unit's verdict (09 R288, R295, R296). The time of a
check unit beyond its commands is not given: it is a free value (log 3), which goes into S and TWR_SPIRE_BUSY; the path is that of R290. -/
def curveLoad (t c : Nat) (s : State) : State :=
  let d := workDesc s t c
  let w := (s.ctx t c).work
  let u := w.progress
  let fb := par d 65
  let cv := inputCurve fb (inputOf s t c)
  let mr := fun (k : Nat) => unitCause k == 2 || unitCause k == 7
  match curveSlot s d with
  | none => finishCall { s with free := s.free + 1 } t c stCapacity (Config.freeValue s.free % 2 ^ 32) 0 [5]
  | some slot =>
    if mr u ∧ w.drawn.length < fb then setNeeds s t c (drawNeeds (fb - w.drawn.length))
    else
      let (prog, ops) := curveUnit cv u w.drawn
      let s1 := if prog.isEmpty then s else (spPart prog true false t c (loadHalf s t c ops)).1
      if (s1.ctx t c).work.pc < prog.length then s1
      else
        let s2 := spireSpend { s1 with free := s1.free + 1 } t c (Config.freeValue s1.free % 2 ^ 32)
        let n := (s2.ctx t c).work.sp
        let s3 := freeHalf s2 t c
        if !unitOk cv fb u w.drawn then
          spireEnd (raise { s3 with curves := { s3.curves with reject := some (unitCause u, slot) } } pgCurves 2) t c 0 n stCurveRejected []
        else if u + 1 < 88 then
          let s4 := modWork s2 t c (fun k => { k with progress := u + 1, pc := 0, bits := 0, drawn := [] })
          if mr (u + 1) then setNeeds s4 t c (drawNeeds fb) else s4
        else
          spireEnd (raise { s3 with curves := { s3.curves with slots := tblSet none s3.curves.slots slot (some cv) } } pgCurves 1) t c 0 n stOk []

/-! ## The rows -/

/-- PK_SIGN: of an RSA job, up to the next yield point. -/
def execPkSign (tower ctx : Nat) (fault : FigFault) (s : State) : Out := .next (runFigure s tower ctx 0x0801 fault (pkSign tower ctx))

/-- PK_VERIFY. -/
def execPkVerify (tower ctx : Nat) (fault : FigFault) (s : State) : Out := .next (runFigure s tower ctx 0x0802 fault (pkVerify tower ctx))

/-- PK_DECRYPT: of a job, up to the next yield point. -/
def execPkDecrypt (tower ctx : Nat) (fault : FigFault) (s : State) : Out := .next (runFigure s tower ctx 0x0803 fault (pkDecrypt tower ctx))

/-- PK_AGREE. -/
def execPkAgree (tower ctx : Nat) (fault : FigFault) (s : State) : Out := .next (runFigure s tower ctx 0x0804 fault (pkAgree tower ctx))

/-- PK_KEYGEN: for RSA, one step of its search. -/
def execPkKeygen (tower ctx : Nat) (fault : FigFault) (s : State) : Out := .next (runFigure s tower ctx 0x0805 fault (pkKeygen tower ctx))

/-- PQ_KEM_DECAPS. -/
def execPqKemDecaps (tower ctx : Nat) (fault : FigFault) (s : State) : Out := .next (runFigure s tower ctx 0x0806 fault (pqDecaps tower ctx))

/-- PQ_SIGN: up to the next yield point. -/
def execPqSign (tower ctx : Nat) (fault : FigFault) (s : State) : Out := .next (runFigure s tower ctx 0x0807 fault (pqSign tower ctx))

/-- PQ_VERIFY. -/
def execPqVerify (tower ctx : Nat) (fault : FigFault) (s : State) : Out := .next (runFigure s tower ctx 0x0808 fault (pqVerify tower ctx))

/-- CURVE_LOAD: up to the next yield point, or a check unit's end. -/
def execCurveLoad (tower ctx : Nat) (fault : FigFault) (s : State) : Out := .next (runFigure s tower ctx 0x0809 fault (curveLoad tower ctx))

end Sys2Proof.Machine
end

