-- ==== Sys2Proof/Machine/Metering.lean ====
section
/-! DEFINITION. Tallies, tariffs, intervals, snapshots and signed tally statements (12 R355 to R371). -/

namespace Sys2Proof.Machine

/-- Writes the metering page's state. -/
def State.setMtr (s : State) (m : Mtr) : State := { s with mtr := m }

/-- Writes the ledger in the Dome. -/
def State.setLedger (s : State) (l : Ledger) : State := { s with dome := { s.dome with ledger := l } }

/-- The metering engine, initiator 6, may write the ledger at an offset (13 R373, R377). -/
def ledgerMay (s : State) (off : Nat) : Bool := (intRefusal s 6 true (domeLedger + off)).isNone

/-- The pages that the words and the head of the ledger lie in (12 R364). -/
def ledgerPages : List Nat := [0, 0x1000, 0x2000, 0x3000, 0x4000]

/-- A new ledger over an old one, without the writes that are refused (12 R364; 13 R384). -/
def allowedLedger (s : State) (old new : Ledger) : Ledger :=
  let words := fun (base : Nat) (a b : Tbl LedgerWord) =>
    (List.range 1024).filterMap (fun n =>
      let w := tblGet ({} : LedgerWord) (if ledgerMay s (base + 8 * n) then b else a) n
      if w = {} then none else some (n, w))
  { (if ledgerMay s 0 then new else old) with
    openW := words 0x100 old.openW new.openW, closedW := words 0x2100 old.closedW new.closedW }

/-- The metering engine writes the ledger: where an entry refuses it, the writes are dropped, and one violation is logged for each 4 KiB page
of them that changes (12 R364; 13 R373, R384; DESIGN CHOICE, log 87). -/
def State.putLedger (s : State) (l : Ledger) : State :=
  let no := ledgerPages.filter (fun a => !ledgerMay s a)
  if no.isEmpty ∨ l = s.dome.ledger then s.setLedger l
  else (no.foldl (fun a o => (domeAccess a (domeLedger + o)).1) s).setLedger (allowedLedger s s.dome.ledger l)

/-- An event bound to a Bell fires late (11 R345). -/
def lateEvent (s : State) : State := raise { s with time := { s.time with late := satAdd 32 s.time.late 1 } } pgTime 4

/-! ## The tariff (12 R358, R359, R362) -/

/-- TARIFF_ARM: a write of ARM = 1. -/
def execTariffArm (s : State) : Out :=
  .next (if pageShut s pgMtr then s
    else if ((s.head pgMtr).lock.getLsbD 0 ∧ s.dome.ledger.at_.isNone) ∨ !timeKnown s ∨ s.mtr.at_ ≤ reelSecond s then recordWerr s pgMtr
    else s.putLedger { s.dome.ledger with at_ := some s.mtr.at_ })

/-- TARIFF_CANCEL: a write of ARM = 0. -/
def execTariffCancel (s : State) : Out :=
  .next (if pageShut s pgMtr then s
    else if (s.head pgMtr).lock.getLsbD 0 ∧ s.dome.ledger.at_.isSome then recordWerr s pgMtr else s.putLedger { s.dome.ledger with at_ := none })

/-- Step 3 of R362 at second `sec`: an armed switch whose AT has come is applied; one whose AT has passed is late, and the
interval that is open then carries LATE_TARIFF (DEDUCED, log 24). Every late switch counts as a late event (R345; DEDUCED, log 115). -/
def applySwitch (s : State) (sec : Nat) : State :=
  match s.dome.ledger.at_ with
  | none => s
  | some a =>
    if a > sec then s
    else
      let l := s.dome.ledger
      let late := decide (a < sec)
      let s1 := raise (s.putLedger { l with
        active := l.pending, activeId := l.pendingId, at_ := none
        openFlags := if late && !bitOf l.openFlags 1 then l.openFlags + 2 else l.openFlags }) pgMtr 2
      if late then lateEvent (raise (s1.setMtr { s1.mtr with lateSwitches := satAdd 32 s1.mtr.lateSwitches 1 }) pgMtr 3) else s1

/-- TARIFF_SWITCH: the armed switch is applied at its Bell (12 R359, R362). -/
def execTariffSwitch (s : State) : Out := .next (if timeKnown s then applySwitch s (reelSecond s) else s)

/-! ## Folds and intervals (12 R360 to R366) -/

/-- What tally `i` of TF `n` gained since the last fold. -/
def tallyDelta (s : State) (n i : Nat) : Nat :=
  (tblGet 0 s.mtr.tally (16 * n + i) + 2 ^ 64 - tblGet 0 s.mtr.folded (16 * n + i)) % 2 ^ 64

/-- The price of a TF's gains under the ACTIVE weights. -/
def tallyCost (s : State) (n : Nat) : Nat :=
  ((List.range 16).map (fun i => tallyDelta s n i * s.dome.ledger.active.getD i 0)).sum

/-- A TF's OPEN word after the fold of a second (12 R361, R364). -/
def foldWord (s : State) (sec n : Nat) : LedgerWord :=
  let w := tblGet ({} : LedgerWord) s.dome.ledger.openW n
  { cost := satAdd 40 w.cost (tallyCost s n), peak := min (max w.peak (tallyDelta s n 0)) (2 ^ 23 - 1), par := sec % 2 == 1 }

/-- A table of one entry for each TF. -/
def perTf {α : Type} [DecidableEq α] (d : α) (f : Nat → α) : Tbl α :=
  (List.range 1024).filterMap (fun n => if f n = d then none else some (n, f n))

/-- Totals with the gains since the last fold. -/
def addTotals (s : State) (t : Tbl Nat) : Tbl Nat :=
  s.mtr.tally.foldl (fun a e => tblSet 0 a e.1 ((tblGet 0 a e.1 + tallyDelta s (e.1 / 16) (e.1 % 16)) % 2 ^ 64)) t

/-- The fold of second `sec` (12 R361, R365). -/
def foldSecond (s : State) (sec : Nat) : State :=
  let l := s.dome.ledger
  let s1 := s.putLedger { l with begin_ := sec, commit := sec, openW := perTf {} (foldWord s sec) }
  s1.setMtr { s1.mtr with folded := s.mtr.tally, openTot := s.mtr.openTot.map (addTotals s), foldId := l.activeId }

/-- Closes the open interval over `len` seconds, with more flags (12 R365). -/
def closeInterval (s : State) (len more : Nat) : State :=
  let l := s.dome.ledger
  let words := l.openW.map (fun e => (e.1, { e.2 with par := false }))
  let s1 := s.putLedger { l with
    closedStart := l.openStart, closedLen := min len (2 ^ 32 - 1), closedFlags := l.openFlags ||| more
    closedCommit := l.openStart, closedW := words.filter (fun e => e.2 != {}), open_ := false, everClosed := true }
  raise (s1.setMtr { s1.mtr with
    closedTot := s.mtr.openTot, openTot := none, firstId := (s.mtr.firstId.1, s.mtr.firstId.1), lastId := s.mtr.foldId }) pgMtr 1

/-- Opens an interval at second `sec` (12 R360, R362 step 4). Its first fold writes every word fresh (R365), so none is kept.
BEGIN and COMMIT that name a later second are lowered (DESIGN CHOICE, log 117). -/
def openInterval (s : State) (sec : Nat) (short : Bool) : State :=
  let l := s.dome.ledger
  let s1 := s.putLedger { l with
    openStart := sec, openFlags := 4 * flag short, open_ := true, openW := [], begin_ := min l.begin_ (sec - 1)
    commit := min l.commit (sec - 1) }
  s1.setMtr { s1.mtr with openTot := some [], firstId := (l.activeId, s.mtr.firstId.2), foldId := l.activeId, folded := s.mtr.tally, lastSecond := some sec }

/-- The MTR page's commit point: a new LEN (12 R360). -/
def commitLen (s : State) : State :=
  let h := s.head pgMtr
  if h.commit then (s.putLedger { s.dome.ledger with len := s.mtr.interval }).setHead pgMtr { h with commit := false } else s

/-- The ledger holds a close that was cut, or an open interval (12 R366). -/
def unclosed (l : Ledger) : Bool := l.open_ || l.closedCommit != l.closedStart

/-- An OPEN word with only the data that a cut fold leaves standing: none where it is older than the interval
(12 R366). -/
def standing (l : Ledger) (w : LedgerWord) : LedgerWord :=
  let through := if l.commit = l.begin_ ∨ w.par = (l.begin_ % 2 == 1) then l.begin_ else l.begin_ - 1
  if through < l.openStart then {} else w

/-- A switch is armed for a second before `sec`: it will be late (12 R362 step 3). -/
def switchLate (s : State) (sec : Nat) : Bool := s.dome.ledger.at_.any (fun a => decide (a < sec))

/-- No write of the ledger is under way. -/
def State.noTrail (s : State) : State := s.setMtr { s.mtr with trail := [] }

/-- R366 at the first Bell that starts a second after a cold reset: a close that was cut is redone whole, and an open interval is closed,
both from the OPEN words that stand and with INTERRUPTED set. This close may be cut again. -/
def recoverLedger (s : State) (sec : Nat) : State :=
  if !s.mtr.recovering then s.noTrail
  else
    let s00 := (s.setMtr { s.mtr with recovering := false }).noTrail
    let s0 := if switchLate s sec then raise s00 pgMtr 5 else s00
    let l := s0.dome.ledger
    if !unclosed l then s0
    else
      let s2 := s0.setLedger { l with openW := (l.openW.map (fun e => (e.1, standing l e.2))).filter (fun e => e.2 != {}) }
      let s3 := closeInterval s2 (l.begin_ + 1 - l.openStart) 1
      raise (s3.setMtr { s3.mtr with trail := [l, l, s3.dome.ledger] }) pgMtr 5

/-- A boundary under the LEN in force lies after second `a` and not after second `b`. -/
def boundaryIn (s : State) (a b : Nat) : Bool :=
  let n := max 1 s.dome.ledger.len
  decide (a < b / n * n)

/-- An interval that opens carries LATE_TARIFF where the switch before it was late (12 R362 step 3). -/
def markLate (late : Bool) (s : State) : State :=
  if late then s.putLedger { s.dome.ledger with openFlags := s.dome.ledger.openFlags ||| 2 } else s

/-- Second `sec` starts an interval under the LEN in force. -/
def isBoundary (s : State) (sec : Nat) : Bool := sec % max 1 s.dome.ledger.len == 0

/-- A fold cut after `k` of its writes: BEGIN, the OPEN words in turn, COMMIT (12 R365). -/
def cutFold (a b : Ledger) (k : Nat) : Ledger :=
  if k = 0 then a
  else { a with
    begin_ := b.begin_, commit := if k > 1025 then b.commit else a.commit
    openW := perTf {} (fun n => tblGet ({} : LedgerWord) (if n + 1 < k then b.openW else a.openW) n) }

/-- A close cut after `k` of its writes of 8-byte fields: CLOSED_START; the field of CLOSED_LEN and CLOSED_FLAGS; CLOSED_COMMIT all ones;
the CLOSED words in turn; CLOSED_COMMIT. R365 does not order the three fields of its step 1: they are written as it names them (12 R364,
R365; DEDUCED, log 119). -/
def cutClose (a b : Ledger) (k : Nat) : Ledger :=
  if k > 1027 then b
  else { a with
    closedStart := if k > 0 then b.closedStart else a.closedStart
    closedLen := if k > 1 then b.closedLen else a.closedLen
    closedFlags := if k > 1 then b.closedFlags else a.closedFlags
    closedCommit := if k > 2 then 2 ^ 64 - 1 else a.closedCommit
    closedW := perTf {} (fun n => tblGet ({} : LedgerWord) (if n + 3 < k then b.closedW else a.closedW) n) }

/-- The ledger where power is cut during its writes: those of the fold, or of the close, after `k` of them (12 R365, R366). -/
def cutLedger (s : State) (close : Bool) (k : Nat) : Ledger :=
  match s.mtr.trail, close with
  | a :: b :: _, false => cutFold a b k
  | _ :: a :: b :: _, true => cutClose a b k
  | _, _ => s.dome.ledger

/-- R362 at the Bell that starts second `sec`, with the recovery of R366 before it and the collapse of skipped boundaries
of R363. -/
def mtrSecond (s : State) (sec : Nat) : State :=
  let s0 := recoverLedger s sec
  let late := switchLate s0 sec
  if !s0.dome.ledger.open_ then
    let s1 := applySwitch s0 sec
    let s2 := if isBoundary s1 sec then commitLen s1 else s1
    markLate late (openInterval s2 sec true)
  else
    let last := s0.mtr.lastSecond.getD s0.dome.ledger.openStart
    let s1 := foldSecond s0 (sec - 1)
    let s1 := s1.setMtr { s1.mtr with lastSecond := some sec, trail := [s0.dome.ledger, s1.dome.ledger] }
    if !boundaryIn s1 last sec then applySwitch s1 sec
    else
      let onTime := isBoundary s1 sec
      let s2 := closeInterval s1 (sec - s1.dome.ledger.openStart) 0
      let s2 := s2.setMtr { s2.mtr with trail := s2.mtr.trail ++ [s2.dome.ledger] }
      let s3 := if onTime then s2 else lateEvent s2
      let s4 := commitLen (applySwitch s3 sec)
      markLate late (openInterval s4 sec (!onTime || !isBoundary s4 sec))

/-- INTERVAL_CLOSE: R362 for the current second, where it has not run (12 R362, R365). -/
def execIntervalClose (s : State) : Out :=
  .next (if timeKnown s ∧ s.time.bell % 1024 = 0 ∧ s.mtr.lastSecond ≠ some (reelSecond s) then mtrSecond s (reelSecond s) else s)

/-! ## Snapshots (11 R347; 12 R370) -/

/-- The capture of an order: the tallies go to the hidden bank, and the set lead is answered (11 R347). -/
def captureNow (s : State) : State :=
  match s.reel.order with
  | none => s
  | some (b, _) =>
    let s1 := { s with mtr := { s.mtr with hidden := some (b, s.mtr.tally) }, reel := { s.reel with order := none } }
    answerOrder s1 b 0

/-- SNAPSHOT_CAPTURE: the order's Bell has been asserted (11 R347). -/
def execSnapshotCapture (s : State) : Out :=
  .next (if timeKnown s ∧ s.reel.order.any (fun o => decide (o.1 ≤ s.time.bell)) then captureNow s else s)

/-- SNAP_BANK_SWAP: the hidden bank is full, and the banks swap (12 R370). -/
def execSnapBankSwap (s : State) : Out :=
  match s.mtr.hidden with
  | none => .next s
  | some (b, t) =>
    .next (raise (s.setMtr { s.mtr with
      snap := t, snapBell := b, snapSeq := (s.mtr.snapSeq + 1) % 2 ^ 32, hidden := none }) pgMtr 4)

/-! ## Signatures by the DIK (06 R173; 09 R292) -/

/-- Spire cycles of a P-384 signature. -/
abbrev dikSpire : Nat := 94624

/-- What a figure waits for before it signs with the DIK: the Spire, a hash lane and the bytes for k. -/
def dikNeeds : List Need := [.spire, .lanes true 1 2, .draw 56]

/-- The DIK's signature of a message, with k from drawn bytes: r then s; none where there is no DIK. -/
def dikSign (s : State) (msg drawn : Bytes) : Option Bytes :=
  s.dome.dik.map (fun d =>
    let g := ecdsaSign curveP384 d (drawnScalar curveP384 drawn) (sha384 msg)
    beBytes 48 g.1 ++ beBytes 48 g.2)

/-- The operands of a signature by the DIK. -/
def dikOps (s : State) (msg drawn : Bytes) : List (Nat × Nat) :=
  ecSignOps curveP384 (s.dome.dik.getD 0) (drawnScalar curveP384 drawn) (sha384 msg)

/-- The DIK public key, uncompressed; zeros where there is none. -/
def dikPub (s : State) : Bytes :=
  match s.dome.dik with
  | some d => encPoint curveP384 (ecMul curveP384 d (ecG curveP384))
  | none => zeros 97

/-- SHA-384 of the DIK public key. -/
def dikDigest (s : State) : Bytes := sha384 (dikPub s)

/-- Writes a signed statement and completes the call; without a DIK the figure cannot sign and ends DEVICE_FAULT (log 25). -/
def finishSigned (s : State) (t c : Nat) (body : Bytes) (path : Nat) : State :=
  match dikSign s body (drawnOf s t c) with
  | none => deviceFault s t c
  | some sg =>
    let (s1, ok) := writeOut (spCall s t c ecSignProg (dikOps s body (drawnOf s t c)) dikSpire false) t c (body ++ sg)
    if ok then finishCall s1 t c stOk path dikSpire [] else s1

/-! ## TALLY_STATEMENT (12 R367 to R369) -/

/-- Layouts of family 0x0B; `mf` says that the MF issued the call. -/
def statementInfo (op : Nat) (mf : Bool) (d : Bytes) : OpInfo :=
  match op with
  | 0x0B01 => { part := false, forms := [2], pEnd := 96, lenBad := inLenOf d != 0, need := 512, blocks := 2 }
  | 0x0B02 =>
    { part := false, forms := [2], pEnd := 100, lenBad := inLenOf d != 0, need := 320, blocks := 2,
      bad := decide (par d 64 > 1) || par d 65 != 0 || (!mf && !zeroIn d 66 68) }
  | _ => {}

/-- The TF that a statement is about. -/
def statementTf (fn : Nat) (d : Bytes) : Nat := if isMf fn then leAt d 66 2 else fn

/-- The checks of TALLY_STATEMENT before its figure (12 R367). Reel time is that of the call's cycle 0 (01 R20). -/
def statementParams (s : State) (op : Nat) (k : Call) (d : Bytes) : Option Nat :=
  if op ≠ 0x0B02 then none
  else if k.bell.isNone then some stTimeUnknown
  else if statementTf k.fn d > 1023 then some stBadParam
  else if par d 64 = 0 ∧ !s.dome.ledger.everClosed then some stBadParam
  else if par d 64 = 1 ∧ !s.dome.ledger.open_ then some stBadParam
  else none

/-- State codes of the life cycle (14 R391). -/
def lcsCode (st : Nat) : Nat := ([0x0000, 0x3A5C, 0x5CA3, 0xA35C, 0xC5A3, 0xFFFF] : List Nat).getD st 0

/-- Bytes 0 to 223 of a statement (12 R368). -/
def statementBody (s : State) (fn : Nat) (d : Bytes) : Bytes :=
  let l := s.dome.ledger
  let n := statementTf fn d
  let open_ := par d 64 == 1
  let tot := if open_ then s.mtr.openTot else s.mtr.closedTot
  let w := if open_ then (if l.commit < l.openStart then {} else tblGet ({} : LedgerWord) l.openW n) else tblGet ({} : LedgerWord) l.closedW n
  let flags := (if open_ then l.openFlags + 8 else l.closedFlags) + 16 * flag tot.isNone
  let len := if open_ then (if l.commit < l.openStart then 0 else l.commit + 1 - l.openStart) else l.closedLen
  let id1 := if open_ then s.mtr.firstId.1 else s.mtr.firstId.2
  let id2 := if open_ then s.mtr.foldId else s.mtr.lastId
  ascii "TSTM" ++ [1, BitVec.ofNat 8 flags] ++ leBytes 2 n ++ leBytes 8 s.fuse.serial ++ leBytes 2 (lcsCode s.lcs.st) ++
    leBytes 2 s.reel.addr ++ leBytes 8 (if open_ then l.openStart else l.closedStart) ++ leBytes 4 len ++
    leBytes 4 id1.toNat ++ leBytes 4 id2.toNat ++ leBytes 8 w.cost ++ leBytes 4 w.peak ++ zeros 4 ++
    (List.range 16).flatMap (fun i => leBytes 8 (tblGet 0 (tot.getD []) (16 * n + i))) ++ sub d 68 32 ++ zeros 8

/-- TALLY_STATEMENT signs the statement that was built as the ledger was read, in cycles 28 to 37 (12 R369). -/
def tallyStatement (t c : Nat) (s : State) : State := finishSigned s t c (s.ctx t c).work.keep 94716

/-- Runs TALLY_STATEMENT. -/
def execTallyStatement (tower ctx : Nat) (fault : FigFault) (s : State) : Out :=
  .next (runFigure s tower ctx 0x0B02 fault (tallyStatement tower ctx))

end Sys2Proof.Machine
end

