-- ==== Sys2Proof/Machine/VaultFam.lean ====
section
/-! DEFINITION. The vault engine at work: batches, attachment, vault jobs, seals, witnesses, adoption and partition handoff
(07 R236 to R252, R255). -/

namespace Sys2Proof.Machine

/-- Notes a verification failure at window-space line `w` (07 R235). -/
def noteIntegrity (s : State) (w : Nat) : State :=
  raise (s.setVault { s.vault with integCount := satAdd 32 s.vault.integCount 1, integLine := w }) pgVault 2

/-- A call ends after a number of cycles that the spec does not give: a free value (log 3). -/
def finishFree (s : State) (t c status : Nat) (res : Bytes) : State :=
  let (s1, n) := s.takeFree
  finishCall s1 t c status (Config.freeValue n % 2 ^ 32) 0 res

/-! ## Batches (07 R236 to R240) -/

/-- What a batch gathers: the image with its changes, the groups applied, those that fail with what is wrong with them, and those left
for the next batch. -/
structure Gathered where
  /-- The image. -/
  image : VaultImage
  /-- Groups applied. -/
  ok : List Group := []
  /-- Groups that cannot be written: their status, and the line that failed verification. -/
  bad : List (Group × Nat × Option Nat) := []
  /-- Groups left. -/
  rest : List Group := []

/-- The groups that a batch takes, in order: at most so many of them, and 4,096 changed lines (07 R236). -/
def gather (s : State) : Nat → VaultImage → List Group → Gathered
  | 0, m, r => { image := m, rest := r }
  | _, m, [] => { image := m }
  | n + 1, m, g :: r => match writeGroup s m g with
    | none =>
      let x := gather s n m r
      { x with bad := (g, groupFault s m g) :: x.bad }
    | some m1 =>
      if !m.chg.isEmpty ∧ m1.chg.length > 4096 then { image := m, rest := g :: r }
      else
        let x := gather s n m1 r
        { x with ok := g :: x.ok }

/-- A group that cannot be written ends its call (07 R229, R235, R236). -/
def failGroup (s : State) (g : Group) (st : Nat) (w : Option Nat) : State :=
  failGroups (match w with
    | some x => noteIntegrity s x
    | none => s) [g] st

/-- BATCH_CLOSE: the gathered groups become the batch whose journal lines are written. It waits while others hold or write lines of a page
that it must re-encipher, whose lock the engine asks for (07 R236 to R239 step 1, R242). A read of the lines that it changes, in the Keep or in
the memory, that is refused fails the batch, as a failed access of step 1 does (R227, R240; DEDUCED, log 113). -/
def execBatchClose (s : State) : Out :=
  let v := s.vault
  if v.writing.isSome ∨ v.groups.isEmpty ∨ v.st ≠ 3 ∨ batchesHeld s then .next s
  else
    let g := gather s 256 (baseImage s) v.groups
    let m := g.image
    let n := m.chg.length
    let old := (baseImage s).slot
    if m.pages.any (fun pg => pageBusyBut s pg (lockSpan s pg) (v.groups.flatMap groupKeys)) then
      .next (s.setVault { v with asked := m.pages })
    else match journalKeys s m.slot with
    | none => .next s
    | some (k1, k2, mac) =>
      let body := journalBody k1 k2 (old.seq + 1) m.chg
      let (_, tag) := journalHead mac old.root n (old.seq + 1) (old.epoch + 1) body
      let slot := { m.slot with
        valid := true, epoch := old.epoch + 1, seq := old.seq + 1, off := journalNext old n, n := n, tag := tag }
      let s1 := s.setVault { v with
        groups := g.rest, asked := []
        writing := if g.ok.isEmpty then none else some { groups := g.ok, changed := m.chg, slot := slot, pages := m.pages } }
      let (s1', ok0) := engineKeep s1 false ((g.ok.flatMap groupKeys).map (fun k => (keyPart k, keyIdx k)))
      let (s2, ok1) := windowMove s1' false (batchReads s m)
      let ok := ok0 && ok1
      let s3 := match s2.vault.writing with
        | some b => if ok then s2 else failBatch s2 b stVaultUnreach
        | none => s2
      .next (g.bad.foldl (fun a e => failGroup a e.1 e.2.1 e.2.2) s3)

/-- The journal lines of a batch (07 R238). -/
def journalLines (s : State) (b : Batch) : Tbl Bytes :=
  match journalKeys s b.slot with
  | none => []
  | some (k1, k2, mac) =>
    let body := journalBody k1 k2 b.slot.seq b.changed
    let (h, _) := journalHead mac (baseImage s).slot.root b.slot.n b.slot.seq b.slot.epoch body
    (h :: body).zipIdx.map (fun e => (b.slot.off + e.2, e.1))

/-- The vault engine has completed a commit step of R239: the calls that wait for a commit are not stalled in this cycle
(10 R315). -/
def commitStep (s : State) : State :=
  { s with towers := s.towers.map (fun w => { w with
      ctxs := w.ctxs.map (fun (x : Ctx) => if x.needs.head? = some .commit then { x with stall := 0 } else x) }) }

/-- JOURNAL_WRITTEN: step 1 has ended, and steps 2 and 3 follow, or the batch fails (07 R239, R240). A refused write of the PENDING slot leaves
it in step 1, and fails it too (13 R384; DEDUCED, log 87). -/
def execJournalWritten (failed : Bool) (s : State) : Out :=
  match s.vault.writing, s.vault.batch with
  | some b, none =>
    let lines := journalLines s b
    let (s0, ok0) := writeCheck s (lines.map (·.1))
    let (s1, ok1) := if failed || !ok0 then (s0, ok0) else rootAccess s0 true
    let ok := ok0 && ok1
    let s2 := s1.setVault { s1.vault with writing := none }
    if failed || !ok then .next (failBatch (if failed then logVaultError s1 else s1) b stVaultUnreach)
    else
      let s3 := setPendingSlot (putMem s2 lines) b.slot
      let s4 := moveLines (s3.setVault { s3.vault with batch := some b }) b.groups .writing .durable
      .next (b.groups.foldl (fun a g => commitDone a g.at_.1 g.at_.2 g.lines.length) (commitStep s4))
  | _, _ => .next s

/-- The metadata cache after a batch: the lines that it holds as the batch has changed them, and every changed node of levels 6 to 10,
which the common part always holds (07 R223, R235). -/
def metaAfter (md : Tbl (Nat × Bytes)) (b : Batch) : Tbl (Nat × Bytes) :=
  b.changed.foldl (fun a e =>
    match a.find? (fun x => x.1 == e.1) with
    | some x => tblInsert a e.1 (x.2.1, e.2)
    | none => if treeBase b.slot.p b.slot.j 6 ≤ e.1 then tblInsert a e.1 (1024, e.2) else a) md

/-- The home lines of the durable batch are written, and its slot becomes the COMMITTED one (07 R239 steps 4 and 5). -/
def commitHome (s : State) (b : Batch) : State :=
  let s1 := putMem s b.changed
  let s2 := s1.setVault { s1.vault with batch := none, meta_ := metaAfter s1.vault.meta_ b }
  let s3 := { s2 with dome := { s2.dome with sel := !s2.dome.sel } }
  setPendingSlot s3 { pendingSlot s3 with valid := false }

/-- Steps 4 and 5 of R239 have succeeded for the durable batch: its lines are clean. -/
def applyHome (s : State) (b : Batch) : State :=
  sealReady (detachCheck (moveLines (commitStep (commitHome s b)) b.groups .durable .clean))

/-- Step 4 is tried: an access of it fails, or the home lines are written (07 R239, R240). -/
def tryHome (s : State) (b : Batch) (failed : Bool) : State :=
  let (s0, ok0) := writeCheck s (b.changed.map (·.1))
  let (s1, ok1) := if failed || !ok0 then (s0, ok0) else rootAccess s0 true
  let ok := ok0 && ok1
  let s2 := if failed then logVaultError s1 else s1
  if failed || !ok then s2.setVault { s2.vault with batch := some { b with failed := true, retry := 0 } }
  else applyHome s1 b

/-- HOME_APPLIED (07 R239 steps 4 and 5). -/
def execHomeApplied (failed : Bool) (s : State) : Out :=
  match s.vault.batch with
  | some b => .next (if b.failed then s else tryHome s b failed)
  | none => .next s

/-- APPLY_RETRY: step 4 is tried again, 2^20 cycles after it failed (07 R240). -/
def execApplyRetry (failed : Bool) (s : State) : Out :=
  match s.vault.batch with
  | some b =>
    if b.failed ∧ b.retry ≥ 2 ^ 20 then
      let s1 := raise (s.setVault { s.vault with retries := satAdd 32 s.vault.retries 1 }) pgVault 6
      .next (tryHome s1 b failed)
    else .next s
  | none => .next s

/-! ## Creation and attachment (07 R241, R255) -/

/-- The programmed geometry is valid and the windows cover it (07 R228). -/
def geometryOk (s : State) : Bool := decide (s.vault.j ≤ 6) && decide (spaceNeeded s.vault.p s.vault.j ≤ windowBytes s)

/-- A VAULT_CTRL action ends at once with a result. -/
def ctrlResult (s : State) (r : Nat) : State := raise (s.setVault { s.vault with result := r }) pgVault 1

/-- CREATE (07 R255). A refused write of the root slot ends it as a failed access does, result WINDOW (13 R384; DEDUCED, log 87). The new
VAULT_ID is a free value. What the memory held before is never read. -/
def execVaultCreate (s : State) : Out :=
  if pageShut s pgVault then .next s
  else if s.vault.st ≠ 0 then .next (ctrlResult s 1)
  else if !geometryOk s then .next (ctrlResult s 2)
  else match s.dome.cur with
    | none => .next (ctrlResult s 3)
    | some d =>
      let (s0, ok) := rootAccess s true
      let (s1, id) := s0.takeBytes 8
      let slot : RootSlot :=
        { valid := true, vaultId := id, p := s.vault.p, j := s.vault.j, set0 := { dmkId := dmkId d }, root := zeros 64 }
      let s2 := { s1 with dome := { s1.dome with slots := (slot, {}), sel := false } }
      .next (if !ok then ctrlResult s0 4 else ctrlResult (s2.setVault { s2.vault with st := 3, journalLost := false, nextReady := false, rekey := none, mem := [], meta_ := [], descs := [] }) 0)

/-- ATTACH begins (07 R255). -/
def execVaultAttach (s : State) : Out :=
  let r := committed s
  if pageShut s pgVault then .next s
  else if s.vault.st ≠ 1 then .next (ctrlResult s 1)
  else if !geometryOk s ∨ s.vault.p ≠ r.p ∨ s.vault.j ≠ r.j then .next (ctrlResult s 2)
  else if (dmkById s r.curSet.dmkId).isNone then .next (ctrlResult s 3)
  else .next (s.setVault { s.vault with st := 2, busy := 1 })

/-- DETACH begins (07 R255). -/
def execVaultDetach (s : State) : Out :=
  if pageShut s pgVault then .next s
  else if (s.vault.st ≠ 3 ∧ s.vault.st ≠ 4) ∨ s.vault.busy ≠ 0 then .next (ctrlResult s 1)
  else .next (detachCheck (s.setVault { s.vault with busy := 2, hold := true }))

/-- A journal batch as the memory holds it: index and data lines, where header and tag are those of the slot or, for a
roll-forward, those that come next. -/
def readBatch (s : State) (r : RootSlot) (off n seq epoch : Nat) (before : Option Bytes) : Option (Bytes × Tbl Bytes) :=
  let get := fun i => tblGet (zeros 64) s.vault.mem (off + i)
  let head := get 0
  let body := (List.range (ceilDiv n 8 + n)).map (fun i => get (i + 1))
  match journalKeys s r with
  | none => none
  | some (k1, k2, mac) =>
    let tag := (cmac (aesC mac) (head.take 56 ++ body.flatten)).take 8
    let ok := head.take 4 == ascii "JRNL" && leAt head 4 4 == n && leAt head 8 8 == seq && leAt head 16 8 == epoch &&
      sub head 56 8 == tag && (before.all (fun b => sub head 24 24 == (sha256 b).take 24))
    if !ok then none
    else
      let clear := body.zipIdx.map (fun e => xtsDec k1 k2 (leBytes 8 seq ++ leBytes 8 (e.2 + 1)) e.1)
      let idx := (clear.take (ceilDiv n 8)).flatten
      some (tag, (clear.drop (ceilDiv n 8)).zipIdx.map (fun e => (leAt idx (8 * e.2) 8, e.1)))

/-- PENDING is discarded at attachment (07 R241). -/
def journalGone (s : State) : State :=
  let s1 := setPendingSlot s { pendingSlot s with valid := false }
  raise (s1.setVault { s1.vault with journalLost := true }) pgVault 3

/-- Recovery at attachment, its journal reads and home writes checked as accesses; whether they were allowed (07 R227, R241). -/
def recoverVault (s0 : State) : State × Bool :=
  let p := pendingSlot s0
  if !p.valid then (s0, true)
  else
    let (s, ok) := windowMove s0 false ((List.range (batchLines p.n)).map (p.off + ·))
    if !ok then (s, false)
    else match readBatch s p p.off p.n p.seq p.epoch none with
      | some (tag, l) =>
        if tag = p.tag then
          let (s0, ok0) := writeCheck s (l.map (·.1))
          let (s1, ok1) := rootAccess s0 true
          if !ok0 || !ok1 then (s1, false)
          else
            let s2 := putMem s1 l
            let s3 := { s2 with dome := { s2.dome with sel := !s2.dome.sel } }
            (setPendingSlot s3 { pendingSlot s3 with valid := false }, true)
        else (journalGone s, true)
      | none => (journalGone s, true)

/-- Verified tree nodes of levels 6 to 10, by window-space line, and whether a tag failed (07 R223, R255). -/
def loadCommon (s : State) (r : RootSlot) : Nat → List (Nat × Bytes) → Tbl (Nat × Bytes) × Bool
  | 0, _ => ([], true)
  | k + 1, parents =>
    let level := k + 6
    let kids := parents.flatMap (fun e => (List.range 8).filterMap (fun i =>
      let tag := leAt e.2 (8 * i) 8
      if tag = 0 then none
      else
        let idx := 8 * e.1 + i
        let b := tblGet (zeros 64) s.vault.mem (nodeW r level idx)
        match vaultKey s r.vaultId (r.keySet (bitOf tag 63)) "VMAC" with
        | none => some (idx, none)
        | some m => some (idx, if childTag m b level idx (bitOf tag 63) = tag then some b else none)))
    let good := kids.filterMap (fun e => e.2.map (fun b => (e.1, b)))
    let (rest, ok) := loadCommon s r k good
    (good.map (fun e => (nodeW r level e.1, (1024, e.2))) ++ rest, ok && kids.all (fun e => e.2.isSome))

/-- A descriptor that the vault holds but that does not verify, or has a reserved PSTATE: the device holds it with PSTATE 3, so that the
partition is neither FREE nor ACTIVE (06 R178, R189; DEDUCED, log 110). -/
def badDesc : Bytes := [4, 3] ++ zeros 238

/-- A partition descriptor as the vault holds it, and the line that fails where it does not verify (06 R178, R189). -/
def loadDesc (s : State) (r : RootSlot) (p : Nat) : Bytes × Option Nat :=
  let get := fun w => tblGet (zeros 64) s.vault.mem w
  let bad := (badDesc ++ zeros 16, some (payW r (payLine s 0 (4 * p))))
  match (List.range 4).mapM (fun i => readLine s r get (payLine s 0 (4 * p + i))) with
  | none => bad
  | some ls =>
    let b := ls.flatten
    let ok := ([s.dome.cur, s.dome.next].filterMap id).any (fun d =>
      tagOk (recKey "RTAG" (partRoot d (zeros 48) 0 (pversion s 0)) 0) 0 (4 * p) b)
    if byteAt b 0 = 0 then (zeros 256, none)
    else if byteAt b 0 = 4 ∧ ok ∧ byteAt b 1 ≤ 2 then (fit 240 b ++ zeros 16, none)
    else bad

/-- Takes over the descriptor of a partition. -/
def takeDesc (s : State) (r : RootSlot) (p : Nat) (from_ : State) : State :=
  let x := loadDesc from_ r p
  let s1 := setDesc s p x.1
  match x.2 with
  | some w => noteIntegrity s1 w
  | none => s1

/-- The accesses by which the vault's common part, and the descriptors of all partitions, are read, one for each 4 KiB of the
descriptors (07 R223, R227, R255). -/
def onlineReads (s : State) (r : RootSlot) : List Nat :=
  let l := payLine s 0 0
  (loadCommon s r 5 [(0, r.root)]).1.map (·.1) ++ (List.range 64).map (fun i => payW r (l + 64 * i)) ++
    (List.range 8).map (fun i => macW r (l + 512 * i)) ++ metaPath r l

/-- The rekey that has begun and not finished, as the key sets of a slot show it: two are live, and the current one is under the NEXT DMK or
under CURRENT (07 R243, R254). -/
def liveRekey (s : State) (r : RootSlot) : Option Nat :=
  if r.set1.isNone ∨ r.set0 = {} then none
  else some (if s.dome.next.any (fun k => dmkId k == r.curSet.dmkId) then 1 else 0)

/-- The vault comes online: the common part and the partition descriptors are read (07 R223, R255). -/
def comeOnline (s : State) : State :=
  let r := committed s
  let (common, ok) := loadCommon s r 5 [(0, r.root)]
  let s1 := s.setVault { s.vault with st := 3, meta_ := common.foldl (fun a e => tblInsert a e.1 e.2) [], descs := [], rekey := liveRekey s r }
  let s2 := takeDesc s1 r 0 s1
  let s3 := (List.range 1024).foldl (fun a p => if p = 0 then a else takeDesc a r p s2) s2
  if ok then s3 else noteIntegrity s3 (nodeW r 10 0)

/-- The vault comes online where its reads are allowed; whether they are (07 R227, R255). -/
def tryOnline (s : State) : State × Bool :=
  let (s1, ok) := windowMove s false (onlineReads s (committed s))
  if ok then (comeOnline s1, true) else (s1, false)

/-- An attachment fails over one of its accesses: result WINDOW (07 R255). -/
def attachFails (s : State) : State := ctrlResult (s.setVault { s.vault with st := 1, busy := 0 }) 4

/-- CTRL_DONE: the VAULT_CTRL action in progress ends; `mem` is what the memory holds where it differs from what was
written (07 R255). -/
def execCtrlDone (mem : List (Nat × Bytes)) (s : State) : Out :=
  .next (match s.vault.busy with
    | 1 =>
      let (s1, ok1) := recoverVault (putMem s mem)
      if !ok1 then attachFails s1
      else
        let (s2, ok2) := tryOnline s1
        if !ok2 then attachFails s2 else ctrlResult (s2.setVault { s2.vault with busy := 0 }) 0
    | 2 => detachCheck s
    | _ => s)

/-! ## Seals and witnesses (07 R245 to R247) -/

/-- The two devices downstream, in ring order; across a break there is none (07 R246; 11 R332). -/
def downstream (s : State) : List Nat :=
  let r := s.reel
  if !r.addressed then []
  else
    let next := fun a => match r.topo with
      | 1 => if a + 1 < r.count then some (a + 1) else none
      | 2 => some ((a + 1) % r.count)
      | 3 => if r.brk = some a then none else some ((a + 1) % r.count)
      | _ => none
    match next r.addr with
    | none => []
    | some a => match next a with
      | some b => [a, b]
      | none => [a]

/-- A seal of the COMMITTED root (07 R245). -/
def sealBytes (s : State) (released : Bool) : Bytes :=
  let r := committed s
  let ws := downstream s
  let setB := fun (k : KeySet) => fit 2 k.dmkId ++ leBytes 2 k.gen
  let body := ascii "SEAL" ++ [1, BitVec.ofNat 8 (flag released + 2 * flag r.set1.isSome + 4 * flag r.cur)] ++
    leBytes 2 s.reel.addr ++ fit 8 r.vaultId ++ leBytes 8 r.epoch ++ leBytes 8 r.seq ++ leBytes 2 r.p ++ leBytes 1 r.j ++
    leBytes 1 ws.length ++ leBytes 2 (ws.getD 0 0) ++ leBytes 2 (ws.getD 1 0) ++ setB r.set0 ++ setB (r.set1.getD {}) ++ fit 64 r.root
  body ++ ((vaultKey s r.vaultId r.curSet "VSEA").map (fun k => cmac (aesC k) body)).getD (zeros 16)

/-- WITN of a vault under a DMK (07 R230). -/
def witnKey (dmk vaultId : Bytes) : Bytes := kdf108 (aesC dmk) (ascii "WITN") vaultId 256

/-- A witness record (07 R246). -/
def witnessBytes (s : State) (owner second epoch : Nat) (vaultId root : Bytes) (k : KeySet) : Bytes :=
  let body := fit 8 vaultId ++ leBytes 2 owner ++ leBytes 6 second ++ leBytes 8 epoch ++ (sha256 root).take 24 ++ zeros 8
  body ++ ((dmkById s k.dmkId).map (fun d => (cmac (aesC (witnKey d vaultId)) body).take 8)).getD (zeros 8)

/-- Writes a seal to its seal line and reads that back, as accesses for the MF (07 R246). -/
def writeSeal (s : State) (i : Nat) (b : Bytes) : State :=
  let (s1, ok) := windowMove s true [i]
  if ok then (windowMove (s1.setVault { s1.vault with seals := s1.vault.seals.set i b }) false [i]).1 else s1

/-- Mirrors the COMMITTED root to the witnesses; a mirror before it that lacks answers was short (07 R246, R247). -/
def mirror (s : State) : State :=
  let r := committed s
  let ws := downstream s
  let s1 := if s.vault.awaiting.isEmpty then s else shortMirror s
  let rec_ := witnessBytes s s.reel.addr (reelSecond s) r.epoch r.vaultId r.root r.curSet
  let s2 := ws.foldl (fun a w => sendTo a 0 0x06 w rec_) (s1.setVault { s1.vault with acks := 0, awaiting := ws, wcount := ws.length })
  sealWaiters ((ws.filter (fun w => (portTo s w).isNone)).foldl (witnessAnswer false) (if ws.isEmpty then mirrorSettle s2 else s2))

/-- The seal and mirror at the Bell that starts a Reel second (07 R246). -/
def vaultSecond (s : State) : State :=
  if s.vault.st ≠ 3 then s else mirror (writeSeal s (reelSecond s % 2) (sealBytes s false))

/-- The witness slots after a record arrives (07 R247). -/
def storeWitness (l : List Bytes) (b : Bytes) : List Bytes :=
  match l.findIdx? (fun x => x.take 8 == b.take 8) with
  | some i =>
    let x := l.getD i []
    let newer := if leAt x 8 2 = leAt b 8 2 then decide (leAt b 16 8 ≥ leAt x 16 8) else decide (leAt b 16 8 > leAt x 16 8)
    if newer then l.set i b else l
  | none =>
    if l.length < 64 then l ++ [b]
    else match bestBy (fun i => 2 ^ 48 - leAt (l.getD i []) 10 6) (List.range l.length) with
      | some i => l.set i b
      | none => l

/-- The witness slots after a record arrives, the write checked as one of the Reel engine to its slot (07 R247; 13 R373, R377,
R420): refused, the slots stand. -/
def writeWitness (s : State) (b : Bytes) : State :=
  let old := s.dome.witness
  let new := storeWitness old b
  let put := fun (a : State) => { a with dome := { a.dome with witness := new } }
  match (List.range new.length).find? (fun i => new[i]? != old[i]?) with
  | none => put s
  | some i =>
    let (s1, ok) := intCheck s 5 true 0 (domeWitness + 64 * i)
    if ok then put s else s1

/-- A witness record is stored, and acknowledged with what its slot holds (07 R247). -/
def takeWitness (src : Nat) (record : Bytes) (s : State) : State :=
  let b := fit 64 record
  let s1 := writeWitness s b
  let x := (s1.dome.witness.find? (fun y => y.take 8 == b.take 8)).getD (zeros 64)
  sendTo s1 3 0x32 src (sub x 8 2 ++ sub x 16 8)

/-- WITNESS: a record arrives (07 R247). -/
def execWitnessRec (h : Hdr) (record : Bytes) (s : State) : Out :=
  .next (receive s h 0 0x06 record (takeWitness h.src record))

/-- The vault is FENCED: what was gathered, and the batch in step 1, end VAULT_UNREACHABLE; a batch that is durable already goes on
(07 R247, R255; DEDUCED, log 111). -/
def fenceVault (s : State) : State :=
  let gs := ((s.vault.writing.map (·.groups)).getD []) ++ s.vault.groups
  raise (failGroups (s.setVault { s.vault with st := 4, groups := [], writing := none, asked := [] }) gs stVaultUnreach) pgVault 5

/-- A witness has answered: another owner, or an EPOCH above this device's own, fences the vault (07 R247). -/
def takeWitnessAck (src owner epoch : Nat) (s : State) : State :=
  let s1 := witnessAnswer true s src
  sealWaiters (if s1.vault.st = 3 ∧ (owner ≠ s1.reel.addr ∨ epoch > (committed s1).epoch) then fenceVault s1 else s1)

/-- WITNESS_ACK (07 R247). -/
def execWitnessAck (h : Hdr) (owner epoch : Nat) (s : State) : Out :=
  .next (receive s h 3 0x32 (leBytes 2 owner ++ leBytes 8 epoch) (takeWitnessAck h.src owner epoch))

/-! ## Layouts of family 0x0A -/

/-- Layouts of the vault opcodes (07 R243, R244, R248, R249, R251). -/
def vaultInfo (op : Nat) (d : Bytes) : OpInfo :=
  match op with
  | 0x0A01 => { mfOnly := true, pEnd := 65, bad := decide (par d 64 > 1), job := true }
  | 0x0A02 => { mfOnly := true, pEnd := 81, bad := decide (par d 80 > 1), job := true }
  | 0x0A03 =>
    { mfOnly := true, forms := [2], pEnd := 65, bad := decide (par d 64 > 1), lenBad := inLenOf d != 0, need := 128, blocks := 2 }
  | 0x0A04 =>
    { mfOnly := true, forms := [0, 2], job := true, lenBad := formOf d == 2 && inLenOf d != 128, blocks := if formOf d = 2 then 2 else 0 }
  | 0x0A05 => { mfOnly := true, pEnd := 68, job := true }
  | _ => {}

/-! ## VAULT_REKEY and VAULT_SCRUB (07 R242 to R244) -/

/-- A group without a call of its own. -/
def engineGroup (s : State) (g : Group) : State := s.setVault { s.vault with groups := s.vault.groups ++ [{ g with at_ := (17, 0) }] }

/-- A value that the work keeps. -/
def workVal (s : State) (t c i : Nat) : Nat := (s.ctx t c).work.vals.getD i 0

/-- Another VAULT_REKEY job runs. -/
def rekeyRuns (s : State) (t c : Nat) : Bool :=
  s.jobs.any (fun j => opOf j.call.desc == 0x0A01 && !(j.at_ == (t, c) && !j.suspended))

/-- VAULT_REKEY: its checks and start, the end of its walk, and its completion (07 R243). -/
def rekeyStep (t c : Nat) (s : State) : State :=
  let x := s.ctx t c
  let tgt := par (workDesc s t c) 64
  let walk := fun (a : State) => setNeeds (modWork a t c (fun w => { w with
    phase := 1, total := geoP (committed s).p / 64, vals := [0, 0] })) t c [.page]
  let bad := finishCall s t c stBadParam 39 0 []
  match x.work.phase with
  | 0 =>
    if s.vault.st ≠ 3 ∨ rekeyRuns s t c ∨ s.vault.rekey.any (· != tgt) ∨ (tgt = 1 ∧ s.dome.next.isNone) then bad
    else if s.vault.rekey = some tgt then walk s
    else
      let old := (baseImage s).slot.curSet
      let k : KeySet := if tgt = 1 then { dmkId := (s.dome.next.map dmkId).getD [] }
        else { dmkId := (s.dome.cur.map dmkId).getD [], gen := old.gen + 1 }
      let s1 := modWork (s.setVault { s.vault with rekey := some tgt }) t c (fun w => { w with phase := 9 })
      passGroup s1 t c { sets := .add k } [] (goOn, 39, 0, [])
  | 9 => walk (s.setVault { s.vault with nextReady := s.vault.nextReady && tgt == 1 })
  | 1 => passGroup (modWork s t c (fun w => { w with phase := 2 })) t c { sets := .drop } [] (goOn, 39, 0, [])
  | _ => finishFree (s.setVault { s.vault with rekey := none, nextReady := tgt == 1 }) t c stOk
      (leBytes 8 (workVal s t c 0) ++ leBytes 8 (workVal s t c 1))

/-- VAULT_SCRUB: its checks and start, and its completion (07 R244). -/
def scrubStep (t c : Nat) (s : State) : State :=
  let d := workDesc s t c
  let first := leAt d 64 8
  let count := leAt d 72 8
  match (s.ctx t c).work.phase with
  | 0 =>
    if s.vault.st ≠ 3 then finishCall s t c stVaultUnreach 39 0 []
    else if count = 0 ∨ first + count > geoP (committed s).p / 64 then finishCall s t c stBadParam 39 0 []
    else setNeeds (modWork s t c (fun w => { w with phase := 1, total := count, vals := [0, 0, 2 ^ 64 - 1] })) t c [.page]
  | _ => finishFree s t c stOk (leBytes 8 (workVal s t c 0) ++ leBytes 4 (workVal s t c 1) ++ leBytes 8 (workVal s t c 2))

/-- A record of 128 lines begins with a line. -/
def spansTwo (b : Bytes) : Bool := recordSpan b == some 128

/-- The page walk of a vault job has done `n` pages. -/
def pageDone (s : State) (t c n : Nat) : State :=
  let x := s.ctx t c
  let s1 := s.setCtx t c { x with stall := 0, work := { x.work with progress := x.work.progress + n } }
  let w := (s1.ctx t c).work
  if w.progress ≥ w.total then popNeed s1 t c else s1

/-- A vault job hands pages over in a group of its own, with `f` on its values, and goes on to its next page once that group commits; a
failure of the batch ends its call (07 R240, R242; the wait is a DESIGN CHOICE, log 112). -/
def passPages (s : State) (t c : Nat) (r : PageRun) (f : Work → Work) : State :=
  let (s0, k) := s.takeFree
  let s1 := modWork (dropPages s0 (baseImage s).slot r.first r.count) t c (fun w => f { w with progress := w.progress + r.count })
  let s2 := passGroup s1 t c { runs := [r] } [] (goOn, Config.freeValue k % 2 ^ 32, 0, [])
  let x := s2.ctx t c
  s2.setCtx t c { x with needs := if x.work.progress < x.work.total then [.commit, .page] else [.commit] }

/-- Adds to the values that the work keeps. -/
def bumpVal (i n : Nat) (w : Work) : Work := { w with vals := w.vals.modify i (· + n) }

/-- One page of VAULT_REKEY (07 R243). -/
def rekeyPage (t c : Nat) (s : State) : State :=
  let m := baseImage s
  let pg := (s.ctx t c).work.progress
  let tgt := par (workDesc s t c) 64
  match readCtr s m.slot (imageView s m) (64 * pg) with
  | none => finishFree (noteIntegrity s (payW m.slot (64 * pg))) t c stIntegrity []
  | some ctr =>
    if ctr = zeros 64 ∨ ctrSet ctr = m.slot.cur then pageDone s t c 1
    else match openPage s m pg with
      | none => finishFree (noteIntegrity s (payW m.slot (64 * pg))) t c stIntegrity []
      | some ls =>
        let n := if tgt = 1 ∧ spansTwo (ls.headD []) then 2 else 1
        match openRun s m pg n with
        | none => finishFree (noteIntegrity s (payW m.slot (64 * pg))) t c stIntegrity []
        | some all =>
          let k := if tgt = 1 then (s.dome.next.map (fun d => (rewrapLines s d all.length (64 * pg) all).2)).getD 0 else 0
          passPages s t c { first := pg, count := n, move := true, rewrap := tgt == 1 } (fun w => bumpVal 1 k (bumpVal 0 n w))

/-- One page of VAULT_SCRUB (07 R244). -/
def scrubPage (t c : Nat) (s : State) : State :=
  let m := baseImage s
  let d := workDesc s t c
  let pg := leAt d 64 8 + (s.ctx t c).work.progress
  match openPage s m pg with
  | some _ =>
    let empty := readCtr s m.slot (imageView s m) (64 * pg) == some (zeros 64)
    if par d 80 = 1 ∧ !empty then passPages s t c { first := pg } (bumpVal 0 1)
    else pageDone (modWork s t c (bumpVal 0 1)) t c 1
  | none =>
    let s1 := modWork (noteIntegrity s (payW m.slot (64 * pg))) t c (fun w =>
      bumpVal 1 1 (if w.vals.getD 1 0 = 0 then { w with vals := w.vals.set 2 pg } else w))
    pageDone s1 t c 1

/-! ## Sealing on command (07 R248) -/

/-- The vault is left: its slots are cleared, and what waits for it ends VAULT_UNREACHABLE (07 R248). -/
def releaseVault (s : State) : State :=
  let s1 := { s with dome := { s.dome with slots := ({}, {}), sel := false } }
  failGroups (s1.setVault { s1.vault with st := 0, hold := false, groups := [], rekey := none, nextReady := false, meta_ := [], descs := [] })
    s.vault.groups stVaultUnreach

/-- The seal step of VAULT_SEAL_ROOT: the seal to its line and to the output, and the mirror (07 R248). -/
def sealStep (release : Bool) (t c : Nat) (s : State) : State :=
  let b := sealBytes s release
  let (s1, ok) := writeOut (writeSeal s (if timeKnown s then reelSecond s % 2 else 0) b) t c b
  if !ok then s1
  else
    let s2 := mirror (modWork s1 t c (fun w => { w with phase := 1, vals := [(committed s).epoch] }))
    if s2.vault.awaiting.isEmpty then s2 else setNeeds s2 t c [.reel]

/-- VAULT_SEAL_ROOT: the seal, and once its witnesses have answered, the completion. `release` is OP 0x01: from its seal step on new
batches are held, and it waits for the batch in flight. -/
def sealRoot (release : Bool) (t c : Nat) (s : State) : State :=
  if (s.ctx t c).work.phase = 1 then
    finishCall (if release then releaseVault s else s) t c stOk 99 0 (leBytes 8 (workVal s t c 0) ++ leBytes 1 s.vault.acks)
  else if s.vault.st ≠ 3 then finishCall s t c stVaultUnreach 39 0 []
  else if release ∧ !vaultQuiet s then setNeeds (modWork s t c (fun w => { w with phase := 2 })) t c [.commit]
  else sealStep release t c s

/-! ## Adoption (07 R249) -/

/-- The slot that a seal describes, where its tag verifies under CURRENT. -/
def sealSlot (s : State) (b : Bytes) : Option RootSlot :=
  let f := byteAt b 5
  let set := fun (o : Nat) => ({ dmkId := sub b o 2, gen := leAt b (o + 2) 2 } : KeySet)
  let r : RootSlot :=
    { valid := true, vaultId := sub b 8 8, epoch := leAt b 16 8, seq := leAt b 24 8, p := leAt b 32 2, j := byteAt b 34,
      set0 := set 40, set1 := if bitOf f 1 then some (set 44) else none, cur := bitOf f 2, root := sub b 48 64 }
  if b.take 4 ≠ ascii "SEAL" ∨ b.length ≠ 128 ∨ byteAt b 4 ≠ 1 then none
  else match s.dome.cur with
    | none => none
    | some d =>
      if r.curSet.dmkId ≠ dmkId d then none
      else (vaultKey s r.vaultId r.curSet "VSEA").bind (fun k => if cmac (aesC k) (b.take 112) = b.drop 112 then some r else none)

/-- A batch of the journal that comes next after a slot: its place, its size and its lines. -/
def nextBatch (s : State) (r : RootSlot) : Option (Nat × Nat × Bytes × Tbl Bytes) :=
  (s.vault.mem.filter (fun e => decide (2 ≤ e.1) && decide (e.1 < geoJ r.j) && e.2.take 4 == ascii "JRNL")).findSome? (fun e =>
    let n := leAt e.2 4 4
    (readBatch s r e.1 n (r.seq + 1) (r.epoch + 1) (some r.root)).map (fun x => (e.1, n, x.1, x.2)))

/-- Applies batches in turn, each home write checked as an access; `n` bounds their number. The last part says whether all of them were
allowed (07 R227, R249). -/
def rollForward : Nat → State → RootSlot → Nat → State × RootSlot × Nat × Bool
  | 0, s, r, k => (s, r, k, true)
  | n + 1, s, r, k => match nextBatch s r with
    | none => (s, r, k, true)
    | some (off, m, tag, l) =>
      let (s0, ok) := writeCheck s (l.map (·.1))
      if !ok then (s0, r, k, false)
      else
        let s1 := putMem s0 l
        match vaultKey s1 r.vaultId r.curSet "VMAC" with
        | none => (s0, r, k, true)
        | some mac =>
          let root := (l.filter (fun e => decide (treeBase r.p r.j 10 ≤ e.1))).foldl (fun a e =>
            let i := e.1 - treeBase r.p r.j 10
            patch a (8 * (i % 8)) (leBytes 8 (childTag mac e.2 10 i r.cur))) r.root
          rollForward n s1 { r with root := root, seq := r.seq + 1, epoch := r.epoch + 1, off := off, n := m, tag := tag } (k + 1)

/-- A witness's record answers check 3 of R249. -/
def witnessOk (s : State) (r : RootSlot) (b : Bytes) : Bool :=
  b.length == 64 && b.take 8 == r.vaultId && decide (leAt b 16 8 ≤ r.epoch) &&
    (s.dome.cur.any (fun d => (cmac (aesC (witnKey d r.vaultId)) (b.take 56)).take 8 == b.drop 56))

/-- The accesses by which adoption reads the seal lines and the journal, one for each 4 KiB (07 R227, R249). -/
def adoptReads (s : State) : List Nat := (List.range (geoJ s.vault.j / 64)).map (64 * ·)

/-- VAULT_ADOPT: `seals` are the seal lines as read, `answers` what the seal's witnesses hold, `failed` says that a read of the memory
failed on the bus; such a read, or one that is refused, ends the call VAULT_UNREACHABLE (07 R227, R249; DEDUCED, log 113). -/
def adopt (seals : List Bytes) (answers : List (Option Bytes)) (failed : Bool) (t c : Nat) (s0 : State) : State :=
  let (s, ok) := windowMove s0 false (adoptReads s0)
  let d := workDesc s t c
  let pick := fun (l : List Bytes) => (bestBy (fun (e : RootSlot × Bytes) => e.1.epoch) (l.filterMap (fun b => (sealSlot s b).map (fun r => (r, b)))))
  let cand := if formOf d = 2 then pick [inputOf s t c] else pick (if seals.isEmpty then s.vault.seals else seals)
  if s0.vault.st ≠ 0 ∨ !geometryOk s0 ∨ s0.dome.cur.isNone then finishCall s0 t c stBadParam 39 0 []
  else if failed || !ok then finishFree (if failed then logVaultError s else s) t c stVaultUnreach []
  else match cand with
    | none => finishFree s t c stIntegrity []
    | some (r, b) =>
      let ws := ([leAt b 36 2, leAt b 38 2] : List Nat).take (byteAt b 35)
      if r.p ≠ s.vault.p ∨ r.j ≠ s.vault.j then finishFree s t c stBadParam []
      else if (List.range ws.length).any (fun i => (answers.getD i none).isNone) then finishFree s t c stReelUnreach []
      else if (List.range ws.length).any (fun i => !witnessOk s r ((answers.getD i none).getD [])) then finishFree s t c stIntegrity []
      else
        let (s1', r1, k, moved) := rollForward (s.vault.mem.length + 1) s r 0
        let (s1, written) := rootAccess s1' true
        let applied := moved && written
        let s2 := { s1 with dome := { s1.dome with slots := (r1, {}), sel := false } }
        let (s3, up) := tryOnline (s2.setVault { s2.vault with journalLost := false })
        let fence := witnessBytes s3 s3.reel.addr (if timeKnown s3 then reelSecond s3 else 0) r1.epoch r1.vaultId r1.root r1.curSet
        let s4 := ws.foldl (fun a w => sendTo a 0 0x06 w fence) (s3.setVault { s3.vault with fences := ws })
        if !applied then finishFree s1 t c stVaultUnreach []
        else if !up then finishFree (s3.setVault { s3.vault with st := 1 }) t c stVaultUnreach []
        else finishFree (mirror s4) t c stOk (leBytes 8 r1.epoch ++ leBytes 4 k)

/-! ## Partition handoff (07 R251, R252) -/

/-- The transfer key (07 R251). -/
def handoffKey (s : State) (p : Nat) (nonce : Bytes) : Option Bytes :=
  s.dome.cur.map (fun d => kdf108 (aesC d) (ascii "HNDF") (beBytes 2 p ++ nonce) 256)

/-- One HANDOFF_PAGE payload: half `h` of a page. -/
def handoffPayload (key : Bytes) (pg h : Nat) (lines : List Bytes) : Bytes :=
  let aad := leBytes 8 pg ++ leBytes 1 h ++ zeros 7
  let (ct, tag) := gcmEnc (aesC key) (beBytes 8 pg ++ beBytes 4 h) aad ((lines.drop (32 * h)).take 32).flatten
  aad ++ ct ++ tag

/-- The payload of a PEER_QUERY: partition, nonce, DMK_ID, REC_LIMIT (layout: DESIGN CHOICE, log 26). -/
def queryBytes (s : State) (p : Nat) (nonce : Bytes) : Bytes :=
  leBytes 2 p ++ fit 8 nonce ++ fit 2 ((s.dome.cur.map dmkId).getD []) ++ leBytes 6 (recLimit s p)

/-- PARTITION_HANDOFF: its query, its walk's end, and its completion (07 R251, R252). -/
def handoffStep (t c : Nat) (s : State) : State :=
  let x := s.ctx t c
  let d := workDesc s t c
  let dst := leAt d 64 2
  let p := leAt d 66 2
  let nonce := x.work.keep
  match x.work.phase with
  | 0 =>
    if p = 0 ∨ p > 1023 ∨ pstate s p = 0 ∨ pstate s p > 2 ∨ (tblGet none s.bind p).isSome then finishCall s t c stBadParam 39 0 []
    else if s.vault.st ≠ 3 then finishCall s t c stVaultUnreach 39 0 []
    else if (portTo s dst).isNone then finishCall s t c stReelUnreach 39 0 []
    else if x.work.drawn.length < 8 then setNeeds s t c [.draw 8]
    else
      let s1 := modWork s t c (fun w => { w with phase := 1, keep := w.drawn.take 8, vals := [0] })
      setNeeds (sendTo s1 0 0x09 dst (queryBytes s p (x.work.drawn.take 8))) t c [.reel]
  | 1 =>
    if pstate s p = 2 then modWork s t c (fun w => { w with phase := 3 })
    else setNeeds (modWork s t c (fun w => { w with phase := 2, total := ceilDiv (recLimit s p) 64 })) t c
      (if recLimit s p = 0 then [] else [.page])
  | 2 => writeDesc s t c p ((descOf s p).set 1 2) [] (goOn, 39, 0, []) (fun a => modWork a t c (fun w => { w with phase := 3 }))
  | _ =>
    match handoffKey s p nonce with
    | none => finishFree s t c stIntegrity []
    | some k =>
      let (ct, tag) := gcmEnc (aesC k) (List.replicate 12 0xFF) [] (fit 256 (descOf s p))
      finishFree (forgetPart (sendTo s 2 0x21 dst (ct ++ tag)) p) t c stOk (leBytes 8 (workVal s t c 0))

/-- One page of a handoff's walk; a page at or beyond P ends the call VAULT_UNREACHABLE (07 R229, R251). -/
def handoffPage (t c : Nat) (s : State) : State :=
  let d := workDesc s t c
  let p := leAt d 66 2
  let m := baseImage s
  let i := (s.ctx t c).work.progress
  let pg := payLine s p 0 / 64 + i
  if 64 * pg ≥ geoP m.slot.p then finishFree s t c stVaultUnreach []
  else match openPage s m pg, handoffKey s p (s.ctx t c).work.keep with
  | some ls, some k =>
    if readCtr s m.slot (imageView s m) (64 * pg) = some (zeros 64) then pageDone s t c 1
    else
      let send := fun (a : State) (h : Nat) => sendTo a 2 0x20 (leAt d 64 2) (handoffPayload k i h ls)
      pageDone (modWork (send (send s 0) 1) t c (bumpVal 0 1)) t c 1
  | _, _ => finishFree (noteIntegrity s (payW m.slot (64 * pg))) t c stIntegrity []

/-- PAGE_LOCK: the engine locks the next page of a vault job once no line of it is held or in WRITING, reads it, and works on it; `mem`
is what the memory holds where it differs from what was written. A read that fails on the bus, or is refused, ends the job
VAULT_UNREACHABLE (07 R227, R242; DEDUCED, log 113). -/
def execPageLock (tower ctx : Nat) (mem : List (Nat × Bytes)) (s : State) (failed : Bool := false) : Out :=
  let t := tower
  let c := ctx
  let first := lockFirst s t c
  let n := lockSpan s first
  if firstNeed s t c ≠ some .page ∨ pageBusy s first n then .next s
  else if s.vault.st ≠ 3 then .next (finishFree s t c stVaultUnreach [])
  else
    let (s1, ok) := windowMove (putMem s mem) false (pageReads s (baseImage s).slot first n)
    if failed || !ok then .next (finishFree (if failed then logVaultError s1 else s1) t c stVaultUnreach [])
    else .next (match opOf (workDesc s t c) with
      | 0x0A01 => rekeyPage t c s1
      | 0x0A02 => scrubPage t c s1
      | 0x0A05 => handoffPage t c s1
      | _ => s1)

/-- A handoff is offered to this device; the answer is 1 where everything is confirmed (07 R251). -/
def takeQuery (src : Nat) (payload : Bytes) (s : State) : State :=
  let p := leAt payload 0 2
  let ok := s.vault.st == 3 && some (sub payload 10 2) == s.dome.cur.map dmkId && decide (1 ≤ p) && decide (p ≤ 1023) &&
    pstate s p == 0 && decide (payLine s p 0 + leAt payload 12 6 ≤ geoP (committed s).p)
  let s1 := if ok then s.setReel { s.reel with inbound := some (src, p, sub payload 2 8) } else s
  sendTo s1 3 0x35 src ([0, BitVec.ofNat 8 (flag ok)] ++ leBytes 8 0)

/-- PEER_QUERY (07 R251). -/
def execPeerQuery (h : Hdr) (payload : Bytes) (s : State) : Out := .next (receive s h 0 0x09 payload (takeQuery h.src payload))

/-- The context that waits for the answer of a handoff to a device, or walks its pages. -/
def handoffCtx (s : State) (src : Nat) : Option (Nat × Nat) :=
  allCtx.find? (fun x => opOf (workDesc s x.1 x.2) == 0x0A05 && leAt (workDesc s x.1 x.2) 64 2 == src &&
    (s.ctx x.1 x.2).call.isSome && decide ((s.ctx x.1 x.2).work.phase > 0))

/-- The answer of a handoff's destination: byte 0 is 0 for the answer to a query, byte 1 says that it is confirmed; byte 0 is 1 where a
message's tag failed: the call ends INTEGRITY, once its descriptor's commit has ended where that is under way (07 R251; layout: DESIGN
CHOICE, log 26). -/
def takeReply (src : Nat) (payload : Bytes) (s : State) : State :=
  match handoffCtx s src with
  | none => s
  | some (t, c) =>
    if byteAt payload 0 = 0 then
      (if firstNeed s t c = some .reel then
        (if byteAt payload 1 = 1 then popNeed s t c else finishFree s t c stReelUnreach []) else s)
    else match (s.ctx t c).held with
      | none => finishFree s t c stIntegrity []
      | some _ =>
        let (s1, k) := s.takeFree
        s1.setCtx t c { s1.ctx t c with held := some (stIntegrity, Config.freeValue k % 2 ^ 32, 0, []) }

/-- PEER_REPLY (07 R251). -/
def execPeerReply (h : Hdr) (payload : Bytes) (s : State) : Out := .next (receive s h 3 0x35 payload (takeReply h.src payload))

/-- The tag of an inbound message failed: its page is named to the source. -/
def rejectInbound (s : State) (src pg : Nat) : State := sendTo s 3 0x35 src ([1, 0] ++ leBytes 8 pg)

/-- What the handoff under way says of a message of `src`: its partition and the transfer key. -/
def inboundKey (s : State) (src : Nat) : Option (Nat × Bytes) :=
  (s.reel.inbound.filter (fun x => x.1 == src)).bind (fun x => (handoffKey s x.2.1 x.2.2).map (fun k => (x.2.1, k)))

/-- A half-page is authenticated and written through the journal (07 R251). -/
def takePage (src : Nat) (payload : Bytes) (s : State) : State :=
  match inboundKey s src with
  | none => s
  | some (p, k) =>
    let pg := leAt payload 0 8
    let h := byteAt payload 8
    let iv := beBytes 8 pg ++ beBytes 4 h
    let ct := sub payload 16 2048
    let ok := payload.length == 2080 && decide (h < 2) && zeroIn payload 9 16 &&
      gcmTag (aesC k) iv (payload.take 16) ct == payload.drop 2064
    if !ok then rejectInbound s src pg
    else engineGroup s { lines := (chunks 64 (gcmCtr (aesC k) iv ct)).zipIdx.map (fun e => (p, 64 * pg + 32 * h + e.2, e.1)) }

/-- HANDOFF_PAGE (07 R251). -/
def execHandoffPage (h : Hdr) (payload : Bytes) (s : State) : Out := .next (receive s h 2 0x20 payload (takePage h.src payload))

/-- The descriptor arrives, and the partition becomes ACTIVE here (07 R252). -/
def takeInDesc (src : Nat) (payload : Bytes) (s : State) : State :=
  match inboundKey s src with
  | none => s
  | some (p, k) =>
    let iv : Bytes := List.replicate 12 0xFF
    let ct := payload.take 256
    if payload.length ≠ 272 ∨ gcmTag (aesC k) iv [] ct ≠ payload.drop 256 then rejectInbound s src 0
    else
      let d := patch ((gcmCtr (aesC k) iv ct).set 1 1) 4 [0xFF, 0xFF]
      match descLines s p d with
      | none => s
      | some l =>
        let s1 := engineGroup (setDesc s p d) { lines := l.1, undo := [(p, descOf s p, d)] }
        s1.setReel { s1.reel with inbound := none }

/-- HANDOFF_DESC (07 R252). -/
def execHandoffDesc (h : Hdr) (payload : Bytes) (s : State) : Out := .next (receive s h 2 0x21 payload (takeInDesc h.src payload))

/-! ## The rows -/

/-- VAULT_REKEY. -/
def execVaultRekey (tower ctx : Nat) (fault : FigFault) (s : State) : Out := .next (runFigure s tower ctx 0x0A01 fault (rekeyStep tower ctx))

/-- VAULT_SCRUB. -/
def execVaultScrub (tower ctx : Nat) (fault : FigFault) (s : State) : Out := .next (runFigure s tower ctx 0x0A02 fault (scrubStep tower ctx))

/-- The OP of a VAULT_SEAL_ROOT call is the row's. -/
def atOp (s : State) (t c op : Nat) : Bool := par (workDesc s t c) 64 == op

/-- VAULT_SEAL_ROOT, OP 0x00. -/
def execVaultSealRoot (tower ctx : Nat) (fault : FigFault) (s : State) : Out :=
  .next (if atOp s tower ctx 0 then runFigure s tower ctx 0x0A03 fault (sealRoot false tower ctx) else s)

/-- VAULT_SEAL_ROOT, OP 0x01. -/
def execVaultSealRelease (tower ctx : Nat) (fault : FigFault) (s : State) : Out :=
  .next (if atOp s tower ctx 1 then runFigure s tower ctx 0x0A03 fault (sealRoot true tower ctx) else s)

/-- VAULT_ADOPT; `mem` is what the memory holds where it differs from what the device has written. -/
def execVaultAdopt (tower ctx : Nat) (fault : FigFault) (seals : List Bytes) (answers : List (Option Bytes)) (s : State)
    (mem : List (Nat × Bytes) := []) (failed : Bool := false) : Out :=
  .next (runFigure s tower ctx 0x0A04 fault (fun a => adopt seals answers failed tower ctx (putMem a mem)))

/-- PARTITION_HANDOFF. -/
def execPartitionHandoff (tower ctx : Nat) (fault : FigFault) (s : State) : Out :=
  .next (runFigure s tower ctx 0x0A05 fault (handoffStep tower ctx))

end Sys2Proof.Machine
end

