-- ==== Sys2Proof/Machine/Custody.lean ====
section
/-! DEFINITION. The life cycle, custodians, ceremonies and attestation (14 R391 to R418). -/

namespace Sys2Proof.Machine

/-! ## Fuse rows (14 R394 to R396, R400) -/

/-- CRC-8 with polynomial 0x07 and initial value 0 (14 R394). -/
def crc8 (b : Bytes) : Nat :=
  b.foldl (fun a x => (List.range 8).foldl (fun v _ => if v ≥ 128 then Nat.xor (2 * v % 256) 7 else 2 * v) (Nat.xor a x.toNat)) 0

/-- A life-cycle row that enters state code `code` as entry `seq` (14 R394). -/
def lcRow (code seq : Nat) : Word :=
  let chk := crc8 [BitVec.ofNat 8 (code / 256), BitVec.ofNat 8 code, BitVec.ofNat 8 seq]
  BitVec.ofNat 32 (code * 65536 + chk * 256 + seq % 256)

/-- The state of a code: 1 to 5. -/
def codeState (code : Nat) : Option Nat := (List.range 6).find? (fun i => i != 0 && lcsCode i == code)

/-- The permitted transitions (14 R396). -/
def lcPermits (a b : Nat) : Bool :=
  match a, b with
  | 0, 1 => true
  | 0, 5 => true
  | 1, 2 => true
  | 1, 5 => true
  | 2, 3 => true
  | 2, 4 => true
  | 2, 5 => true
  | 3, 2 => true
  | 3, 4 => true
  | 3, 5 => true
  | 4, 5 => true
  | _, _ => false

/-- What the rows say so far: state, SEQ of the last valid row, its code, re-commissions, void rows, a blank row seen, and
not corrupt. -/
structure RowScan where
  /-- State of the last valid row. -/
  st : Nat := 0
  /-- Its SEQ. -/
  seq : Nat := 0
  /-- Re-commissions: entries of SEALED from SERVICE. -/
  recom : Nat := 0
  /-- Void rows. -/
  void : Nat := 0
  /-- Rows before the first blank one. -/
  used : Nat := 0
  /-- A blank row has been read. -/
  blank : Bool := false
  /-- No row is corrupt, and none follows a blank one. -/
  ok : Bool := true

/-- Reads one row (14 R394, R395). -/
def scanRow (a : RowScan) (w : Word) : RowScan :=
  let v := w.toNat
  if v = 0 then { a with blank := true }
  else if a.blank then { a with ok := false }
  else if v = 2 ^ 32 - 1 then { a with void := a.void + 1, used := a.used + 1 }
  else match codeState (v / 65536) with
    | some t =>
      if w = lcRow (lcsCode t) (a.seq + 1) ∧ lcPermits a.st t then
        { a with st := t, seq := a.seq + 1, recom := a.recom + flag (a.st == 3 && t == 2), used := a.used + 1 }
      else { a with ok := false, used := a.used + 1 }
    | none => { a with ok := false, used := a.used + 1 }

/-- The rows as the fuse load reads them. -/
def rowScan (s : State) : RowScan := s.fuse.rows.foldl scanRow {}

/-- The life-cycle state that the fuses give: 6 is LOST (14 R395, R399). -/
def fuseState (s : State) : Nat := if s.fuse.lost || !(rowScan s).ok then 6 else (rowScan s).st

/-- A policy block is valid: its CHECK matches, and it is neither blank nor void. -/
def policyValid (b : Bytes) : Bool :=
  !allZero b && !b.all (· == 0xFF) && byteAt b 48 == crc8 (b.take 48)

/-- The last valid policy block (14 R400). -/
def policyInForce (s : State) : Option Nat := ((List.range 12).filter (fun i => policyValid (s.fuse.policy.getD i []))).getLast?

/-- The digest of the policy in force. -/
def policyDigest (s : State) : Bytes := ((policyInForce s).map (fun i => (s.fuse.policy.getD i []).take 48)).getD (zeros 48)

/-- The first blank policy block. -/
def blankPolicy (s : State) : Option Nat := (List.range 12).find? (fun i => allZero (s.fuse.policy.getD i []))

/-- The DIK of a state: none in BLANK, SCRAP and LOST (06 R173; 14 R391). -/
def dikOf (s : State) (st : Nat) : Option Nat :=
  if st = 0 ∨ st ≥ 5 then none
  else
    let c := beVal (kdf108 (aesC s.fuse.uds) (ascii "DIK") (beBytes 2 (lcsCode st)) 448)
    some (c % (curveP384.n - 1) + 1)

/-! ## The custodian table (14 R402, R403) -/

/-- ENROLLED of a table. -/
def tabEnrolled (b : Bytes) : Nat := leAt b 8 2

/-- GROUP_B of a table. -/
def tabGroupB (b : Bytes) : Nat := leAt b 10 2

/-- The key of slot `i`. -/
def tabKey (b : Bytes) (i : Nat) : Bytes := sub b (16 + 97 * i) 97

/-- The policy digest of a table. -/
def tabDigest (b : Bytes) : Bytes := sha384 (b.take 1568)

/-- Enrolled slots of a group. -/
def tabSlots (b : Bytes) (groupB : Bool) : List Nat :=
  (List.range 16).filter (fun i => bitOf (tabEnrolled b) i && bitOf (tabGroupB b) i == groupB)

/-- A P-384 public key: an uncompressed point on the curve. -/
def p384Ok (k : Bytes) : Bool := byteAt k 0 == 4 && k.length == 97 && (decPoint curveP384 k).isSome

/-- An ECDSA P-384 signature of a message verifies under a key. -/
def p384Verify (key msg sig : Bytes) : Bool :=
  match decPoint curveP384 key with
  | some q => ecdsaVerify curveP384 q (sha384 msg) (beAt sig 0 48) (beAt sig 48 48)
  | none => false

/-- Check 1 of R403. -/
def tabLayout (b : Bytes) : Bool :=
  let en := (List.range 16).filter (fun i => bitOf (tabEnrolled b) i)
  let keys := en.map (tabKey b)
  b.length == 1761 && b.take 4 == ascii "CTBL" && byteAt b 4 == 1 && decide (1 ≤ byteAt b 5) && decide (byteAt b 5 ≤ 15) &&
    decide (1 ≤ byteAt b 6) && decide (byteAt b 6 ≤ 15) && byteAt b 7 == 0 && zeroIn b 12 16 &&
    (List.range 16).all (fun i => en.contains i || allZero (tabKey b i)) &&
    decide (byteAt b 5 ≤ (tabSlots b false).length) && decide (byteAt b 6 ≤ (tabSlots b true).length) &&
    keys.all p384Ok && decide (keys.Nodup)

/-! ## Ceremonies (14 R404 to R412) -/

/-- Input length of a ceremony type (14 R404). -/
def cerLen (typ : Nat) : Nat := ([0, 1761, 8, 8, 112, 8, 64, 64, 48, 8, 8, 8] : List Nat).getD typ 0

/-- The ceremony closes: components and ephemeral key are discarded (14 R412). -/
def closeCeremony (s : State) (how : Nat) : State :=
  if s.cus.cer.isNone then s
  else
    let s1 := cardsOff s
    raise (s1.setCus { s1.cus with cer := none, lastClose := how }) pgCus 3

/-- A call of family 0x0C, or a clone: one that a ceremony's state decides. -/
def cerCall (k : Call) : Bool := opOf k.desc / 256 == 0x0C || opOf k.desc == 0x0D01

/-- A call that a ceremony's state decides was admitted with a sequence number below `n` and has not ended. -/
def cerFlight (s : State) (n : Nat) : Bool :=
  let hit := fun (k : Call) => cerCall k && decide (k.seq < n)
  allCtx.any (fun x => (s.ctx x.1 x.2).call.any hit) || s.caller.queues.flatten.any hit || s.caller.jobQ.any hit

/-- A commit that changes the life cycle has been dispatched before the call, and waits for step 1 of R398: the call is judged by the state
that it leaves, with no ceremony open (14 R398, R413; DEDUCED, log 121). -/
def cerTaken (s : State) (k : Call) : Bool :=
  match s.lcs.transition with
  | some (_, some (t, c)) => (s.ctx t c).call.any (fun x => x.seq != k.seq)
  | _ => false

/-- The ceremony that a call is judged by: the one whose window has ended since its cycle 0, or the open one (14 R406, R413; 01 R20). -/
def cerFor (s : State) (k : Call) : Option Ceremony :=
  if cerTaken s k then none
  else match s.cus.closing with
  | some (x, n) => if k.seq < n then some x else s.cus.cer
  | none => s.cus.cer

/-- The ceremony that the call of a context is judged by. -/
def cerOf (s : State) (t c : Nat) : Option Ceremony := cerFor s ((s.ctx t c).call.getD {})

/-- The call of a context is judged by a ceremony whose window has ended. -/
def cerLate (s : State) (t c : Nat) : Bool := s.cus.closing.any (fun e => decide (((s.ctx t c).call.getD {}).seq < e.2))

/-- Changes the ceremony that the call of a context is judged by. -/
def modCer (s : State) (t c : Nat) (f : Ceremony → Ceremony) : State :=
  s.setCus (if cerLate s t c then { s.cus with closing := s.cus.closing.map (fun e => (f e.1, e.2)) } else { s.cus with cer := s.cus.cer.map f })

/-- Closes the ceremony that the call of a context is judged by (14 R411, R412). -/
def closeCer (s : State) (t c how : Nat) : State :=
  if cerLate s t c then s.setCus { s.cus with closing := none, lastClose := how } else closeCeremony s how

/-- CEREMONY_WINDOW_EXPIRY: the window has passed. The calls whose cycle 0 came before are judged with the ceremony open (14 R406). -/
def expireCeremony (s : State) : State :=
  match s.cus.cer with
  | none => s
  | some c =>
    let over_ := match c.expires with
      | some e => timeKnown s && decide (s.time.bell ≥ 1024 * e)
      | none => c.cyclesLeft == 0
    let n := s.caller.seq
    if over_ then (closeCeremony s 3).setCus { (closeCeremony s 3).cus with closing := if cerFlight s n then some (c, n) else none } else s

/-- CEREMONY_WINDOW_EXPIRY. -/
def execCeremonyWindowExpiry (s : State) : Out := .next (expireCeremony s)

/-- Layouts of family 0x0C (14 R405, R408, R411, R412). -/
def cerInfo (op : Nat) (d : Bytes) : OpInfo :=
  let k := par d 64
  match op with
  | 0x0C01 =>
    { mfOnly := true, forms := [2], pEnd := 66, bad := k == 0 || decide (k > 11) || decide (par d 65 > 3), blocks := if k = 1 then 2 else 3,
      lenBad := inLenOf d != cerLen k || (k == 1 && outCap d != 0), need := if k = 1 then 0 else 208 }
  | 0x0C02 =>
    { mfOnly := true, forms := if k = 0 then [2] else [0], pEnd := 65, bad := decide (k > 2), job := true,
      lenBad := k == 0 && inLenOf d != 336, blocks := if k = 0 then 2 else 0 }
  | 0x0C03 => { mfOnly := true, pEnd := 65, bad := k == 0 || decide (k > 11) }
  | 0x0C04 => { mfOnly := true }
  | _ => {}

/-- The ceremony type may open in the life-cycle state (14 R404). -/
def cerOpens (s : State) (typ : Nat) : Bool :=
  match typ with
  | 1 => s.lcs.st == 2 || s.lcs.st == 3
  | 2 => s.lcs.st == 3 && (!s.dome.tampered || s.dome.acked)
  | 8 => s.lcs.st == 2 && s.cus.table.isSome
  | 10 => s.lcs.st == 2 || s.lcs.st == 3
  | 11 => s.lcs.st == 2 || s.lcs.st == 3
  | _ => s.lcs.st == 3

/-- The input of a ceremony has the content of R404: zero bytes are zero, and fields lie in their ranges (DEDUCED, log 27). -/
def cerInputOk (s : State) (typ : Nat) (b : Bytes) : Bool :=
  let part := fun (_ : Unit) => decide (1 ≤ leAt b 0 2) && decide (leAt b 0 2 ≤ 1023)
  match typ with
  | 2 => decide (byteAt b 0 ≤ 1) && (byteAt b 1 == 2 || byteAt b 1 == 3) && zeroIn b 2 8
  | 4 => part () && zeroIn b 105 112
  | 5 => part () && zeroIn b 2 8
  | 6 => zeroIn b 59 64 && decide (byteAt b 58 ≤ 1)
  | 7 => zeroIn b 56 64
  | 8 => s.cus.table.any (fun t => b == tabDigest t)
  | _ => allZero b

/-- What a call of family 0x0C waits for after its blob. -/
def cerNeeds (op : Nat) (d : Bytes) : List Need :=
  match op with
  | 0x0C01 =>
    if par d 64 = 1 then [.spire, .lanes true 1 2]
    else if par d 64 = 2 then [.spire, .lanes true 1 2, .draw 88] else [.lanes true 1 2, .draw 32]
  | 0x0C02 => if par d 64 = 0 then unitNeeds else []
  | 0x0C03 => if par d 64 = 2 ∨ par d 64 = 3 then [.lanes false 1 1] else []
  | _ => []

/-- The checks of family 0x0C that come before any step of the figure, with the ceremony that the call is judged by (14 R404 to R412). -/
def cerParams (s : State) (call : Call) (op : Nat) (d : Bytes) : Option Nat :=
  let k := par d 64
  let open_ := cerFor s call
  match op with
  | 0x0C01 =>
    if !cerOpens s k then (if k = 8 ∧ s.lcs.st = 2 then some stDualControl else some stStateNot)
    else if k ≠ 1 ∧ s.cus.table.isNone then some stDualControl
    else if open_.isSome || s.cus.cer.isSome then some stBadParam else none
  | 0x0C02 => match open_ with
    | none => some stCeremony
    | some c => if k ≠ 0 ∧ !bitOf c.ports (k - 1) then some stBadParam else none
  | 0x0C03 => match open_ with
    | none => some stCeremony
    | some c =>
      if c.typ ≠ k then some stBadParam
      else if !c.authorized then some stDualControl
      else if k = 6 ∨ k = 7 then some stBadParam else none
  | 0x0C04 => if open_.isNone then some stCeremony else none
  | _ => none

/-- The path-table value of a call of family 0x0C that its checks end: 36 for CEREMONY_ABORT, otherwise 39 (14 R411, R412; 03 R93). -/
def cerPath (op : Nat) : Nat := if op = 0x0C04 then 36 else 39

/-- The checks for the call of a context. -/
def cerChecks (s : State) (t c op : Nat) : Option Nat := cerParams s ((s.ctx t c).call.getD {}) op (workDesc s t c)

/-- The header that CEREMONY_OPEN writes (14 R405). -/
def cerHeader (s : State) (c : Ceremony) : Bytes :=
  ascii "CERM" ++ leBytes 1 c.typ ++ leBytes 1 c.ports ++ zeros 2 ++ leBytes 8 s.fuse.serial ++ c.challenge ++ c.pdigest ++
    (if c.typ = 2 then encPoint curveP384 (ecMul curveP384 c.eph (ecG curveP384)) else zeros 97) ++ zeros 7 ++
    (if timeKnown s then leBytes 8 (reelSecond s) else List.replicate 8 0xFF)

/-- CEREMONY_OPEN of a type other than TABLE_LOAD (14 R405, R406). Of the 93,810 cycles of an ephemeral key, those of its commands are the
Spire's (DEDUCED, log 129). -/
def openCeremony (t c : Nat) (s : State) : State :=
  let d := workDesc s t c
  let k := par d 64
  let b := inputOf s t c
  let r := drawnOf s t c
  match cerChecks s t c 0x0C01 with
  | some st => finishCall s t c st 39 0 []
  | none =>
    if !cerInputOk s k b then finishFree s t c stBadParam []
    else
      let cer : Ceremony :=
        { typ := k, ports := par d 65, input := b, challenge := r.take 32, pdigest := sha384 (leBytes 1 k ++ b),
          expires := if timeKnown s then some (reelSecond s + 300) else none, cyclesLeft := 360000000000,
          eph := if k = 2 then drawnScalar curveP384 (r.drop 32) else 0 }
      let path := 34 + 4 + 21 * ceilDiv (b.length + 18) 128 + 4 + (if k = 2 then 93810 else 0) + 14
      let n := if k = 2 then ecGenCycles curveP384 else 0
      let s0 := if k = 2 then spCall s t c (ecGenProg curveP384) (ecGenOps curveP384 (beVal (r.drop 32) % 2 ^ 448)) n false else s
      let (s1, ok) := writeOut s0 t c (cerHeader s cer)
      if !ok then s1
      else finishCall (raise (s1.setCus { s1.cus with cer := some cer }) pgCus 1) t c stOk path n []

/-- CUS_REJECTS counts an AUTH_REJECTED outcome (14 R417). -/
def countReject (s : State) : State := s.setCus { s.cus with rejects := satAdd 32 s.cus.rejects 1 }

/-- The commands that check a table: those of the enrolled keys, and where it is signed those of the verification, with its operands (14 R403).
-/
def tableProg (b : Bytes) (signed : Bool) : List SpStep :=
  let keys := (List.range 16).filter (fun i => bitOf (tabEnrolled b) i)
  let x := keys.map (fun i => ecCheckOne curveP384 (rawPoint curveP384 (tabKey b i)))
  if signed then ecVerifyProg curveP384 ++ x else x

/-- The operands of the verification of a signature of a message under a key, in ECDSA over P-384. -/
def p384Ops (key msg sig : Bytes) : List (Nat × Nat) :=
  ecVerifyOps curveP384 (rawPoint curveP384 key) (sha384 msg) (beAt sig 0 48) (beAt sig 48 48)

/-- TABLE_LOAD (14 R403). Of the 94,899 cycles of a signature's check, those of its commands are the Spire's (DEDUCED, log 129). -/
def loadTable (t c : Nat) (s : State) : State :=
  let b := inputOf s t c
  let owner := sub b 1568 97
  let sig := b.drop 1665
  let k := ((List.range 16).filter (fun i => bitOf (tabEnrolled b) i)).length
  match cerChecks s t c 0x0C01 with
  | some st => finishCall s t c st 39 0 []
  | none =>
    let signed := s.lcs.st == 2 && !allZero s.fuse.owner
    let okOwner := if s.lcs.st = 3 then tabDigest b == policyDigest s
      else if signed then sha384 owner == s.fuse.owner && p384Verify owner (b.take 1568) sig
      else allZero (b.drop 1568)
    let n := 72 * k + (if signed then ecVerifyCycles curveP384 else 0)
    if !tabLayout b then finishFree s t c stBadParam []
    else if !okOwner then finishFree (countReject s) t c stAuthRejected []
    else
      let s1 := spCall s t c (tableProg b signed) (p384Ops owner (b.take 1568) sig) n false
      finishCall (s1.setCus { s1.cus with table := some b }) t c stOk (34 + 4 + 273 + 72 * k + (if signed then 94899 else 0) + 13) n []

/-- Counted slots of a group. -/
def countOf (s : State) (c : Ceremony) (groupB : Bool) : Nat :=
  (c.counted.filter (fun i => bitOf (tabGroupB (s.cus.table.getD [])) i == groupB)).length

/-- COMPONENTS of a DMK_LOAD ceremony. -/
def cerWant (c : Ceremony) : Nat := byteAt c.input 1

/-- The ceremony of a call moves to AUTHORIZED where R410 holds. -/
def authorize (s : State) (t c : Nat) : State :=
  match cerOf s t c with
  | none => s
  | some x =>
    let tb := s.cus.table.getD []
    if !x.authorized ∧ byteAt tb 5 ≤ countOf s x false ∧ byteAt tb 6 ≤ countOf s x true ∧ (x.typ ≠ 2 ∨ x.comps.length = cerWant x) then
      raise (modCer s t c (fun y => { y with authorized := true })) pgCus 2
    else s

/-- An authentication ends AUTH_REJECTED; the third in a ceremony closes it (14 R409, R412). One that finds its ceremony closed ends
CEREMONY_NOT_OPEN (R413). -/
def rejectAuth (s : State) (t c : Nat) : State :=
  match cerOf s t c with
  | none => finishFree s t c stCeremony []
  | some x =>
    let s1 := modCer (countReject s) t c (fun y => { y with rejects := y.rejects + 1 })
    finishFree (if x.rejects + 1 ≥ 3 then closeCer s1 t c 4 else s1) t c stAuthRejected []

/-- Check 2 of R409: the record's fields. -/
def authFields (s : State) (c : Ceremony) (b : Bytes) : Bool :=
  let comp := bitOf (byteAt b 5) 0
  b.length == 336 && b.take 4 == ascii "CAUT" && decide (byteAt b 4 < 16) && decide (byteAt b 5 < 2) && byteAt b 6 == c.typ &&
    byteAt b 7 == 0 && leAt b 8 8 == s.fuse.serial && sub b 16 32 == c.challenge && sub b 48 48 == c.pdigest &&
    (comp || zeroIn b 96 233) && zeroIn b 233 240 && (!comp || c.typ == 2) && bitOf (tabEnrolled (s.cus.table.getD [])) (byteAt b 4)

/-- A transport key as R292 derives a PK_AGREE key: two derivations of 256 bits (14 R407; 11 R352). -/
def agreeKey (z l1 l2 ctx : Bytes) : Bytes := kdf108 (aesC (kdf108 (aesC (zeros 32)) l1 z 256)) l2 ctx 256

/-- The component of a record, unwrapped (14 R407). -/
def authComponent (s : State) (c : Ceremony) (b : Bytes) : Option Bytes :=
  match decPoint curveP384 (sub b 96 97) with
  | none => none
  | some q => match ecMul curveP384 c.eph (some q) with
    | none => none
    | some z =>
      let k := agreeKey (beBytes 48 z.1) (ascii "CERX") (ascii "CERE") (leBytes 8 s.fuse.serial ++ c.challenge ++ sub b 4 1)
      kwUnwrap (aesC k) (sub b 193 40)

/-- RESULTS of CUSTODIAN_AUTH (14 R409). -/
def authResults (s : State) (t c : Nat) : Bytes :=
  match cerOf s t c with
  | none => []
  | some x => leBytes 1 (countOf s x false) ++ leBytes 1 (countOf s x true) ++ leBytes 1 x.comps.length ++ leBytes 1 (flag x.authorized)

/-- Spire command cycles of an authentication: a verification, and with a component an agreement (14 R409; 09 R292; DEDUCED, log 129). -/
def authCycles (comp : Bool) : Nat := ecVerifyCycles curveP384 + (if comp then ecDhCycles curveP384 else 0)

/-- An authentication is accepted or found counted already: the call ends OK (14 R409). -/
def authDone (s : State) (t c : Nat) (comp : Bool) : State :=
  finishCall s t c stOk (if comp then 189068 else 94994) (authCycles comp) (authResults s t c)

/-- A slot is counted, with its component where the record brings one (14 R409, R410). -/
def acceptAuth (s : State) (t c slot : Nat) (comp : List Bytes) : State :=
  authorize (modCer s t c (fun x => { x with counted := x.counted ++ [slot], comps := x.comps ++ comp })) t c

/-- The ceremony calls in flight that were dispatched before that of a context, but for a commit that waits for step 1 of R398: it can act
only once they have ended (14 R398, R413). -/
def cerEarlier (s : State) (t c : Nat) : List (Nat × Nat) :=
  allCtx.filter (fun x => x != (t, c) && (s.ctx x.1 x.2).call.isSome && opOf (workDesc s x.1 x.2) / 256 == 0x0C &&
    decide ((s.ctx x.1 x.2).disp < (s.ctx t c).disp) && s.lcs.transition.all (fun e => e.2 != some x))

/-- What an authentication does next, in its work's first value: 0 its signature's check, 1 the agreement of its component, 2 its verdict, 3 its
rejection for what its card answered. -/
def authStage (s : State) (t c : Nat) : Nat := (s.ctx t c).work.vals.getD 0 0

/-- The call of a context must await its turn: a ceremony call that was dispatched earlier has not taken effect (14 R413). One
authentication runs its checks beside another, and only its effect waits. -/
def commitWaits (s : State) (t c : Nat) : Bool :=
  (cerEarlier s t c).any (fun x =>
    opOf (workDesc s x.1 x.2) != 0x0C02 || opOf (workDesc s t c) != 0x0C02 || decide (2 ≤ authStage s t c))

/-- The verdict on an authentication record whose commands have run, against the ceremony as the earlier calls left it (14 R409). One whose
ceremony has been closed meanwhile ends CEREMONY_NOT_OPEN (14 R413). -/
def authVerdict (s : State) (t c : Nat) : State :=
  let b := inputOf s t c
  let comp := bitOf (byteAt b 5) 0
  match cerOf s t c with
  | none => finishFree s t c stCeremony []
  | some cer =>
    if !authFields s cer b then (if (s.ctx t c).work.sp = 0 then rejectAuth s t c else finishFree s t c stCeremony [])
    else if !p384Verify (tabKey (s.cus.table.getD []) (byteAt b 4)) (b.take 240) (b.drop 240) then rejectAuth s t c
    else if cer.counted.contains (byteAt b 4) then authDone s t c comp
    else if !comp then authDone (acceptAuth s t c (byteAt b 4) []) t c comp
    else match authComponent s cer b with
      | none => rejectAuth s t c
      | some x =>
        if cer.comps.length ≥ cerWant cer then finishFree s t c stBadParam []
        else authDone (acceptAuth s t c (byteAt b 4) [x]) t c comp

/-- An authentication has run its last command, or been rejected by its card: it releases its units, and takes effect in its turn (14 R413; 09
R283). -/
def authEnd (s : State) (t c stage : Nat) : State :=
  let s1 := modWork (freeUnits s t c) t c (fun w => { w with vals := [stage] })
  if commitWaits s1 t c then setNeeds s1 t c [.turn]
  else if stage = 3 then rejectAuth s1 t c
  else authVerdict s1 t c

/-- The commands of a stage of an authentication and their operands: the verification of its signature, or the agreement that gives its
component's transport key (14 R407, R409; 09 R292). -/
def authProg (s : State) (cer : Ceremony) (b : Bytes) (stage : Nat) : List SpStep × List (Nat × Nat) :=
  if stage = 0 then (ecVerifyProg curveP384, p384Ops (tabKey (s.cus.table.getD []) (byteAt b 4)) (b.take 240) (b.drop 240))
  else (ecDhProg, ecDhOps curveP384 cer.eph (rawPoint curveP384 (sub b 96 97)))

/-- The checks of an authentication record, up to the next yield point of its commands (14 R409; 09 R288, R289). A component's agreement runs
also where the slot is counted already: the record's path is that of one with a component (DEDUCED, log 129). -/
def checkAuth (t c : Nat) (s : State) : State :=
  let b := inputOf s t c
  let w := (s.ctx t c).work
  let stage := authStage s t c
  match cerOf s t c with
  | none => if w.sp = 0 then finishCall s t c stCeremony 39 0 [] else authEnd s t c 2
  | some cer =>
    if !authFields s cer b then authEnd s t c 2
    else
      let (prog, ops) := authProg s cer b stage
      let (s1, bad) := spPart prog true true t c (loadHalf s t c ops)
      if bad then authEnd s1 t c 2
      else if (s1.ctx t c).work.pc < prog.length then s1
      else if stage = 0 ∧ bitOf (byteAt b 5) 0 ∧
          p384Verify (tabKey (s.cus.table.getD []) (byteAt b 4)) (b.take 240) (b.drop 240) then
        modWork s1 t c (fun k => { k with pc := 0, bits := 0, vals := [1] })
      else authEnd s1 t c 2

/-- The command that the device sends to a card: CLA 0x80, INS 0x5A, header bytes 4 to 95 as data, and an extended Le of 336 (14 R408; the
extended lengths as ISO/IEC 7816-4 has them, PRESUMED, log 5). -/
def cardCmd (s : State) (x : Ceremony) : Bytes :=
  [0x80, 0x5A, 0x00, 0x00, 0x00, 0x00, 0x5C] ++ sub (cerHeader s x) 4 92 ++ [0x01, 0x50]

/-- A card is powered, and the command is sent to it (14 R408). -/
def askCard (s : State) (t c port : Nat) : State :=
  let b := ((cerOf s t c).map (cardCmd s)).getD []
  let s1 := setActive s port true
  s1.setCus { s1.cus with apdu := if port = 1 then (b, s1.cus.apdu.2) else (s1.cus.apdu.1, b) }

/-- CUSTODIAN_AUTH: a remote record is checked, up to the next yield point; a card source first powers its card (14 R408, R409). -/
def custodianAuth (t c : Nat) (s : State) : State :=
  let k := par (workDesc s t c) 64
  if authStage s t c = 3 then rejectAuth s t c
  else if authStage s t c = 2 then authVerdict s t c
  else if k = 0 ∨ (s.ctx t c).work.phase ≠ 0 then checkAuth t c s
  else match cerChecks s t c 0x0C02 with
    | some st => finishCall s t c st 39 0 []
    | none => setNeeds (askCard s t c k) t c [.card]

/-- CARD_RESPONSE: the card's answer, status word included (14 R408). -/
def execCardResponse (tower ctx : Nat) (resp : Bytes) (s : State) : Out :=
  if firstNeed s tower ctx ≠ some .card then .next s
  else
    let s1 := setActive s (par (workDesc s tower ctx) 64) false
    if resp.length = 338 ∧ resp.drop 336 = [0x90, 0x00] then
      let s2 := modWork s1 tower ctx (fun w => { w with blob := resp.take 336, phase := 1 })
      .next (setNeeds s2 tower ctx unitNeeds)
    else .next (authEnd s1 tower ctx 3)

/-- CARD_TIMEOUT: no response within 5 s (14 R408). -/
def execCardTimeout (tower ctx : Nat) (s : State) : Out :=
  .next (if firstNeed s tower ctx = some .card then
    authEnd (setActive s (par (workDesc s tower ctx) 64) false) tower ctx 3 else s)

/-! ## Commits (06 R176 to R179; 14 R411) -/

/-- DMK_LOAD's commit (06 R176). A refused write of the slot is dropped, and no status tells of it (13 R384; log 87). -/
def commitDmk (t c : Nat) (cer : Ceremony) (s : State) : State :=
  let dmk := cer.comps.foldl xorB (zeros 32)
  let next := byteAt cer.input 0 == 1
  let bad := cer.comps.any allZero || !decide cer.comps.Nodup || allZero dmk || (!next && s.dome.cur.isSome) ||
    (next && s.dome.cur.any (fun k => dmkId k == dmkId dmk))
  if bad then finishCall s t c stBadParam 39 0 []
  else
    let (s0, ok) := domeAccess s domeKeys
    let s1 := { s0 with dome := { s0.dome with
      next := if next ∧ ok then some dmk else s.dome.next, cur := if !next ∧ ok then some dmk else s.dome.cur, tampered := false } }
    finishCall (closeCer s1 t c 1) t c stOk (if cer.comps.length = 2 then 105 else 121) 0
      (fit 9 (cer.comps.flatMap kcvAes) ++ kcvAes dmk)

/-- DMK_PROMOTE's commit (06 R177; 14 R411). -/
def commitPromote (t c : Nat) (s : State) : State :=
  match s.dome.next with
  | none => finishCall s t c stBadParam 39 0 []
  | some k =>
    if !s.vault.nextReady ∧ s.vault.st ≠ 0 then finishCall s t c stBadParam 39 0 []
    else
      let (s0, ok) := domeAccess s domeKeys
      let s1 := { s0 with dome := if ok then { s0.dome with cur := some k, next := none } else s0.dome, vault := { s.vault with nextReady := false } }
      finishCall (closeCer s1 t c 1) t c stOk 57 0 (kcvAes k)

/-- A new partition's descriptor (06 R179). -/
def newDesc (old input : Bytes) : Bytes :=
  let key := sub input 8 97
  [4, 1] ++ leBytes 2 (leAt old 2 2 + 1) ++ [0xFF, 0xFF] ++ zeros 16 ++ sub input 2 6 ++ zeros 4 ++ key ++ sha384 key ++ zeros 79

/-- PARTITION_CREATE's and PARTITION_DELETE's commit, through the journal (06 R179; 14 R411). Once its batch is durable it completes, and
closes its ceremony where that still stands. -/
def commitPartition (t c : Nat) (create : Bool) (cer : Ceremony) (s : State) : State :=
  let p := if (s.ctx t c).work.phase = 0 then leAt cer.input 0 2 else (s.ctx t c).work.vals.getD 0 0
  let path := if create then 79 else 56
  if (s.ctx t c).work.phase ≠ 0 then
    let s1 := if create then s else forgetPart { s with bind := tblSet none s.bind p none } p
    finishCall (closeCer s1 t c 1) t c stOk path 0 []
  else if s.vault.st ≠ 3 then finishCall s t c stVaultUnreach 39 0 []
  else if create ∧ pstate s p ≠ 0 then finishCall s t c stBadParam 39 0 []
  else
    let d := if create then newDesc (descOf s p) cer.input else (descOf s p).set 1 0
    writeDesc s t c p d [] (goOn, path, 0, []) (fun a => modWork a t c (fun w => { w with phase := 1, vals := [p] }))

/-- Runs a commit of one type, where the ceremony's checks still hold (14 R411, R413); one whose batch is durable completes. -/
def withCeremony (t c : Nat) (s : State) (f : Ceremony → State → State) : State :=
  if (s.ctx t c).work.phase ≠ 0 then f {} s
  else match cerChecks s t c 0x0C03, cerOf s t c with
  | some st, _ => finishCall s t c st 39 0 []
  | none, some cer => f cer s
  | none, none => s

/-- Runs a ceremony call's figure in its turn (14 R413). -/
def runCer (s : State) (t c op : Nat) (fault : FigFault) (f : State → State) : State :=
  runFigure s t c op fault (fun a => if commitWaits a t c then setNeeds a t c [.turn] else f a)

/-- A ceremony call whose turn has come is judged against the state that the earlier calls left, and goes on (14 R413). A commit whose batch is
durable, and an authentication whose card or whose commands have run, have been judged. -/
def cerTurn (s : State) (t c : Nat) : State :=
  if firstNeed s t c = some .turn ∧ !commitWaits s t c then
    let op := opOf (workDesc s t c)
    match (if (s.ctx t c).work.phase = 0 ∧ authStage s t c = 0 ∧ !carries s t c then cerChecks s t c op else none) with
    | some st => finishCall s t c st (cerPath op) 0 []
    | none => popNeed s t c
  else s

/-! ## Transitions (14 R397, R398) -/

/-- The cause for which a transition is refused; 0 is none (14 R397, R416). -/
def lcRefusal (s : State) (target : Nat) : Nat :=
  let r := rowScan s
  if !s.pwr.holdup || s.pwr.droop || !s.pwr.supplyOk then 2
  else if r.used ≥ 24 then 3
  else if s.lcs.st = 3 ∧ target = 2 ∧ r.recom ≥ 8 then 4
  else if s.lcs.st = 2 ∧ target = 3 ∧ (blankPolicy s).isNone then 3
  else 0

/-- A refused transition is recorded (14 R397, R416). -/
def lcNote (s : State) (result target : Nat) : State :=
  let s1 := { s with lcs := { s.lcs with result := result, target := target } }
  if result = 1 then raise s1 pgLcs 1 else raise s1 pgLcs 2

/-- Every job is cancelled with no completion (14 R398 step 1). -/
def cancelJobs (s : State) : State :=
  let s1 := (s.jobs.filter (fun j => !j.suspended)).foldl (fun a j => abortCall a j.at_.1 j.at_.2 .free) s
  { s1 with jobs := [] }

/-- Step 1 of R398 begins: fetching stops, jobs are cancelled, new batches are held. -/
def lcBegin (s : State) (target : Nat) (who : Option (Nat × Nat)) : State :=
  let s1 := cancelJobs s
  { s1 with lcs := { s1.lcs with transition := some (target, who) }, vault := { s1.vault with hold := true } }

/-- A condition of R397 fails during step 1: nothing changes, and the call that asked ends STATE_NOT_PERMITTED. -/
def lcAbort (s : State) : State :=
  match s.lcs.transition with
  | none => s
  | some (target, who) =>
    let r := lcRefusal s target
    if r = 0 then s
    else
      let s1 := lcNote { s with lcs := { s.lcs with transition := none }, vault := { s.vault with hold := false } } r target
      match who with
      | some (t, c) => finishCall s1 t c stStateNot 39 0 []
      | none => s1

/-- The commit of a ceremony that changes the life cycle (14 R411, R397, R398). -/
def commitLifeCycle (t c target : Nat) (cer : Ceremony) (s : State) : State :=
  if cer.typ = 8 ∧ !(s.cus.table.any (fun b => tabDigest b == cer.input)) then finishCall s t c stBadParam 39 0 []
  else
    let r := lcRefusal s target
    if r ≠ 0 then finishCall (lcNote s r target) t c stStateNot 39 0 []
    else match s.lcs.transition with
      | some (_, who) => if who = some (t, c) then s else finishCall s t c stCeremony 39 0 []
      | none => lcBegin s target (some (t, c))

/-- HOLDUP_OK_LOW: HOLDUP_OK has gone low (14 R397, R398). -/
def execHoldupOkLow (s : State) : Out := .next (lcAbort { s with pwr := { s.pwr with holdup := false } })

/-- Targets that LCS_REQ takes (14 R416). -/
def lcTarget (n : Nat) : Bool := n == 1 || n == 2 || n == 5

/-- LCS_REQUEST: LCS_REQ with EXECUTE 0 draws a challenge, a free value (14 R401). -/
def execLcsRequest (target : Nat) (s : State) : Out :=
  if !lcTarget target then .next (recordWerr s pgLcs)
  else
    let (s1, b) := s.takeBytes 32
    .next { s1 with lcs := { s1.lcs with challenge := b, armed := some target } }

/-- The message that a manufacturer's signature covers (14 R401). -/
def lcMessage (s : State) (target : Nat) : Bytes :=
  ascii "LCSM" ++ leBytes 8 s.fuse.serial ++ beBytes 2 (lcsCode s.lcs.st) ++ beBytes 2 (lcsCode target) ++ s.lcs.challenge ++ s.lcs.owner

/-- LCS_EXECUTE: LCS_REQ with EXECUTE 1 (14 R401). -/
def execLcsExecute (target : Nat) (s : State) : Out :=
  if !lcTarget target then .next (recordWerr s pgLcs)
  else
    let root := beBytes 97 (Config.romKey (if s.lcs.st = 4 then 1 else 0))
    let fresh := s.lcs.armed == some target
    let s1 := { s with lcs := { s.lcs with armed := none } }
    let byRoot := (s.lcs.st == 0 || s.lcs.st == 1 || s.lcs.st == 4) && lcPermits s.lcs.st target
    let sealing := s.lcs.st == 1 && target == 2
    if s.lcs.transition.isSome then .next s1
    else if !byRoot then .next (lcNote s1 6 target)
    else if !fresh ∨ !(sealing || allZero s.lcs.owner) ∨ !p384Verify root (lcMessage s target) s.lcs.auth then .next (lcNote s1 5 target)
    else if lcRefusal s target ≠ 0 then .next (lcNote s1 (lcRefusal s target) target)
    else .next (lcBegin s1 target none)

/-! ## ATTEST (14 R414, R415) -/

/-- Retired lanes of a kind, in all towers. -/
def lanesRetired (s : State) (hash : Bool) : Nat := (s.towers.map (fun w => ((w.lanes hash).filter (fun l => l.role == 2)).length)).sum

/-- A mask over the towers. -/
def towerMask (s : State) (f : Nat → Bool) : Nat := (List.range 17).foldl (fun a t => if f (s.sup.roles.getD t 2) then a + 2 ^ t else a) 0

/-- Debug is open in TEST and RETURN (14 R391). -/
def debugOpen (s : State) : Bool := s.lcs.st == 1 || s.lcs.st == 4

/-- The lanes of a port that are retired, by direction (14 R414). -/
def portRetired (p : Port) : Nat := (p.lanes.filter (· == 2)).length + 8 * (p.rx.filter (· == 2)).length

/-- Bytes 0 to 415 of the Jalhavi statement (14 R414). `bell` is TIME_BELL_NOW at cycle 0. -/
def jalhavi (s : State) (bell : Option Nat) (nonce : Bytes) : Bytes :=
  let r := committed s
  let none_ := s.vault.st == 0
  let kcv := fun (k : Option Bytes) => (k.map kcvAes).getD (zeros 3)
  ascii "JLHV" ++ [1, BitVec.ofNat 8 (flag bell.isSome + 2 * flag s.dome.tampered + 4 * flag (degraded s) + 8 * flag (debugOpen s))] ++
    leBytes 2 0x8400 ++ [0xB0, if s.fuse.gradeX then 0x58 else 0x43] ++ zeros 2 ++ leBytes 8 s.fuse.serial ++
    leBytes 2 (lcsCode s.lcs.st) ++ leBytes 1 (rowScan s).seq ++ leBytes 1 (rowScan s).recom ++ fit 48 s.fuse.cfgDigest ++
    (if s.lcs.st = 3 then policyDigest s else zeros 48) ++ kcv s.dome.cur ++ kcv s.dome.next ++ zeros 2 ++
    (if none_ then zeros 64 else fit 8 r.vaultId ++ leBytes 8 r.epoch ++ sha384 r.root) ++ leBytes 4 s.dome.count ++
    leBytes 4 (towerMask s (· == 1)) ++ leBytes 4 (towerMask s (· == 2)) ++
    leBytes 1 ((List.range 6).foldl (fun a i => if (s.rng.srcs.getD i {}).role = 2 then a + 2 ^ i else a) 0) ++
    leBytes 1 (portRetired s.reel.up) ++ leBytes 1 (portRetired s.reel.dn) ++ leBytes 1 s.keep.repaired.length ++
    leBytes 2 (lanesRetired s false) ++ leBytes 2 (lanesRetired s true) ++ zeros 4 ++
    leBytes 2 (if s.reel.addressed then s.reel.addr else 0xFFFF) ++ zeros 6 ++ leBytes 8 (bell.getD 0) ++ nonce ++ zeros 55 ++ dikPub s

/-- The statement of a call of family 0x0B, built as its state is read, in cycles 28 to 41 (12 R369; 14 R415). -/
def statementOf (s : State) (k : Call) (d : Bytes) : Bytes :=
  if opOf d = 0x0B01 then jalhavi s k.bell (sub d 64 32) else if opOf d = 0x0B02 then statementBody s k.fn d else []

/-- ATTEST signs the statement that was built as the state was gathered (14 R415). -/
def attest (t c : Nat) (s : State) : State := finishSigned s t c (s.ctx t c).work.keep 94762

/-! ## The rows -/

/-- The call's TYPE in byte 64 is `k`. -/
def atType (s : State) (t c k : Nat) : Bool := par (workDesc s t c) 64 == k

/-- Runs CEREMONY_COMMIT of one type. -/
def runCommit (t c k : Nat) (fault : FigFault) (f : Ceremony → State → State) (s : State) : State :=
  if atType s t c k then runCer s t c 0x0C03 fault (fun a => withCeremony t c a f) else s

/-- ATTEST. -/
def execAttest (tower ctx : Nat) (fault : FigFault) (s : State) : Out := .next (runFigure s tower ctx 0x0B01 fault (attest tower ctx))

/-- CEREMONY_OPEN of a type other than TABLE_LOAD. -/
def execCeremonyOpen (tower ctx : Nat) (fault : FigFault) (s : State) : Out :=
  .next (if atType s tower ctx 1 then s else runCer s tower ctx 0x0C01 fault (openCeremony tower ctx))

/-- CEREMONY_OPEN of TABLE_LOAD. -/
def execTableLoad (tower ctx : Nat) (fault : FigFault) (s : State) : Out :=
  .next (if atType s tower ctx 1 then runCer s tower ctx 0x0C01 fault (loadTable tower ctx) else s)

/-- CUSTODIAN_AUTH. -/
def execCustodianAuth (tower ctx : Nat) (fault : FigFault) (s : State) : Out := .next (runCer s tower ctx 0x0C02 fault (custodianAuth tower ctx))

/-- CEREMONY_COMMIT of DMK_LOAD. -/
def execDmkLoad (tower ctx : Nat) (fault : FigFault) (s : State) : Out := .next (runCommit tower ctx 2 fault (commitDmk tower ctx) s)

/-- CEREMONY_COMMIT of DMK_PROMOTE. -/
def execDmkPromote (tower ctx : Nat) (fault : FigFault) (s : State) : Out := .next (runCommit tower ctx 3 fault (fun _ => commitPromote tower ctx) s)

/-- CEREMONY_COMMIT of PARTITION_CREATE. -/
def execPartitionCreate (tower ctx : Nat) (fault : FigFault) (s : State) : Out := .next (runCommit tower ctx 4 fault (commitPartition tower ctx true) s)

/-- CEREMONY_COMMIT of PARTITION_DELETE. -/
def execPartitionDelete (tower ctx : Nat) (fault : FigFault) (s : State) : Out := .next (runCommit tower ctx 5 fault (commitPartition tower ctx false) s)

/-- CEREMONY_COMMIT of COMMISSION: step 1 of the transition to SERVICE. -/
def execCommission (tower ctx : Nat) (fault : FigFault) (s : State) : Out := .next (runCommit tower ctx 8 fault (commitLifeCycle tower ctx 3) s)

/-- CEREMONY_COMMIT of RECOMMISSION: step 1 of the transition to SEALED. -/
def execRecommission (tower ctx : Nat) (fault : FigFault) (s : State) : Out := .next (runCommit tower ctx 9 fault (commitLifeCycle tower ctx 2) s)

/-- CEREMONY_COMMIT of RETURN: step 1 of the transition to RETURN. -/
def execReturnCer (tower ctx : Nat) (fault : FigFault) (s : State) : Out := .next (runCommit tower ctx 10 fault (commitLifeCycle tower ctx 4) s)

/-- CEREMONY_COMMIT of SCRAP: step 1 of the transition to SCRAP. -/
def execScrap (tower ctx : Nat) (fault : FigFault) (s : State) : Out := .next (runCommit tower ctx 11 fault (commitLifeCycle tower ctx 5) s)

/-- CEREMONY_ABORT (14 R412). -/
def ceremonyAbort (t c : Nat) (s : State) : State :=
  if (cerOf s t c).isNone then finishCall s t c stCeremony 36 0 [] else finishCall (closeCer s t c 2) t c stOk 36 0 []

/-- CEREMONY_ABORT. -/
def execCeremonyAbort (tower ctx : Nat) (fault : FigFault) (s : State) : Out := .next (runCer s tower ctx 0x0C04 fault (ceremonyAbort tower ctx))

end Sys2Proof.Machine
end

