-- ==== Sys2Proof/Machine/TimeFam.lean ====
section
/-! DEFINITION. Reel time: Bells, the head's sources and corrections, and the events bound to Bells (11 R334 to R345). -/

namespace Sys2Proof.Machine

/-- Writes Reel time. -/
def State.setTime (s : State) (x : Time) : State := { s with time := x }

/-- The head of a Reel, or a device alone (11 R324, R342). -/
def isHead (s : State) : Bool := s.reel.role == 1 || s.reel.role == 3

/-- TIME_STATUS.STATE changes, with STATE_CHANGE (11 R340, R353). -/
def setTimeState (s : State) (st : Nat) : State :=
  if s.time.st = st then s else raise (s.setTime { s.time with st := st }) pgTime 1

/-- HOLDOVER is entered (11 R340). -/
def toHoldover (s : State) : State :=
  setTimeState (s.setTime { s.time with holdovers := satAdd 32 s.time.holdovers 1 }) 3

/-- The Bell that starts the next second after Bell `k`. -/
def nextSecondBell (k : Nat) : Nat := 1024 * (k / 1024 + 1)

/-- The Bell that a count schedules after Bell `k`: a SET in a known state replaces the one that starts a second
(11 R342). -/
def bellAfter (s : State) (k : Nat) : Nat :=
  match s.time.setPending with
  | some v => if (k + 1) % 1024 = 0 then 1024 * v else k + 1
  | none => k + 1

/-- The number that the head's TIME_FULL names at Bell `k` (11 R337, R342). -/
def fullNumber (s : State) (k : Nat) : Nat :=
  match s.time.setPending with
  | some v => 1024 * v
  | none => nextSecondBell k

/-- A snapshot order bound to a Bell that was skipped counts late (11 R345, R347). -/
def captureAt (s : State) (k : Nat) : State :=
  match s.reel.order with
  | none => s
  | some (b, _) =>
    if b > k then s
    else
      let s1 := captureNow s
      if b < k then lateEvent s1 else s1

/-- A ceremony's window ends at its Bell, or late where the Bell was skipped (11 R344, R345). -/
def expireAt (s : State) (k : Nat) : State :=
  match s.cus.cer.bind (·.expires) with
  | none => s
  | some e =>
    if 1024 * e > k then s
    else
      let s1 := expireCeremony s
      if 1024 * e < k then lateEvent s1 else s1

/-- PPS_OUT goes high at a Bell that starts a second (11 R339). -/
def ppsOutOn (s : State) : State := { s with dev := { s.dev with ppsOut := s.dev.ppsOut || s.time.src.getLsbD 2 } }

/-- The recurring events of a Bell, if it starts a second (11 R344, R345). -/
def secondStart (s : State) (k : Nat) (f : State → State) : State := if k % 1024 = 0 then f s else s

/-- The scheduled events whose Bell was skipped, as Bell and order of R344: the capture, the tariff switch, the ceremony's window. At a Bell
that starts a second, and after a cold reset, the switch belongs to step 3 of R362 (11 R345; 12 R363, R366; log 61). -/
def lateDue (s : State) (k : Nat) : List (Nat × Nat) :=
  ((match s.reel.order with | some (b, _) => [(b, 1)] | none => []) ++
    (if k % 1024 = 0 ∨ s.mtr.recovering then [] else (s.dome.ledger.at_.map (fun a => ((1024 * a, 2) : Nat × Nat))).toList) ++
    ((s.cus.cer.bind (·.expires)).map (fun e => ((1024 * e, 4) : Nat × Nat))).toList).filter (fun x => decide (x.1 < k))

/-- A tariff switch whose Bell was skipped is applied, late, at Bell `k` (11 R345). -/
def switchSkipped (s : State) (k : Nat) : State := applySwitch s (k / 1024 + 1)

/-- At most `n` late events fire, in the order of their Bells, and then in the order of R344 (11 R345). -/
def fireLate (k : Nat) : Nat → List (Nat × Nat) → State → State
  | 0, _, s => s
  | n + 1, l, s => match bestBy (fun x => 2 ^ 80 - (8 * x.1 + x.2)) l with
    | none => s
    | some x => fireLate k n (l.erase x) (if x.2 = 1 then captureAt s k else if x.2 = 2 then switchSkipped s k else expireAt s k)

/-- The events of Bell `k` in the order of R344, after those of skipped Bells, in the order of their Bells (R345). -/
def bellEvents (s : State) (k : Nat) : State :=
  let s1 := captureAt (fireLate k 3 (lateDue s k) s) k
  let s2 := secondStart s1 k (fun a => mtrSecond a (k / 1024))
  let s3 := expireAt s2 k
  let s4 := secondStart s3 k vaultSecond
  secondStart s4 k ppsOutOn

/-- A member has not yet come to the Bell that the head has named for its correction (11 R337). -/
def expectsAfter (s : State) (k : Nat) : Bool := s.time.expect.any (fun e => decide (k < e))

/-- TIME_STATUS.STATE after Bell `k` is asserted: the head's time begins, with FREE_RUN where a SET has scheduled the Bell and with TRACKING
where an edge asserts it; or a member's correction ends, where no named Bell is still to come (11 R337, R340 to R342). -/
def stateAtBell (s : State) (k : Nat) : Nat :=
  if isHead s then (if s.time.st = 0 then (if s.time.due.isSome then 2 else 1) else s.time.st)
  else if s.time.st = 3 then 3 else if s.time.st = 4 ∧ expectsAfter s k then 4 else 1

/-- At a Bell that starts a second the head broadcasts TIME_FULL (11 R337). -/
def headFull (s : State) (k : Nat) : State :=
  if isHead s ∧ k % 1024 = 0 then broadcast s 0x0A (leBytes 8 (fullNumber s k) ++ leBytes 1 s.time.st) else s

/-- The ports on which Bells leave this device: DOWN; in a broken ring along the line from the head, which sends them both ways
(11 R332, R335). -/
def bellPorts (s : State) : List Bool :=
  if s.reel.topo ≠ 3 then [true]
  else if isHead s then [true, false].filter (fun d => (List.range s.reel.count).any (fun a => dirTo s.reel 0 a == some d))
  else (dirTo s.reel 0 s.reel.addr).toList

/-- The block for Bell `k` leaves on the ports that are up. `c` is the correction that it arrived with; each port adds the time that it
waits for insertion there, which the spec does not give: a free value (11 R334, R335; log 3). -/
def bellOut (s : State) (k c : Nat) : State :=
  ((bellPorts s).filter (portUp s)).foldl (fun a d =>
    let (a1, n) := a.takeFree
    setPort a1 d { portOf a1 d with bell := some (k % 2 ^ 40, (c + Config.freeValue n) % 65536) }) s

/-- The head sends the block for the next Bell at the instant of this one (11 R335). -/
def sendBells (s : State) (k : Nat) : State := if isHead s then bellOut s k 0 else s

/-- Bell `k` is asserted: its events fire, and the next is scheduled where this device keeps the count itself
(11 R335, R336, R344). -/
def assertBell (s : State) (k : Nat) : State :=
  let st := stateAtBell s k
  let t := s.time
  let s1 := s.setTime { t with
    bell := k, frac := 0, due := none, expect := if expectsAfter s k then t.expect else none, newDelay := none, delay := t.newDelay.getD t.delay
    setPending := if t.setPending.any (fun v => 1024 * v == k) then none else t.setPending }
  let s2 := bellEvents (setTimeState s1 st) k
  let s3 := headFull s2 k
  if isHead s3 ∨ s3.time.st = 3 then sendBells (s3.setTime { s3.time with due := some (bellAfter s3 k) }) (bellAfter s3 k) else s3

/-- BELL_ASSERT: the scheduled Bell's instant has come. No number at or below the last one is asserted (11 R336). -/
def execBellAssert (s : State) : Out :=
  match s.time.due with
  | none => .next s
  | some k => if timeKnown s ∧ k ≤ s.time.bell then .next (s.setTime { s.time with due := none }) else .next (assertBell s k)

/-! ## Members (11 R335, R337, R340, R341) -/

/-- The number with low 40 bits `low` that lies nearest to `e` (11 R337). -/
def extend40 (low e : Nat) : Nat :=
  let m := 2 ^ 40
  let base := e / m * m + low % m
  if base + m / 2 < e then base + m else if e + m / 2 < base ∧ m ≤ base then base - m else base

/-- Bell period P, in units of 0.1 ns (11 R334). -/
def bellPeriod : Nat := 9765625

/-- The number of an arriving block at a member that holds a count: from the Bell on that a TIME_FULL has named for its correction, counted
from that number; otherwise the one nearest to the number expected next (11 R337). -/
def arrivingNumber (t : Time) (low40 : Nat) : Nat :=
  let d := t.expect.map (fun e => (e, (low40 + 2 ^ 40 - e % 2 ^ 40) % 2 ^ 40))
  match d with
  | some (e, n) => if n < 2 ^ 39 then e + n else extend40 low40 (t.bell + 1)
  | none => extend40 low40 (t.bell + 1)

/-- A member that holds a count takes the arriving number `m`: it schedules that Bell, or none while the numbers do not pass its last one;
from a named Bell on it then expects the number after it (11 R337, R341). -/
def takeNumber (s : State) (m : Nat) : State :=
  let t := s.time
  let named := t.expect.any (fun e => decide (e ≤ m))
  s.setTime { t with
    due := if m > t.bell then some m else none
    expect := if named && decide (m ≤ t.bell) then some (m + 1) else t.expect }

/-- BELL: a Bell block arrives at a member or a tail: it is forwarded at once, and schedules its Bell, P − D − C after its arrival. A
device that has no count asserts only the number that a TIME_FULL has named (11 R335, R337). -/
def execBellBlock (low40 corr : Nat) (s0 : State) : Out :=
  let s1 := bellOut s0 low40 corr
  let s := s1.setTime { s1.time with lead := bellPeriod - s1.time.delay - corr }
  let t := s.time
  if isHead s0 then .next s0
  else if t.st = 0 then match t.expect with
    | none => .next s
    | some e => .next (if low40 % 2 ^ 40 = e % 2 ^ 40 then s.setTime { t with due := some e } else s)
  else
    .next (takeNumber (if t.st = 3 then setTimeState s 4 else s) (arrivingNumber t (low40 % 2 ^ 40)))

/-- BELL_LOSS: Bells from the head have stopped for 4 periods; the member goes on by itself (11 R340). -/
def execBellLoss (s : State) : Out :=
  .next (if !isHead s ∧ (s.time.st = 1 ∨ s.time.st = 4) then
    let s1 := toHoldover s
    s1.setTime { s1.time with due := some (s.time.bell + 1), expect := none } else s)

/-- A member learns the full number of the Bell that starts the next second (11 R337). -/
def takeFull (number : Nat) (s : State) : State :=
  if s.time.st = 0 then s.setTime { s.time with expect := some number }
  else if number = nextSecondBell s.time.bell then s
  else
    let s1 := setTimeState s 4
    s1.setTime { s1.time with expect := some number }

/-- TIME_FULL, a broadcast of the head (11 R337). -/
def execTimeFull (number headState : Nat) (s : State) (seq : Nat := 0) : Out :=
  if isHead s then .next s
  else .next (receive s { src := 0, dst := 0xFFFF, seq := seq } 0 0x0A (leBytes 8 number ++ leBytes 1 headState) (takeFull number))

/-! ## The head's sources (11 R338, R339, R341, R342) -/

/-- The window of R338, in microseconds. -/
def inWindow (gap : Nat) : Bool := decide (900000 ≤ gap) && decide (gap ≤ 1100000)

/-- The size of a phase error, in ns. -/
def phaseAbs (p : Word) : Nat := p.toInt.natAbs

/-- 64 Bell periods, in ns (11 R341). -/
def slewLimit : Nat := 62500000

/-- Leaving HOLDOVER with 3 accepted edges: a slew, or a step to the Bell that the edge begins (11 R341). A Bell that is
late is skipped to; one that is early waits. A SET that waits for the next Bell that would start a second has that Bell (11 R342). -/
def leaveHoldover (s : State) (phase : Word) : State :=
  if phaseAbs phase < 3 then setTimeState s 1
  else if phaseAbs phase ≤ slewLimit then setTimeState s 4
  else if phase.toInt < 0 then
    let s1 := setTimeState s 1
    s1.setTime { s1.time with due := some (fullNumber s s.time.bell) }
  else setTimeState s 1

/-- An accepted edge (11 R338 to R342). In UNKNOWN it asserts the Bell of a SET that waits for it, or of the second that TOD has named; a
SET written while no edges came keeps the Bell that it has scheduled. -/
def acceptEdge (s : State) (phase : Word) : State :=
  let t := s.time
  let s1 := s.setTime { t with edges := t.edges + 1, missRun := 0, todSecond := none }
  if t.st = 0 then
    match t.due, t.setPending, t.todSecond with
    | some _, _, _ => s1
    | none, some v, _ => assertBell s1 (1024 * v)
    | none, none, some v => assertBell s1 (1024 * v)
    | none, none, none => s1
  else
    let s2 := s1.setTime { s1.time with phase := phase }
    if t.st = 4 then (if phaseAbs phase < 3 then setTimeState s2 1 else s2)
    else if (t.st = 2 ∨ t.st = 3) ∧ t.edges + 1 ≥ 3 then leaveHoldover s2 phase
    else s2

/-- PPS_EDGE: a rising edge on PPS_IN, `gap` microseconds after the last accepted one (11 R338). The input was low for `low` ns before it
and is high for `high` ns after it: a narrower pulse is no edge (16 R457). -/
def execPpsEdge (gap : Nat) (phase : Word) (s : State) (low : Nat := 1000) (high : Nat := 1000) : Out :=
  let t := s.time
  if !isHead s ∨ !t.src.getLsbD 0 ∨ low < 1000 ∨ high < 1000 then .next s
  else if t.edges = 0 ∨ inWindow gap then .next (acceptEdge s phase)
  else if gap < 900000 then .next (raise (s.setTime { t with ignored := satAdd 32 t.ignored 1 }) pgTime 2)
  else .next s

/-- PPS_WINDOW_MISSED: 1.1 s have passed with no edge (11 R338, R340). The next edge is then accepted as a first one
(DEDUCED, log 28). TOD_VALID tells of the last frame, and stands (11 R339, R353). -/
def execPpsWindowMissed (s : State) : Out :=
  let t := s.time
  if !isHead s ∨ !t.src.getLsbD 0 ∨ (t.edges = 0 ∧ t.missRun = 0) then .next s
  else
    let s1 := s.setTime { t with missed := satAdd 32 t.missed 1, missRun := t.missRun + 1, edges := 0, todSecond := none }
    .next (if t.missRun + 1 ≥ 2 ∧ (t.st = 1 ∨ t.st = 4) then toHoldover s1 else s1)

/-- A TOD frame is valid (11 R339). -/
def todOk (t : Time) (frame : Bytes) (afterMs : Nat) : Bool :=
  frame.length == 10 && byteAt frame 0 == 0x54 && byteAt frame 1 == 0x44 && decide (byteAt frame 8 < 2) &&
    (frame.take 9).foldl (fun a x => a ^^^ x) (0 : Byte) == frame.getD 9 0 && decide (100 ≤ afterMs) &&
    decide (afterMs ≤ 900) && decide (t.edges > 0)

/-- The value of a bit on TOD_RX from its 16 samples: the majority of the middle three. R457 does not say which three of 16 those are:
samples 7 to 9 here, counted from 0 (16 R457; DESIGN CHOICE, log 118). -/
def todBit (x : List Bool) : Bool := decide (2 ≤ ((x.drop 7).take 3).count true)

/-- A byte from its ten bits: a start bit, eight data bits from the lowest, a stop bit; none where the framing is wrong (11 R338). -/
def todByte (b : List Bool) : Option Byte :=
  if b.length = 10 ∧ b.head? = some false ∧ b.getLast? = some true then
    some (BitVec.ofNat 8 (((b.drop 1).take 8).zipIdx.foldl (fun a e => a + (if e.1 then 2 ^ e.2 else 0)) 0)) else none

/-- The frame that the samples of `raw` spell; empty where a byte is not framed (11 R338; 16 R457). -/
def todSampled (raw : List (List Bool)) : Bytes :=
  let bs := (List.range (raw.length / 10)).map (fun i => todByte (((raw.drop (10 * i)).take 10).map todBit))
  if bs.all (·.isSome) ∧ raw.length % 10 = 0 then bs.filterMap id else []

/-- TOD_FRAME: a frame on TOD_RX, received whole `afterMs` after the last accepted edge (11 R339, R341), given by its bytes or by the
samples of its bits (16 R457). -/
def execTodFrame (frame0 : Bytes) (afterMs : Nat) (s : State) (raw : List (List Bool) := []) : Out :=
  let t := s.time
  let frame := if raw.isEmpty then frame0 else todSampled raw
  let v := beAt frame 2 6
  if !isHead s ∨ !t.src.getLsbD 1 then .next s
  else if !todOk t frame afterMs then .next (s.setTime { t with todValid := false })
  else if t.st = 0 then .next (s.setTime { t with todValid := true, todSecond := some v })
  else if v = reelSecond s + 1 then .next (s.setTime { t with todValid := true, mismatch := false })
  else .next (raise (s.setTime { t with todValid := true, mismatch := true }) pgTime 3)

/-- TIME_SET: the MF writes 1 to TIME_CTRL.SET (11 R342). -/
def execTimeSet (s : State) : Out :=
  let t := s.time
  if !isHead s then .next (recordWerr s pgTime)
  else if t.st = 0 then
    .next (s.setTime { t with setPending := some t.set, mismatch := false, due := if t.edges > 0 then none else some (1024 * t.set) })
  else if t.set ≤ reelSecond s then .next (recordWerr s pgTime)
  else
    .next (s.setTime { t with
      setPending := some t.set, mismatch := false, due := t.due.map (fun k => if k % 1024 = 0 then 1024 * t.set else k) })

/-- PPS_OUT_END: 100 ms after the Bell (11 R339). -/
def execPpsOutEnd (s : State) : Out := .next { s with dev := { s.dev with ppsOut := false } }

/-- The frame that names the next second. FLAGS bit 0 is not given for a frame that this device sends: a free bit
(log 29). -/
def todFrameOf (s : State) (f : Nat) : Bytes :=
  let b := [0x54, 0x44] ++ beBytes 6 (reelSecond s + 1) ++ [BitVec.ofNat 8 (Config.freeValue f % 2)]
  b ++ [b.foldl (fun a x => a ^^^ x) 0]

/-- TOD_TX: 200 ms after the Bell the frame is sent (11 R339). -/
def execTodTx (s : State) : Out :=
  if !s.time.src.getLsbD 3 ∨ !timeKnown s then .next s
  else
    let (s1, f) := s.takeFree
    .next { s1 with dev := { s1.dev with todTx := todFrameOf s f } }

end Sys2Proof.Machine
end

