-- ==== Sys2Proof/Machine/CloneFam.lean ====
section
/-! DEFINITION. Domain cloning over the Reel (11 R351, R352) and the end of a wait for a reply (11 R333). -/

namespace Sys2Proof.Machine

/-! ## Messages. R352 names their contents; their layouts are this model's (DESIGN CHOICE, log 30). -/

/-- What a CLONE_HELLO or CLONE_REPLY signs: both serials and both addresses, the sender's first, the sender's nonce and
ephemeral public key. -/
def cloneSigned (ser1 ser2 a1 a2 : Nat) (nonce pub : Bytes) : Bytes :=
  leBytes 8 ser1 ++ leBytes 8 ser2 ++ leBytes 2 a1 ++ leBytes 2 a2 ++ fit 16 nonce ++ fit 97 pub

/-- A signed message: a code, what is signed (133 bytes), the DIK public key, the signature. -/
def cloneMsg (s : State) (body drawn : Bytes) : Option Bytes :=
  (dikSign s body drawn).map (fun sg => [0] ++ body ++ dikPub s ++ sg)

/-- Nonce of a signed message. -/
def cloneNonce (b : Bytes) : Bytes := sub b 21 16

/-- Ephemeral public key of a signed message. -/
def clonePub (b : Bytes) : Bytes := sub b 37 97

/-- DIK public key of a signed message. -/
def cloneDik (b : Bytes) : Bytes := sub b 134 97

/-- A signed message names both devices, its DIK public key has the digest that the ceremony names, and its signature
verifies. -/
def cloneVerify (b : Bytes) (ser1 ser2 a1 a2 : Nat) (digest : Bytes) : Bool :=
  b.length == 327 && sub b 1 20 == leBytes 8 ser1 ++ leBytes 8 ser2 ++ leBytes 2 a1 ++ leBytes 2 a2 &&
    sha384 (cloneDik b) == digest && p384Verify (cloneDik b) (sub b 1 133) (b.drop 231)

/-- The transfer key (11 R352; 09 R292): both serials and both nonces, the source's first. -/
def cloneKeyOf (eph : Nat) (pub : Bytes) (ser1 ser2 : Nat) (n1 n2 : Bytes) : Option Bytes :=
  ((decPoint curveP384 pub).bind (fun q => ecMul curveP384 eph (some q))).map (fun z =>
    agreeKey (beBytes 48 z.1) (ascii "CLNX") (ascii "CLNE") (leBytes 8 ser1 ++ leBytes 8 ser2 ++ n1 ++ n2))

/-! ## The source -/

/-- Serial of the peer that a ceremony names. -/
def cerSerial (c : Ceremony) : Nat := leAt c.input 0 8

/-- Digest of the peer's DIK public key that a ceremony names. -/
def cerDigest (c : Ceremony) : Bytes := sub c.input 8 48

/-- The source slot's DMK. -/
def cloneDmk (s : State) (d : Bytes) : Option Bytes := if par d 66 = 0 then s.dome.cur else s.dome.next

/-- The checks of REEL_CLONE_DOMAIN, but that the peer can be reached (11 R351). Reel time is that of the call's cycle 0 (01 R20). -/
def cloneCeremony (s : State) (k : Call) (d : Bytes) : Option Nat :=
  if k.bell.isNone then some stTimeUnknown
  else match cerFor s k with
    | none => some stCeremony
    | some c =>
      if c.typ ≠ 6 then some stCeremony
      else if !c.authorized then some stDualControl
      else if leAt d 64 2 ≠ leAt c.input 56 2 ∨ par d 66 ≠ byteAt c.input 58 ∨ (cloneDmk s d).isNone then some stBadParam else none

/-- The checks of REEL_CLONE_DOMAIN before a message to the peer (11 R333, R351). -/
def cloneParams (s : State) (k : Call) (d : Bytes) : Option Nat :=
  match cloneCeremony s k d with
  | some st => some st
  | none => if (portTo s (leAt d 64 2)).isNone then some stReelUnreach else none

/-- The checks before a phase: the peer must be within reach in the phases that send it a message. CLONE_DONE that has come is taken
whatever its link has done since (11 R352). -/
def clonePhase (s : State) (phase : Nat) (k : Call) (d : Bytes) : Option Nat :=
  if phase = 0 ∨ phase = 2 then cloneParams s k d else cloneCeremony s k d

/-- What REEL_CLONE_DOMAIN waits for before a phase: in phase 1 after a resumption, a reply that has not come yet. -/
def cloneNeeds (w : Work) : List Need :=
  match w.phase with
  | 0 => unitNeeds ++ [.draw 128]
  | 1 => (if w.blob.isEmpty then [.reel] else []) ++ unitNeeds
  | 9 => []
  | _ => unitNeeds

/-- A phase's commands up to the next yield point (09 R288); once the last has run, what the phase does. A refused operand fails the
verification or the agreement. -/
def clonePart (s : State) (t c : Nat) (prog : List SpStep) (ops : List (Nat × Nat)) (f : State → State) : State :=
  let (s1, bad) := spPart prog true false t c (loadHalf s t c ops)
  if bad then finishFree s1 t c stKeyBlock []
  else if (s1.ctx t c).work.pc < prog.length then s1
  else f (modWork s1 t c (fun w => { w with pc := 0, bits := 0 }))

/-- Phase 1: the ephemeral key and CLONE_HELLO. -/
def cloneHelloStep (t c : Nat) (cer : Ceremony) (s : State) : State :=
  let d := workDesc s t c
  let r := drawnOf s t c
  let eph := drawnScalar curveP384 (sub r 16 56)
  let body := cloneSigned s.fuse.serial (cerSerial cer) s.reel.addr (leAt d 64 2) (r.take 16)
    (encPoint curveP384 (ecMul curveP384 eph (ecG curveP384)))
  match cloneMsg s body (sub r 72 56) with
  | none => deviceFault s t c
  | some m =>
    let prog := ecGenProg curveP384 ++ ecSignProg.modifyHead (fun p =>
      { p with given := fun _ => (dikOps s body (sub r 72 56)).zipIdx.map (fun e => (e.2, e.1)) })
    clonePart s t c prog (ecGenOps curveP384 (beVal (sub r 16 56) % 2 ^ 448)) (fun a =>
      let s1 := modWork a t c (fun w => { w with phase := 1, progress := 1, total := 4, keep := r.take 16, vals := [eph], blob := [] })
      setNeeds (sendTo (freeUnits s1 t c) 2 0x22 (leAt d 64 2) m) t c (.reel :: unitNeeds))

/-- Status that a destination's code stands for. -/
def cloneStatus (code : Nat) : Nat := if code = 1 then stCeremony else if code = 2 then stBadParam else stKeyBlock

/-- Phase 2: CLONE_REPLY is verified, its DIK digest first. -/
def cloneReplyStep (t c : Nat) (cer : Ceremony) (s : State) : State :=
  let d := workDesc s t c
  let b := (s.ctx t c).work.blob
  if byteAt b 0 ≠ 0 then finishFree s t c (cloneStatus (byteAt b 0)) []
  else if b.length ≠ 327 ∨ sha384 (cloneDik b) ≠ cerDigest cer then finishFree s t c stKeyBlock []
  else clonePart s t c (ecVerifyProg curveP384) (p384Ops (cloneDik b) (sub b 1 133) (b.drop 231)) (fun a =>
    if cloneVerify b (cerSerial cer) s.fuse.serial (leAt d 64 2) s.reel.addr (cerDigest cer) then
      modWork a t c (fun w => { w with phase := 2, progress := 2 })
    else finishFree a t c stKeyBlock [])

/-- Phase 3: the DMK is wrapped and sent. -/
def cloneKeyStep (t c : Nat) (cer : Ceremony) (s : State) : State :=
  let d := workDesc s t c
  let w := (s.ctx t c).work
  clonePart s t c ecDhProg (ecDhOps curveP384 (w.vals.getD 0 0) (rawPoint curveP384 (clonePub w.blob))) (fun a =>
    match cloneKeyOf (w.vals.getD 0 0) (clonePub w.blob) s.fuse.serial (cerSerial cer) w.keep (cloneNonce w.blob), cloneDmk s d with
    | some k, some dmk =>
      let s1 := modWork a t c (fun x => { x with phase := 3, progress := 3, blob := [] })
      setNeeds (sendTo (freeUnits s1 t c) 2 0x24 (leAt d 64 2) ([0] ++ kwWrap (aesC k) dmk ++ kcvAes dmk)) t c [.reel]
    | none, _ => finishFree a t c stKeyBlock []
    | _, none => finishFree a t c stBadParam [])

/-- Phase 4: CLONE_DONE is verified, and the ceremony is consumed. -/
def cloneDoneStep (t c : Nat) (s : State) : State :=
  let b := (s.ctx t c).work.blob
  let dmk := (cloneDmk s (workDesc s t c)).getD []
  if byteAt b 0 ≠ 0 then finishFree s t c (cloneStatus (byteAt b 0)) []
  else if sub b 2 3 ≠ kcvAes dmk then finishFree s t c stKeyBlock []
  else finishFree (closeCer s t c 6) t c stOk (sub b 2 3 ++ sub b 1 1)

/-- REEL_CLONE_DOMAIN: the phase that comes next, up to the next yield point of its commands. -/
def cloneStep (t c : Nat) (s : State) : State :=
  if (s.ctx t c).work.phase = cloneGone then finishFree s t c stReelUnreach []
  else match clonePhase s (s.ctx t c).work.phase ((s.ctx t c).call.getD {}) (workDesc s t c), cerOf s t c with
  | some st, _ => if (s.ctx t c).work.phase = 0 ∧ (s.ctx t c).work.sp = 0 then finishCall s t c st 39 0 [] else finishFree s t c st []
  | none, none => s
  | none, some cer => match (s.ctx t c).work.phase with
    | 0 => cloneHelloStep t c cer s
    | 1 => cloneReplyStep t c cer s
    | 2 => cloneKeyStep t c cer s
    | _ => cloneDoneStep t c s

/-- REEL_CLONE_DOMAIN. -/
def execReelCloneDomain (tower ctx : Nat) (fault : FigFault) (s : State) : Out :=
  .next (runFigure s tower ctx 0x0D01 fault (cloneStep tower ctx))

/-! ## The destination -/

/-- The destination's domain-receive ceremony, once it is authorised. -/
def receiveCer (s : State) : Option Ceremony := s.cus.cer.filter (fun c => c.typ == 7 && c.authorized)

/-- The destination opens its session and replies. Its nonce, its ephemeral key and the bytes of its
signature are free values (log 30). -/
def takeHello (src : Nat) (payload : Bytes) (s : State) : State :=
  if s.reel.session.isSome then s
  else match receiveCer s with
    | none => sendTo s 2 0x23 src [1]
    | some cer =>
      let ser := cerSerial cer
      if !cloneVerify payload ser s.fuse.serial src s.reel.addr (cerDigest cer) then sendTo s 2 0x23 src [3]
      else
        let (s1, r) := s.takeBytes 128
        let eph := drawnScalar curveP384 (sub r 16 56)
        let body := cloneSigned s1.fuse.serial ser s1.reel.addr src (r.take 16)
          (encPoint curveP384 (ecMul curveP384 eph (ecG curveP384)))
        match cloneMsg s1 body (sub r 72 56) with
        | none => sendTo s1 2 0x23 src [3]
        | some m =>
          let ses : Session := { src := src, hello := payload, eph := eph, nonce := r.take 16, last := reelSecond s1 }
          sendTo (s1.setReel { s1.reel with session := some ses }) 2 0x23 src m

/-- CLONE_HELLO (11 R352). -/
def execCloneHello (h : Hdr) (payload : Bytes) (s : State) : Out := .next (receive s h 2 0x22 payload (takeHello h.src payload))

/-- The DMK that a CLONE_KEY carries, unwrapped and checked against its check value. -/
def cloneUnwrap (s : State) (ses : Session) (payload : Bytes) : Option Bytes :=
  (cloneKeyOf ses.eph (clonePub ses.hello) (leAt ses.hello 1 8) s.fuse.serial (cloneNonce ses.hello) ses.nonce).bind (fun k =>
    (kwUnwrap (aesC k) (sub payload 1 40)).filter (fun dmk => kcvAes dmk == sub payload 41 3))

/-- The destination loads the DMK and consumes its ceremony (11 R352; 06 R176). The Reel engine, initiator 5, writes the slot; a refused
write is dropped, and no answer tells of it (13 R372, R384; log 87). -/
def takeCloneKey (src : Nat) (payload : Bytes) (s : State) : State :=
  match s.reel.session.filter (fun x => x.src == src) with
  | none => s
  | some ses =>
    let s1 := s.setReel { s.reel with session := none }
    if (receiveCer s).isNone then sendTo s1 2 0x25 src [1]
    else match cloneUnwrap s ses payload with
      | none => sendTo s1 2 0x25 src [3]
      | some dmk =>
        let next := s.dome.cur.isSome
        if allZero dmk ∨ (next ∧ s.dome.cur.any (fun k => dmkId k == dmkId dmk)) then sendTo s1 2 0x25 src [2]
        else
          let (s0, ok) := intCheck s1 5 true 0 domeKeys
          let s2 := { s0 with dome := { s0.dome with
            next := if next ∧ ok then some dmk else s0.dome.next, cur := if !next ∧ ok then some dmk else s0.dome.cur } }
          sendTo (closeCeremony s2 6) 2 0x25 src ([0, BitVec.ofNat 8 (flag next)] ++ kcvAes dmk)

/-- CLONE_KEY (11 R352). -/
def execCloneKey (h : Hdr) (payload : Bytes) (s : State) : Out := .next (receive s h 2 0x24 payload (takeCloneKey h.src payload))

/-- The context whose clone waits for a message of `src` in a phase. -/
def cloneCtx (s : State) (src phase : Nat) : Option (Nat × Nat) :=
  allCtx.find? (fun x => firstNeed s x.1 x.2 == some .reel && opOf (workDesc s x.1 x.2) == 0x0D01 &&
    leAt (workDesc s x.1 x.2) 64 2 == src && (s.ctx x.1 x.2).work.phase == phase)

/-- The destination's reply waits in the job's work, of a suspended job too (11 R352; 03 R99). -/
def takeCloneReply (src : Nat) (payload : Bytes) (s : State) : State :=
  match cloneCtx s src 1 with
  | some (t, c) => popNeed (modWork s t c (fun w => { w with blob := payload })) t c
  | none => { s with jobs := s.jobs.map (fun j =>
      if j.suspended && opOf j.call.desc == 0x0D01 && leAt j.call.desc 64 2 == src && j.work.phase == 1 then
        { j with work := { j.work with blob := payload } } else j) }

/-- CLONE_REPLY (11 R352). -/
def execCloneReply (h : Hdr) (payload : Bytes) (s : State) : Out := .next (receive s h 2 0x23 payload (takeCloneReply h.src payload))

/-- The destination's last answer reaches the call that waits for it (11 R352). -/
def takeCloneDone (src : Nat) (payload : Bytes) (s : State) : State :=
  match cloneCtx s src 3 with
  | some (t, c) => popNeed (modWork s t c (fun w => { w with blob := payload })) t c
  | none => s

/-- CLONE_DONE (11 R352). -/
def execCloneDone (h : Hdr) (payload : Bytes) (s : State) : Out := .next (receive s h 2 0x25 payload (takeCloneDone h.src payload))

/-- CLONE_SESSION_EXPIRY: 8 Reel seconds after the session's last message (11 R352). -/
def execCloneSessionExpiry (s : State) : Out :=
  .next (if s.reel.session.any (fun x => decide (x.last + 8 ≤ reelSecond s)) then s.setReel { s.reel with session := none } else s)

/-- REEL_REPLY_TIMEOUT: no reply within 2^30 cycles. A clone or a handoff ends REEL_UNREACHABLE; a seal goes on with the
answers it has (11 R333, R352; 07 R247, R248, R251). -/
def execReelReplyTimeout (tower ctx : Nat) (s : State) : Out :=
  if firstNeed s tower ctx ≠ some .reel ∨ (s.ctx tower ctx).age < 2 ^ 30 then .next s
  else if opOf (workDesc s tower ctx) = 0x0A03 then .next (sealWaiters (s.vault.awaiting.foldl (witnessAnswer false) s))
  else .next (finishFree s tower ctx stReelUnreach [])

end Sys2Proof.Machine
end

