-- ==== Sys2Proof/Machine/HostFam.lean ====
section
/-! DEFINITION. The host interface: queue pairs, rings, mailboxes, stopping, resetting and migrating tenant functions
(02 R39 to R75). -/

namespace Sys2Proof.Machine

/-! ## Writes of queue-pair registers -/

/-- Records a queue-pair write of function `fn` that is ignored (R45; 00 R13). -/
def qpWerr (s : State) (fn : Nat) : State := if isMf fn then recordWerr s pgHif else recordTfWerr s fn

/-- Register writes of the function are ignored and not recorded: READY is 0 (16 R447), it does not exist, or it is a frozen
TF (R68). -/
def qpShut (s : State) (fn q : Nat) : Bool := !s.dev.ready || !qpExists s fn q || (!isMf fn && (s.tf fn).frozen)

/-- QP_SQ_TAIL_DB (R46, R49). -/
def execQpSqTailDb (fn q : Nat) (value : Word) (s : State) : Out :=
  let x := s.qp fn q
  let v := value.toNat % 65536
  .next (if qpShut s fn q || !x.enable then s
    else if v ≥ 2 ^ x.sqK then qpWerr s fn
    else s.setQp fn q { x with sqTail := v })

/-- QP_CQ_HEAD_DB (R46, R53). -/
def execQpCqHeadDb (fn q : Nat) (value : Word) (s : State) : Out :=
  let x := s.qp fn q
  let v := value.toNat % 65536
  let n := ringDist x.cqK x.cqHead v
  .next (if qpShut s fn q || !x.enable then s
    else if v ≥ 2 ^ x.cqK then qpWerr s fn
    else if 1 ≤ n ∧ n ≤ ringDist x.cqK x.cqHead x.cqTail then s.setQp fn q { x with cqHead := v }
    else qpError s fn q 1)

/-- A write of QP_CTRL: RESET and ENABLE (R44, R63, R65). -/
def qpCtrlWrite (s : State) (fn q : Nat) (reset enable : Bool) : State :=
  let x := s.qp fn q
  if reset then askReset s fn q enable false
  else if enable then (if x.enable then s else Sys2Proof.Machine.qpEnable s fn q)
  else if x.enable then askReset s fn q false false else s

/-- QP_ENABLE (R48). -/
def execQpEnable (fn q : Nat) (s : State) : Out :=
  .next (if qpShut s fn q then s else qpCtrlWrite s fn q false true)

/-- QUEUE_RESET: a write of QP_CTRL with RESET and ENABLE as given (R63, R65). -/
def execQueueReset (fn q : Nat) (reset enable : Bool) (s : State) : Out :=
  .next (if qpShut s fn q then s else qpCtrlWrite s fn q reset enable)

/-- HELD_QUEUE_RESET: RESET_BUSY has cleared, and the held reset takes effect, with an enable held with it (R65). -/
def execHeldQueueReset (fn q : Nat) (s : State) : Out :=
  let x := s.qp fn q
  match x.heldReset with
  | some e =>
    if !qpExists s fn q || x.old ≠ 0 then .next s
    else .next (doReset s fn q e x.heldCfg)
  | none => .next s

/-! ## Rings -/

/-- Fetched calls outstanding, with unconsumed completion entries (R52). -/
def qpOutstanding (x : Qp) : Nat :=
  ((x.reads.filter (fun r => !r.dropped)).map (·.count)).sum + x.fetched.length + x.live + ringDist x.cqK x.cqHead x.cqTail

/-- DESC_FETCH: the fetcher asks ARB_DMA for one read of at most 8 pending descriptors that crosses neither the ring's end nor a
4 KiB boundary and is no larger than the Max_Read_Request_Size, within the limits of R39 and R52 (R49). QP_SQ_HEAD moves when
the read is issued. -/
def execDescFetch (fn q : Nat) (s : State) : Out :=
  let x := s.qp fn q
  let room := 2 ^ x.cqK - 1 - qpOutstanding x
  let n := min (min (min 8 (max 128 s.hif.mrrs / 128)) (ringDist x.sqK x.sqHead x.sqTail))
    (min (min (2 ^ x.sqK - x.sqHead) (32 - x.sqHead % 32)) room)
  .next (if !qpExists s fn q || !x.enable || x.err != 0 || qpHeld s fn || n == 0 || x.reads.any (fun r => !r.issued) ||
      decide (s.hif.np ≥ 768) then s
    else s.setQp fn q { x with reads := x.reads ++ [{ first := x.sqHead, count := n }] })

/-- Moves descriptors that have arrived, and have no earlier read before them, to the fetch buffer (R49). -/
def takeArrived : List DescRead → List Bytes × List DescRead
  | [] => ([], [])
  | r :: rs =>
    if r.dropped then let (a, b) := takeArrived rs; (a, r :: b)
    else match r.data with
      | some l => let (a, b) := takeArrived rs; (l ++ a, b)
      | none => ([], r :: rs)

/-- The bytes of a read answer; none for an error (R43). -/
def ansBytes : ReadAns → Option Bytes
  | .data b => some b
  | _ => none

/-- DESC_READ_DONE (R43, R49): the oldest unanswered read of the queue pair from that index. One that a queue reset has discarded
brings nothing; a failure is logged in the AER of the issuing function. -/
def execDescReadDone (fn q first : Nat) (ans : ReadAns) (s : State) : Out :=
  let x := s.qp fn q
  match x.reads.findIdx? (fun r => r.first == first && r.issued && r.data.isNone) with
  | none => .next s
  | some i =>
    let r := x.reads.getD i {}
    let s1 := { s with hif := { s.hif with np := s.hif.np - 1 } }
    let put := fun (l : List DescRead) =>
      let (a, b) := takeArrived l
      s1.setQp fn q { x with fetched := x.fetched ++ a, reads := b }
    if r.dropped then .next (logAns (put (x.reads.eraseIdx i)) fn ans)
    else match ansBytes ans with
      | some b =>
        .next (put (x.reads.set i { r with data := some ((List.range r.count).map (fun j => fit 128 (b.drop (128 * j)))) }))
      | none => .next (qpError (logAns (put (x.reads.eraseIdx i)) fn ans) fn q 2)

/-- A queue pair signals its completion vector; count and timer restart (R54). -/
def signalQp (s : State) (fn q : Nat) : State :=
  signal (s.setQp fn q { s.qp fn q with unsignalled := 0, coalAge := 0 }) fn q

/-- COMPLETION_WRITE: the completion writer, to which ARB_DMA has granted a write (10 R308), writes the oldest completion of the queue
pair that is handed off and not written, once the ring has space (R42, R47, R51, R52, R54). A refused write loses the completion
(R465), and freezes a TF. -/
def execCompletionWrite (fn q : Nat) (s : State) : Out :=
  let x := s.qp fn q
  match s.hif.cpls.findIdx? (fun c => c.fn == fn && c.qp == q) with
  | none => .next s
  | some i =>
    let c := s.hif.cpls.getD i {}
    if !s.hif.cplGranted || !cplOpen s fn q then .next s
    else
      let s0 := { s with hif := { s.hif with cpls := s.hif.cpls.eraseIdx i, cplGranted := false } }
      let b := c.bytes.set 7 (c.bytes.getD 7 0 ||| (if x.phase then 1 else 0))
      let (s1, n) := hostWrite s0 fn (x.cqBase + 64 * x.cqTail) b
      let y := s1.qp fn q
      if n < 64 then
        let s2 := s1.setQp fn q { y with live := y.live - 1 }
        .next (if isMf fn then qpError s2 fn q 5 else s2)
      else
        let t := (y.cqTail + 1) % 2 ^ y.cqK
        let s2 := s1.setQp fn q { y with
          cqTail := t, phase := if t = 0 then !y.phase else y.phase, live := y.live - 1, unsignalled := y.unsignalled + 1 }
        .next (if c.irqNow || decide (y.unsignalled + 1 ≥ 2 ^ y.coalLog) then signalQp s2 fn q else s2)

/-- COAL_TIMER_EXPIRY (R54). -/
def execCoalTimerExpiry (fn q : Nat) (s : State) : Out :=
  let x := s.qp fn q
  .next (if x.unsignalled > 0 ∧ x.coalTime ≠ 0 ∧ x.coalAge ≥ 1024 * x.coalTime then signalQp s fn q else s)

/-! ## Mailboxes (R60, R61) -/

/-- MBOX_TO_MF. -/
def execMboxToMf (tf : Nat) (value : Word) (s : State) : Out :=
  let t := s.tf tf
  .next (if !s.dev.ready ∨ tf ≥ s.hif.numTf ∨ t.frozen then s
    else if t.toMfFull then s.setTf tf { t with toMfDrops := satAdd 8 t.toMfDrops 1 }
    else raise (s.setTf tf { t with toMf := value, toMfFull := true }) pgMbox 1)

/-- CH_FROM_MF (R61). A word for a TF that does not exist is ignored, and nothing is recorded (DESIGN CHOICE, log 131). -/
def execChFromMf (tf : Nat) (value : Word) (s : State) : Out :=
  let t := s.tf tf
  .next (if pageShut s 0x084 ∨ tf ≥ s.hif.numTf then s
    else if t.fromMfFull then s.setTf tf { t with fromMfDrops := satAdd 8 t.fromMfDrops 1 }
    else signal (s.setTf tf { t with fromMf := value, fromMfFull := true }) tf 8)

/-! ## Stopping and resetting a TF (R66, R69, R70, R75) -/

/-- A write of a per-TF register: it is ignored while READY is 0, and ignored and recorded where the TF does not exist
(R75; 16 R447). -/
def tfCommand (s : State) (tf : Nat) (f : State) : State :=
  if pageShut s pgHif ∨ tf ≥ 1024 then s else if tf ≥ s.hif.numTf then recordWerr s pgHif else f

/-- STOP is set: every RUNNING queue pair of the TF is held (R70). -/
def stopTf (s : State) (tf : Nat) : State := withdrawTf (s.setTf tf { s.tf tf with stop := true }) tf

/-- TF_STOP. -/
def execTfStop (tf : Nat) (s : State) : Out := .next (tfCommand s tf (stopTf s tf))

/-- TF_STOP_CLEAR. -/
def execTfStopClear (tf : Nat) (s : State) : Out :=
  .next (tfCommand s tf (s.setTf tf { s.tf tf with stop := false, quiesced := false }))

/-- Nothing of the TF is in flight (R70). -/
def tfDrained (s : State) (n : Nat) : Bool :=
  (List.range 8).all (fun q =>
    let x := s.qp n q
    x.reads.all (fun r => r.dropped || !r.issued) && x.fetched.isEmpty && x.live == 0 && x.old == 0) &&
  !(s.hif.cpls.any (fun c => c.fn == n)) && !(s.jobs.any (fun j => j.fn == n))

/-- TF_QUIESCED (R70). -/
def execTfQuiesced (tf : Nat) (s : State) : Out :=
  let t := s.tf tf
  .next (if tf < s.hif.numTf ∧ t.stop ∧ !t.quiesced ∧ tfDrained s tf then
    raise (s.setTf tf { t with quiesced := true }) pgHif 2 else s)

/-- Class 2 records of the partitions bound to a TF end (06 R185). -/
def endSession (s : State) (n : Nat) : State :=
  let mine := fun (p : Nat) => tblGet none s.bind p == some n
  tcDrop (dropLines s (fun k _ => mine (keyPart k) && keyCls k == 2)) (fun _ e => mine e.part && e.cls == 2)

/-- A queue pair without what it has fetched (R68). -/
def Qp.dropFetched (x : Qp) : Qp := { x with reads := dropReads x.reads, fetched := [] }

/-- A TF reset (R66): the queue reset of each queue pair is held while its RESET_BUSY is 1 (R65), and QP_CFG and the ring bases wait
with it (DEDUCED, log 19). What a frozen TF had fetched is never admitted (R68), a held reset or not. -/
def resetTf (s : State) (n : Nat) : State :=
  let thaw := (s.tf n).frozen
  let s1 := (List.range 8).foldl (fun a q =>
    askReset (if thaw then a.setQp n q (a.qp n q).dropFetched else a) n q false true) s
  let t := s1.tf n
  let s2 := s1.setTf n { t with
    frozen := false, gen := (t.gen + 1) % 256, resetting := true, toMf := 0, toMfFull := false, toMfDrops := 0, fromMf := 0
    fromMfFull := false, fromMfDrops := 0, msix := {} }
  let s3 := endSession s2 n
  if s3.hif.qctxBusy ≠ 0 ∧ s3.hif.qctxTf = n then { s3 with hif := { s3.hif with qctxBusy := 0, qctxResult := 4 } } else s3

/-- TF_RESET. -/
def execTfReset (tf : Nat) (s : State) : Out := .next (if tf < s.hif.numTf ∧ s.dev.ready then resetTf s tf else s)

/-- TF_RESET_DONE (R66). -/
def execTfResetDone (tf : Nat) (s : State) : Out :=
  let t := s.tf tf
  .next (if tf < s.hif.numTf ∧ t.resetting ∧ (List.range 8).all (fun q => (s.qp tf q).old == 0 && (s.qp tf q).heldReset.isNone) then
    raise (s.setTf tf { t with resetting := false }) pgHif 4 else s)

/-- Calls of functions that have ceased are marked: their completions will be discarded (R67). -/
def Call.kill (p : Nat → Bool) (k : Call) : Call := if p k.fn then { k with dead := true } else k

/-- Marks every call of the functions that satisfy `p`. -/
def killCalls (s : State) (p : Nat → Bool) : State :=
  { s with
    towers := s.towers.map (fun w => { w with ctxs := w.ctxs.map (fun x => { x with call := x.call.map (Call.kill p) }) })
    caller := { s.caller with
      queues := s.caller.queues.map (fun l => l.map (Call.kill p)), jobQ := s.caller.jobQ.map (Call.kill p) } }

/-- TF `n` ceases to exist: its queue pairs and registers return to reset, but for PRIO_CAP where it is locked (R75). -/
def ceaseTf (s : State) (n : Nat) : State :=
  let s1 := (List.range 8).foldl (fun a q =>
    let b := Sys2Proof.Machine.queueReset a n q
    b.setQp n q { old := (b.qp n q).old, reads := (b.qp n q).reads }) s
  let cap := (s1.tf n).cap
  let s2 := endSession (s1.setTf n (if (s1.head pgHif).lock.getLsbD 0 then { cap := cap } else {})) n
  let s2 := { s2 with hif := { s2.hif with aer := tblErase s2.hif.aer n } }
  if s2.hif.qctxBusy ≠ 0 ∧ s2.hif.qctxTf = n then { s2 with hif := { s2.hif with qctxBusy := 0, qctxResult := 4 } } else s2

/-- The TFs from `num` on cease to exist (R67, R75). -/
def ceaseFrom (s : State) (num : Nat) : State :=
  let gone := ((tfList s).filter (num ≤ ·))
  let s1 := gone.foldl ceaseTf s
  let s2 := killCalls s1 (fun f => !isMf f && decide (num ≤ f))
  { s2 with hif := { s2.hif with numTf := min s2.hif.numTf num } }

/-- TF_CEASE: NumVFs covers only the first `num` TFs from now on; 0 where VF Enable is cleared (R75). -/
def execTfCease (num : Nat) (s : State) : Out := .next (if num < s.hif.numTf then ceaseFrom s num else s)

/-- VF_ENABLE: VF Enable is set with NumVFs = `num` (R39, R67). NumVFs does not change while VF Enable is set. -/
def execVfEnable (num : Nat) (s : State) : Out :=
  .next (if s.hif.numTf = 0 ∧ num ≤ 1024 then { s with hif := { s.hif with numTf := num } } else s)

/-! ## Dirty logging (R71, R72) -/

/-- HARVEST. -/
def execDirtyHarvest (tf : Nat) (s : State) : Out :=
  let t := s.tf tf
  .next (tfCommand s tf (if t.dirtyEn ∧ t.flush.isNone then
    s.setTf tf { t with flush := some t.marks, marks := [], actB := !t.actB } else s))

/-- Flushes marked pages to a bitmap, for the MF (13 R374). -/
def flushMarks (s : State) (base : Nat) (pages_ : List Nat) : State :=
  ((pages_.map (· / 8)).dedup).foldl (fun a k =>
    let v := (List.range 8).foldl (fun n i => if pages_.contains (8 * k + i) then n + 2 ^ i else n) 0
    (hostWrite a mfNum (base + k) [BitVec.ofNat 8 v]).1) s

/-- HARVEST_DONE. -/
def execHarvestDone (tf : Nat) (s : State) : Out :=
  let t := s.tf tf
  match t.flush with
  | none => .next s
  | some l =>
    let s1 := flushMarks s (if t.actB then t.dirtyA else t.dirtyB) l
    .next (raise (s1.setTf tf { s1.tf tf with flush := none }) pgHif 3)

/-! ## QCTX (R73, R74) -/

/-- QCTX_CMD: SAVE (`cmd` 1) or RESTORE (`cmd` 2) begins. -/
def qctxCommand (s : State) (cmd : Nat) : State :=
  if pageShut s pgQctx then s
  else if s.hif.qctxBusy ≠ 0 then recordWerr s pgQctx
  else if cmd = 0 then s
  else { s with hif := { s.hif with qctxBusy := cmd } }

/-- SAVE. -/
def execQctxSave (s : State) : Out := .next (qctxCommand s 1)

/-- RESTORE. -/
def execQctxRestore (s : State) : Out := .next (qctxCommand s 2)

/-- The context image of a queue pair. -/
def qctxImageOf (x : Qp) : Bytes :=
  leBytes 8 x.sqBase ++ leBytes 8 x.cqBase ++ leBytes 1 x.sqK ++ leBytes 1 x.cqK ++ leBytes 1 x.prio ++ leBytes 1 x.gen ++
    leBytes 2 x.sqHead ++ leBytes 2 x.sqTail ++ leBytes 2 x.cqTail ++ leBytes 2 x.cqHead ++
    leBytes 1 (flag x.phase + 2 * flag x.enable) ++ leBytes 1 x.coalLog ++ leBytes 1 x.coalTime ++ zeros 17

/-- The image fails the checks of RESTORE (R74). -/
def qctxBad (b : Bytes) : Bool :=
  let sk := byteAt b 16
  let ck := byteAt b 17
  let kOk := fun (k : Nat) => decide (4 ≤ k) && decide (k ≤ 16)
  !kOk sk || !kOk ck || leAt b 0 8 % 4096 != 0 || leAt b 8 8 % 4096 != 0 || decide (leAt b 20 2 ≥ 2 ^ sk) ||
    decide (leAt b 22 2 ≥ 2 ^ sk) || decide (leAt b 24 2 ≥ 2 ^ ck) || decide (leAt b 26 2 ≥ 2 ^ ck) || !allZero (b.drop 31)

/-- A queue pair with the fields of an image: of bytes 18, 28 and 29 the bits that name a field, whatever the others hold (DESIGN
CHOICE, log 95: R74 makes BAD_IMAGE of reserved bytes, and names neither the reserved bits of a byte nor a COAL_LOG above 8). -/
def qctxApply (x : Qp) (b : Bytes) : Qp :=
  { x with
    sqBase := leAt b 0 8, cqBase := leAt b 8 8, sqK := byteAt b 16, cqK := byteAt b 17, prio := byteAt b 18 % 4
    gen := byteAt b 19, sqHead := leAt b 20 2, sqTail := leAt b 22 2, cqTail := leAt b 24 2, cqHead := leAt b 26 2
    phase := bitOf (byteAt b 28) 0, enable := bitOf (byteAt b 28) 1, coalLog := byteAt b 29 % 16, coalTime := byteAt b 30 }

/-- QCTX_COMMAND_DONE: the command in progress has its effect on the pair and with the image as QCTX_SEL and QCTX_IMAGE name them
then, and RESULT is set (DESIGN CHOICE, log 94: R73 and R74 let both be written while BUSY and give no other moment). RESULT is
NOT_QUIESCED for a TF that does not exist, and for a RESTORE without STOP = 1 (DESIGN CHOICE, log 94: R73 states the requirement and
no RESULT for it). -/
def execQctxCommandDone (s : State) : Out :=
  let n := s.hif.qctxTf
  let q := s.hif.qctxQ
  let t := s.tf n
  let done := fun (a : State) (r : Nat) => { a with hif := { a.hif with qctxBusy := 0, qctxResult := r } }
  .next (match s.hif.qctxBusy with
    | 0 => s
    | 1 =>
      if n < s.hif.numTf ∧ t.quiesced then
        let s1 := done s 0
        { s1 with hif := { s1.hif with qctxImage := qctxImageOf (s.qp n q) } }
      else done s 1
    | _ =>
      if !(n < s.hif.numTf ∧ t.stop) then done s 1
      else if (s.qp n q).enable then done s 2
      else if qctxBad s.hif.qctxImage then done s 3
      else done (s.setQp n q (qctxApply (s.qp n q) s.hif.qctxImage)) 0)

/-! ## The link (R39, R75) -/

/-- LINK_CHANGE: rates and widths that HIF_LINK_STATUS never reports are no occasion, nor is a lane reversal other than that of TN[9]
(16 R452); a link that is down may show width 0, its value
after reset. A link that has come up shows that PE_PERST_N is released. -/
def execLinkChange (speed width : Nat) (reversed : Bool) (s : State) : Out :=
  let ok := (speed == 0 || speed == 3 || speed == 4 || speed == 5) &&
    (width == 1 || width == 2 || width == 4 || width == 8 || (speed == 0 && width == 0)) && reversed == s.hif.reversed
  let s1 := { s with
    hif := { s.hif with speed := speed, width := width }
    dev := { s.dev with perst := s.dev.perst && speed == 0 } }
  .next (if !ok then s
    else if s.hif.speed = speed ∧ s.hif.width = width then s1 else raise s1 pgHif 5)

end Sys2Proof.Machine
end

