-- ==== Sys2Proof/Machine/PinFam.lean ====
section
/-! DEFINITION. The figures of families 0x01 and 0x02 (04 R107 to R142). Multi-byte fields are big-endian (R113). -/

namespace Sys2Proof.Machine

/-! ## Formats and fields (04 R109 to R112, R121) -/

/-- A FMT value that R109 defines. -/
def fmtOk (f : Nat) : Bool := f == 0 || f == 1 || f == 3 || f == 4

/-- Twenty nibbles from byte `off`. -/
def panNibs (d : Bytes) (off : Nat) : List Nat := nibbles (sub d off 10)

/-- The digits of the PAN at `off`: none where it is absent. -/
def panDigits (d : Bytes) (off : Nat) : List Nat := (panNibs d off).takeWhile (· < 10)

/-- R115 check 1: 12 to 19 digits and then 0xF only, or all 0xF. -/
def panOk (d : Bytes) (off : Nat) : Bool :=
  let n := (panDigits d off).length
  ((panNibs d off).drop n).all (· == 15) && (n == 0 || (decide (12 ≤ n) && decide (n ≤ 19)))

/-- The PAN field of formats 0 and 3: 16 nibbles (R111). -/
def panField0 (pan : List Nat) : List Nat :=
  let p := pan.dropLast
  let q := p.drop (p.length - 12)
  List.replicate (16 - q.length) 0 ++ q

/-- The PAN field of format 4: 32 nibbles (R111). -/
def panField4 (pan : List Nat) : List Nat := ((pan.length - 12) :: pan ++ List.replicate 32 0).take 32

/-- The block of a format. -/
def fmtBlock (f : Nat) : Nat := if f = 4 then 16 else 8

/-- The clear PIN field in a block: its nibbles (R111). -/
def pinRecover (k : KeyRec) (f : Nat) (pan : List Nat) (b : Bytes) : List Nat :=
  if f = 4 then nibbles (aesDec k.material (xorB (aesDec k.material (b.take 16)) (packNibbles (panField4 pan))))
  else
    let x := tdesDec k.material (b.take 8)
    nibbles (if f = 1 then x else xorB x (packNibbles (panField0 pan)))

/-- The block of a clear PIN field (R111). -/
def pinEncipher (k : KeyRec) (f : Nat) (pan : List Nat) (nibs : List Nat) : Bytes :=
  let x := packNibbles nibs
  if f = 4 then aesEnc k.material (xorB (aesEnc k.material x) (packNibbles (panField4 pan)))
  else tdesEnc k.material (if f = 1 then x else xorB x (packNibbles (panField0 pan)))

/-- PIN length nibble. -/
def pinLen (nibs : List Nat) : Nat := nibs.getD 1 0

/-- PIN digits of a clear field. -/
def pinDigits (nibs : List Nat) : List Nat := (nibs.drop 2).take (pinLen nibs)

/-- The PIN field check (R112). -/
def pinFieldOk (f : Nat) (nibs : List Nat) : Bool :=
  let n := pinLen nibs
  let fill := (nibs.drop (2 + n)).take (14 - n)
  nibs.getD 0 15 == f && decide (4 ≤ n) && decide (n ≤ 12) && (pinDigits nibs).all (· < 10) &&
    (if f = 0 then fill.all (· == 15) else if f = 3 then fill.all (10 ≤ ·) else if f = 4 then fill.all (· == 10) else true)

/-- Bytes that the pad step draws for a destination and a PIN length (R121). PIN_FROM_DUKPT draws before the length is checked; from a
length nibble above 12 the same formula is used, and none are drawn from 14 on (DESIGN CHOICE, log 108: R139 does not say). -/
def padDraw (f n : Nat) : Nat := if f = 0 then 0 else if f = 4 then 8 else ceilDiv (14 - n) 2

/-- The new clear PIN field (R121). -/
def pinEncode (f : Nat) (digits : List Nat) (drawn : Bytes) : List Nat :=
  let n := digits.length
  let v := nibbles drawn
  let fill := (List.range (14 - n)).map (fun i =>
    if f = 0 then 15 else if f = 4 then 10 else if f = 1 then v.getD i 0 else 10 + v.getD i 0 % 6)
  (f :: n :: digits ++ fill) ++ (if f = 4 then (v ++ List.replicate 16 0).take 16 else [])

/-- Source recovery or destination encipherment in an 8-cycle slot (R118, R122). -/
def pinTime (f : Nat) : Nat := if f = 4 then 17 else 14

/-- The translation needs PIN_DOWNGRADE (R120). -/
def downgrade (src dst : Nat) : Bool := (dst == 1 && src != 1) || (src == 4 && dst != 4)

/-! ## Keys (04 R107, R108, R114) -/

/-- An algorithm that deciphers a format. -/
def fmtAlg (f a : Nat) : Bool := if f = 4 then isAes a else isTdes a

/-- An algorithm that enciphers a format: no two-key TDES (R108). -/
def fmtAlgE (f a : Nat) : Bool := if f = 4 then isAes a else a == 2

/-- Mode is one of two. -/
def modeIn (k : KeyRec) (a b : String) : Bool := k.mode == chr a || k.mode == chr b

/-- HANDLE0 of the PIN block opcodes. -/
def pinSrcKey (k : KeyRec) (f : Nat) : Bool := k.usage == usageOf "P0" && modeIn k "B" "D" && fmtAlg f k.alg

/-- HANDLE1 of the translating opcodes. -/
def pinDstKey (k : KeyRec) (f : Nat) : Bool := k.usage == usageOf "P0" && modeIn k "B" "E" && fmtAlgE f k.alg

/-- A base derivation key or an initial key of a DUKPT type (R114). A B1 key of TDES type is two-key TDES, as DUKPT_DERIVE_INITIAL makes
it: three-key TDES is refused KEY_USAGE (DESIGN CHOICE, log 109: R190 has the row, and R114 does not say). -/
def dukptKey (typ : Nat) (k : KeyRec) (b1 : Bool) : Bool :=
  k.mode == chr "X" &&
    ((k.usage == usageOf "B0" && (if typ = 1 then isTdes k.alg else isAes k.alg && decide (typ + 1 ≤ k.alg))) ||
      (b1 && k.usage == usageOf "B1" && (if typ = 1 then k.alg == 1 else k.alg == typ + 1)))

/-- Check 4 of R194 for families 0x01 and 0x02. -/
def pinUse (op : Nat) (d : Bytes) (ks : List KeyRec) (i : Nat) : Bool :=
  let k := ks.getD i {}
  let src := par d 64
  let v := fun (u : String) (m : String) => k.usage == usageOf u && modeIn k "C" m
  match op, i with
  | 0x0101, 0 => pinSrcKey k src && (!downgrade src (par d 65) || bitOf k.flags 0)
  | 0x0101, _ => pinDstKey k (par d 65)
  | 0x0102, 1 => v "V1" "V" && isTdes k.alg
  | 0x0103, 1 => v "V2" "V" && isTdes k.alg
  | 0x0104, 1 => v "V1" "G" && k.alg == 2
  | 0x0105, 1 => v "V2" "G" && k.alg == 2
  | 0x0106, 0 => k.usage == usageOf "P0" && modeIn k "B" "D" && (isTdes k.alg || isAes k.alg)
  | 0x0106, _ => (k.usage == usageOf "V1" || k.usage == usageOf "V2") && k.mode == chr "C" && k.alg == 2
  | 0x0107, 0 => dukptKey (par d 66) k true && (!downgrade src (par d 65) || bitOf k.flags 0)
  | 0x0107, _ => pinDstKey k (par d 65)
  | 0x0201, _ => dukptKey (par d 64) k false
  | 0x0202, _ => dukptKey (par d 64) k true
  | 0x0203, _ => dukptKey (par d 64) k true
  | _, _ => pinSrcKey k src

/-! ## DUKPT (04 R132 to R136) -/

/-- Bytes of a KSN. -/
def ksnLen (typ : Nat) : Nat := if typ = 1 then 10 else 12

/-- The transaction counter of a KSN (R132). -/
def ksnCounter (typ : Nat) (ksn : Bytes) : Nat := if typ = 1 then beVal (ksn.take 10) % 2 ^ 21 else beAt ksn 8 4

/-- The KSN with a zero counter. -/
def ksnBase (typ : Nat) (ksn : Bytes) : Bytes :=
  if typ = 1 then beBytes 10 (beVal (ksn.take 10) / 2 ^ 21 * 2 ^ 21) else ksn.take 8 ++ zeros 4

/-- The one bits of a counter. -/
def counterOnes (v : Nat) : Nat := ((List.range 32).filter (fun i => bitOf v i)).length

/-- The KSN passes R133 for a key. -/
def ksnOk (typ : Nat) (k : KeyRec) (ksn : Bytes) : Bool :=
  let c := ksnCounter typ ksn
  c != 0 && decide (counterOnes c ≤ if typ = 1 then 10 else 16) &&
    (k.usage != usageOf "B1" || k.ext.take (ksnLen typ) == ksnBase typ ksn)

/-- The mask of the right half, or of the whole key, in TDES DUKPT (ANSI X9.24-1, which R134 names; PRESUMED, log 5). -/
def dukMask : Bytes := [0xC0, 0xC0, 0xC0, 0xC0, 0, 0, 0, 0, 0xC0, 0xC0, 0xC0, 0xC0, 0, 0, 0, 0, 0xC0, 0xC0, 0xC0, 0xC0, 0, 0, 0, 0]

/-- The TDES initial key (X9.24-1). -/
def tdesInitial (bdk ksn : Bytes) : Bytes :=
  let x := (ksnBase 1 ksn).take 8
  tdesEnc bdk x ++ tdesEnc (xorB bdk dukMask) x

/-- The non-reversible key generation of X9.24-1. -/
def tdesNext (key r : Bytes) : Bytes :=
  let half := fun (k : Bytes) => xorB (desEnc (k.take 8) (xorB r (k.drop 8))) (k.drop 8)
  half (xorB key dukMask) ++ half key

/-- The chain of R135 over the counter's set bits, from the most significant down. -/
def tdesChain (ksn : Bytes) (c : Nat) (ik : Bytes) : Bytes :=
  let base := beVal ((ksnBase 1 ksn).drop 2)
  ((List.range 21).reverse.foldl (fun (a : Bytes × Nat) i =>
    if bitOf c i then (tdesNext a.1 (beBytes 8 (base + a.2 + 2 ^ i)), a.2 + 2 ^ i) else a) (ik, 0)).1

/-- Key bits of an AES DUKPT type. -/
def dukBits (typ : Nat) : Nat := if typ = 2 then 128 else if typ = 3 then 192 else 256

/-- A key derivation of X9.24-3: key usage indicator and the last 8 bytes of the derivation data (PRESUMED, log 5). -/
def aesDukDerive (key : Bytes) (typ ind : Nat) (tail : Bytes) : Bytes :=
  let blk := fun (i : Nat) => aesEnc key (([0x01, BitVec.ofNat 8 i] : Bytes) ++ beBytes 2 ind ++ beBytes 2 typ ++
    beBytes 2 (dukBits typ) ++ tail)
  (blk 1 ++ blk 2).take (dukBits typ / 8)

/-- The chain of R135 for an AES type. -/
def aesChain (typ : Nat) (ksn : Bytes) (c : Nat) (ik : Bytes) : Bytes :=
  ((List.range 32).reverse.foldl (fun (a : Bytes × Nat) i =>
    if bitOf c i then (aesDukDerive a.1 typ 0x8000 (sub ksn 4 4 ++ beBytes 4 (a.2 + 2 ^ i)), a.2 + 2 ^ i) else a) (ik, 0)).1

/-- The initial key of a base key (R134). -/
def dukInitial (typ : Nat) (bdk ksn : Bytes) : Bytes :=
  if typ = 1 then tdesInitial bdk ksn else aesDukDerive bdk typ 0x8001 (ksn.take 8)

/-- A variant mask of X9.24-1, repeated over both halves: `i` is the byte that holds 0xFF. -/
def dukVariant (key : Bytes) (i : Nat) : Bytes :=
  let h := (zeros 8).set i 0xFF
  xorB key (h ++ h)

/-- The working key (R136). `use`: 0 PIN, 1 data, 2 MAC; `var`: TDES variant or AES indicator. -/
def dukWorking (typ use var : Nat) (ksn : Bytes) (key : Bytes) : Bytes :=
  if typ = 1 then
    match use with
    | 0 => dukVariant key 7
    | 1 =>
      let v := dukVariant key (if var = 0 then 5 else 3)
      tdesEnc v (v.take 8) ++ tdesEnc v (v.drop 8)
    | _ => dukVariant key (if var = 0 then 6 else 4)
  else aesDukDerive key typ (if use = 0 then 0x1000 else var) (sub ksn 4 8)

/-- The working key of a call from the key in HANDLE0. -/
def dukKey (typ use var : Nat) (k : KeyRec) (ksn : Bytes) : Bytes :=
  let ik := if k.usage = usageOf "B0" then dukInitial typ k.material ksn else k.material
  let c := ksnCounter typ ksn
  dukWorking typ use var ksn (if typ = 1 then tdesChain ksn c ik else aesChain typ ksn c ik)

/-- I of R139: cycles of the initial key. -/
def dukI (typ : Nat) (b0 : Bool) (alg : Nat) : Nat := if !b0 then 0 else if typ = 1 then 13 else laneTime alg

/-- s of R135. -/
def dukS (typ : Nat) : Nat := if typ = 1 then 6 else laneTime (typ + 1)

/-- w of R136. -/
def dukW (typ use : Nat) : Nat := if typ = 1 then (if use = 1 then 14 else 1) else laneTime (typ + 1)

/-- C(n) of R142 and R209. -/
def cmacBody (b n : Nat) : Nat := if n ≥ 2 then b * n + 2 else 2 * b + 2

/-- Path cycles of DUKPT_DATA_DECRYPT and DUKPT_MAC_VERIFY (R142). -/
def dukPath (op : Nat) (d : Bytes) (b0 : Bool) (alg : Nat) : Nat :=
  let typ := par d 64
  let b := if typ = 1 then 8 else 16
  let n := ceilDiv (inLenOf d) b
  let pre := 34 + dukI typ b0 alg + 16 * dukS typ
  let t := laneTime (if typ = 1 then 1 else typ + 1)
  if op = 0x0202 then pre + dukW typ 1 + n * t + 13 + (if formOf d = 1 then 1 else 0)
  else if typ = 1 then pre + 1 + 5 * (n - 1) + 13 + 1 + 13
  else pre + dukW typ 2 + cmacBody t n + 1 + 13

/-! ## Layouts (04 R113, R123, R126, R128, R138, R140, R141) -/

/-- Layouts of families 0x01 and 0x02. -/
def pinInfo (op : Nat) (d : Bytes) : OpInfo :=
  let src := par d 64
  let bad := !fmtOk src || !zeroIn d 78 80 || (src != 4 && !zeroIn d 88 96)
  let typ := par d 64
  let typBad := typ == 0 || decide (typ > 4)
  let data : OpInfo :=
    { handles := 1, forms := [1, 2], pEnd := 96, blocks := if formOf d = 2 then 2 else 0
      job := decide (dukPath op d true 5 > jobLimit) }
  match op with
  | 0x0101 => { handles := 2, pEnd := 96, bad := bad || !fmtOk (par d 65) || !zeroIn d 66 68 }
  | 0x0102 => { handles := 2, pEnd := 118, bad := bad || !zeroIn d 66 68 }
  | 0x0103 => { handles := 2, pEnd := 98, bad := bad || decide (par d 65 > 9) || !zeroIn d 66 68 }
  | 0x0104 => { handles := 2, pEnd := 112, bad := bad || !zeroIn d 65 68 }
  | 0x0105 => { handles := 2, pEnd := 96, bad := bad || decide (par d 65 > 9) || !zeroIn d 66 68 }
  | 0x0106 => { handles := 2, pEnd := 128 }
  | 0x0107 =>
    { handles := 2, pEnd := 108
      bad := bad || !fmtOk (par d 65) || par d 66 == 0 || decide (par d 66 > 4) || par d 67 != 0 ||
        (par d 66 == 1 && !zeroIn d 106 108) }
  | 0x0201 =>
    { handles := 1, pEnd := 80
      bad := typBad || decide (par d 65 > 1) || !zeroIn d 66 68 || (typ == 1 && !zeroIn d 78 80) }
  | 0x0202 =>
    { data with
      bad := typBad || decide (par d 65 > 1) || (typ == 1 && !zeroIn d 78 80) ||
        (if typ = 1 then decide (par d 66 > 1) || par d 67 != 0
         else !(decide (0x3000 ≤ beAt d 66 2) && decide (beAt d 66 2 ≤ 0x3002))) ||
        (if par d 65 = 1 then !zeroIn d 80 96 else typ == 1 && !zeroIn d 88 96)
      lenBad := inLenOf d == 0 || inLenOf d % (if typ = 1 then 8 else 16) != 0
      need := inLenOf d }
  | 0x0203 =>
    { data with
      bad := typBad || (typ == 1 && !zeroIn d 78 80) ||
        (if typ = 1 then decide (par d 66 > 1) || par d 67 != 0
         else !(decide (0x2000 ≤ beAt d 66 2) && decide (beAt d 66 2 ≤ 0x2002)))
      lenBad := inLenOf d == 0 }
  | _ => {}

/-! ## Parameter checks (04 R115) -/

/-- Digits and then 0xF, `n` digits of `m` positions. -/
def bcdOk (nibs : List Nat) (n : Nat) : Bool := (nibs.take n).all (· < 10) && (nibs.drop n).all (· == 15)

/-- DECTAB is valid (R124). -/
def dectabOk (t : List Nat) : Bool := t.all (· < 10) && (List.range 10).all (fun x => t.contains x)

/-- Digits of an offset in its 12 positions. -/
def offDigits (b : Bytes) : List Nat := (nibbles b).takeWhile (· < 10)

/-- The parameter checks of families 0x01 and 0x02: every failure is BAD_PARAMETER, so their order shows nowhere. -/
def pinParamsOk (op : Nat) (d : Bytes) (ks : List KeyRec) : Bool :=
  let src := par d 64
  let pan := !(panDigits d 68).isEmpty
  let bound := fun (f : Nat) => f != 1
  let k0 := ks.getD 0 {}
  let k1 := ks.getD 1 {}
  let one := panOk d 68 && (pan || !bound src)
  match op with
  | 0x0101 => panOk d 68 && (pan || (!bound src && !bound (par d 65)))
  | 0x0102 =>
    let n := par d 65
    one && decide (4 ≤ n) && decide (n ≤ 12) && bcdOk (nibbles (sub d 112 6)) n && dectabOk (nibbles (sub d 104 8))
  | 0x0103 => one && pan && bcdOk (nibbles (sub d 96 2)) 4
  | 0x0104 => one && dectabOk (nibbles (sub d 104 8))
  | 0x0105 => one && pan
  | 0x0106 =>
    let v1 := k1.usage == usageOf "V1"
    let p := !(panDigits d 64).isEmpty
    let off := sub d 74 6
    let n := (offDigits off).length
    panOk d 64 && (p || (v1 && isTdes k0.alg)) && (isAes k0.alg || (zeroIn d 88 96 && zeroIn d 104 112)) &&
      (if v1 then decide (4 ≤ n) && decide (n ≤ 12) && bcdOk (nibbles off) n && dectabOk (nibbles (sub d 120 8))
       else bcdOk (nibbles (sub d 74 2)) 4 && decide (par d 76 < 10) && zeroIn d 77 80 && zeroIn d 112 128)
  | 0x0107 =>
    panOk d 68 && (pan || (!bound src && !bound (par d 65))) && (if par d 66 = 1 then src != 4 else src == 4) &&
      ksnOk (par d 66) k0 (sub d 96 12)
  | 0x0201 => ksnCounter (par d 64) (sub d 68 12) == 0
  | 0x0202 => ksnOk (par d 64) k0 (sub d 68 12)
  | 0x0203 =>
    let n := par d 65
    decide (4 ≤ n) && decide (n ≤ if par d 64 = 1 then 8 else 16) && zeroIn d (80 + n) 96 && ksnOk (par d 64) k0 (sub d 68 12)
  | _ => true

/-- Needs of families 0x01 and 0x02 after list and blob. A destination's pad is drawn once the PIN length is known. `space` is the record
space that DUKPT_DERIVE_INITIAL has claimed (R140). -/
def pinNeeds (s : State) (op : Nat) (d : Bytes) (ks : List KeyRec) (space : Option (Nat × Nat)) : List Need :=
  let k0 := ks.getD 0 {}
  let cfg := if isAes k0.alg then 1 else 2
  let p := partOf d
  match op with
  | 0x0107 => [.lanes false 2 cfg]
  | 0x0201 =>
    createNeeds s p (par d 65) ((space.map (·.2)).getD (targetIdx s p (par d 65) recAny 2)) 2 ++ [.lanes false 2 cfg]
  | 0x0202 => [.lanes false 2 cfg]
  | 0x0203 => [.lanes false 2 cfg]
  | _ => [.lanes false 1 cfg]

/-! ## PIN figures -/

/-- A PIN field check fails in its step (R116). -/
def pinFail (s : State) (t c table : Nat) : State := finishCall s t c stPinFormat table 0 []

/-- Asks for the pad of `n` bytes; `path` are the path cycles of a draw that cannot be served (R116). -/
def askPad (s : State) (t c n path : Nat) : State :=
  let x := s.ctx t c
  setNeeds (s.setCtx t c { x with work := { x.work with vals := [path], drawn := [] } }) t c [.draw n]

/-- The context's cipher lane is set up anew, for another algorithm and its key (R119). -/
def reconfigure (s : State) (t c alg : Nat) (key : Bytes) : State :=
  let w := s.tower t
  s.setTower t { w with clanes := w.clanes.map (fun l =>
    if l.owner = some c then { l with config := cfgOfAlg alg, regs := { key := key } } else l) }

/-- PIN_TRANSLATE (R120 to R122): recovery and check, then the pad, then encipherment. -/
def pinTranslate (t c : Nat) (s : State) : State :=
  let d := workDesc s t c
  let src := par d 64
  let dst := par d 65
  let pan := panDigits d 68
  let nibs := pinRecover (keyOf s t c 0) src pan (sub d 80 16)
  let mid := 34 + pinTime src + 3
  let pad := mid + (if src = dst then 0 else 1) + (if (src = 4) = (dst = 4) then 0 else 8) + 1
  let n := padDraw dst (pinLen nibs)
  if !pinFieldOk src nibs then pinFail s t c (mid + 13)
  else if (drawnOf s t c).length < n then
    askPad (if (src = 4) = (dst = 4) then s else reconfigure s t c (keyOf s t c 1).alg (keyOf s t c 1).material) t c n (pad + 13)
  else
    let out := pinEncipher (keyOf s t c 1) dst pan (pinEncode dst (pinDigits nibs) (drawnOf s t c))
    finishCall s t c stOk (pad + pinTime dst + 14) 0 out

/-- The natural PIN digits of the offset method (R125). -/
def naturalPin (k : KeyRec) (vd dectab : Bytes) : List Nat :=
  ((nibbles (tdesEnc k.material vd)).take 12).map (fun x => (nibbles dectab).getD x 0)

/-- The PIN that an offset stands for: every digit of the 12 positions. -/
def offsetPin (nat off : List Nat) : List Nat := List.zipWith (fun a b => (a + b) % 10) nat off

/-- The offset of a PIN (R125): its digits. -/
def pinOffset (nat digits : List Nat) : List Nat := List.zipWith (fun p n => (p + 10 - n) % 10) digits nat

/-- Digits in the OFFSET encoding: 6 bytes. -/
def offBytes (l : List Nat) : Bytes := packNibbles ((l ++ List.replicate 12 15).take 12)

/-- The four PVV digits (R127). -/
def pvvOf (k : KeyRec) (pan : List Nat) (pvki : Nat) (digits : List Nat) : List Nat :=
  let p := pan.dropLast
  let tsp := p.drop (p.length - 11) ++ [pvki] ++ digits.take 4
  let r := nibbles (tdesEnc k.material (packNibbles tsp))
  (r.filter (· < 10) ++ (r.filter (10 ≤ ·)).map (· - 10)).take 4

/-- What a single-block PIN figure adds to its path for a format 4 source (R131). -/
def fmt4Extra (f : Nat) : Nat := if f = 4 then 11 else 0

/-- A figure over one recovered PIN block: the PIN field check, then `f` of the digits. -/
def pinSingle (s : State) (t c : Nat) (f : List Nat → State) : State :=
  let d := workDesc s t c
  let src := par d 64
  let nibs := pinRecover (keyOf s t c 0) src (panDigits d 68) (sub d 80 16)
  if pinFieldOk src nibs then f (pinDigits nibs) else pinFail s t c (34 + pinTime src + 3 + 13)

/-- PIN_VERIFY_OFFSET (R123, R125). -/
def pinVerifyOffset (t c : Nat) (s : State) : State :=
  let d := workDesc s t c
  pinSingle s t c (fun pin =>
    let nat := naturalPin (keyOf s t c 1) (sub d 96 8) (sub d 104 8)
    let want := (offsetPin nat (nibbles (sub d 112 6))).take (par d 65)
    finishCall s t c (if pin = want then stOk else stVerifyFail) (108 + fmt4Extra (par d 64)) 0 [])

/-- PIN_GENERATE_OFFSET (R123, R125). -/
def pinGenerateOffset (t c : Nat) (s : State) : State :=
  let d := workDesc s t c
  pinSingle s t c (fun pin =>
    let nat := naturalPin (keyOf s t c 1) (sub d 96 8) (sub d 104 8)
    finishCall s t c stOk (95 + fmt4Extra (par d 64)) 0 (offBytes (pinOffset nat pin) ++ leBytes 1 pin.length))

/-- PIN_VERIFY_PVV (R126, R127). -/
def pinVerifyPvv (t c : Nat) (s : State) : State :=
  let d := workDesc s t c
  pinSingle s t c (fun pin =>
    let v := pvvOf (keyOf s t c 1) (panDigits d 68) (par d 65) pin
    finishCall s t c (if v = nibbles (sub d 96 2) then stOk else stVerifyFail) (84 + fmt4Extra (par d 64)) 0 [])

/-- PIN_GENERATE_PVV (R126, R127). -/
def pinGeneratePvv (t c : Nat) (s : State) : State :=
  let d := workDesc s t c
  pinSingle s t c (fun pin =>
    let v := pvvOf (keyOf s t c 1) (panDigits d 68) (par d 65) pin
    finishCall s t c stOk (83 + fmt4Extra (par d 64)) 0 (packNibbles v))

/-- The format that a block of PIN_CHANGE shows: 4 under AES, else the control nibble (R129). -/
def changeFmt (k : KeyRec) (b : Bytes) : Nat :=
  if isAes k.alg then 4 else (nibbles (tdesDec k.material (b.take 8))).getD 0 15

/-- A block of PIN_CHANGE passes its check: its format is allowed (under a TDES key 0, 1 or 3), bound formats have a PAN, and the field
is well formed (R112, R129; without a PAN a bound block fails, DESIGN CHOICE, log 17). -/
def changeOk (k : KeyRec) (pan : List Nat) (b : Bytes) : Bool :=
  let f := changeFmt k b
  fmtOk f && (isAes k.alg || f != 4) && (f == 1 || !pan.isEmpty) && pinFieldOk f (pinRecover k f pan b)

/-- PIN_CHANGE (R128 to R130). -/
def pinChange (t c : Nat) (s : State) : State :=
  let d := workDesc s t c
  let k := keyOf s t c 0
  let v := keyOf s t c 1
  let pan := panDigits d 64
  let o := sub d 80 16
  let n := sub d 96 16
  let four := isAes k.alg
  let digits := fun (b : Bytes) => pinDigits (pinRecover k (changeFmt k b) pan b)
  if !changeOk k pan o then pinFail s t c (if four then 67 else 64)
  else if changeFmt k n ≠ changeFmt k o ∨ !changeOk k pan n then pinFail s t c (if four then 87 else 81)
  else if v.usage = usageOf "V1" then
    let nat := naturalPin v (sub d 112 8) (sub d 120 8)
    let off := offDigits (sub d 74 6)
    let ok := digits o == (offsetPin nat (nibbles (sub d 74 6))).take off.length
    let res := offBytes (pinOffset nat (digits n)) ++ leBytes 1 (digits n).length
    finishCall s t c (if ok then stOk else stVerifyFail) (if four then 151 else 137) 0 (if ok then res else [])
  else
    let ok := pvvOf v pan (par d 76) (digits o) == nibbles (sub d 74 2)
    let res := packNibbles (pvvOf v pan (par d 76) (digits n))
    finishCall s t c (if ok then stOk else stVerifyFail) (if four then 134 else 120) 0 (if ok then res else [])

/-- PIN_FROM_DUKPT (R138, R139): the pad is drawn before the PIN field check ends. -/
def pinFromDukpt (t c : Nat) (s : State) : State :=
  let d := workDesc s t c
  let src := par d 64
  let dst := par d 65
  let typ := par d 66
  let k := keyOf s t c 0
  let z := keyOf s t c 1
  let ksn := sub d 96 12
  let pan := panDigits d 68
  let w : KeyRec := { material := dukKey typ 0 0 k ksn }
  let nibs := pinRecover w src pan (sub d 80 16)
  let a := 34 + dukI typ (k.usage == usageOf "B0") k.alg + 16 * dukS typ + dukW typ 0
  let dd := a + (if typ = 1 then 14 else 2 * laneTime (typ + 1) + 1)
  let n := padDraw dst (pinLen nibs)
  if (drawnOf s t c).length < n then askPad s t c n (dd + 13)
  else if !pinFieldOk src nibs then pinFail s t c (dd + 3 + 13)
  else
    let x := if (typ = 1) = (dst ≠ 4) then 0 else 8
    let e := if dst = 4 then 2 * laneTime z.alg + 1 else 14
    finishCall s t c stOk (dd + x + e + 14) 0 (pinEncipher z dst pan (pinEncode dst (pinDigits nibs) (drawnOf s t c)))

/-- DUKPT_DERIVE_INITIAL (R140). -/
def dukptDeriveInitial (t c : Nat) (s : State) : State :=
  let d := workDesc s t c
  let typ := par d 64
  let k := keyOf s t c 0
  let alg := if typ = 1 then 1 else typ + 1
  let ksn := sub d 68 12
  let m := dukInitial typ k.material ksn
  let r : KeyRec :=
    { format := 1, alg := alg, usage := usageOf "B1", mode := chr "X", exportC := k.exportC, lines := 2,
      notBefore := k.notBefore, notAfter := k.notAfter, kcv := kcvSym alg m, keylen := m.length,
      ext := fit 16 (ksnBase typ ksn), material := m }
  createRecord s t c { part := partOf d, cls := par d 65, named := recAny, body := r }
    (34 + dukI typ true k.alg + kcvCycles alg + 8 + 14) 0 [] [] createResults

/-- The output of DUKPT_DATA_DECRYPT over whole blocks of input. -/
def dukDecrypt (d : Bytes) (k : KeyRec) (b : Bytes) : Bytes :=
  let typ := par d 64
  let w := dukKey typ 1 (if typ = 1 then par d 66 else beAt d 66 2) k (sub d 68 12)
  let c := if typ = 1 then tdesC w else aesC w
  if par d 65 = 1 then ecbDec c b else cbcDec c (sub d 80 c.n) b

/-- DUKPT_DATA_DECRYPT (R141, R142). -/
def dukptDataDecrypt (t c : Nat) (s : State) : State :=
  let d := workDesc s t c
  let k := keyOf s t c 0
  let table := dukPath 0x0202 d (k.usage == usageOf "B0") k.alg
  let out := dukDecrypt d k (s.ctx t c).work.input
  if formOf d = 1 then finishCall s t c stOk table 0 out
  else
    let (s1, ok) := writeOut s t c (out.drop (s.ctx t c).work.outLen)
    if ok then finishCall s1 t c stOk table 0 [] else s1

/-- DUKPT_MAC_VERIFY (R141, R142). -/
def dukptMacVerify (t c : Nat) (s : State) : State :=
  let d := workDesc s t c
  let k := keyOf s t c 0
  let typ := par d 64
  let w := dukKey typ 2 (if typ = 1 then par d 66 else beAt d 66 2) k (sub d 68 12)
  let b := (s.ctx t c).work.input
  let m := if typ = 1 then macAlg3 w (padM1 8 b) else cmac (aesC w) b
  let ok := m.take (par d 65) == sub d 80 (par d 65)
  finishCall s t c (if ok then stOk else stVerifyFail) (dukPath 0x0203 d (k.usage == usageOf "B0") k.alg) 0 []

/-! ## The rows -/

/-- PIN_TRANSLATE. -/
def execPinTranslate (tower ctx : Nat) (fault : FigFault) (s : State) : Out := .next (runFigure s tower ctx 0x0101 fault (pinTranslate tower ctx))

/-- PIN_VERIFY_OFFSET. -/
def execPinVerifyOffset (tower ctx : Nat) (fault : FigFault) (s : State) : Out := .next (runFigure s tower ctx 0x0102 fault (pinVerifyOffset tower ctx))

/-- PIN_VERIFY_PVV. -/
def execPinVerifyPvv (tower ctx : Nat) (fault : FigFault) (s : State) : Out := .next (runFigure s tower ctx 0x0103 fault (pinVerifyPvv tower ctx))

/-- PIN_GENERATE_OFFSET. -/
def execPinGenerateOffset (tower ctx : Nat) (fault : FigFault) (s : State) : Out := .next (runFigure s tower ctx 0x0104 fault (pinGenerateOffset tower ctx))

/-- PIN_GENERATE_PVV. -/
def execPinGeneratePvv (tower ctx : Nat) (fault : FigFault) (s : State) : Out := .next (runFigure s tower ctx 0x0105 fault (pinGeneratePvv tower ctx))

/-- PIN_CHANGE. -/
def execPinChange (tower ctx : Nat) (fault : FigFault) (s : State) : Out := .next (runFigure s tower ctx 0x0106 fault (pinChange tower ctx))

/-- PIN_FROM_DUKPT. -/
def execPinFromDukpt (tower ctx : Nat) (fault : FigFault) (s : State) : Out := .next (runFigure s tower ctx 0x0107 fault (pinFromDukpt tower ctx))

/-- DUKPT_DERIVE_INITIAL. -/
def execDukptDeriveInitial (tower ctx : Nat) (fault : FigFault) (s : State) : Out := .next (runFigure s tower ctx 0x0201 fault (dukptDeriveInitial tower ctx))

/-- DUKPT_DATA_DECRYPT. -/
def execDukptDataDecrypt (tower ctx : Nat) (fault : FigFault) (s : State) : Out := .next (runFigure s tower ctx 0x0202 fault (dukptDataDecrypt tower ctx))

/-- DUKPT_MAC_VERIFY. -/
def execDukptMacVerify (tower ctx : Nat) (fault : FigFault) (s : State) : Out := .next (runFigure s tower ctx 0x0203 fault (dukptMacVerify tower ctx))

end Sys2Proof.Machine
end

