-- ==== Sys2Proof/Machine/CardFam.lean ====
section
/-! DEFINITION. The figures of families 0x03 to 0x06: card verification values, EMV cryptograms, MACs, data encryption and
tokens (05 R143 to R171). Multi-byte fields are big-endian (R143). -/

namespace Sys2Proof.Machine

/-! ## MACs (R154, R155) -/

/-- An ALG code under padding method 1, which needs some input. -/
def macBlocksAlg (a : Nat) : Bool := a == 1 || a == 2 || a == 3

/-- Blocks or compressions over `l` bytes (R155). -/
def macN (alg pad l : Nat) : Nat :=
  let iso := fun (b : Nat) => if pad = 1 then ceilDiv l b else l / b + 1
  match alg with
  | 1 => iso 8
  | 2 => iso 16
  | 3 => iso 8
  | 4 => max 1 (ceilDiv l 16)
  | 5 => max 1 (ceilDiv l 8)
  | 6 => ceilDiv (l + 9) 64
  | 7 => ceilDiv (l + 17) 128
  | 8 => ceilDiv (l + 17) 128
  | _ => ceilDiv (l + 1) 136

/-- Path cycles of a MAC call; `t` is the AES lane time (R155). -/
def macPath (alg pad l t : Nat) : Nat :=
  let n := macN alg pad l
  match alg with
  | 1 => 45 + 13 * n
  | 2 => 45 + t * n
  | 3 => 53 + 5 * n
  | 4 => 46 + t * n
  | 5 => 46 + 13 * n
  | 6 => 62 + 17 * n
  | 7 => 66 + 21 * n
  | 8 => 66 + 21 * n
  | _ => 58 + 13 * n

/-- MAC_LEN is in the range of R155. -/
def macLenOk (alg n : Nat) : Bool :=
  if alg = 1 ∨ alg = 3 ∨ alg = 5 then decide (4 ≤ n) && decide (n ≤ 8)
  else if alg = 2 ∨ alg = 4 then decide (4 ≤ n) && decide (n ≤ 16)
  else decide (10 ≤ n) && decide (n ≤ 32)

/-- Usage and algorithm that an ALG code takes. -/
def macKeyOk (alg : Nat) (k : KeyRec) : Bool :=
  match alg with
  | 1 => k.usage == usageOf "M1" && isTdes k.alg
  | 2 => k.usage == usageOf "M1" && isAes k.alg
  | 3 => k.usage == usageOf "M3" && isTdes k.alg
  | 4 => k.usage == usageOf "M6" && isAes k.alg
  | 5 => k.usage == usageOf "M6" && isTdes k.alg
  | _ => k.usage == usageOf "M7" && k.alg == 6

/-- The MAC of a message before truncation (R155). -/
def macValue (alg pad : Nat) (k : KeyRec) (b : Bytes) : Bytes :=
  let c := cipherOf k
  let padded := fun (n : Nat) => if pad = 1 then padM1 n b else padM2 n b
  match alg with
  | 1 => macAlg1 c (padded 8)
  | 2 => macAlg1 c (padded 16)
  | 3 => macAlg3 k.material (padded 8)
  | 4 => cmac c b
  | 5 => cmac c b
  | 6 => hmac sha256 64 k.material b
  | 7 => hmac sha384 128 k.material b
  | 8 => hmac sha512 128 k.material b
  | _ => hmac sha3_256 136 k.material b

/-! ## Data modes (R157 to R163) -/

/-- GCM or CCM. -/
def aead (m : Nat) : Bool := m == 3 || m == 4

/-- MODE or PAD holds a reserved encoding (R157). -/
def modeBad (m pad : Nat) : Bool := decide (m > 4) || decide (pad > 2)

/-- PAD and TAG_LEN are those that the mode allows (R157). -/
def modeOk (m pad tag : Nat) : Bool :=
  (decide (m ≤ 1) || pad == 0) &&
    (if m = 3 then decide (12 ≤ tag) && decide (tag ≤ 16)
     else if m = 4 then tag == 8 || tag == 10 || tag == 12 || tag == 14 || tag == 16 else tag == 0)

/-- AAD_LEN of a data call. -/
def aadLen (d : Bytes) : Nat := beAt d 68 4 % 2 ^ 25

/-- Bytes of additional data at the head of the input: AAD_LEN counts for GCM and CCM, on either side of a translation (R157). Beside an
ECB, CBC or CTR source they stand at the head of the input too, and its length and payload are judged without them (R163; DESIGN CHOICE,
log 135). -/
def aadUsed (op : Nat) (d : Bytes) : Nat :=
  if aead (par d 64) || (op == 0x0503 && aead (par d 88)) then aadLen d else 0

/-- Output of encrypting `l` bytes of clear payload, for block length `b` (R160). -/
def encLen (m pad tag b l : Nat) : Nat :=
  if m ≤ 1 then (if pad = 0 then l else (l / b + 1) * b) else if aead m then l + tag else l

/-- Clear payload of `l` input bytes of a decryption, of which `aad` are additional data, beside an ECB, CBC or CTR source too (R160,
R163; DESIGN CHOICE, log 135). -/
def decLen (m tag aad l : Nat) : Nat := if aead m then l - aad - tag else l - aad

/-- Input of `l` bytes that is refused, for block length `b`; `aad` bytes are additional data, beside an ECB, CBC or CTR source too
(R160, R163; DESIGN CHOICE, log 135). -/
def dataLenBad (enc : Bool) (m pad tag aad b l : Nat) : Bool :=
  if m ≤ 1 then (if enc && pad != 0 then decide (l < aad) else decide (l ≤ aad) || (l - aad) % b != 0)
  else if m = 2 then decide (l ≤ aad)
  else decide (l < aad + (if enc then 0 else tag))

/-- The body of R162: payload bytes `l` after padding, additional data `aad`, lane time `t`, block length `b`. -/
def dataBody (enc : Bool) (m b t aad l : Nat) : Nat :=
  let n := ceilDiv l b
  let a := ceilDiv aad 16
  match m with
  | 0 => n * t
  | 1 => 1 + n * t
  | 2 => 1 + n * t
  | 3 => 3 + n * t + a
  | _ => 2 + ((if enc then 1 else 2) + a + n) * t

/-- Payload blocks' bytes on the encryption side: padded for ECB and CBC. -/
def encPayload (m pad b l : Nat) : Nat := if m ≤ 1 ∧ pad ≠ 0 then (l / b + 1) * b else l

/-- Path cycles of a data call with source algorithm `a0` and destination algorithm `a1` (R162, R163). -/
def dataPath (op : Nat) (d : Bytes) (a0 a1 : Nat) : Nat :=
  let b := fun (a : Nat) => if isTdes a then 8 else 16
  let m := par d 64
  let pad := par d 65
  let aad := aadUsed op d
  let l := inLenOf d
  match op with
  | 0x0501 =>
    34 + dataBody true m (b a0) (laneTime a0) aad (encPayload m pad (b a0) (l - aad)) + 10 + (if m = 0 then 0 else 1)
  | 0x0502 =>
    34 + dataBody false m (b a0) (laneTime a0) aad (decLen m (par d 66) aad l) + 10 + (if pad = 0 then 0 else 1) +
      (if aead m then 1 else 0)
  | _ =>
    let p := decLen m (par d 66) aad l
    let m1 := par d 88
    34 + dataBody false m (b a0) (laneTime a0) (if aead m then aad else 0) p +
      dataBody true m1 (b a1) (laneTime a1) (if aead m1 then aad else 0) (encPayload m1 (par d 89) (b a1) p) + 11 +
      (if aead m then 1 else 0)

/-- Bytes of a generated nonce (R158). -/
def nonceLen (m b : Nat) : Nat := if m = 1 then b else if m = 2 then 8 else if m = 3 then 12 else if m = 4 then 11 else 0

/-- The encryption mode whose nonce the device draws, and its supplied IV otherwise. -/
def ivGiven (d : Bytes) : Bool := par d 67 == 1

/-- The output of an encryption for the payload so far; `last` at the end of the stream. -/
def encStream (m pad tag : Nat) (c : BlockCipher) (nonce aad p : Bytes) (last : Bool) : Bytes :=
  let whole := p.take (p.length / c.n * c.n)
  let q := if !last then whole else if pad = 1 then padM2 c.n p else if pad = 2 then padP7 c.n p else whole
  match m with
  | 0 => ecbEnc c q
  | 1 => cbcEnc c nonce q
  | 2 => ctrXor c nonce (if last then p else whole)
  | 3 => if last then (let r := gcmEnc c nonce aad p; r.1 ++ r.2.take tag) else gcmCtr c nonce whole
  | _ => if last then ccmCtr c nonce p ++ ccmTag c nonce aad p tag else ccmCtr c nonce whole

/-- The output of a decryption for the ciphertext so far. -/
def decStream (m : Nat) (c : BlockCipher) (iv ct : Bytes) (last : Bool) : Bytes :=
  let whole := ct.take (ct.length / c.n * c.n)
  match m with
  | 0 => ecbDec c whole
  | 1 => cbcDec c iv whole
  | 2 => ctrXor c iv (if last then ct else whole)
  | 3 => gcmCtr c iv (if last then ct else whole)
  | _ => ccmCtr c iv (if last then ct else whole)

/-- The tag of a decryption matches. -/
def tagMatches (m : Nat) (c : BlockCipher) (iv aad ct tag : Bytes) : Bool :=
  if m = 3 then (gcmTag c iv aad ct).take tag.length == tag
  else ccmTag c iv aad (ccmCtr c iv ct) tag.length == tag

/-- The nonce of an encryption as its mode uses it: a CTR nonce is followed by its counter (R158). -/
def nonceOf (m : Nat) (c : BlockCipher) (b : Bytes) : Bytes := if m = 2 then fit 16 (b.take 8) else b.take (nonceLen m c.n)

/-- IV of a decryption: the bytes of R157 that the mode uses. -/
def ivOf (d : Bytes) (m : Nat) (c : BlockCipher) : Bytes :=
  sub d 72 (if m = 1 then c.n else if m = 2 then 16 else if m = 3 then 12 else if m = 4 then 11 else 0)

/-- The ciphertext, additional data and tag of a decryption's input so far. -/
def decParts (d : Bytes) (input : Bytes) : Bytes × Bytes × Bytes :=
  let t := if aead (par d 64) then par d 66 else 0
  let e := inLenOf d - t
  (sub (input.take e) (aadLen d) (inLenOf d), input.take (aadLen d), input.drop e)

/-- The nonce that a data call encrypts under. -/
def dataNonce (op : Nat) (d : Bytes) (k0 k1 : KeyRec) (drawn : Bytes) : Bytes :=
  if op = 0x0501 then
    (if ivGiven d then ivOf d 1 (cipherOf k0) else nonceOf (par d 64) (cipherOf k0) drawn)
  else if op = 0x0503 then nonceOf (par d 88) (cipherOf k1) drawn else []

/-- The output stream of a data call for its input so far (R160 to R163). -/
def dataStream (op : Nat) (d : Bytes) (k0 k1 : KeyRec) (drawn input : Bytes) : Bytes :=
  let m := par d 64
  let last := decide (input.length = inLenOf d)
  let c := cipherOf k0
  let (ct, aad, _) := decParts d input
  match op with
  | 0x0501 =>
    encStream m (par d 65) (par d 66) c (dataNonce op d k0 k1 drawn) aad (input.drop (aadLen d)) last
  | 0x0502 => decStream m c (ivOf d m c) ct last
  | _ =>
    encStream (par d 88) (par d 89) (par d 90) (cipherOf k1) (dataNonce op d k0 k1 drawn) aad
      (decStream m c (ivOf d m c) ct last) last

/-! ## Layouts -/

/-- DERIVE, PSN and PAN of ARQC_VERIFY and SCRIPT_MAC (R150, R151). -/
def emvBad (d : Bytes) : Bool := decide (par d 64 > 1)

/-- Layouts of DATA_ENCRYPT, DATA_DECRYPT and DATA_TRANSLATE, with the block lengths of the keys in HANDLE0 and HANDLE1 (R160, R163). -/
def dataInfo (op : Nat) (d : Bytes) (b0 b1 : Nat) : OpInfo :=
  let l := inLenOf d
  let stage := fun (n : Nat) => if formOf d = 2 then n else 0
  let m := par d 64
  let aad := aadUsed op d
  if op = 0x0503 then
    let m1 := par d 88
    let p := decLen m (par d 66) aad l
    { handles := 2, forms := [1, 2], pEnd := 91, blocks := stage 3
      bad := modeBad m (par d 65) || modeBad m1 (par d 89) || par d 67 != 0 || decide (beAt d 68 4 ≥ 2 ^ 25)
      lenBad := dataLenBad false m 0 (par d 66) aad b0 l || dataLenBad true m1 (par d 89) (par d 90) 0 b1 p
      need := encLen m1 (par d 89) (par d 90) b1 p
      space := if m1 = 0 then 48 else 32
      job := decide (dataPath op d (if m ≤ 1 then 2 else 5) (if m1 ≤ 1 then 2 else 5) > jobLimit) }
  else
    let enc := op == 0x0501
    let pad := par d 65
    let tag := par d 66
    { handles := 1, forms := [1, 2], pEnd := 88, blocks := stage 2
      bad := modeBad m pad || decide (beAt d 68 4 ≥ 2 ^ 25)
      lenBad := dataLenBad enc m pad tag aad b0 l
      need := if enc then encLen m pad tag b0 (l - aad) else decLen m tag aad l
      space := if enc then (if m = 0 then 48 else 32) else (if pad = 0 then 48 else 47)
      job := decide (dataPath op d (if m ≤ 1 then 2 else 5) 5 > jobLimit) }

/-- Layouts of families 0x03 to 0x06. -/
def cardInfo (op : Nat) (d : Bytes) : OpInfo :=
  let l := inLenOf d
  let stage := fun (n : Nat) => if formOf d = 2 then n else 0
  match op with
  | 0x0301 => { handles := 1, pEnd := 80, bad := !zeroIn d 78 80 }
  | 0x0302 => { handles := 1, pEnd := 80 }
  | 0x0303 => { handles := 1, pEnd := 86, bad := decide (par d 64 > 1) || par d 65 != 0 }
  | 0x0304 =>
    { handles := 1, forms := [1, 2], pEnd := 100, blocks := stage 2, bad := emvBad d || decide (par d 65 > 2)
      lenBad := l == 0 || decide (l > 256) }
  | 0x0305 =>
    { handles := 1, forms := [1, 2], pEnd := 80, blocks := stage 2, bad := emvBad d || par d 65 != 0
      lenBad := l == 0 || decide (l > 256) }
  | 0x0401 | 0x0402 =>
    let a := par d 64
    { handles := 1, forms := [1, 2], pEnd := 100, blocks := stage 2
      bad := a == 0 || decide (a > 9) || par d 67 != 0 ||
        (if macBlocksAlg a then par d 65 != 1 && par d 65 != 2 else par d 65 != 0) || (op == 0x0401 && !zeroIn d 68 100)
      lenBad := l == 0 && macBlocksAlg a && par d 65 == 1
      job := decide (macPath a (par d 65) l 8 > jobLimit) }
  | 0x0501 | 0x0502 | 0x0503 => dataInfo op d 8 8
  | 0x0601 | 0x0602 | 0x0603 => { handles := 1, pEnd := 78, bad := !zeroIn d 66 68 }
  | _ => {}

/-! ## Keys -/

/-- A data key: usage D0, one of two modes, an algorithm that the mode of operation takes; two-key TDES only decrypts. -/
def dataKey (k : KeyRec) (m : Nat) (enc : Bool) : Bool :=
  k.usage == usageOf "D0" && modeIn k "B" (if enc then "E" else "D") &&
    (isAes k.alg || (decide (m ≤ 1) && (if enc then k.alg == 2 else isTdes k.alg))) &&
    (!(enc && aead m) || decide (k.aead < 2 ^ 32))

/-- Check 4 of R194 for families 0x03 to 0x06: slot `i` holds `ks[i]`. -/
def cardUse (op : Nat) (d : Bytes) (ks : List KeyRec) (i : Nat) : Bool :=
  let k := ks.getD i {}
  let two := fun (m : String) => k.usage == usageOf "C0" && modeIn k "C" m && k.alg == 1
  match op, i with
  | 0x0301, _ => two "G"
  | 0x0302, _ => two "V"
  | 0x0303, _ => two "V"
  | 0x0304, _ => k.usage == usageOf "E0" && k.mode == chr "X" && (isTdes k.alg || isAes k.alg)
  | 0x0305, _ => k.usage == usageOf "E2" && k.mode == chr "X" && (k.alg == 2 || isAes k.alg)
  | 0x0401, _ => macKeyOk (par d 64) k && modeIn k "C" "G" && k.alg != 1
  | 0x0402, _ => macKeyOk (par d 64) k && modeIn k "C" "V"
  | 0x0501, _ => dataKey k (par d 64) true
  | 0x0502, _ => dataKey k (par d 64) false
  | 0x0503, 0 => dataKey k (par d 64) false
  | 0x0503, _ => dataKey k (par d 88) true
  | _, _ => k.usage == usageOf "D0" && k.mode == chr "B" && k.alg == 5 && bitOf k.flags 1

/-! ## Parameter checks (04 R115; 05 R143) -/

/-- Every nibble of bytes `a` to `b - 1` is a digit. -/
def digitsIn (d : Bytes) (a b : Nat) : Bool := (nibbles (sub d a (b - a))).all (· < 10)

/-- A PAN of `lo` to `hi` digits stands at `off`. -/
def panIn (d : Bytes) (off lo hi : Nat) : Bool :=
  let n := (panDigits d off).length
  panOk d off && decide (lo ≤ n) && decide (n ≤ hi)

/-- PAN and PSN of an EMV call (R150, R151). -/
def emvPanOk (d : Bytes) : Bool :=
  if par d 64 = 0 then panIn d 68 12 16 && digitsIn d 66 67 else zeroIn d 66 67 && zeroIn d 68 78

/-- IV field of a decryption: zero beyond the bytes that the mode uses (R157). -/
def ivOk (d : Bytes) (m : Nat) (c : BlockCipher) : Bool := zeroIn d (72 + (ivOf d m c).length) 88

/-- The parameter checks of families 0x03 to 0x06: the status of the first failure. -/
def cardParams (op : Nat) (d : Bytes) (ks : List KeyRec) : Option Nat :=
  let k0 := ks.getD 0 {}
  let k1 := ks.getD 1 {}
  let ok := fun (b : Bool) => if b then none else some stBadParam
  let three := fun (off : Nat) => bcdOk (nibbles (sub d off 2)) 3
  let cap := fun (n space : Nat) => if (if formOf d = 2 then outCap d else space) < n then some stBadLength else none
  let m := par d 64
  let aad := aadUsed op d
  let l := inLenOf d
  let c0 := cipherOf k0
  let c1 := cipherOf k1
  match op with
  | 0x0301 => ok (panIn d 64 12 19 && digitsIn d 74 76 && three 76)
  | 0x0302 => ok (panIn d 64 12 19 && digitsIn d 74 76 && three 76 && three 78)
  | 0x0303 =>
    ok (panIn d 66 12 19 && three 84 &&
      (if m = 0 then digitsIn d 76 78 && zeroIn d 80 84 else zeroIn d 76 78 && digitsIn d 80 84))
  | 0x0304 =>
    let n := par d 67
    ok (emvPanOk d && (if par d 65 = 2 then decide (n ≤ 8) else n == 0) && zeroIn d (92 + n) 100 &&
      (if par d 65 = 0 then zeroIn d 88 92 else par d 65 == 2 || zeroIn d 90 92))
  | 0x0305 => ok (emvPanOk d && decide (4 ≤ par d 67) && decide (par d 67 ≤ 8))
  | 0x0401 => ok (macLenOk m (par d 66))
  | 0x0402 => ok (macLenOk m (par d 66) && zeroIn d (68 + par d 66) 100)
  | 0x0501 =>
    if !modeOk m (par d 65) (par d 66) || !(if m = 1 then decide (par d 67 ≤ 1) else par d 67 == 0) || aadLen d != aad ||
        !(if m = 1 ∧ ivGiven d then ivOk d 1 c0 else zeroIn d 72 88) then some stBadParam
    else if dataLenBad true m (par d 65) (par d 66) aad c0.n l then some stBadLength
    else cap (encLen m (par d 65) (par d 66) c0.n (l - aad)) (if m = 0 then 48 else 32)
  | 0x0502 =>
    if !modeOk m (par d 65) (par d 66) || par d 67 != (if m = 1 then 1 else 0) || aadLen d != aad || !ivOk d m c0 then some stBadParam
    else if dataLenBad false m (par d 65) (par d 66) aad c0.n l then some stBadLength else none
  | 0x0503 =>
    let m1 := par d 88
    if par d 65 != 0 || !modeOk m 0 (par d 66) || !modeOk m1 (par d 89) (par d 90) || aadLen d != aad || !ivOk d m c0 then some stBadParam
    else
      let p := decLen m (par d 66) aad l
      if dataLenBad false m 0 (par d 66) aad c0.n l || dataLenBad true m1 (par d 89) (par d 90) 0 c1.n p then some stBadLength
      else cap (encLen m1 (par d 89) (par d 90) c1.n p) (if m1 = 0 then 48 else 32)
  | _ =>
    ok (panIn d 68 12 19 && decide (m ≤ 6) && decide (par d 65 ≤ 4) && decide (m + par d 65 + 6 ≤ (panDigits d 68).length))

/-- Needs of families 0x03 to 0x06 after list and key fetch, but for the input chunks. -/
def cardNeeds (op : Nat) (d : Bytes) (ks : List KeyRec) : List Need :=
  let k0 := ks.getD 0 {}
  let k1 := ks.getD 1 {}
  let cfg := if isAes k0.alg then 1 else 2
  let a := par d 64
  match op with
  | 0x0304 | 0x0305 => [.lanes false 2 cfg]
  | 0x0401 | 0x0402 =>
    if a ≤ 5 then [.lanes false 1 cfg] else [.lanes true 1 (if a = 6 then 1 else if a = 9 then 3 else 2)]
  | 0x0501 =>
    .lanes false (if aead a then 2 else 1) cfg :: drawNeeds (if ivGiven d then 0 else nonceLen a (cipherOf k0).n)
  | 0x0502 => [.lanes false (if aead a then 2 else 1) cfg]
  | 0x0503 => .lanes false 2 cfg :: drawNeeds (nonceLen (par d 88) (cipherOf k1).n)
  | _ => [.lanes false 1 cfg]

/-! ## Card verification values (R147, R148) -/

/-- The decimal digits of an ATC. -/
def atcDigits (v : Nat) : List Nat := [v / 10000 % 10, v / 1000 % 10, v / 100 % 10, v / 10 % 10, v % 10]

/-- The digits that the two scans select from the 16 result nibbles (R147). -/
def cvvScan (n : List Nat) : List Nat :=
  (n.filter (· < 10) ++ ((n.take 5).filter (10 ≤ ·)).map (· - 10)).take 3

/-- The value over a field of digits (R147). -/
def cvvValue (key : Bytes) (digits : List Nat) : List Nat :=
  let f := packNibbles ((digits ++ List.replicate 32 0).take 32)
  cvvScan (nibbles (tdesEnc key (xorB (desEnc (key.take 8) (f.take 8)) (f.drop 8))))

/-- Digits in the CVV encoding: 2 bytes. -/
def cvvBytes (l : List Nat) : Bytes := packNibbles (l ++ [15])

/-- The value of CVV_GENERATE and CVV_VERIFY. -/
def cvvOf (s : State) (t c : Nat) : List Nat :=
  let d := workDesc s t c
  cvvValue (keyOf s t c 0).material (panDigits d 64 ++ nibbles (sub d 74 2) ++ (nibbles (sub d 76 2)).take 3)

/-- CVV_GENERATE. -/
def cvvGenerate (t c : Nat) (s : State) : State := finishCall s t c stOk 90 0 (cvvBytes (cvvOf s t c))

/-- A verdict (04 R117): RESULTS is zero whatever it is. -/
def verdict (s : State) (t c : Nat) (ok : Bool) (table : Nat) : State :=
  finishCall s t c (if ok then stOk else stVerifyFail) table 0 []

/-- CVV_VERIFY. -/
def cvvVerify (t c : Nat) (s : State) : State :=
  verdict s t c (cvvBytes (cvvOf s t c) == sub (workDesc s t c) 78 2) 94

/-- DCVV_VERIFY. -/
def dcvvVerify (t c : Nat) (s : State) : State :=
  let d := workDesc s t c
  let mid := if par d 64 = 0 then nibbles (sub d 76 2) else nibbles (sub d 80 4)
  let v := cvvValue (keyOf s t c 0).material (panDigits d 66 ++ mid ++ atcDigits (beAt d 78 2))
  verdict s t c (cvvBytes v == sub d 84 2) 94

/-! ## EMV cryptograms (R151 to R153; EMV Book 2 is named and not restated: PRESUMED, log 5) -/

/-- Every bit inverted. -/
def invB (b : Bytes) : Bytes := b.map (fun x => ~~~x)

/-- The key of a card call before the session: HANDLE0's own, or derived from PAN and PSN by option A. -/
def cardKey (d : Bytes) (k : KeyRec) : Bytes :=
  if par d 64 = 1 then k.material
  else
    let n := if isAes k.alg then 32 else 16
    let y := panDigits d 68 ++ nibbles (sub d 66 1)
    let z := packNibbles (List.replicate (n - y.length) 0 ++ y.drop (y.length - n))
    let e := (cipherOf k).enc
    (e z ++ e (invB z)).take (if isAes k.alg then k.keylen else 16)

/-- The session key of an ATC by the common session key derivation. -/
def sessionKey (aes : Bool) (mk atc : Bytes) : Bytes :=
  let blk := fun (x : Byte) => atc.take 2 ++ [x] ++ zeros (if aes then 13 else 5)
  if aes then
    if mk.length = 16 then aesEnc mk (blk 0) else (aesEnc mk (blk 0xF0) ++ aesEnc mk (blk 0x0F)).take mk.length
  else tdesEnc mk (blk 0xF0) ++ tdesEnc mk (blk 0x0F)

/-- The MAC of R151 step 3. -/
def emvMac (aes : Bool) (sk b : Bytes) : Bytes := if aes then cmac (aesC sk) b else macAlg3 sk (padM2 8 b)

/-- The ARPC (R151 step 5). -/
def arpcOf (d : Bytes) (aes : Bool) (sk : Bytes) : Bytes :=
  let arqc := sub d 80 8
  if par d 65 = 1 then
    let x := xorB arqc (sub d 88 2 ++ zeros 6)
    if aes then (aesEnc sk (x ++ zeros 8)).take 8 else tdesEnc sk x
  else (emvMac aes sk (arqc ++ sub d 88 4 ++ sub d 92 (par d 67))).take 4

/-- U, session key and MAC cycles (R152). -/
def emvCycles (d : Bytes) (aes : Bool) : Nat :=
  let l := inLenOf d
  let u := if par d 64 = 1 then 0 else if aes then 9 else 14
  let n := if aes then ceilDiv l 16 else l / 8 + 1
  u + (if aes then 9 else 14) + (if aes then (if n ≥ 2 then 8 * n + 2 else 18) else 5 * (n - 1) + 13)

/-- A of R152. -/
def arpcCycles (d : Bytes) (aes : Bool) : Nat :=
  let n := par d 67
  match par d 65 with
  | 0 => 0
  | 1 => if aes then 9 else 14
  | _ => if aes then (if n ≤ 4 then 10 else 18) else 14 + 5 * ((12 + n) / 8)

/-- ARQC_VERIFY. -/
def arqcVerify (t c : Nat) (s : State) : State :=
  let d := workDesc s t c
  let k := keyOf s t c 0
  let aes := isAes k.alg
  let sk := sessionKey aes (cardKey d k) (sub d 78 2)
  let ok := (emvMac aes sk (s.ctx t c).work.input).take 8 == sub d 80 8
  let a := arpcCycles d aes
  let table := 34 + emvCycles d aes + 2 + a + 13 + (if a > 0 then 1 else 0)
  finishCall s t c (if ok then stOk else stVerifyFail) table 0 (if ok ∧ par d 65 ≠ 0 then arpcOf d aes sk else [])

/-- SCRIPT_MAC. -/
def scriptMac (t c : Nat) (s : State) : State :=
  let d := workDesc s t c
  let k := keyOf s t c 0
  let aes := isAes k.alg
  let sk := sessionKey aes (cardKey d k) (sub d 78 2)
  finishCall s t c stOk (34 + emvCycles d aes + 14) 0 ((emvMac aes sk (s.ctx t c).work.input).take (par d 67))

/-! ## MAC figures -/

/-- The leftmost MAC_LEN bytes of the call's MAC. -/
def macOf (s : State) (t c : Nat) : Bytes :=
  let d := workDesc s t c
  (macValue (par d 64) (par d 65) (keyOf s t c 0) (s.ctx t c).work.input).take (par d 66)

/-- Path cycles of the call. -/
def macTable (s : State) (t c : Nat) : Nat :=
  let d := workDesc s t c
  macPath (par d 64) (par d 65) (inLenOf d) (laneTime (keyOf s t c 0).alg)

/-- MAC_GENERATE. -/
def macGenerate (t c : Nat) (s : State) : State := finishCall s t c stOk (macTable s t c) 0 (macOf s t c)

/-- MAC_VERIFY. -/
def macVerify (t c : Nat) (s : State) : State :=
  verdict s t c (macOf s t c == sub (workDesc s t c) 68 (par (workDesc s t c) 66)) (macTable s t c)

/-! ## Data figures -/

/-- Writes the output that the input so far determines and that has not been written (03 R88). -/
def writeSoFar (s : State) (t c : Nat) : State × Bool :=
  let d := workDesc s t c
  let w := (s.ctx t c).work
  writeOut s t c ((dataStream (opOf d) d (keyOf s t c 0) (keyOf s t c 1) w.drawn w.input).drop w.outLen)

/-! ## What the lanes hold (08 R269) -/

/-- The state of a hash after the whole blocks of a message, from the state that an HMAC key block leaves. -/
def hashAfter (alg : Nat) (start : Bytes) (b : Bytes) : Bytes :=
  let words := fun (n : Nat) => (chunks n start).map beVal
  let sha := fun (k : ShaKind) =>
    ((chunks (2 * k.w) (b.take (b.length / (2 * k.w) * (2 * k.w)))).foldl (shaCompress k) (words (k.w / 8))).flatMap (beBytes (k.w / 8))
  if alg = 6 then sha sha256K
  else if alg ≤ 8 then sha sha512K
  else ((chunks 136 (b.take (b.length / 136 * 136))).foldl (fun a x => keccakF (keccakAdd 136 a x)) ((chunks 8 start).map leVal)).flatMap
    (leBytes 8)

/-- The registers of a lane that has enciphered or deciphered part of a stream: `ct` is the ciphertext so far, `p` the clear text, `n` the
blocks. `tagLane`: the second lane of GCM and CCM (05 R162). -/
def streamRegs (r : LaneRegs) (m tag : Nat) (c : BlockCipher) (iv aad p ct : Bytes) (tagLane : Bool) : LaneRegs :=
  let n := ct.length / c.n
  let whole := ct.take (n * c.n)
  { r with
    count := p.length
    chain := match m with
      | 0 => []
      | 1 => (iv ++ whole).drop (n * c.n + iv.length - c.n)
      | 2 => ctrBlock iv n
      | 3 => gcmBlock iv (if tagLane then 1 else 2 + n)
      | _ => if tagLane then [] else ccmBlock iv (1 + n)
    acc := match m with
      | 3 => if tagLane then [] else beBytes 16 (ghash (beVal (c.enc (zeros 16))) (padM1 16 aad ++ whole))
      | 4 => if tagLane then ccmMac c iv aad (p.take (n * c.n)) tag else []
      | _ => [] }

/-- The registers of the `i`-th lane of a data or MAC call, as its work on the input so far has left them (08 R269). -/
def workRegs (s : State) (t c i : Nat) (r : LaneRegs) : LaneRegs :=
  let d := workDesc s t c
  let b := (s.ctx t c).work.input
  let k0 := keyOf s t c 0
  let k1 := keyOf s t c 1
  let c0 := cipherOf k0
  let out := dataStream (opOf d) d k0 k1 (s.ctx t c).work.drawn b
  let dec := decParts d b
  let clear := decStream (par d 64) c0 (ivOf d (par d 64) c0) dec.1 (decide (b.length = inLenOf d))
  match opOf d with
  | 0x0501 =>
    streamRegs r (par d 64) (par d 66) c0 (dataNonce 0x0501 d k0 k1 (s.ctx t c).work.drawn) (b.take (aadLen d)) (b.drop (aadLen d)) out (i == 1)
  | 0x0502 => streamRegs r (par d 64) (par d 66) c0 (ivOf d (par d 64) c0) dec.2.1 clear dec.1 (i == 1)
  | 0x0503 =>
    if i = 0 then streamRegs r (par d 64) (par d 66) c0 (ivOf d (par d 64) c0) dec.2.1 clear dec.1 false
    else streamRegs r (par d 88) (par d 90) (cipherOf k1) (dataNonce 0x0503 d k0 k1 (s.ctx t c).work.drawn) dec.2.1 clear out false
  | 0x0401 | 0x0402 =>
    let a := par d 64
    if a ≤ 3 then
      let e : BlockCipher := if a = 3 then { n := 8, enc := desEnc (k0.material.take 8), dec := desDec (k0.material.take 8) } else c0
      { r with count := b.length, acc := cbcMacL e (zeros e.n) (chunks e.n (b.take (b.length / e.n * e.n))) }
    else if a ≤ 5 then { r with count := b.length, acc := cbcMacL c0 (zeros c0.n) (chunks c0.n (b.take ((b.length - 1) / c0.n * c0.n))) }
    else { r with
      count := b.length + (if a = 6 then 64 else if a = 9 then 136 else 128)
      acc := hashAfter a ((hmacStates k0.material).getD (2 * (a - 6)) []) b }
  | _ => r

/-- The lanes of a call take up the state of its work (08 R269). -/
def noteLanes (s : State) (t c : Nat) : State :=
  let w := s.tower t
  let put := fun (ls : List Lane) => ls.zipIdx.map (fun e =>
    if e.1.owner = some c then
      { e.1 with regs := workRegs s t c ((ls.take e.2).filter (fun l => l.owner == some c)).length e.1.regs } else e.1)
  s.setTower t { w with clanes := put w.clanes, hlanes := put w.hlanes }

/-- RESULTS of a data call that ends OK: the nonce or the padding length, then inline output (R158, R161; log 18). -/
def dataResults (s : State) (t c : Nat) : Bytes :=
  let d := workDesc s t c
  let op := opOf d
  let k0 := keyOf s t c 0
  let k1 := keyOf s t c 1
  let w := (s.ctx t c).work
  let out := dataStream op d k0 k1 w.drawn w.input
  let m := if op = 0x0503 then par d 88 else par d 64
  let inl := if formOf d = 1 then out else []
  if op = 0x0502 then
    let last := out.drop (out.length - (cipherOf k0).n)
    if par d 65 = 1 then leBytes 1 (unpadM2 last) ++ inl else if par d 65 = 2 then leBytes 1 (unpadP7 last) ++ inl else inl
  else if m = 0 then inl else fit 16 (dataNonce op d k0 k1 w.drawn) ++ inl

/-- The tag of a decrypting call matches, or it has none. -/
def dataTagOk (s : State) (t c : Nat) : Bool :=
  let d := workDesc s t c
  let k := cipherOf (keyOf s t c 0)
  let (ct, aad, tag) := decParts d (s.ctx t c).work.input
  !aead (par d 64) || tagMatches (par d 64) k (ivOf d (par d 64) k) aad ct tag

/-- The handle whose AEAD count a call moves: HANDLE0 of an encryption, HANDLE1 of a translation. -/
def countSlot (op : Nat) : Nat := if op = 0x0503 then 1 else 0

/-- Copies of a record in the tower key caches take a new AEAD count, and the DMK_ID under which the record is written. -/
def countInCaches (k : KeyRec) (p cls idx : Nat) (s : State) : State :=
  { s with towers := s.towers.map (fun w => { w with cache := w.cache.map (fun e =>
      if e.2.part = p ∧ e.2.cls = cls ∧ e.2.idx = idx then
        (e.1, { e.2 with key := { e.2.key with aead := k.aead, dmkId := k.dmkId } }) else e) }) }

/-- The final step of a GCM or CCM encryption: the count of its key is tested and incremented (R159). A key destroyed
since its fetch counts no more (06 R200). -/
def aeadFinal (s : State) (t c table : Nat) : State :=
  let d := workDesc s t c
  let i := countSlot (opOf d)
  let h := handleOf d i
  let p := hPart h
  let cls := hCls h
  let idx := hIdx h
  let body := fun (s : State) => match keepRec s p cls idx with
    | none => finishCall s t c stOk table 0 (dataResults s t c)
    | some k =>
      if k.format = 0 ∨ k.check ≠ hCheck h then finishCall s t c stOk table 0 (dataResults s t c)
      else if k.aead ≥ 2 ^ 32 then finishCall s t c stKeyUsage table 0 []
      else
        let k' := { (if cls = 1 then underDmk s k else k) with aead := k.aead + 1 }
        if cls = 1 then rewriteRecord s t c p idx k' (stOk, table, 0, dataResults s t c) (countInCaches k' p cls idx)
        else
          let s1 := countInCaches k' p cls idx s
          finishCall ((installAll cls .pinned s1 (copiesOf p idx (encodeRec k'))).getD s1) t c stOk table 0 (dataResults s t c)
  if cls = 1 then withLines s t c p idx (keyOf s t c i).lines body else body s

/-- The needs of the final step of a GCM or CCM encryption: ownership of the record's lines, filled again where the Keep
has lost them. -/
def countNeeds (s : State) (t c : Nat) : List Need :=
  let d := workDesc s t c
  let i := countSlot (opOf d)
  let h := handleOf d i
  let n := (keyOf s t c i).lines
  keepNeeds (recKeys (hPart h) (hCls h) (hIdx h) n) ++ (if hCls h = 1 then missing s (hPart h) (hIdx h) n else [])

/-- A data figure: the rest of the output, the verdict on a tag, and for a GCM or CCM encryption its count. -/
def dataFigure (t c : Nat) (s : State) : State :=
  let d := workDesc s t c
  let op := opOf d
  let table := dataPath op d (keyOf s t c 0).alg (keyOf s t c 1).alg
  let m := if op = 0x0503 then par d 88 else par d 64
  if (s.ctx t c).work.done then aeadFinal s t c table
  else
    let (s1, ok) := if formOf d = 1 then (s, true) else writeSoFar s t c
    if !ok then s1
    else if op ≠ 0x0501 ∧ !dataTagOk s t c then finishCall s1 t c stVerifyFail table 0 []
    else if op ≠ 0x0502 ∧ aead m then
      let x := s1.ctx t c
      let s2 := s1.setCtx t c { x with work := { x.work with done := true } }
      stepBack s2 t c (countNeeds s2 t c)
    else finishCall s1 t c stOk table 0 (dataResults s1 t c)

/-! ## Tokens (R164 to R171) -/

/-- TBL_K, the PAN index table and the token table of a tokenization key (06 R188). -/
def tblK (k : KeyRec) : Nat := byteAt k.ext 0

/-- First record index of a table of the key. -/
def tblFirst (k : KeyRec) (token : Bool) : Nat := leAt k.ext (if token then 7 else 1) 6

/-- Digits in the PAN encoding: 10 bytes. -/
def panBytes (l : List Nat) : Bytes := packNibbles ((l ++ List.replicate 20 15).take 20)

/-- h and the fingerprint of a PAN or token under an index key (R165). Both are read from the CMAC big-endian (DESIGN CHOICE, log 137). -/
def probe (ikey : Bytes) (token : Bool) (digits : List Nat) : Nat × Nat :=
  let m := cmac (aesC ikey) ((if token then 0x54 else 0x50) :: (panBytes digits ++ zeros 5))
  let f := beAt m 8 8
  (beAt m 0 8, if f = 0 then 1 else f)

/-- The record indices of a probe window. -/
def probeWindow (k : KeyRec) (token : Bool) (h : Nat) : List Nat :=
  (List.range 4).map (fun i => tblFirst k token + (h + i) % 2 ^ tblK k)

/-- One entry of a bucket (R166): fingerprint, STATE, GEN. -/
structure TokEnt where
  /-- Fingerprint. -/
  fp : Nat
  /-- STATE. -/
  st : Nat
  /-- GEN. -/
  gen : Nat
  deriving DecidableEq, Repr

/-- The 16 entries of a window, in order. -/
def windowEnts (s : State) (p : Nat) (ls : List Nat) : List TokEnt :=
  ls.flatMap (fun i => (chunks 16 (oldLine s p 1 i)).map (fun b => { fp := beAt b 0 8, st := byteAt b 8, gen := byteAt b 9 }))

/-- The bytes of an entry (R166). The fingerprint is stored big-endian (DESIGN CHOICE, log 137). -/
def tokEntBytes (e : TokEnt) : Bytes := beBytes 8 e.fp ++ leBytes 1 e.st ++ leBytes 1 e.gen ++ zeros 6

/-- A window with entry `i` replaced: its lines, those that change. -/
def windowPut (s : State) (p : Nat) (ls : List Nat) (i : Nat) (e : TokEnt) : List (Nat × Nat × Bytes) :=
  let idx := ls.getD (i / 4) 0
  [(p, idx, patch (oldLine s p 1 idx) (16 * (i % 4)) (tokEntBytes e))]

/-- The first entry with a fingerprint and a state. -/
def findEnt (l : List TokEnt) (fp st : Nat) : Option Nat := l.findIdx? (fun e => e.fp == fp && e.st == st)

/-- The first entry whose state is one of those given. -/
def freeEnt (l : List TokEnt) (sts : List Nat) : Option Nat := l.findIdx? (fun e => sts.contains e.st)

/-- FF1 over the middle digits, with the tweak of R168. -/
def tokenFf1 (k : KeyRec) (head tail gen : Nat) (enc : Bool) (v : List Nat) : List Nat :=
  let n := v.length - head - tail
  let h := v.take head
  let m := (v.drop head).take n
  let z := v.drop (head + n)
  let tweak := packNibbles ((h ++ z ++ List.replicate 10 15).take 10) ++
    [BitVec.ofNat 8 (head * 16 + tail), BitVec.ofNat 8 gen, 0]
  h ++ (if enc then ff1Enc else ff1Dec) (aesC k.material) 10 tweak m ++ z

/-- The needs of a window: ownership, and lines that the Keep lacks. -/
def windowNeeds (s : State) (p : Nat) (ls : List Nat) (excl : Bool) : List Need :=
  .keep (ls.map (keepKey p 1)) excl :: (ls.filter (fun i => (keepLine s p 1 i).isNone)).map Need.fillLine

/-- What TOKENIZE and TOKEN_RETIRE do to the PAN entry, from its window: the entry's place and GEN (R169). `none`: the
window has no place; the flag is NEW. -/
def panStep (l : List TokEnt) (fp : Nat) : Option (Nat × Nat × Bool) :=
  match findEnt l fp 1 with
  | some i => some (i, (l.getD i ⟨0, 0, 0⟩).gen, false)
  | none => match findEnt l fp 2 with
    | some i => some (i, (l.getD i ⟨0, 0, 0⟩).gen + 1, true)
    | none => (freeEnt l [0]).map (fun i => (i, 0, true))

/-- Some entry of a window has a reserved STATE. -/
def entsBad (l : List TokEnt) : Bool := l.any (fun e => decide (e.st > 2))

/-- The places and values of a token figure. -/
structure TokView where
  /-- Partition. -/
  p : Nat
  /-- Key record. -/
  k : KeyRec
  /-- Its index key. -/
  ikey : Bytes
  /-- KEEP_HEAD. -/
  head : Nat
  /-- KEEP_TAIL. -/
  tail : Nat
  /-- The digits of the call. -/
  digits : List Nat
  /-- Opcode. -/
  op : Nat

/-- The view of the call in a context. -/
def tokView (s : State) (t c : Nat) : TokView :=
  let d := workDesc s t c
  { p := partOf d, k := keyOf s t c 0, ikey := tcIndexKey s t (partOf d) (hIdx (handleOf d 0)) (keyOf s t c 0), head := par d 64, tail := par d 65,
    digits := panDigits d 68, op := opOf d }

/-- The figure goes to its next phase: its lane is released and saved, values are kept, and the next window is asked for, then the lane
again (08 R259). -/
def tokNext (s : State) (t c : Nat) (vals : List Nat) (needs : List Need) : State :=
  let x := s.ctx t c
  stepBack (s.setCtx t c { x with work := { x.work with phase := x.work.phase + 1, vals := vals } }) t c needs

/-- GEN that the first window gives: 0 where it gives none (R169). -/
def firstGen (v : TokView) (l : List TokEnt) (fp : Nat) : Nat :=
  if v.op = 0x0602 then ((findEnt l fp 1).map (fun i => (l.getD i ⟨0, 0, 0⟩).gen)).getD 0
  else ((panStep l fp).map (fun x => x.2.1)).getD 0 % 256

/-- The other value: the token of a PAN, or the PAN of a token. -/
def tokOther (v : TokView) (gen : Nat) : List Nat := tokenFf1 v.k v.head v.tail gen (v.op != 0x0602) v.digits

/-- The end of TOKENIZE: both windows are held (R169, R170). -/
def tokenizeEnd (s : State) (t c : Nat) (v : TokView) : State :=
  let a := probe v.ikey false v.digits
  let lp := probeWindow v.k false a.1
  let ep := windowEnts s v.p lp
  let g := firstGen v ep a.2
  let tok := tokOther v g
  let b := probe v.ikey true tok
  let lt := probeWindow v.k true b.1
  let et := windowEnts s v.p lt
  let fin := fun (st : Nat) (r : Bytes) => finishCall s t c st 236 0 r
  let res := fun (new : Nat) => panBytes tok ++ leBytes 1 g ++ leBytes 1 new
  if entsBad ep || entsBad et then fin stIntegrity []
  else match panStep ep a.2 with
    | none => fin stCapacity [3]
    | some (i, gen, new) =>
      if gen > 255 then fin stBadParam []
      else if !new then
        if et.any (fun e => e.fp == b.2 && e.st == 1 && e.gen == gen) then fin stOk (res 0) else fin stIntegrity []
      else match freeEnt et [0, 2] with
        | none => fin stCapacity [3]
        | some j =>
          let ls := windowPut s v.p lp i { fp := a.2, st := 1, gen := gen } ++
            windowPut s v.p lt j { fp := b.2, st := 1, gen := gen }
          if vaultOnline s then finalStep s t c (copyKeys (rawCopies ls)) (fun a =>
            passGroup a t c { lines := ls } (rawCopies ls) (stOk, 236, 0, res 1)) else fin stVaultUnreach []

/-- The end of TOKEN_RETIRE (R169). An active PAN entry whose active token entry is missing ends it INTEGRITY, as it ends TOKENIZE
(DESIGN CHOICE, log 136). -/
def tokenRetireEnd (s : State) (t c : Nat) (v : TokView) : State :=
  let a := probe v.ikey false v.digits
  let lp := probeWindow v.k false a.1
  let ep := windowEnts s v.p lp
  let g := firstGen v ep a.2
  let b := probe v.ikey true (tokOther v g)
  let lt := probeWindow v.k true b.1
  let et := windowEnts s v.p lt
  let fin := fun (st : Nat) => finishCall s t c st 236 0 []
  if entsBad ep || entsBad et then fin stIntegrity
  else match findEnt ep a.2 1 with
    | none => fin stVerifyFail
    | some i => match et.findIdx? (fun e => e.fp == b.2 && e.st == 1 && e.gen == g) with
      | none => fin stIntegrity
      | some j =>
        let ls := windowPut s v.p lp i { fp := a.2, st := 2, gen := g } ++ windowPut s v.p lt j { fp := b.2, st := 2, gen := g }
        if vaultOnline s then finalStep s t c (copyKeys (rawCopies ls)) (fun a =>
          passGroup a t c { lines := ls } (rawCopies ls) (stOk, 236, 0, leBytes 1 g)) else fin stVaultUnreach

/-- The end of DETOKENIZE: `vals` hold what the token window gave. -/
def detokenizeEnd (s : State) (t c : Nat) (v : TokView) : State :=
  let vals := (s.ctx t c).work.vals
  let g := vals.getD 1 0
  let pan := tokOther v g
  let a := probe v.ikey false pan
  let ep := windowEnts s v.p (probeWindow v.k false a.1)
  if vals.getD 2 0 = 1 ∨ entsBad ep then finishCall s t c stIntegrity 230 0 []
  else
    let ok := vals.getD 0 0 == 1 && ep.any (fun e => e.fp == a.2 && e.st == 1 && e.gen == g)
    finishCall s t c (if ok then stOk else stVerifyFail) 230 0 (if ok then panBytes pan else [])

/-- A window's lines are in the Keep; those evicted since they were asked for are filled again (07 R226). -/
def withWindow (s : State) (t c p : Nat) (ls : List Nat) (f : State → State) : State :=
  let gone := (ls.filter (fun i => (keepLine s p 1 i).isNone)).map Need.fillLine
  if gone.isEmpty then f s else stepBack s t c gone

/-- The first window of a token figure has been read: GEN and what it gave are kept, and the second window is asked for. -/
def tokenSecond (t c : Nat) (v : TokView) (s : State) : State :=
  let de := v.op == 0x0602
  let a := probe v.ikey de v.digits
  let e1 := windowEnts s v.p (probeWindow v.k de a.1)
  let g := firstGen v e1 a.2
  let b := probe v.ikey (!de) (tokOther v g)
  let found := de && (findEnt e1 a.2 1).isSome
  let x := s.ctx t c
  let s1 := if de then s.setCtx t c { x with grant := [] } else s
  tokNext s1 t c [flag found, g, flag (entsBad e1)] (windowNeeds s1 v.p (probeWindow v.k (!de) b.1) (!de))

/-- A token figure: the hash of the given value, then the first window, then the second. -/
def tokenFigure (t c : Nat) (s : State) : State :=
  let v := tokView s t c
  let de := v.op == 0x0602
  let a := probe v.ikey de v.digits
  let l1 := probeWindow v.k de a.1
  let b := probe v.ikey (!de) (tokOther v ((s.ctx t c).work.vals.getD 1 0))
  let l2 := probeWindow v.k (!de) b.1
  match (s.ctx t c).work.phase with
  | 0 => tokNext s t c [] (windowNeeds s v.p l1 (!de))
  | 1 => withWindow s t c v.p l1 (tokenSecond t c v)
  | _ => withWindow s t c v.p (if de then l2 else l1 ++ l2) (fun s =>
      if v.op = 0x0601 then tokenizeEnd s t c v else if de then detokenizeEnd s t c v else tokenRetireEnd s t c v)

/-! ## The rows -/

/-- CVV_GENERATE. -/
def execCvvGenerate (tower ctx : Nat) (fault : FigFault) (s : State) : Out := .next (runFigure s tower ctx 0x0301 fault (cvvGenerate tower ctx))

/-- CVV_VERIFY. -/
def execCvvVerify (tower ctx : Nat) (fault : FigFault) (s : State) : Out := .next (runFigure s tower ctx 0x0302 fault (cvvVerify tower ctx))

/-- DCVV_VERIFY. -/
def execDcvvVerify (tower ctx : Nat) (fault : FigFault) (s : State) : Out := .next (runFigure s tower ctx 0x0303 fault (dcvvVerify tower ctx))

/-- ARQC_VERIFY. -/
def execArqcVerify (tower ctx : Nat) (fault : FigFault) (s : State) : Out := .next (runFigure s tower ctx 0x0304 fault (arqcVerify tower ctx))

/-- SCRIPT_MAC. -/
def execScriptMac (tower ctx : Nat) (fault : FigFault) (s : State) : Out := .next (runFigure s tower ctx 0x0305 fault (scriptMac tower ctx))

/-- MAC_GENERATE. -/
def execMacGenerate (tower ctx : Nat) (fault : FigFault) (s : State) : Out := .next (runFigure s tower ctx 0x0401 fault (macGenerate tower ctx))

/-- MAC_VERIFY. -/
def execMacVerify (tower ctx : Nat) (fault : FigFault) (s : State) : Out := .next (runFigure s tower ctx 0x0402 fault (macVerify tower ctx))

/-- DATA_ENCRYPT. -/
def execDataEncrypt (tower ctx : Nat) (fault : FigFault) (s : State) : Out := .next (runFigure s tower ctx 0x0501 fault (dataFigure tower ctx))

/-- DATA_DECRYPT. -/
def execDataDecrypt (tower ctx : Nat) (fault : FigFault) (s : State) : Out := .next (runFigure s tower ctx 0x0502 fault (dataFigure tower ctx))

/-- DATA_TRANSLATE. -/
def execDataTranslate (tower ctx : Nat) (fault : FigFault) (s : State) : Out := .next (runFigure s tower ctx 0x0503 fault (dataFigure tower ctx))

/-- TOKENIZE: one of its three phases. -/
def execTokenize (tower ctx : Nat) (fault : FigFault) (s : State) : Out := .next (runFigure s tower ctx 0x0601 fault (tokenFigure tower ctx))

/-- DETOKENIZE: one of its three phases. -/
def execDetokenize (tower ctx : Nat) (fault : FigFault) (s : State) : Out := .next (runFigure s tower ctx 0x0602 fault (tokenFigure tower ctx))

/-- TOKEN_RETIRE: one of its three phases. -/
def execTokenRetire (tower ctx : Nat) (fault : FigFault) (s : State) : Out := .next (runFigure s tower ctx 0x0603 fault (tokenFigure tower ctx))

end Sys2Proof.Machine
end

