-- ==== Sys2Proof/Machine/KeyFam.lean ====
section
/-! DEFINITION. The figures of family 0x07: creating, deriving, destroying and rotating keys, key blocks, public keys and
binding records (06 R180 to R213). -/

namespace Sys2Proof.Machine

/-! ## Key blocks (R206, R207; ANSI X9.143 is named and not restated: PRESUMED, log 5) -/

/-- The value of a hexadecimal digit, upper or lower case. -/
def hexVal (c : Byte) : Option Nat :=
  let n := c.toNat
  if 48 ≤ n ∧ n ≤ 57 then some (n - 48)
  else if 65 ≤ n ∧ n ≤ 70 then some (n - 55)
  else if 97 ≤ n ∧ n ≤ 102 then some (n - 87)
  else none

/-- The nibbles of a hexadecimal string; none where a character is no digit. -/
def hexNibs (b : Bytes) : Option (List Nat) := b.mapM hexVal

/-- The bytes of a hexadecimal string of even length. -/
def hexBytes (b : Bytes) : Option Bytes := if b.length % 2 = 1 then none else (hexNibs b).map packNibbles

/-- The value of a hexadecimal string. -/
def hexNum (b : Bytes) : Option Nat := (hexNibs b).map (numVal 16)

/-- The value of a decimal string. -/
def decNum (b : Bytes) : Option Nat := match hexNibs b with
  | some l => if l.all (· < 10) then some (numVal 10 l) else none
  | none => none

/-- Upper-case hexadecimal characters of a byte string. -/
def toHex (b : Bytes) : Bytes := (nibbles b).map (fun n => BitVec.ofNat 8 (if n < 10 then 48 + n else 55 + n))

/-- `n` decimal characters of a number. -/
def toDec (n v : Nat) : Bytes := (numStr 10 n v).map (fun x => BitVec.ofNat 8 (48 + x))

/-- One optional block: its identifier and its data. -/
abbrev OptBlock := Bytes × Bytes

/-- Reads `n` optional blocks; the number is their length in all. -/
def optBlocks : Nat → Bytes → Option (List OptBlock × Nat)
  | 0, _ => some ([], 0)
  | n + 1, b => match hexNum (sub b 2 2) with
    | none => none
    | some l0 =>
      let (hd, l) := if l0 ≠ 0 then (4, l0)
        else let k := ((hexNum (sub b 4 2)).getD 0)
          (6 + 2 * k, ((hexNum (sub b 6 (2 * k))).getD 0))
      if l < hd ∨ b.length < l then none
      else (optBlocks n (b.drop l)).map (fun r => ((b.take 2, sub b hd (l - hd)) :: r.1, r.2 + l))

/-- A key block read by its header (R208 step 1). -/
structure KeyBlock where
  /-- Version letter. -/
  ver : Nat
  /-- Header with its optional blocks. -/
  header : Bytes
  /-- Optional blocks. -/
  opts : List OptBlock
  /-- Enciphered key field. -/
  field : Bytes
  /-- MAC. -/
  mac : Bytes

/-- Block length of a version. -/
def kbBlock (ver : Nat) : Nat := if ver = 0x44 then 16 else 8

/-- The block parses: syntax, length field, version against the KBPK's algorithm, optional block structure. -/
def parseBlock (kbpk : KeyRec) (b : Bytes) : Option KeyBlock :=
  let ver := byteAt b 0
  let n := kbBlock ver
  if !((ver = 0x42 ∧ isTdes kbpk.alg) ∨ (ver = 0x44 ∧ isAes kbpk.alg)) then none
  else match decNum (sub b 1 4), decNum (sub b 12 2), optBlocks ((decNum (sub b 12 2)).getD 0) (b.drop 16) with
    | some len, some _, some (os, ol) =>
      let h := 16 + ol
      if len ≠ b.length ∨ h % n ≠ 0 ∨ b.length < h + 4 * n ∨ (b.length - h - 2 * n) % (2 * n) ≠ 0 then none
      else match hexBytes (sub b h (b.length - h - 2 * n)), hexBytes (b.drop (b.length - 2 * n)) with
        | some f, some m => some { ver := ver, header := b.take h, opts := os, field := f, mac := m }
        | _, _ => none
    | _, _, _ => none

/-- The encryption key (`use` 0) or the authentication key (`use` 1) of a KBPK. -/
def kbDerive (ver : Nat) (kbpk : KeyRec) (use : Nat) : Bytes :=
  let len := algBytes kbpk.alg
  let c := cipherOf kbpk
  let n := kbBlock ver
  (((List.range (ceilDiv len n)).map (fun i =>
    cmac c (leBytes 1 (i + 1) ++ beBytes 2 use ++ [0] ++ beBytes 2 (kbpk.alg - 1) ++ beBytes 2 (8 * len)))).flatten).take len

/-- The cipher of a key block version under a derived key. -/
def kbCipher (ver : Nat) (k : Bytes) : BlockCipher := if ver = 0x44 then aesC k else tdesC k

/-- The clear key field and whether the MAC matches (R208 steps 3 and 4). -/
def openBlock (kbpk : KeyRec) (k : KeyBlock) : Bytes × Bool :=
  let clear := cbcDec (kbCipher k.ver (kbDerive k.ver kbpk 0)) k.mac k.field
  (clear, cmac (kbCipher k.ver (kbDerive k.ver kbpk 1)) (k.header ++ clear) == k.mac)

/-- ALG of an algorithm letter and a key of `n` bytes; 0 where it is refused (R206). -/
def blockAlg (letter n : Nat) : Nat :=
  if letter = chr "T" then (if n = 16 then 1 else if n = 24 then 2 else 0)
  else if letter = chr "A" then (if n = 16 then 3 else if n = 24 then 4 else if n = 32 then 5 else 0)
  else if letter = chr "H" ∧ 1 ≤ n ∧ n ≤ 32 then 6 else 0

/-- An optional block by its identifier. -/
def optOf (os : List OptBlock) (id : String) : Option Bytes := (os.find? (fun o => o.1 == ascii id)).map (·.2)

/-- The attributes of the 0N block: none where it is malformed. -/
def opt0N (os : List OptBlock) : Option (Nat × Nat × Nat) :=
  match optOf os "0N" with
  | none => some (0, 2 ^ 48 - 1, 0)
  | some b => if b.length ≠ 26 then none
    else match hexNum (b.take 12), hexNum (sub b 12 12), hexNum (b.drop 24) with
      | some x, some y, some z => some (x, y, z)
      | _, _, _ => none

/-- EXT of an imported B1 key, from its KS or IK block; none where the block is missing or malformed (R207). EXT holds the KSN with a zero
counter (R188): counter bits that the block carries are dropped (DESIGN CHOICE, log 107). -/
def optB1 (alg : Nat) (os : List OptBlock) : Option Bytes :=
  if isTdes alg then ((optOf os "KS").bind hexBytes).bind (fun k => if k.length = 10 then some (ksnBase 1 k) else none)
  else ((optOf os "IK").bind hexBytes).bind (fun k => if k.length = 8 then some k else none)

/-- A check-value block agrees with a check value. -/
def optKcv (os : List OptBlock) (id : String) (kcv : Bytes) : Bool :=
  match optOf os id with
  | none => true
  | some b => hexBytes (b.take 6) == some kcv

/-- The imported record: none where step 5 of R208 refuses it. -/
def importRec (kbpk : KeyRec) (cls : Nat) (k : KeyBlock) : Option KeyRec :=
  let (clear, macOk) := openBlock kbpk k
  let bits := beAt clear 0 2
  let n := bits / 8
  let h := k.header
  let alg := blockAlg (byteAt h 7) n
  let usage := beAt h 5 2
  let mode := byteAt h 8
  let ver := beAt h 9 2
  let m := sub clear 2 n
  let known := k.opts.all (fun o => (["KS", "IK", "KC", "KP", "TS", "PB", "0N"].map ascii).contains o.1)
  let b1 := usage == usageOf "B1"
  match opt0N k.opts with
  | none => none
  | some (nb, na, fl) =>
    let ext := if b1 then optB1 alg k.opts else some []
    if macOk && bits % 8 == 0 && alg != 0 && decide (n + 2 ≤ clear.length) && attrRow usage alg mode && decide (alg ≤ 6) &&
        exportChar (byteAt h 11) && versionOk (if ver = 0x3030 then 0 else ver) && flagsOk fl usage alg mode cls && known &&
        decide (nb < na) && ext.isSome && optKcv k.opts "KC" (kcvSym alg m) && optKcv k.opts "KP" (kcvSym kbpk.alg kbpk.material) then
      some { format := 1, alg := alg, usage := usage, mode := mode, exportC := byteAt h 11, flags := fl,
             version := if ver = 0x3030 then 0 else ver, lines := 2, notBefore := nb, notAfter := na, kcv := kcvSym alg m,
             keylen := n, ext := fit 16 (ext.getD []), material := m }
    else none

/-- K + C(n) + E·b/B of R209 for a key field of `e` bytes and a header of `h` bytes. -/
def kbWork (ver alg h e : Nat) : Nat :=
  let n := kbBlock ver
  let b := laneTime alg
  (if ver = 0x44 then 20 else 41) + e / n * b + cmacBody b ((h + e) / n)

/-- The key field of an export: bit length, key and padding; the padding bytes are free (R212; log 3). -/
def exportField (ver : Nat) (k : KeyRec) (pad : Bytes) : Bytes :=
  let n := kbBlock ver
  let w := alignUp (2 + (if isTdes k.alg then 24 else 32)) n
  (beBytes 2 (8 * k.keylen) ++ k.material ++ pad).take w

/-- The optional blocks of an export, padding apart (R207). -/
def exportOpts (k : KeyRec) : List OptBlock :=
  (if k.usage = usageOf "B1" then
    [if isTdes k.alg then (ascii "KS", toHex (k.ext.take 10)) else (ascii "IK", toHex (k.ext.take 8))] else []) ++
  (if k.notBefore = 0 ∧ k.notAfter = 2 ^ 48 - 1 ∧ k.flags = 0 then []
   else [(ascii "0N", toHex (beBytes 6 k.notBefore ++ beBytes 6 k.notAfter ++ leBytes 1 k.flags))])

/-- An optional block as it is written. -/
def optText (o : OptBlock) : Bytes := o.1 ++ toHex (leBytes 1 (o.2.length + 4)) ++ o.2

/-- Optional blocks padded to the block length with PB; its data are '0' (PRESUMED, log 5). -/
def padOpts (n : Nat) (os : List OptBlock) : List OptBlock :=
  let r := (n - (os.flatMap optText).length % n) % n
  if r = 0 then os else os ++ [(ascii "PB", List.replicate ((if r < 4 then r + n else r) - 4) 48)]

/-- The algorithm letter of a key. -/
def algLetter (a : Nat) : Bytes := if isTdes a then ascii "T" else if isAes a then ascii "A" else ascii "H"

/-- The header of an export. -/
def exportHeader (ver : Nat) (k : KeyRec) (total : Nat) (os : List OptBlock) : Bytes :=
  leBytes 1 ver ++ toDec 4 total ++ beBytes 2 k.usage ++ algLetter k.alg ++ leBytes 1 k.mode ++
    (if k.version = 0 then ascii "00" else beBytes 2 k.version) ++ leBytes 1 k.exportC ++ toDec 2 os.length ++ ascii "00" ++
    os.flatMap optText

/-- An exported key block. -/
def exportBlock (ver : Nat) (kbpk k : KeyRec) (pad : Bytes) : Bytes :=
  let n := kbBlock ver
  let f := exportField ver k pad
  let os := padOpts n (exportOpts k)
  let h := exportHeader ver k (16 + (os.flatMap optText).length + 2 * f.length + 2 * n) os
  let mac := cmac (kbCipher ver (kbDerive ver kbpk 1)) (h ++ f)
  h ++ toHex (cbcEnc (kbCipher ver (kbDerive ver kbpk 0)) mac f) ++ toHex mac

/-! ## Parameter checks -/

/-- The Reel second current at cycle 0 of a call (01 R20). -/
def callSecond (k : Call) : Nat := (k.bell.getD 0) / 1024

/-- ALG of a KIND of KEY_IMPORT_PK (R205). -/
def kindAlg (k : Nat) : Nat :=
  match k with
  | 1 => 0x18
  | 2 => 0x10
  | 3 => 0x11
  | 4 => 0x12
  | 5 => 0x13
  | 6 => 0x22
  | _ => 0x23

/-- USAGE and MODE that a public key takes. -/
def pubUse (alg usage mode : Nat) : Bool :=
  (usage == usageOf "S0" && mode == chr "V") || (alg == 0x18 && usage == usageOf "D1" && mode == chr "E") ||
    (isEc alg && usage == usageOf "K3" && mode == chr "N")

/-- EXPORT of a child is no less restrictive than its parent's: 'N', then 'E', then 'S'. -/
def exportRank (e : Nat) : Nat := if e = chr "N" then 0 else if e = chr "E" then 1 else 2

/-- A schedule is allowed for a key (R203). -/
def rotateOk (d : Bytes) (k : KeyRec) (cls now : Nat) : Bool :=
  let at_ := leAt d 68 6
  cls == 1 && k.format == 1 && !bitOf k.flags 1 && k.usage != usageOf "B1" && k.usage != usageOf "K1" && k.rotState == 0 &&
    decide (now < at_) && decide (at_ < effNotAfter k) && decide (at_ < leAt d 86 6) && versionOk (beAt d 92 2)

/-- The parameter checks of family 0x07: the status of the first failure. The window of a parent ends at its stored NOT_AFTER, SCHEDULED
or not (R199; DEDUCED, log 50); KEY_DERIVE, whose layout has no table geometry, ends BAD_PARAMETER with FLAGS.TOKENIZATION (R196; DESIGN
CHOICE, log 138); so does KIND 0x05 that names an empty curve slot (R205; DESIGN CHOICE, log 141). -/
def keyParams (s : State) (call : Call) (d : Bytes) (ks : List KeyRec) : Option Nat :=
  let p := partOf d
  let k0 := ks.getD 0 {}
  let cls := par d 65
  let named := leAt d 88 6
  let a := attrRec d
  let ok := fun (b : Bool) => if b then none else some stBadParam
  match opOf d with
  | 0x0701 =>
    ok (attrChecks s p cls named a false (par d 71) &&
      tokenChecks s p (targetIdx s p cls named 2) a.flags (par d 96) (leAt d 98 6) (leAt d 104 6))
  | 0x0704 =>
    ok (attrChecks s p cls named a true (par d 71) && !bitOf a.flags 1 && decide (par d 96 ≤ 31) &&
      decide (exportRank a.exportC ≤ exportRank k0.exportC) && decide (k0.notBefore ≤ a.notBefore) &&
      decide (a.notAfter ≤ k0.notAfter))
  | 0x0707 =>
    let kind := par d 64
    if kind ≥ 0x10 then ok (isMf call.fn)
    else
      ok (pubUse (kindAlg kind) (beAt d 66 2) (par d 68) && par d 70 == 0 && versionOk (beAt d 72 2) &&
        decide (leAt d 74 6 < leAt d 80 6) && recordField s p cls named 2 &&
        (kind != 5 || (tblGet none s.curves.slots (par d 71)).isSome))
  | 0x0709 =>
    if call.bell.isNone then some stTimeUnknown
    else if par d 64 = 1 then ok (k0.rotState == 1 && decide (callSecond call < k0.rotateAt))
    else ok (rotateOk d k0 (hCls (handleOf d 0)) (callSecond call) && recordField s p 1 (leAt d 80 6) 2)
  | _ => none

/-! ## Needs -/

/-- Lanes for a check value, and for the figure's own work on the key. -/
def kcvLanes (alg : Nat) : List Need :=
  if alg = 6 then [.lanes true 1 1] else if alg ≤ 6 then [.lanes false 1 (if isTdes alg then 2 else 1)] else []

/-- LINES of a public key of `n` bytes: its record is not wrapped (R187). -/
def pubLines (n : Nat) : Nat := linesFor n

/-- Bytes of a public key by KIND, where the KIND fixes it. -/
def kindLen (s : State) (d : Bytes) : Nat :=
  match curveOf s (kindAlg (par d 64)) (par d 71) with
  | some e => 1 + 2 * e.fb
  | none => pubLen (kindAlg (par d 64)) 0

/-- Needs of family 0x07 after list, blob and key fetch. -/
def keyNeeds (s : State) (d : Bytes) (ks : List KeyRec) : List Need :=
  let p := partOf d
  let k0 := ks.getD 0 {}
  let cls := par d 65
  let named := leAt d 88 6
  let h := handleOf d 0
  let cfg := fun (k : KeyRec) => if isTdes k.alg then 2 else 1
  let mk := fun (c n l : Nat) => createNeeds s p c (targetIdx s p c n l) l
  let own := recKeys (hPart h) (hCls h) (hIdx h) k0.lines
  match opOf d with
  | 0x0701 => mk cls named 2 ++ kcvLanes (par d 64) ++ drawNeeds (attrRec d).keylen
  | 0x0702 =>
    mk (par d 64) (leAt d 68 6) 2 ++ [.lanes false 2 (cfg k0)]
  | 0x0703 => [.lanes false 2 (cfg k0)]
  | 0x0704 =>
    mk cls named 2 ++ [.lanes false 1 4] ++ (if par d 64 = 6 then [.lanes true 1 1] else [])
  | 0x0705 => keepNeeds own ++ (if hCls h = 1 then missing s p (hIdx h) 1 else [])
  | 0x0707 =>
    let kind := par d 64
    if kind = 0x10 then [.spire, .lanes true 1 2]
    else if kind = 0x11 ∨ kind = 1 then []
    else
      let l := pubLines (kindLen s d)
      mk cls named l ++ (if isEc (kindAlg kind) then [.spire] else [])
  | 0x0708 => kcvLanes k0.alg
  | 0x0709 =>
    if par d 64 = 1 then
      .keep (own ++ recKeys p 1 k0.successor 2) true :: (missing s p (hIdx h) 2 ++ missing s p k0.successor 2)
    else
      let t := targetIdx s p 1 (leAt d 80 6) 2
      .keep (own ++ recKeys p 1 t 2) true :: (missing s p (hIdx h) 2 ++ missing s p t 1 ++ kcvLanes k0.alg ++ drawNeeds k0.keylen)
  | _ => []

/-! ## Figures -/

/-- Path cycles of KEY_GENERATE (R198). -/
def genPath (k : KeyRec) : Nat :=
  34 + ceilDiv k.keylen 16 + (if isTdes k.alg then 1 else 0) + kcvCycles k.alg + 8 + 14

/-- Material from drawn bytes: TDES keys get odd parity (R198). -/
def genMaterial (k : KeyRec) (r : Bytes) : Bytes := if isTdes k.alg then oddParity (r.take k.keylen) else r.take k.keylen

/-- KEY_GENERATE. -/
def keyGenerate (t c : Nat) (s : State) : State :=
  let d := workDesc s t c
  let a := attrRec d
  let r := drawnOf s t c
  let m := genMaterial a r
  let ext := if bitOf a.flags 1 then leBytes 1 (par d 96) ++ sub d 98 6 ++ sub d 104 6 else []
  createRecord s t c (attrNew d { a with material := m, kcv := kcvSym a.alg m, ext := fit 16 ext })
    (genPath a) 0 [] [] createResults

/-- KEY_DERIVE: the lane's key register holds K0, and then the child key (06 R199; 08 R262). -/
def keyDerive (t c : Nat) (s : State) : State :=
  let d := workDesc s t c
  let a := attrRec d
  let bits := if a.alg = 6 then 256 else 8 * a.keylen
  let r := ({ key := (keyOf s t c 0).material } : LaneRegs).deriveKey "KDRV" (sub d 97 (par d 96) ++ sub d 64 10) bits
  createRecord (holdLane s t c r) t c (attrNew d (symRec d r.key)) (34 + 1 + 20 + kcvCycles a.alg + 8 + 14) 0 [] []
    createResults

/-- KEY_IMPORT_BLOCK (R208, R209). A header that does not parse gives no E and no n: its path value is a free value
(log 3). A block whose FLAGS set TOKENIZATION, for which there is no table geometry, ends BAD_PARAMETER after step 5 (DESIGN CHOICE,
log 139); the two further checks end the call at the cycles of step 5 and 13 (DESIGN CHOICE, log 140). -/
def keyImportBlock (t c : Nat) (s : State) : State :=
  let d := workDesc s t c
  let kbpk := keyOf s t c 0
  let cls := par d 64
  let named := leAt d 68 6
  let p := partOf d
  match parseBlock kbpk (inputOf s t c) with
  | none =>
    let (s1, n) := s.takeFree
    finishCall s1 t c stKeyBlock (Config.freeValue n % 2 ^ 32) 0 []
  | some b =>
    let mid := 34 + 4 + kbWork b.ver kbpk.alg b.header.length b.field.length + 1
    match importRec kbpk cls b with
    | none => finishCall s t c stKeyBlock (mid + 13) 0 []
    | some k =>
      if strength k.alg > strength kbpk.alg then finishCall s t c stKeyUsage (mid + 13) 0 []
      else if !recordField s p cls named 2 || bitOf k.flags 1 then finishCall s t c stBadParam (mid + 13) 0 []
      else
        createRecord s t c { part := p, cls := cls, named := named, body := k }
          (mid + kcvCycles k.alg + 8 + 14) 0 [] [] createResults

/-- KEY_EXPORT_BLOCK (R210 to R212). -/
def keyExportBlock (t c : Nat) (s : State) : State :=
  let d := workDesc s t c
  let kbpk := keyOf s t c 0
  let k := keyOf s t c 1
  let ver := par d 64
  let (s0, pad) := s.takeBytes 48
  let out := exportBlock ver kbpk k pad
  let e := (exportField ver k pad).length
  let table := 34 + kbWork ver kbpk.alg (out.length - 2 * e - 2 * kbBlock ver) e + 4 + 14
  let (s1, ok) := writeOut s0 t c out
  if ok then finishCall s1 t c stOk table 0 (leBytes 2 out.length ++ fit 3 k.kcv) else s1

/-- KEY_DESTROY (R200): FORMAT 0x00 with CHECK kept; the record's other lines become empty. A second destruction finds no
key. -/
def keyDestroy (t c : Nat) (s : State) : State :=
  let h := handleOf (workDesc s t c) 0
  let p := hPart h
  let cls := hCls h
  let idx := hIdx h
  let k := keyOf s t c 0
  let ls := (p, idx, emptyLine k.check) :: (List.range (k.lines - 1)).map (fun i => (p, idx + 1 + i, zeros 64))
  let body := fun (s : State) =>
    if oldFormat s p cls idx = 0 ∨ oldCheck s p cls idx ≠ hCheck h then finishCall s t c stKeyNotFound 55 0 []
    else if cls = 1 then
      if !vaultOnline s then finishCall s t c stVaultUnreach 55 0 []
      else finalStep s t c (copyKeys (rawCopies ls)) (fun a =>
        passGroup (forgetKey a p cls idx k.lines) t c { lines := ls } (rawCopies ls) (stOk, 55, 0, []))
    else finishCall (putLine (forgetKey s p cls idx k.lines) p cls idx (emptyLine k.check) .pinned none) t c stOk 55 0 []
  if cls = 1 then withLines s t c p idx 1 body else body s

/-- KEY_ATTRIBUTES (R201). -/
def keyAttributes (t c : Nat) (s : State) : State :=
  finishCall s t c stOk 45 0 ((encodeHead (keyOf s t c 0)).take 48)

/-- KEY_CHECK_VALUE (R201). -/
def keyCheckValue (t c : Nat) (s : State) : State :=
  let k := keyOf s t c 0
  if k.format ≠ 1 then finishCall s t c stOk 48 0 (fit 3 k.kcv)
  else
    let v := kcvSym k.alg k.material
    finishCall s t c (if v = k.kcv then stOk else stIntegrity) (34 + kcvCycles k.alg + 14) 0 (if v = k.kcv then v else [])

/-! ## Public keys and binding records -/

/-- A public key passes the validation of R205. -/
def pubOk (s : State) (d b : Bytes) : Bool :=
  let kind := par d 64
  match kind with
  | 1 =>
    let m := leAt b 0 4
    let e := leAt b (4 + m) 4
    let (n, x) := rsaPub b
    decide (128 ≤ m) && decide (m ≤ 512) && decide (1 ≤ e) && decide (e ≤ 32) && b.length == 8 + m + e && n % 2 == 1 &&
      bitLen n == 8 * m && x % 2 == 1 && decide (2 ^ 16 < x) && decide (x < 2 ^ 256)
  | 6 => b.length == 1952
  | 7 => b.length == 2592
  | _ => match curveOf s (kindAlg kind) (par d 71) with
    | none => false
    | some e => match decPoint e b with
      | none => false
      | some (x, y) => b.length == 1 + 2 * e.fb && onCurve e x y && (e.h == 1 || (ecMul e e.n (some (x, y))).isNone)

/-- The point check of an EC key: its step list and operands, its cycles, and whether ECCHK refuses the point. A key whose bytes are no
uncompressed point of the curve's length is rejected before any command (R205; 09 R285, R287; DEDUCED, log 128). -/
def pointCheck (s : State) (d b : Bytes) : List SpStep × List (Nat × Nat) × Nat × Bool :=
  match curveOf s (kindAlg (par d 64)) (par d 71) with
  | none => ([], [], 0, false)
  | some e =>
    if b.length ≠ 1 + 2 * e.fb ∨ byteAt b 0 ≠ 4 then ([], [], 0, false)
    else
      let off := (decPoint e b).isNone
      (ecCheckProg e, ecCheckOps e (rawPoint e b), 4 * spM (bitLen e.p) + (if e.h > 1 ∧ !off then 242 * bitLen e.n else 0), off)

/-- KEY_IMPORT_PK, KINDs 0x01 to 0x07 (R205). -/
def keyImportPk (t c : Nat) (s : State) : State :=
  let d := workDesc s t c
  let b := inputOf s t c
  let alg := kindAlg (par d 64)
  let (prog, ops, n, off) := pointCheck s d b
  let l := pubLines b.length
  let named := leAt d 88 6
  if !pubOk s d b then finishCall (spCall s t c prog ops n off) t c stKeyBlock (34 + 4 + n + 13) n []
  else if named ≠ recAny ∧ named % l ≠ 0 then finishCall (spCall s t c prog ops n false) t c stBadParam (34 + 4 + n + 13) n []
  else
    let ext := if alg = 0x18 then leBytes 2 (bitLen (rsaPub b).1) else if alg = 0x13 then leBytes 1 (par d 71) else []
    let k : KeyRec :=
      { format := 2, alg := alg, usage := beAt d 66 2, mode := par d 68, exportC := chr "S", version := beAt d 72 2,
        lines := l, notBefore := leAt d 74 6, notAfter := leAt d 80 6, kcv := (sha256 b).take 3, keylen := b.length,
        ext := fit 16 ext, material := b }
    createRecord (spireOnce s t c prog ops n) t c (attrNew d k) (34 + 4 + n + recWrite l + 14) n [] [] createResults

/-- The partitions bound to a TF (R180). -/
def boundTo (s : State) (f : Nat) : List Nat := (s.bind.filter (fun e => e.2 == some f)).map (·.1)

/-- BINDING_RECORD_IMPORT (R181, R182). -/
def bindingImport (t c : Nat) (s : State) : State :=
  let b := inputOf s t c
  let p := leAt b 4 2
  let f := leAt b 6 2
  let seq := leAt b 16 8
  let dd := descOf s p
  let n := ecVerifyCycles curveP384
  let table := 34 + 2 + 21 + n + 8 + 10
  let key := (decPoint curveP384 (sub dd 32 97)).getD (0, 0)
  let s1 := spireOnce s t c (ecVerifyProg curveP384) (ecVerifyOps curveP384 key (sha384 (b.take 64)) (beAt b 64 48) (beAt b 112 48)) n
  let sig := match decPoint curveP384 (sub dd 32 97) with
    | none => false
    | some q => ecdsaVerify curveP384 q (sha384 (b.take 64)) (beAt b 64 48) (beAt b 112 48)
  let rej := finishCall s1 t c stKeyBlock table n []
  if b.take 4 ≠ ascii "BIND" ∨ !zeroIn b 24 64 then rej
  else if !(1 ≤ p ∧ p < 1024 ∧ f < 1024 ∧ pstate s p = 1) then rej
  else if leAt b 8 8 ≠ s.fuse.serial then rej
  else if !sig then rej
  else if !(seq > leAt dd 8 8 ∨ (seq = leAt dd 8 8 ∧ f = leAt dd 4 2)) then rej
  else if tblGet none s.bind p ≠ some f ∧ (boundTo s f).length ≥ 4 then finishCall s1 t c stBadParam table n []
  else if !vaultOnline s then finishCall s1 t c stVaultUnreach table n []
  else
    let dd' := patch (patch dd 4 (leBytes 2 f)) 8 (leBytes 8 seq)
    writeDesc s1 t c p dd' [(p, tblGet none s1.bind p, some f)] (stOk, table, n, [])
      (fun a => { a with bind := tblSet none a.bind p (some f) })

/-- PARTITION_UNBIND (R183, R205). -/
def partitionUnbind (t c : Nat) (s : State) : State :=
  let p := leAt (workDesc s t c) 72 2
  if 1 ≤ p ∧ p < 1024 then finishCall { s with bind := tblSet none s.bind p none } t c stOk 52 0 []
  else finishCall s t c stKeyBlock 52 0 []

/-! ## Scheduled rotation (R202 to R204) -/

/-- The record of HANDLE0 as the Keep holds it now: none where it is no longer the key of the call. -/
def ownRec (s : State) (t c : Nat) : Option KeyRec :=
  let h := handleOf (workDesc s t c) 0
  match keepRec s (hPart h) (hCls h) (hIdx h) with
  | some k => if k.format ≠ 0 ∧ k.check = hCheck h then some k else none
  | none => none

/-- KEY_ROTATE_SCHEDULE, OP 0x00. -/
def rotateSchedule (t c : Nat) (s : State) : State :=
  let d := workDesc s t c
  let h := handleOf d 0
  let p := hPart h
  let idx := hIdx h
  let named := leAt d 80 6
  withLines s t c p idx 2 (fun s => match ownRec s t c, (s.ctx t c).call with
    | some k, some call =>
      let table := genPath k
      if !rotateOk d k 1 (callSecond call) then finishCall s t c stBadParam table 0 []
      else
        let at_ := leAt d 68 6
        let m := genMaterial k (drawnOf s t c)
        let succ : KeyRec :=
          { k with version := beAt d 92 2, rotState := 2, notBefore := at_, notAfter := leAt d 86 6, kcv := kcvSym k.alg m,
                   aead := 0, rotateAt := 0, successor := 0, ext := zeros 16, material := m }
        let old : KeyRec :=
          { k with rotState := 1, rotateAt := at_, successor := targetIdx s p 1 named 2,
                   ext := fit 12 k.ext ++ leBytes 4 (leAt d 74 4) }
        match recLines s p idx old with
        | none => finishCall s t c stVaultUnreach table 0 []
        | some l =>
          createRecord (tcDrop s (fun _ e => e.part == p && e.cls == 1 && e.idx == idx)) t c
            { part := p, cls := 1, named := named, body := succ } table 0 l.1 l.2 createResults
    | _, _ => finishCall s t c stKeyNotFound (genPath (keyOf s t c 0)) 0 [])

/-- ROTATE_CANCEL: KEY_ROTATE_SCHEDULE, OP 0x01. -/
def rotateCancel (t c : Nat) (s : State) : State :=
  let h := handleOf (workDesc s t c) 0
  let p := hPart h
  let idx := hIdx h
  withLines s t c p idx 2 (fun s => match ownRec s t c, (s.ctx t c).call with
    | some k, some call =>
      if !(k.rotState = 1 ∧ callSecond call < k.rotateAt) then finishCall s t c stBadParam 52 0 []
      else
        let old : KeyRec := { k with rotState := 0, rotateAt := 0, successor := 0, ext := fit 12 k.ext ++ zeros 4 }
        let z := k.successor
        withLines s t c p z 2 (fun s =>
          let gone := match keepRec s p 1 z with
            | some x => if x.format = 1 ∧ x.rotState = 2 ∧ x.notBefore = k.rotateAt then
                [(p, z, emptyLine x.check), (p, z + 1, zeros 64)] else []
            | none => []
          match recLines s p idx old with
          | none => finishCall s t c stVaultUnreach 52 0 []
          | some l =>
            if !vaultOnline s then finishCall s t c stVaultUnreach 52 0 []
            else finalStep s t c (copyKeys (l.2 ++ rawCopies gone)) (fun a =>
              let a1 := tcDrop a (fun _ e => e.part == p && e.cls == 1 && e.idx == idx)
              passGroup (if gone.isEmpty then a1 else forgetKey a1 p 1 z 2) t c
                { lines := l.1 ++ gone } (l.2 ++ rawCopies gone) (stOk, 52, 0, [])))
    | _, _ => finishCall s t c stKeyNotFound 52 0 [])

/-! ## The rows -/


/-- The context's figure is at its end and its byte 64 satisfies a test. -/
def atKind (s : State) (t c : Nat) (p : Nat → Bool) : Bool := p (par (workDesc s t c) 64)

/-- KEY_GENERATE. -/
def execKeyGenerate (tower ctx : Nat) (fault : FigFault) (s : State) : Out := .next (runFigure s tower ctx 0x0701 fault (keyGenerate tower ctx))

/-- KEY_IMPORT_BLOCK. -/
def execKeyImportBlock (tower ctx : Nat) (fault : FigFault) (s : State) : Out := .next (runFigure s tower ctx 0x0702 fault (keyImportBlock tower ctx))

/-- KEY_EXPORT_BLOCK. -/
def execKeyExportBlock (tower ctx : Nat) (fault : FigFault) (s : State) : Out := .next (runFigure s tower ctx 0x0703 fault (keyExportBlock tower ctx))

/-- KEY_DERIVE. -/
def execKeyDerive (tower ctx : Nat) (fault : FigFault) (s : State) : Out := .next (runFigure s tower ctx 0x0704 fault (keyDerive tower ctx))

/-- KEY_DESTROY. -/
def execKeyDestroy (tower ctx : Nat) (fault : FigFault) (s : State) : Out := .next (runFigure s tower ctx 0x0705 fault (keyDestroy tower ctx))

/-- KEY_ATTRIBUTES. -/
def execKeyAttributes (tower ctx : Nat) (fault : FigFault) (s : State) : Out := .next (runFigure s tower ctx 0x0706 fault (keyAttributes tower ctx))

/-- KEY_CHECK_VALUE. -/
def execKeyCheckValue (tower ctx : Nat) (fault : FigFault) (s : State) : Out := .next (runFigure s tower ctx 0x0708 fault (keyCheckValue tower ctx))

/-- KEY_IMPORT_PK. -/
def execKeyImportPk (tower ctx : Nat) (fault : FigFault) (s : State) : Out :=
  .next (if atKind s tower ctx (· < 0x10) then runFigure s tower ctx 0x0707 fault (keyImportPk tower ctx) else s)

/-- BINDING_RECORD_IMPORT. -/
def execBindingRecordImport (tower ctx : Nat) (fault : FigFault) (s : State) : Out :=
  .next (if atKind s tower ctx (· == 0x10) then runFigure s tower ctx 0x0707 fault (bindingImport tower ctx) else s)

/-- PARTITION_UNBIND. -/
def execPartitionUnbind (tower ctx : Nat) (fault : FigFault) (s : State) : Out :=
  .next (if atKind s tower ctx (· == 0x11) then runFigure s tower ctx 0x0707 fault (partitionUnbind tower ctx) else s)

/-- KEY_ROTATE_SCHEDULE. -/
def execKeyRotateSchedule (tower ctx : Nat) (fault : FigFault) (s : State) : Out :=
  .next (if atKind s tower ctx (· == 0) then runFigure s tower ctx 0x0709 fault (rotateSchedule tower ctx) else s)

/-- ROTATE_CANCEL. -/
def execRotateCancel (tower ctx : Nat) (fault : FigFault) (s : State) : Out :=
  .next (if atKind s tower ctx (· == 1) then runFigure s tower ctx 0x0709 fault (rotateCancel tower ctx) else s)

end Sys2Proof.Machine
end

