-- ==== Sys2Proof/Machine/Calls.lean ====
section
/-! DEFINITION. The path of a call: admission, dispatch, key fetch, and the reads of list, blob and input (01 R16 to R32;
03 R76 to R99; 06 R194; 10 R304 to R306). -/

namespace Sys2Proof.Machine

/-! ## The opcode map (03 R94) -/

/-- The defined opcodes. -/
def opDefined (op : Nat) : Bool :=
  let lo := op % 256
  let upTo := fun (n : Nat) => decide (1 ≤ lo) && decide (lo ≤ n)
  match op / 256 with
  | 0x00 => upTo 5
  | 0x01 => upTo 7
  | 0x02 => upTo 3
  | 0x03 => upTo 5
  | 0x04 => upTo 2
  | 0x05 => upTo 3
  | 0x06 => upTo 3
  | 0x07 => upTo 9
  | 0x08 => upTo 9
  | 0x09 => upTo 1
  | 0x0A => upTo 5
  | 0x0B => upTo 2
  | 0x0C => upTo 4
  | 0x0D => upTo 3
  | _ => false

/-- Layouts of family 0x00 (03 R94, R104). -/
def baseInfo (op : Nat) (mf : Bool) (d : Bytes) : OpInfo :=
  if op = 1 then { part := false, pEnd := 112 } else { part := false, pEnd := 70, bad := !mf && !zeroIn d 68 70 }

/-- What the opcode's layout says of a descriptor. -/
def opInfo (mf : Bool) (d : Bytes) : OpInfo :=
  let op := opOf d
  match op / 256 with
  | 0x00 => baseInfo op mf d
  | 0x01 => pinInfo op d
  | 0x02 => pinInfo op d
  | 0x07 => keyInfo op d
  | 0x08 => pkInfo op d
  | 0x09 => randomInfo d
  | 0x0A => vaultInfo op d
  | 0x0B => statementInfo op mf d
  | 0x0C => cerInfo op d
  | 0x0D => reelInfo op d
  | _ => cardInfo op d

/-- The opcodes whose list input is read whole as a blob (06 R213). -/
def blobOp (op : Nat) : Bool :=
  op == 0x0702 || op == 0x0707 || op == 0x0804 || op == 0x0809 || op == 0x0A04 || op == 0x0C01 || op == 0x0C02

/-! ## Admission (01 R21 to R25; 03 R80 to R86) -/

/-- The largest length of a stream. -/
def maxStream : Nat := 2 ^ 24

/-- The inline length of a descriptor whose opcode takes form 1. -/
def inlineLen (i : OpInfo) (d : Bytes) : Nat := if formOf d = 1 ∧ i.forms.contains 1 then leAt d 48 2 else 0

/-- A reserved field of the descriptor is set (R80). Bytes 48 to 63 are judged only where the opcode takes the form (R464). -/
def reservedSet (i : OpInfo) (d : Bytes) : Bool :=
  let f := formOf d
  byteAt d 11 != 0 || !zeroIn d 14 16 || (if i.part then decide (leAt d 12 2 ≥ 1024) else !zeroIn d 12 14) ||
    decide (byteAt d 2 ≥ 8) || f == 3 || decide (byteAt d 3 > 3) || !zeroIn d (16 + 8 * i.handles) 48 ||
    (i.forms.contains f &&
      (if f = 0 then !zeroIn d 48 64 else if f = 1 then !zeroIn d 50 64
       else leAt d 48 8 % 16 != 0 || decide (leAt d 56 4 ≥ 2 ^ 25) || decide (leAt d 60 4 ≥ 2 ^ 25))) ||
    !zeroIn d (i.pEnd + inlineLen i d) 128 || i.bad

/-- The length check: the required output length that RESULTS carries, where it fails (R86, R93). -/
def lengthFault (i : OpInfo) (d : Bytes) : Option Nat :=
  let f := formOf d
  if !i.forms.contains f || (f == 1 && decide (leAt d 48 2 > 128 - i.pEnd)) ||
      (f == 2 && (decide (leAt d 56 4 > maxStream) || decide (outCap d > maxStream))) || i.lenBad ||
      (f == 2 && blobOp (opOf d) && decide (inLenOf d > 4096)) then some 0
  else if (f = 2 ∧ outCap d < i.need) ∨ (f = 1 ∧ i.space < i.need) then some i.need
  else none

/-- The partition of the descriptor is bound to the function (03 R79; 06 R180). -/
def partBound (s : State) (fn : Nat) (d : Bytes) : Bool :=
  if isMf fn then partOf d == 0 else tblGet none s.bind (partOf d) == some fn

/-- A spoof: a violation, and a TF is frozen (01 R23; 13 R384). -/
def spoof (s : State) (fn kind : Nat) (d : Bytes) : State :=
  let s1 := logViolation s (if isMf fn then 1 else 0) kind false false fn (leAt d 8 2 + 65536 * leAt d 12 2) 0
  if isMf fn then s1 else freezeTf s1 fn

/-- The call that admission holds in its cycle 0. -/
def newCall (s : State) (fn q : Nat) (d : Bytes) : Call :=
  { fn := fn, qp := q, desc := d, seq := s.caller.seq, bell := if timeKnown s then some s.time.bell else none,
    degraded := degraded s, isJob := (opInfo (isMf fn) d).job,
    hash := Config.handleHash s.caller.hashKey (handleOf d 0) % 65536, cycle0 := s.cycle }

/-- Admission ends the call with a status after 29 cycles, and counts it as not billable (R24). -/
def rejectCall (s : State) (k : Call) (status : Nat) (results : Bytes) : State :=
  handoff (charge s k.fn 15 1) k (cplBytes k status (cflags false false false k.degraded) 29 results)

/-- The tally of an opcode's family (12 R355). -/
def familyTally (op : Nat) : Nat :=
  match op / 256 with
  | 1 => 1
  | 2 => 1
  | 3 => 2
  | 4 => 3
  | 5 => 4
  | 6 => 5
  | 7 => 6
  | 8 => 7
  | _ => 8

/-- The admission charge (12 R355). -/
def chargeAdmitted (s : State) (k : Call) : State :=
  if isMf k.fn then { s with mtr := { s.mtr with mfCalls := (s.mtr.mfCalls + 1) % 2 ^ 64 } }
  else charge (charge s k.fn 0 1) k.fn (familyTally (opOf k.desc)) 1

/-- The call waits in the job queue (10 R304). -/
def toJobQ (k : Call) : Bool := k.isJob || opOf k.desc == 3

/-- The call enters its queue. -/
def enqueue (s : State) (k : Call) : State :=
  if toJobQ k then { s with caller := { s.caller with jobQ := s.caller.jobQ ++ [k] } }
  else { s with caller := { s.caller with queues := s.caller.queues.modify (k.cls) (· ++ [k]) } }

/-- The block length of the key that a handle names, as far as the device holds the key: in a tower key cache or in the Keep. Of a key that
stands in the vault only admission takes the shorter one, and the key's own length is judged once it has been fetched (05 R160; DEDUCED, log
127). -/
def blockAt (s : State) (h : Nat) : Nat :=
  let held := (List.range 17).findSome? (fun t => tcLookup s t (hPart h) (hCls h) (hIdx h))
  match held <|> keepRec s (hPart h) (hCls h) (hIdx h) with
  | some k => if isAes k.alg then 16 else 8
  | none => 8

/-- What admission takes for the layout: that of a data call depends on its keys' block lengths (03 R86; 05 R160). -/
def admitInfo (s : State) (mf : Bool) (d : Bytes) : OpInfo :=
  if opOf d = 0x0501 ∨ opOf d = 0x0502 ∨ opOf d = 0x0503 then
    dataInfo (opOf d) d (blockAt s (handleOf d 0)) (blockAt s (handleOf d 1))
  else opInfo mf d

/-- The checks of admission in the order of R23, and the call's fate. -/
def admitCall (s : State) (fn q : Nat) (d : Bytes) : State :=
  let i := admitInfo s (isMf fn) d
  if byteAt d 10 ≠ (s.qp fn q).gen then s
  else if leAt d 8 2 ≠ fn then spoof s fn 2 d
  else
    let k := newCall s fn q d
    let take := fun (a : State) => (a.setQp fn q { a.qp fn q with live := (a.qp fn q).live + 1 })
    let s0 := { s with caller := { s.caller with seq := s.caller.seq + 1 } }
    if !opDefined (opOf d) ∨ (i.mfOnly ∧ !isMf fn) then rejectCall (take s0) { k with isJob := false } stIllegal []
    else if i.part ∧ !partBound s fn d then spoof s fn 3 d
    else if reservedSet i d then rejectCall (take s0) k stReserved []
    else match lengthFault i d with
      | some n => rejectCall (take s0) k stBadLength (leBytes 4 n)
      | none => enqueue (chargeAdmitted (take s0) k) k

/-- Each of the five queues has at least 6 free entries (10 R304). -/
def queuesOpen (s : State) : Bool :=
  s.caller.queues.all (fun l => decide (l.length ≤ 122)) && decide (s.caller.jobQ.length ≤ 250)

/-- ADMISSION: a round of ARB_QUEUE, in a cycle whose number is a multiple of 4: the queue pair that it grants gives its oldest
fetched descriptor to admission (01 R21; 10 R308). In SCRAP and LOST no call is admitted (14 R392). -/
def execAdmission (s0 : State) : Out :=
  let s := commitArb s0
  if decide (s.lcs.st ≥ 5) || !queuesOpen s || s.cycle % 4 != 0 || decide (s.cycle < s.caller.nextRound) then .next s
  else match queueChoice s with
    | none => .next s
    | some (fn, q) =>
      let s1 := queueRound s fn q
      let x := s1.qp fn q
      match x.fetched with
      | [] => .next s
      | d :: r => .next (admitCall (s1.setQp fn q { x with fetched := r }) fn q d)

/-! ## Life-cycle and tamper state (14 R391, R392) -/

/-- The call writes or reads the vault without naming a key. -/
def usesVault (d : Bytes) : Bool :=
  match opOf d with
  | 0x0701 => par d 65 == 1
  | 0x0702 => par d 64 == 1
  | 0x0707 => par d 64 == 0x10 || (decide (par d 64 < 0x10) && par d 65 == 1)
  | 0x0805 => par d 65 == 1
  | _ => false

/-- The state permits the call. -/
def permitted (s : State) (k : Call) : Bool :=
  let op := opOf k.desc
  let some_ := op == 0x0001 || op == 0x0901 || op == 0x0B01
  let i := opInfo (isMf k.fn) k.desc
  match s.lcs.st with
  | 1 => isMf k.fn && some_
  | 2 => isMf k.fn && (some_ || op / 256 == 0x0C)
  | 3 => !s.dome.tampered || !(decide (i.handles > 0) || usesVault k.desc || op / 256 == 0x0A || op / 256 == 0x0D ||
      (op == 0x0C01 && par k.desc 64 != 1 && par k.desc 64 != 2))
  | 4 => isMf k.fn && some_
  | _ => false

/-! ## Parameter checks and needs by family -/

/-- A failed check: status, path-table value, results. -/
abbrev Failure := Nat × Nat × Bytes

/-- The checks that follow the key checks (04 R115, R140; 05 R143; 06; 09; 12 R367; 14; 11). -/
def paramFault (s : State) (k : Call) (d : Bytes) (ks : List KeyRec) : Option Failure :=
  let op := opOf d
  let named := fun (x : Option Nat) => x.map (fun st => ((st, if (opInfo (isMf k.fn) d).handles > 0 then 44 else 39, []) : Failure))
  match op / 256 with
  | 0x00 => none
  | 0x01 => if pinParamsOk op d ks then none else some (stBadParam, 44, [])
  | 0x02 => if pinParamsOk op d ks then none else some (stBadParam, 44, [])
  | 0x07 => named (keyParams s k d ks)
  | 0x08 => (pkParams s op d (ks.getD 0 {})).map (fun st =>
    (st, if (opInfo (isMf k.fn) d).handles > 0 ∨ st = stBadLength then 44 else 39, []))
  | 0x09 => if randomOk d then none else some (stBadParam, 39, [])
  | 0x0A => none
  | 0x0B => named (statementParams s op k d)
  | 0x0C => (cerParams s k op d).map (fun st => (st, cerPath op, []))
  | 0x0D => named (if op = 0x0D01 then cloneParams s k d else reelParams s op k d)
  | _ => named (cardParams op d ks)

/-- What the figure waits for after list, blob and key fetch, but for its input chunks. `space` is record space that the call has
claimed. -/
def famNeeds (s : State) (d : Bytes) (ks : List KeyRec) (space : Option (Nat × Nat)) : List Need :=
  let op := opOf d
  match op / 256 with
  | 0x00 => []
  | 0x01 => pinNeeds s op d ks space
  | 0x02 => pinNeeds s op d ks space
  | 0x07 => keyNeeds s d ks
  | 0x08 => pkNeeds s op d (ks.getD 0 {})
  | 0x09 => []
  | 0x0A => []
  | 0x0B => dikNeeds
  | 0x0C => cerNeeds op d
  | 0x0D => if op = 0x0D01 then cloneNeeds {} else []
  | _ => cardNeeds op d ks

/-- Check 4 of R194 for slot `i`. -/
def useOk (s : State) (d : Bytes) (ks : List KeyRec) (i : Nat) : Bool :=
  let op := opOf d
  match op / 256 with
  | 0x01 => pinUse op d ks i
  | 0x02 => pinUse op d ks i
  | 0x07 => keyUse op d ks i
  | 0x08 => pkUse s op d (ks.getD i {})
  | _ => cardUse op d ks i

/-! ## Key fetch (01 R28 to R30; 06 R194) -/

/-- Checks 1 and 2 of R194 for a handle. Before the vault has come online the device has read no partition descriptor: a class 1
handle goes on to its fetch, which cannot be made (07 R255; DEDUCED, log 34). -/
def handleOk (s : State) (part h : Nat) : Bool :=
  hPart h == part && decide (hCls h < 3) && !(roomsOf s part).isEmpty &&
    (hCls h != 1 || (s.vault.descs.isEmpty && s.vault.st != 3) || (pstate s part == 1 && decide (hIdx h < recLimit s part)))

/-- Handle slots of the descriptor. -/
def slotsOf (mf : Bool) (d : Bytes) : List Nat := List.range (opInfo mf d).handles

/-- Opcodes that make checks 1 to 3 only. -/
def looseKey (op : Nat) : Bool := op == 0x0705 || op == 0x0706 || op == 0x0708

/-- Check 3 of R194 for a slot. -/
def check3 (d : Bytes) (x : Ctx) (i : Nat) : Option Nat :=
  let e := x.keyErr.getD i 0
  if e ≠ 0 then some e
  else match x.keys.getD i none with
    | none => some stKeyNotFound
    | some k => if 1 ≤ k.format ∧ k.format ≤ 3 ∧ k.check = hCheck (handleOf d i) then none else some stKeyNotFound

/-- Check 5 of R194, and TIME_UNKNOWN under R343. -/
def check5 (c : Call) (k : KeyRec) : Option Nat :=
  if timeless k then none
  else if c.bell.isNone then some stTimeUnknown
  else if k.notBefore ≤ callSecond c then none else some stKeyEarly

/-- Check 6 of R194. -/
def check6 (c : Call) (k : KeyRec) : Option Nat :=
  if timeless k ∨ callSecond c < effNotAfter k then none else some stKeyExpired

/-- The status of the earliest failing check, and of the lowest slot for it. -/
def keyVerdict (s : State) (x : Ctx) (c : Call) (d : Bytes) : Option Nat :=
  let is := slotsOf (isMf c.fn) d
  let ks := x.keys.map (fun k => k.getD {})
  let first := fun (f : Nat → Option Nat) => is.findSome? f
  match first (check3 d x) with
  | some st => some st
  | none =>
    if looseKey (opOf d) then none
    else match first (fun i => if useOk s d ks i then none else some stKeyUsage) with
      | some st => some st
      | none => match first (fun i => check5 c (ks.getD i {})) with
        | some st => some st
        | none => first (fun i => check6 c (ks.getD i {}))

/-- The job claim of R99: its failure, or the new entry. -/
def claimJob (s : State) (t c : Nat) (k : Call) : State × Option Failure :=
  let mine := s.jobs.filter (fun j => j.fn == k.fn)
  let tag := leAt k.desc 4 4
  if s.jobs.length ≥ 4096 then (s, some (stCapacity, 40, [1]))
  else if mine.length ≥ (if isMf k.fn then 256 else 64) then (s, some (stCapacity, 40, [2]))
  else if mine.any (fun j => j.tag == tag) then (s, some (stJobState, 39, []))
  else ({ s with jobs := s.jobs ++ [{ fn := k.fn, tag := tag, qp := k.qp, at_ := (t, c), call := k }] }, none)

/-- Scatter-list entries: those up to and with LAST (03 R84, R85). -/
def listEntries (b : Bytes) : List Bytes :=
  let es := (chunks 16 b).take 256
  match es.findIdx? (fun e => bitOf (byteAt e 12) 1) with
  | some i => es.take (i + 1)
  | none => es

/-- The list is complete: LAST has come, or the 256th entry. -/
def listWhole (b : Bytes) : Bool := (listEntries b).any (fun e => bitOf (byteAt e 12) 1) || decide (b.length ≥ 4096)

/-- A segment of the list. -/
def segOf (e : Bytes) : Seg := { addr := leAt e 0 8, len := leAt e 8 4, out := bitOf (byteAt e 12) 0 }

/-- Bytes of the segments of one direction. -/
def segSum (l : List Seg) (out : Bool) : Nat := ((l.filter (fun g => g.out == out)).map (·.len)).sum

/-- The checks of R85. -/
def listFault (d b : Bytes) : Option Nat :=
  let es := listEntries b
  let gs := es.map segOf
  if !es.any (fun e => bitOf (byteAt e 12) 1) then some stBadLength
  else if es.any (fun e => decide (leAt e 8 4 ≥ 2 ^ 25) || decide (byteAt e 12 ≥ 4) || !zeroIn e 13 16) then some stReserved
  else if gs.any (fun g => g.len == 0 || decide (g.len > maxStream)) then some stBadLength
  else if segSum gs false ≠ leAt d 56 4 then some stBadLength
  else if segSum gs true < outCap d then some stBadLength
  else none

/-- The list is whole and the key checks have passed: its checks run, and the call goes on by `f`. A failure ends the call as a key-check
failure does (03 R85). -/
def listDone (s : State) (t c : Nat) (f : State → State) : State :=
  let x := s.ctx t c
  let b := x.work.listRaw
  match listFault (workDesc s t c) b with
  | some st => finishUnkeyed (s.setCtx t c { x with keysOk := false }) t c st 39 []
  | none => f (modWork s t c (fun w => { w with segs := (listEntries b).map segOf }))

/-- The needs of a call whose keys have passed: list, blob, the family's, chunks. A resumed job needs no list, blob or draw
again (03 R102). -/
def figureNeeds (s : State) (t c : Nat) (ks : List KeyRec) (resumed : Bool) : List Need :=
  let d := workDesc s t c
  let op := opOf d
  let w := (s.ctx t c).work
  let list := formOf d == 2 && w.segs.isEmpty && !listWhole w.listRaw
  let blob := formOf d == 2 && blobOp op && decide (inLenOf d > 0) && w.blob.isEmpty
  let chunk := formOf d == 2 && !blobOp op && decide (w.input.length < inLenOf d)
  let isDraw := fun (n : Need) => match n with
    | .draw _ => true
    | _ => false
  let fam := if op = 0x0D01 then cloneNeeds w
    else if resumed ∧ op / 256 = 0x0A then [.page]
    else if resumed ∧ op = 0x0C02 then unitNeeds
    else famNeeds s d ks (s.ctx t c).space
  let fam := if resumed ∧ op ≠ 0x0D01 then fam.filter (fun n => !isDraw n) else fam
  let turn := op / 256 == 0x0C && !resumed && commitWaits s t c
  (if list then [.list] else []) ++ (if blob then [.blob] else []) ++ (if turn then [.turn] else []) ++ fam ++ (if chunk then [.chunk] else [])

/-- An operand that the Spire refuses for the key alone, found with the parameter checks, counts as a refusal (09 R287). -/
def noteKeyRefusal (s : State) (t st : Nat) : State :=
  if st ≠ stRefusedInput then s
  else
    let w := s.tower t
    s.setTower t { w with spire := { w.spire with refusals := satAdd 32 w.spire.refusals 1 } }

/-- The first piece of the scatter list, which is asked for beside key fetch, is read meanwhile where no read of the call's has been
asked for yet: the model lets ARB_DMA grant it before the key checks end, without a contender (03 R85; DESIGN CHOICE, log 102). -/
def listMeanwhile (s : State) (t c : Nat) : State :=
  let x := s.ctx t c
  if formOf (workDesc s t c) ≠ 2 ∨ !x.work.segs.isEmpty ∨ !x.work.listRaw.isEmpty ∨ s.hif.np ≥ 768 ∨
      s.hif.dma.any (fun r => r.live && r.tower == t && r.ctx == c) then s
  else grantRead (armDma (s.setCtx t c { x with needs := [.list] }) t c) t c

/-- The key checks have passed: the claim of a job's entry is judged, then the parameters, and then the call has its inline input and
what the figure waits for. -/
def keysPassed (s : State) (t c : Nat) (k : Call) (ks : List KeyRec) : State :=
  let resumed := carries s t c
  let x := s.ctx t c
  let s1 := s.setCtx t c { x with keysOk := true }
  let d := workDesc s t c
  match x.claim with
  | some (st, n, r) => finishUnkeyed (listMeanwhile s t c) t c st n r
  | none => match (if resumed ∨ (opOf d / 256 = 0x0C ∧ commitWaits s t c) then none else paramFault s1 k d ks) with
    | some (st, n, r) => finishCall (listMeanwhile (noteKeyRefusal s1 t st) t c) t c st n 0 r
    | none =>
      let i := opInfo (isMf k.fn) d
      let s2 := if formOf d = 1 ∧ !resumed then
          modWork s1 t c (fun w => { w with input := sub d i.pEnd (inLenOf d) })
        else if opOf d / 256 = 0x0B then modWork s1 t c (fun w => { w with keep := statementOf s1 k d }) else s1
      let go := fun (a : State) => setNeeds a t c (figureNeeds a t c ks resumed)
      let w := (s2.ctx t c).work
      if formOf d = 2 ∧ w.segs.isEmpty ∧ listWhole w.listRaw then listDone s2 t c go else go s2

/-- A key check ends the call (01 R28). -/
def keyFailed (s : State) (t c st : Nat) : State := finishUnkeyed (listMeanwhile s t c) t c st 39 []

/-- Every fetch of the call has ended: checks 3 to 6 (R194). -/
def finishKeys (s : State) (t c : Nat) : State :=
  let x := s.ctx t c
  match x.call with
  | none => s
  | some k => match keyVerdict s x k (workDesc s t c) with
    | some st => keyFailed s t c st
    | none => keysPassed s t c k (x.keys.map (fun y => y.getD {}))

/-- Sets the key, or the failure, of a slot. -/
def setSlot (s : State) (t c i : Nat) (k : Option KeyRec) (err : Nat) : State :=
  let x := s.ctx t c
  s.setCtx t c { x with keys := x.keys.set i k, keyErr := x.keyErr.set i err }

/-- Lines of the record at an index, as its first line in the Keep says. -/
def spanAt (s : State) (p cls idx : Nat) : Nat :=
  ((keepLine s p cls idx).map (fun l => if byteAt l.data 0 = 0 ∨ l.first ≠ some idx then 1 else byteAt l.data 10)).getD 1

/-- The line is a later one of a record: no record begins there (06 R185). -/
def innerLine (s : State) (p cls idx : Nat) : Bool :=
  (keepLine s p cls idx).any (fun l => byteAt l.data 0 != 0 && l.first.any (· != idx))

/-- Finds the key of a slot: in the tower key cache, in the Keep, or nowhere; none is to be awaited then, or the need that
it has (01 R28 to R30; 07 R226). -/
def slotKey (s : State) (t c i : Nat) : State × List Need :=
  let h := handleOf (workDesc s t c) i
  let p := hPart h
  let cls := hCls h
  let idx := hIdx h
  match tcLookup s t p cls idx with
  | some k => (setSlot s t c i (some k) 0, [])
  | none =>
    let x := s.ctx t c
    let s1 := s.setCtx t c { x with keepHit := true }
    if s.keep.erasing ∨ (cls = 1 ∧ runBusy s p cls idx (spanAt s p cls idx)) then (s1, [.line i])
    else match keepRec s1 p cls idx with
      | some k =>
        let s2 := touchRun { s1 with keep := { s1.keep with hits := (s1.keep.hits + 1) % 2 ^ 64 } } p cls idx (spanAt s p cls idx)
        let s3 := if 1 ≤ k.format ∧ k.format ≤ 3 then tcInstall s2 t p cls idx k else s2
        (setSlot s3 t c i (some k) 0, [])
      | none =>
        if cls ≠ 1 ∨ innerLine s p cls idx then (setSlot s1 t c i none stKeyNotFound, [])
        else if s.vault.st ≠ 3 then (setSlot s1 t c i none stVaultUnreach, [])
        else (s1, [.fill i])

/-- Key fetch: the sources of all keys, and the needs of those that are not at hand, with the list read beside them. -/
def fetchKeys (s : State) (t c : Nat) : State :=
  let x := s.ctx t c
  match x.call with
  | none => s
  | some k =>
    let d := workDesc s t c
    let is := slotsOf (isMf k.fn) d
    if is.any (fun i => !handleOk s (partOf d) (handleOf d i)) then keyFailed s t c stKeyNotFound
    else
      let s0 := s.setCtx t c { x with keys := is.map (fun _ => none), keyErr := is.map (fun _ => 0) }
      let (s1, needs) := is.foldl (fun (a : State × List Need) i =>
        let (b, n) := slotKey a.1 t c i
        (b, a.2 ++ n)) (s0, [])
      if needs.isEmpty then finishKeys s1 t c
      else setNeeds s1 t c (needs ++ (if formOf d = 2 ∧ x.work.segs.isEmpty then [.list] else []))

/-- A fetch of the call has ended: the next one, or the checks. -/
def keysNext (s : State) (t c : Nat) : State :=
  match firstNeed s t c with
  | some (.fill _) => s
  | some (.line _) => s
  | _ => finishKeys s t c

/-- The need `m` of a call, which is for a slot, is met by what `slotKey` has answered: the slot has its outcome, or another need. -/
def slotMoves (s : State) (t c : Nat) (m : Need) (n : List Need) : State :=
  if n.isEmpty then keysNext (dropNeed s t c m) t c
  else setNeeds s t c ((s.ctx t c).needs.flatMap (fun x => if x = m then n else [x]))

/-- A line that a key waited for has left WRITING, or left the Keep: the slot is fetched again. -/
def lineFreed (s : State) (t c : Nat) : State :=
  match firstNeed s t c with
  | some (.line i) =>
    let h := handleOf (workDesc s t c) i
    if s.keep.erasing ∨ runBusy s (hPart h) (hCls h) (hIdx h) (spanAt s (hPart h) (hCls h) (hIdx h)) then s
    else
      let (s1, n) := slotKey s t c i
      slotMoves s1 t c (.line i) n
  | _ => s

/-- A job claims its entry at cycle 28: a claim that fails is judged after the key checks (03 R99, R100). -/
def placeClaim (s : State) (t c : Nat) (k : Call) : State :=
  let (s1, bad) := claimJob s t c k
  s1.setCtx t c { s1.ctx t c with claim := bad }

/-- DUKPT_DERIVE_INITIAL claims record space at cycle 28. A full partition ends the call once its keys have passed, before its parameters
are judged (04 R140; 03 R99; DESIGN CHOICE, log 114: R140 does not say which of the two is judged first). -/
def claimSpace (s : State) (t c : Nat) (k : Call) : State :=
  let p := partOf k.desc
  let cls := par k.desc 65
  let idx := targetIdx s p cls recAny 2
  if cls = 1 ∧ !vaultOnline s then s
  else if spaceShort s p cls recAny idx 2 then s.setCtx t c { s.ctx t c with claim := some (stCapacity, 40, [4]) }
  else s.setCtx t c { s.ctx t c with space := some (cls, idx) }

/-- What a call claims at cycle 28. -/
def placeClaims (s : State) (t c : Nat) (k : Call) : State :=
  if k.isJob then placeClaim s t c k else if opOf k.desc = 0x0201 then claimSpace s t c k else s

/-- A call begins in its context: the state check, its claims, then key fetch; a job operation waits for its own command. -/
def startCall (s : State) (t c : Nat) : State :=
  match (s.ctx t c).call with
  | none => s
  | some k =>
    if !permitted s k then finishCall s t c stStateNot 39 0 []
    else fetchKeys (placeClaims s t c k) t c

/-! ## Dispatch (01 R26, R27; 10 R302 to R306) -/

/-- The job that a job operation names (03 R104). -/
def targetJob (s : State) (k : Call) : Option Job :=
  let fn := if isMf k.fn then leAt k.desc 68 2 else k.fn
  s.jobs.find? (fun j => j.fn == fn && j.tag == leAt k.desc 64 4)

/-- Staging blocks that a call needs (10 R303): those of its job for a JOB_RESUME. -/
def callBlocks (s : State) (k : Call) : Nat :=
  if opOf k.desc = 3 then ((targetJob s k).map (fun j => (opInfo (isMf j.fn) j.call.desc).blocks)).getD 0
  else (opInfo (isMf k.fn) k.desc).blocks

/-- Free contexts of a tower. -/
def freeCtxs (s : State) (t : Nat) : List Nat := ctxIds.filter (fun c => (s.ctx t c).st == .free)

/-- The figure uses the Spire (15 R431). -/
def spireCall (k : Call) : Bool :=
  let op := opOf k.desc
  op / 256 == 0x08 || op / 256 == 0x0B || op == 0x0C01 || op == 0x0C02 || op == 0x0707 || op == 0x0D01

/-- The contexts of a tower that hold a job's call or a JOB_RESUME (10 R302). -/
def jobCtxs (s : State) (t : Nat) : List Nat := ctxIds.filter (fun c => ((s.ctx t c).call.map toJobQ).getD false)

/-- An in-service tower is free for a call, and open to it where it is a job (10 R302, R303; 15 R431). -/
def freeFor (s : State) (k : Call) (t : Nat) : Bool :=
  !(freeCtxs s t).isEmpty && decide (callBlocks s k ≤ (s.tower t).blocks) &&
    (!toJobQ k || decide ((jobCtxs s t).length < s.caller.jobMax)) &&
    !(s.pwr.throttled.getLsbD t && spireCall k)

/-- Towers that are free for a call. -/
def towersFor (s : State) (k : Call) : List Nat := (inService s).filter (freeFor s k)

/-- The tower to which a call goes (01 R27; 10 R306). -/
def towerFor (s : State) (k : Call) : Option Nat :=
  let pref := s.caller.map.getD (k.hash % 64) 0
  if (opInfo (isMf k.fn) k.desc).handles > 0 ∧ (towersFor s k).contains pref then some pref
  else bestBy (fun t => (freeCtxs s t).length) (towersFor s k)

/-- The heads of the five queues with their ranks (10 R305 step 3). -/
def heads (s : State) : List (Nat × Call) :=
  (s.caller.queues.zipIdx.filterMap (fun e => e.1.head?.map (fun k => (2 * e.2, k)))) ++
    (s.caller.jobQ.head?.map (fun k => (2 * k.cls + 1, k))).toList

/-- The head that the Caller takes, with the starvation count after it (10 R305). -/
def chooseHead (s : State) : Option (Call × Nat × Bool) :=
  let hs := (heads s).filter (fun h => !(towersFor s h.2).isEmpty)
  if s.caller.limit ≠ 0 ∧ s.caller.starve ≥ s.caller.limit then
    (bestBy (fun h => 2 ^ 80 - h.2.seq) hs).map (fun h => (h.2, 0, true))
  else
    (bestBy (fun h => 100 - h.1) hs).map (fun h =>
      (h.2, if hs.any (fun g => decide (g.1 > h.1)) then s.caller.starve + 1 else 0, false))

/-- Takes a call out of its queue. -/
def unqueue (x : Caller) (k : Call) : Caller :=
  { x with queues := x.queues.map (fun l => l.filter (fun y => y.seq != k.seq)), jobQ := x.jobQ.filter (fun y => y.seq != k.seq) }

/-- The call enters context `c` of tower `t` (01 R26). The cycles since its cycle 0 were spent waiting for a context (R17). -/
def placeCall (s : State) (k : Call) (t c : Nat) : State :=
  let w := s.tower t
  let n := callBlocks s k
  let ordered := opOf k.desc == 0x0901 || opOf k.desc / 256 == 0
  let x : Ctx := { st := .running, call := some k, blocks := n, waits := s.cycle - k.cycle0, disp := s.caller.dispatches, work := { vals := if ordered then [s.caller.dispatches] else [] } }
  let s1 := s.setTower t { w with blocks := w.blocks - n, dispatches := satAdd 32 w.dispatches 1, ctxs := w.ctxs.set c x }
  { s1 with caller := { s1.caller with dispatches := (s1.caller.dispatches + 1) % 2 ^ 64 } }

/-- What the ECC of a tower's key cache finds as the keys of a call are fetched (log 89): an entry with an uncorrectable error is
invalidated and counted, so that the key is fetched again from the Keep, and each correction is counted (15 R434). -/
def cacheErrors (s : State) (t c : Nat) (bad : List Nat) (fixed : Nat) : State :=
  let mf := ((s.ctx t c).call.map (fun k => isMf k.fn)).getD false
  (bad.filter (slotsOf mf (workDesc s t c)).contains).foldl (fun a i =>
    let h := handleOf (workDesc s t c) i
    match tcLookup a t (hPart h) (hCls h) (hIdx h) with
    | none => a
    | some _ => countUncorr (tcEvict a t (hPart h) (hCls h) (hIdx h))) (countFixed s fixed)

/-- DISPATCH: the Caller takes the call that R305 chooses, to the tower that R27 gives and its lowest free context. The next dispatch
begins 4 cycles later at the earliest (01 R26). -/
def execDispatch (bad : List Nat) (fixed : Nat) (s : State) : Out :=
  if s.pwr.thermal ≥ 2 ∨ s.cycle < s.caller.nextDispatch then .next s
  else match chooseHead s with
    | none => .next s
    | some (k, starve, served) => match towerFor s k with
      | none => .next s
      | some t => match (freeCtxs s t).head? with
        | none => .next s
        | some c =>
          let x := unqueue s.caller k
          let s1 := { s with caller := { x with
            nextDispatch := s.cycle + 4, starve := starve, starveServes := if served then satAdd 32 x.starveServes 1 else x.starveServes } }
          .next (startCall (cacheErrors (placeCall s1 k t c) t c bad fixed) t c)

/-! ## Reads of call data (03 R85 to R87; 02 R43; 06 R213) -/

/-- The oldest read of a context that has been issued whole and not answered. -/
def readOf (s : State) (t c : Nat) (what : DmaFor) : Option DmaReq :=
  s.hif.dma.find? (fun r => r.tower == t && r.ctx == c && r.what == what && r.pieces.isEmpty && decide (r.granted + r.holes.length > 0))

/-- The read of a context has been answered. -/
def readAnswered (s : State) (r : DmaReq) : State :=
  { s with hif := { s.hif with np := s.hif.np - r.granted, dma := s.hif.dma.erase r } }

/-- The bytes of a read, zeros where a piece was not issued (13 R384, R386). -/
def DmaReq.fill (r : DmaReq) (b : Bytes) : Bytes := r.holes.foldl (fun a h => a.take h.1 ++ zeros h.2 ++ a.drop (h.1 + h.2)) (fit r.len b)

/-- An answer reaches the read it belongs to: its bytes go to `f`, and an error is logged in the AER of the function and ends the call
(02 R43). The answer to a read of a call that has ended since brings nothing but that log. -/
def withRead (s : State) (t c : Nat) (what : DmaFor) (ans : ReadAns) (f : Bytes → State → State) : State :=
  match readOf s t c what with
  | none => s
  | some r =>
    let s1 := readAnswered s r
    if !r.live then logAns s1 r.fn ans
    else match ansBytes ans with
      | some b => f (r.fill b) s1
      | none => dataError (logAns s1 r.fn ans) t c 3

/-- LIST_READ: a piece of the scatter list (R85). -/
def execListRead (tower ctx : Nat) (ans : ReadAns) (s : State) : Out :=
  .next (withRead s tower ctx .list ans (fun b a =>
    let a1 := modWork a tower ctx (fun w => { w with listRaw := w.listRaw ++ b })
    if !listWhole (a1.ctx tower ctx).work.listRaw then armDma a1 tower ctx
    else if firstNeed a1 tower ctx = some .list then listDone a1 tower ctx (fun e => popNeed e tower ctx)
    else
      let x := a1.ctx tower ctx
      a1.setCtx tower ctx { x with needs := x.needs.erase .list }))

/-- BLOB_READ: the blob, whole (06 R213). -/
def execBlobRead (tower ctx : Nat) (ans : ReadAns) (s : State) : Out :=
  .next (withRead s tower ctx .blob ans (fun b a => popNeed (modWork a tower ctx (fun w => { w with blob := b })) tower ctx))

/-- The output that a chunk settles is written (03 R87, R88). -/
def chunkOutput (s : State) (t c : Nat) : State × Bool :=
  let d := workDesc s t c
  let w := (s.ctx t c).work
  match opOf d with
  | 0x0501 => writeSoFar s t c
  | 0x0502 => writeSoFar s t c
  | 0x0503 => writeSoFar s t c
  | 0x0202 => writeOut s t c ((dukDecrypt d (keyOf s t c 0) w.input).drop w.outLen)
  | _ => (s, true)

/-- The job of a context has worked through `n` bytes of input: the last chunk boundary passed (03 R100, R104). -/
def jobPassed (s : State) (t c n : Nat) : State :=
  { s with jobs := s.jobs.map (fun j => if !j.suspended && j.at_ == (t, c) then { j with progress := n / 4096 * 4096 } else j) }

/-- The chunk that has arrived is worked through: its output is written, and the next chunk is asked for (03 R87, R88). -/
def chunkDone (s : State) (t c : Nat) : State :=
  let held := firstNeed s t c == some .chunk
  let (s1, ok) := if held then chunkOutput s t c else (s, true)
  if !ok then s1
  else
    let n := (s1.ctx t c).work.input.length
    let s2 := if held then noteLanes (jobPassed s1 t c n) t c else s1
    if n < inLenOf (workDesc s2 t c) then armDma s2 t c
    else if firstNeed s2 t c = some .chunk then popNeed s2 t c
    else
      let x := s2.ctx t c
      s2.setCtx t c { x with needs := x.needs.erase .chunk }

/-- CHUNK_READ: an input chunk (R87). A fault in one of its blocks ends the call (08 R260; 10 R317, R318). -/
def execChunkRead (tower ctx : Nat) (ans : ReadAns) (s : State) (fault : FigFault := .none) : Out :=
  .next (if !faultFits s tower ctx fault then s
    else withRead s tower ctx .chunk ans (fun b a =>
      withFault (modWork a tower ctx (fun w => { w with input := w.input ++ b })) tower ctx fault
        (fun e => chunkDone e tower ctx)))

/-- A context has its lanes again: what they owe for the chunk that arrived meanwhile is written (03 R88; 08 R270). -/
def settleChunk (s : State) (t c : Nat) : State :=
  let x := s.ctx t c
  if formOf (workDesc s t c) = 2 ∧ !x.work.input.isEmpty ∧ (x.needs.isEmpty ∨ x.needs.head? = some .chunk) then
    let (s1, ok) := chunkOutput s t c
    if ok then noteLanes (jobPassed s1 t c x.work.input.length) t c else s1
  else s

/-- LANE_GRANT: one cycle of a tower's lane arbiter for one kind; `ends` gives, by lane, the cycles until the operation in progress on
it ends, and `fault` names a lane whose residue check fails as it is granted (08 R256, R260, R271; 10 R307, R318). -/
def execLaneGrant (tower : Nat) (hash : Bool) (fault : Option Nat) (s : State) (ends : List Nat := []) : Out :=
  let (s1, g) := laneDecide tower hash 8 s (laneWaiters s tower hash)
  let s2 := markLanes (g.foldl (fun a c => settleChunk a tower c) s1) tower hash ends
  let s3 := if g.isEmpty then s2 else unstall s2 (fun t n => t == tower && n.isLanes hash)
  match fault with
  | none => .next s3
  | some i => match (((s3.tower tower).lanes hash)[i]?).bind (·.owner) with
    | some c => .next (if g.contains c then laneFault s3 tower c hash i else s3)
    | none => .next s3

/-! ## Vault fills (01 R30; 07 R235) -/

/-- Caches verified metadata in the partition's share: a full share gives up its lowest line (DESIGN CHOICE, log 31). -/
def cacheMeta (s : State) (p : Nat) (ws : List Nat) : State :=
  let room := 80 * (roomsOf s p).length
  ws.foldl (fun a w =>
    if (a.vault.meta_.any (fun e => e.1 == w)) then a
    else
      let own := a.vault.meta_.filter (fun e => e.2.1 == p)
      let kept := if own.length < room then a.vault.meta_ else match own.head? with
        | some e => tblErase a.vault.meta_ e.1
        | none => a.vault.meta_
      if room = 0 then a else a.setVault { a.vault with meta_ := tblInsert kept w (p, fillView a w) }) s

/-- How a fetch ends: with what it has fetched, or with a status and the window-space line that failed. -/
inductive Fetched (α : Type)
  /-- Verified, in clear. -/
  | got (x : α)
  /-- VAULT_UNREACHABLE or INTEGRITY. -/
  | bad (status w : Nat)

/-- Fetches and verifies `n` lines of a partition from index `idx` (07 R235). -/
def fetchLines (s : State) (p idx n : Nat) (failed : Bool) : State × Fetched (List Bytes) :=
  let r := (baseImage s).slot
  let l := payLine s p idx
  let path := (List.range n).flatMap (fun i => metaPath r (l + i))
  let ws := (List.range n).map (fun i => payW r (l + i)) ++ path.filter (fun w => !(s.vault.meta_.any (fun e => e.1 == w)))
  let (s1, ok) := windowCheck s false ws
  if s.vault.st ≠ 3 || failed || decide (l + n > geoP r.p) || !ok then (s1, .bad stVaultUnreach 0)
  else
    let ls := (List.range n).map (fun i => readLine s1 r (fillView s1) (l + i))
    match ls.findIdx? (·.isNone) with
    | some i => (s1, .bad stIntegrity (payW r (l + i)))
    | none => (cacheMeta s1 p path, .got (ls.map (·.getD [])))

/-- A stored record in clear, where its TAG verifies, and the key it holds: none for a partition descriptor (06 R178, R187, R189). -/
def openStored (s : State) (p idx : Nat) (body : Bytes) : Option (Bytes × Option KeyRec) :=
  let root := fun (d : Bytes) => partRoot d (bindDigest s p) p (pversion s p)
  if byteAt body 0 = 4 then
    if byteAt body 1 ≤ 2 ∧ ([s.dome.cur, s.dome.next].filterMap id).any (fun d => tagOk (recKey "RTAG" (root d) p) p idx body) then
      some (body, none) else none
  else ((dmkById s (sub body 44 2)).bind (fun d => openRec (root d) p idx body)).map (fun k => (encodeRec k, some k))

/-- Fetches the record at an index of a partition, whole (07 R235; 06 R177, R185, R189). -/
def fetchRecord (s : State) (p idx : Nat) (failed : Bool) : State × Fetched Fetch :=
  let w := payW (baseImage s).slot (payLine s p idx)
  match fetchLines s p idx 1 failed with
  | (s1, .bad st v) => (s1, .bad st v)
  | (s1, .got b) =>
    let h := b.flatten
    if byteAt h 0 = 0 then (s1, .got { idx := idx, first := some idx, lines := [fit 64 h] })
    else match recordSpan h with
      | none => (s1, .bad stIntegrity w)
      | some n => match fetchLines s1 p idx n failed with
        | (s2, .bad st v) => (s2, .bad st v)
        | (s2, .got b2) => match openStored s p idx b2.flatten with
          | none => (s2, .bad stIntegrity w)
          | some (body, k) => (s2, .got { idx := idx, first := some idx, lines := chunks 64 body, key := k })

/-- Fetches one line that is no record, such as a token bucket. -/
def fetchRaw (s : State) (p idx : Nat) (failed : Bool) : State × Fetched Fetch :=
  match fetchLines s p idx 1 failed with
  | (s1, .bad st v) => (s1, .bad st v)
  | (s1, .got b) => (s1, .got { idx := idx, lines := [fit 64 b.flatten] })

/-- Lines fetched are counted: for the call, and on the VAULT and KEEP pages (12 R355; 07 R253, R254). -/
def noteFill (s : State) (t c n : Nat) : State :=
  let x := s.ctx t c
  let s1 := s.setCtx t c { x with vaultReads := x.vaultReads + n }
  { s1 with
    vault := { s1.vault with fills := (s1.vault.fills + n) % 2 ^ 64 }
    keep := { s1.keep with fillCount := (s1.keep.fillCount + n) % 2 ^ 64 } }

/-- A verification failure is noted; a fetch that could not be made is not one (07 R235). -/
def noteBad (s : State) (st w : Nat) : State := if st = stIntegrity then noteIntegrity s w else s

/-- The Keep lines of a fetch. -/
def Fetch.copies (f : Fetch) (p : Nat) : List KeepCopy := f.lines.zipIdx.map (fun e => (p, f.idx + e.2, f.first, e.1))

/-- What a fetch has brought for a need of the call is dropped from the vault engine. -/
def clearReady (s : State) (t c : Nat) (m : Need) : State :=
  let x := s.ctx t c
  s.setCtx t c { x with ready := x.ready.filter (fun e => e.1 != m) }

/-- The outcome of the fill of slot `i`; once every fetch of the call has ended, the checks (01 R30). -/
def slotFilled (s : State) (t c i : Nat) (k : Option KeyRec) (err : Nat) : State :=
  let b := setSlot s t c i k err
  let y := b.ctx t c
  keysNext (dropNeed (b.setCtx t c { y with vaultHit := y.vaultHit || k.isSome }) t c (.fill i)) t c

/-- The needs whose lines are now in the Keep are met. -/
def dropFilled (t c p : Nat) : Nat → State → State
  | 0, s => s
  | n + 1, s => match firstNeed s t c with
    | some (.fillLine j) => if (keepLine s p 1 j).isSome then dropFilled t c p n (popNeed s t c) else s
    | _ => s

/-- The lines that a call's fetch has brought for a need are in the Keep, and serve the call. -/
def filledBy (s : State) (t c p : Nat) (m : Need) (f : Fetch) : State :=
  let s1 := noteFill (clearReady s t c m) t c f.lines.length
  match m with
  | .fill i => match f.key with
    | some k => slotFilled (tcInstall s1 t p 1 f.idx k) t c i (some k) 0
    | none => slotFilled s1 t c i none stKeyNotFound
  | _ => dropFilled t c p 8 s1

/-- The vault engine may not write the lines of a fetch into the Keep: the fetch ends VAULT_UNREACHABLE (07 R227; 13 R384; DEDUCED, log 87). -/
def refusedFill (s : State) (t c : Nat) : Need → State
  | .fill i => slotFilled s t c i none stVaultUnreach
  | _ => finishFree s t c stVaultUnreach []

/-- What a call's fetch has brought for a need is installed as soon as its lines find ways. Where they have come into the Keep meanwhile, or
are being written, it is dropped, and the call looks again (07 R218, R226, R242). -/
def settleOne (t c : Nat) (s : State) (e : Need × Fetch) : State :=
  let p := partOf (workDesc s t c)
  let f := e.2
  let stale := runBusy s p 1 f.idx f.lines.length
  let (s0, ok) := engineKeep s true (f.copies p |>.map (fun k => (k.1, k.2.1)))
  let place := if ok then ((installAll 1 .clean s0 (f.copies p)).map (fun a => filledBy a t c p e.1 f)).getD s0
    else refusedFill (clearReady s0 t c e.1) t c e.1
  if !(s.ctx t c).ready.contains e then s
  else if !(s.ctx t c).needs.contains e.1 then clearReady s t c e.1
  else match e.1 with
    | .fill i =>
      let (s1, n) := slotKey s t c i
      if n ≠ [.fill i] then slotMoves (clearReady s1 t c e.1) t c e.1 n
      else if stale then clearReady s t c e.1 else place
    | .fillLine j =>
      if (keepLine s p 1 j).isSome then dropFilled t c p 8 (clearReady s t c e.1)
      else if stale then clearReady s t c e.1 else place
    | m => clearReady s t c m

/-- What a call's fetches have brought is settled, in the order in which it came. -/
def settleFill (s : State) (t c : Nat) : State := (s.ctx t c).ready.foldl (settleOne t c) s

/-- A fetch has ended with lines for a need: they wait for ways, and are installed. -/
def takeFetch (s : State) (t c : Nat) (m : Need) (f : Fetch) : State :=
  let x := s.ctx t c
  settleOne t c (s.setCtx t c { x with ready := x.ready ++ [(m, f)] }) (m, f)

/-- The fill of a key that the call's key fetch waits for: the slot looks in the Keep again before the vault is asked. -/
def fillSlot (s : State) (t c i : Nat) (failed : Bool) : State :=
  let h := handleOf (workDesc s t c) i
  let (s1, n) := slotKey s t c i
  if n ≠ [.fill i] then slotMoves s1 t c (.fill i) n
  else match fetchRecord s (hPart h) (hIdx h) failed with
    | (a, .bad st w) => slotFilled (noteBad a st w) t c i none st
    | (a, .got f) => takeFetch a t c (.fill i) f

/-- First index of the record to which a class 1 line of the call belongs: one of its keys, a successor, or the line itself. -/
def fillStart (s : State) (t c idx : Nat) : Nat :=
  let d := workDesc s t c
  let ks := (s.ctx t c).keys.zipIdx.filterMap (fun e => e.1.map (fun k => (hIdx (handleOf d e.2), k)))
  let spans := ks.flatMap (fun e => [(e.1, e.2.lines), (e.2.successor, 2)])
  ((spans.find? (fun e => decide (e.1 ≤ idx) && decide (idx < e.1 + e.2))).map (·.1)).getD idx

/-- The fetch for a line that a figure works on: a token bucket, or a line of a record. -/
def fetchOther (s : State) (t c idx : Nat) (failed : Bool) : State × Fetched Fetch :=
  let d := workDesc s t c
  let p := partOf d
  let at_ := fillStart s t c idx
  if opOf d / 256 = 6 then fetchRaw s p idx failed
  else match fetchRecord s p at_ failed with
    | (a, .got f) => if f.key.isNone ∧ idx ≥ at_ + f.lines.length then fetchRaw a p idx failed else (a, .got f)
    | x => x

/-- The fill of a line that a figure works on. -/
def fillOther (s : State) (t c idx : Nat) (failed : Bool) : State :=
  if (keepLine s (partOf (workDesc s t c)) 1 idx).isSome then dropFilled t c (partOf (workDesc s t c)) 8 s
  else match fetchOther s t c idx failed with
    | (a, .bad st w) => finishFree (noteBad a st w) t c st []
    | (a, .got f) => takeFetch a t c (.fillLine idx) f

/-- A fetch for a need of a context has been answered. -/
def doFill (s : State) (t c : Nat) (m : Need) (failed : Bool) : State :=
  if !(s.ctx t c).needs.contains m then s
  else match m with
    | .fill i => fillSlot s t c i failed
    | .fillLine idx => fillOther s t c idx failed
    | _ => s

/-- The oldest fetch of a context that has been asked for is answered: the need that it serves. -/
def takeAsked (s : State) (t c : Nat) : State × Option Need :=
  let x := s.ctx t c
  (s.setCtx t c { x with asked := x.asked.drop 1 }, x.asked.head?)

/-- The fetch of a context whose need comes first ends, as it cannot be made: the vault is not ONLINE. -/
def fillUnmade (s : State) (t c : Nat) (failed : Bool) : State :=
  match (fillsOf (s.ctx t c).needs).head? with
  | some m => doFill s t c m failed
  | none => s

/-- VAULT_FILL: the vault engine ends a fetch that ARB_DMA has granted, or one that it cannot make because the vault is not ONLINE.
`mem` is what the vault memory holds where it differs from what was written; a failed read is logged against the MF (02 R43; 07 R235).
The fetches of a call are answered in the order in which they were granted (DESIGN CHOICE, log 96); that of a call that has ended since brings
nothing. -/
def execVaultFill (tower ctx : Nat) (mem : List (Nat × Bytes)) (failed : Bool) (s : State) : Out :=
  let s0 := putMem s mem
  match s.hif.fills.find? (fun f => f.1 == tower && f.2.1 == ctx) with
  | none => .next (if s.vault.st = 3 then s else fillUnmade s tower ctx failed)
  | some f =>
    let s1 := { s0 with hif := { s0.hif with np := s0.hif.np - 1, fills := s0.hif.fills.erase f } }
    let s2 := if failed then logVaultError s1 else s1
    .next (if f.2.2 then match takeAsked s2 tower ctx with
      | (s3, some m) => unstall (doFill s3 tower ctx m failed) (fun _ n => n.isFill)
      | (s3, none) => s3
    else s2)

/-! ## ECHO -/

/-- ECHO (03 R94). -/
def echo (t c : Nat) (s : State) : State := finishCall s t c stOk 34 0 (sub (workDesc s t c) 64 48)

/-- Runs ECHO. -/
def execEcho (tower ctx : Nat) (fault : FigFault) (s : State) : Out := .next (runFigure s tower ctx 0x0001 fault (echo tower ctx))

end Sys2Proof.Machine
end

