-- ==== Sys2Proof/Machine/JobFam.lean ====
section
/-! DEFINITION. Job operations and resume points (03 R98 to R105; 09 R289; 15 R432). -/

namespace Sys2Proof.Machine

/-! ## Progress (03 R101; 09 R289; 07 R243; 11 R352) -/

/-- A data or MAC job: its units are input bytes. -/
def streamOp (op : Nat) : Bool := op / 256 == 0x02 || op / 256 == 0x04 || op / 256 == 0x05

/-- TOTAL of a vault job, before its first row too (07 R243, R244, R251). -/
def vaultTotal (s : State) (op : Nat) (d : Bytes) : Nat :=
  match op with
  | 0x0A01 => geoP (committed s).p / 64
  | 0x0A02 => leAt d 72 8
  | 0x0A05 => ceilDiv (recLimit s (leAt d 66 2)) 64
  | _ => 0

/-- TOTAL of the job in a context: of an RSA job the modulus bits that its PARAMS name, which its key check holds against the key (09 R289). -/
def totalOf (s : State) (t c : Nat) : Nat :=
  let d := workDesc s t c
  match opOf d with
  | 0x0801 => leAt d 66 2
  | 0x0803 => leAt d 66 2
  | 0x0805 => 0
  | 0x0807 => 0
  | 0x0809 => 88
  | 0x0C02 => 0
  | 0x0D01 => 4
  | op =>
    let n := (s.ctx t c).work.total
    if streamOp op then inLenOf d else if n = 0 then vaultTotal s op d else n

/-- PROGRESS of the job in a context. -/
def progressOf (s : State) (t c : Nat) : Nat :=
  let w := (s.ctx t c).work
  if streamOp (opOf (workDesc s t c)) then w.input.length else w.progress

/-! ## Resume points (03 R100; 09 R289; 11 R352) -/

/-- A Spire job stands at a yield point: between two of its runs, or while another call has the Spire (09 R288). -/
def atYield (s : State) (t c : Nat) : Bool :=
  let x := s.ctx t c
  let y := (s.tower t).spire
  (x.st == .running && x.needs.isEmpty) || (x.needs.head? == some .spire && y.resident == some c && y.switched)

/-- A Spire job stands between two of its units: no command of the next has begun (09 R289). -/
def atUnit (s : State) (t c : Nat) : Bool :=
  let w := (s.ctx t c).work
  let k := (keyOf s t c 0)
  decide (w.progress ≥ 1) && w.bits == 0 &&
    (w.pc == 0 || (opOf (workDesc s t c) == 0x0807 && w.pc == (dsaSetupProg k.alg [] (inputOf s t c) []).length))

/-- The context waits for random bytes, between two of its commands. -/
def drawing (s : State) (t c : Nat) : Bool :=
  match (s.ctx t c).needs.head? with
  | some (.draw _) => true
  | _ => false

/-- The job in a context stands at a resume point. Those of a Spire job are its yield points, which come once it has run a command or a part of
one; of PQ_SIGN they fall between attempts, of CURVE_LOAD between check units (09 R289). -/
def atResume (s : State) (t c : Nat) : Bool :=
  let x := s.ctx t c
  let w := x.work
  let op := opOf (workDesc s t c)
  let idle := x.st == .running && x.needs.isEmpty
  let begun := decide (w.pc ≥ 1) || decide (w.bits ≥ 1)
  if streamOp op then
    x.needs.head? == some .chunk && !(s.hif.dma.any (fun r => r.live && r.tower == t && r.ctx == c && decide (r.granted > 0)))
  else if op / 256 = 0x0A then x.needs.head? == some .page
  else if op = 0x0D01 then (x.needs.head? == some .reel && w.phase == 1) || (idle && (w.phase == 1 || w.phase == 2) && !begun)
  else if op = 0x0801 ∨ op = 0x0803 then begun && atYield s t c
  else if op = 0x0805 then
    (begun || decide (w.phase ≥ 2) || decide (w.progress ≥ 1)) && w.phase != 41 && (atYield s t c || drawing s t c)
  else if op = 0x0809 ∨ op = 0x0807 then atUnit s t c && (atYield s t c || drawing s t c)
  else if op = 0x0C02 then decide (w.sp ≥ 1) && decide (authStage s t c ≤ 1) && atYield s t c
  else idle

/-- Changes the job that a context carries. -/
def modJob (s : State) (t c : Nat) (f : Job → Job) : State :=
  { s with jobs := s.jobs.map (fun j => if !j.suspended && j.at_ == (t, c) then f j else j) }

/-! ## Path cycles of a part of a job (03 R101, R102) -/

/-- Lane cycles of the payload `l` and the additional data `aad` of one side of a data call, without its fixed cycles (01 R34; 05 R162). -/
def dataLane (m b t aad l : Nat) : Nat := dataBody false m b t aad l - dataBody false m b t 0 0

/-- Lane cycles of the first `q` input bytes of a data, MAC or DUKPT job (01 R34; 04 R142; 05 R155, R162, R163). -/
def streamLane (s : State) (t c q : Nat) : Nat :=
  let d := workDesc s t c
  let a0 := (keyOf s t c 0).alg
  let a1 := (keyOf s t c 1).alg
  let op := opOf d
  let typ := par d 64
  let td := laneTime (if typ = 1 then 1 else typ + 1)
  let b := fun (a : Nat) => if isTdes a then 8 else 16
  let aad := min q (aadUsed op d)
  match op with
  | 0x0202 => q / (if typ = 1 then 8 else 16) * td
  | 0x0203 => if typ = 1 then 5 * (q / 8) else q / 16 * td
  | 0x0401 | 0x0402 => match typ with
    | 1 => 13 * (q / 8)
    | 2 => laneTime a0 * (q / 16)
    | 3 => 5 * (q / 8)
    | 4 => laneTime a0 * (q / 16)
    | 5 => 13 * (q / 8)
    | 6 => 17 * (q / 64)
    | 7 => 21 * (q / 128)
    | 8 => 21 * (q / 128)
    | _ => 13 * (q / 136)
  | 0x0503 =>
    let m := par d 64
    let m1 := par d 88
    dataLane m (b a0) (laneTime a0) (if aead m then aad else 0) (q - aad) + dataLane m1 (b a1) (laneTime a1) (if aead m1 then aad else 0) (q - aad)
  | _ => dataLane (par d 64) (b a0) (laneTime a0) aad (q - aad)

/-- Cycles of such a job after key fetch that depend on no block: DUKPT's derivation, the fixed cycles of a mode. Each carrying call has
them (DEDUCED, log 32). -/
def streamPre (s : State) (t c : Nat) : Nat :=
  let d := workDesc s t c
  let k := keyOf s t c 0
  let typ := par d 64
  let side := fun (enc : Bool) (m : Nat) (k : KeyRec) => dataBody enc m 16 (laneTime k.alg) 0 0
  match opOf d with
  | 0x0202 => dukI typ (k.usage == usageOf "B0") k.alg + 16 * dukS typ + dukW typ 1
  | 0x0203 => dukI typ (k.usage == usageOf "B0") k.alg + 16 * dukS typ + dukW typ 2
  | 0x0501 => side true (par d 64) k
  | 0x0502 => side false (par d 64) k
  | 0x0503 => side false (par d 64) k + side true (par d 88) (keyOf s t c 1)
  | _ => 0

/-- What a job has done of its work so far, in the measure by which its carrying calls share the cycles: lane cycles of its input, or Spire
command cycles (03 R102; 12 R356). -/
def partDone (s : State) (t c : Nat) : Nat :=
  let w := (s.ctx t c).work
  if streamOp (opOf (workDesc s t c)) then streamLane s t c w.input.length else w.sp

/-- Cycles from the end of key fetch to a resume point, in this carrying call; of a vault job and a clone a free value. -/
def bodyCycles (s : State) (t c : Nat) : Nat :=
  let d := workDesc s t c
  let op := opOf d
  let n := partDone s t c - (s.ctx t c).work.base
  if streamOp op then streamPre s t c + n
  else if op / 256 = 0x08 then 4 + (if op = 0x0801 then rsaH (par d 64) (par d 65) (rsaBits (keyOf s t c 0) / 8) else 0) + n
  else if op = 0x0C02 then 4 + 63 + n
  else Config.freeValue s.free % 2 ^ 32

/-- The figure has held a clear PIN or a clear key: DUKPT's working key, a Spire job's private key, or the ephemeral key of an authentication
(01 R32). -/
def heldClear (s : State) (t c : Nat) : Bool :=
  let op := opOf (workDesc s t c)
  op / 256 == 0x02 || op / 256 == 0x08 || op == 0x0D01 || (op == 0x0C02 && authStage s t c == 1)

/-- Path-table value of a call that ends SUSPENDED or CANCELLED: 34 cycles to the end of key fetch, those to the resume point, 3 of a scrub, 5
of key bookkeeping where its keys passed, and 5 of tallies, stamp and handoff (01 R26, R28, R32; R101; log 32). -/
def stopPath (s : State) (t c : Nat) : Nat :=
  let x := s.ctx t c
  34 + bodyCycles s t c + (if heldClear s t c then 3 else 0) + (if x.keysOk ∧ !x.keys.isEmpty then 5 else 0) + 5

/-- A job's work as its entry keeps it: how far the streams and the cycles have come, and what it holds of the Spire. PQ_SIGN, between attempts,
keeps none of it, since more than 1 KiB would not fit: it makes its preparation again (03 R99; 09 R289; DEDUCED, log 130). -/
def entryWork (s : State) (t c : Nat) : Work :=
  let w := (s.ctx t c).work
  let v := { w with inBase := w.input.length, outBase := w.outLen, half := halfOf s t c, base := partDone s t c }
  if opOf (workDesc s t c) = 0x0807 then { v with half := [], buf := [], pc := 0 } else v

/-- The job suspends: its carrying call completes SUSPENDED, with one cycle for the placement of PROGRESS and TOTAL, and then the call
that asked for it completes OK. What the job holds of the Spire goes to its entry (R101; 09 R289). -/
def suspendJob (s : State) (t c : Nat) (j : Job) : State :=
  let p := progressOf s t c
  let n := totalOf s t c
  let w := entryWork s t c
  let s1 := finishCore { s with free := s.free + 1 } t c stSuspended (stopPath s t c + 1) 0 (leBytes 8 p ++ leBytes 8 n)
  let s2 := modJob s1 t c (fun y => { y with suspended := true, work := w, progress := p, total := n, suspendBy := none, cancelBy := none })
  finishWaiter s2 j.suspendBy stOk

/-- JOB_SUSPENSION: the job in a context has reached a resume point and is to suspend: a call asks for it, or the device
stops for heat (R101; 15 R432). -/
def execJobSuspension (tower ctx : Nat) (s : State) : Out :=
  match jobAt s tower ctx with
  | none => .next s
  | some j =>
    .next (if (j.suspendBy.isSome ∨ s.pwr.thermal = 2) ∧ atResume s tower ctx then suspendJob s tower ctx j else s)

/-- JOB_CANCELLATION: the job in a context has reached a resume point and is to be cancelled (R103). -/
def execJobCancellation (tower ctx : Nat) (s : State) : Out :=
  match jobAt s tower ctx with
  | none => .next s
  | some j =>
    if j.cancelBy.isNone ∨ !atResume s tower ctx then .next s
    else
      let s1 := modJob s tower ctx (fun y => { y with cancelBy := none })
      let s2 := jobEnded (finishCore { s1 with free := s1.free + 1 } tower ctx stCancelled (stopPath s1 tower ctx) 0 [])
        (jobAt s1 tower ctx)
      .next (finishWaiter s2 j.cancelBy stOk)

/-! ## Job operations (03 R101 to R105) -/

/-- An operation on the same job that was dispatched earlier has not completed: it takes effect first (R105). -/
def jobOpEarlier (s : State) (t c : Nat) (d : Bytes) : Bool :=
  allCtx.any (fun x =>
    let e := workDesc s x.1 x.2
    let same := fun (k k2 : Call) => (if isMf k.fn then leAt d 68 2 else k.fn) == (if isMf k2.fn then leAt e 68 2 else k2.fn)
    x != (t, c) && decide (2 ≤ opOf e) && decide (opOf e ≤ 5) && leAt e 64 4 == leAt d 64 4 &&
      (match (s.ctx t c).call, (s.ctx x.1 x.2).call with
        | some k, some k2 => same k k2
        | _, _ => false) &&
      decide ((s.ctx x.1 x.2).work.vals.getD 0 0 < (s.ctx t c).work.vals.getD 0 0))

/-- A job operation completes after 36 cycles and its waits (R104). -/
def jobDone (s : State) (t c status : Nat) (r : Bytes) : State := finishCall s t c status 36 0 r

/-- Runs a job operation on its target, in dispatch order; without a target it ends NO_SUCH_JOB. `own`: the MF may only name
its own jobs. -/
def onJob (own : Bool) (t c : Nat) (f : Job → State → State) (s : State) : State :=
  let d := workDesc s t c
  match (s.ctx t c).call with
  | none => s
  | some k =>
    if jobOpEarlier s t c d then s
    else if own && isMf k.fn && leAt d 68 2 != mfNum then jobDone s t c stBadParam []
    else match targetJob s k with
      | none => jobDone s t c stNoSuchJob []
      | some j => f j s

/-- The carrying call of a running job is of an older generation (R105). -/
def carrierStale (s : State) (j : Job) : Bool := ((s.ctx j.at_.1 j.at_.2).call.map (staleCall s)).getD false

/-- JOB_SUSPEND. -/
def jobSuspend (t c : Nat) (j : Job) (s : State) : State :=
  if j.suspended ∨ carrierStale s j then jobDone s t c stJobState []
  else setNeeds (modJob s j.at_.1 j.at_.2 (fun y => { y with suspendBy := some (t, c) })) t c [.job j.at_.1 j.at_.2]

/-- JOB_CANCEL. -/
def jobCancel (t c : Nat) (j : Job) (s : State) : State :=
  if j.suspended then jobDone (dropJob s j) t c stOk []
  else setNeeds (modJob s j.at_.1 j.at_.2 (fun y => { y with cancelBy := some (t, c) })) t c [.job j.at_.1 j.at_.2]

/-- JOB_RESUME: the job's work returns to this context, and its keys are fetched again (R102). -/
def jobResume (t c : Nat) (j : Job) (s : State) : State :=
  if !j.suspended then jobDone s t c stJobState []
  else
    let x := s.ctx t c
    let q := (x.call.map (·.qp)).getD 0
    let s1 := { s with jobs := s.jobs.map (fun (y : Job) =>
      if y.fn == j.fn && y.tag == j.tag then { y with suspended := false, at_ := (t, c), qp := q, suspendBy := none, cancelBy := none } else y) }
    fetchKeys (s1.setCtx t c { x with work := j.work }) t c

/-- JOB_QUERY (R104). -/
def jobQuery (t c : Nat) (j : Job) (s : State) : State :=
  let a := j.at_
  let stream := streamOp (opOf j.call.desc)
  let p := if j.suspended ∨ stream then j.progress else progressOf s a.1 a.2
  let n := if j.suspended then j.total else totalOf s a.1 a.2
  jobDone s t c stOk (leBytes 1 (if j.suspended then 2 else 1) ++ leBytes 1 j.qp ++ leBytes 2 j.fn ++ leBytes 4 j.tag ++
    leBytes 8 p ++ leBytes 8 n)

/-- Runs JOB_SUSPEND. -/
def execJobSuspend (tower ctx : Nat) (fault : FigFault) (s : State) : Out :=
  .next (runFigure s tower ctx 0x0002 fault (onJob true tower ctx (jobSuspend tower ctx)))

/-- Runs JOB_RESUME. -/
def execJobResume (tower ctx : Nat) (fault : FigFault) (s : State) : Out :=
  .next (runFigure s tower ctx 0x0003 fault (onJob true tower ctx (jobResume tower ctx)))

/-- Runs JOB_CANCEL. -/
def execJobCancel (tower ctx : Nat) (fault : FigFault) (s : State) : Out :=
  .next (runFigure s tower ctx 0x0004 fault (onJob false tower ctx (jobCancel tower ctx)))

/-- Runs JOB_QUERY. -/
def execJobQuery (tower ctx : Nat) (fault : FigFault) (s : State) : Out :=
  .next (runFigure s tower ctx 0x0005 fault (onJob false tower ctx (jobQuery tower ctx)))

end Sys2Proof.Machine
end

