-- ==== Sys2Proof/Machine/StartUp.lean ====
section
/-! DEFINITION. Resets, start-up, self-test outcomes and life-cycle transitions (16 R444 to R453; 14 R397 to R400; 02 R67). -/

namespace Sys2Proof.Machine

/-! ## What a reset leaves (16 R448, R449) -/

/-- Every page of the CORE, HOST and tower domains that has a head (16 R448). -/
def corePages : List Nat :=
  [pgRng, pgMtr, pgArb, pgCaller, pgKeep, pgVault, pgAcu, pgHif, pgQctx, pgMbox] ++ (List.range 17).map pgTower

/-- A lock bit of a page is set. -/
def locked (s : State) (p group : Nat) : Bool := (s.head p).lock.getLsbD group

/-- A page's head after a warm reset: only its locks stand (16 R449). -/
def warmHead (s : State) (p : Nat) : State := s.setHead p { lock := (s.head p).lock }

/-- A lane after a warm reset: its role stands (15 R437; 16 R448). -/
def Lane.warm (l : Lane) : Lane := { role := l.role, faulty := l.faulty }

/-- A tower after a warm reset. -/
def Tower.warm (w : Tower) : Tower :=
  { clanes := w.clanes.map Lane.warm, hlanes := w.hlanes.map Lane.warm, spire := { retired := w.spire.retired } }

/-- A noise source after a warm reset: sources in service, and those under their start-up test, start again (08 R273). -/
def NoiseSrc.warm (x : NoiseSrc) : NoiseSrc :=
  { role := if x.role = 1 then 3 else x.role, startupFailed := x.startupFailed }

/-- An arbiter after a warm reset: a locked BASE stands, with the value in force (16 R449; log 35). -/
def Arbiter.warm (keep : Bool) (reset : Nat) (a : Arbiter) : Arbiter :=
  if keep then { base := a.base, live := a.live } else { base := reset, live := reset }

/-- The Caller after a warm reset: its map follows the towers' roles, and the key of the handle hash is drawn anew
(10 R306). -/
def Caller.warm (arb own : Bool) (key : Nat) (x : Caller) : Caller :=
  { arbKeep := x.arbKeep.warm arb 0x048C, arbDma := x.arbDma.warm arb 0x48CC, arbQueue := x.arbQueue.warm arb 0xC840
    arbSpire := x.arbSpire.warm arb 0x048C, arbReel := x.arbReel.warm arb 0xF08C, jobMax := if own then x.jobMax else 4
    limit := if own then x.limit else 0x40, map := x.map, hashKey := key, seq := x.seq }

/-- The Keep after a warm reset: empty, with locked maps and repaired rows kept; the hash key is drawn anew (07 R218). -/
def Keep.warm (rooms tc : Bool) (key : Nat) (k : Keep) : Keep :=
  { rooms := if rooms then k.rooms else [], liveRooms := if rooms then k.liveRooms else []
    tc := if tc then k.tc else [], liveTc := if tc then k.liveTc else [], repaired := k.repaired, hashKey := key }

/-- NEXT_READY as the Dome's slots show it: the one live key set is under the NEXT DMK (07 R254). -/
def nextReadyOf (d : Dome) : Bool :=
  let r := if d.sel then d.slots.2 else d.slots.1
  let alone := if r.cur then r.set0 == {} else r.set1.isNone
  r.valid && alone && d.next.any (fun k => dmkId k == r.curSet.dmkId)

/-- VAULT_STATE.STATE at every reset: DETACHED where the Dome holds a COMMITTED slot (07 R255). -/
def vaultStart (d : Dome) : Nat := if (if d.sel then d.slots.2 else d.slots.1).valid then 1 else 0

/-- The vault engine after a warm reset: locked registers stand, and so does what the memory holds. -/
def Vault.warm (geo span : Bool) (d : Dome) (v : Vault) : Vault :=
  { st := vaultStart d, nextReady := nextReadyOf d, journalLost := v.journalLost, p := if geo then v.p else 0
    j := if geo then v.j else 0, wins := if geo then v.wins else List.replicate 16 (0, 0), pspan := if span then v.pspan else []
    mem := v.mem, seals := v.seals }

/-- Metering after a warm reset: tallies and totals stand, tariff registers show the ledger (12 R357, R368, R371). -/
def Mtr.warm (tariff len : Bool) (l : Ledger) (m : Mtr) : Mtr :=
  { tally := m.tally, folded := m.folded, openTot := m.openTot, closedTot := m.closedTot, firstId := m.firstId, lastId := m.lastId, foldId := m.foldId
    recovering := m.recovering, lastSecond := m.lastSecond, interval := if len then m.interval else l.len
    at_ := if tariff then m.at_ else l.at_.getD (2 ^ 48 - 1) }

/-- Access control after a warm reset: locked entries stand (13 R383). -/
def Acu.warm (a : Acu) : Acu :=
  { tf := a.tf.filter (·.2.lock), mf := a.mf.filter (·.2.lock), int := a.int.filter (·.2.lock) }

/-- The host interface after a warm reset: no TF exists, every queue pair is DISABLED with GEN 0, the link stays up
(02 R67; 16 R450). A locked PRIO_CAP stands. -/
def Hif.warm (cap : Bool) (h : Hif) : Hif :=
  { speed := h.speed, width := h.width, reversed := h.reversed, msgs := h.msgs
    tfs := if cap then (h.tfs.map (fun e => (e.1, ({ cap := e.2.cap } : Tf)))).filter (fun e => e.2 != {}) else [] }

/-- The vault's batches at a warm reset: one that has written its PENDING slot is completed through step 5, unless a check refuses its
home writes; an earlier one is abandoned (16 R450). A batch whose step 4 has failed before is tried again (log 63). -/
def settleBatch (s : State) : State :=
  match s.vault.batch with
  | some b =>
    let (s1, ok) := writeCheck s (b.changed.map (·.1))
    if ok then commitHome s1 b else s1
  | none => s

/-- A life-cycle transition in step 1 is lost with the reset. -/
def dropTransition (s : State) : State := { s with lcs := { s.lcs with transition := none } }

/-- The CORE, HOST and tower domains are reset, and READY clears (16 R448, R450). `cause` is a bit of PWR_RESET_CAUSE. -/
def warmReset (s : State) (cause : Nat) : State :=
  let s0 := settleBatch (dropTransition (cardsOff (closeCeremony s 5)))
  let arb := locked s0 pgArb 0
  let s1 : State := { s0 with
    free := s0.free + 2
    dev := { s0.dev with ready := false }
    pwr := { s0.pwr with cause := BitVec.ofNat 5 (2 ^ cause) }
    rng := { srcs := s0.rng.srcs.map NoiseSrc.warm }
    mtr := s0.mtr.warm (locked s0 pgMtr 0) (locked s0 pgMtr 1) s0.dome.ledger
    caller := s0.caller.warm arb (locked s0 pgCaller 0) s0.free
    keep := s0.keep.warm (locked s0 pgKeep 0) (locked s0 pgKeep 1) (s0.free + 1)
    vault := s0.vault.warm (locked s0 pgVault 0) (locked s0 pgVault 1) s0.dome
    acu := s0.acu.warm
    hif := s0.hif.warm (locked s0 pgHif 0)
    reel := { s0.reel with session := none, inbound := none }
    sup := { s0.sup with spareTesting := false }
    towers := s0.towers.map Tower.warm
    jobs := []
    bind := []
    cus := { s0.cus with closing := none } }
  corePages.foldl warmHead (warmHead s1 pgCurves)

/-- WARM_RESET: the MF writes DEV_CTRL.WARM_RESET; ignored while READY is 0 (16 R448, R449). -/
def execWarmReset (s : State) : Out := .next (if s.dev.ready then warmReset s 2 else s)

/-- MF_FLR: an FLR of the MF, or PE_PERST_N low, which also holds the link down (02 R67; 16 R448). A cause that arrives during a
reset is absorbed (R449). -/
def execMfFlr (perst : Bool) (s : State) : Out :=
  let s1 := if s.dev.ready then warmReset s 3 else s
  .next (if perst then { s1 with dev := { s1.dev with perst := true }, hif := { s1.hif with speed := 0, width := 0 } } else s1)

/-- A cold reset: every domain but the Dome, with what fuses and memories hold (16 R448, R449). -/
def coldReset (s : State) : State :=
  let l := s.dome.ledger
  let r : State := { State.reset with
    free := s.free + 2
    dome := s.dome
    fuse := { rows := s.fuse.rows, policy := s.fuse.policy, owner := s.fuse.owner, serial := s.fuse.serial, gradeX := s.fuse.gradeX
              uds := s.fuse.uds, sparing := s.fuse.sparing, lost := s.fuse.lost }
    vault := { st := vaultStart s.dome, nextReady := nextReadyOf s.dome, journalLost := s.vault.journalLost, mem := s.vault.mem, seals := s.vault.seals }
    mtr := {
      interval := l.len, at_ := l.at_.getD (2 ^ 48 - 1)
      recovering := unclosed l || l.at_.isSome
      firstId := s.mtr.firstId, lastId := s.mtr.lastId, foldId := s.mtr.foldId }
    caller := { hashKey := s.free }
    keep := { hashKey := s.free + 1 }
    host := s.host
    pending := s.pending }
  let r1 := { r with hif := { r.hif with msgs := s.hif.msgs } }
  r1.setHead pgDome { s.head pgDome with lock := 0 }

/-- COLD_RESET: PORST_N or PWRGOOD low; PWRGOOD is shown as PORST (16 R448, R449). `cut` says where power was cut during the ledger's
writes: in those of a fold or of a close, and after how many of them (12 R365). -/
def execColdReset (_pwrgood : Bool) (s : State) (cut : Option (Bool × Nat) := none) : Out :=
  .next (coldReset (match cut with
    | some (close, k) => s.setLedger (cutLedger s close k)
    | none => s))

/-! ## Clearing the Dome (06 R214; 07 R250; 15 R420) -/

/-- The key and root area is zero: DIK, DMK slots, root slots and the ceremony's ephemeral key. -/
def clearKeyArea (s : State) : State :=
  { s with
    dome := { s.dome with dik := none, cur := none, next := none, slots := ({}, {}), sel := false }
    cus := { s.cus with cer := s.cus.cer.map (fun c => { c with eph := 0 }), closing := none } }

/-! ## Straps and fuses (16 R445, R452, R453; 14 R395) -/

/-- A port of the role begins to train. -/
def trainPort (p : Port) (on : Bool) : Port := { p with link := if on then 1 else 0 }

/-- STRAP_SAMPLE (16 R445, R452; 11 R322). HOLDUP_OK is high and VDD_CORE above its warning level from here on until a
command says otherwise (PRESUMED, log 36). -/
def execStrapSample (tn : BitVec 24) (s : State) : Out :=
  if s.dev.tnPhase ≠ 0 then .next s
  else
    let role := fieldOf tn.toNat 2 2
    .next { s with
      dev := { s.dev with straps := tn, tnPhase := 1, strapErr := fieldOf tn.toNat 0 2 == 3 }
      reel := { s.reel with
        role := role, closed := tn.getLsbD 4, up := trainPort s.reel.up (role != 3), dn := trainPort s.reel.dn (role < 2) }
      hif := { s.hif with reversed := tn.getLsbD 9 }
      pwr := { s.pwr with holdup := true, supplyOk := true } }

/-- The sparing records of a tower's lanes of one kind, applied: retired lanes, and the spare in their place (15 R437). -/
def applyLaneFuses (recs : List Nat) (t : Nat) (hash : Bool) (ls : List Lane) : List Lane :=
  let l1 := ls.zipIdx.map (fun e => if recs.contains (fuseLane t hash e.2) then { e.1 with role := 2, faulty := true } else e.1)
  let full := if hash then 2 else 5
  if (l1.filter (fun l => l.role == 1)).length < full then l1.map (fun l => if l.role = 0 then { l with role := 1 } else l) else l1

/-- The roles of the towers with the sparing fuses applied: the spare takes the place of one that is retired. -/
def applyTowerFuses (recs roles : List Nat) : List Nat :=
  let r1 := roles.zipIdx.map (fun e => if recs.contains (fuseTower e.2) then 2 else e.1)
  if (r1.filter (· == 1)).length < 16 then r1.map (fun r => if r = 0 then 1 else r) else r1

/-- The entries of CALLER_TOWER_MAP over the towers in service, in turn (10 R306; DESIGN CHOICE, log 10). -/
def freshMap (ups : List Nat) : List Nat := (List.range 64).map (fun k => if ups.isEmpty then 0 else ups.getD (k % ups.length) 0)

/-- The bytes of FUSE_CFG_DIGEST: multi-byte items little-endian, as the Notation says; each sparing record 4 bytes
(14 R418; DESIGN CHOICE, log 37). -/
def cfgBytes (f : Fuse) : Bytes :=
  [0x00, 0x84, 0xB0, if f.gradeX then 0x58 else 0x43] ++ leBytes 8 f.serial ++ f.rows.flatMap (fun r => leBytes 4 r.toNat) ++
    f.policy.flatten ++ f.owner ++ (sparingRecs f).flatMap (leBytes 4)

/-- FUSE_LOAD: in SCRAP and LOST the Reel is not started, and no secret of a LOST device survives (14 R392, R395, R400; 15 R437; 16 R445, R453; 06 R173). -/
def execFuseLoad (s : State) : Out :=
  if s.fuse.loaded ∨ s.dev.tnPhase ≠ 1 then .next s
  else
    let st := fuseState s
    let recs := sparingRecs s.fuse
    let roles := applyTowerFuses recs s.sup.roles
    let s0 := if st = 6 then clearKeyArea s else s
    let s1 := { s0 with
      fuse := { s.fuse with loaded := true, cfgDigest := sha384 (cfgBytes s.fuse) }
      lcs := { s.lcs with st := st }
      dev := { s.dev with tnPhase := if st = 1 ∨ st = 4 then 3 else 2 }
      dome := { s0.dome with dik := dikOf s st }
      sup := { s.sup with roles := roles }
      reel := if st ≥ 5 then { s.reel with up := trainPort s.reel.up false, dn := trainPort s.reel.dn false } else s.reel
      keep := { s.keep with repaired := recs.filterMap (fun r => if fuseRow 0 ≤ r then some (r - fuseRow 0) else none) }
      towers := s.towers.zipIdx.map (fun (e : Tower × Nat) => { e.1 with
        clanes := applyLaneFuses recs e.2 false e.1.clanes, hlanes := applyLaneFuses recs e.2 true e.1.hlanes }) }
    .next { s1 with caller := { s1.caller with map := freshMap (inService s1) } }

/-! ## Self-test and READY (16 R445, R446) -/

/-- Lanes of a kind that a whole tower has in service (08, opening). -/
def fullLanes (hash : Bool) : Nat := if hash then 2 else 5

/-- The tower's spare lane of a kind, tested and unused, enters service where one is missing (15 R435). -/
def enterSpare (s : State) (t : Nat) (hash : Bool) : State :=
  let w := s.tower t
  if w.lanesUp hash < fullLanes hash then
    match (w.lanes hash).findIdx? (fun l => l.role == 0 && !l.faulty) with
    | some i => modLane s t hash i (fun l => { l with role := 1 })
    | none => s
  else s

/-- A lane has failed its test at start-up (15 R435). -/
def startLaneFail (s : State) (x : Nat × Bool × Nat) : State :=
  match ((s.tower x.1).lanes x.2.1)[x.2.2]? with
  | none => s
  | some l => if l.role = 2 then s else enterSpare (markLane s x.1 x.2.1 x.2.2 1) x.1 x.2.1

/-- A tower that self-test or the sparing fuses leave short of lanes or without its Spire drains; a spare one retires (15 R435). -/
def startTower (s : State) (t : Nat) : State :=
  let w := s.tower t
  let bad := shortOfLanes w false || shortOfLanes w true || w.spire.retired
  if !bad then s
  else if s.sup.roles.getD t 2 = 0 ∧ s.sup.replacing.isNone then
    noteRetire (setRole s t 2) 3 t 0 (if w.spire.retired then 1 else 3) 0 (some (fuseTower t))
  else drainTower s t

/-- The towers as self-test and the sparing fuses leave them: a spare one is judged first, then the others in ascending order (15 R436). -/
def startTowers (s : State) : State :=
  let spare := fun (t : Nat) => s.sup.roles.getD t 2 == 0
  ((List.range 17).filter spare ++ (List.range 17).filter (fun t => !spare t)).foldl startTower s

/-- Failed spare lanes come first, so that none of them enters service. -/
def spareFirst (s : State) (l : List (Nat × Bool × Nat)) : List (Nat × Bool × Nat) :=
  let spare := fun (x : Nat × Bool × Nat) => ((((s.tower x.1).lanes x.2.1)[x.2.2]?).map (·.role)).getD 1 == 0
  l.filter spare ++ l.filter (fun x => !spare x)

/-- The start-up window of a source that no NOISE_WINDOW has tested: it passes unless it is named. Which test a failed window
failed, and the samples of one that passes, are free (08 R273; log 3). -/
def startSource (bad : List Nat) (s : State) (i : Nat) : State :=
  let x := s.rng.srcs.getD i {}
  if x.role ≠ 3 then s
  else if bad.contains i then
    let (s1, n) := s.takeFree
    let k := Config.freeValue n % 3
    retireSource (setSrc s1 i { x with
      windows := satAdd 32 x.windows 1, recent := [false]
      repFails := if k = 0 then x.repFails else satAdd 16 x.repFails 1
      propFails := if k = 1 then x.propFails else satAdd 16 x.propFails 1 }) i true
  else
    let (s1, w) := s.takeBytes 128
    let s2 := setSrc s1 i { x with role := 1, windows := satAdd 32 x.windows 1, recent := [true] }
    s2.setRng { s2.rng with windows := s2.rng.windows ++ [(i, w)] }

/-- DEV_SELFTEST (16 R461). -/
def selftestBits (s : State) (lanes : List (Nat × Bool × Nat)) (spires : List Nat) (core : Bool) : Nat :=
  let t := (List.range 17).foldl (fun a i => if lanes.any (fun x => x.1 == i) || spires.contains i then a + 2 ^ i else a) 0
  let n := (List.range 6).foldl (fun a i => if (s.rng.srcs.getD i {}).startupFailed then a + 2 ^ i else a) 0
  t + 2 ^ 17 * n + 2 ^ 23 * flag core

/-- A tamper event met on VBAT alone is handled as the device leaves reset (15 R425). -/
def lateTamper (s : State) : State :=
  if s.dome.unhandled then alertCause (raise { s with dome := { s.dome with unhandled := false } } pgDome 1) 0 else s

/-- DEVICE_READY: self-test has ended with the parts named as failed, the memories are initialised, and READY is set
(16 R445, R446). Towers left short drain, the lower-numbered first (15 R435, R436); the DRBGs are instantiated. In SCRAP and LOST no tower,
RNG or Reel engine is started (14 R392). -/
def execDeviceReady (lanes : List (Nat × Bool × Nat)) (spires sources : List Nat) (core : Bool) (us : Nat) (s : State) : Out :=
  if !s.fuse.loaded ∨ s.dev.ready then .next s
  else
    let dead := decide (s.lcs.st ≥ 5)
    let s1 := if dead then s else (spareFirst s lanes).foldl startLaneFail s
    let s2 := if dead then s1 else startTowers (spires.foldl markSpire s1)
    let s3 := if dead then s2 else startDrbgs (starveCheck s (rngState ((List.range 6).foldl (startSource sources) s2)))
    let bits := if dead then 0 else selftestBits s3 lanes spires core
    let s4 := { s3 with dev := { s3.dev with
      ready := true, selftestFail := core && !dead, selftest := BitVec.ofNat 24 bits, bootUs := min us 65535 } }
    .next (degradeCheck (lateTamper (raise s4 pgDev 1)))

/-! ## Clearing Dome RAM and the vault (07 R250; 15 R420) -/

/-- All of Dome RAM is zero. -/
def clearDomeRam (s : State) : State :=
  let s1 := clearKeyArea s
  { s1 with dome := { s1.dome with ledger := {}, witness := [], log := [] } }

/-- The vault engine is left in NONE: what it had not finished is gone, as a batch that fails in step 1 (07 R240, R250; 15 R425). -/
def dropVault (s0 : State) : State :=
  let gs := ((s0.vault.writing.map (·.groups)).getD []) ++ s0.vault.groups
  let s := dropGroups (s0.setVault { s0.vault with groups := [], writing := none }) gs
  s.setVault { s.vault with
    st := 0, busy := 0, hold := false, rekey := none, nextReady := false, groups := [], writing := none, batch := none
    meta_ := [], descs := [] }

/-! ## Life-cycle transitions (14 R397 to R401) -/

/-- Every admitted call has reached handoff but the one that asked, and no batch is in flight (14 R398 step 1). -/
def lcDrained (s : State) (who : Option (Nat × Nat)) : Bool :=
  allCtx.all (fun x => (s.ctx x.1 x.2).call.isNone || who == some x) && s.caller.queues.all (·.isEmpty) && s.caller.jobQ.isEmpty &&
    s.vault.writing.isNone && s.vault.batch.isNone

/-- A block of policy fuses: the digest and its CHECK byte (14 R400). -/
def policyBlock (digest : Bytes) : Bytes := fit 48 digest ++ leBytes 1 (crc8 (fit 48 digest))

/-- Fuse bytes after more of their bits are burned: a burned bit stays (14 R399). -/
def burnBytes (old b : Bytes) : Bytes := old.zipIdx.map (fun e => e.1 ||| b.getD e.2 0)

/-- Burns bits of policy block `i`. -/
def setPolicy (s : State) (i : Nat) (b : Bytes) : State :=
  { s with fuse := { s.fuse with policy := s.fuse.policy.set i (burnBytes (s.fuse.policy.getD i []) b) } }

/-- Burns bits of life-cycle row `i`. -/
def setRow (s : State) (i : Nat) (w : Word) : State :=
  { s with fuse := { s.fuse with rows := s.fuse.rows.set i (s.fuse.rows.getD i 0 ||| w) } }

/-- The device is LOST: no secret of it survives (14 R399, R400). -/
def becomeLost (s : State) (who : Option (Nat × Nat)) : State :=
  let s1 := match who with
    | some (t, c) => abortCall s t c .free
    | none => s
  let s2 := clearKeys (dropVault (clearKeyArea (closeCeremony s1 5)))
  { s2 with fuse := { s2.fuse with lost := true }, lcs := { s2.lcs with st := 6, transition := none } }

/-- How a step of the fuse engine ends. -/
inductive BurnEnd
  /-- The row or block is burned. -/
  | done
  /-- The repeat has failed, or there is nothing left to repeat it in: the device is LOST (14 R399). -/
  | lost
  /-- Power was lost (14 R400). -/
  | cut
  deriving DecidableEq, Repr

/-- The bits of `b` that burn where only some of them do: those of `bits`. -/
def someBits (b bits : Bytes) : Bytes := b.zipIdx.map (fun e => e.1 &&& bits.getD e.2 0)

/-- Step 2 of R398: the policy block of a COMMISSION. A block that fails is made void, and the step is repeated once in the next one; a
power loss leaves a partial block (14 R399, R400). Which bits stand where the repeat fails is a free value (log 3). A refused access burns nothing, and the
repeat neither (13 R384). -/
def burnPolicy (s0 : State) (how : StepBurn) : State × BurnEnd :=
  let (s, ok) := domeAccess s0 fuseArray
  if !ok then (s, .lost) else
  let d := policyBlock (((s.cus.table).map tabDigest).getD (zeros 48))
  match blankPolicy s with
  | none => (s, .lost)
  | some i =>
    let void := setPolicy s i (List.replicate 49 0xFF)
    let next := fun (f : State → Nat → State × BurnEnd) => match blankPolicy void with
      | none => (void, .lost)
      | some j => f void j
    match how with
    | .ok => (setPolicy s i d, .done)
    | .cut bits => (setPolicy s i (fit 49 bits), .cut)
    | .retry => next (fun a j => (setPolicy a j d, .done))
    | .cutAgain bits => next (fun a j => (setPolicy a j (someBits d bits), .cut))
    | .lost => next (fun a j =>
      let (b, x) := a.takeBytes 49
      (setPolicy b j (someBits d x), .lost))

/-- The content of a row that power was cut in: corrupt, being neither blank, void nor a row that is valid after those read as `r`
(14 R394, R400). -/
def corruptRow (r : RowScan) (bits : Word) : Bool := !(scanRow { r with blank := false, ok := true } bits).ok

/-- Step 3 of R398: the row, with its repeat, or with the corrupt row that a power loss leaves (14 R399, R400). None where the bits given
would be no corrupt row. -/
def burnRow (s0 : State) (target : Nat) (how : StepBurn) : Option (State × BurnEnd) :=
  let (s, ok) := domeAccess s0 fuseArray
  if !ok then some (s, .lost) else
  let r := rowScan s
  let w := lcRow (lcsCode target) (r.seq + 1)
  let void := setRow s r.used (BitVec.ofNat 32 (2 ^ 32 - 1))
  let more := decide (r.used + 1 < 24)
  match how with
  | .ok => some (setRow s r.used w, .done)
  | .cut b => if corruptRow r (BitVec.ofNat 32 (leVal b)) then some (setRow s r.used (BitVec.ofNat 32 (leVal b)), .cut) else none
  | .retry => some (if more then (setRow void (r.used + 1) w, .done) else (void, .lost))
  | .cutAgain b =>
    if !more then some (void, .lost)
    else if corruptRow r (BitVec.ofNat 32 (leVal b) &&& w) then some (setRow void (r.used + 1) (BitVec.ofNat 32 (leVal b) &&& w), .cut)
    else none
  | .lost =>
    if !more then some (void, .lost)
    else
      let (a, n) := void.takeFree
      some (setRow a (r.used + 1) (BitVec.ofNat 32 (Config.freeValue n) &&& w), .lost)

/-- The Dome writes its canary word anew (15 R421). -/
def newCanary (s : State) : State :=
  let (s1, n) := s.takeFree
  { s1 with dome := { s1.dome with canary := Config.freeValue n % 2 ^ 64 } }

/-- Steps 4 to 6 of R398. -/
def enterState (s : State) (target : Nat) : State :=
  let s1 := newCanary (clearKeys (dropVault (if target ≥ 4 then clearDomeRam s else clearKeyArea s)))
  let s2 := closeCeremony s1 1
  let s3 := { s2 with
    dome := { s2.dome with dik := dikOf s2 target }, lcs := { s2.lcs with st := target, transition := none } }
  warmReset (lcNote s3 1 target) 4

/-- LIFECYCLE_TRANSITION: step 1 of R398 is over, and steps 2 to 6 run, with the burn as the command says (14 R398 to R401). -/
def execLifecycleTransition (burn : BurnResult) (s : State) : Out :=
  match s.lcs.transition with
  | none => .next s
  | some (target, who) =>
    if lcRefusal s target ≠ 0 then .next (lcAbort s)
    else if !lcDrained s who then .next s
    else
      let commission := s.lcs.st == 2 && target == 3
      let s0 := if s.lcs.st = 1 ∧ target = 2 then { s with fuse := { s.fuse with owner := burnBytes s.fuse.owner s.lcs.owner } } else s
      let p := if commission then burnPolicy s0 burn.block else (s0, .done)
      .next (match p.2 with
        | .cut => coldReset p.1
        | .lost => becomeLost p.1 who
        | .done => match burnRow p.1 target burn.row with
          | none => s
          | some (a, .done) => enterState a target
          | some (a, .lost) => becomeLost a who
          | some (a, .cut) => coldReset a)

/-! ## Power supplies and the Dome (15 R419, R421) -/

/-- VDD_AON_LOSS: the Dome runs from VBAT. -/
def execVddAonLoss (vbat : Nat) (s : State) : Out :=
  .next (if s.dome.onMain then { s with dome := { s.dome with onMain := false, vbat := vbat % 4096 } } else s)

/-- DOME_POWER_UP: VDD_AON comes up; where the canary shows that Dome RAM lost its supply, all of it is cleared, and the Dome's
registers with it (15 R421, R426; DEDUCED, log 38); the vault is then in NONE, and the ledger's registers read as on a blank Dome (07 R255;
12 R371). -/
def execDomePowerUp (lost : Bool) (s : State) : Out :=
  if s.dome.onMain then .next s
  else
    let s1 := { s with dome := { s.dome with onMain := true } }
    .next (if lost then
      let s2 := clearDomeRam s1
      { s2 with
        dome := { s2.dome with
          tampered := false, acked := false, erasing := false, battLow := false, blankStart := true, cause := 0, count := 0,
          toggles := 0, sensorEn := 0x3F, logNext := 0, unhandled := false },
        vault := { s2.vault with st := 0, nextReady := false },
        mtr := { s2.mtr with interval := 60, at_ := 2 ^ 48 - 1, recovering := false } }
    else s1)

end Sys2Proof.Machine
end

