-- ==== Sys2Proof/Machine/DomeFam.lean ====
section
/-! DEFINITION. Tamper sensors, the tamper response, its acknowledgement and the tamper log (15 R422 to R427). -/

namespace Sys2Proof.Machine

/-! ## Sensors (15 R422) -/

/-- The sensors that can make a valid assertion now: pairs and switches as DOME_SENSOR_EN says, VBAT low only on battery, the
glitch, over-voltage and clock sensors only on main power. -/
def sensorMask (d : Dome) : BitVec 15 :=
  let pairs := 4 * (fieldOf d.sensorEn.toNat 0 4) + 64 * (fieldOf d.sensorEn.toNat 4 2)
  let supply := if d.onMain then 2 ^ 10 + 2 ^ 11 + 2 ^ 14 else 2 ^ 8
  BitVec.ofNat 15 (3 + pairs + supply + 2 ^ 9 + 2 ^ 12 + 2 ^ 13)

/-- An event is open: TAMPERED and not acknowledged (15 R423). -/
def eventOpen (d : Dome) : Bool := d.tampered && !d.acked

/-- Index of the newest log entry. -/
def lastLog (d : Dome) : Nat := (d.logNext + 31) % 32

/-! ## The response (15 R424, R425) -/

/-- A call that waits in a queue of the Caller ends DEVICE_FAULT. A job operation has 36 path cycles and its wait, whatever its status
(03 R104); how many cycles another call has run is open (log 3). -/
def faultQueued (s : State) (k : Call) : State :=
  let (s1, n) := s.takeFree
  let path := if 2 ≤ opOf k.desc ∧ opOf k.desc ≤ 5 then 36 + (s.cycle - k.cycle0) else Config.freeValue n % 2 ^ 32
  handoff (charge s1 k.fn 14 (ceilDiv path 1024)) k (cplBytes k stDeviceFault (cflags false false false k.degraded) path [])

/-- Every call that has not reached handoff ends DEVICE_FAULT (15 R425). -/
def faultAll (s : State) : State :=
  let ks := s.caller.queues.flatten ++ s.caller.jobQ
  let s1 := { s with
    caller := { s.caller with queues := [[], [], [], []], jobQ := [] }
    jobs := s.jobs.map (fun (j : Job) => { j with suspendBy := none, cancelBy := none }) }
  let s2 := allCtx.foldl (fun a x => if (a.ctx x.1 x.2).call.isSome then deviceFault a x.1 x.2 else a) s1
  ks.foldl faultQueued s2

/-- A transition that a ceremony's commit asked for is lost with the ceremony. -/
def dropCeremonyTransition (s : State) : State :=
  match s.lcs.transition with
  | some (_, some _) => dropTransition s
  | _ => s

/-- What the response does beyond the Dome on main power: caches, vault, ceremonies, calls and jobs (15 R424, R425). -/
def tamperOnMain (s : State) : State :=
  let s1 := dropVault (dropCeremonyTransition (closeCeremony s 5))
  let s2 := faultAll s1
  let s3 := clearKeys { s2 with jobs := [] }
  alertCause (raise { s3 with keep := { s3.keep with erasing := true } } pgDome 1) 0

/-- The event latches its causes, erases the key and root area, and is logged (15 R424, R427); a refused write of the log is dropped
(13 R384). -/
def tamperInDome (s : State) (c : BitVec 15) (temp : BitVec 8) (vbat : Nat) : State :=
  let s1 := clearKeyArea s
  let d := s1.dome
  let n := satAdd 32 d.count 1
  let e : TamperEnt :=
    { event := n, cause := c, onBattery := !d.onMain, cleared := d.onMain, bell := if d.onMain ∧ timeKnown s then s.time.bell else 0
      temp := temp, vbat := vbat % 2 ^ 16, toggles := 0 }
  let (s2, ok) := domeAccess s1 (domeLog + 64 * d.logNext)
  { s2 with dome := { d with
    tampered := true, acked := false, erasing := true, cause := d.cause ||| c, live := d.live ||| c, count := n
    vbat := vbat % 4096, log := if ok then tblInsert d.log d.logNext e else d.log, logNext := (d.logNext + 1) % 32, unhandled := d.unhandled || !d.onMain } }

/-- TAMPER_EVENT: a valid assertion while no event is open (15 R423 to R425). -/
def execTamperEvent (cause : BitVec 15) (temp : BitVec 8) (vbat : Nat) (s : State) : Out :=
  let c := cause &&& sensorMask s.dome
  if c = 0 ∨ eventOpen s.dome then .next s
  else
    let s1 := tamperInDome s c temp vbat
    .next (if s.dome.onMain then tamperOnMain s1 else s1)

/-- TAMPER_TOGGLE: further valid assertions before the acknowledgement; each sensor counts once (15 R423). -/
def execTamperToggle (cause : BitVec 15) (s : State) : Out :=
  let c := cause &&& sensorMask s.dome
  let n := ((List.range 15).filter (fun i => c.getLsbD i)).length
  let d := s.dome
  if !eventOpen d then .next s
  else
    let e := tblGet ({} : TamperEnt) d.log (lastLog d)
    .next { s with dome := { d with
      toggles := satAdd 32 d.toggles n, live := d.live ||| c
      log := if n = 0 then d.log else tblInsert d.log (lastLog d) { e with toggles := satAdd 32 e.toggles n } } }

/-- ERASE_DONE: the key and root area is zero (15 R424). -/
def execEraseDone (s : State) : Out := .next { s with dome := { s.dome with erasing := false } }

/-- KEEP_ERASE_DONE: the Keep's data rows are zero (15 R424). -/
def execKeepEraseDone (s : State) : Out := .next { s with keep := { s.keep with erasing := false } }

/-- BATT_LOW: VBAT is below 2.6 V (15 R422, R439). -/
def execBattLow (vbat : Nat) (s : State) : Out :=
  if vbat ≥ 2600 then .next s
  else
    let s1 := { s with dome := { s.dome with vbat := vbat, battLow := true } }
    .next (if s.dome.battLow then s1 else alertCause (raise s1 pgDome 2) 4)

/-- DOME_ACK: a write of the register, with the sensors that assert now; one that is accepted rewrites the canary (15 R421, R426). -/
def execDomeAck (value : Word) (live : BitVec 15) (s : State) : Out :=
  let s1 := { s with dome := { s.dome with live := live } }
  if value.getLsbD 0 ∧ s.dome.tampered ∧ live = 0 then
    let s2 := newCanary s1
    .next { s2 with dome := { s2.dome with cause := 0, acked := true, tampered := s.lcs.st == 3 } }
  else .next (recordWerr s1 pgDome)

end Sys2Proof.Machine
end

