-- ==== Sys2Proof/Machine/PowerFam.lean ====
section
/-! DEFINITION. Droop, thermal limits, self-test, spares, ECC, sampled inputs, output pins and SMBus (15 R428 to R441; 16 R453 to
R460). -/

namespace Sys2Proof.Machine

/-- Writes the power page's state. -/
def State.setPwr (s : State) (p : Pwr) : State := { s with pwr := p }

/-! ## Droop and brown-out (15 R429) -/

/-- DROOP: VDD_CORE below 0.70 V; a transition still in step 1 is refused (14 R397). -/
def execDroop (mv : Nat) (s : State) : Out :=
  if mv ≥ 700 then .next s
  else
    let s1 := s.setPwr { s.pwr with vcore := mv, supplyOk := false }
    if s.pwr.droop then .next (lcAbort s1)
    else
      let s2 := s1.setPwr { s1.pwr with droop := true, droopCount := satAdd 32 s1.pwr.droopCount 1 }
      .next (lcAbort (raise s2 pgPwr 1))

/-- DROOP_RECOVERY: VDD_CORE above 0.72 V. -/
def execDroopRecovery (mv : Nat) (s : State) : Out :=
  .next (if mv > 720 ∧ s.pwr.droop then s.setPwr { s.pwr with droop := false, vcore := mv % 1024, supplyOk := true } else s)

/-- BROWNOUT: VDD_CORE below 0.62 V; absorbed while a reset is under way (16 R449). -/
def execBrownout (mv : Nat) (s : State) : Out :=
  if mv ≥ 620 then .next s
  else
    let s1 := lcAbort (s.setPwr { s.pwr with vcore := mv, supplyOk := false })
    .next (if s.dev.ready then warmReset s1 1 else s1)

/-! ## Thermal limits (15 R430 to R432) -/

/-- A sensor's reading in °C. -/
def reading (l : List (BitVec 8)) (i : Nat) : Int := (l.getD i 0).toInt

/-- The sensor with the highest reading; the lowest of equals. -/
def hottest (l : List (BitVec 8)) : Nat :=
  (List.range 18).foldl (fun a i => if reading l i > reading l a then i else a) 0

/-- The device enters STOPPING (15 R432). -/
def enterStopping (s : State) : State := alertCause (raise (s.setPwr { s.pwr with thermal := 2 }) pgPwr 3) 2

/-- The thermal controller's states after a reading of all sensors. -/
def thermalStep (s : State) (hot : Int) : State :=
  if s.pwr.thermal ≥ 2 then s
  else if hot ≥ 115 then enterStopping s
  else if s.pwr.thermal = 0 ∧ hot ≥ 105 then
    alertCause (raise (s.setPwr { s.pwr with thermal := 1, throttleCount := satAdd 32 s.pwr.throttleCount 1 }) pgPwr 2) 1
  else if s.pwr.thermal = 1 ∧ hot < 102 then s.setPwr { s.pwr with thermal := 0, throttled := 0 }
  else s

/-- THERMAL_READING: a reading of the 18 sensors. -/
def execThermalReading (temps : List (BitVec 8)) (s : State) : Out :=
  if temps.length ≠ 18 then .next s
  else
    let k := hottest temps
    let higher := s.pwr.tjPeak.all (fun p => decide (reading temps k > p.1.toInt))
    let peak := if higher then some (temps.getD k 0, k) else s.pwr.tjPeak
    .next (thermalStep (s.setPwr { s.pwr with tj := temps, tjPeak := peak }) (reading temps k))

/-- The towers in service whose sensors read within 3 °C of the hottest sensor. -/
def throttledSet (s : State) : List Nat :=
  let top := reading s.pwr.tj (hottest s.pwr.tj)
  (inService s).filter (fun t => decide (reading s.pwr.tj t ≥ top - 3))

/-- THROTTLE_UPDATE: every 1 ms in THROTTLE. -/
def execThrottleUpdate (s : State) : Out :=
  .next (if s.pwr.thermal = 1 then
    s.setPwr { s.pwr with throttled := BitVec.ofNat 17 ((throttledSet s).foldl (fun a t => a + 2 ^ t) 0) } else s)

/-- The vault detaches as DETACH does, and the towers are powered off (15 R432 steps 3 and 4). -/
def thermalOff (s : State) : State :=
  let s1 := if s.vault.st = 3 ∨ s.vault.st = 4 then detachCheck (s.setVault { s.vault with busy := 2, hold := true }) else s
  s1.setPwr { s1.pwr with thermal := 3, towersOff := true }

/-- THERMAL_STOPPED: every call in a context has ended, and no batch is in flight. -/
def execThermalStopped (s : State) : Out :=
  let idle := allCtx.all (fun x => (s.ctx x.1 x.2).call.isNone) && s.vault.writing.isNone && s.vault.batch.isNone
  .next (if s.pwr.thermal = 2 ∧ idle then thermalOff s else s)

/-- THERMAL_STOP_TIMEOUT: 10 ms after STOPPING began. Calls still in the towers end with no completion and no effect; a batch in
flight is completed by the commands that follow (15 R432). -/
def execThermalStopTimeout (s : State) : Out :=
  if s.pwr.thermal ≠ 2 then .next s
  else
    let s1 := dropGroups (s.setVault { s.vault with groups := [] }) s.vault.groups
    let s2 := { s1 with jobs := s1.jobs.map (fun (j : Job) => { j with suspendBy := none, cancelBy := none }) }
    .next (thermalOff (allCtx.foldl (fun a x => abortCall a x.1 x.2 .free) s2))

/-! ## Self-test (15 R433) -/

/-- The sparing controller runs tests: TEST_EN is 1 and the device is ready. -/
def testsOn (s : State) : Bool := s.sup.testEn && s.dev.ready && !s.pwr.towersOff

/-- A lane may be claimed for its test. -/
def laneClaimable (s : State) (t : Nat) (hash : Bool) (i : Nat) : Bool :=
  match ((s.tower t).lanes hash)[i]? with
  | none => false
  | some l => s.sup.roles.getD t 2 == 1 && !l.testing && l.owner.isNone && !l.faulty &&
      (l.role == 0 || (l.role == 1 && (laneWaiters s t hash).isEmpty && decide ((freeLanes s t hash).length ≥ 3)))

/-- The Spire may be claimed for its test. -/
def spireClaimable (s : State) (t : Nat) : Bool :=
  let x := (s.tower t).spire
  s.sup.roles.getD t 2 == 1 && !x.testing && !x.retired && x.owners.isEmpty && (spireWaiters s t).isEmpty

/-- Cycles between tests of the spare tower. -/
def sparePeriod : Nat := 2 ^ 36

/-- The spare tower that may be tested now: one that takes the place of a retired tower, or the unused one on its period. -/
def spareDue (s : State) : Option Nat :=
  match s.sup.replacing with
  | some (d, k) => if s.sup.roles.getD d 2 = 2 && !s.sup.spareReady then some k else none
  | none => if s.sup.spareTimer ≥ sparePeriod then spareTower s else none

/-- The spare tower's test begins. -/
def startSpareTest (s : State) : State := { s with sup := { s.sup with spareTesting := true, spareTimer := 0 } }

/-- The test of a part begins, where the part may be claimed. -/
def startTest (s : State) (part : TestPart) : State :=
  match part with
  | .lane t hash i => if laneClaimable s t hash i then modLane s t hash i (fun l => { l with testing := true }) else s
  | .spire t =>
    if spireClaimable s t then
      let w := s.tower t
      s.setTower t { w with spire := { w.spire with testing := true } }
    else s
  | .spareTower t => if spareDue s = some t ∧ !s.sup.spareTesting then startSpareTest s else s

/-- SELF_TEST_START. -/
def execSelfTestStart (part : TestPart) (s : State) : Out := .next (if !testsOn s then s else startTest s part)

/-- The parts of suspect towers are tested as soon as they may be claimed: at their next idle slots (13 R385; 15 R433). -/
def suspectTests (s : State) : State := if !testsOn s then s else s.sup.owed.foldl startTest s

/-- SPARE_TOWER_TEST: the period of the spare tower's test has passed. -/
def execSpareTowerTest (s : State) : Out :=
  .next (if testsOn s ∧ (spareDue s).isSome ∧ !s.sup.spareTesting then startSpareTest s else s)

/-- Counts a completed test. -/
def countTest (s : State) (pass : Bool) : State :=
  { s with sup := { s.sup with
    tests := (s.sup.tests + 1) % 2 ^ 64, testFails := if pass then s.sup.testFails else satAdd 32 s.sup.testFails 1 } }

/-- The spare tower has failed its test: it retires, and the drained tower's entries are handed out (15 R435, R436). -/
def spareFails (s : State) (k : Nat) : State :=
  let s1 := noteRetire (setRole s k 2) 3 k 0 1 0 (some (fuseTower k))
  let s2 := match s1.sup.replacing with
    | some (d, _) =>
      raise { s1 with sup := { s1.sup with replacing := none, spareReady := false }, caller := { s1.caller with map := mapWithout s1 d } } pgCaller 2
    | none => s1
  degradeCheck s2

/-- The spare tower has passed the test that comes before it enters service: its DRBG wants its seeds from now on (15 R436;
08 R276, R278). -/
def spareReadied (s : State) (k : Nat) : State :=
  spareSettle { s with
    sup := { s.sup with spareReady := true }
    rng := { s.rng with insts := s.rng.insts.modify k (fun x => if x.st = 0 then { x with due := s.cycle } else x) } }

/-- The spare tower's test ends. -/
def spareTested (s : State) (k : Nat) (pass : Bool) : State :=
  let s1 := countTest { s with sup := { s.sup with spareTesting := false } } pass
  if !pass then spareFails s1 k
  else match s1.sup.replacing with
    | some (d, j) => if j = k ∧ s1.sup.roles.getD d 2 = 2 then spareReadied s1 k else s1
    | none => s1

/-- The spare tower under test. -/
def spareUnderTest (s : State) : Option Nat :=
  match s.sup.replacing with
  | some (_, k) => some k
  | none => (List.range 17).find? (fun t => s.sup.roles.getD t 2 == 0)

/-- A test has been abandoned: a request for the part is pending (15 R433). -/
def testAbandoned (s : State) : TestPart → Bool
  | .lane t hash i => ((((s.tower t).lanes hash)[i]?).any (fun l => l.role == 1)) && !(laneWaiters s t hash).isEmpty
  | .spire t => !(spireWaiters s t).isEmpty
  | .spareTower _ => false

/-- The part is under test no longer; one that is owed a test is tested again at a later slot. -/
def dropTest (s : State) : TestPart → State
  | .lane t hash i => modLane s t hash i (fun x => { x with testing := false })
  | .spire t =>
    let w := s.tower t
    s.setTower t { w with spire := { w.spire with testing := false } }
  | .spareTower _ => s

/-- SELF_TEST_DONE: a failure retires the part; a tested spare lane enters service where one is missing (15 R433, R435). A test that a
request has cut short is no test. -/
def execSelfTestDone (part : TestPart) (pass : Bool) (s0 : State) : Out :=
  let s := { s0 with sup := { s0.sup with owed := s0.sup.owed.filter (· != part) } }
  if testAbandoned s0 part then .next (dropTest s0 part)
  else .next (match part with
    | .lane t hash i => match ((s.tower t).lanes hash)[i]? with
      | none => s0
      | some l =>
        if !l.testing then s0
        else
          let s1 := countTest (modLane s t hash i (fun x => { x with testing := false })) pass
          if !pass then retireLane s1 t hash i 1
          else if l.role = 0 then degradeCheck (enterSpare s1 t hash)
          else s1
    | .spire t =>
      let w := s.tower t
      if !w.spire.testing then s0
      else
        let s1 := countTest (s.setTower t { w with spire := { w.spire with testing := false } }) pass
        if pass then s1 else retireSpire s1 t
    | .spareTower t => if s.sup.spareTesting ∧ spareUnderTest s = some t then spareTested s t pass else s)

/-! ## Retirement of towers and rows (15 R434 to R437) -/

/-- Why a draining tower retires (15 R441): its Spire failed in use, or in a test, or it lacks lanes. -/
def drainReason (w : Tower) : Nat := if w.spire.retired then (if w.spire.faults > 0 then 4 else 1) else 3

/-- TOWER_DRAINED: every context is FREE; the tower retires, and a spare held for it is put to its test (15 R436). -/
def execTowerDrained (tower : Nat) (s : State) : Out :=
  if s.sup.roles.getD tower 2 ≠ 3 ∨ !ctxIds.all (fun c => (s.ctx tower c).st == .free) then .next s
  else
    let s1 := noteRetire (setRole s tower 2) 3 tower 0 (drainReason (s.tower tower)) 0 (some (fuseTower tower))
    .next (degradeCheck (match s1.sup.replacing with
      | some (d, _) => if d = tower then startSpareTest s1 else s1
      | none => s1))

/-- The mask of copies that a burn leaves: all three, or where one copy stays unburned the other two, which of them is a free value
(15 R437, R441; log 3). -/
def burnedCopies (lost : Bool) (k : Nat) : Nat := if lost then ([6, 5, 3] : List Nat).getD (k % 3) 6 else 7

/-- SPARING_FUSE_BURN: a pending record is burned in three copies while HOLDUP_OK is high (15 R437). -/
def execSparingFuseBurn (copyLost : Bool) (s : State) : Out :=
  match s.sup.pending with
  | r :: rest =>
    if s.pwr.holdup then
      .next { s with
        free := s.free + 1
        fuse := { s.fuse with sparing := s.fuse.sparing ++ [(r, burnedCopies copyLost (Config.freeValue s.free))] }
        sup := { s.sup with pending := rest, copyLost := s.sup.copyLost || copyLost } }
    else .next s
  | [] => .next s

/-- The record of a volatile class that holds a line: its first index and its lines. -/
def pinnedRecord (s : State) (p cls idx : Nat) : Option (Nat × Nat) :=
  (([2, 4, 8, 16, 32, 64, 128] : List Nat).map (fun n => (idx / n * n, n))).find? (fun x =>
    match keepLine s p cls x.1 with
    | some l => decide (1 ≤ byteAt l.data 0) && decide (byteAt l.data 0 ≤ 3) && byteAt l.data 10 == x.2
    | none => false)

/-- An uncorrectable error in a Keep line (15 R434). -/
def lineError (s : State) (key : Nat) : State :=
  let p := keyPart key
  let cls := keyCls key
  let idx := keyIdx key
  match keepLine s p cls idx with
  | none => s
  | some l => match l.st with
    | .clean => dropLines s (fun k _ => k == key)
    | .pinned => match pinnedRecord s p cls idx with
      | none => s
      | some (i, n) =>
        let chk := ((keepLine s p cls i).map (fun x => (decodeRec x.data).check)).getD 0
        putLine (forgetKey s p cls i n) p cls i (emptyLine chk) .pinned (some i)
    | _ => s

/-- A line leaves a row that is disabled. A CLEAN one is dropped. Another takes a way of its set that is left, in place of a CLEAN line where
none is free; where there is none it is lost, as in an uncorrectable error (15 R434; DESIGN CHOICE, log 126). -/
def leaveRow (s : State) (e : Nat × KeepLine) : State :=
  let gone := fun (a : State) => dropLines a (fun k _ => k == e.1)
  if e.2.st = .clean then gone s
  else match installLine (gone s) (keyPart e.1) (keyCls e.1) (keyIdx e.1) e.2.data e.2.st e.2.first with
    | some s1 => s1
    | none => gone (lineError s e.1)

/-- A row is disabled: its lines leave their sets (15 R434). -/
def disableRow (s : State) (row : Nat) : State :=
  let ls := rowLines s row
  let s1 := { s with sup := { s.sup with rowsDisabled := s.sup.rowsDisabled ++ [row] } }
  ls.foldl leaveRow (noteRetire s1 5 0 0 2 row none)

/-- A failing row moves into a field-repair row, or is disabled where none is left. -/
def repairRow (s : State) (row : Nat) : State :=
  let s0 := { s with sup := { s.sup with rowCorr := tblSet 0 s.sup.rowCorr row 0 } }
  if s0.keep.repaired.length < 64 then
    noteRetire { s0 with keep := { s0.keep with repaired := s0.keep.repaired ++ [row] } } 4 0 0 2 row (some (fuseRow row))
  else disableRow s0 row

/-- A line of the row is held, or in WRITING: the lock waits, as a page lock does (15 R434; 07 R242). -/
def rowBusy (s : State) (row : Nat) : Bool :=
  (rowLines s row).any (fun e => e.2.st == .writing || allCtx.any (fun x => (s.ctx x.1 x.2).grant.contains e.1))

/-- The controller takes the row's lock and repairs it, or waits for the lock (15 R434). -/
def lockRow (s : State) (row : Nat) : State :=
  if rowBusy s row then
    (if s.sup.rowsWaiting.contains row then s else { s with sup := { s.sup with rowsWaiting := s.sup.rowsWaiting ++ [row] } })
  else degradeCheck (repairRow { s with sup := { s.sup with rowsWaiting := s.sup.rowsWaiting.erase row } } row)

/-- The rows that wait are repaired as their locks come free (15 R434). -/
def settleRows (s : State) : State := s.sup.rowsWaiting.foldl lockRow s

/-- KEEP_ROW_REPAIR: an error that ECC has found in a Keep row: `line` is the line that holds an uncorrectable one (15 R434). -/
def execKeepRowRepair (row : Nat) (uncorrectable : Bool) (line : Option Nat) (s : State) : Out :=
  if row ≥ 16384 ∨ s.sup.rowsDisabled.contains row then .next s
  else if uncorrectable then
    let s1 := countUncorr s
    let s2 := match line with
      | some k => lineError s1 k
      | none => s1
    .next (lockRow s2 row)
  else
    let n := tblGet 0 s.sup.rowCorr row + 1
    let s1 := { s with sup := { s.sup with eccCorr := satAdd 32 s.sup.eccCorr 1, rowCorr := tblSet 0 s.sup.rowCorr row n } }
    .next (if n ≥ 4 then lockRow s1 row else s1)

/-! ## Inputs (16 R458) -/

/-- The call of a card exchange on a port ends, and the card is deactivated (14 R408; 16 R458). -/
def cardPulled (s : State) (port : Nat) : State :=
  match allCtx.find? (fun x => firstNeed s x.1 x.2 == some .card && par (workDesc s x.1 x.2) 64 == port) with
  | some (t, c) => authEnd (setActive s port false) t c 3
  | none => s

/-- What a debounced change of input `i` sets. -/
def inputChanged (s : State) (i : Nat) (low : Bool) : State :=
  if i = 0 then
    let s1 := raise s pgDev 2
    if low then alertCause s1 5 else s1
  else if i = 1 then raise s pgDev 3
  else raise s pgCus 4

/-- One sample of input `i`. -/
def sampleInput (s : State) (i : Nat) (low : Bool) : State :=
  let d := s.dev
  let n := d.disagree.getD i 0
  let old := d.tnIn.getLsbD i
  let before := old != decide (n > 0)
  let s1 := if i ≥ 2 ∧ low ≠ before then cardPulled s (i - 1) else s
  if low = old then { s1 with dev := { s1.dev with disagree := s1.dev.disagree.set i 0 } }
  else if n + 1 < 10 then { s1 with dev := { s1.dev with disagree := s1.dev.disagree.set i (n + 1) } }
  else
    inputChanged { s1 with dev := { s1.dev with
      disagree := s1.dev.disagree.set i 0, tnIn := s1.dev.tnIn ^^^ BitVec.ofNat 4 (2 ^ i) } } i low

/-- INPUT_SAMPLE: the four inputs in the order of DEV_TN_IN, each bit 1 while its input is low. In the TEST phase TN4 is no card
detect (16 R454, R458). -/
def execInputSample (levels : BitVec 4) (s : State) : Out :=
  if s.dev.tnPhase < 2 then .next s
  else .next ((List.range 4).foldl (fun a i => if i = 2 ∧ s.dev.tnPhase = 3 then a else sampleInput a i (levels.getLsbD i)) s)

/-! ## Output pins (16 R454, R455) -/

/-- The outputs of the SERVICE functions are driven: the phase has begun (R453, R454). -/
def pinsOn (s : State) : Bool := decide (2 ≤ s.dev.tnPhase)

/-- FAULT_N is to be low. -/
def faultPin (s : State) : Bool := decide (s.pwr.thermal ≥ 2) || failed s || s.dev.selftestFail || decide (s.lcs.st ≥ 5)

/-- TAMPER_IND_N is to be low. -/
def tamperPin (s : State) : Bool := s.dome.tampered

/-- DOME_ALERT_N is low: from a tamper event on (15 R424), and as long as TAMPER_IND_N is (DEDUCED, log 116). -/
def domeAlertPin (s : State) : Bool := s.dome.tampered

/-- SERVICE_IND is to be high. -/
def servicePin (s : State) : Bool := s.lcs.st == 3 && s.dev.ready

/-- ATTN_N is to be low. -/
def attnPin (s : State) : Bool := degraded s || s.pwr.thermal == 1 || s.dome.battLow

/-- What a Turn pin is at the device's side (16 R453 to R456). -/
inductive PinDrive
  /-- High-impedance: an input, or not yet driven. -/
  | z
  /-- Driven to a level. -/
  | level (high : Bool)
  /-- A running clock. -/
  | clock
  /-- TDO: driven by debug access, whose protocol the spec does not give. -/
  | debug
  deriving DecidableEq, Repr

/-- The pins of a card port now: the last step of its last sequence (16 R456). -/
def cardPins (l : List CardPins) : CardPins := l.getLast?.getD {}

/-- IO, CLK, RST and VCC_EN of a card port, in the order of its Turn pins. -/
def cardPin (x : CardPins) : Nat → PinDrive
  | 0 => (x.io.map PinDrive.level).getD .z
  | 1 => if x.clk then .clock else .level false
  | 2 => .level x.rst
  | _ => .level x.vcc

/-- The levels of TOD_TX while a frame is sent, a bit at a time: a start bit, 8 data bits from the lowest on, a stop bit (11 R338, R339). -/
def todBits (b : Bytes) : List Bool :=
  b.flatMap (fun x => [false] ++ (List.range 8).map (fun i => x.getLsbD i) ++ [true])

/-- TOD_TX between frames, and while it is not enabled: high (16 R455). -/
def todTxPin (s : State) : Bool := (if s.time.src.getLsbD 3 then (todBits s.dev.todTx).getLast? else none).getD true

/-- Turn pin `i` in its phase (16 R453, R454). In STRAP and SETTLE every pin is high-impedance; in TEST the pins 0 to 4 are those of debug
access. -/
def turnPin (s : State) (i : Nat) : PinDrive :=
  if !pinsOn s then .z
  else if s.dev.tnPhase = 3 ∧ i < 5 then (if i = 3 then .debug else .z)
  else if i < 4 then cardPin (cardPins s.cus.pins.1) i
  else if 5 ≤ i ∧ i < 9 then cardPin (cardPins s.cus.pins.2) (i - 5)
  else if i = 12 then .level s.dev.ppsOut
  else if i = 13 then .level (todTxPin s)
  else if i = 14 then .level (!faultPin s)
  else if i = 15 then .level (!tamperPin s)
  else if i = 16 then .level (servicePin s)
  else if i = 17 then .level (!attnPin s)
  else if 20 ≤ i ∧ i < 24 then .level (s.dev.tnOut.getLsbD (i - 20))
  else .z

/-- SMB_ALERT_N is low (16 R460). -/
def smbAlertPin (s : State) : Bool := s.smb.alert != 0

/-- THERMTRIP_N is low (15 R432). -/
def thermtripPin (s : State) : Bool := decide (s.pwr.thermal = 3)

/-- Domains that are on (15 R428, R440). -/
def domainsOn (s : State) : Nat :=
  (List.range 17).foldl (fun a t =>
    let r := s.sup.roles.getD t 2
    let on := !s.pwr.towersOff && decide (s.lcs.st < 5) && (r == 1 || r == 3 || (s.sup.spareTesting && spareUnderTest s == some t) ||
      (s.sup.spareReady && (s.sup.replacing.map (·.2)) == some t))
    if on then a + 2 ^ (5 + t) else a) 31

/-! ## SMBus (16 R459, R460) -/

/-- The target's 7-bit address. -/
def smbAddr (s : State) : Nat := 0x60 + fieldOf s.dev.straps.toNat 5 4

/-- A Block Read of command `code`: the count, the bytes and the PEC over the whole transfer (SMBus 3.1, PRESUMED, log 5). The
target answers from strap sampling on. -/
def blockRead (s : State) (code : Nat) (b : Bytes) : State :=
  if s.dev.tnPhase = 0 then s
  else
    let a := smbAddr s
    let body := leBytes 1 b.length ++ b
    let pec := crc8 (leBytes 1 (2 * a) ++ leBytes 1 code ++ leBytes 1 (2 * a + 1) ++ body)
    { s with smb := { s.smb with answer := some (body ++ leBytes 1 pec) } }

/-- STATUS. -/
def smbStatusWord (s : State) : Nat :=
  flag s.dev.ready + 2 * flag (degraded s) + 4 * flag (failed s) + 8 * flag s.dome.tampered + 16 * s.pwr.thermal +
    64 * flag s.pwr.droop + 128 * flag s.dome.battLow + 256 * s.lcs.st + 2048 * flag s.dev.selftestFail

/-- FUSE_PART (14 R418). -/
def fusePart (s : State) : Nat := 0x00B08400 + 2 ^ 24 * (if s.fuse.gradeX then 0x58 else 0x43)

/-- The bytes of COUNTS. -/
def smbCountBytes (s : State) : Bytes := leBytes 4 s.pwr.droopCount ++ leBytes 4 s.pwr.throttleCount ++ leBytes 4 s.dome.count


/-- An SMBus transfer that is NACKed: no answer comes (16 R459). -/
def smbNack (s : State) : State := if s.dev.tnPhase = 0 then s else { s with smb := { s.smb with answer := none } }

/-- A Block Read by its command code; a code that is not listed, and any write beyond the command code, is NACKed (16 R459). -/
def smbTransfer (s : State) (code : Nat) (extra : Bytes) : State :=
  if extra ≠ [] then smbNack s
  else match code with
    | 1 => blockRead s 1 (leBytes 4 (smbStatusWord s))
    | 2 => blockRead s 2 s.pwr.tj
    | 3 => blockRead s 3 (leBytes 2 s.pwr.vcore ++ leBytes 2 s.dome.vbat)
    | 4 => blockRead s 4 (leBytes 4 (fusePart s) ++ leBytes 8 s.fuse.serial)
    | 5 => blockRead s 5 (smbCountBytes s)
    | 6 =>
      let s1 := blockRead s 6 (leBytes 1 s.smb.alert.toNat)
      if s.dev.tnPhase = 0 then s else { s1 with smb := { s1.smb with alert := 0 } }
    | _ => smbNack s

/-- TEMPS. -/
def execSmbTemps (s : State) : Out := .next (smbTransfer s 2 [])

/-- VOLTS. -/
def execSmbVolts (s : State) : Out := .next (smbTransfer s 3 [])

/-- IDENT. -/
def execSmbIdent (s : State) : Out := .next (smbTransfer s 4 [])

/-- COUNTS. -/
def execSmbCounts (s : State) : Out := .next (smbTransfer s 5 [])

/-- ALERT: the causes are returned and cleared (16 R460). -/
def execSmbAlert (s : State) : Out := .next (smbTransfer s 6 [])

/-- STATUS, or a transfer with another command code or with more bytes written than the code. -/
def execSmbStatus (s : State) (code : Nat := 1) (extra : Bytes := []) : Out := .next (smbTransfer s code extra)

/-- ALERT_RESPONSE: the device's address while SMB_ALERT_N is low (16 R459). -/
def execSmbAlertResponse (s : State) : Out :=
  .next (if s.dev.tnPhase = 0 then s
    else { s with smb := { s.smb with answer := if smbAlertPin s then some (leBytes 1 (smbAddr s)) else none } })

end Sys2Proof.Machine
end

