-- ==== Sys2Proof/Machine/Pages.lean ====
section
/-! DEFINITION. What a read of each register gives: block pages, arrays and a tenant function's BAR0 (00 R7 to R15; the register
tables of the owning chapters). -/

namespace Sys2Proof.Machine

/-! ## Words from fields -/

/-- A register from its fields: low bit and value of each. -/
def word (fs : List (Nat × Nat)) : Nat := fs.foldl (fun a f => a + f.2 * 2 ^ f.1) 0

/-- The low or the high dword of a 64-bit value. -/
def half (v : Nat) (hi : Bool) : Nat := if hi then v / 2 ^ 32 % 2 ^ 32 else v % 2 ^ 32

/-- A mask over `n` positions. -/
def maskOf (n : Nat) (f : Nat → Bool) : Nat := (List.range n).foldl (fun a i => if f i then a + 2 ^ i else a) 0

/-- A dword of a byte string. -/
def dwordAt (b : Bytes) (i : Nat) : Nat := leAt b (4 * i) 4

/-- The dword of an array of registers at 4-byte steps from `base`: its number, where `off` falls in it. -/
def inArr (off base n : Nat) : Option Nat := if base ≤ off ∧ off < base + 4 * n then some ((off - base) / 4) else none

/-! ## The common head (00 R11) -/

/-- A block page. -/
def isBlock (p : Nat) : Bool := decide (p ≤ 0x013) || (decide (0x100 ≤ p) && decide (p ≤ 0x110))

/-- Defined bits of BLK_IRQ_STATUS. -/
def irqMask (p : Nat) : Nat :=
  if 0x100 ≤ p then 0xF
  else ([0xF, 0x3F, 0xF, 0x7, 0x1F, 0x7, 0x1F, 0x1F, 0x3F, 0x3, 0x7, 0xF, 0x7F, 0x1, 0x3F, 0x1, 0x3, 0x7F, 0x1, 0x7] : List Nat).getD p 0

/-- Lock groups of a page: bits of BLK_LOCK that exist. -/
def lockMask (p : Nat) : Nat :=
  if 0x100 ≤ p then 0
  else ([1, 1, 0, 0, 0, 1, 0, 1, 3, 1, 1, 3, 3, 0, 1, 0, 0, 1, 0, 0] : List Nat).getD p 0

/-- BLK_CAPS of a page, as its chapter defines it. -/
def capsOf (p : Nat) : Nat :=
  if 0x100 ≤ p then 0x36
  else ([24, 0, 22 + 256 * 18, 24, 16, 32, 6 + 16 * 4 + 256 * 18, 1024, 16, 5, 8 + 256 * 17 + 65536 * 64, 1024 + 65536 * 256, 16,
    16 + 256 * 8, 1024 + 4096 * 9 + 65536 * 16, 0, 1024, 1000 + 4096 * 3, 0, 16] : List Nat).getD p 0

/-- Pages with SH fields. -/
def hasShadow (p : Nat) : Bool := p == pgArb || p == pgKeep || p == pgMtr

/-- A dword of a page's head. -/
def readHead (s : State) (p off : Nat) : Nat :=
  let h := s.head p
  match off with
  | 0x000 => p * 65536 + 0x0100
  | 0x004 => capsOf p
  | 0x008 => h.ctrl.toNat
  | 0x00C => flag h.werr
  | 0x010 => h.irqStatus.toNat
  | 0x014 => h.irqEnable.toNat
  | 0x01C => h.lock.toNat
  | 0x024 => h.werrCount
  | _ => 0

/-! ## Pages of the AON and Dome domains -/

/-- DEV (16 R461). -/
def readDev (s : State) (off : Nat) : Nat :=
  let d := s.dev
  match off with
  | 0x040 => word [(0, flag d.ready), (1, flag (degraded s)), (2, flag d.selftestFail), (3, flag d.strapErr), (4, d.tnPhase)]
  | 0x048 => d.straps.toNat
  | 0x04C => d.selftest.toNat
  | 0x050 => d.bootUs
  | 0x054 => d.tnIn.toNat
  | 0x058 => d.tnOut.toNat
  | 0x05C => if d.tnPhase ≥ 2 then d.tnOut.toNat else 0
  | _ => 0

/-- Contexts that are FROZEN now. -/
def frozenCount (s : State) : Nat := (allCtx.filter (fun x => (s.ctx x.1 x.2).st == .frozen)).length

/-- A dword of SUP_TOWER_ROLE. -/
def roleWord (s : State) (hi : Bool) : Nat :=
  half ((List.range 17).foldl (fun a t => a + (s.sup.roles.getD t 0) * 4 ^ t) 0) hi

/-- SUP (13 R390; 15 R441). -/
def readSup (s : State) (off : Nat) : Nat :=
  let x := s.sup
  match off with
  | 0x040 => x.log.length
  | 0x048 => x.total
  | 0x04C => x.lost
  | 0x050 => x.suspect.toNat
  | 0x058 => frozenCount s
  | 0x200 => flag x.testEn
  | 0x204 => supDegraded s
  | 0x208 => roleWord s false
  | 0x20C => roleWord s true
  | 0x210 => half x.tests false
  | 0x214 => half x.tests true
  | 0x218 => x.testFails
  | 0x21C => x.lastRetire.toNat
  | 0x220 => word [(0, flag (!x.pending.isEmpty)), (1, flag x.copyLost)]
  | 0x224 => x.rowsDisabled.length
  | 0x228 => x.eccCorr
  | 0x22C => x.eccUncorr
  | _ => match inArr off 0x080 32, inArr off 0x100 64 with
    | some j, _ => maskOf 32 (fun b => decide (32 * j + b < s.hif.numTf) && (s.tf (32 * j + b)).frozen)
    | _, some i => (((x.log.getD (i / 4) []).getD (i % 4) 0) : Word).toNat
    | _, _ => 0

/-- A reading and its sensor. -/
def tjWord (v : BitVec 8) (i : Nat) : Nat := word [(0, v.toNat), (8, i)]

/-- PWR (15 R440). -/
def readPwr (s : State) (off : Nat) : Nat :=
  let x := s.pwr
  match off with
  | 0x040 => word [(0, flag x.droop), (1, x.thermal)]
  | 0x044 => domainsOn s
  | 0x048 => x.droopCount
  | 0x04C => x.vcore
  | 0x050 => tjWord (x.tj.getD (hottest x.tj) 0) (hottest x.tj)
  | 0x054 => x.tjSel
  | 0x058 => (x.tj.getD x.tjSel 0).toNat
  | 0x05C => (match x.tjPeak with | some (lo, hi) => tjWord lo hi | none => 0)
  | 0x060 => x.throttled.toNat
  | 0x064 => x.throttleCount
  | 0x068 => x.cause.toNat
  | _ => 0

/-- Policy blocks that are not blank. -/
def policyUsed (s : State) : Nat := (s.fuse.policy.filter (fun b => !allZero b)).length

/-- LCS (14 R416). -/
def readLcs (s : State) (off : Nat) : Nat :=
  let r := rowScan s
  match off with
  | 0x040 => word [(0, s.lcs.st), (8, r.seq), (16, lcsCode r.st)]
  | 0x044 => word [(0, r.used), (8, r.recom), (16, policyUsed s), (24, r.void)]
  | 0x048 => word [(0, flag s.pwr.holdup), (1, flag s.pwr.supplyOk)]
  | 0x04C => word [(0, s.lcs.result), (4, s.lcs.target)]
  | _ => match inArr off 0x060 8, inArr off 0x080 24, inArr off 0x0E0 12 with
    | some i, _, _ => dwordAt s.lcs.challenge i
    | _, some i, _ => dwordAt s.lcs.auth i
    | _, _, some i => dwordAt s.lcs.owner i
    | _, _, _ => 0

/-- The Reel second that closes the ceremony. -/
def cusExpires (s : State) : Nat :=
  match s.cus.cer with
  | some c => c.expires.getD (2 ^ 64 - 1)
  | none => 0

/-- CUS_STATUS (14 R417). -/
def cusStatus (s : State) : Nat :=
  let close := (20, s.cus.lastClose)
  match s.cus.cer with
  | none => word [close]
  | some c => word [(0, if c.authorized then 2 else 1), (4, c.typ), (8, countOf s c false), (12, countOf s c true),
      (16, c.comps.length), (18, c.rejects), close]

/-- CUS (14 R417). -/
def readCus (s : State) (off : Nat) : Nat :=
  let tb := s.cus.table.getD []
  match off with
  | 0x040 => cusStatus s
  | 0x044 => word [(0, tabEnrolled tb), (16, tabGroupB tb)]
  | 0x048 => word [(0, byteAt tb 5), (4, byteAt tb 6), (8, flag s.cus.table.isSome)]
  | 0x04C => maskOf 16 (fun i => s.cus.cer.any (fun c => c.counted.contains i))
  | 0x050 => half (cusExpires s) false
  | 0x054 => half (cusExpires s) true
  | 0x058 => word [(0, flag (s.dev.tnIn.getLsbD 2)), (1, flag (s.dev.tnIn.getLsbD 3)), (2, flag s.cus.active.1), (3, flag s.cus.active.2)]
  | 0x05C => s.cus.rejects
  | _ => match inArr off 0x080 12 with
    | some i => if s.cus.table.isSome then dwordAt (tabDigest tb) i else 0
    | none => 0

/-- A tamper-log entry's 64 bytes (15 R427). -/
def tamperBytes (e : TamperEnt) : Bytes :=
  leBytes 4 e.event ++ leBytes 4 e.cause.toNat ++ leBytes 1 (flag e.onBattery + 2 * flag e.cleared) ++ zeros 7 ++ leBytes 8 e.bell ++
    [e.temp, 0] ++ leBytes 2 e.vbat ++ leBytes 4 e.toggles ++ zeros 32

/-- DOME (15 R439). -/
def readDome (s : State) (off : Nat) : Nat :=
  let d := s.dome
  match off with
  | 0x040 => word [(0, flag d.tampered), (1, flag d.acked), (2, flag d.erasing), (3, flag d.battLow), (4, flag d.blankStart), (5, flag d.onMain)]
  | 0x044 => d.cause.toNat
  | 0x048 => d.live.toNat
  | 0x050 => d.count
  | 0x054 => d.toggles
  | 0x058 => d.sensorEn.toNat
  | 0x05C => d.vbat
  | 0x060 => d.logSel
  | 0x064 => d.logNext
  | _ => match inArr off 0x080 16, d.log.find? (fun e => e.1 == d.logSel) with
    | some i, some e => dwordAt (tamperBytes e.2) i
    | _, _ => 0

/-- State of the selected policy block (14 R418). -/
def policyState (s : State) : Nat :=
  let b := s.fuse.policy.getD s.fuse.policySel []
  word [(0, if allZero b then 0 else if policyValid b then 1 else 2), (2, flag (policyInForce s == some s.fuse.policySel))]

/-- FUSE (14 R418). -/
def readFuse (s : State) (off : Nat) : Nat :=
  let f := s.fuse
  match off with
  | 0x040 => word [(0, flag f.loaded), (1, flag (s.lcs.st == 6)), (2, flag (!allZero f.owner))]
  | 0x044 => fusePart s
  | 0x048 => half f.serial false
  | 0x04C => half f.serial true
  | 0x050 => f.policySel
  | 0x054 => policyState s
  | _ => match inArr off 0x100 24, inArr off 0x180 12, inArr off 0x1C0 12, inArr off 0x200 12 with
    | some i, _, _, _ => (f.rows.getD i 0).toNat
    | _, some i, _, _ => dwordAt ((f.policy.getD f.policySel []).take 48) i
    | _, _, some i, _ => dwordAt f.owner i
    | _, _, _, some i => dwordAt f.cfgDigest i
    | _, _, _, _ => 0

/-- The selected loaded curve. -/
def selCurve (s : State) : Option Curve := tblGet none s.curves.slots s.curves.sel


/-- CURVES (09 R298). -/
def readCurves (s : State) (off : Nat) : Nat :=
  match off with
  | 0x040 => s.curves.sel
  | 0x044 => match selCurve s with
    | some c => word [(0, 1), (1, bitLen c.p), (12, c.h), (16, bitLen c.n)]
    | none => 0
  | 0x048 => half (((selCurve s).map (fun c => leVal c.digest)).getD 0) false
  | 0x04C => half (((selCurve s).map (fun c => leVal c.digest)).getD 0) true
  | 0x050 => match s.curves.reject with
    | some (c, i) => word [(0, c), (8, i), (15, 1)]
    | none => 0
  | 0x054 => maskOf 16 (fun i => (tblGet none s.curves.slots i).isSome)
  | _ => 0

/-! ## TIME and REEL -/

/-- PPS_LOCK: the last three windows each had an accepted edge (11 R353). -/
def ppsLock (t : Time) : Bool := decide (t.edges ≥ 3) && t.missRun == 0

/-- TIME (11 R353). -/
def readTime (s : State) (off : Nat) : Nat :=
  let t := s.time
  match off with
  | 0x040 => word [(0, t.st), (3, flag (t.st == 3)), (4, flag (ppsLock t)), (5, flag t.todValid), (6, flag t.mismatch)]
  | 0x048 => half t.bell false
  | 0x04C => half t.bell true
  | 0x050 => t.frac
  | 0x054 => half t.set false
  | 0x058 => half t.set true
  | 0x05C => t.src.toNat
  | 0x060 => t.ignored
  | 0x064 => t.missed
  | 0x068 => t.phase.toNat
  | 0x06C => t.delay
  | 0x070 => t.holdovers
  | 0x074 => t.late
  | _ => 0

/-- REEL_PORT_STATUS (11 R354); ACTIVE is 0 while the link is DOWN (DESIGN CHOICE, log 117). -/
def portWord (p : Port) : Nat :=
  word [(0, p.link), (2, if p.link = 0 then 0 else min 2 (p.lanes.filter (· == 1)).length), (4, p.lanes.getD 0 0), (6, p.lanes.getD 1 0), (8, p.lanes.getD 2 0),
    (10, flag p.degraded)]

/-- RCH_STAT.FULL of a channel. -/
def rchFull (s : State) (c : Nat) : Bool := c != s.reel.addr && (tblGet ((0 : Word), false, 0) s.reel.mbox c).2.1

/-- REEL_MBOX_PEND. -/
def reelPend (s : State) (j : Nat) : Nat := maskOf 32 (fun b => rchFull s (32 * j + b))

/-- REEL (11 R354). -/
def readReel (s : State) (off : Nat) : Nat :=
  let r := s.reel
  match off with
  | 0x040 => word [(0, r.role), (2, flag r.closed), (3, r.topo), (5, flag r.addressed), (6, flag (r.addressed && r.addr % 8 == 0)),
      (7, flag r.overflow), (8, flag r.conflict), (16, r.addr)]
  | 0x044 => word [(1, flag r.upEn), (2, flag r.dnEn)]
  | 0x048 => r.count
  | 0x04C => match r.brk with
    | some a => word [(0, a), (15, 1)]
    | none => 0
  | 0x050 => portWord r.up
  | 0x054 => r.up.delay
  | 0x058 => r.up.retries
  | 0x05C => r.up.drops
  | 0x060 => portWord r.dn
  | 0x064 => r.dn.delay
  | 0x068 => r.dn.retries
  | 0x06C => r.dn.drops
  | 0x070 => word [(0, flag r.order.isSome), (1, flag r.gathering), (2, flag r.snapDone), (3, flag r.localLate), (16, r.acks.length)]
  | 0x074 => half r.snapBell false
  | 0x078 => half r.snapBell true
  | 0x07C => r.notCaptured
  | 0x180 => maskOf 32 (fun j => reelPend s j != 0)
  | _ => match inArr off 0x080 32, inArr off 0x100 32 with
    | some j, _ => maskOf 32 (fun b => decide (32 * j + b < 1000) && r.acks.contains (32 * j + b))
    | _, some j => reelPend s j
    | _, _ => 0

/-! ## Pages of the CORE domain -/

/-- RNG_INST_STATUS.STATE (08 R280). -/
def instState (s : State) (i : Nat) : Nat := if starved s i then 3 else (inst s i).st

/-- RNG (08 R280). -/
def readRng (s : State) (off : Nat) : Nat :=
  let r := s.rng
  let x := r.srcs.getD r.srcSel {}
  match off with
  | 0x040 => word [(0, r.st), (4, healthy s), (8, (r.srcs.filter (fun y => y.role == 0)).length), (12, r.pool.length)]
  | 0x044 => r.srcSel
  | 0x048 => word [(0, x.role), (2, flag x.startupFailed), (4, min 3 (x.recent.filter (fun b => !b)).length)]
  | 0x04C => x.windows
  | 0x050 => word [(0, x.repFails), (16, x.propFails)]
  | 0x054 => half r.seeds false
  | 0x058 => half r.seeds true
  | 0x05C => r.instSel
  | 0x060 => word [(0, instState s r.instSel), (16, (inst s r.instSel).reqs)]
  | 0x064 => (inst s r.instSel).reseeds
  | 0x068 => r.unavail
  | _ => 0

/-- Two 16-bit weights. -/
def weightWord (l : List Nat) (j : Nat) : Nat := word [(0, l.getD (2 * j) 0), (16, l.getD (2 * j + 1) 0)]

/-- MTR (12 R371). -/
def readMtr (s : State) (off : Nat) : Nat :=
  let l := s.dome.ledger
  let m := s.mtr
  match off with
  | 0x040 => word [(0, flag l.open_), (1, flag l.at_.isSome), (2, flag m.recovering)]
  | 0x044 => m.interval
  | 0x048 => l.len
  | 0x04C => half l.openStart false
  | 0x050 => half l.openStart true
  | 0x054 => half l.closedStart false
  | 0x058 => half l.closedStart true
  | 0x05C => word [(0, min l.closedLen 4095), (16, l.closedFlags % 8)]
  | 0x060 => flag l.at_.isSome
  | 0x064 => half m.at_ false
  | 0x068 => half m.at_ true
  | 0x06C => l.activeId.toNat
  | 0x070 => l.pendingId.toNat
  | 0x074 => m.lateSwitches
  | 0x078 => m.snapSeq
  | 0x07C => half m.snapBell false
  | 0x080 => half m.snapBell true
  | 0x084 => half m.mfCalls false
  | 0x088 => half m.mfCalls true
  | _ => match inArr off 0x100 8, inArr off 0x120 8 with
    | some j, _ => weightWord l.active j
    | _, some j => weightWord l.pending j
    | _, _ => 0

/-- The five arbiters by sub-block. -/
def arbiterOf (s : State) (a : Nat) : Arbiter :=
  match a with
  | 0 => s.caller.arbKeep
  | 1 => s.caller.arbDma
  | 2 => s.caller.arbQueue
  | 3 => s.caller.arbSpire
  | _ => s.caller.arbReel

/-- Message classes that wait at a port. -/
def portPending (p : Port) : Nat := ((List.range 4).filter (fun k => p.queue.any (fun m => m.cls == k))).length

/-- Requesters pending at an arbiter now (10 R308, R319). -/
def arbPending (s : State) (a : Nat) : Nat :=
  match a with
  | 0 => ((List.range 17).filter (fun t => (keepOfTower s t).isSome)).length
  | 1 => (dmaReqs s).length
  | 2 => ((fnOrder s).map (fun f => (pendingQps s f).length)).sum
  | 3 => ((List.range 17).map (fun t => (spireWaiters s t).length)).sum
  | _ => portPending s.reel.up + portPending s.reel.dn

/-- ARB (10 R319). -/
def readArb (s : State) (off : Nat) : Nat :=
  if off = 0x040 then flag (s.head pgArb).commit
  else if 0x080 ≤ off ∧ off < 0x300 then
    let k := (off - 0x080) / 0x80
    let a := arbiterOf s k
    match (off - 0x080) % 0x80 with
    | 0x00 => a.base
    | 0x04 => a.live
    | 0x08 => half a.grants false
    | 0x0C => half a.grants true
    | 0x10 => a.lost
    | 0x14 => a.saturated
    | 0x18 => a.withdraws
    | 0x1C => arbPending s k
    | _ => 0
  else 0

/-- CALLER (10 R320). -/
def readCaller (s : State) (off : Nat) : Nat :=
  let x := s.caller
  match off with
  | 0x040 => towerMask s (· == 1)
  | 0x044 => towerMask s (· == 3)
  | 0x048 => x.jobMax
  | 0x04C => x.limit
  | 0x050 => word ((List.range 4).map (fun i => (8 * i, (x.queues.getD i []).length)))
  | 0x054 => x.jobQ.length
  | 0x058 => half x.dispatches false
  | 0x05C => half x.dispatches true
  | 0x060 => x.starveServes
  | 0x064 => x.preempts
  | 0x068 => x.stallCount
  | 0x06C => x.stallLast.toNat
  | _ => match inArr off 0x080 16 with
    | some j => word ((List.range 4).map (fun k => (8 * k, x.map.getD (4 * j + k) 0)))
    | none => 0

/-- The Keep lines that stand in a room: those of its 64 sets of the pool. -/
def roomLines (s : State) (room : Nat) : Tbl KeepLine :=
  match (tblGet none s.keep.liveRooms room : Option Nat) with
  | none => []
  | some p => match (roomsOf s p).findIdx? (· == room) with
    | none => []
    | some i => s.keep.lines.filter (fun e => keyPart e.1 == p && setOf s p (keyCls e.1) (keyIdx e.1) / 64 == i)

/-- KEEP (07 R253). -/
def readKeep (s : State) (off : Nat) : Nat :=
  let k := s.keep
  let ls := roomLines s k.roomSel
  match off with
  | 0x040 => flag (s.head pgKeep).commit
  | 0x044 => k.roomSel
  | 0x048 => word [(0, ls.length), (12, (ls.filter (fun e => e.2.st == .pinned)).length),
      (31, flag (tblGet none k.liveRooms k.roomSel : Option Nat).isSome)]
  | 0x04C => word [(0, k.reject.getD 0), (15, flag k.reject.isSome), (16, k.rejects)]
  | 0x050 => half k.hits false
  | 0x054 => half k.hits true
  | 0x058 => half k.fillCount false
  | 0x05C => half k.fillCount true
  | 0x060 => k.revokes
  | 0x064 => k.repaired.length
  | _ => match inArr off 0x200 128, inArr off 0x800 512 with
    | some j, _ => word [(0, tblGet 0 k.tc (2 * j)), (16, tblGet 0 k.tc (2 * j + 1))]
    | _, some j => word [(0, tblGet 0 k.rooms (2 * j)), (16, tblGet 0 k.rooms (2 * j + 1))]
    | _, _ => 0

/-- VAULT_STATE (07 R254). -/
def vaultWord (s : State) : Nat :=
  let v := s.vault
  word [(0, v.st), (3, flag (pendingSlot s).valid), (4, flag v.rekey.isSome), (5, flag v.nextReady), (6, flag v.journalLost), (7, flag v.short)]

/-- VAULT (07 R254). -/
def readVault (s : State) (off : Nat) : Nat :=
  let v := s.vault
  let c := committed s
  let win := v.wins.getD v.winSel (0, 0)
  match off with
  | 0x040 => vaultWord s
  | 0x048 => word [(0, v.result), (4, flag (v.busy != 0))]
  | 0x04C => word [(0, v.p), (16, v.j)]
  | 0x050 => half (spaceNeeded v.p v.j) false
  | 0x054 => half (spaceNeeded v.p v.j) true
  | 0x058 => v.winSel
  | 0x05C => half win.1 false
  | 0x060 => half win.1 true
  | 0x064 => win.2
  | 0x068 => if v.st = 0 then 0 else half (leVal c.vaultId) false
  | 0x06C => if v.st = 0 then 0 else half (leVal c.vaultId) true
  | 0x070 => half c.epoch false
  | 0x074 => half c.epoch true
  | 0x078 => word [(0, leVal c.curSet.dmkId), (16, c.curSet.gen)]
  | 0x07C => word [(0, v.acks), (16, v.shorts)]
  | 0x080 => half v.fills false
  | 0x084 => half v.fills true
  | 0x088 => v.integCount
  | 0x090 => half v.integLine false
  | 0x094 => half v.integLine true
  | 0x098 => v.retries
  | _ => match inArr off 0x800 512 with
    | some j => word [(0, tblGet 0 v.pspan (2 * j)), (16, tblGet 0 v.pspan (2 * j + 1))]
    | none => 0

/-- A class H entry's dword (13 R389). -/
def readH (r : RegionH) (off : Nat) : Nat :=
  match off with
  | 0x0 => half r.base false
  | 0x4 => half r.base true
  | 0x8 => word [(0, r.size), (8, r.subDis), (16, flag r.rd), (17, flag r.wr), (30, flag r.lock), (31, flag r.valid)]
  | _ => 0

/-- A class I entry's dword (13 R388). -/
def readI (r : RegionI) (off : Nat) : Nat :=
  match off with
  | 0x0 => half r.base false
  | 0x4 => half r.base true
  | 0x8 => word [(0, r.size), (16, flag r.rd), (17, flag r.wr), (30, flag r.lock), (31, flag r.valid)]
  | _ => r.init

/-- ACU (13 R388). -/
def readAcu (s : State) (off : Nat) : Nat :=
  if 0x100 ≤ off ∧ off < 0x200 then readI (tblGet {} s.acu.int ((off - 0x100) / 16)) (off % 16)
  else if 0x200 ≤ off ∧ off < 0x280 then readH (tblGet {} s.acu.mf ((off - 0x200) / 16)) (off % 16)
  else 0

/-! ## Pages of the host interface (02 R44, R61, R62, R73, R75) -/

/-- QP_CFG. -/
def cfgWord (x : Qp) : Nat := word [(0, x.sqK), (8, x.cqK), (16, x.prio), (20, x.coalLog), (24, x.coalTime)]

/-- A queue pair is held: QP_STATUS.HELD (02 R44). Only a RUNNING pair becomes HELD: a pair that is DISABLED or in ERROR stays what it
is (R55, R70; DEDUCED, log 97). -/
def heldFlag (s : State) (fn : Nat) (x : Qp) : Bool :=
  !isMf fn && ((s.tf fn).stop || (s.tf fn).frozen) && x.enable && x.err == 0

/-- A dword of a queue pair's registers, in its 0x20 block. -/
def readQp (s : State) (fn q off : Nat) : Nat :=
  let x := s.qp fn q
  match off with
  | 0x00 => half x.sqBase false
  | 0x04 => half x.sqBase true
  | 0x08 => half x.cqBase false
  | 0x0C => half x.cqBase true
  | 0x10 => cfgWord x
  | 0x14 => flag x.enable
  | 0x18 => word [(0, x.gen), (8, flag x.enable), (9, flag (x.old != 0)), (10, flag (x.err != 0)), (11, flag (heldFlag s fn x)), (12, x.err)]
  | 0x1C => x.sqHead
  | _ => 0

/-- The TF that HIF_TF_SEL names; its reset values where it does not exist (02 R75). -/
def selTf (s : State) : Tf :=
  if s.hif.sel < s.hif.numTf then s.tf s.hif.sel
  else { cap := if locked s pgHif 0 then (s.tf s.hif.sel).cap else 3 }

/-- HIF_TF_STATE. -/
def tfStateWord (s : State) : Nat :=
  let n := s.hif.sel
  let t := s.tf n
  let q := fun (f : Qp → Bool) => maskOf 8 (fun i => f (s.qp n i))
  if n ≥ s.hif.numTf then 0
  else word [(0, flag t.frozen), (1, flag t.stop), (2, flag t.quiesced), (3, flag (q (fun x => x.old != 0) != 0)), (8, t.gen),
    (16, q (fun x => x.err != 0)), (24, q (fun x => x.enable))]

/-- HIF (02 R75 and the HIF page). -/
def readHif (s : State) (off : Nat) : Nat :=
  let h := s.hif
  let t := selTf s
  match off with
  | 0x040 => word [(0, h.speed), (4, h.width), (8, flag h.reversed)]
  | 0x044 => h.numTf
  | 0x048 => h.np
  | 0x050 => h.sel
  | 0x054 => word [(0, flag t.stop), (2, t.cap), (4, flag t.dirtyEn)]
  | 0x058 => tfStateWord s
  | 0x05C => half t.dirtyA false
  | 0x060 => half t.dirtyA true
  | 0x064 => half t.dirtyB false
  | 0x068 => half t.dirtyB true
  | 0x06C => half t.range false
  | 0x070 => half t.range true
  | 0x074 => t.pages
  | 0x078 => word [(1, flag t.actB), (2, flag t.flush.isSome), (3, flag t.ovf)]
  | 0x07C => match h.werrLast with
    | some n => word [(0, n), (15, 1)]
    | none => 0
  | _ => if 0x100 ≤ off ∧ off < 0x300 then readQp s mfNum ((off - 0x100) / 0x20) (off % 0x20) else 0

/-- QCTX (02 R73, R74). -/
def readQctx (s : State) (off : Nat) : Nat :=
  match off with
  | 0x040 => word [(0, s.hif.qctxTf), (16, s.hif.qctxQ)]
  | 0x048 => word [(0, flag (s.hif.qctxBusy != 0)), (1, s.hif.qctxResult)]
  | _ => match inArr off 0x080 12 with
    | some i => dwordAt s.hif.qctxImage i
    | none => 0

/-- MBOX_PEND. -/
def mboxPend (s : State) (j : Nat) : Nat := maskOf 32 (fun b => decide (32 * j + b < s.hif.numTf) && (s.tf (32 * j + b)).toMfFull)

/-- MBOX (02 R62). -/
def readMbox (s : State) (off : Nat) : Nat :=
  match inArr off 0x040 32 with
  | some j => mboxPend s j
  | none => if off = 0x0C0 then maskOf 32 (fun j => mboxPend s j != 0) else 0

/-! ## Tower pages (08 R281; 09 R300; 10 R321) -/

/-- A lane's lock register. -/
def laneWord (l : Lane) : Nat :=
  word [(0, l.owner.getD 0), (3, flag l.owner.isSome), (4, flag l.marked), (8, l.config), (12, l.role)]

/-- TWR_SPIRE_CMD: the word in progress; a command of the resident job is not while another call has the Spire (09 R284, R288, R300). -/
def spireCmd (x : Spire) : Nat := if x.switched then 0 else x.cmd.toNat

/-- TWR_SPIRE_STATUS. -/
def spireWord (x : Spire) : Nat :=
  word [(0, flag (spireCmd x != 0)), (1, x.half0.getD 0), (4, flag x.half0.isSome), (5, x.half1.getD 0), (8, flag x.half1.isSome),
    (9, flag x.resident.isSome), (10, flag (x.resident.isSome && x.resident == x.half1)), (11, flag x.retired)]

/-- TWR_CTX_STATE. -/
def ctxWord (s : State) (t c : Nat) : Nat :=
  let x := s.ctx t c
  let st := match x.st with
    | .free => 0
    | .running => 1
    | .waiting => 2
    | .frozen => 3
  word [(0, st), (3, reasonOf x), (8, (x.call.map Call.cls).getD 0), (10, flag (x.call.isSome && isJobCtx s t c)), (12, min x.stall (2 ^ 20 - 1))]

/-- TWR_CTX_CALL. -/
def ctxCallWord (x : Ctx) : Nat :=
  match x.call with
  | some k => word [(0, k.fn), (16, opOf k.desc)]
  | none => 0

/-- TOWER t. -/
def readTower (s : State) (t off : Nat) : Nat :=
  let w := s.tower t
  match off with
  | 0x070 => w.laneWait
  | 0x074 => w.lanePreempts
  | 0x078 => w.laneFaults
  | 0x080 => word [(0, instState s t), (8, w.buf.length)]
  | 0x084 => w.draws
  | 0x100 => spireWord w.spire
  | 0x104 => spireCmd w.spire
  | 0x108 => half w.spire.busy false
  | 0x10C => half w.spire.busy true
  | 0x110 => w.spire.yields
  | 0x114 => w.spire.refusals
  | 0x118 => w.spire.faults
  | 0x240 => w.dispatches
  | _ => match inArr off 0x040 6, inArr off 0x060 3, inArr off 0x200 16 with
    | some i, _, _ => laneWord (w.clanes.getD i {})
    | _, some i, _ => laneWord (w.hlanes.getD i {})
    | _, _, some i => if i % 2 = 0 then ctxWord s t (i / 2) else ctxCallWord (w.ctxs.getD (i / 2) {})
    | _, _, _ => 0

/-! ## Arrays (00 R14, R15) -/

/-- A dword of an array page: `a` is the byte offset in BAR0. -/
def readArray (s : State) (a : Nat) : Nat :=
  if 0x020000 ≤ a ∧ a < 0x040000 then
    let o := a - 0x020000
    readH (tblGet {} s.acu.tf (8 * (o / 128) + o % 128 / 16)) (o % 16)
  else if 0x040000 ≤ a ∧ a < 0x060000 then half (tblGet 0 s.mtr.tally ((a - 0x040000) / 8)) (a % 8 == 4)
  else if 0x060000 ≤ a ∧ a < 0x080000 then half (tblGet 0 s.mtr.snap ((a - 0x060000) / 8)) (a % 8 == 4)
  else if 0x080000 ≤ a ∧ a < 0x081F40 then
    let c := (a - 0x080000) / 8
    let x := tblGet ((0 : Word), false, 0) s.reel.mbox c
    if c = s.reel.addr then 0 else if a % 8 = 0 then x.1.toNat else word [(0, flag x.2.1), (8, x.2.2)]
  else if 0x084000 ≤ a ∧ a < 0x088000 then
    let t := s.tf ((a - 0x084000) / 16)
    match a % 16 with
    | 0x0 => t.toMf.toNat
    | 0x4 => word [(0, flag t.toMfFull), (8, t.toMfDrops)]
    | 0xC => flag t.fromMfFull
    | _ => 0
  else 0

/-! ## BAR0 of the MF and of a TF -/

/-- A dword of a block page. -/
def readBlock (s : State) (p off : Nat) : Nat :=
  if off < 0x040 then readHead s p off
  else if 0x100 ≤ p then readTower s (p - 0x100) off
  else match p with
    | 0x000 => readDev s off
    | 0x001 => readSup s off
    | 0x002 => readPwr s off
    | 0x003 => readLcs s off
    | 0x004 => readCus s off
    | 0x005 => readDome s off
    | 0x006 => readRng s off
    | 0x007 => readTime s off
    | 0x008 => readMtr s off
    | 0x009 => readArb s off
    | 0x00A => readCaller s off
    | 0x00B => readKeep s off
    | 0x00C => readVault s off
    | 0x00D => readAcu s off
    | 0x00E => readHif s off
    | 0x00F => readQctx s off
    | 0x010 => readMbox s off
    | 0x011 => readReel s off
    | 0x012 => readFuse s off
    | 0x013 => readCurves s off
    | _ => 0

/-- A dword of the MF's BAR0. -/
def readMf (s : State) (a : Nat) : Nat :=
  let p := a / 4096
  if pageShut s p then 0 else if isBlock p then readBlock s p (a % 4096) else readArray s a

/-- A dword of an MSI-X table: `w` is the dword's number. A vector that nothing has written is masked (PCIe). -/
def readMsix (m : Msix) (w : Nat) : Nat :=
  let e := tblGet (0, 0, true) m.table (w / 4)
  match w % 4 with
  | 0 => half e.1 false
  | 1 => half e.1 true
  | 2 => e.2.1
  | _ => flag e.2.2

/-- A dword of a TF's BAR0 (02 R44). -/
def readTf (s : State) (n a : Nat) : Nat :=
  let t := s.tf n
  if !s.dev.ready then 0
  else if 0x0100 ≤ a ∧ a < 0x0200 then readQp s n ((a - 0x0100) / 0x20) (a % 0x20)
  else if 0x2000 ≤ a ∧ a < 0x2090 then readMsix t.msix ((a - 0x2000) / 4)
  else match a with
    | 0x0800 => word [(0, flag t.frozen), (1, flag t.stop), (2, flag (degraded s)), (8, t.gen)]
    | 0x1004 => flag t.toMfFull
    | 0x1008 => t.fromMf.toNat
    | 0x100C => word [(0, flag t.fromMfFull), (8, t.fromMfDrops)]
    | 0x3000 => half t.msix.pba false
    | 0x3004 => half t.msix.pba true
    | _ => 0

/-- Byte offset of the registers that PCIe gives a function for MSI-X and that BAR0 does not hold: Message Control, and from
0x1000 above it the MF's table; at 4 above it the MF's Device Control (DESIGN CHOICE, log 39). -/
def msixBase : Nat := 2 ^ 26

/-- A dword of those registers. -/
def readMsixCfg (s : State) (fn a : Nat) : Nat :=
  let m := s.msix fn
  if a = msixBase then word [(14, flag m.fmask), (15, flag m.enable)]
  else if isMf fn ∧ a = msixBase + 4 then 2 ^ 12 * (Nat.log2 s.hif.mrrs - 7)
  else if isMf fn ∧ msixBase + 0x1000 ≤ a ∧ a < msixBase + 0x2000 then readMsix m ((a - msixBase - 0x1000) / 4)
  else 0

/-- A dword of a function's registers. -/
def readReg (s : State) (fn a : Nat) : Nat :=
  if !fnExists s fn then 0
  else if msixBase ≤ a then readMsixCfg s fn a
  else if isMf fn then readMf s a
  else if a < 0x4000 then readTf s fn a else 0

/-! ## 64-bit registers (00 R9) -/

/-- Low halves in a block page, from offset 0x040: the registers that the tables name _LO and _HI. -/
def lowHalf (p off : Nat) : Bool :=
  if 0x100 ≤ p then off == 0x108
  else match p with
    | 0x001 => off == 0x208 || off == 0x210
    | 0x004 => off == 0x050
    | 0x006 => off == 0x054
    | 0x007 => off == 0x048 || off == 0x054
    | 0x008 => off == 0x04C || off == 0x054 || off == 0x064 || off == 0x07C || off == 0x084
    | 0x009 => decide (0x080 ≤ off) && decide (off < 0x300) && off % 0x80 == 8
    | 0x00A => off == 0x058
    | 0x00B => off == 0x050 || off == 0x058
    | 0x00C => off == 0x050 || off == 0x05C || off == 0x068 || off == 0x070 || off == 0x080 || off == 0x090
    | 0x00D => decide (0x100 ≤ off) && decide (off < 0x280) && off % 16 == 0
    | 0x00E => off == 0x05C || off == 0x064 || off == 0x06C ||
        (decide (0x100 ≤ off) && decide (off < 0x300) && (off % 0x20 == 0 || off % 0x20 == 8))
    | 0x011 => off == 0x074
    | 0x012 => off == 0x048
    | 0x013 => off == 0x048
    | _ => false

/-- The dword at `a` of a function is the low half of a 64-bit register. -/
def isLow (fn a : Nat) : Bool :=
  if isMf fn then
    if isBlock (a / 4096) then lowHalf (a / 4096) (a % 4096)
    else (decide (0x020000 ≤ a) && decide (a < 0x040000) && a % 16 == 0) || (decide (0x040000 ≤ a) && decide (a < 0x080000) && a % 8 == 0)
  else
    (decide (0x0100 ≤ a) && decide (a < 0x0200) && (a % 0x20 == 0 || a % 0x20 == 8)) ||
      (decide (0x2000 ≤ a) && decide (a < 0x2090) && a % 8 == 0) || a == 0x3000

/-- The latch of the page that holds `a` (00 R9). -/
def latchAt (s : State) (fn a : Nat) : Option (Nat × Word) := if isMf fn then (s.head (a / 4096)).latch else (s.tf fn).latch

/-- Writes that latch. Each page holds one: a dword read of another register's low half on the page takes its place, and the first
register's high half then reads as it is (DESIGN CHOICE, log 98: R9 does not say how many halves a page latches). -/
def setLatch (s : State) (fn a : Nat) (l : Option (Nat × Word)) : State :=
  if isMf fn then s.setHead (a / 4096) { s.head (a / 4096) with latch := l } else s.setTf fn { s.tf fn with latch := l }

/-- Puts the value on the read port. -/
def putRead (s : State) (v : Nat) : State := { s with smb := { s.smb with readData := v } }

/-- What a read access finds: 32 bits, or 64 bits at a 64-bit register; any other reads 0 (00 R9; 02 R45). A dword read of a
low half latches the high half for the next dword read of it. -/
def portRead (s : State) (fn a width : Nat) : State :=
  if width = 64 ∧ a % 8 = 0 ∧ isLow fn a then putRead s (readReg s fn a + 2 ^ 32 * readReg s fn (a + 4))
  else if width ≠ 32 ∨ a % 4 ≠ 0 then putRead s 0
  else if isLow fn a then setLatch (putRead s (readReg s fn a)) fn a (some (a + 4, BitVec.ofNat 32 (readReg s fn (a + 4))))
  else match latchAt s fn a with
    | some (b, v) => if b = a then setLatch (putRead s v.toNat) fn a none else putRead s (readReg s fn a)
    | none => putRead s (readReg s fn a)

/-- The check of an access of the MF to the register pages, by the class I entries that name initiator 1 (13 R373, R375,
R377, R380). The registers that BAR0 does not hold are outside the internal space (log 39). -/
def mfIngress (s : State) (write : Bool) (a : Nat) : State × Bool :=
  if a < msixBase then intCheck s 1 write mfNum a else (s, true)

/-- The number by which a register access names the debug port of the Turn pins' TEST phase (14 R393; DESIGN CHOICE, log 124). -/
abbrev debugNum : Nat := 0xFFFE

/-- Debug access reaches a register page: in TEST and RETURN, in the TEST phase (14 R393; 16 R453). -/
def debugReach (s : State) (a : Nat) : Bool := debugOpen s && s.dev.tnPhase == 3 && decide (a < msixBase)

/-- A read access of a function, or of the debug port, which is no initiator of the access control (14 R393; log 124). One that is
refused reads 0 (13 R384). -/
def regRead (s : State) (fn a width : Nat) : State :=
  if fn = debugNum then (if debugReach s a then portRead s mfNum a width else putRead s 0)
  else if !fnExists s fn then putRead s 0
  else if isMf fn then
    let (s1, ok) := mfIngress s false a
    if ok then portRead s fn a width else putRead s1 0
  else portRead s fn a width

/-- LOW_HALF_READ (00 R9). -/
def execLowHalfRead (fn off width : Nat) (s : State) : Out := .next (regRead s fn off width)

end Sys2Proof.Machine
end

