-- ==== Sys2Proof/Machine/Registers.lean ====
section
/-! DEFINITION. What a write of each register does, and which writes are ignored and recorded: block pages, arrays and a
tenant function's BAR0 (00 R7 to R15; the register tables of the owning chapters). A write function answers `none` for a write
that is ignored and recorded under R13. -/

namespace Sys2Proof.Machine

/-! ## Fields of a written value -/

/-- The state that an answer goes on with. -/
def stOf (s : State) : Out → State
  | .next t => t
  | _ => s

/-- The low dword of a 64-bit value replaced. -/
def putLo (old v : Nat) : Nat := old / 2 ^ 32 * 2 ^ 32 + v % 2 ^ 32

/-- The high dword of a 64-bit value replaced. -/
def putHi (old v : Nat) : Nat := old % 2 ^ 32 + v % 2 ^ 32 * 2 ^ 32

/-- A written dword with its low `n` bits reserved. -/
def dropLow (n v : Nat) : Nat := v / 2 ^ n * 2 ^ n

/-- Dword `i` of a byte string replaced. -/
def putDword (b : Bytes) (i v : Nat) : Bytes := patch b (4 * i) (leBytes 4 v)

/-- A write that stands unless the lock group is set and it would change the field (00 R13). -/
def unlessLocked {α : Type} [DecidableEq α] (s : State) (p group : Nat) (old new : α) (f : State) : Option State :=
  if locked s p group && decide (old ≠ new) then none else some f

/-! ## The common head (00 R11) -/

/-- A write of a register of a page's head. None of them has a reserved encoding. -/
def writeHead (s : State) (p off v : Nat) : State :=
  let h := s.head p
  let m := BitVec.ofNat 32 (irqMask p)
  let w := BitVec.ofNat 32 v
  match off with
  | 0x00C => putHead s p { h with werr := h.werr && !w.getLsbD 0 }
  | 0x010 => putHead s p { h with irqStatus := h.irqStatus &&& ~~~w }
  | 0x014 => putHead s p { h with irqEnable := w &&& m }
  | 0x018 => putHead s p { h with irqStatus := h.irqStatus ||| (w &&& m) }
  | 0x01C => putHead s p { h with lock := h.lock ||| (w &&& BitVec.ofNat 32 (lockMask p)) }
  | 0x020 =>
    let s1 := putHead s p { h with commit := h.commit || (w.getLsbD 0 && hasShadow p) }
    if p = pgArb ∧ !h.commit then { s1 with caller := { s1.caller with commitAt := s.cycle } } else s1
  | _ => s

/-! ## MSI-X as PCIe gives it -/

/-- Sends a pending vector that nothing masks any longer. -/
def release (s : State) (fn v : Nat) : State :=
  let m := s.msix fn
  let e := tblGet (0, 0, true) m.table v
  if !m.enable || m.fmask || e.2.2 || !bitOf m.pba v || (!isMf fn && (s.tf fn).frozen) then s
  else
    let s1 := s.setMsix fn { m with pba := m.pba - 2 ^ v }
    { s1 with hif := { s1.hif with msgs := (fn, v, e.1, e.2.1) :: s1.hif.msgs, msiWaiting := s1.hif.msiWaiting + 1 } }

/-- A dword written to a function's MSI-X table. -/
def writeMsix (s : State) (fn w v : Nat) : State :=
  let m := s.msix fn
  let e := tblGet (0, 0, true) m.table (w / 4)
  let e' : Nat × Nat × Bool := match w % 4 with
    | 0 => (putLo e.1 (dropLow 2 v), e.2)
    | 1 => (putHi e.1 v, e.2)
    | 2 => (e.1, v, e.2.2)
    | _ => (e.1, e.2.1, bitOf v 0)
  release (s.setMsix fn { m with table := tblSet (0, 0, true) m.table (w / 4) e' }) fn (w / 4)

/-- Device Control's Max_Read_Request_Size, bits [14:12]: 128 bytes times a power of two, up to 4 KiB; a larger code changes nothing (02 R39;
PCIe, PRESUMED, log 92). -/
def setMrrs (s : State) (v : Nat) : State :=
  let k := fieldOf v 12 3
  if k ≤ 5 then { s with hif := { s.hif with mrrs := 128 * 2 ^ k } } else s

/-- A write of the registers that PCIe gives a function for MSI-X and that BAR0 does not hold, and of the MF's Device Control (log 39). -/
def writeMsixCfg (s : State) (fn a v : Nat) : State :=
  let m := s.msix fn
  if a = msixBase then
    (List.range 256).foldl (fun x i => release x fn i) (s.setMsix fn { m with enable := bitOf v 15, fmask := bitOf v 14 })
  else if isMf fn ∧ a = msixBase + 4 then setMrrs s v
  else if isMf fn ∧ msixBase + 0x1000 ≤ a ∧ a < msixBase + 0x2000 then writeMsix s fn ((a - msixBase - 0x1000) / 4) v
  else s

/-! ## AON and Dome pages -/

/-- DEV (16 R461). -/
def writeDev (s : State) (off v : Nat) : Option State :=
  match off with
  | 0x044 => some (if bitOf v 0 then stOf s (execWarmReset s) else s)
  | 0x058 => unlessLocked s pgDev 0 s.dev.tnOut (BitVec.ofNat 4 v) { s with dev := { s.dev with tnOut := BitVec.ofNat 4 v } }
  | _ => some s

/-- SUP_VIOL_POP (13 R387, R390). -/
def violPop (s : State) (v : Nat) : State := if bitOf v 0 then { s with sup := { s.sup with log := s.sup.log.drop 1 } } else s

/-- SUP_CTX_UNFREEZE (13 R385, R390). -/
def ctxUnfreeze (s : State) (v : Nat) : Option State :=
  let t := v % 32
  let c := fieldOf v 8 3
  if t ≥ 17 then none else some (if (s.ctx t c).st = .frozen then s.setCtx t c {} else s)

/-- SUP (13 R390; 15 R441). -/
def writeSup (s : State) (off v : Nat) : Option State :=
  match off with
  | 0x044 => some (violPop s v)
  | 0x050 => some { s with sup := { s.sup with suspect := s.sup.suspect &&& ~~~(BitVec.ofNat 17 v) } }
  | 0x054 => ctxUnfreeze s v
  | 0x200 => unlessLocked s pgSup 0 s.sup.testEn (bitOf v 0) { s with sup := { s.sup with testEn := bitOf v 0 } }
  | _ => some s

/-- PWR (15 R440). -/
def writePwr (s : State) (off v : Nat) : Option State :=
  if off = 0x054 then (if v % 32 ≥ 18 then none else some { s with pwr := { s.pwr with tjSel := v % 32 } }) else some s

/-- LCS (14 R401, R416). -/
def writeLcs (s : State) (off v : Nat) : Option State :=
  if off = 0x050 then some (stOf s (if bitOf v 8 then execLcsExecute (v % 8) s else execLcsRequest (v % 8) s))
  else match inArr off 0x080 24, inArr off 0x0E0 12 with
    | some i, _ => some { s with lcs := { s.lcs with auth := putDword s.lcs.auth i v } }
    | _, some i => some { s with lcs := { s.lcs with owner := putDword s.lcs.owner i v } }
    | _, _ => some s

/-- DOME (15 R426, R439). An acknowledgement is judged by DOME_LIVE as it stands. -/
def writeDome (s : State) (off v : Nat) : Option State :=
  match off with
  | 0x04C => some (stOf s (execDomeAck (BitVec.ofNat 32 v) s.dome.live s))
  | 0x058 => unlessLocked s pgDome 0 s.dome.sensorEn (BitVec.ofNat 6 v) { s with dome := { s.dome with sensorEn := BitVec.ofNat 6 v } }
  | 0x060 => some { s with dome := { s.dome with logSel := v % 32 } }
  | _ => some s

/-- FUSE (14 R418). -/
def writeFuse (s : State) (off v : Nat) : Option State :=
  if off = 0x050 then (if v % 16 ≥ 12 then none else some { s with fuse := { s.fuse with policySel := v % 16 } }) else some s

/-- CURVES (09 R298). -/
def writeCurves (s : State) (off v : Nat) : Option State :=
  if off = 0x040 then some { s with curves := { s.curves with sel := v % 16 } } else some s

/-! ## TIME and REEL -/

/-- TIME_SRC_CTRL: PPS_EN begins a new run of windows; PPS_OUT_EN at 0 drives nothing (11 R338, R339). -/
def srcWrite (s : State) (v : BitVec 4) : State :=
  let t := s.time
  let t1 : Time := if v.getLsbD 0 = t.src.getLsbD 0 then { t with src := v } else { t with src := v, edges := 0, missRun := 0 }
  { s with time := t1, dev := { s.dev with ppsOut := s.dev.ppsOut && v.getLsbD 2 } }

/-- TIME (11 R342, R353). -/
def writeTime (s : State) (off v : Nat) : Option State :=
  match off with
  | 0x044 => some (if bitOf v 0 then stOf s (execTimeSet s) else s)
  | 0x054 => some (s.setTime { s.time with set := putLo s.time.set v })
  | 0x058 => some (s.setTime { s.time with set := putHi s.time.set (v % 2 ^ 16) })
  | 0x05C => unlessLocked s pgTime 0 s.time.src (BitVec.ofNat 4 v) (srcWrite s (BitVec.ofNat 4 v))
  | _ => some s

/-- A port is switched off or on: its link goes down, or trains (11 R323, R354). -/
def portEnable (s : State) (down on : Bool) : State :=
  let was := if down then s.reel.dnEn else s.reel.upEn
  let put := fun (a : State) => a.setReel (if down then { a.reel with dnEn := on } else { a.reel with upEn := on })
  if was = on then s
  else if on then
    let s1 := put s
    let p := portOf s1 down
    if p.link = 0 ∧ portEnabled s1 down then setPort s1 down { p with link := 1 } else s1
  else put (linkDown s down)

/-- REEL (11 R324, R354). -/
def writeReel (s : State) (off v : Nat) : Option State :=
  if off = 0x044 then
    let up := bitOf v 1
    let dn := bitOf v 2
    if (bitOf v 0 && s.reel.role != 1) || (locked s pgReel 0 && (up != s.reel.upEn || dn != s.reel.dnEn)) then none
    else
      let s1 := portEnable (portEnable s false up) true dn
      some (if bitOf v 0 then stOf s1 (execReelCtrlPromenade s1) else s1)
  else some s

/-! ## Pages of the CORE domain -/

/-- RNG (08 R280). -/
def writeRng (s : State) (off v : Nat) : Option State :=
  match off with
  | 0x044 => if v % 8 ≥ 6 then none else some { s with rng := { s.rng with srcSel := v % 8 } }
  | 0x05C => if v % 32 ≥ 18 then none else some { s with rng := { s.rng with instSel := v % 32 } }
  | _ => some s

/-- A write of MTR_TARIFF_AT, of PENDING_ID or of PENDING is ignored while ARM is 1 (12 R359), and where the tariff group is
locked and the write would change the field. -/
def tariffWrite {α : Type} [DecidableEq α] (s : State) (old new : α) (f : State) : Option State :=
  if s.dome.ledger.at_.isSome then none else unlessLocked s pgMtr 0 old new f

/-- The pending weights with dword `j` written. -/
def putWeights (l : List Nat) (j v : Nat) : List Nat := (l.set (2 * j) (v % 65536)).set (2 * j + 1) (v / 65536 % 65536)

/-- MTR (12 R359, R360, R371). -/
def writeMtr (s : State) (off v : Nat) : Option State :=
  let l := s.dome.ledger
  match off with
  | 0x044 =>
    let n := v % 4096
    if n = 0 ∨ n > 3600 then none else unlessLocked s pgMtr 1 s.mtr.interval n { s with mtr := { s.mtr with interval := n } }
  | 0x060 => some (stOf s (if bitOf v 0 then execTariffArm s else execTariffCancel s))
  | 0x064 => let a := putLo s.mtr.at_ v; tariffWrite s s.mtr.at_ a { s with mtr := { s.mtr with at_ := a } }
  | 0x068 => let a := putHi s.mtr.at_ (v % 2 ^ 16); tariffWrite s s.mtr.at_ a { s with mtr := { s.mtr with at_ := a } }
  | 0x070 => tariffWrite s l.pendingId (BitVec.ofNat 32 v) (s.putLedger { l with pendingId := BitVec.ofNat 32 v })
  | _ => match inArr off 0x120 8 with
    | some j =>
      let p := putWeights l.pending j v
      if j = 7 ∧ v / 65536 ≠ 0 then none else tariffWrite s l.pending p (s.putLedger { l with pending := p })
    | none => some s

/-- Writes arbiter `a` of the ARB page. -/
def setArbiter (s : State) (a : Nat) (x : Arbiter) : State :=
  let k := s.caller
  { s with caller := match a with
      | 0 => { k with arbKeep := x }
      | 1 => { k with arbDma := x }
      | 2 => { k with arbQueue := x }
      | 3 => { k with arbSpire := x }
      | _ => { k with arbReel := x } }

/-- ARB (10 R319): the shadow bases. -/
def writeArb (s : State) (off v : Nat) : Option State :=
  if 0x080 ≤ off ∧ off < 0x300 ∧ (off - 0x080) % 0x80 = 0 then
    let k := (off - 0x080) / 0x80
    let a := arbiterOf s k
    unlessLocked s pgArb 0 a.base (v % 65536) (setArbiter s k { a with base := v % 65536 })
  else some s

/-- CALLER (10 R320). -/
def writeCaller (s : State) (off v : Nat) : Option State :=
  match off with
  | 0x048 =>
    if v % 8 = 0 then none
    else unlessLocked s pgCaller 0 s.caller.jobMax (v % 8) { s with caller := { s.caller with jobMax := v % 8 } }
  | 0x04C => unlessLocked s pgCaller 0 s.caller.limit (v % 256) { s with caller := { s.caller with limit := v % 256 } }
  | _ => some s

/-- A map word with its reserved bits clear (07 R253). -/
def mapWord (v : Nat) : Nat := v % 1024 + (if bitOf v 15 then 32768 else 0)

/-- Two entries of a shadow map written with one dword. -/
def putMap (t : Tbl Nat) (j v : Nat) : Tbl Nat :=
  tblSet 0 (tblSet 0 t (2 * j) (mapWord (v % 65536))) (2 * j + 1) (mapWord (v / 65536 % 65536))

/-- KEEP (07 R253): the shadow maps. -/
def writeKeep (s : State) (off v : Nat) : Option State :=
  let k := s.keep
  if off = 0x044 then some { s with keep := { k with roomSel := v % 1024 } }
  else match inArr off 0x200 128, inArr off 0x800 512 with
    | some j, _ => let t := putMap k.tc j v; unlessLocked s pgKeep 1 k.tc t { s with keep := { k with tc := t } }
    | _, some j => let t := putMap k.rooms j v; unlessLocked s pgKeep 0 k.rooms t { s with keep := { k with rooms := t } }
    | _, _ => some s

/-- VAULT_GEOMETRY and the window registers may be written in this state of the vault (07 R254). -/
def vaultSettable (s : State) : Bool := s.vault.st == 0 || s.vault.st == 1

/-- The selected window is written. -/
def winWrite (s : State) (w : Nat × Nat) : Option State :=
  let v := s.vault
  if !vaultSettable s then none
  else unlessLocked s pgVault 0 (v.wins.getD v.winSel (0, 0)) w { s with vault := { v with wins := v.wins.set v.winSel w } }

/-- A VAULT_CTRL write: at most one of CREATE, ATTACH and DETACH (07 R254). -/
def vaultCtrl (s : State) (v : Nat) : Option State :=
  match v % 8 with
  | 0 => some s
  | 1 => some (stOf s (execVaultCreate s))
  | 2 => some (stOf s (execVaultAttach s))
  | 4 => some (stOf s (execVaultDetach s))
  | _ => none

/-- VAULT (07 R254). -/
def writeVault (s : State) (off v : Nat) : Option State :=
  let x := s.vault
  let win := x.wins.getD x.winSel (0, 0)
  match off with
  | 0x044 => vaultCtrl s v
  | 0x04C =>
    let p := v % 65536
    let j := fieldOf v 16 3
    if j = 7 ∨ !vaultSettable s then none else unlessLocked s pgVault 0 (x.p, x.j) (p, j) { s with vault := { x with p := p, j := j } }
  | 0x058 => some { s with vault := { x with winSel := v % 16 } }
  | 0x05C => winWrite s (putLo win.1 (dropLow 12 v), win.2)
  | 0x060 => winWrite s (putHi win.1 v, win.2)
  | 0x064 => winWrite s (win.1, v)
  | _ => match inArr off 0x800 512 with
    | some j =>
      let t := tblSet 0 (tblSet 0 x.pspan (2 * j) (v % 65536)) (2 * j + 1) (v / 65536 % 65536)
      unlessLocked s pgVault 1 x.pspan t { s with vault := { x with pspan := t } }
    | none => some s

/-! ## Access-control entries (13 R382, R383, R388, R389) -/

/-- A dword written to a class H entry. -/
def writeH (r : RegionH) (off v : Nat) : Option RegionH :=
  if r.lock then none
  else match off with
    | 0x0 => if r.valid then none else some { r with base := putLo r.base (dropLow 15 v) }
    | 0x4 => if r.valid then none else some { r with base := putHi r.base v }
    | 0x8 =>
      let n := v % 32
      if n ≥ 28 ∨ (bitOf v 31 ∧ r.base % 2 ^ (15 + n) ≠ 0) then none
      else some { r with size := n, subDis := fieldOf v 8 8, rd := bitOf v 16, wr := bitOf v 17, lock := bitOf v 30, valid := bitOf v 31 }
    | _ => some r

/-- A dword written to a class I entry. -/
def writeI (r : RegionI) (off v : Nat) : Option RegionI :=
  if r.lock then none
  else match off with
    | 0x0 => if r.valid then none else some { r with base := putLo r.base (dropLow 12 v) }
    | 0x4 => if r.valid then none else some { r with base := putHi r.base (v % 2 ^ 16) }
    | 0x8 =>
      let n := v % 64
      if n < 12 ∨ n ≥ 48 ∨ (bitOf v 31 ∧ r.base % 2 ^ n ≠ 0) then none
      else some { r with size := n, rd := bitOf v 16, wr := bitOf v 17, lock := bitOf v 30, valid := bitOf v 31 }
    | _ => if fieldOf v 7 9 ≠ 0 then none else some { r with init := v % 128 }

/-- ACU: class I entries and the MF's class H entries. -/
def writeAcu (s : State) (off v : Nat) : Option State :=
  if 0x100 ≤ off ∧ off < 0x200 then
    let e := (off - 0x100) / 16
    (writeI (tblGet {} s.acu.int e) (off % 16) v).map (fun r => { s with acu := { s.acu with int := tblSet {} s.acu.int e r } })
  else if 0x200 ≤ off ∧ off < 0x280 then
    let e := (off - 0x200) / 16
    (writeH (tblGet {} s.acu.mf e) (off % 16) v).map (fun r => { s with acu := { s.acu with mf := tblSet {} s.acu.mf e r } })
  else some s

/-- ACU_HOST: class H entries of the TFs, `o` bytes into the array. -/
def writeAcuHost (s : State) (o v : Nat) : Option State :=
  let e := o / 16
  (writeH (tblGet {} s.acu.tf e) (o % 16) v).map (fun r => { s with acu := { s.acu with tf := tblSet {} s.acu.tf e r } })

/-! ## Pages of the host interface -/

/-- QP_CFG: ring sizes and coalescing in their ranges (02 R44). -/
def cfgWrite (x : Qp) (v : Nat) : Option Qp :=
  let sk := v % 32
  let ck := fieldOf v 8 5
  let cl := fieldOf v 20 4
  if sk < 4 ∨ sk > 16 ∨ ck < 4 ∨ ck > 16 ∨ cl > 8 then none
  else some { x with sqK := sk, cqK := ck, prio := fieldOf v 16 2, coalLog := cl, coalTime := v / 2 ^ 24 % 256 }

/-- A queue pair's register, in its 0x20 block: bases and QP_CFG only while ENABLE is 0 (02 R44, R45). -/
def writeQp (s : State) (fn q off v : Nat) : Option State :=
  let x := s.qp fn q
  let put := fun (y : Qp) => if x.enable then none else some (s.setQp fn q y)
  match off with
  | 0x00 => put { x with sqBase := putLo x.sqBase (dropLow 12 v) }
  | 0x04 => put { x with sqBase := putHi x.sqBase v }
  | 0x08 => put { x with cqBase := putLo x.cqBase (dropLow 12 v) }
  | 0x0C => put { x with cqBase := putHi x.cqBase v }
  | 0x10 => (cfgWrite x v).bind put
  | 0x14 => some (qpCtrlWrite s fn q (bitOf v 1) (bitOf v 0))
  | _ => some s

/-- A doorbell, `o` bytes into the doorbells of function `fn`. -/
def writeDoorbell (s : State) (fn o v : Nat) : State :=
  let w : Word := BitVec.ofNat 32 v
  stOf s (if o % 8 = 0 then execQpSqTailDb fn (o / 8) w s else execQpCqHeadDb fn (o / 8) w s)

/-- HIF_TF_CTRL (02 R66, R70, R75). Pages that are marked when DIRTY_EN is cleared stay marked, for a later harvest, under a new RANGE
too (DESIGN CHOICE, log 132). -/
def tfCtrlWrite (s : State) (v : Nat) : Option State :=
  let n := s.hif.sel
  let cap := fieldOf v 2 2
  if locked s pgHif 0 && cap != (s.tf n).cap then none
  else
    let s1 := s.setTf n { s.tf n with cap := cap, dirtyEn := bitOf v 4 }
    let s2 := stOf s1 (if bitOf v 0 then execTfStop n s1 else execTfStopClear n s1)
    some (if bitOf v 1 then resetTf s2 n else s2)

/-- A register of the selected TF's dirty log: ignored and recorded while DIRTY_EN is 1 (02 R75). -/
def dirtyWrite (s : State) (f : Tf → Tf) : Option State :=
  let n := s.hif.sel
  let t := s.tf n
  if t.dirtyEn then none else some (s.setTf n (f t))

/-- A per-TF register of the HIF page (02 R69 to R75). -/
def writeSelTf (s : State) (off v : Nat) : Option State :=
  let n := s.hif.sel
  if n ≥ s.hif.numTf then none
  else match off with
    | 0x054 => tfCtrlWrite s v
    | 0x05C => dirtyWrite s (fun (t : Tf) => { t with dirtyA := putLo t.dirtyA (dropLow 12 v) })
    | 0x060 => dirtyWrite s (fun (t : Tf) => { t with dirtyA := putHi t.dirtyA v })
    | 0x064 => dirtyWrite s (fun (t : Tf) => { t with dirtyB := putLo t.dirtyB (dropLow 12 v) })
    | 0x068 => dirtyWrite s (fun (t : Tf) => { t with dirtyB := putHi t.dirtyB v })
    | 0x06C => dirtyWrite s (fun (t : Tf) => { t with range := putLo t.range (dropLow 12 v) })
    | 0x070 => dirtyWrite s (fun (t : Tf) => { t with range := putHi t.range v })
    | 0x074 => dirtyWrite s (fun (t : Tf) => { t with pages := v })
    | 0x078 =>
      let s1 := if bitOf v 3 then s.setTf n { s.tf n with ovf := false } else s
      some (if bitOf v 0 then stOf s1 (execDirtyHarvest n s1) else s1)
    | _ => some s

/-- HIF (02 R75 and the HIF page). -/
def writeHif (s : State) (off v : Nat) : Option State :=
  if off = 0x050 then some { s with hif := { s.hif with sel := v % 1024 } }
  else if 0x054 ≤ off ∧ off < 0x07C then writeSelTf s off v
  else if 0x100 ≤ off ∧ off < 0x300 then writeQp s mfNum ((off - 0x100) / 0x20) (off % 0x20) v
  else if 0x300 ≤ off ∧ off < 0x380 then some (writeDoorbell s mfNum (off - 0x300) v)
  else some s

/-- QCTX (02 R73, R74). -/
def writeQctx (s : State) (off v : Nat) : Option State :=
  match off with
  | 0x040 => some { s with hif := { s.hif with qctxTf := v % 1024, qctxQ := fieldOf v 16 3 } }
  | 0x044 => if v % 4 = 3 then none else some (qctxCommand s (v % 4))
  | _ => match inArr off 0x080 12 with
    | some i => some { s with hif := { s.hif with qctxImage := putDword s.hif.qctxImage i v } }
    | none => some s

/-! ## Arrays -/

/-- REEL_MBOX: W1C of RCH_STAT.FULL, but for the device's own channel (11 R350). -/
def writeReelMbox (s : State) (o v : Nat) : State :=
  let c := o / 8
  let x := tblGet ((0 : Word), false, 0) s.reel.mbox c
  if o % 8 = 4 ∧ c < 1000 ∧ c ≠ s.reel.addr ∧ bitOf v 0 then
    s.setReel { s.reel with mbox := tblSet ((0 : Word), false, 0) s.reel.mbox c (x.1, false, x.2.2) }
  else s

/-- MBOX_CHAN (02 R60, R61). -/
def writeMboxChan (s : State) (o v : Nat) : State :=
  let n := o / 16
  match o % 16 with
  | 0x4 => if bitOf v 0 then s.setTf n { s.tf n with toMfFull := false } else s
  | 0x8 => stOf s (execChFromMf n (BitVec.ofNat 32 v) s)
  | _ => s

/-- A dword of an array page (00 R14). -/
def writeArray (s : State) (a v : Nat) : Option State :=
  if 0x020000 ≤ a ∧ a < 0x040000 then writeAcuHost s (a - 0x020000) v
  else if 0x080000 ≤ a ∧ a < 0x081F40 then some (writeReelMbox s (a - 0x080000) v)
  else if 0x084000 ≤ a ∧ a < 0x088000 then some (writeMboxChan s (a - 0x084000) v)
  else some s

/-! ## BAR0 of the MF -/

/-- A dword of a block page. -/
def writeBlock (s : State) (p off v : Nat) : Option State :=
  if off < 0x040 then some (writeHead s p off v)
  else match p with
    | 0x000 => writeDev s off v
    | 0x001 => writeSup s off v
    | 0x002 => writePwr s off v
    | 0x003 => writeLcs s off v
    | 0x005 => writeDome s off v
    | 0x006 => writeRng s off v
    | 0x007 => writeTime s off v
    | 0x008 => writeMtr s off v
    | 0x009 => writeArb s off v
    | 0x00A => writeCaller s off v
    | 0x00B => writeKeep s off v
    | 0x00C => writeVault s off v
    | 0x00D => writeAcu s off v
    | 0x00E => writeHif s off v
    | 0x00F => writeQctx s off v
    | 0x011 => writeReel s off v
    | 0x012 => writeFuse s off v
    | 0x013 => writeCurves s off v
    | _ => some s

/-- A dword of the MF's BAR0. -/
def writeMf (s : State) (a v : Nat) : Option State :=
  if isBlock (a / 4096) then writeBlock s (a / 4096) (a % 4096) v else writeArray s a v

/-- The page whose head records an ignored write (00 R13 to R15): none for a reserved page. -/
def recordPage (p : Nat) : Option Nat :=
  if isBlock p then some p
  else if 0x020 ≤ p ∧ p ≤ 0x03F then some pgAcu
  else if 0x040 ≤ p ∧ p ≤ 0x07F then some pgMtr
  else if 0x080 ≤ p ∧ p ≤ 0x081 then some pgReel
  else if 0x084 ≤ p ∧ p ≤ 0x087 then some pgMbox
  else none

/-- One write access, of one dword or of both halves of a 64-bit register together (00 R9): none where it is of another form
or a half of it is refused. -/
def accessWrite (wr : State → Nat → Nat → Option State) (s : State) (fn a width v : Nat) : Option State :=
  if width = 32 ∧ a % 4 = 0 then wr s a (v % 2 ^ 32)
  else if width = 64 ∧ a % 8 = 0 ∧ isLow fn a then (wr s a (v % 2 ^ 32)).bind (fun t => wr t (a + 4) (v / 2 ^ 32 % 2 ^ 32))
  else none

/-- A write access to the MF's BAR0 that the access control lets pass. -/
def mfPortWrite (s : State) (a width v : Nat) : State :=
  if pageShut s (a / 4096) then s
  else match accessWrite writeMf s mfNum a width v with
    | some t => t
    | none => match recordPage (a / 4096) with
      | some p => recordWerr s p
      | none => s

/-- A write access to the MF's BAR0. One that is refused is dropped (13 R384). -/
def mfWrite (s : State) (a width v : Nat) : State :=
  let (s1, ok) := mfIngress s true a
  if ok then mfPortWrite s a width v else s1

/-! ## BAR0 of a TF (02 R44, R45, R68) -/

/-- An offset that the table of R44 lists. -/
def tfListed (a : Nat) : Bool :=
  decide (a < 0x40) || (decide (0x100 ≤ a) && decide (a < 0x200)) || (decide (0x800 ≤ a) && decide (a < 0x804)) ||
    (decide (0x1000 ≤ a) && decide (a < 0x1010)) || (decide (0x2000 ≤ a) && decide (a < 0x2090)) ||
    (decide (0x3000 ≤ a) && decide (a < 0x3008))

/-- The MSI-X table and PBA, which a frozen TF may write. -/
def tfMsixArea (a : Nat) : Bool := (decide (0x2000 ≤ a) && decide (a < 0x2090)) || (decide (0x3000 ≤ a) && decide (a < 0x3008))

/-- A dword of TF `n`'s BAR0. -/
def writeTfDword (n : Nat) (s : State) (a v : Nat) : Option State :=
  if a < 0x40 then some (writeDoorbell s n a v)
  else if 0x100 ≤ a ∧ a < 0x200 then writeQp s n ((a - 0x100) / 0x20) (a % 0x20) v
  else if a = 0x1000 then some (stOf s (execMboxToMf n (BitVec.ofNat 32 v) s))
  else if a = 0x100C then some (if bitOf v 0 then s.setTf n { s.tf n with fromMfFull := false } else s)
  else if 0x2000 ≤ a ∧ a < 0x2090 then some (writeMsix s n ((a - 0x2000) / 4) v)
  else some s

/-- A write access to TF `n`'s BAR0. -/
def tfWrite (s : State) (n a width v : Nat) : State :=
  if !s.dev.ready || !tfListed a || ((s.tf n).frozen && !tfMsixArea a) then s
  else match accessWrite (writeTfDword n) s n a width v with
    | some t => t
    | none => recordTfWerr s n

/-! ## The commands -/

/-- A write access of a function to its registers, or of the debug port to the register pages (14 R393; log 124). -/
def regWrite (s : State) (fn a width v : Nat) : State :=
  if fn = debugNum then (if debugReach s a then mfPortWrite s a width v else s)
  else if !fnExists s fn then s
  else if msixBase ≤ a then (if width = 32 ∧ a % 4 = 0 then writeMsixCfg s fn a (v % 2 ^ 32) else s)
  else if isMf fn then mfWrite s a width v
  else tfWrite s fn a width v

/-- REGISTER_WRITE (00 R7, R9, R13; 02 R45). -/
def execRegisterWrite (fn off width value : Nat) (s : State) : Out := .next (regWrite s fn off width value)

/-- A byte offset of the MF's BAR0 that a region entry holds (13 R388, R389). -/
def acuOffset (a : Nat) : Bool :=
  (decide (0x00D100 ≤ a) && decide (a < 0x00D280)) || (decide (0x020000 ≤ a) && decide (a < 0x040000))

/-- ACU_ENTRY_WRITE (13 R382, R383): the write of a region entry. -/
def execAcuEntryWrite (off width value : Nat) (s : State) : Out :=
  .next (if acuOffset off then regWrite s mfNum off width value else s)

/-- A write of a register in the head of block page `p`. -/
def headWrite (s : State) (p off : Nat) (v : Word) : State := if isBlock p then mfWrite s (4096 * p + off) 32 v.toNat else s

/-- BLK_SHADOW_COMMIT (00 R11, R12). -/
def execBlkShadowCommit (page : Nat) (value : Word) (s : State) : Out := .next (headWrite s page 0x020 value)

/-- BLK_IRQ_TEST (00 R11). -/
def execBlkIrqTest (page : Nat) (value : Word) (s : State) : Out := .next (headWrite s page 0x018 value)

/-- BLK_LOCK (00 R7, R11). -/
def execBlkLock (page : Nat) (value : Word) (s : State) : Out := .next (headWrite s page 0x01C value)

/-- SUP_CTX_UNFREEZE (13 R385). -/
def execSupCtxUnfreeze (value : Word) (s : State) : Out := .next (mfWrite s 0x001054 32 value.toNat)

/-- SUP_VIOL_POP (13 R387). -/
def execSupViolPop (value : Word) (s : State) : Out := .next (mfWrite s 0x001044 32 value.toNat)

/-! ## Commit points -/

/-- ARB_COMMIT (10 R310): the commit cycle of a BLK_SHADOW_COMMIT of the ARB page. -/
def execArbCommit (s : State) : Out := .next (commitArb s)

/-- The owner that a map word names. -/
def ownerOf (w : Nat) : Owner := if bitOf w 15 then some (w % 1024) else none

/-- A partition refuses a room change: it holds a pinned line, or one in WRITING or DURABLE (07 R221). -/
def refusesRooms (s : State) (p : Nat) : Bool := s.keep.lines.any (fun e => keyPart e.1 == p && e.2.st != .clean)

/-- A fill is in progress (07 R221). -/
def filling (s : State) : Bool :=
  allCtx.any (fun x => match firstNeed s x.1 x.2 with
    | some (.fill _) => true
    | some (.fillLine _) => true
    | _ => false)

/-- The entries of a map whose shadow names another owner than the map in force. -/
def mapChanges (shadow : Tbl Nat) (live : Tbl Owner) (n : Nat) : List (Nat × Owner × Owner) :=
  ((List.range n).map (fun i => (i, tblGet (none : Owner) live i, ownerOf (tblGet 0 shadow i)))).filter (fun e => e.2.1 != e.2.2)

/-- The room map's commit: rooms move unless their old or new owner refuses; a moved partition's lines go (07 R221, R223). -/
def commitRooms (s : State) : State :=
  let refuses := fun (o : Owner) => o.any (refusesRooms s)
  let ch := mapChanges s.keep.rooms s.keep.liveRooms 1024
  let bad := ch.filter (fun e => refuses e.2.1 || refuses e.2.2)
  let good := ch.filter (fun e => !(refuses e.2.1 || refuses e.2.2))
  let moved := fun (p : Nat) => good.any (fun e => e.2.1 == some p || e.2.2 == some p)
  let s1 := dropLines s (fun k l => moved (keyPart k) && l.st != .pinned)
  let s2 := { s1 with
    keep := { s1.keep with
      liveRooms := good.foldl (fun t e => tblSet (none : Owner) t e.1 e.2.2) s1.keep.liveRooms
      reject := match bad.getLast? with
        | some e => some e.1
        | none => s1.keep.reject
      rejects := satAdd 16 s1.keep.rejects bad.length }
    vault := { s1.vault with meta_ := s1.vault.meta_.filter (fun e => !moved e.2.1) } }
  if bad.isEmpty then s2 else raise s2 pgKeep 2

/-- The tower-cache map's commit: an entry that changes owner is invalidated in every tower (07 R221). -/
def commitTc (s : State) : State :=
  let ch := mapChanges s.keep.tc s.keep.liveTc 256
  let s1 := tcDrop s (fun i _ => ch.any (fun e => e.1 == i))
  { s1 with keep := { s1.keep with liveTc := ch.foldl (fun t e => tblSet (none : Owner) t e.1 e.2.2) s1.keep.liveTc } }

/-- KEEP_MAP_COMMIT (07 R221). -/
def execKeepMapCommit (s : State) : Out :=
  .next (if !(s.head pgKeep).commit || filling s then s
    else raise (shadowDone (commitTc (commitRooms s)) pgKeep) pgKeep 1)

end Sys2Proof.Machine
end

