-- ==== Sys2Proof/Machine/Dispatch.lean ====
section
/-! DEFINITION. The dispatcher: each command's meaning. -/

namespace Sys2Proof.Machine

/-- The effect of a command on everything but the queue (opcode_table.json). -/
def exec (i : Instr) (s : State) : Host.Outcome State Fault Refusal :=
  match i with
  | .qpSqTailDb fn q value => Sys2Proof.Machine.execQpSqTailDb fn q value s
  | .qpCqHeadDb fn q value => Sys2Proof.Machine.execQpCqHeadDb fn q value s
  | .qpEnable fn q => Sys2Proof.Machine.execQpEnable fn q s
  | .queueReset fn q reset enable => Sys2Proof.Machine.execQueueReset fn q reset enable s
  | .heldQueueReset fn q => Sys2Proof.Machine.execHeldQueueReset fn q s
  | .descFetch fn q => Sys2Proof.Machine.execDescFetch fn q s
  | .descReadDone fn q first ans => Sys2Proof.Machine.execDescReadDone fn q first ans s
  | .admission => Sys2Proof.Machine.execAdmission s
  | .dispatch bad fixed => Sys2Proof.Machine.execDispatch bad fixed s
  | .vaultFill tower ctx mem failed => Sys2Proof.Machine.execVaultFill tower ctx mem failed s
  | .keepGrant fault => Sys2Proof.Machine.execKeepGrant s fault
  | .grantRevoke tower ctx => Sys2Proof.Machine.execGrantRevoke tower ctx s
  | .laneGrant tower hash fault ends => Sys2Proof.Machine.execLaneGrant tower hash fault s ends
  | .laneSave tower hash lane fault => Sys2Proof.Machine.execLaneSave tower hash lane fault s
  | .spireGrant tower fault => Sys2Proof.Machine.execSpireGrant tower fault s
  | .spireSwitch tower fault => Sys2Proof.Machine.execSpireSwitch tower fault s
  | .dmaGrant fault => Sys2Proof.Machine.execDmaGrant s fault
  | .listRead tower ctx ans => Sys2Proof.Machine.execListRead tower ctx ans s
  | .blobRead tower ctx ans => Sys2Proof.Machine.execBlobRead tower ctx ans s
  | .chunkRead tower ctx ans fault => Sys2Proof.Machine.execChunkRead tower ctx ans s fault
  | .drbgDraw tower => Sys2Proof.Machine.execDrbgDraw tower s
  | .completionWrite fn q => Sys2Proof.Machine.execCompletionWrite fn q s
  | .coalTimerExpiry fn q => Sys2Proof.Machine.execCoalTimerExpiry fn q s
  | .stallBreak => Sys2Proof.Machine.execStallBreak s
  | .keepRowRepair row uncorrectable line => Sys2Proof.Machine.execKeepRowRepair row uncorrectable line s
  | .echo tower ctx fault => Sys2Proof.Machine.execEcho tower ctx fault s
  | .jobSuspend tower ctx fault => Sys2Proof.Machine.execJobSuspend tower ctx fault s
  | .jobSuspension tower ctx => Sys2Proof.Machine.execJobSuspension tower ctx s
  | .jobResume tower ctx fault => Sys2Proof.Machine.execJobResume tower ctx fault s
  | .jobCancel tower ctx fault => Sys2Proof.Machine.execJobCancel tower ctx fault s
  | .jobCancellation tower ctx => Sys2Proof.Machine.execJobCancellation tower ctx s
  | .jobQuery tower ctx fault => Sys2Proof.Machine.execJobQuery tower ctx fault s
  | .pinTranslate tower ctx fault => Sys2Proof.Machine.execPinTranslate tower ctx fault s
  | .pinVerifyOffset tower ctx fault => Sys2Proof.Machine.execPinVerifyOffset tower ctx fault s
  | .pinVerifyPvv tower ctx fault => Sys2Proof.Machine.execPinVerifyPvv tower ctx fault s
  | .pinGenerateOffset tower ctx fault => Sys2Proof.Machine.execPinGenerateOffset tower ctx fault s
  | .pinGeneratePvv tower ctx fault => Sys2Proof.Machine.execPinGeneratePvv tower ctx fault s
  | .pinChange tower ctx fault => Sys2Proof.Machine.execPinChange tower ctx fault s
  | .pinFromDukpt tower ctx fault => Sys2Proof.Machine.execPinFromDukpt tower ctx fault s
  | .dukptDeriveInitial tower ctx fault => Sys2Proof.Machine.execDukptDeriveInitial tower ctx fault s
  | .dukptDataDecrypt tower ctx fault => Sys2Proof.Machine.execDukptDataDecrypt tower ctx fault s
  | .dukptMacVerify tower ctx fault => Sys2Proof.Machine.execDukptMacVerify tower ctx fault s
  | .cvvGenerate tower ctx fault => Sys2Proof.Machine.execCvvGenerate tower ctx fault s
  | .cvvVerify tower ctx fault => Sys2Proof.Machine.execCvvVerify tower ctx fault s
  | .dcvvVerify tower ctx fault => Sys2Proof.Machine.execDcvvVerify tower ctx fault s
  | .arqcVerify tower ctx fault => Sys2Proof.Machine.execArqcVerify tower ctx fault s
  | .scriptMac tower ctx fault => Sys2Proof.Machine.execScriptMac tower ctx fault s
  | .macGenerate tower ctx fault => Sys2Proof.Machine.execMacGenerate tower ctx fault s
  | .macVerify tower ctx fault => Sys2Proof.Machine.execMacVerify tower ctx fault s
  | .dataEncrypt tower ctx fault => Sys2Proof.Machine.execDataEncrypt tower ctx fault s
  | .dataDecrypt tower ctx fault => Sys2Proof.Machine.execDataDecrypt tower ctx fault s
  | .dataTranslate tower ctx fault => Sys2Proof.Machine.execDataTranslate tower ctx fault s
  | .tokenize tower ctx fault => Sys2Proof.Machine.execTokenize tower ctx fault s
  | .detokenize tower ctx fault => Sys2Proof.Machine.execDetokenize tower ctx fault s
  | .tokenRetire tower ctx fault => Sys2Proof.Machine.execTokenRetire tower ctx fault s
  | .keyGenerate tower ctx fault => Sys2Proof.Machine.execKeyGenerate tower ctx fault s
  | .keyImportBlock tower ctx fault => Sys2Proof.Machine.execKeyImportBlock tower ctx fault s
  | .keyExportBlock tower ctx fault => Sys2Proof.Machine.execKeyExportBlock tower ctx fault s
  | .keyDerive tower ctx fault => Sys2Proof.Machine.execKeyDerive tower ctx fault s
  | .keyDestroy tower ctx fault => Sys2Proof.Machine.execKeyDestroy tower ctx fault s
  | .keyAttributes tower ctx fault => Sys2Proof.Machine.execKeyAttributes tower ctx fault s
  | .keyImportPk tower ctx fault => Sys2Proof.Machine.execKeyImportPk tower ctx fault s
  | .bindingRecordImport tower ctx fault => Sys2Proof.Machine.execBindingRecordImport tower ctx fault s
  | .partitionUnbind tower ctx fault => Sys2Proof.Machine.execPartitionUnbind tower ctx fault s
  | .keyCheckValue tower ctx fault => Sys2Proof.Machine.execKeyCheckValue tower ctx fault s
  | .keyRotateSchedule tower ctx fault => Sys2Proof.Machine.execKeyRotateSchedule tower ctx fault s
  | .rotateCancel tower ctx fault => Sys2Proof.Machine.execRotateCancel tower ctx fault s
  | .pkSign tower ctx fault => Sys2Proof.Machine.execPkSign tower ctx fault s
  | .pkVerify tower ctx fault => Sys2Proof.Machine.execPkVerify tower ctx fault s
  | .pkDecrypt tower ctx fault => Sys2Proof.Machine.execPkDecrypt tower ctx fault s
  | .pkAgree tower ctx fault => Sys2Proof.Machine.execPkAgree tower ctx fault s
  | .pkKeygen tower ctx fault => Sys2Proof.Machine.execPkKeygen tower ctx fault s
  | .pqKemDecaps tower ctx fault => Sys2Proof.Machine.execPqKemDecaps tower ctx fault s
  | .pqSign tower ctx fault => Sys2Proof.Machine.execPqSign tower ctx fault s
  | .pqVerify tower ctx fault => Sys2Proof.Machine.execPqVerify tower ctx fault s
  | .curveLoad tower ctx fault => Sys2Proof.Machine.execCurveLoad tower ctx fault s
  | .randomCall tower ctx fault => Sys2Proof.Machine.execRandomCall tower ctx fault s
  | .vaultRekey tower ctx fault => Sys2Proof.Machine.execVaultRekey tower ctx fault s
  | .vaultScrub tower ctx fault => Sys2Proof.Machine.execVaultScrub tower ctx fault s
  | .vaultSealRoot tower ctx fault => Sys2Proof.Machine.execVaultSealRoot tower ctx fault s
  | .vaultSealRelease tower ctx fault => Sys2Proof.Machine.execVaultSealRelease tower ctx fault s
  | .vaultAdopt tower ctx fault seals answers mem failed => Sys2Proof.Machine.execVaultAdopt tower ctx fault seals answers s mem failed
  | .partitionHandoff tower ctx fault => Sys2Proof.Machine.execPartitionHandoff tower ctx fault s
  | .attest tower ctx fault => Sys2Proof.Machine.execAttest tower ctx fault s
  | .tallyStatement tower ctx fault => Sys2Proof.Machine.execTallyStatement tower ctx fault s
  | .ceremonyOpen tower ctx fault => Sys2Proof.Machine.execCeremonyOpen tower ctx fault s
  | .tableLoad tower ctx fault => Sys2Proof.Machine.execTableLoad tower ctx fault s
  | .custodianAuth tower ctx fault => Sys2Proof.Machine.execCustodianAuth tower ctx fault s
  | .cardResponse tower ctx resp => Sys2Proof.Machine.execCardResponse tower ctx resp s
  | .cardTimeout tower ctx => Sys2Proof.Machine.execCardTimeout tower ctx s
  | .dmkLoad tower ctx fault => Sys2Proof.Machine.execDmkLoad tower ctx fault s
  | .dmkPromote tower ctx fault => Sys2Proof.Machine.execDmkPromote tower ctx fault s
  | .partitionCreate tower ctx fault => Sys2Proof.Machine.execPartitionCreate tower ctx fault s
  | .partitionDelete tower ctx fault => Sys2Proof.Machine.execPartitionDelete tower ctx fault s
  | .commission tower ctx fault => Sys2Proof.Machine.execCommission tower ctx fault s
  | .recommission tower ctx fault => Sys2Proof.Machine.execRecommission tower ctx fault s
  | .returnCer tower ctx fault => Sys2Proof.Machine.execReturnCer tower ctx fault s
  | .scrap tower ctx fault => Sys2Proof.Machine.execScrap tower ctx fault s
  | .ceremonyAbort tower ctx fault => Sys2Proof.Machine.execCeremonyAbort tower ctx fault s
  | .ceremonyWindowExpiry => Sys2Proof.Machine.execCeremonyWindowExpiry s
  | .lifecycleTransition burn => Sys2Proof.Machine.execLifecycleTransition burn s
  | .lcsRequest target => Sys2Proof.Machine.execLcsRequest target s
  | .lcsExecute target => Sys2Proof.Machine.execLcsExecute target s
  | .reelCloneDomain tower ctx fault => Sys2Proof.Machine.execReelCloneDomain tower ctx fault s
  | .reelSend tower ctx fault => Sys2Proof.Machine.execReelSend tower ctx fault s
  | .reelSnapshot tower ctx fault => Sys2Proof.Machine.execReelSnapshot tower ctx fault s
  | .batchClose => Sys2Proof.Machine.execBatchClose s
  | .journalWritten failed => Sys2Proof.Machine.execJournalWritten failed s
  | .homeApplied failed => Sys2Proof.Machine.execHomeApplied failed s
  | .applyRetry failed => Sys2Proof.Machine.execApplyRetry failed s
  | .pageLock tower ctx mem failed => Sys2Proof.Machine.execPageLock tower ctx mem s failed
  | .vaultCreate => Sys2Proof.Machine.execVaultCreate s
  | .vaultAttach => Sys2Proof.Machine.execVaultAttach s
  | .vaultDetach => Sys2Proof.Machine.execVaultDetach s
  | .keepMapCommit => Sys2Proof.Machine.execKeepMapCommit s
  | .arbCommit => Sys2Proof.Machine.execArbCommit s
  | .blkShadowCommit page value => Sys2Proof.Machine.execBlkShadowCommit page value s
  | .blkIrqTest page value => Sys2Proof.Machine.execBlkIrqTest page value s
  | .blkLock page value => Sys2Proof.Machine.execBlkLock page value s
  | .lowHalfRead fn off width => Sys2Proof.Machine.execLowHalfRead fn off width s
  | .registerWrite fn off width value => Sys2Proof.Machine.execRegisterWrite fn off width value s
  | .acuEntryWrite off width value => Sys2Proof.Machine.execAcuEntryWrite off width value s
  | .mboxToMf tf value => Sys2Proof.Machine.execMboxToMf tf value s
  | .chFromMf tf value => Sys2Proof.Machine.execChFromMf tf value s
  | .tfStop tf => Sys2Proof.Machine.execTfStop tf s
  | .tfStopClear tf => Sys2Proof.Machine.execTfStopClear tf s
  | .tfQuiesced tf => Sys2Proof.Machine.execTfQuiesced tf s
  | .tfReset tf => Sys2Proof.Machine.execTfReset tf s
  | .tfResetDone tf => Sys2Proof.Machine.execTfResetDone tf s
  | .tfCease num => Sys2Proof.Machine.execTfCease num s
  | .dirtyHarvest tf => Sys2Proof.Machine.execDirtyHarvest tf s
  | .harvestDone tf => Sys2Proof.Machine.execHarvestDone tf s
  | .qctxSave => Sys2Proof.Machine.execQctxSave s
  | .qctxRestore => Sys2Proof.Machine.execQctxRestore s
  | .linkChange speed width reversed => Sys2Proof.Machine.execLinkChange speed width reversed s
  | .mfFlr perst => Sys2Proof.Machine.execMfFlr perst s
  | .warmReset => Sys2Proof.Machine.execWarmReset s
  | .coldReset pwrgood cut => Sys2Proof.Machine.execColdReset pwrgood s cut
  | .strapSample tn => Sys2Proof.Machine.execStrapSample tn s
  | .fuseLoad => Sys2Proof.Machine.execFuseLoad s
  | .deviceReady lanes spires sources core us => Sys2Proof.Machine.execDeviceReady lanes spires sources core us s
  | .domePowerUp lost => Sys2Proof.Machine.execDomePowerUp lost s
  | .tamperEvent cause temp vbat => Sys2Proof.Machine.execTamperEvent cause temp vbat s
  | .tamperToggle cause => Sys2Proof.Machine.execTamperToggle cause s
  | .eraseDone => Sys2Proof.Machine.execEraseDone s
  | .keepEraseDone => Sys2Proof.Machine.execKeepEraseDone s
  | .battLow vbat => Sys2Proof.Machine.execBattLow vbat s
  | .domeAck value live => Sys2Proof.Machine.execDomeAck value live s
  | .droop mv => Sys2Proof.Machine.execDroop mv s
  | .droopRecovery mv => Sys2Proof.Machine.execDroopRecovery mv s
  | .brownout mv => Sys2Proof.Machine.execBrownout mv s
  | .thermalReading temps => Sys2Proof.Machine.execThermalReading temps s
  | .throttleUpdate => Sys2Proof.Machine.execThrottleUpdate s
  | .thermalStopped => Sys2Proof.Machine.execThermalStopped s
  | .thermalStopTimeout => Sys2Proof.Machine.execThermalStopTimeout s
  | .selfTestStart part => Sys2Proof.Machine.execSelfTestStart part s
  | .selfTestDone part pass => Sys2Proof.Machine.execSelfTestDone part pass s
  | .spareTowerTest => Sys2Proof.Machine.execSpareTowerTest s
  | .towerDrained tower => Sys2Proof.Machine.execTowerDrained tower s
  | .sparingFuseBurn copyLost => Sys2Proof.Machine.execSparingFuseBurn copyLost s
  | .noiseWindow src samples => Sys2Proof.Machine.execNoiseWindow src samples s
  | .seedReady => Sys2Proof.Machine.execSeedReady s
  | .drbgInstantiate inst => Sys2Proof.Machine.execDrbgInstantiate inst s
  | .drbgReseed inst => Sys2Proof.Machine.execDrbgReseed inst s
  | .drbgGenerate inst => Sys2Proof.Machine.execDrbgGenerate inst s
  | .drbgRequestDone inst => Sys2Proof.Machine.execDrbgRequestDone inst s
  | .supCtxUnfreeze value => Sys2Proof.Machine.execSupCtxUnfreeze value s
  | .supViolPop value => Sys2Proof.Machine.execSupViolPop value s
  | .tariffArm => Sys2Proof.Machine.execTariffArm s
  | .tariffCancel => Sys2Proof.Machine.execTariffCancel s
  | .tariffSwitch => Sys2Proof.Machine.execTariffSwitch s
  | .intervalClose => Sys2Proof.Machine.execIntervalClose s
  | .snapBankSwap => Sys2Proof.Machine.execSnapBankSwap s
  | .reelCtrlPromenade => Sys2Proof.Machine.execReelCtrlPromenade s
  | .promenade addr d echoes seq => Sys2Proof.Machine.execPromenade addr d echoes s seq
  | .promenadeEnd n seq => Sys2Proof.Machine.execPromenadeEnd n s seq
  | .topology n topo brk seq src => Sys2Proof.Machine.execTopology n topo brk s seq src
  | .delayEcho down roundTrip => Sys2Proof.Machine.execDelayEcho down roundTrip s
  | .laneSwap down lane seq => Sys2Proof.Machine.execLaneSwap down lane s seq
  | .reelLaneRetire down lane => Sys2Proof.Machine.execReelLaneRetire down lane s
  | .reelLinkDown down => Sys2Proof.Machine.execReelLinkDown down s
  | .reelLinkUp down => Sys2Proof.Machine.execReelLinkUp down s
  | .breakNotice addr h => Sys2Proof.Machine.execBreakNotice addr s h
  | .retransmitTimeout down cls => Sys2Proof.Machine.execRetransmitTimeout down cls s
  | .linkAck down cls seq credits => Sys2Proof.Machine.execLinkAck down cls seq credits s
  | .linkNak down cls seq => Sys2Proof.Machine.execLinkNak down cls seq s
  | .reelWord h value => Sys2Proof.Machine.execReelWord h value s
  | .witnessRec h record => Sys2Proof.Machine.execWitnessRec h record s
  | .witnessAck h owner epoch => Sys2Proof.Machine.execWitnessAck h owner epoch s
  | .snapOrder bell issuer h => Sys2Proof.Machine.execSnapOrder bell issuer s h
  | .snapshotCapture => Sys2Proof.Machine.execSnapshotCapture s
  | .snapAck h bell ans => Sys2Proof.Machine.execSnapAck h bell ans s
  | .setAck h bell captured missed => Sys2Proof.Machine.execSetAck h bell captured missed s
  | .setGatherTimeout bell => Sys2Proof.Machine.execSetGatherTimeout bell s
  | .snapDoneTimeout => Sys2Proof.Machine.execSnapDoneTimeout s
  | .peerQuery h payload => Sys2Proof.Machine.execPeerQuery h payload s
  | .peerReply h payload => Sys2Proof.Machine.execPeerReply h payload s
  | .handoffPage h payload => Sys2Proof.Machine.execHandoffPage h payload s
  | .handoffDesc h payload => Sys2Proof.Machine.execHandoffDesc h payload s
  | .cloneHello h payload => Sys2Proof.Machine.execCloneHello h payload s
  | .cloneReply h payload => Sys2Proof.Machine.execCloneReply h payload s
  | .cloneKey h payload => Sys2Proof.Machine.execCloneKey h payload s
  | .cloneDone h payload => Sys2Proof.Machine.execCloneDone h payload s
  | .cloneSessionExpiry => Sys2Proof.Machine.execCloneSessionExpiry s
  | .reelReplyTimeout tower ctx => Sys2Proof.Machine.execReelReplyTimeout tower ctx s
  | .bellBlock low40 corr => Sys2Proof.Machine.execBellBlock low40 corr s
  | .bellAssert => Sys2Proof.Machine.execBellAssert s
  | .bellLoss => Sys2Proof.Machine.execBellLoss s
  | .timeFull number headState seq => Sys2Proof.Machine.execTimeFull number headState s seq
  | .ppsEdge gap phase low high => Sys2Proof.Machine.execPpsEdge gap phase s low high
  | .ppsWindowMissed => Sys2Proof.Machine.execPpsWindowMissed s
  | .todFrame frame afterMs raw => Sys2Proof.Machine.execTodFrame frame afterMs s raw
  | .timeSet => Sys2Proof.Machine.execTimeSet s
  | .ppsOutEnd => Sys2Proof.Machine.execPpsOutEnd s
  | .todTx => Sys2Proof.Machine.execTodTx s
  | .inputSample levels => Sys2Proof.Machine.execInputSample levels s
  | .smbStatus code extra => Sys2Proof.Machine.execSmbStatus s code extra
  | .smbTemps => Sys2Proof.Machine.execSmbTemps s
  | .smbVolts => Sys2Proof.Machine.execSmbVolts s
  | .smbIdent => Sys2Proof.Machine.execSmbIdent s
  | .smbCounts => Sys2Proof.Machine.execSmbCounts s
  | .smbAlert => Sys2Proof.Machine.execSmbAlert s
  | .smbAlertResponse => Sys2Proof.Machine.execSmbAlertResponse s
  | .vddAonLoss vbat => Sys2Proof.Machine.execVddAonLoss vbat s
  | .holdupOkLow => Sys2Proof.Machine.execHoldupOkLow s
  | .vfEnable num => Sys2Proof.Machine.execVfEnable num s
  | .ctrlDone mem => Sys2Proof.Machine.execCtrlDone mem s
  | .qctxCommandDone => Sys2Proof.Machine.execQctxCommandDone s
  | .reelPortDrop down badCrc cls seq => Sys2Proof.Machine.execReelPortDrop down badCrc s cls seq

end Sys2Proof.Machine
end

