-- ==== Sys2Proof/Machine/Tick.lean ====
section
/-! DEFINITION. The tick: one core cycle passes while no command waits. The counts that the spec keeps in core cycles go on
(DESIGN CHOICE, log 40). -/

namespace Sys2Proof.Machine

/-! ## Waiting contexts -/

/-- One of these contexts of a tower executes a step (10 R315: a holder that advances). -/
def someRuns (w : Tower) (cs : List Nat) : Bool := cs.any (fun c => (w.ctxs.getD c {}).st == .running)

/-- The contexts that hold lanes of a kind. -/
def laneHolders (w : Tower) (hash : Bool) : List Nat := (w.lanes hash).filterMap (·.owner)

/-- A holder of these Keep lines executes a step. -/
def keepRuns (s : State) (lines : List Nat) : Bool :=
  allCtx.any (fun x => (s.ctx x.1 x.2).st == .running && (s.ctx x.1 x.2).grant.any (fun k => lines.contains k))

/-- A holder of lines of the pages whose lock a vault job awaits executes a step (07 R242; 10 R315). -/
def pageRuns (s : State) (t c : Nat) : Bool :=
  let pg := lockFirst s t c
  let n := lockSpan s pg
  allCtx.any (fun x => (s.ctx x.1 x.2).st == .running && (s.ctx x.1 x.2).grant.any (inPages s pg n))

/-- The contexts that wait for a turn: none of the calls before them goes on (10 R315; 14 R413). -/
def turnStalls (s : State) (t c : Nat) : Bool := (cerEarlier s t c).all (fun x => decide ((s.ctx x.1 x.2).stall > 0))

/-- This cycle is stalled for context `c` of tower `t` that waits for a need: nothing was granted and no holder advances. Waits
for host data, for a card, for another device and for a job's resume point are never counted (10 R315). -/
def stalledBy (s : State) (t c : Nat) : Need → Bool
  | .line _ => true
  | .way _ => true
  | .fill _ => true
  | .fillLine _ => true
  | .commit => true
  | .page => !pageRuns s t c
  | .keep ls _ => !keepRuns s ls
  | .lanes h _ _ => !someRuns (s.tower t) (laneHolders (s.tower t) h)
  | .spire => !someRuns (s.tower t) (s.tower t).spire.owners
  | .draw _ => (inst s t).busy == 0
  | .draw17 _ => (inst s 17).busy == 0 && !(allCtx.any (fun x => (s.ctx x.1 x.2).st == .running && opOf (workDesc s x.1 x.2) == 0x0901))
  | .list => false
  | .blob => false
  | .chunk => false
  | .job _ _ => false
  | .reel => false
  | .credit _ => false
  | .card => false
  | .turn => turnStalls s t c

/-- The wait is for a vault fetch, of the line that a figure works on or of one of the call's keys (01 R30). -/
def fetching (l : List Need) : Bool := !(fillsOf l).isEmpty

/-- A context one cycle later: a waiting one counts its wait, its age and its stalled cycles (01 R17, R30; 08 R256; 10 R315);
one that works under a Keep grant counts a working cycle (07 R224). -/
def tickCtx (s : State) (t c : Nat) (x : Ctx) : Ctx :=
  match x.st, x.needs.head? with
  | .waiting, some n =>
    { x with
      waits := if fetching x.needs then x.waits else x.waits + 1
      fetchCycles := if fetching x.needs then x.fetchCycles + 1 else x.fetchCycles
      age := x.age + 1
      saving := false
      stall := if stalledBy s t c n then x.stall + 1 else 0 }
  | .running, _ => if x.grant.isEmpty then x else { x with work256 := x.work256 + 1 }
  | _, _ => x

/-- A context waits for lanes. -/
def waitsLane (x : Ctx) : Bool :=
  match x.st, x.needs.head? with
  | .waiting, some (.lanes _ _ _) => true
  | _, _ => false

/-- A tower one cycle later; each context that waits for lanes adds a cycle to TWR_LANE_WAIT (08 R281). -/
def tickTower (s : State) (t : Nat) (w : Tower) : Tower :=
  { w with ctxs := w.ctxs.zipIdx.map (fun e => tickCtx s t e.2 e.1), laneWait := satAdd 32 w.laneWait (w.ctxs.filter waitsLane).length }

/-! ## Timers -/

/-- A queue pair with unsignalled completions: its timer runs (02 R54). -/
def tickQp (x : Qp) : Qp := if x.unsignalled = 0 then x else { x with coalAge := x.coalAge + 1 }

/-- A DRBG request in progress (08 R276, R277). -/
def tickDrbg (d : Drbg) : Drbg := if d.busy = 0 then d else { d with left := d.left - 1 }

/-- TIME_FRAC counts from the last Bell (11 R353). -/
def tickTime (t : Time) : Time := if t.st = 0 then t else { t with frac := satAdd 24 t.frac 1 }

/-- A ceremony whose window is counted in cycles (14 R406). -/
def tickCeremony (c : Ceremony) : Ceremony := if c.expires.isSome then c else { c with cyclesLeft := c.cyclesLeft - 1 }

/-- A batch whose step 4 has failed (07 R240). -/
def tickBatch (b : Batch) : Batch := if b.failed then { b with retry := b.retry + 1 } else b

/-- The counts of one core cycle. -/
def tickCounts (s : State) : State :=
  { s with
    cycle := s.cycle + 1
    time := tickTime s.time
    towers := s.towers.zipIdx.map (fun e => tickTower s e.2 e.1)
    rng := { s.rng with insts := s.rng.insts.map tickDrbg }
    hif := { s.hif with qps := s.hif.qps.map (fun e => (e.1, tickQp e.2)) }
    mtr := { s.mtr with trail := [] }
    cus := { s.cus with cer := s.cus.cer.map tickCeremony }
    vault := { s.vault with batch := s.vault.batch.map tickBatch }
    sup := { s.sup with spareTimer := s.sup.spareTimer + 1 } }

/-- A final step whose lines find ways in the Keep by now goes on (07 R218). -/
def wayFound (s : State) (t c : Nat) : State :=
  match firstNeed s t c with
  | some (.way ks) => if waysFor s ks then popNeed s t c else s
  | _ => s

/-- A ceremony whose window has ended is forgotten once no call is in flight that it decides (14 R406, R412). -/
def dropClosing (s : State) : State :=
  if s.cus.closing.all (fun e => cerFlight s e.2) then s else s.setCus { s.cus with closing := none }

/-- What falls due as a cycle ends: a commit of the ARB page whose cycle it was, calls whose Spire has become theirs alone, and the end of
a ceremony. -/
def tickDue (s : State) : State := dropClosing ((List.range 17).foldl spireSettle (commitArb s))

/-- A context looks again: at the line that its key waits for, at lines fetched for it that need ways, at the ways that its final step
needs, at its turn among ceremony calls (07 R218, R226; 14 R413). -/
def lookAgain (s : State) (t c : Nat) : State := cerTurn (wayFound (settleFill (lineFreed s t c) t c) t c) t c

/-- The contexts that look again in each cycle. -/
def lookers (s : State) : List (Nat × Nat) :=
  allCtx.filter (fun x => !(s.ctx x.1 x.2).ready.isEmpty || (match firstNeed s x.1 x.2 with
    | some (.line _) => true
    | some (.way _) => true
    | some .turn => true
    | _ => false))

/-- Sensors that assert may release: which of them still assert a cycle later is open, a free value (15 R426, R439; log 122). -/
def tickSensors (s : State) : State :=
  if s.dome.live = 0 then s
  else
    let (s1, n) := s.takeFree
    { s1 with dome := { s1.dome with live := s1.dome.live &&& BitVec.ofNat 15 (Config.freeValue n) } }

/-- One core cycle passes: the counts go on, the contexts that wait for the Keep or for instance 17 look again, Keep rows are repaired whose
locks have come free (15 R434), and the parts of suspect towers that have become idle are tested (13 R385). -/
def tick (s : State) : State :=
  suspectTests (settleRows (release17 ((lookers s).foldl (fun a x => lookAgain a x.1 x.2) (tickCounts (tickDue (tickSensors s))))))

end Sys2Proof.Machine
end

