-- ==== Sys2Proof/Safety.lean ====
section
/-! DEFINITION. What the statements call safe: the invariant of every state, and fuses that only ever gain bits. -/

namespace Sys2Proof.Machine

/-- The bytes of `a` as they stand, with perhaps more bits set (DEDUCED from 14 R399: a burn turns bits from 0 to 1; log 88). -/
def bytesKept (a b : Bytes) : Prop := b.length = a.length ∧ ∀ i, a.getD i 0 &&& b.getD i 0 = a.getD i 0

/-- No fuse bit of `a` is clear in `b`, no sparing record of `a` is gone, and a device that is LOST stays so (14 R399, R400;
15 R437; DEDUCED, log 88). -/
def fusesKept (a b : Fuse) : Prop :=
  (b.rows.length = a.rows.length ∧ ∀ i, a.rows.getD i 0 &&& b.rows.getD i 0 = a.rows.getD i 0) ∧
  (b.policy.length = a.policy.length ∧ ∀ i, bytesKept (a.policy.getD i []) (b.policy.getD i [])) ∧
  bytesKept a.owner b.owner ∧ (∃ l, b.sparing = a.sparing ++ l) ∧ (a.lost = true → b.lost = true) ∧
  b.serial = a.serial ∧ b.gradeX = a.gradeX ∧ b.uds = a.uds

/-- What holds in every state that a run reaches: memory and page heads are in canonical form; there are 24 life-cycle rows and 12
policy blocks (14 R395); READY is set only once the fuses are loaded, and they load only after the straps are sampled
(16 R445); the violation log holds at most 16 entries (13 R387), and the Dome's log index counts its 32 entries (15 R427). -/
structure Inv (s : State) : Prop where
  host : Memory.wf s.host = true
  heads : tblWf ({} : Head) s.heads = true
  rows : s.fuse.rows.length = 24
  policy : s.fuse.policy.length = 12
  ready : s.dev.ready = true → s.fuse.loaded = true
  loaded : s.fuse.loaded = true → 2 ≤ s.dev.tnPhase
  violations : s.sup.log.length ≤ 16
  domeLog : s.dome.logNext < 32

end Sys2Proof.Machine
end

