-- ==== Sys2Proof/Certificates/Slice0/Obligations.lean ====
section
/-! DEFINITION. The statements for the provers, each with the rules of the spec that it states or rests on. -/

open Sys2Proof Sys2Proof.Machine

/-- A step runs the command at the front of the queue on the state with the queue's rest (16 R445; 10 R308; log 1; log
2; log 40) -/
def Obligations.StepRunsFrontCommand : Prop :=
  (∀ (c : Instr) (r : List Instr) (s : State), s.pending = c :: r → step s = exec c { s with pending := r }) ∧
  (∀ s : State, s.pending = [] → step s = .next (tick s)) ∧
  (∀ (c : Instr) (s : State), ∃ t, exec c s = .next t) ∧
  (∀ (s : State) (t c : Nat), ∀ e ∈ ([
      (.echo t c .none, 0x0001, echo t c), (.cvvGenerate t c .none, 0x0301, cvvGenerate t c),
        (.cvvVerify t c .none, 0x0302, cvvVerify t c), (.dcvvVerify t c .none, 0x0303, dcvvVerify t c),
        (.arqcVerify t c .none, 0x0304, arqcVerify t c), (.scriptMac t c .none, 0x0305, scriptMac t c),
        (.macGenerate t c .none, 0x0401, macGenerate t c), (.macVerify t c .none, 0x0402, macVerify t c),
        (.dataEncrypt t c .none, 0x0501, dataFigure t c), (.dataDecrypt t c .none, 0x0502, dataFigure t c),
        (.dataTranslate t c .none, 0x0503, dataFigure t c), (.tokenize t c .none, 0x0601, tokenFigure t c),
        (.detokenize t c .none, 0x0602, tokenFigure t c), (.tokenRetire t c .none, 0x0603, tokenFigure t c),
        (.reelCloneDomain t c .none, 0x0D01, cloneStep t c), (.attest t c .none, 0x0B01, attest t c),
        (.jobSuspend t c .none, 0x0002, onJob true t c (jobSuspend t c)), (.jobResume t c .none, 0x0003, onJob true t c (jobResume t c)),
        (.jobCancel t c .none, 0x0004, onJob false t c (jobCancel t c)), (.jobQuery t c .none, 0x0005, onJob false t c (jobQuery t c)),
        (.keyGenerate t c .none, 0x0701, keyGenerate t c), (.keyImportBlock t c .none, 0x0702, keyImportBlock t c),
        (.keyExportBlock t c .none, 0x0703, keyExportBlock t c), (.keyDerive t c .none, 0x0704, keyDerive t c),
        (.keyDestroy t c .none, 0x0705, keyDestroy t c), (.keyAttributes t c .none, 0x0706, keyAttributes t c),
        (.keyCheckValue t c .none, 0x0708, keyCheckValue t c), (.tallyStatement t c .none, 0x0B02, tallyStatement t c),
        (.pinTranslate t c .none, 0x0101, pinTranslate t c), (.pinVerifyOffset t c .none, 0x0102, pinVerifyOffset t c),
        (.pinVerifyPvv t c .none, 0x0103, pinVerifyPvv t c), (.pinGenerateOffset t c .none, 0x0104, pinGenerateOffset t c),
        (.pinGeneratePvv t c .none, 0x0105, pinGeneratePvv t c), (.pinChange t c .none, 0x0106, pinChange t c),
        (.pinFromDukpt t c .none, 0x0107, pinFromDukpt t c), (.dukptDeriveInitial t c .none, 0x0201, dukptDeriveInitial t c),
        (.dukptDataDecrypt t c .none, 0x0202, dukptDataDecrypt t c), (.dukptMacVerify t c .none, 0x0203, dukptMacVerify t c),
        (.reelSend t c .none, 0x0D02, reelSend t c), (.reelSnapshot t c .none, 0x0D03, reelSnapshot t c),
        (.randomCall t c .none, 0x0901, randomFig t c), (.pkSign t c .none, 0x0801, pkSign t c),
        (.pkVerify t c .none, 0x0802, pkVerify t c), (.pkDecrypt t c .none, 0x0803, pkDecrypt t c),
        (.pkAgree t c .none, 0x0804, pkAgree t c), (.pkKeygen t c .none, 0x0805, pkKeygen t c),
        (.pqKemDecaps t c .none, 0x0806, pqDecaps t c), (.pqSign t c .none, 0x0807, pqSign t c),
        (.pqVerify t c .none, 0x0808, pqVerify t c), (.curveLoad t c .none, 0x0809, curveLoad t c),
        (.vaultRekey t c .none, 0x0A01, rekeyStep t c), (.vaultScrub t c .none, 0x0A02, scrubStep t c),
        (.partitionHandoff t c .none, 0x0A05, handoffStep t c)] : List (Instr × Nat × (State → State))),
    (atFigure s t c e.2.1 = true → exec e.1 s = .next (e.2.2 (pastYield s t c))) ∧ (atFigure s t c e.2.1 = false → exec e.1 s = .next s))

/-- The Spire's commands, and the eight public-key figures: cycles, refusals, verdicts and results (R284; R285; R286;
R287; R290; R292; R293; R294; log 3; log 5; log 91; log 100) -/
def Obligations.SpireFiguresRunTheirFullTime : Prop :=
  [curveP256, curveP384, curveP521].map ecSignCycles = [63099, 94624, 128379] ∧
  [curveP256, curveP384, curveP521].map ecVerifyCycles = [63347, 94874, 128631] ∧
  [curveP256, curveP384, curveP521].map ecDhCycles = [62577, 93842, 127319] ∧
  [curveP256, curveP384, curveP521].map ecGenCycles = [62549, 93806, 127271] ∧
  [2048, 3072, 4096].map (fun m => rsaPrivCycles m 17 2) = [158708, 633534, 1109352] ∧
  [2048, 3072, 4096].map (fun m => spExpP m 17 2 + spA m) = [2560, 5604, 9864] ∧
  (∀ c : SpCmd, c.op < 32 → c.d < 64 → c.a < 64 → c.b < 64 → c.n < 64 → c.pset < 8 → SpCmd.ofWord c.word = c) ∧
  (∀ (x : Spire) (c : SpCmd),
    let y := (x.run c 0).1
    let a := (x.slot c.a).val
    let b := (x.slot c.b).val
    let n := (x.slot c.n).val
    let l := (x.slot c.n).len
    let e := (x.slot c.b).len
    let gives := fun (v time : Nat) => y.slot c.d = { len := l, val := v % 2 ^ 4096 } ∧ y.busy = (x.busy + time) % 2 ^ 64
    (x.refuses c = true → (x.run c 0).2 = true ∧ y.slots = x.slots ∧ y.flag = x.flag ∧ y.refusals = satAdd 32 x.refusals 1) ∧
    (x.refuses c = false → (x.run c 0).2 = false ∧ y.refusals = x.refusals) ∧
    (c.op = 1 → gives ((a + b) % n) (spA l)) ∧ (c.op = 2 → gives ((a % n + n - b % n) % n) (spA l)) ∧
    (c.op = 3 → gives (a * b % n) (spM l)) ∧ (c.op = 4 → gives (a % n) (2 * spM l)) ∧
    (c.op = 5 → (a = 0 ∨ Nat.gcd a n ≠ 1 → x.refuses c = true) ∧ (a ≠ 0 → Nat.gcd a n = 1 → gives ((modInv a n).getD 0) (spI l))) ∧
    (c.op = 6 → 2 ≤ a → a < n → 2 ≤ b → n % 2 = 1 → bitOf n (l - 1) = true → gives (modPow a b n) (spExp l e)) ∧
    (c.op = 6 → (a < 2 ∨ n ≤ a ∨ b < 2 ∨ n % 2 = 0 ∨ bitOf n (l - 1) = false) → x.refuses c = true) ∧
    (c.op = 7 → 64 < e + ones b → x.refuses c = true) ∧
    (c.op = 7 → x.refuses c = false → gives (modPow a b n) (spExpP l e (ones b))) ∧
    (c.op = 8 → y.slots = x.slots ∧ y.flag = decide (a = b) ∧ y.busy = (x.busy + spA l) % 2 ^ 64) ∧
    (c.op = 28 → let g := decide ((x.wide c.a).val = (x.wide c.b).val)
      y.flag = g ∧ y.slot c.d = { x.slot (if g then c.d else c.d + 1) with val := (x.slot (if g then c.d else c.d + 1)).val % 2 ^ 4096 })) ∧
  (∀ (sk m r : Bytes) (n : Nat),
    polyCycles (kemGenProg 0x20 r) = 24696 ∧ polyCycles (kemGenProg 0x21 r) = 38200 ∧
    polyCycles (dsaGenProg 0x22 r) = 49272 ∧ polyCycles (dsaGenProg 0x23 r) = 77176 ∧
    polyCycles (dsaSetupProg 0x22 sk m r) = 45352 + 24 * ceilDiv (m.length - 69) 136 ∧ polyCycles (dsaTryProg 0x22 sk m r n) = 84816 ∧
    polyCycles (dsaSetupProg 0x23 sk m r) = 65472 + 24 * ceilDiv (m.length - 69) 136 ∧ polyCycles (dsaTryProg 0x23 sk m r n) = 120368) ∧
  ∀ (s₀ : State) (t c : Nat),
    let s := pastYield s₀ t c
    let d := workDesc s t c
    let k := keyOf s t c 0
    let b := inputOf s t c
    let r := drawnOf s t c
    let w := (s.ctx t c).work
    let out := fun (s : State) (h n : Nat) (x res : Bytes) => (Host.Outcome.next (let a := writeOut s t c x
      if a.2 then finishCall a.1 t c stOk (38 + h + n + 15) n res else a.1) : Out)
    let ends := fun (s : State) (h n st : Nat) => (Host.Outcome.next (finishCall s t c st (38 + h + n + 15) n []) : Out)
    let refused := fun (s : State) (n : Nat) => (Host.Outcome.next (finishCall s t c stRefusedInput (38 + n + 13) n []) : Out)
    let ran := fun (prog : List SpStep) (ops : List (Nat × Nat)) (n : Nat) => spCall s t c prog ops n false
    let verdict := fun (a : State) (n : Nat) (ok : Bool) => ends a 0 n (if ok then stOk else stVerifyFail)
    (∀ e, keyCurve s k = some e → k.alg ≠ 0x18 →
      (atFigure s₀ t c 0x0801 = true →
        let g := ecdsaSign e (beVal k.material) (drawnScalar e r) b
        g.1 ≠ 0 → g.2 ≠ 0 → exec (.pkSign t c .none) s₀ =
          out (ran ecSignProg (ecSignOps e (beVal k.material) (drawnScalar e r) b) (ecSignCycles e)) 0 (ecSignCycles e) (beBytes e.nb g.1 ++ beBytes e.nb g.2) []) ∧
      (atFigure s₀ t c 0x0802 = true →
        let hl := hashLen (par d 65)
        let sg := b.drop hl
        let q := (decPoint e k.material).getD (0, 0)
        let g := ecdsaRun e q (b.take hl) (beVal (sg.take e.nb)) (beVal (sg.drop e.nb))
        let ops := ecVerifyOps e q (b.take hl) (beVal (sg.take e.nb)) (beVal (sg.drop e.nb))
        (∀ ok, g = .verdict ok → exec (.pkVerify t c .none) s₀ =
          verdict (ran (ecVerifyProg e) ops (ecVerifyCycles e)) (ecVerifyCycles e) ok) ∧
        ((∀ ok, g ≠ .verdict ok) → ∃ n, n ≤ ecVerifyCycles e ∧
          exec (.pkVerify t c .none) s₀ = refused (spCall { s with free := s.free + 1 } t c (ecVerifyProg e) ops n true) n)) ∧
      (atFigure s₀ t c 0x0804 = true →
        let ops := ecDhOps e (beVal k.material) (rawPoint e b)
        (decPoint e b = none → exec (.pkAgree t c .none) s₀ =
          refused (spCall s t c ecDhProg ops (4 * spM (bitLen e.p)) true) (4 * spM (bitLen e.p))) ∧
        (∀ q, decPoint e b = some q → ecMul e (e.h * beVal k.material) (some q) = none → ∃ n, n ≤ ecDhCycles e ∧
          exec (.pkAgree t c .none) s₀ = refused (spCall { s with free := s.free + 1 } t c ecDhProg ops n true) n) ∧
        (∀ q x y, decPoint e b = some q → ecMul e (e.h * beVal k.material) (some q) = some (x, y) →
          let a := attrRec d
          let m := kdf108 (aesC (kdf108 (aesC (zeros 32)) (ascii "AGRX") (beBytes e.fb x) 256)) (ascii "AGRE")
            (sub d 97 (par d 96) ++ sub d 64 10) (if a.alg = 6 then 256 else 8 * algBytes a.alg)
          exec (.pkAgree t c .none) s₀ = .next (spireCreate s t c ecDhProg ops (ecDhCycles e) 40 m)))) ∧
    (k.alg = 0x18 → isJobCtx s t c = false →
      let m := rsaBits k
      let p := (rsaPrimes k).1
      let q := (rsaPrimes k).2
      let hl := hashLen (par d 65)
      let dec := atFigure s₀ t c 0x0803 = true
      let x := if dec then beVal b else beVal (if par d 64 = 2 then emsaPkcs1 (m / 8) hl b else emsaPss (hashFn (par d 65)) hl m b (r.take hl))
      let z := spRun rsaProg false true t c 10 (loadHalf s t c (rsaOperands k x))
      let n := (z.1.ctx t c).work.sp
      let z1 := freeHalf z.1 t c
      let y := (z.1.tower t).spire
      let yv := (y.slot (y.base c + 11)).val
      let h := if dec then hashWork (par d 65) (m / 8) else rsaH (par d 64) (par d 65) (m / 8)
      let msg := oaepDecode (hashFn (par d 65)) hl (beBytes (m / 8) yv)
      let run := if dec then exec (.pkDecrypt t c .none) s₀ else exec (.pkSign t c .none) s₀
      (dec ∨ atFigure s₀ t c 0x0801 = true → w.pc = 0 → w.bits = 0 →
        (z.2 = true → run = .next (finishCall z.1 t c stRefusedInput (38 + (if dec then 0 else h) + n + 13) n [])) ∧
        (z.2 = false → y.flag = false → run = ends (countSpireFault z1 t) h n stDeviceFault) ∧
        (z.2 = false → y.flag = true → ¬ dec → run = out z1 h n (beBytes (m / 8) yv) []) ∧
        (z.2 = false → y.flag = true → dec → msg = none → run = ends z1 h n stVerifyFail) ∧
        (∀ v, z.2 = false → y.flag = true → dec → msg = some v → run = out z1 h n v (leBytes 2 v.length)) ∧
        (z.2 = false → m ≤ 4096 → x < 2 ^ 4096 → w.sp = 0 →
          let dd := (modInv rsaE ((p - 1) * (q - 1))).getD 0
          let u := modPow (x % p) (dd % (p - 1)) p
          let v := modPow (x % q) (dd % (q - 1)) q
          n = rsaPrivCycles m 17 2 ∧ yv = (v + q * ((u + p - v % p) % p * ((modInv q p).getD 0) % p)) % (p * q) ∧
          (y.flag = true ↔ modPow yv rsaE (p * q) = x)))) ∧
    (atFigure s₀ t c 0x0805 = true → ∀ e, 0x10 ≤ par d 64 → par d 64 < 0x18 → curveOf s (par d 64) (par d 98) = some e →
      let x := drawnScalar e (r.take (scalarDraw e))
      exec (.pkKeygen t c .none) s₀ = .next (keygenPlace s t c (ecGenProg e)
        (ecGenOps e (beVal (r.take (scalarDraw e)) % 2 ^ (bitLen e.n + 64))) (ecGenCycles e) (ecGenCycles e) (beBytes e.nb x) (ecPublic e x)
        (if par d 64 = 0x13 then [BitVec.ofNat 8 (par d 98)] else []))) ∧
    (atFigure s₀ t c 0x0805 = true → par d 64 = 0x18 → w.phase ≤ 40 →
      let run := exec (.pkKeygen t c .none) s₀
      let tb := leAt d 96 2 / 2
      let p := w.vals.getD 0 0
      let goes := fun (a : State) (g : Work → Work) =>
        (Host.Outcome.next (setNeeds (modWork a t c (fun y => { g y with drawn := [] })) t c (drawNeeds (tb / 8))) : Out)
      let failed := fun (a : State) => goes a (fun y => { y with phase := 0, pc := 0, progress := y.progress + 1, vals := [p] })
      (r.length < tb / 8 → run = .next (setNeeds s t c (drawNeeds (tb / 8 - r.length)))) ∧
      (tb / 8 ≤ r.length → w.phase = 0 →
        let cand := beVal (r.take (tb / 8)) % 2 ^ (tb - 2) + 3 * 2 ^ (tb - 2)
        let s1 := spireSpend s t c 256
        (cand % 2 = 0 → run = failed s1) ∧
        (cand % 2 = 1 → run = goes s1 (fun y => { y with phase := 1, pc := 0, vals := [p, cand] }))) ∧
      (tb / 8 ≤ r.length → 1 ≤ w.phase →
        let cand := w.vals.getD 1 0
        let base := beVal r % (cand - 3) + 2
        let s1 := (spPart mrProg true false t c (loadHalf s t c (mrOps tb cand base))).1
        ((s1.ctx t c).work.pc = 0 → run = .next s1) ∧
        ((s1.ctx t c).work.pc ≠ 0 → mrRound cand base = false → run = failed s1) ∧
        ((s1.ctx t c).work.pc ≠ 0 → mrRound cand base = true → w.phase < 40 →
          run = goes s1 (fun y => { y with phase := y.phase + 1, pc := 0 })))) ∧
    (atFigure s₀ t c 0x0805 = true → 0x20 ≤ par d 64 → par d 64 ≤ 0x23 →
      let a := par d 64
      let x := r.take (if a < 0x22 then 64 else 32)
      let p := if a < 0x22 then kemKeyPair a (x.take 32) (x.drop 32) else dsaKeyPair a x
      let n := if a = 0x20 then 24696 + 80 * kemExtra a (sub p.2 1152 32)
        else if a = 0x21 then 38200 + 80 * kemExtra a (sub p.2 1536 32)
        else (if a = 0x22 then 49272 else 77176) + 80 * (dsaExtra a (p.2.take 32) + dsaExtraSecret a x)
      exec (.pkKeygen t c .none) s₀ = .next (keygenPlace s t c
        (if a ≥ 0x22 then dsaGenProg a (r.take 32) else kemGenProg a (r.take 32)) [] n n p.1 p.2 [])) ∧
    (atFigure s₀ t c 0x0806 = true → k.alg = 0x20 ∨ k.alg = 0x21 → exec (.pqKemDecaps t c .none) s₀ = .next (spireCreate s t c
      (kemDecapsProg k.alg k.material b) []
      (if k.alg = 0x20 then 40859 + 80 * kemExtra 0x20 (sub k.material 2304 32) else 58274 + 80 * kemExtra 0x21 (sub k.material 3072 32)) 0
      (kemDecaps k.alg k.material b))) ∧
    (atFigure s₀ t c 0x0807 = true →
      let n := w.progress + 1
      let setup := dsaSetupProg k.alg k.material b r
      let prog := setup ++ dsaTryProg k.alg k.material b r n
      let s1 := (spPart prog true false t c (loadHalf s t c [])).1
      let w1 := (s1.ctx t c).work
      (1024 ≤ w.progress → exec (.pqSign t c .none) s₀ = ends (freeHalf s t c) 0 w.sp stDeviceFault) ∧
      (w.progress < 1024 → w1.pc < prog.length → exec (.pqSign t c .none) s₀ = .next s1) ∧
      (w.progress < 1024 → prog.length ≤ w1.pc → exec (.pqSign t c .none) s₀ = match dsaAttempt k.alg k.material b r n with
        | some g => out (freeHalf s1 t c) 0 w1.sp g []
        | none => .next (modWork s1 t c (fun a => { a with progress := n, pc := setup.length })))) ∧
    (atFigure s₀ t c 0x0808 = true → k.alg = 0x22 ∨ k.alg = 0x23 →
      let l := if k.alg = 0x22 then 3309 else 4627
      let n := (if k.alg = 0x22 then 63993 else 96025) + 24 * ceilDiv (b.length - l - 69) 136 +
          80 * (dsaExtra k.alg (k.material.take 32) + dsaExtraBall k.alg (b.take (if k.alg = 0x22 then 48 else 64)))
      exec (.pqVerify t c .none) s₀ = verdict (ran (dsaVerifyProg k.alg k.material (b.drop l) (b.take l)) [] n) n
        (dsaVerify k.alg k.material (b.drop l) (b.take l)))

/-- CURVE_LOAD runs its 88 check units in order, and the first that fails rejects the curve (R296) -/
def Obligations.CurveChecksRunInOrder : Prop :=
  ((List.range 88).map unitCause = [1] ++ List.replicate 40 2 ++ [3, 4, 5, 6] ++ List.replicate 40 7 ++ [8, 9, 10]) ∧
  (∀ (v : Curve) (fb : Nat) (r : Bytes),
    (unitOk v fb 0 r = true ↔ (192 ≤ bitLen v.p ∧ bitLen v.p ≤ 521 ∧ bitLen v.p ≤ 8 * fb)) ∧
    (unitOk v fb 41 r = true ↔ (v.a < v.p ∧ v.b < v.p)) ∧
    (unitOk v fb 42 r = true ↔ (4 * v.a ^ 3 + 27 * v.b ^ 2) % v.p ≠ 0) ∧
    (unitOk v fb 43 r = true ↔ onCurve v v.gx v.gy = true) ∧
    (unitOk v fb 44 r = true ↔ (1 ≤ v.h ∧ v.h ≤ 4 ∧ v.n ≠ v.p)) ∧
    (∀ u, 1 ≤ u → u ≤ 40 → unitOk v fb u r = mrPrime v.p [beVal r % (v.p - 3) + 2]) ∧
    (∀ u, 45 ≤ u → u ≤ 84 → unitOk v fb u r = mrPrime v.n [beVal r % (v.n - 3) + 2]) ∧
    (v.p < 2 ^ 521 → (unitOk v fb 85 r = true ↔
      ((v.h * v.n : Nat) - (v.p + 1 : Nat) : Int) * ((v.h * v.n : Nat) - (v.p + 1 : Nat) : Int) ≤ 4 * (v.p : Int))) ∧
    (unitOk v fb 86 r = true ↔ ecMul v v.n (ecG v) = none) ∧
    (unitOk v fb 87 r = true ↔ ∀ k, 1 ≤ k → k ≤ 20 → v.p ^ k % v.n ≠ 1)) ∧
  ∀ (s₀ : State) (t c : Nat), atFigure s₀ t c 0x0809 = true →
    let s := pastYield s₀ t c
    let run := exec (.curveLoad t c .none) s₀
    let d := workDesc s t c
    let x := s.ctx t c
    let u := x.work.progress
    let fb := par d 65
    let v := inputCurve fb (inputOf s t c)
    let short := (unitCause u = 2 ∨ unitCause u = 7) ∧ x.work.drawn.length < fb
    let pr := curveUnit v u x.work.drawn
    let s1 := if pr.1 = [] then s else (spPart pr.1 true false t c (loadHalf s t c pr.2)).1
    let s2 := spireSpend { s1 with free := s1.free + 1 } t c (Config.freeValue s1.free % 2 ^ 32)
    let n := (s2.ctx t c).work.sp
    let s3 := freeHalf s2 t c
    (curveSlot s d = none → run = .next (finishCall { s with free := s.free + 1 } t c stCapacity (Config.freeValue s.free % 2 ^ 32) 0 [5])) ∧
    (∀ slot, curveSlot s d = some slot →
      (short → run = .next (setNeeds s t c (drawNeeds (fb - x.work.drawn.length)))) ∧
      (¬ short → (s1.ctx t c).work.pc < pr.1.length → run = .next s1) ∧
      (¬ short → pr.1.length ≤ (s1.ctx t c).work.pc → unitOk v fb u x.work.drawn = false → run = .next (finishCall
        (raise { s3 with curves := { s3.curves with reject := some (unitCause u, slot) } } pgCurves 2)
          t c stCurveRejected (38 + n + 15) n [])) ∧
      (¬ short → pr.1.length ≤ (s1.ctx t c).work.pc → unitOk v fb u x.work.drawn = true →
        let s4 := modWork s2 t c (fun w => { w with progress := u + 1, pc := 0, bits := 0, drawn := [] })
        (u + 1 < 88 → run = .next (if unitCause (u + 1) = 2 ∨ unitCause (u + 1) = 7 then setNeeds s4 t c (drawNeeds fb) else s4)) ∧
        (88 ≤ u + 1 → run = .next (finishCall
          (raise { s3 with curves := { s3.curves with slots := tblSet none s3.curves.slots slot (some v) } } pgCurves 1)
          t c stOk (38 + n + 15) n []))))

/-- SPIRE_GRANT, SPIRE_SWITCH, DMA_GRANT, LIST_READ, BLOB_READ, CHUNK_READ and STALL_BREAK (R283; R288; R308; R309;
R315; R316) -/
def Obligations.SharedUnitsServeAndBreakStalls : Prop :=
  (∀ (s₀ : State) (t : Nat),
    let s := spireSettle (commitArb s₀) t
    let x := (s.tower t).spire
    let ws := spireWaiters s t
    (∀ fault, x.retired = true → exec (.spireGrant t fault) s₀ = .next (ws.foldl (fun a c => deviceFault a t c) s)) ∧
    (∀ fault, x.retired = false → ((x.half0.isSome = true ∧ x.half1.isSome = true) ∨ s.cycle < x.dead ∨
      ∀ c ∈ ws, spireEligible s t c = false) → exec (.spireGrant t fault) s₀ = .next s) ∧
    (∀ c, isJobCtx s t c = true → (spireEligible s t c = true ↔ x.resident = none)) ∧
    (∀ c, isJobCtx s t c = false → (spireEligible s t c = true ↔ ∀ o ∈ x.owners, x.resident = some o)) ∧
    (x.retired = false → ¬ (x.half0.isSome = true ∧ x.half1.isSome = true) → x.dead ≤ s.cycle → (∃ c ∈ ws, spireEligible s t c = true) →
      ∃ c s1, c ∈ ws ∧ spireEligible s t c = true ∧
        exec (.spireGrant t false) s₀ = .next (unstall (giveHalf s1 t c) (fun u n => u == t && n.isSpire)) ∧
        (∀ e ∈ ws, spireEligible s t e = true → s.caller.arbSpire.eff (ctxCls s t e) (arbAge s t e 1) ≤
          s.caller.arbSpire.eff (ctxCls s t c) (arbAge s t c 1)) ∧
        (s1.tower t).spire = x ∧ s1.keep = s.keep ∧ s1.vault = s.vault) ∧
    (∀ c, x.retired = false → ws = [c] → spireEligible s t c = true → x.half0 = none → x.half1 = none → x.dead ≤ s.cycle → ∃ s1,
      exec (.spireGrant t true) s₀ = .next s1 ∧ s1.caller.arbSpire.withdraws = satAdd 32 s.caller.arbSpire.withdraws 1)) ∧
  (∀ (s₀ : State) (t : Nat),
    let s := spireSettle s₀ t
    let x := (s.tower t).spire
    (x.resident = none → ∀ fault, exec (.spireSwitch t fault) s₀ = .next s) ∧
    (∀ r c, x.resident = some r → x.switched = false → spireWaiting s t = some c →
      (x.owed = true → exec (.spireSwitch t false) s₀ = .next s) ∧
      (x.owed = false → ∃ s1, exec (.spireSwitch t false) s₀ = .next (popNeed s1 t c) ∧
        (t < s.towers.length → (s1.tower t).spire = { x with switched := true, yields := satAdd 32 x.yields 1 }))) ∧
    (∀ r, x.resident = some r → x.switched = true → spireGuest x = none → ∃ s1, exec (.spireSwitch t false) s₀ = .next (popNeed s1 t r) ∧
      (t < s.towers.length → (s1.tower t).spire = { x with switched := false, owed := true }))) ∧
  (∀ (s₀ : State) (fault : Bool),
    let s := commitArb s₀
    let a := s.caller.arbDma
    (s.cycle < a.dead ∨ dmaReqs s = [] → exec (.dmaGrant fault) s₀ = .next s) ∧
    (768 ≤ s.hif.np → cplAsk s = false → s.hif.vaultOuts = 0 → s.hif.outs = [] → dmaReqs s = []) ∧
    (a.dead ≤ s.cycle → dmaReqs s ≠ [] → ∃ q ∈ dmaReqs s, ∃ s1,
      exec (.dmaGrant fault) s₀ = .next (grantDma s1 q.1 fault) ∧ s1.hif.np = s.hif.np ∧ s1.hif.qps = s.hif.qps ∧
      (∀ e ∈ dmaReqs s, a.eff e.2.1 e.2.2 ≤ a.eff q.2.1 q.2.2) ∧
      (dmaWithdraws s q.1 fault = true → s1.caller.arbDma.withdraws = satAdd 32 a.withdraws 1 ∧ s1.caller.arbDma.dead = s.cycle + 1) ∧
      (dmaWithdraws s q.1 fault = false → s1.caller.arbDma.grants = (a.grants + 1) % 2 ^ 64))) ∧
  (∀ (s : State) (t c : Nat) (a : ReadAns),
    (∀ (r : DmaReq) (b : Bytes), r.holes = [] → r.fill b = fit r.len b) ∧
    (readOf s t c .list = none → exec (.listRead t c a) s = .next s) ∧
    (readOf s t c .blob = none → exec (.blobRead t c a) s = .next s) ∧
    (readOf s t c .chunk = none → exec (.chunkRead t c a .none) s = .next s) ∧
    (∀ r, readOf s t c .blob = some r → r.live = false → exec (.blobRead t c a) s = .next (logAns (readAnswered s r) r.fn a)) ∧
    (∀ r b, readOf s t c .blob = some r → r.live = true → ansBytes a = some b → exec (.blobRead t c a) s =
      .next (popNeed (modWork (readAnswered s r) t c (fun w => { w with blob := r.fill b })) t c)) ∧
    (∀ r b, readOf s t c .list = some r → r.live = true → ansBytes a = some b →
      let s1 := modWork (readAnswered s r) t c (fun w => { w with listRaw := w.listRaw ++ r.fill b })
      listWhole (s1.ctx t c).work.listRaw = false → exec (.listRead t c a) s = .next (armDma s1 t c)) ∧
    (∀ r b, readOf s t c .chunk = some r → r.live = true → ansBytes a = some b →
      let s1 := modWork (readAnswered s r) t c (fun w => { w with input := w.input ++ r.fill b })
      firstNeed s1 t c = some .chunk →
        ((chunkOutput s1 t c).2 = false → exec (.chunkRead t c a .none) s = .next (chunkOutput s1 t c).1) ∧
        ((chunkOutput s1 t c).2 = true → ((chunkOutput s1 t c).1.ctx t c).work.input.length < inLenOf (workDesc
          (jobPassed (chunkOutput s1 t c).1 t c ((chunkOutput s1 t c).1.ctx t c).work.input.length) t c) →
          exec (.chunkRead t c a .none) s = .next (armDma
            (jobPassed (chunkOutput s1 t c).1 t c ((chunkOutput s1 t c).1.ctx t c).work.input.length) t c))) ∧
    (∀ r, readOf s t c .blob = some r → r.live = true → ansBytes a = none →
      exec (.blobRead t c a) s = .next (dataError (logAns (readAnswered s r) r.fn a) t c 3))) ∧
  (∀ s : State, (stalledCtx s = [] → exec .stallBreak s = .next s) ∧
    (stalledCtx s ≠ [] → ∃ t c, (t, c) ∈ stalledCtx s ∧ exec .stallBreak s =
      .next (if firstNeed s t c = some .commit ∧ (s.ctx t c).held.isSome = true then breakCommit s t c else breakCall s t c) ∧
      ∀ y ∈ stalledCtx s, ∀ j k, (s.ctx y.1 y.2).call = some j → (s.ctx t c).call = some k → j.seq < 2 ^ 70 → k.seq < 2 ^ 70 →
        k.seq ≤ j.seq))

/-- BELL_ASSERT, BELL, BELL_LOSS and TIME_FULL: numbers, states and the events of a Bell (R335; R336; R337; R340;
R341; R342; R344; R345) -/
def Obligations.BellsRiseAndFireTheirEvents : Prop :=
  (∀ low e : Nat, extend40 low e % 2 ^ 40 = low % 2 ^ 40 ∧ ∀ n, n % 2 ^ 40 = low % 2 ^ 40 →
    (extend40 low e - e) + (e - extend40 low e) ≤ (n - e) + (e - n)) ∧
  (∀ s : State, s.time.due = none → exec .bellAssert s = .next s) ∧
  (∀ (s : State) (k : Nat), s.time.due = some k → timeKnown s = true → k ≤ s.time.bell →
    exec .bellAssert s = .next { s with time := { s.time with due := none } }) ∧
  (∀ (s : State) (k : Nat), s.time.due = some k → (timeKnown s = true → s.time.bell < k) →
    ∃ s', exec .bellAssert s = .next s' ∧ s'.time.bell = k ∧ s'.time.frac = 0 ∧
      s'.time.delay = s.time.newDelay.getD s.time.delay ∧
      s'.time.st = (if isHead s then (if s.time.st = 0 then 2 else s.time.st)
        else if s.time.st = 3 then 3 else if s.time.st = 4 ∧ (∃ e, s.time.expect = some e ∧ k < e) then 4 else 1) ∧
      s'.time.expect = s.time.expect.filter (fun e => decide (k < e)) ∧
      (isHead s = false → s.time.st ≠ 3 → s'.time.due = none) ∧
      (isHead s = true → s.time.setPending = none → s'.time.due = some (k + 1)) ∧
      (∀ v, isHead s = true → s.time.setPending = some v → 1024 * v ≠ k → (k + 1) % 1024 = 0 → s'.time.due = some (1024 * v)) ∧
      (k % 1024 = 0 → s'.mtr.lastSecond = some (k / 1024)) ∧
      (k % 1024 ≠ 0 → (∀ a, s.dome.ledger.at_ = some a → s.mtr.recovering = true ∨ k ≤ 1024 * a) →
        s'.vault = s.vault ∧ s'.dome = s.dome ∧ s'.mtr.folded = s.mtr.folded) ∧
      (∀ a, k % 1024 ≠ 0 → s.mtr.recovering = false → s.dome.ledger.at_ = some a → 1024 * a < k → (∀ o ∈ ledgerPages, ledgerMay s o = true) →
        s'.dome.ledger.at_ = none ∧ s'.dome.ledger.active = s.dome.ledger.pending ∧
        s'.mtr.lateSwitches = satAdd 32 s.mtr.lateSwitches 1) ∧
      s'.dev.ppsOut = (s.dev.ppsOut || (decide (k % 1024 = 0) && s.time.src.getLsbD 2)) ∧
      (∀ b l, s.reel.order = some (b, l) → b ≤ k → s'.reel.order = none ∧ s'.mtr.hidden = some (b, s.mtr.tally)) ∧
      (∀ b l, s.reel.order = some (b, l) → k < b → s'.reel.order = some (b, l)) ∧
      (∀ x e, s.cus.cer = some x → x.expires = some e → 1024 * e ≤ k → s'.cus.cer = none)) ∧
  (∀ (s : State) (low corr q n h : Nat), isHead s = true →
    exec (.bellBlock low corr) s = .next s ∧ exec .bellLoss s = .next s ∧ exec (.timeFull n h q) s = .next s) ∧
  (∀ (s : State) (low corr : Nat), isHead s = false →
    let m := match s.time.expect with
      | some e => if (low % 2 ^ 40 + 2 ^ 40 - e % 2 ^ 40) % 2 ^ 40 < 2 ^ 39 then e + (low % 2 ^ 40 + 2 ^ 40 - e % 2 ^ 40) % 2 ^ 40
        else extend40 low (s.time.bell + 1)
      | none => extend40 low (s.time.bell + 1)
    let x := { s.time with lead := 9765625 - s.time.delay - corr }
    ∃ s', exec (.bellBlock low corr) s = .next s' ∧
      (s.time.st = 0 → s'.time = if s.time.expect.any (fun e => low % 2 ^ 40 == e % 2 ^ 40) then { x with due := s.time.expect } else x) ∧
      (s.time.st ≠ 0 → s'.time = { x with
        due := if s.time.bell < m then some m else none
        st := if s.time.st = 3 then 4 else s.time.st
        expect := if (∃ e, s.time.expect = some e ∧ e ≤ m) ∧ m ≤ s.time.bell then some (m + 1) else s.time.expect }) ∧
      (portUp s true = true → s.reel.topo ≠ 3 → s'.reel.dn.bell.map (·.1) = some (low % 2 ^ 40))) ∧
  (∀ s : State, isHead s = false →
    (s.time.st ≠ 1 → s.time.st ≠ 4 → exec .bellLoss s = .next s) ∧
    (s.time.st = 1 ∨ s.time.st = 4 → ∃ s', exec .bellLoss s = .next s' ∧ s'.time = { s.time with
      st := 3, holdovers := satAdd 32 s.time.holdovers 1, due := some (s.time.bell + 1), expect := none })) ∧
  (∀ (s : State) (q n h : Nat), isHead s = false → heard s { src := 0, dst := 0xFFFF, seq := q } 0 = none →
    exec (.timeFull n h q) s = .next (hears s { src := 0, dst := 0xFFFF, seq := q } 0).1) ∧
  (∀ (s s1 : State) (q n h : Nat), isHead s = false → heard s { src := 0, dst := 0xFFFF, seq := q } 0 = some s1 →
    ∃ s', exec (.timeFull n h q) s = .next s' ∧ s'.time = (if s.time.st = 0 then { s.time with expect := some n }
      else if n = 1024 * (s.time.bell / 1024 + 1) then s.time else { s.time with st := 4, expect := some n }) ∧
    s'.vault = s.vault ∧ s'.mtr = s.mtr ∧ s'.host = s.host)

/-- PPS_EDGE, PPS_WINDOW_MISSED, TOD_FRAME, TIME_SET, PPS_OUT_END and TOD_TX (R338; R339; R340; R341; R342; log 28;
log 29) -/
def Obligations.HeadTakesTimeFromItsSources : Prop :=
  (∀ (s : State) (gap ms : Nat) (ph : Word) (fr : Bytes), isHead s = false →
    exec (.ppsEdge gap ph) s = .next s ∧ exec .ppsWindowMissed s = .next s ∧ exec (.todFrame fr ms) s = .next s ∧
    exec .timeSet s = .next (recordWerr s pgTime)) ∧
  (∀ (s : State) (gap lo hi : Nat) (ph : Word), lo < 1000 ∨ hi < 1000 → exec (.ppsEdge gap ph lo hi) s = .next s) ∧
  (∀ (s : State) (ms : Nat) (fr : Bytes) (raw : List (List Bool)), raw ≠ [] → exec (.todFrame fr ms raw) s = exec (.todFrame (todSampled raw) ms) s) ∧
  (∀ (s : State) (gap : Nat) (ph : Word), s.time.src.getLsbD 0 = false →
    exec (.ppsEdge gap ph) s = .next s ∧ exec .ppsWindowMissed s = .next s) ∧
  (∀ (s : State) (ms : Nat) (fr : Bytes), s.time.src.getLsbD 1 = false → exec (.todFrame fr ms) s = .next s) ∧
  (∀ (s : State) (gap : Nat) (ph : Word), isHead s = true → s.time.src.getLsbD 0 = true →
    let t1 := { s.time with edges := s.time.edges + 1, missRun := 0, todSecond := none }
    (s.time.edges ≠ 0 → gap < 900000 → exec (.ppsEdge gap ph) s =
      .next (raise { s with time := { s.time with ignored := satAdd 32 s.time.ignored 1 } } pgTime 2)) ∧
    (s.time.edges ≠ 0 → 1100000 < gap → exec (.ppsEdge gap ph) s = .next s) ∧
    (s.time.edges = 0 ∨ (900000 ≤ gap ∧ gap ≤ 1100000) →
      (s.time.st = 0 → s.time.due ≠ none → exec (.ppsEdge gap ph) s = .next { s with time := t1 }) ∧
      (s.time.st = 0 → s.time.due = none → ∀ v, s.time.setPending.or s.time.todSecond = some v → ∃ s', exec (.ppsEdge gap ph) s = .next s' ∧
        s'.time.bell = 1024 * v ∧ s'.time.st = 1 ∧ s'.time.frac = 0) ∧
      (s.time.st = 0 → s.time.due = none → s.time.setPending = none → s.time.todSecond = none → exec (.ppsEdge gap ph) s = .next { s with time := t1 }) ∧
      (s.time.st ≠ 0 → ∃ s', exec (.ppsEdge gap ph) s = .next s' ∧ s'.time.phase = ph ∧ s'.time.edges = s.time.edges + 1 ∧
        s'.time.missRun = 0 ∧ s'.time.bell = s.time.bell ∧
        s'.time.st = (if s.time.st = 4 then (if ph.toInt.natAbs < 3 then 1 else 4)
          else if (s.time.st = 2 ∨ s.time.st = 3) ∧ 2 ≤ s.time.edges then
            (if ph.toInt.natAbs < 3 then 1 else if ph.toInt.natAbs ≤ 62500000 then 4 else 1)
          else s.time.st)))) ∧
  (∀ s : State, isHead s = true → s.time.src.getLsbD 0 = true → s.time.edges ≠ 0 ∨ s.time.missRun ≠ 0 →
    ∃ s', exec .ppsWindowMissed s = .next s' ∧ s'.time.missed = satAdd 32 s.time.missed 1 ∧ s'.time.missRun = s.time.missRun + 1 ∧
      s'.time.edges = 0 ∧ s'.time.bell = s.time.bell ∧ s'.time.todValid = s.time.todValid ∧
      s'.time.st = (if 1 ≤ s.time.missRun ∧ (s.time.st = 1 ∨ s.time.st = 4) then 3 else s.time.st)) ∧
  (∀ (s : State) (fr : Bytes) (ms : Nat), isHead s = true → s.time.src.getLsbD 1 = true →
    let v := beAt fr 2 6
    (todOk s.time fr ms = false → exec (.todFrame fr ms) s = .next { s with time := { s.time with todValid := false } }) ∧
    (todOk s.time fr ms = true → s.time.st = 0 → exec (.todFrame fr ms) s =
      .next { s with time := { s.time with todValid := true, todSecond := some v } }) ∧
    (todOk s.time fr ms = true → s.time.st ≠ 0 → exec (.todFrame fr ms) s =
      .next (if v = s.time.bell / 1024 + 1 then { s with time := { s.time with todValid := true, mismatch := false } }
        else raise { s with time := { s.time with todValid := true, mismatch := true } } pgTime 3))) ∧
  (∀ s : State, isHead s = true →
    (s.time.st = 0 → exec .timeSet s = .next { s with time := { s.time with
      setPending := some s.time.set, mismatch := false, due := if 0 < s.time.edges then none else some (1024 * s.time.set) } }) ∧
    (s.time.st ≠ 0 → s.time.set ≤ s.time.bell / 1024 → exec .timeSet s = .next (recordWerr s pgTime)) ∧
    (s.time.st ≠ 0 → s.time.bell / 1024 < s.time.set → ∃ s', exec .timeSet s = .next s' ∧
      s'.time.setPending = some s.time.set ∧ s'.time.mismatch = false ∧ s'.time.bell = s.time.bell)) ∧
  (∀ s : State, exec .ppsOutEnd s = .next { s with dev := { s.dev with ppsOut := false } }) ∧
  (∀ s : State, (s.time.src.getLsbD 3 = false ∨ s.time.st = 0 → exec .todTx s = .next s) ∧
    (s.time.src.getLsbD 3 = true → s.time.st ≠ 0 → ∃ b : Bytes, b.length = 10 ∧ beAt b 2 6 = (s.time.bell / 1024 + 1) % 2 ^ 48 ∧
      b.foldl (fun a x => a ^^^ x) 0 = 0 ∧ b.take 2 = [0x54, 0x44] ∧
      exec .todTx s = .next { s with free := s.free + 1, dev := { s.dev with todTx := b } }))

/-- The fourteen link and Promenade commands of the Reel (R323; R324; R325; R326; R328; R332; R333; log 21; log 22;
log 23) -/
def Obligations.ReelLinksTrainFailAndPromenade : Prop :=
  (∀ (s : State) (down : Bool) (cls q : Nat) (cr : List Nat),
    let p := portOf s down
    let hit := p.unacked.any (fun e => e.1 == cls && e.2.1 == q)
    (portUp s down = false → exec (.linkAck down cls q cr) s = .next s ∧ exec (.linkNak down cls q) s = .next s ∧
      exec (.retransmitTimeout down cls) s = .next s) ∧
    (portUp s down = true → p.queue = [] → ∃ s', exec (.linkAck down cls q cr) s = .next s' ∧ portOf s' down = { p with
      unacked := p.unacked.filter (fun e => !(e.1 == cls && e.2.1 == q)), fails := if hit then 0 else p.fails
      credits := (List.range 4).map (fun k => min (fullCredits.getD k 0) (p.credits.getD k 0 + cr.getD k 0))
      high := (List.range 4).map (fun k => min (fullCredits.getD k 0) (p.high.getD k 0 + cr.getD (4 + k) 0)) }) ∧
    (hit = false → exec (.linkNak down cls q) s = .next s) ∧
    (portUp s down = true → hit = true →
      exec (.retransmitTimeout down cls) s = exec (.linkNak down cls q) s ∧
      (p.fails < 15 → exec (.linkNak down cls q) s =
        .next (setPort s down { p with retries := satAdd 32 p.retries 1, fails := p.fails + 1 })) ∧
      (15 ≤ p.fails → exec (.linkNak down cls q) s = exec (.reelLinkDown down) s))) ∧
  (∀ (s : State) (down : Bool), (portOf s down).link = 0 → exec (.reelLinkDown down) s = .next s) ∧
  (∀ (s : State) (down : Bool), (portOf s down).link ≠ 0 → ∃ s', exec (.reelLinkDown down) s = .next s' ∧
    (portOf s' down).link = 0 ∧ (portOf s' down).unacked = [] ∧
    (∀ w, s.vault.awaiting = [w] → s.vault.fences = [] → s.vault.acks < s.vault.wcount →
      (∃ e ∈ (portOf s down).unacked, e.2.2.typ = 6 ∧ e.2.2.src = s.reel.addr ∧ e.2.2.dst = w) → s'.vault.short = true) ∧
    (s.reel.topo ≠ 2 → s'.reel.topo = s.reel.topo ∧ s'.reel.brk = s.reel.brk) ∧
    (s.reel.topo = 1 → linkAt s down ∈ s'.reel.cuts) ∧
    (s.reel.topo = 2 → s'.reel.topo = 3 ∧
      s'.reel.brk = some (if down then s.reel.addr else (s.reel.addr + s.reel.count - 1) % s.reel.count))) ∧
  (∀ (s : State) (dst x : Nat), s.reel.topo = 1 → x ∈ s.reel.cuts → min s.reel.addr dst ≤ x → x < max s.reel.addr dst →
    portTo s dst = none) ∧
  (∀ (s : State) (h : Hdr) (a : Nat),
    (s.reel.count ≤ a → exec (.breakNotice a h) s = .next s) ∧
    (a < s.reel.count → heard (noteBreak s a) h 0 = none → exec (.breakNotice a h) s = .next (hears s h 0).1) ∧
    (∀ s1, a < s.reel.count → heard (noteBreak s a) h 0 = some s1 → ∃ s', exec (.breakNotice a h) s = .next s' ∧
      s' = relay s1 0x08 h.src (leBytes 2 a) (cameBy s1 h) ∧ (s.reel.topo = 1 → a ∈ s'.reel.cuts) ∧ (s.reel.topo = 2 → s'.reel.topo = 3 ∧ s'.reel.brk = some a) ∧
      (s.reel.topo ≠ 2 → s'.reel.topo = s.reel.topo ∧ s'.reel.brk = s.reel.brk))) ∧
  (∀ (s : State) (down bad : Bool) (cls q : Nat), exec (.reelPortDrop down bad cls q) s = .next (if portUp s down then setPort s down
    { portOf s down with
      drops := satAdd 32 (portOf s down).drops 1, naks := (portOf s down).naks + (if bad then 1 else 0)
      lastNak := if bad then some (cls, q) else (portOf s down).lastNak } else s)) ∧
  (∀ (s : State) (down : Bool) (l : Nat),
    let p := portOf s down
    (p.rx.getD l 2 = 2 ∨ portEnabled s down = false → exec (.reelLaneRetire down l) s = .next s) ∧
    (portEnabled s down = true → p.rx = [1, 1, 0] → ∃ s', exec (.reelLaneRetire down 2) s = .next s' ∧
      (portOf s' down).rx = [1, 1, 2] ∧ (portOf s' down).link = p.link) ∧
    (portEnabled s down = true → l ≤ 1 → p.rx = [1, 1, 0] → ∃ s', exec (.reelLaneRetire down l) s = .next s' ∧
      (portOf s' down).rx = [1, 1, 1].set l 2 ∧ (portOf s' down).link = p.link) ∧
    (portEnabled s down = true → p.rx = [2, 2, 2].set l 1 → l ≤ 2 → ∃ s', exec (.reelLaneRetire down l) s = .next s' ∧
      (portOf s' down).rx = [2, 2, 2] ∧ (portOf s' down).link = 0)) ∧
  (∀ (s : State) (down : Bool) (q l : Nat),
    let p := portOf s down
    let z := hop s down 0 q
    (z.2 = false ∨ p.lanes.getD l 2 = 2 → exec (.laneSwap down l q) s = .next z.1) ∧
    (z.2 = true → p.lanes = [1, 1, 0] → ∃ s', exec (.laneSwap down 2 q) s = .next s' ∧
      (portOf s' down).lanes = [1, 1, 2] ∧ (portOf s' down).link = p.link) ∧
    (z.2 = true → l ≤ 1 → p.lanes = [1, 1, 0] → ∃ s', exec (.laneSwap down l q) s = .next s' ∧
      (portOf s' down).lanes = [1, 1, 1].set l 2 ∧ (portOf s' down).link = p.link) ∧
    (z.2 = true → p.lanes = [2, 2, 2].set l 1 → l ≤ 2 → ∃ s', exec (.laneSwap down l q) s = .next s' ∧
      (portOf s' down).lanes = [2, 2, 2] ∧ (portOf s' down).link = 0)) ∧
  (∀ (s : State) (down : Bool) (rt : Nat),
    let p := portOf s down
    let d := (p.echoes ++ [rt]).sum / 32
    (portEnabled s down = false ∨ p.link = 0 → exec (.delayEcho down rt) s = .next s) ∧
    (portEnabled s down = true → p.link ≠ 0 → p.echoes.length < 15 → exec (.delayEcho down rt) s =
      .next (setPort s down { p with echoes := p.echoes ++ [rt] })) ∧
    (portEnabled s down = true → p.link ≠ 0 → p.echoes.length = 15 → ∃ s', exec (.delayEcho down rt) s = .next s' ∧
      (portOf s' down).delay = min d 65535 ∧ (portOf s' down).echoes = [] ∧ (portOf s' down).link = if 6000 < d then 0 else p.link)) ∧
  (∀ (s : State) (down : Bool),
    let p := portOf s down
    (portEnabled s down = false ∨ p.link = 2 ∨ 1 ∉ p.rx ∨ 1 ∉ p.lanes → exec (.reelLinkUp down) s = .next s) ∧
    (portEnabled s down = true → p.link ≠ 2 → 1 ∈ p.rx → 1 ∈ p.lanes → ∃ s', exec (.reelLinkUp down) s = .next s' ∧
      (portOf s' down).link = 2 ∧
      (let x := if down then s.reel.addr else (s.reel.addr + s.reel.count - 1) % s.reel.count
       let rest := s.reel.cuts.filter (· != x)
       (s.reel.addressed = true → s.reel.topo = 3 → s.reel.brk = some x →
         s'.reel.topo = (if rest = [] then 2 else 3) ∧ s'.reel.brk = rest.head?) ∧
       (s.reel.addressed = true → s.reel.topo = 1 → s'.reel.cuts = rest)))) ∧
  (∀ s : State, (s.reel.role ≠ 1 → exec .reelCtrlPromenade s = .next (recordWerr s pgReel)) ∧
    (s.reel.role = 1 → ∃ s', exec .reelCtrlPromenade s = .next s' ∧ s'.reel.addr = 0 ∧ s'.reel.mbox = [] ∧ s'.reel.order = none ∧
      s'.reel.session = none ∧ s'.time = s.time ∧
      (portUp s true = false → s'.reel.count = 1 ∧ s'.reel.topo = 1 ∧ s'.reel.addressed = true))) ∧
  (∀ (s : State) (q a d : Nat),
    let run := exec (.promenade a d [] q) s
    let new := portUp s false = true ∧ s.reel.up.place 0 q ≠ 1
    (¬ new → run = .next (hop s false 0 q).1) ∧
    (new → s.reel.role ≠ 1 → a = 0 → run = .next s) ∧
    (new → s.reel.role ≠ 1 → 1000 ≤ a → ∃ s', run = .next s' ∧ s'.reel.addressed = false ∧ s'.reel.mbox = [] ∧ s'.reel.session = none) ∧
    (new → s.reel.role ≠ 1 → 0 < a → a < 1000 → ∃ s', run = .next s' ∧
      s'.reel.addr = a ∧ s'.reel.mbox = [] ∧ s'.reel.order = none ∧ s'.reel.session = none ∧ s'.time = (if s.reel.addressed then
        { s.time with newDelay := some (d + s.reel.up.delay) } else { s.time with delay := d + s.reel.up.delay })) ∧
    (new → s.reel.role = 1 → ¬ (s.reel.closed = true ∧ s.reel.walking = true) → ∃ s', run = .next s' ∧
      s'.reel.conflict = true ∧ s'.reel.addr = s.reel.addr ∧ s'.reel.count = s.reel.count) ∧
    (new → s.reel.role = 1 → s.reel.closed = true → s.reel.walking = true → ∃ s', run = .next s' ∧ s'.reel.walking = false ∧
      s'.reel.count = min a 1000 ∧ s'.reel.topo = (if a ≤ 1000 ∧ 3 ≤ a then 2 else 1) ∧ s'.reel.overflow = decide (1000 < a))) ∧
  (∀ (s : State) (q n : Nat),
    let z := hop s true 0 q
    let m := if n = 0 then s.reel.addr + 1 else n
    (z.2 = false → exec (.promenadeEnd n q) s = .next z.1) ∧
    (z.2 = true → s.reel.role = 1 → s.reel.walking = false → exec (.promenadeEnd n q) s = .next z.1) ∧
    (z.2 = true → s.reel.role = 1 → s.reel.walking = true → ∃ s', exec (.promenadeEnd n q) s = .next s' ∧ s'.reel.count = min m 1000 ∧
      s'.reel.topo = 1 ∧ s'.reel.addressed = true ∧ s'.reel.overflow = decide (1000 < m) ∧ (n = 0 → s'.reel.conflict = true)) ∧
    (z.2 = true → s.reel.role ≠ 1 → ∃ s', exec (.promenadeEnd n q) s = .next s' ∧ s'.reel.count = s.reel.count ∧
      s'.reel.topo = s.reel.topo ∧ s'.time = s.time ∧ (n = 0 → s'.reel.conflict = true))) ∧
  (∀ (s : State) (q n topo b : Nat),
    let ok := s.reel.role % 2 ≠ 1 ∧ 0 < s.reel.addr ∧ s.reel.addr < n ∧ n ≤ 1000 ∧ 1 ≤ topo ∧ topo ≤ 3
    let z := heard (setTopology s n topo (if topo = 3 then some b else none)) { src := 0, dst := 0xFFFF, seq := q } 0
    (¬ ok → exec (.topology n topo b q) s = .next s) ∧
    (ok → z = none → exec (.topology n topo b q) s = .next (hears s { src := 0, dst := 0xFFFF, seq := q } 0).1) ∧
    (ok → z ≠ none → ∃ s', exec (.topology n topo b q) s = .next s' ∧ s'.reel.count = n ∧ s'.reel.topo = topo ∧
      s'.reel.addressed = true ∧ s'.reel.brk = if topo = 3 then some b else none)) ∧
  (∀ (s : State) (q n topo b src : Nat), src ≠ 0 →
    let h : Hdr := { src := src, dst := 0xFFFF, seq := q }
    (n ≠ s.reel.count → exec (.topology n topo b q src) s = .next s) ∧
    (n = s.reel.count → heard (noteMend s b) h 0 = none → exec (.topology n topo b q src) s = .next (hears s h 0).1) ∧
    (∀ s1, n = s.reel.count → heard (noteMend s b) h 0 = some s1 → ∃ s', exec (.topology n topo b q src) s = .next s' ∧
      s' = relay s1 0x03 src (leBytes 2 n ++ leBytes 1 topo ++ leBytes 2 b) (cameBy s1 h) ∧
      (s.reel.topo = 3 → s.reel.brk = some b → s.reel.cuts.filter (· != b) = [] → s'.reel.topo = 2 ∧ s'.reel.brk = none)))

/-- REEL_SEND, mailbox words, snapshot orders and their answers, and domain cloning (R333; R346; R347; R348; R349;
R350; R351; R352; log 23; log 30) -/
def Obligations.ReelWordsSnapshotsAndClones : Prop :=
  (∀ (s₀ : State) (t c : Nat),
    let s := pastYield s₀ t c
    let d := workDesc s t c
    let dst := leAt d 64 2
    let bell := leAt d 64 8
    let k := (s.ctx t c).call.getD {}
    (atFigure s₀ t c 0x0D02 = true →
      (portTo s dst = none → exec (.reelSend t c .none) s₀ = .next (finishCall s t c stReelUnreach 39 0 [])) ∧
      (portTo s dst ≠ none → hasCredit s 1 dst = false → exec (.reelSend t c .none) s₀ = .next (setNeeds s t c [.credit 1])) ∧
      (portTo s dst ≠ none → hasCredit s 1 dst = true → exec (.reelSend t c .none) s₀ =
        .next (finishCall (sendTo s 1 0x10 dst (sub d 68 4 ++ zeros 4)) t c stOk 36 0 []))) ∧
    (atFigure s₀ t c 0x0D03 = true →
      (hasCredit s 0 0xFFFF = false → exec (.reelSnapshot t c .none) s₀ = .next (setNeeds s t c [.credit 0])) ∧
      (hasCredit s 0 0xFFFF = true →
        let s0 : State := { s with reel := { s.reel with gathering := true, snapDone := false, issued := bell, acks := [], sets := [] } }
        exec (.reelSnapshot t c .none) s₀ = .next (finishCall (broadcast (takeOrder s0 bell s.reel.addr) 0x07
          (leBytes 8 bell ++ leBytes 2 s.reel.addr)) t c stOk 37 0 (leBytes 8 bell)))) ∧
    (atFigure s₀ t c 0x0D01 = true → (s.ctx t c).work.phase = 9 →
      exec (.reelCloneDomain t c .none) s₀ = .next (finishFree s t c stReelUnreach [])) ∧
    (atFigure s₀ t c 0x0D01 = true → (s.ctx t c).work.phase = 0 → (s.ctx t c).work.sp = 0 →
      (∀ st, cloneParams s k d = some st → exec (.reelCloneDomain t c .none) s₀ = .next (finishCall s t c st 39 0 [])) ∧
      (cloneParams s k d = none → ∃ s', exec (.reelCloneDomain t c .none) s₀ = .next s' ∧ s'.dome = s.dome ∧ s'.cus.cer = s.cus.cer)) ∧
    (atFigure s₀ t c 0x0D01 = true → (s.ctx t c).work.phase = 3 → cloneCeremony s k d = none →
      let b := (s.ctx t c).work.blob
      byteAt b 0 = 0 → sub b 2 3 = kcvAes ((cloneDmk s d).getD []) → exec (.reelCloneDomain t c .none) s₀ =
        .next (if cerOf s t c = none then s else finishFree (closeCer s t c 6) t c stOk (sub b 2 3 ++ sub b 1 1))) ∧
    (firstNeed s₀ t c ≠ some .reel ∨ (s₀.ctx t c).age < 2 ^ 30 → exec (.reelReplyTimeout t c) s₀ = .next s₀) ∧
    (firstNeed s₀ t c = some .reel → 2 ^ 30 ≤ (s₀.ctx t c).age → exec (.reelReplyTimeout t c) s₀ =
      .next (if opOf (workDesc s₀ t c) = 0x0A03 then sealWaiters (s₀.vault.awaiting.foldl (witnessAnswer false) s₀) else finishFree s₀ t c stReelUnreach []))) ∧
  (∀ (s : State) (b i : Nat),
    (takeOrder s b i).time = s.time ∧ (takeOrder s b i).mtr = s.mtr ∧
    (timeKnown s = true ∧ b ≤ s.time.bell → (takeOrder s b i).reel.order = s.reel.order ∧ (takeOrder s b i).reel.localLate = true) ∧
    (¬ (timeKnown s = true ∧ b ≤ s.time.bell) →
      (s.reel.order = none → (takeOrder s b i).reel.order = some (b, [i]) ∧ (takeOrder s b i).reel.snapBell = b) ∧
      (∀ l, s.reel.order = some (b, l) → (takeOrder s b i).reel.order = some (b, if i ∈ l then l else l ++ [i])) ∧
      (∀ x l, s.reel.order = some (x, l) → x ≠ b → (takeOrder s b i).reel.order = s.reel.order))) ∧
  (∀ (s : State) (h : Hdr) (b n k i : Nat) (v : Word) (pl : Bytes),
    ∀ e ∈ ([(.reelWord h v, 1, 0x10, leBytes 4 v.toNat ++ zeros 4), (.snapOrder b i h, 0, 0x07, leBytes 8 b ++ leBytes 2 i),
        (.snapAck h b n, 3, 0x33, leBytes 8 b ++ leBytes 1 n), (.setAck h b n k, 3, 0x34, leBytes 8 b ++ leBytes 1 n ++ leBytes 1 k),
        (.cloneHello h pl, 2, 0x22, pl), (.cloneReply h pl, 2, 0x23, pl), (.cloneKey h pl, 2, 0x24, pl), (.cloneDone h pl, 2, 0x25, pl),
        (.witnessAck h n k, 3, 0x32, leBytes 2 n ++ leBytes 8 k), (.peerQuery h pl, 0, 0x09, pl), (.peerReply h pl, 3, 0x35, pl),
        (.handoffPage h pl, 2, 0x20, pl), (.handoffDesc h pl, 2, 0x21, pl)] : List (Instr × Nat × Nat × Bytes)),
      (heard s h e.2.1 = none → exec e.1 s = .next (hears s h e.2.1).1) ∧
      (∀ s1, heard s h e.2.1 = some s1 → h.dst ≠ s1.reel.addr → h.dst ≠ 0xFFFF →
        exec e.1 s = .next (forward s1 h e.2.1 e.2.2.1 e.2.2.2))) ∧
  (∀ (s s1 : State) (h : Hdr) (b n k : Nat) (v : Word) (pl : Bytes),
    let src := h.src
    let here := fun (cls : Nat) => heard s h cls = some s1 ∧ h.dst = s1.reel.addr
    (∀ w f dr, here 1 → tblGet ((0 : Word), false, 0) s1.reel.mbox src = (w, f, dr) →
      let put := fun e => { s1 with reel := { s1.reel with mbox := tblSet ((0 : Word), false, 0) s1.reel.mbox src e } }
      exec (.reelWord h v) s = .next (if f then put (w, true, satAdd 8 dr 1) else raise (put (v, true, dr)) pgReel 1)) ∧
    (heard s h 0 = some s1 → h.dst = 0xFFFF → s1.reel.addr ≠ 0xFFFF → exec (.snapOrder b n h) s =
      .next (takeOrder (relay s1 0x07 src (leBytes 8 b ++ leBytes 2 n) (cameBy s1 h)) b n)) ∧
    (here 3 → s1.reel.addr % 8 ≠ 0 ∨ 8 * (src / 8) ≠ s1.reel.addr → exec (.snapAck h b n) s = .next s1) ∧
    (here 3 → s1.reel.addr % 8 = 0 → 8 * (src / 8) = s1.reel.addr → ∃ s', exec (.snapAck h b n) s = .next s' ∧
      s'.reel.order = s.reel.order ∧ s'.mtr = s.mtr ∧ s'.time = s.time) ∧
    (here 3 → s.reel.gathering = false ∨ s.reel.issued ≠ b ∨ src / 8 ∈ s.reel.sets → exec (.setAck h b n k) s = .next s1) ∧
    (here 3 → n + k < 256 → src % 8 = 0 → s.reel.gathering = true → s.reel.issued = b → src / 8 ∉ s.reel.sets →
      ∃ s', exec (.setAck h b n k) s = .next s' ∧ s'.reel.sets = s.reel.sets ++ [src / 8] ∧
        s'.reel.gathering = decide (s.reel.sets.length + 1 < ceilDiv s.reel.count 8) ∧
        (∀ a ∈ s'.reel.acks, a ∈ s.reel.acks ∨ (8 * (src / 8) ≤ a ∧ a < 8 * (src / 8) + 8))) ∧
    (here 2 → s.reel.session ≠ none → exec (.cloneHello h pl) s = .next s1) ∧
    (here 2 → s.reel.session = none → receiveCer s = none → exec (.cloneHello h pl) s = .next (sendTo s1 2 0x23 src [1])) ∧
    (here 2 → s.reel.session = none → ∃ s', exec (.cloneHello h pl) s = .next s' ∧ s'.dome = s.dome) ∧
    (here 2 → (∀ x, s.reel.session = some x → x.src ≠ src) → exec (.cloneKey h pl) s = .next s1) ∧
    (∀ x, here 2 → s.reel.session = some x → x.src = src → ∃ s', exec (.cloneKey h pl) s = .next s' ∧ s'.reel.session = none ∧
      (s.dome.cur ≠ none → s'.dome.cur = s.dome.cur) ∧ (cloneUnwrap s1 x pl = none → s'.dome = s.dome)) ∧
    (here 2 → cloneCtx s1 src 3 = none → exec (.cloneDone h pl) s = .next s1) ∧
    (∀ t c, here 2 → cloneCtx s1 src 3 = some (t, c) → exec (.cloneDone h pl) s =
      .next (popNeed (modWork s1 t c (fun w => { w with blob := pl })) t c)) ∧
    (∀ t c, here 2 → cloneCtx s1 src 1 = some (t, c) → exec (.cloneReply h pl) s =
      .next (popNeed (modWork s1 t c (fun w => { w with blob := pl })) t c))) ∧
  (∀ (s : State) (b : Nat),
    (timeKnown s = false ∨ s.time.bell < b + 64 → exec (.setGatherTimeout b) s = .next s) ∧
    (timeKnown s = true → b + 64 ≤ s.time.bell → ∃ s', exec (.setGatherTimeout b) s = .next s' ∧
      (∀ g ∈ s'.reel.gather, g.1 ≠ b) ∧ s'.reel.order = s.reel.order)) ∧
  (∀ s : State,
    exec .snapDoneTimeout s = .next (if s.reel.gathering = true ∧ timeKnown s = true ∧ s.reel.issued + 128 ≤ s.time.bell then
      raise { s with reel := { s.reel with
        gathering := false, snapDone := true, notCaptured := s.reel.count - s.reel.acks.length } } pgReel 5 else s) ∧
    exec .cloneSessionExpiry s = .next (if s.reel.session.any (fun x => decide (x.last + 8 ≤ s.time.bell / 1024)) then
      { s with reel := { s.reel with session := none } } else s))

/-- The fold, the interval's close, the tariff's switch, statements and snapshot banks (R347; R355; R358; R359; R360;
R361; R362; R363; R365; R368; R370; log 24) -/
def Obligations.SecondsFoldCloseAndReprice : Prop :=
  let len := fun (s : State) => max 1 s.dome.ledger.len
  let word := fun (s : State) (n : Nat) => tblGet ({} : LedgerWord) s.dome.ledger.openW n
  let gain := fun (s : State) (n i : Nat) => (tblGet 0 s.mtr.tally (16 * n + i) + 2 ^ 64 - tblGet 0 s.mtr.folded (16 * n + i)) % 2 ^ 64
  let folded := fun (s : State) (sec n : Nat) => ({
    cost := satAdd 40 (word s n).cost (((List.range 16).map (fun i => gain s n i * s.dome.ledger.active.getD i 0)).sum)
    peak := min (max (word s n).peak (gain s n 0)) (2 ^ 23 - 1), par := sec % 2 == 1 } : LedgerWord)
  let may := fun (s : State) => ∀ o ∈ ledgerPages, intRefusal s 6 true (0x20004000 + o) = none
  (∀ (s : State) (l : Ledger), (may s → s.putLedger l = { s with dome := { s.dome with ledger := l } }) ∧
    (intRefusal s 6 true 0x20004000 ≠ none → (s.putLedger l).dome.ledger.at_ = s.dome.ledger.at_ ∧
      (s.putLedger l).dome.ledger.active = s.dome.ledger.active ∧ (s.putLedger l).dome.ledger.commit = s.dome.ledger.commit)) ∧
  (∀ (s : State) (sec n : Nat), may s → n < 1024 → word (foldSecond s sec) n = folded s sec n) ∧
  (∀ (s : State) (sec : Nat), (foldSecond s sec).mtr.folded = s.mtr.tally ∧ (may s → (foldSecond s sec).dome.ledger.commit = sec ∧
    (foldSecond s sec).dome.ledger.begin_ = sec)) ∧
  (∀ (s : State) (sec x : Nat), may s → s.mtr.recovering = false → s.dome.ledger.open_ = true → s.mtr.lastSecond = some x →
    let l := s.dome.ledger
    let s' := mtrSecond s sec
    s'.mtr.lastSecond = some sec ∧
    (l.at_ = none → sec / len s * len s ≤ x → s'.dome.ledger.openStart = l.openStart ∧ s'.dome.ledger.closedW = l.closedW ∧
      s'.dome.ledger.closedStart = l.closedStart ∧ (∀ n, n < 1024 → word s' n = folded s (sec - 1) n)) ∧
    (x < sec / len s * len s → s'.dome.ledger.openStart = sec ∧ s'.dome.ledger.closedStart = l.openStart ∧
      s'.dome.ledger.closedLen = min (sec - l.openStart) (2 ^ 32 - 1) ∧ s'.dome.ledger.closedFlags = l.openFlags ∧
      s'.dome.ledger.everClosed = true ∧ s'.dome.ledger.open_ = true ∧ s'.mtr.openTot = some [] ∧
      (∀ n, n < 1024 → tblGet ({} : LedgerWord) s'.dome.ledger.closedW n = { folded s (sec - 1) n with par := false }) ∧
      (l.at_ = none → s'.mtr.lateSwitches = s.mtr.lateSwitches ∧
        s'.time.late = if sec % len s = 0 then s.time.late else satAdd 32 s.time.late 1) ∧
      ((s.head pgMtr).commit = false → l.at_ = none → s'.dome.ledger.openFlags = if sec % len s = 0 then 0 else 4))) ∧
  (∀ (s : State) (sec : Nat), may s → s.mtr.recovering = true → s.dome.ledger.open_ = true ∨ s.dome.ledger.closedCommit ≠ s.dome.ledger.closedStart →
    let l := s.dome.ledger
    let s' := mtrSecond s sec
    s'.mtr.recovering = false ∧ s'.dome.ledger.closedStart = l.openStart ∧ s'.dome.ledger.closedCommit = l.openStart ∧
    s'.dome.ledger.closedFlags = l.openFlags ||| 1 ∧ s'.dome.ledger.closedLen = min (l.begin_ + 1 - l.openStart) (2 ^ 32 - 1) ∧
    s'.dome.ledger.open_ = true ∧ s'.dome.ledger.openStart = sec) ∧
  (∀ (s : State) (sec : Nat), may s → s.mtr.recovering = false → s.dome.ledger.open_ = false →
    let s' := mtrSecond s sec
    s'.dome.ledger.open_ = true ∧ s'.dome.ledger.openStart = sec ∧ s'.mtr.openTot = some [] ∧
    s'.dome.ledger.closedW = s.dome.ledger.closedW ∧ (∀ n, word s' n = {}) ∧
    s'.dome.ledger.openFlags = if s.dome.ledger.at_.any (fun a => decide (a < sec)) then 6 else 4) ∧
  (∀ (s : State) (sec : Nat),
    let l := s.dome.ledger
    (∀ a, may s → l.at_ = some a → a ≤ sec →
      let l' := (applySwitch s sec).dome.ledger
      l'.active = l.pending ∧ l'.activeId = l.pendingId ∧ l'.at_ = none ∧ l'.pending = l.pending ∧
      (applySwitch s sec).mtr.lateSwitches = (if a < sec then satAdd 32 s.mtr.lateSwitches 1 else s.mtr.lateSwitches) ∧
      (applySwitch s sec).time.late = if a < sec then satAdd 32 s.time.late 1 else s.time.late) ∧
    ((∀ a, l.at_ = some a → sec < a) → applySwitch s sec = s)) ∧
  (∀ s : State,
    let l := s.dome.ledger
    let lock := (s.head pgMtr).lock.getLsbD 0
    (pageShut s pgMtr = true → exec .tariffArm s = .next s ∧ exec .tariffCancel s = .next s) ∧
    (pageShut s pgMtr = false →
      exec .tariffArm s = .next (if (lock = true ∧ l.at_ = none) ∨ s.time.st = 0 ∨ s.mtr.at_ ≤ s.time.bell / 1024 then recordWerr s pgMtr
        else s.putLedger { l with at_ := some s.mtr.at_ }) ∧
      exec .tariffCancel s = .next (if lock = true ∧ l.at_ ≠ none then recordWerr s pgMtr
        else s.putLedger { l with at_ := none })) ∧
    exec .tariffSwitch s = .next (if s.time.st = 0 then s else applySwitch s (s.time.bell / 1024)) ∧
    exec .intervalClose s = .next (if s.time.st ≠ 0 ∧ s.time.bell % 1024 = 0 ∧ s.mtr.lastSecond ≠ some (s.time.bell / 1024) then
      mtrSecond s (s.time.bell / 1024) else s) ∧
    (s.time.st = 0 ∨ (∀ b is, s.reel.order = some (b, is) → s.time.bell < b) → exec .snapshotCapture s = .next s) ∧
    (∀ b is, s.time.st ≠ 0 → s.reel.order = some (b, is) → b ≤ s.time.bell → ∃ s', exec .snapshotCapture s = .next s' ∧
      s'.reel.order = none ∧ s'.mtr = { s.mtr with hidden := some (b, s.mtr.tally) } ∧ s'.time = s.time) ∧
    (s.mtr.hidden = none → exec .snapBankSwap s = .next s) ∧
    (∀ b t, s.mtr.hidden = some (b, t) → exec .snapBankSwap s = .next (raise { s with mtr := { s.mtr with
      snap := t, snapBell := b, snapSeq := (s.mtr.snapSeq + 1) % 2 ^ 32, hidden := none } } pgMtr 4))) ∧
  (∀ (s₀ : State) (t c : Nat) (sg : Bytes), atFigure s₀ t c 0x0B02 = true →
    let s := pastYield s₀ t c
    let body := (s.ctx t c).work.keep
    let w := writeOut (spCall s t c ecSignProg (dikOps s body (drawnOf s t c)) 94624 false) t c (body ++ sg)
    (dikSign s body (drawnOf s t c) = some sg → exec (.tallyStatement t c .none) s₀ =
      .next (if w.2 then finishCall w.1 t c stOk 94716 94624 [] else w.1)) ∧
    (dikSign s body (drawnOf s t c) = none → exec (.tallyStatement t c .none) s₀ = .next (deviceFault s t c))) ∧
  (∀ (s : State) (t c : Nat) (k : Call) (ks : List KeyRec), t < s.towers.length → c < (s.tower t).ctxs.length →
    opOf (workDesc s t c) = 0x0B02 → formOf (workDesc s t c) = 2 → (s.ctx t c).claim = none → carries s t c = false →
    paramFault (s.setCtx t c { s.ctx t c with keysOk := true }) k (workDesc s t c) ks = none → listWhole (s.ctx t c).work.listRaw = false →
    let b := ((keysPassed s t c k ks).ctx t c).work.keep
    b = statementBody s k.fn (workDesc s t c) ∧ ((workDesc s t c).length = 128 → b.length = 224))

/-- Host pieces and internal accesses are judged by the lowest matching entry; a refusal is logged and freezes a TF
(R373; R374; R375; R376; R377; R379; R380; R384; R387; R390) -/
def Obligations.RegionsJudgeEachAccess : Prop :=
  (∀ (addr len : Nat), ((pieces addr len).map (·.2)).sum = len ∧
    (∀ p ∈ pieces addr len, 0 < p.2 ∧ p.1 / 4096 = (p.1 + p.2 - 1) / 4096 ∧ addr ≤ p.1 ∧ p.1 + p.2 ≤ addr + len) ∧
    ∀ i, i + 1 < (pieces addr len).length → ((pieces addr len).getD i (0, 0)).1 + ((pieces addr len).getD i (0, 0)).2 =
      ((pieces addr len).getD (i + 1) (0, 0)).1) ∧
  (∀ (r : RegionH) (a : Nat), r.matches a = true ↔ (r.valid = true ∧ r.base ≤ a ∧ a < r.base + 2 ^ (15 + r.size) ∧
    Nat.testBit r.subDis ((a - r.base) / 2 ^ (12 + r.size)) = false)) ∧
  (∀ (s : State) (fn a : Nat) (w : Bool),
    (∀ e, e < 8 → (regionH s fn e).matches a = true → (∀ j, j < e → (regionH s fn j).matches a = false) →
      hostRefusal s fn w a = if (if w then (regionH s fn e).wr else (regionH s fn e).rd) then none else some 1) ∧
    ((∀ e, e < 8 → (regionH s fn e).matches a = false) → hostRefusal s fn w a = if fn = 0xFFFF then none else some 0) ∧
    (hostRefusal s fn w a = none → hostCheck s fn w a = (s, true)) ∧
    (∀ k, hostRefusal s fn w a = some k →
      let s' := (hostCheck s fn w a).1
      (hostCheck s fn w a).2 = false ∧ s'.sup.total = satAdd 32 s.sup.total 1 ∧ s'.host = s.host ∧ s'.towers = s.towers ∧
      (s.sup.log.length < 16 → s'.sup.log = s.sup.log ++ [[BitVec.ofNat 32 (4 + 16 * k + 256 * flag w + 512 + 65536 * fn),
        BitVec.ofNat 32 (a % 2 ^ 32), BitVec.ofNat 32 (a / 2 ^ 32), BitVec.ofNat 32 (bellLow s)]] ∧ s'.sup.lost = s.sup.lost) ∧
      (16 ≤ s.sup.log.length → s'.sup.log = s.sup.log ∧ s'.sup.lost = satAdd 32 s.sup.lost 1) ∧
      (fn ≠ 0xFFFF → tblWf {} s.hif.tfs = true → (s'.tf fn).frozen = true ∧ { s'.tf fn with frozen := (s.tf fn).frozen, msix := (s.tf fn).msix } = s.tf fn))) ∧
  (∀ s : State, regionH s 9 0 = { base := 0x1234000000, size := 11, subDis := 0x80, rd := true, wr := true, valid := true } →
    (∀ e, 0 < e → e < 8 → (regionH s 9 e).valid = false) →
    pieces 0x12377FF800 4096 = [(0x12377FF800, 0x800), (0x1237800000, 0x800)] ∧ hostRefusal s 9 false 0x12377FF800 = none ∧
    hostRefusal s 9 false 0x1237800000 = some 0 ∧
    (s.sup.log = [] → ((hostCheck s 9 false 0x1237800000).1.sup.log.getD 0 []).take 3 = [0x00090204, 0x37800000, 0x00000012])) ∧
  (∀ (s : State) (i a : Nat) (w : Bool),
    (targetOf a = none → intRefusal s i w a = some 5) ∧
    (∀ t, targetOf a = some t → defaultMap i a t = false → intRefusal s i w a = some 0) ∧
    (∀ t, targetOf a = some t → defaultMap i a t = true →
      ((∀ e, e < 16 → (tblGet ({} : RegionI) s.acu.int e).matches i a = false) → intRefusal s i w a = none) ∧
      (∀ e, e < 16 → (tblGet ({} : RegionI) s.acu.int e).matches i a = true →
        (∀ j, j < e → (tblGet ({} : RegionI) s.acu.int j).matches i a = false) → intRefusal s i w a =
          if (if w then (tblGet ({} : RegionI) s.acu.int e).wr else (tblGet ({} : RegionI) s.acu.int e).rd) then none else some 1)))

/-- REGISTER_WRITE, LOW_HALF_READ, the head's commands, ACU_ENTRY_WRITE, ARB_COMMIT and the supervisor's commands (R7;
R9; R11; R12; R13; R310; R373; R382; R385; R387; R393; log 124) -/
def Obligations.RegisterAccessesObeyTheirRules : Prop :=
  (∀ (s : State) (p v : Nat), isBlock p = true → pageShut s p = false → v < 2 ^ 32 →
    (∀ o, o < 4096 → intRefusal s 1 true (4096 * p + o) = none) →
    let h := s.head p
    let w := BitVec.ofNat 32 v
    exec (.registerWrite 0xFFFF (4096 * p + 0x014) 32 v) s = .next (putHead s p { h with irqEnable := w &&& BitVec.ofNat 32 (irqMask p) }) ∧
    exec (.registerWrite 0xFFFF (4096 * p + 0x010) 32 v) s = .next (putHead s p { h with irqStatus := h.irqStatus &&& ~~~w }) ∧
    exec (.registerWrite 0xFFFF (4096 * p + 0x00C) 32 v) s = .next (putHead s p { h with werr := h.werr && !w.getLsbD 0 }) ∧
    exec (.registerWrite 0xFFFF (4096 * p + 0x01C) 32 v) s = .next (putHead s p { h with lock := h.lock ||| (w &&& BitVec.ofNat 32 (lockMask p)) }) ∧
    (∀ o, o = 0x000 ∨ o = 0x004 ∨ o = 0x024 → exec (.registerWrite 0xFFFF (4096 * p + o) 32 v) s = .next s) ∧
    (∀ o width x, o < 4096 → (o % 4 ≠ 0 ∨ (width ≠ 32 ∧ (width ≠ 64 ∨ o % 8 ≠ 0 ∨ isLow 0xFFFF (4096 * p + o) = false))) →
      exec (.registerWrite 0xFFFF (4096 * p + o) width x) s =
        .next (putHead s p { h with werr := true, werrCount := satAdd 32 h.werrCount 1, irqStatus := h.irqStatus ||| 1 }))) ∧
  (∀ (s : State) (v : Nat), v < 2 ^ 32 → s.dev.ready = true → intRefusal s 1 true 0x2054 = none → intRefusal s 1 true 0x0058 = none →
    (exec (.registerWrite 0xFFFF 0x2054 32 v) s = .next
      (if 18 ≤ v % 32 then recordWerr s 2 else { s with pwr := { s.pwr with tjSel := v % 32 } })) ∧
    (((s.head 0).lock.getLsbD 0 = false ∨ s.dev.tnOut = BitVec.ofNat 4 v) → exec (.registerWrite 0xFFFF 0x0058 32 v) s =
      .next { s with dev := { s.dev with tnOut := BitVec.ofNat 4 v } }) ∧
    ((s.head 0).lock.getLsbD 0 = true → s.dev.tnOut ≠ BitVec.ofNat 4 v → exec (.registerWrite 0xFFFF 0x0058 32 v) s = .next (recordWerr s 0))) ∧
  (∀ (s : State) (n a width v : Nat), n < s.hif.numTf → n < 1024 → s.dev.ready = true → a < 0x4000 →
    (tfListed a = false → exec (.registerWrite n a width v) s = .next s) ∧
    (tfListed a = true → (s.tf n).frozen = false → (a % 4 ≠ 0 ∨ (width ≠ 32 ∧ (width ≠ 64 ∨ a % 8 ≠ 0 ∨ isLow n a = false))) →
      exec (.registerWrite n a width v) s = .next (recordWerr { s with hif := { s.hif with werrLast := some n } } 14))) ∧
  (∀ (s : State) (a w v k : Nat), a < 2 ^ 26 →
    (intRefusal s 1 true a = some k → exec (.registerWrite 0xFFFF a w v) s =
      .next (logViolation s 1 k true false 0xFFFF (a % 2 ^ 32) (a / 2 ^ 32))) ∧
    (intRefusal s 1 false a = some k → ∃ s', exec (.lowHalfRead 0xFFFF a w) s = .next s' ∧ s'.smb.readData = 0 ∧
      s'.sup.total = satAdd 32 s.sup.total 1 ∧ s'.towers = s.towers ∧ s'.keep = s.keep)) ∧
  (∀ (s : State) (fn a : Nat) (w v : Nat), fnExists s fn = false →
    (fn ≠ 0xFFFE ∨ (s.lcs.st ≠ 1 ∧ s.lcs.st ≠ 4) ∨ s.dev.tnPhase ≠ 3 ∨ 2 ^ 26 ≤ a →
      exec (.registerWrite fn a w v) s = .next s ∧ exec (.lowHalfRead fn a w) s = .next { s with smb := { s.smb with readData := 0 } }) ∧
    (fn = 0xFFFE → (s.lcs.st = 1 ∨ s.lcs.st = 4) → s.dev.tnPhase = 3 → a < 2 ^ 26 →
      exec (.lowHalfRead fn a w) s = .next (portRead s 0xFFFF a w) ∧
      (intRefusal s 1 false a = none → exec (.lowHalfRead fn a w) s = exec (.lowHalfRead 0xFFFF a w) s) ∧
      (intRefusal s 1 true a = none → exec (.registerWrite fn a w v) s = exec (.registerWrite 0xFFFF a w v) s))) ∧
  (∀ (s : State) (fn a : Nat), fnExists s fn = true → fn ≠ 0xFFFE → (fn = 0xFFFF → a < 2 ^ 26 ∧ intRefusal s 1 false a = none) →
    (a % 8 = 0 → isLow fn a = true → exec (.lowHalfRead fn a 64) s =
      .next { s with smb := { s.smb with readData := readReg s fn a + 2 ^ 32 * readReg s fn (a + 4) } }) ∧
    (a % 4 = 0 → isLow fn a = true → exec (.lowHalfRead fn a 32) s = .next (setLatch
      { s with smb := { s.smb with readData := readReg s fn a } } fn a (some (a + 4, BitVec.ofNat 32 (readReg s fn (a + 4)))))) ∧
    (∀ v, a % 4 = 0 → isLow fn a = false → latchAt s fn a = some (a, v) → exec (.lowHalfRead fn a 32) s =
      .next (setLatch { s with smb := { s.smb with readData := v.toNat } } fn a none)) ∧
    (a % 4 = 0 → isLow fn a = false → (∀ v, latchAt s fn a ≠ some (a, v)) → exec (.lowHalfRead fn a 32) s =
      .next { s with smb := { s.smb with readData := readReg s fn a } }) ∧
    (∀ width, (a % 4 ≠ 0 ∨ (width ≠ 32 ∧ (width ≠ 64 ∨ a % 8 ≠ 0 ∨ isLow fn a = false))) → exec (.lowHalfRead fn a width) s =
      .next { s with smb := { s.smb with readData := 0 } })) ∧
  (∀ (s : State) (p : Nat) (v : Word), isBlock p = false →
    exec (.blkLock p v) s = .next s ∧ exec (.blkIrqTest p v) s = .next s ∧ exec (.blkShadowCommit p v) s = .next s) ∧
  (∀ (s : State) (p : Nat) (v : Word), isBlock p = true → pageShut s p = true → (∀ o, o < 4096 → intRefusal s 1 true (4096 * p + o) = none) →
    exec (.blkLock p v) s = .next s ∧ exec (.blkIrqTest p v) s = .next s ∧ exec (.blkShadowCommit p v) s = .next s) ∧
  (∀ (s : State) (p : Nat) (v : Word), isBlock p = true → pageShut s p = false → intRefusal s 1 true (4096 * p + 0x01C) = none →
    exec (.blkLock p v) s = .next (putHead s p { s.head p with lock := (s.head p).lock ||| (v &&& BitVec.ofNat 32 (lockMask p)) })) ∧
  (∀ (s : State) (p : Nat) (v : Word), isBlock p = true → pageShut s p = false → intRefusal s 1 true (4096 * p + 0x018) = none →
    exec (.blkIrqTest p v) s = .next (putHead s p { s.head p with irqStatus := (s.head p).irqStatus ||| (v &&& BitVec.ofNat 32 (irqMask p)) })) ∧
  (∀ (s : State) (p : Nat) (v : Word), isBlock p = true → pageShut s p = false → intRefusal s 1 true (4096 * p + 0x020) = none →
    exec (.blkShadowCommit p v) s = .next
      (let s1 := putHead s p { s.head p with commit := (s.head p).commit || (v.getLsbD 0 && (p == 9 || p == 11 || p == 8)) }
       if p = 9 ∧ (s.head p).commit = false then { s1 with caller := { s1.caller with commitAt := s.cycle } } else s1)) ∧
  (∀ (s : State) (a w v : Nat), acuOffset a = false → exec (.acuEntryWrite a w v) s = .next s) ∧
  (∀ (s : State) (n e o v : Nat), n < 1024 → e < 8 → o < 4 → v < 2 ^ 32 → s.dev.ready = true →
    intRefusal s 1 true (0x020000 + 128 * n + 16 * e + 4 * o) = none →
    exec (.acuEntryWrite (0x020000 + 128 * n + 16 * e + 4 * o) 32 v) s =
      .next (match writeH (tblGet {} s.acu.tf (8 * n + e)) (4 * o) v with
        | some r => { s with acu := { s.acu with tf := tblSet {} s.acu.tf (8 * n + e) r } }
        | none => recordWerr s pgAcu)) ∧
  (∀ (r : RegionH) (o v : Nat),
    (r.lock = true → writeH r o v = none) ∧ (r.valid = true → o < 8 → o % 4 = 0 → writeH r o v = none) ∧
    (∀ r', writeH r o v = some r' → (r.valid = true → r.base % 2 ^ (15 + r.size) = 0) → r'.valid = true → r'.base % 2 ^ (15 + r'.size) = 0)) ∧
  (∀ (r : RegionI) (o v : Nat),
    (r.lock = true → writeI r o v = none) ∧ (r.valid = true → o < 8 → o % 4 = 0 → writeI r o v = none) ∧
    (∀ r', writeI r o v = some r' → (r.valid = true → r.base % 2 ^ r.size = 0) → r'.valid = true → r'.base % 2 ^ r'.size = 0)) ∧
  (∀ s : State, ((s.head pgArb).commit = false ∨ s.cycle % 4 ≠ 0 ∨ s.cycle ≤ s.caller.commitAt → exec .arbCommit s = .next s) ∧
    ((s.head pgArb).commit = true → s.cycle % 4 = 0 → s.caller.commitAt < s.cycle → exec .arbCommit s = .next (raise (putHead
      { s with
        caller := { s.caller with
          arbKeep := { s.caller.arbKeep with live := s.caller.arbKeep.base }
          arbDma := { s.caller.arbDma with live := s.caller.arbDma.base }
          arbQueue := { s.caller.arbQueue with live := s.caller.arbQueue.base }
          arbSpire := { s.caller.arbSpire with live := s.caller.arbSpire.base }
          arbReel := { s.caller.arbReel with live := s.caller.arbReel.base } } }
      pgArb { s.head pgArb with commit := false }) pgArb 1))) ∧
  (∀ (s : State) (v : Word), intRefusal s 1 true 0x1044 = none →
    exec (.supViolPop v) s = .next (if v.getLsbD 0 then { s with sup := { s.sup with log := s.sup.log.drop 1 } } else s)) ∧
  (∀ (s : State) (v : Word), intRefusal s 1 true 0x1054 = none →
    let t := v.toNat % 32
    let c := v.toNat / 256 % 8
    exec (.supCtxUnfreeze v) s = .next (if 17 ≤ t then recordWerr s pgSup
      else if (s.ctx t c).st = .frozen then s.setCtx t c {} else s)) ∧
  (∀ (s : State) (k v : Nat), k < 5 → locked s pgArb 0 = true → ∃ s',
    exec (.registerWrite 0xFFFF (0x009080 + 0x80 * k) 32 v) s = .next s' ∧ s'.caller = s.caller)

/-- The custody calls: tables, opening, authentications, commits, aborts, windows, and ATTEST (R403; R405; R406; R408;
R409; R410; R411; R412; R413; R415; log 27; log 57) -/
def Obligations.CeremoniesNeedTheirQuorum : Prop :=
  (∀ (s : State) (t c : Nat) (x : Ceremony), cerOf s t c = some x → x.authorized = false →
    let tb := s.cus.table.getD []
    cerOf (authorize s t c) t c = some { x with authorized := decide (byteAt tb 5 ≤ countOf s x false ∧ byteAt tb 6 ≤ countOf s x true ∧
      (x.typ = 2 → x.comps.length = byteAt x.input 1)) }) ∧
  (∀ (s₀ : State) (t c : Nat), let s := pastYield s₀ t c
    let k := par (workDesc s t c) 64
    commitWaits s t c = true → ∀ e ∈ ([(if k = 1 then .tableLoad t c .none else .ceremonyOpen t c .none, 0x0C01),
      (.custodianAuth t c .none, 0x0C02), (.ceremonyAbort t c .none, 0x0C04), (.dmkLoad t c .none, if k = 2 then 0x0C03 else 0x10000),
      (.commission t c .none, if k = 8 then 0x0C03 else 0x10000)] : List (Instr × Nat)),
      atFigure s₀ t c e.2 = true → exec e.1 s₀ = .next (setNeeds s t c [.turn])) ∧
  (∀ (s₀ : State) (t c : Nat) (st : Nat), let s := pastYield s₀ t c
    atFigure s₀ t c 0x0C01 = true → commitWaits s t c = false → cerChecks s t c 0x0C01 = some st →
    exec (if par (workDesc s t c) 64 = 1 then .tableLoad t c .none else .ceremonyOpen t c .none) s₀ = .next (finishCall s t c st 39 0 [])) ∧
  (∀ (s₀ : State) (t c : Nat), let s := pastYield s₀ t c
    atFigure s₀ t c 0x0C01 = true → commitWaits s t c = false → cerChecks s t c 0x0C01 = none →
    let k := par (workDesc s t c) 64
    let b := inputOf s t c
    let r := drawnOf s t c
    let n := ((List.range 16).filter (fun i => bitOf (tabEnrolled b) i)).length
    let signed := s.lcs.st = 2 ∧ allZero s.fuse.owner = false
    let v := if signed then 94874 else 0
    let owned := if s.lcs.st = 3 then tabDigest b = policyDigest s else if signed then sha384 (sub b 1568 97) = s.fuse.owner ∧
      p384Verify (sub b 1568 97) (b.take 1568) (b.drop 1665) = true else allZero (b.drop 1568) = true
    (k = 1 → exec (.ceremonyOpen t c .none) s₀ = .next s₀ ∧
      (tabLayout b = false → exec (.tableLoad t c .none) s₀ = .next (finishFree s t c stBadParam [])) ∧
      (tabLayout b = true → ¬ owned → exec (.tableLoad t c .none) s₀ =
        .next (finishFree { s with cus := { s.cus with rejects := satAdd 32 s.cus.rejects 1 } } t c stAuthRejected [])) ∧
      (tabLayout b = true → owned → exec (.tableLoad t c .none) s₀ = .next (finishCall
        ((spCall s t c (tableProg b (decide signed)) (p384Ops (sub b 1568 97) (b.take 1568) (b.drop 1665)) (72 * n + v) false).setCus
          { s.cus with table := some b })
          t c stOk (324 + 72 * n + (if signed then 94899 else 0)) (72 * n + v) []))) ∧
    (k ≠ 1 → exec (.tableLoad t c .none) s₀ = .next s₀ ∧
      (cerInputOk s k b = false → exec (.ceremonyOpen t c .none) s₀ = .next (finishFree s t c stBadParam [])) ∧
      (cerInputOk s k b = true →
        let g := if k = 2 then 93806 else 0
        let x : Ceremony :=
          { typ := k, ports := par (workDesc s t c) 65, input := b, challenge := r.take 32, pdigest := sha384 (leBytes 1 k ++ b)
            expires := if s.time.st = 0 then none else some (s.time.bell / 1024 + 300), cyclesLeft := 360000000000
            eph := if k = 2 then drawnScalar curveP384 (r.drop 32) else 0 }
        let s1 := if k = 2 then spCall s t c (ecGenProg curveP384) (ecGenOps curveP384 (beVal (r.drop 32) % 2 ^ 448)) g false else s
        let w := writeOut s1 t c (cerHeader s x)
        exec (.ceremonyOpen t c .none) s₀ = .next (if w.2 then
          finishCall (raise { w.1 with cus := { w.1.cus with cer := some x } } pgCus 1) t c stOk
            (56 + 21 * ceilDiv (b.length + 18) 128 + (if k = 2 then 93810 else 0)) g [] else w.1)))) ∧
  (∀ (s₀ : State) (t c : Nat), let s := pastYield s₀ t c
    atFigure s₀ t c 0x0C02 = true → commitWaits s t c = false →
    let run := exec (.custodianAuth t c .none) s₀
    let k := par (workDesc s t c) 64
    let w := (s.ctx t c).work
    let b := inputOf s t c
    let slot := byteAt b 4
    let key := tabKey (s.cus.table.getD []) slot
    let comp := bitOf (byteAt b 5) 0
    let stage := w.vals.getD 0 0
    let good := p384Verify key (b.take 240) (b.drop 240) = true
    let ends := fun (a : State) =>
      let a1 := modWork (freeUnits a t c) t c (fun y => { y with vals := [2] })
      (Host.Outcome.next (if commitWaits a1 t c then setNeeds a1 t c [.turn] else authVerdict a1 t c) : Out)
    (stage = 3 → run = .next (rejectAuth s t c)) ∧
    (stage < 2 → k ≠ 0 → w.phase = 0 → cerChecks s t c 0x0C02 = none → run = .next (setNeeds (askCard s t c k) t c [.card])) ∧
    (stage < 2 → k ≠ 0 → w.phase = 0 → ∀ st, cerChecks s t c 0x0C02 = some st → run = .next (finishCall s t c st 39 0 [])) ∧
    (stage < 2 → k = 0 ∨ w.phase ≠ 0 →
      (cerOf s t c = none → w.sp = 0 → run = .next (finishCall s t c stCeremony 39 0 [])) ∧
      (cerOf s t c = none → w.sp ≠ 0 → run = ends s) ∧
      (∀ x, cerOf s t c = some x → authFields s x b = false → run = ends s) ∧
      (∀ x, cerOf s t c = some x → authFields s x b = true →
        let pr := if stage = 0 then (ecVerifyProg curveP384, p384Ops key (b.take 240) (b.drop 240))
          else (ecDhProg, ecDhOps curveP384 x.eph (rawPoint curveP384 (sub b 96 97)))
        let r := spPart pr.1 true true t c (loadHalf s t c pr.2)
        let more := (r.1.ctx t c).work.pc < pr.1.length
        (r.2 = true → run = ends r.1) ∧
        (r.2 = false → more → run = .next r.1) ∧
        (r.2 = false → ¬ more → stage = 0 → comp = true → good →
          run = .next (modWork r.1 t c (fun y => { y with pc := 0, bits := 0, vals := [1] }))) ∧
        (r.2 = false → ¬ more → (stage ≠ 0 ∨ comp = false ∨ ¬ good) → run = ends r.1))) ∧
    (stage = 2 → cerOf s t c = none → run = .next (finishFree s t c stCeremony [])) ∧
    (stage = 2 → ∀ x, s.cus.cer = some x → cerOf s t c = some x → cerLate s t c = false →
      let fields := authFields s x b = true
      let rejected := ∃ s', run = .next s' ∧ s'.cus.rejects = satAdd 32 s.cus.rejects 1 ∧
        (x.rejects < 2 → s'.cus.cer = some { x with rejects := x.rejects + 1 }) ∧
        (2 ≤ x.rejects → s'.cus.cer = none ∧ s'.cus.lastClose = 4)
      let counts := fun (l : List Bytes) => ∃ s' y, run = .next s' ∧ s'.cus.cer = some y ∧ y.counted = x.counted ++ [slot] ∧
        y.comps = x.comps ++ l ∧ (x.authorized = true → y.authorized = true)
      (¬ fields → w.sp = 0 → rejected) ∧ (¬ fields → w.sp ≠ 0 → run = .next (finishFree s t c stCeremony [])) ∧
      (fields → ¬ good → rejected) ∧
      (fields → good → slot ∈ x.counted → run = .next (finishCall s t c stOk (if comp then 189068 else 94994) (if comp then 188716 else 94874)
        (leBytes 1 (countOf s x false) ++ leBytes 1 (countOf s x true) ++ leBytes 1 x.comps.length ++ leBytes 1 (flag x.authorized)))) ∧
      (fields → good → slot ∉ x.counted → comp = false → counts []) ∧
      (fields → good → slot ∉ x.counted → comp = true → authComponent s x b = none → rejected) ∧
      (∀ z, fields → good → slot ∉ x.counted → comp = true → authComponent s x b = some z →
        (byteAt x.input 1 ≤ x.comps.length → run = .next (finishFree s t c stBadParam [])) ∧
        (x.comps.length < byteAt x.input 1 → counts [z])))) ∧
  (∀ (s : State) (t c : Nat) (resp : Bytes),
    (firstNeed s t c ≠ some .card → exec (.cardResponse t c resp) s = .next s ∧ exec (.cardTimeout t c) s = .next s) ∧
    (firstNeed s t c = some .card →
      let s1 := setActive s (par (workDesc s t c) 64) false
      let s2 := modWork (freeUnits s1 t c) t c (fun w => { w with vals := [3] })
      let rejects : Out := .next (if commitWaits s2 t c then setNeeds s2 t c [.turn] else rejectAuth s2 t c)
      exec (.cardTimeout t c) s = rejects ∧
      exec (.cardResponse t c resp) s = if resp.length = 338 ∧ resp.drop 336 = [0x90, 0x00] then
        .next (setNeeds (modWork s1 t c (fun w => { w with blob := resp.take 336, phase := 1 })) t c unitNeeds) else rejects)) ∧
  (∀ (s₀ : State) (t c : Nat), let s := pastYield s₀ t c
    atFigure s₀ t c 0x0C03 = true → commitWaits s t c = false →
    let k := par (workDesc s t c) 64
    let rows : List (Instr × Nat) := [(.dmkLoad t c .none, 2), (.dmkPromote t c .none, 3), (.partitionCreate t c .none, 4),
      (.partitionDelete t c .none, 5), (.commission t c .none, 8), (.recommission t c .none, 9), (.returnCer t c .none, 10),
      (.scrap t c .none, 11)]
    let phase := (s.ctx t c).work.phase
    (∀ e ∈ rows, e.2 ≠ k → exec e.1 s₀ = .next s₀) ∧
    (∀ e ∈ rows, e.2 = k → phase = 0 → ∀ st, cerChecks s t c 0x0C03 = some st → exec e.1 s₀ = .next (finishCall s t c st 39 0 [])) ∧
    (∀ x, s.cus.cer = some x → cerLate s t c = false → phase = 0 → cerChecks s t c 0x0C03 = none →
      (k = 2 → (x.comps.any allZero || !decide x.comps.Nodup || allZero (x.comps.foldl xorB (zeros 32))) = false →
        byteAt x.input 0 = 0 → s.dome.cur = none → intRefusal s 6 true 0x20000000 = none → ∃ s', exec (.dmkLoad t c .none) s₀ = .next s' ∧
          s'.dome.cur = some (x.comps.foldl xorB (zeros 32)) ∧ s'.dome.next = s.dome.next ∧ s'.dome.tampered = false ∧
          s'.cus.cer = none ∧ s'.cus.lastClose = 1) ∧
      (∀ m, k = 3 → s.dome.next = some m → s.vault.nextReady = true ∨ s.vault.st = 0 → intRefusal s 6 true 0x20000000 = none → ∃ s', exec (.dmkPromote t c .none) s₀ = .next s' ∧
        s'.dome.cur = some m ∧ s'.dome.next = none ∧ s'.cus.cer = none) ∧
      (k = 4 ∨ k = 5 → s.vault.st ≠ 3 →
        exec (if k = 4 then .partitionCreate t c .none else .partitionDelete t c .none) s₀ = .next (finishCall s t c stVaultUnreach 39 0 [])) ∧
      (k = 4 ∨ k = 5 → s.vault.st = 3 →
        let run := exec (if k = 4 then .partitionCreate t c .none else .partitionDelete t c .none) s₀
        let p := leAt x.input 0 2
        let old := descOf s p
        let pub := sub x.input 8 97
        let d := if k = 4 then [4, 1] ++ leBytes 2 (leAt old 2 2 + 1) ++ [0xFF, 0xFF] ++ zeros 16 ++ sub x.input 2 6 ++ zeros 4 ++ pub ++
          sha384 pub ++ zeros 79 else old.set 1 0
        let held := (goOn, if k = 4 then 79 else 56, 0, [])
        (k = 4 → pstate s p ≠ 0 → run = .next (finishCall s t c stBadParam 39 0 [])) ∧
        ((k = 5 ∨ pstate s p = 0) → descLines s p d = none → run = .next (finishCall s t c stVaultUnreach held.2.1 0 [])) ∧
        (∀ l, (k = 5 ∨ pstate s p = 0) → descLines s p d = some l →
          let g : Group :=
            { at_ := (t, c), lines := l.1, undo := [(p, old, d)] }
          (waysFor s (copyKeys l.2) = false → run = .next (setNeeds (freeUnits s t c) t c [.way (copyKeys l.2)])) ∧
          (waysFor s (copyKeys l.2) = true → run = .next (passGroup
            (setDesc (modWork s t c (fun w => { w with phase := 1, vals := [p] })) p d) t c g l.2 held)))) ∧
      (∀ i target, (i, k, target) ∈ ([(.commission t c .none, 8, 3), (.recommission t c .none, 9, 2), (.returnCer t c .none, 10, 4),
          (.scrap t c .none, 11, 5)] : List (Instr × Nat × Nat)) →
        (k = 8 → s.cus.table.any (fun b => tabDigest b == x.input) = true) →
        (lcRefusal s target ≠ 0 → exec i s₀ = .next (finishCall (lcNote s (lcRefusal s target) target) t c stStateNot 39 0 [])) ∧
        (lcRefusal s target = 0 → s.lcs.transition = none → ∃ s', exec i s₀ = .next s' ∧
          s'.lcs.transition = some (target, some (t, c)) ∧ s'.jobs = [] ∧ s'.vault.hold = true ∧ s'.fuse = s.fuse))) ∧
    (∀ x, s.cus.cer = some x → cerLate s t c = false → k = 4 ∨ k = 5 → phase ≠ 0 → ∃ s',
      exec (if k = 4 then .partitionCreate t c .none else .partitionDelete t c .none) s₀ = .next s' ∧ s'.cus.cer = none ∧
      s'.cus.lastClose = 1)) ∧
  (∀ (s₀ : State) (t c : Nat), let s := pastYield s₀ t c
    atFigure s₀ t c 0x0C04 = true → commitWaits s t c = false → exec (.ceremonyAbort t c .none) s₀ =
    .next (if cerOf s t c = none then finishCall s t c stCeremony 36 0 [] else finishCall (closeCer s t c 2) t c stOk 36 0 [])) ∧
  (∀ s : State,
    (s.cus.cer = none → exec .ceremonyWindowExpiry s = .next s) ∧
    (∀ x, s.cus.cer = some x →
      let over_ := match x.expires with
        | some e => s.time.st ≠ 0 ∧ 1024 * e ≤ s.time.bell
        | none => x.cyclesLeft = 0
      (¬ over_ → exec .ceremonyWindowExpiry s = .next s) ∧
      (over_ → ∃ s', exec .ceremonyWindowExpiry s = .next s' ∧ s'.cus.cer = none ∧ s'.cus.lastClose = 3 ∧ s'.dome = s.dome))) ∧
  (∀ (s₀ : State) (t c : Nat) (sg : Bytes), let s := pastYield s₀ t c
    atFigure s₀ t c 0x0B01 = true →
    let body := (s.ctx t c).work.keep
    let w := writeOut (spCall s t c ecSignProg (dikOps s body (drawnOf s t c)) 94624 false) t c (body ++ sg)
    (dikSign s body (drawnOf s t c) = some sg → exec (.attest t c .none) s₀ =
      .next (if w.2 then finishCall w.1 t c stOk 94762 94624 [] else w.1)) ∧
    (dikSign s body (drawnOf s t c) = none → exec (.attest t c .none) s₀ = .next (deviceFault s t c))) ∧
  (∀ (s : State) (t c : Nat) (k : Call) (ks : List KeyRec), t < s.towers.length → c < (s.tower t).ctxs.length →
    opOf (workDesc s t c) = 0x0B01 → formOf (workDesc s t c) = 2 → (s.ctx t c).claim = none → carries s t c = false →
    paramFault (s.setCtx t c { s.ctx t c with keysOk := true }) k (workDesc s t c) ks = none → listWhole (s.ctx t c).work.listRaw = false →
    let s1 := s.setCtx t c { s.ctx t c with keysOk := true }
    ((keysPassed s t c k ks).ctx t c).work.keep = jalhavi s1 k.bell (sub (workDesc s t c) 64 32))

/-- TAMPER_EVENT, TAMPER_TOGGLE, ERASE_DONE, KEEP_ERASE_DONE, BATT_LOW, DOME_ACK, DOME_POWER_UP and VDD_AON_LOSS
(R421; R422; R423; R424; R425; R426; R427; log 38) -/
def Obligations.TamperErasesAndIsLogged : Prop :=
  (∀ (s : State) (c : BitVec 15) (temp : BitVec 8) (mv : Nat),
    let hit := c &&& sensorMask s.dome
    (hit = 0 ∨ (s.dome.tampered = true ∧ s.dome.acked = false) → exec (.tamperEvent c temp mv) s = .next s) ∧
    (hit ≠ 0 → (s.dome.tampered = false ∨ s.dome.acked = true) → ∃ s', exec (.tamperEvent c temp mv) s = .next s' ∧
      s'.dome.tampered = true ∧ s'.dome.acked = false ∧ s'.dome.erasing = true ∧ s'.dome.cause = s.dome.cause ||| hit ∧
      s'.dome.count = satAdd 32 s.dome.count 1 ∧ s'.dome.dik = none ∧ s'.dome.cur = none ∧ s'.dome.next = none ∧
      s'.dome.slots = ({}, {}) ∧ s'.dome.ledger = s.dome.ledger ∧ s'.dome.witness = s.dome.witness ∧
      s'.dome.logNext = (s.dome.logNext + 1) % 32 ∧
      (intRefusal s 6 true (domeLog + 64 * s.dome.logNext) ≠ none → s'.dome.log = s.dome.log) ∧
      (intRefusal s 6 true (domeLog + 64 * s.dome.logNext) = none → (tblGet ({} : TamperEnt) s'.dome.log s.dome.logNext) = {
        event := satAdd 32 s.dome.count 1, cause := hit, onBattery := !s.dome.onMain, cleared := s.dome.onMain
        bell := if s.dome.onMain = true ∧ s.time.st ≠ 0 then s.time.bell else 0, temp := temp, vbat := mv % 2 ^ 16, toggles := 0 }) ∧
      (s.dome.onMain = true → s'.jobs = [] ∧ s'.keep.lines = [] ∧ s'.keep.erasing = true ∧ s'.vault.st = 0 ∧ s'.cus.cer = none ∧
        (∀ t i, t < 17 → i < 8 → (s'.ctx t i).call = none)) ∧
      (s.dome.onMain = false → s'.dome.unhandled = true ∧ s'.keep = s.keep ∧ s'.vault = s.vault ∧ s'.towers = s.towers)) ∧
    (¬ (s.dome.tampered = true ∧ s.dome.acked = false) → exec (.tamperToggle c) s = .next s) ∧
    (s.dome.tampered = true → s.dome.acked = false → ∃ s', exec (.tamperToggle c) s = .next s' ∧
      s'.dome.toggles = satAdd 32 s.dome.toggles ((List.range 15).filter (fun i => hit.getLsbD i)).length ∧
      s'.dome.cause = s.dome.cause ∧ s'.dome.count = s.dome.count ∧ s'.keep = s.keep ∧ s'.towers = s.towers)) ∧
  (∀ d : Dome, (d.onMain = true → (sensorMask d).getLsbD 8 = false ∧ (sensorMask d).getLsbD 10 = true ∧
      (sensorMask d).getLsbD 11 = true ∧ (sensorMask d).getLsbD 14 = true) ∧
    (d.onMain = false → (sensorMask d).getLsbD 8 = true ∧ (sensorMask d).getLsbD 10 = false ∧ (sensorMask d).getLsbD 11 = false ∧
      (sensorMask d).getLsbD 14 = false) ∧
    (∀ i, i < 6 → (sensorMask d).getLsbD (2 + i) = d.sensorEn.getLsbD i) ∧
    (∀ i ∈ ([0, 1, 9, 12, 13] : List Nat), (sensorMask d).getLsbD i = true)) ∧
  (∀ s : State, exec .eraseDone s = .next { s with dome := { s.dome with erasing := false } } ∧
    exec .keepEraseDone s = .next { s with keep := { s.keep with erasing := false } }) ∧
  (∀ (s : State) (mv : Nat), (2600 ≤ mv → exec (.battLow mv) s = .next s) ∧
    (mv < 2600 → ∃ s', exec (.battLow mv) s = .next s' ∧ s'.dome = { s.dome with vbat := mv, battLow := true } ∧ s'.keep = s.keep)) ∧
  (∀ (s : State) (v : Word) (live : BitVec 15),
    let s1 : State := { s with dome := { s.dome with live := live } }
    exec (.domeAck v live) s = .next (if v.getLsbD 0 = true ∧ s.dome.tampered = true ∧ live = 0 then
      { s with free := s.free + 1, dome := { s.dome with
        live := live, cause := 0, acked := true, tampered := decide (s.lcs.st = 3), canary := Config.freeValue s.free % 2 ^ 64 } }
      else recordWerr s1 pgDome)) ∧
  (∀ (s : State) (mv : Nat) (lost : Bool),
    (s.dome.onMain = true → exec (.domePowerUp lost) s = .next s ∧
      exec (.vddAonLoss mv) s = .next { s with dome := { s.dome with onMain := false, vbat := mv % 4096 } }) ∧
    (s.dome.onMain = false → exec (.vddAonLoss mv) s = .next s ∧
      exec (.domePowerUp false) s = .next { s with dome := { s.dome with onMain := true } } ∧
      ∃ s', exec (.domePowerUp true) s = .next s' ∧ s'.dome.blankStart = true ∧ s'.dome.sensorEn = 0x3F ∧ s'.dome.dik = none ∧
        s'.dome.cur = none ∧ s'.dome.next = none ∧ s'.dome.slots = ({}, {}) ∧ s'.dome.ledger = {} ∧ s'.dome.witness = [] ∧
        s'.dome.log = [] ∧ s'.dome.tampered = false ∧ s'.fuse = s.fuse ∧ s'.vault.st = 0 ∧ s'.mtr.interval = 60 ∧
        s'.mtr.at_ = 2 ^ 48 - 1 ∧ s'.mtr.recovering = false))

/-- Droop, brown-out, thermal states, self-tests, retirement, Keep rows, sampled inputs and SMBus (R429; R430; R431;
R432; R433; R434; R435; R436; R437; R458; R459; R460) -/
def Obligations.PowerThermalSparesAndPins : Prop :=
  (∀ (s : State) (mv : Nat),
    (700 ≤ mv → exec (.droop mv) s = .next s) ∧ (620 ≤ mv → exec (.brownout mv) s = .next s) ∧
    (mv < 700 → s.lcs.transition = none → ∃ s', exec (.droop mv) s = .next s' ∧ s'.pwr = { s.pwr with
      vcore := mv, supplyOk := false, droop := true, droopCount := if s.pwr.droop then s.pwr.droopCount else satAdd 32 s.pwr.droopCount 1 } ∧
      s'.towers = s.towers ∧ s'.keep = s.keep ∧ s'.dome = s.dome) ∧
    (exec (.droopRecovery mv) s = .next (if 720 < mv ∧ s.pwr.droop = true then
      { s with pwr := { s.pwr with droop := false, vcore := mv % 1024, supplyOk := true } } else s)) ∧
    (mv < 620 → s.dev.ready = true → ∃ s', exec (.brownout mv) s = .next s' ∧ s'.dev.ready = false ∧ s'.pwr.cause = 2 ∧
      s'.jobs = [] ∧ s'.bind = [])) ∧
  (∀ (s : State) (l : List (BitVec 8)),
    (l.length ≠ 18 → exec (.thermalReading l) s = .next s) ∧
    (l.length = 18 → (∀ i, i < 18 → reading l i ≤ reading l (hottest l)) ∧ ∃ s', exec (.thermalReading l) s = .next s' ∧ s'.pwr.tj = l ∧
      s'.pwr.thermal = (if 2 ≤ s.pwr.thermal then s.pwr.thermal else if 115 ≤ reading l (hottest l) then 2
        else if s.pwr.thermal = 0 ∧ 105 ≤ reading l (hottest l) then 1
        else if s.pwr.thermal = 1 ∧ reading l (hottest l) < 102 then 0 else s.pwr.thermal) ∧
      s'.pwr.tjPeak = (if ∃ p, s.pwr.tjPeak = some p ∧ reading l (hottest l) ≤ p.1.toInt then s.pwr.tjPeak
        else some (l.getD (hottest l) 0, hottest l)))) ∧
  (∀ s : State, (s.pwr.thermal ≠ 1 → exec .throttleUpdate s = .next s) ∧
    (s.pwr.thermal = 1 → ∃ s', exec .throttleUpdate s = .next s' ∧ ∀ t, t < 17 → (s'.pwr.throttled.getLsbD t = true ↔
      (s.sup.roles.getD t 2 = 1 ∧ reading s.pwr.tj (hottest s.pwr.tj) - 3 ≤ reading s.pwr.tj t)))) ∧
  (∀ s : State,
    let idle := (∀ t i, t < 17 → i < 8 → (s.ctx t i).call = none) ∧ s.vault.writing = none ∧ s.vault.batch = none
    (¬ (s.pwr.thermal = 2 ∧ idle) → exec .thermalStopped s = .next s) ∧ (s.pwr.thermal ≠ 2 → exec .thermalStopTimeout s = .next s) ∧
    (s.pwr.thermal = 2 → idle → ∃ s', exec .thermalStopped s = .next s' ∧ s'.pwr.thermal = 3 ∧ s'.pwr.towersOff = true ∧
      (s.vault.st = 3 ∨ s.vault.st = 4 → s'.vault.st = 1)) ∧
    (s.pwr.thermal = 2 → ∃ s', exec .thermalStopTimeout s = .next s' ∧ s'.pwr.thermal = 3 ∧ s'.pwr.towersOff = true)) ∧
  (∀ (s : State) (p : TestPart), (testsOn s = false → exec (.selfTestStart p) s = .next s ∧ exec .spareTowerTest s = .next s) ∧
    (∀ t, testsOn s = true → spareDue s = some t → s.sup.spareTesting = false → exec (.selfTestStart (.spareTower t)) s = exec .spareTowerTest s ∧
      ∃ s', exec .spareTowerTest s = .next s' ∧ s'.sup.spareTesting = true ∧ s'.sup.spareTimer = 0) ∧
    (∀ t, testsOn s = true → spireClaimable s t = true → t < s.towers.length → ∃ s', exec (.selfTestStart (.spire t)) s = .next s' ∧
      (s'.tower t).spire = { (s.tower t).spire with testing := true }) ∧
    (∀ t, (s.tower t).spire.testing = false → ∀ ok, exec (.selfTestDone (.spire t) ok) s = .next s) ∧
    (∀ t ok, (s.tower t).spire.testing = true → spireWaiters s t ≠ [] → t < s.towers.length → ∃ s', exec (.selfTestDone (.spire t) ok) s = .next s' ∧
      (s'.tower t).spire = { (s.tower t).spire with testing := false } ∧ s'.sup = s.sup) ∧
    (∀ t, (s.tower t).spire.testing = true → spireWaiters s t = [] → ∃ s', exec (.selfTestDone (.spire t) true) s = .next s' ∧
      s'.sup.tests = (s.sup.tests + 1) % 2 ^ 64 ∧ s'.sup.testFails = s.sup.testFails) ∧
    (∀ t h i l, ((s.tower t).lanes h)[i]? = some l → l.testing = true → (l.role ≠ 1 ∨ laneWaiters s t h = []) → t < s.towers.length → ∃ s',
      exec (.selfTestDone (.lane t h i) false) s = .next s' ∧ s'.sup.tests = (s.sup.tests + 1) % 2 ^ 64 ∧
      s'.sup.testFails = satAdd 32 s.sup.testFails 1 ∧ ∃ l', ((s'.tower t).lanes h)[i]? = some l' ∧ l'.role = 2)) ∧
  (∀ (s : State) (t : Nat),
    (s.sup.roles.getD t 2 ≠ 3 ∨ (∃ i, i < 8 ∧ (s.ctx t i).st ≠ .free) → exec (.towerDrained t) s = .next s) ∧
    (s.sup.roles.getD t 2 = 3 → (∀ i, i < 8 → (s.ctx t i).st = .free) → ∃ s', exec (.towerDrained t) s = .next s' ∧
      s'.sup.roles = s.sup.roles.set t 2 ∧ s'.towers = s.towers)) ∧
  (∀ (s : State) (cl : Bool), (s.sup.pending = [] ∨ s.pwr.holdup = false → exec (.sparingFuseBurn cl) s = .next s) ∧
    (∀ r rest, s.sup.pending = r :: rest → s.pwr.holdup = true → ∃ s' m, exec (.sparingFuseBurn cl) s = .next s' ∧
      s'.fuse.sparing = s.fuse.sparing ++ [(r, m)] ∧ (cl = false → m = 7) ∧ (cl = true → m ∈ ([6, 5, 3] : List Nat)) ∧
      sparingRecs s'.fuse = sparingRecs s.fuse ++ [r] ∧ s'.sup.pending = rest ∧ s'.sup.copyLost = (s.sup.copyLost || cl) ∧ s'.keep = s.keep)) ∧
  (∀ (s : State) (row : Nat),
    let n := tblGet 0 s.sup.rowCorr row
    (16384 ≤ row ∨ row ∈ s.sup.rowsDisabled → ∀ u l, exec (.keepRowRepair row u l) s = .next s) ∧
    (row < 16384 → row ∉ s.sup.rowsDisabled →
      (n < 3 → ∃ s', exec (.keepRowRepair row false none) s = .next s' ∧ s'.sup.eccCorr = satAdd 32 s.sup.eccCorr 1 ∧ s'.keep = s.keep) ∧
      (rowBusy s row = true → ∃ s', exec (.keepRowRepair row true none) s = .next s' ∧ s'.keep = s.keep ∧ row ∈ s'.sup.rowsWaiting ∧
        s'.sup.rowsDisabled = s.sup.rowsDisabled ∧ s'.sup.eccUncorr = satAdd 32 s.sup.eccUncorr 1) ∧
      (rowBusy s row = false → s.keep.repaired.length < 64 →
        (3 ≤ n → ∃ s', exec (.keepRowRepair row false none) s = .next s' ∧ s'.keep = { s.keep with repaired := s.keep.repaired ++ [row] }) ∧
        ∃ s', exec (.keepRowRepair row true none) s = .next s' ∧ s'.keep = { s.keep with repaired := s.keep.repaired ++ [row] } ∧
          s'.sup.eccUncorr = satAdd 32 s.sup.eccUncorr 1) ∧
      (rowBusy s row = false → 64 ≤ s.keep.repaired.length → ∃ s', exec (.keepRowRepair row true none) s = .next s' ∧
        s'.sup.rowsDisabled = s.sup.rowsDisabled ++ [row] ∧ s'.keep.repaired = s.keep.repaired))) ∧
  (∀ (s : State) (t c op : Nat) (f : State → State), atFigure s t c op = true →
    let s1 := pastYield s t c
    runFigure s t c op .corrected f = f { s1 with sup := { s1.sup with eccCorr := satAdd 32 s1.sup.eccCorr 1 } }) ∧
  (∀ (s : State) (t c i : Nat) (k : Call), t < s.towers.length → (s.ctx t c).call = some k →
    i ∈ slotsOf (isMf k.fn) (workDesc s t c) →
    let h := handleOf (workDesc s t c) i
    let s' := cacheErrors s t c [i] 0
    tcLookup s t (hPart h) (hCls h) (hIdx h) ≠ none → tcLookup s' t (hPart h) (hCls h) (hIdx h) = none ∧
      s'.sup.eccUncorr = satAdd 32 s.sup.eccUncorr 1 ∧ s'.sup.eccCorr = s.sup.eccCorr ∧ s'.keep = s.keep) ∧
  (∀ (s : State) (v : BitVec 4), (s.dev.tnPhase < 2 → exec (.inputSample v) s = .next s) ∧
    (2 ≤ s.dev.tnPhase → ∃ s', exec (.inputSample v) s = .next s' ∧ ∀ i, i < 4 → ¬ (i = 2 ∧ s.dev.tnPhase = 3) →
      (s'.dev.tnIn.getLsbD i ≠ s.dev.tnIn.getLsbD i ↔ (v.getLsbD i ≠ s.dev.tnIn.getLsbD i ∧ 9 ≤ s.dev.disagree.getD i 0)))) ∧
  (∀ s : State,
    let pec := fun (code : Nat) (b : Bytes) => crc8 ([BitVec.ofNat 8 (2 * (0x60 + fieldOf s.dev.straps.toNat 5 4)), BitVec.ofNat 8 code,
      BitVec.ofNat 8 (2 * (0x60 + fieldOf s.dev.straps.toNat 5 4) + 1), BitVec.ofNat 8 b.length] ++ b)
    let ans := fun (code : Nat) (b : Bytes) => (if s.dev.tnPhase = 0 then s else
      { s with smb := { s.smb with answer := some ([BitVec.ofNat 8 b.length] ++ b ++ [BitVec.ofNat 8 (pec code b)]) } } : State)
    (∀ code x, x ≠ [] ∨ code = 0 ∨ 6 < code → exec (.smbStatus code x) s =
      .next (if s.dev.tnPhase = 0 then s else { s with smb := { s.smb with answer := none } })) ∧
    exec .smbStatus s = .next (ans 1 (leBytes 4 (smbStatusWord s))) ∧ exec .smbTemps s = .next (ans 2 s.pwr.tj) ∧
    exec .smbVolts s = .next (ans 3 (leBytes 2 s.pwr.vcore ++ leBytes 2 s.dome.vbat)) ∧
    exec .smbIdent s = .next (ans 4 (leBytes 4 (0x00B08400 + 2 ^ 24 * (if s.fuse.gradeX then 0x58 else 0x43)) ++ leBytes 8 s.fuse.serial)) ∧
    exec .smbCounts s = .next (ans 5 (leBytes 4 s.pwr.droopCount ++ leBytes 4 s.pwr.throttleCount ++ leBytes 4 s.dome.count)) ∧
    (s.dev.tnPhase ≠ 0 → ∃ s', exec .smbAlert s = .next s' ∧ s'.smb.alert = 0 ∧
      s'.smb.answer = (ans 6 [BitVec.ofNat 8 s.smb.alert.toNat]).smb.answer) ∧
    (s.dev.tnPhase = 0 → exec .smbAlert s = .next s) ∧
    exec .smbAlertResponse s = .next (if s.dev.tnPhase = 0 then s else { s with smb := { s.smb with
      answer := if s.smb.alert ≠ 0 then some [BitVec.ofNat 8 (0x60 + fieldOf s.dev.straps.toNat 5 4)] else none } }))

/-- Requests, transitions and their burns; warm, FLR and cold resets; straps, fuse load, READY and link changes (R394;
R395; R396; R397; R398; R399; R400; R401; R445; R448; R449; R450) -/
def Obligations.LifeCycleAndResetsKeepTheirOrder : Prop :=
  lcRow 0xA35C 3 = 0xA35C0C03 ∧
  (∀ s : State, s.fuse.rows = [lcRow 0x3A5C 1, lcRow 0x5CA3 2, 0xA35C0C03, 0x5CA30000] ++ List.replicate 20 0 → fuseState s = 6) ∧
  (∀ s : State, s.fuse.lost = false → s.fuse.rows = [lcRow 0x3A5C 1, lcRow 0x5CA3 2, 0xA35C0C03] ++ List.replicate 21 0 →
    fuseState s = 3) ∧
  (∀ (s : State) (g : Nat),
    (g ≠ 1 → g ≠ 2 → g ≠ 5 → exec (.lcsRequest g) s = .next (recordWerr s pgLcs) ∧ exec (.lcsExecute g) s = .next (recordWerr s pgLcs)) ∧
    (g = 1 ∨ g = 2 ∨ g = 5 →
      exec (.lcsRequest g) s = .next { s with
        free := s.free + 1, lcs := { s.lcs with challenge := leBytes 32 (Config.freeValue s.free), armed := some g } } ∧
      (s.lcs.transition = none →
        let s1 : State := { s with lcs := { s.lcs with armed := none } }
        let legal := (s.lcs.st = 0 ∨ s.lcs.st = 1 ∨ s.lcs.st = 4) ∧ lcPermits s.lcs.st g = true
        let root := beBytes 97 (Config.romKey (if s.lcs.st = 4 then 1 else 0))
        let good := s.lcs.armed = some g ∧ ((s.lcs.st = 1 ∧ g = 2) ∨ allZero s.lcs.owner = true) ∧
          p384Verify root (lcMessage s g) s.lcs.auth = true
        (¬ legal → exec (.lcsExecute g) s = .next (lcNote s1 6 g)) ∧
        (legal → ¬ good → exec (.lcsExecute g) s = .next (lcNote s1 5 g)) ∧
        (legal → good → lcRefusal s g ≠ 0 → exec (.lcsExecute g) s = .next (lcNote s1 (lcRefusal s g) g)) ∧
        (legal → good → lcRefusal s g = 0 → ∃ s', exec (.lcsExecute g) s = .next s' ∧ s'.lcs.transition = some (g, none) ∧
          s'.lcs.armed = none ∧ s'.jobs = [] ∧ s'.fuse = s.fuse)))) ∧
  (∀ (s : State) (b : BurnResult), s.lcs.transition = none → exec (.lifecycleTransition b) s = .next s) ∧
  (∀ (s : State) (g : Nat) (who : Option (Nat × Nat)) (b : BurnResult), s.lcs.transition = some (g, who) →
    let k := (rowScan s).used
    let row := lcRow (lcsCode g) ((rowScan s).seq + 1)
    (lcRefusal s g ≠ 0 → ∃ s', exec (.lifecycleTransition b) s = .next s' ∧ s'.lcs.transition = none ∧ s'.fuse = s.fuse ∧
      s'.lcs.st = s.lcs.st ∧ s'.lcs.result = lcRefusal s g ∧ s'.dome = s.dome) ∧
    (lcRefusal s g = 0 → lcDrained s who = false → exec (.lifecycleTransition b) s = .next s) ∧
    (lcRefusal s g = 0 → lcDrained s who = true →
      (intRefusal s 6 true fuseArray = none →
        let old := fun (i : Nat) => s.fuse.rows.getD i 0
        let com := s.lcs.st = 2 ∧ g = 3
        (∃ s', exec (.lifecycleTransition {}) s = .next s' ∧ s'.lcs.st = g ∧ s'.lcs.result = 1 ∧ s'.lcs.transition = none ∧
          s'.fuse.rows = s.fuse.rows.set k (old k ||| row) ∧ s'.dome.cur = none ∧ s'.dome.next = none ∧
          s'.dev.ready = false ∧ s'.cus.cer = none ∧ s'.vault.groups = [] ∧ (s'.pwr.cause = 16) ∧
          (4 ≤ g → s'.dome.ledger = {} ∧ s'.dome.witness = [] ∧ s'.dome.log = [])) ∧
        (k + 1 < 24 → ∃ s', exec (.lifecycleTransition { row := .retry }) s = .next s' ∧ s'.lcs.st = g ∧
          s'.fuse.rows = (s.fuse.rows.set k (old k ||| 0xFFFFFFFF)).set (k + 1)
            ((s.fuse.rows.set k (old k ||| 0xFFFFFFFF)).getD (k + 1) 0 ||| row)) ∧
        (k + 1 = 24 → ∀ how, how = .retry ∨ how = .lost → ∃ s', exec (.lifecycleTransition { row := how }) s = .next s' ∧ s'.lcs.st = 6 ∧
          s'.fuse.rows = s.fuse.rows.set k (old k ||| 0xFFFFFFFF)) ∧
        (∀ i b, com → blankPolicy s = some i → ∃ s', exec (.lifecycleTransition { block := .cut b }) s = .next s' ∧
          s'.fuse.policy = (setPolicy s i (fit 49 b)).fuse.policy ∧ s'.fuse.rows = s.fuse.rows ∧ s'.fuse.loaded = false) ∧
        (¬ com → ∀ b, (scanRow { rowScan s with blank := false, ok := true } (BitVec.ofNat 32 (leVal b))).ok = false →
          ∃ s', exec (.lifecycleTransition { row := .cut b }) s = .next s' ∧
          s'.fuse.rows = s.fuse.rows.set k (old k ||| BitVec.ofNat 32 (leVal b)) ∧ s'.dev.ready = false ∧ s'.fuse.loaded = false)) ∧
      (∀ how, how = .lost ∨ (how = .ok ∧ intRefusal s 6 true fuseArray ≠ none) → ∃ s', exec (.lifecycleTransition { row := how }) s = .next s' ∧
        s'.lcs.st = 6 ∧ s'.fuse.lost = true ∧ s'.dome.cur = none ∧ s'.dome.next = none ∧ s'.dome.dik = none ∧ fuseState s' = 6))) ∧
  (∀ s : State, s.lcs.transition = none → exec .holdupOkLow s = .next { s with pwr := { s.pwr with holdup := false } }) ∧
  (∀ (s : State), s.dev.ready = false → exec .warmReset s = .next s ∧ exec (.mfFlr false) s = .next s) ∧
  (∀ s : State, s.dev.ready = true → ∀ i ∈ ([Instr.warmReset, .mfFlr false] : List Instr), ∃ s', exec i s = .next s' ∧
    s'.dev.ready = false ∧ s'.jobs = [] ∧ s'.bind = [] ∧ s'.keep.lines = [] ∧ s'.cus.cer = none ∧ s'.lcs.transition = none ∧
    s'.hif.numTf = 0 ∧ s'.hif.cpls = [] ∧ s'.time = s.time ∧ s'.fuse = s.fuse ∧ s'.dev.straps = s.dev.straps ∧
    s'.reel = { s.reel with session := none, inbound := none } ∧ s'.dome.ledger = s.dome.ledger ∧ s'.dome.cur = s.dome.cur ∧
    s'.curves = s.curves ∧ s'.mtr.tally = s.mtr.tally ∧ s'.cus.table = s.cus.table ∧ s'.host = s.host ∧ s'.pending = s.pending ∧
    (∀ t c, t < 17 → (s'.ctx t c).st = .free ∧ (s'.ctx t c).call = none) ∧
    (∀ e, (∃ r, (e, r) ∈ s'.acu.tf) → ∃ r, (e, r) ∈ s.acu.tf ∧ r.lock = true) ∧
    s'.pwr.cause = (if i = .warmReset then 4 else 8)) ∧
  (∀ (s : State) (p : Bool) (cut : Option (Bool × Nat)), ∃ s', exec (.coldReset p cut) s = .next s' ∧
    s'.dome = { s.dome with ledger := (cut.map (fun x => cutLedger s x.1 x.2)).getD s.dome.ledger } ∧ s'.host = s.host ∧ s'.pending = s.pending ∧
    s'.fuse.rows = s.fuse.rows ∧ s'.fuse.policy = s.fuse.policy ∧ s'.fuse.sparing = s.fuse.sparing ∧ s'.fuse.loaded = false ∧
    s'.vault.mem = s.vault.mem ∧ s'.vault.journalLost = s.vault.journalLost ∧ s'.mtr.firstId = s.mtr.firstId ∧
    s'.mtr.lastId = s.mtr.lastId ∧ s'.towers = State.reset.towers ∧ s'.time = State.reset.time ∧ s'.reel = State.reset.reel ∧
    s'.acu = State.reset.acu ∧ s'.sup = State.reset.sup ∧ s'.curves = State.reset.curves ∧ s'.jobs = [] ∧ s'.bind = [] ∧
    s'.cus = State.reset.cus ∧ s'.lcs = State.reset.lcs ∧ s'.dev = State.reset.dev) ∧
  (∀ (s : State) (tn : BitVec 24), (s.dev.tnPhase ≠ 0 → exec (.strapSample tn) s = .next s) ∧
    (s.dev.tnPhase = 0 → ∃ s', exec (.strapSample tn) s = .next s' ∧ s'.dev.straps = tn ∧ s'.dev.tnPhase = 1 ∧ s'.hif.reversed = tn.getLsbD 9 ∧
      s'.reel.role = tn.toNat / 4 % 4 ∧ s'.reel.closed = tn.getLsbD 4 ∧ s'.dev.strapErr = decide (tn.toNat % 4 = 3))) ∧
  (∀ s : State, (s.fuse.loaded = true ∨ s.dev.tnPhase ≠ 1 → exec .fuseLoad s = .next s) ∧
    (s.fuse.loaded = false → s.dev.tnPhase = 1 → ∃ s', exec .fuseLoad s = .next s' ∧ s'.fuse.loaded = true ∧
      s'.lcs.st = fuseState s ∧ s'.fuse.rows = s.fuse.rows ∧ s'.dome.dik = dikOf s (fuseState s) ∧
      s'.dev.tnPhase = (if fuseState s = 1 ∨ fuseState s = 4 then 3 else 2))) ∧
  (∀ (s : State) (l : List (Nat × Bool × Nat)) (sp so : List Nat) (core : Bool) (us : Nat),
    (s.fuse.loaded = false ∨ s.dev.ready = true → exec (.deviceReady l sp so core us) s = .next s) ∧
    (s.fuse.loaded = true → s.dev.ready = false → ∃ s', exec (.deviceReady l sp so core us) s = .next s' ∧ s'.dev.ready = true ∧
      s'.dev.bootUs = min us 65535 ∧ s'.dev.selftestFail = (core && decide (s.lcs.st < 5)) ∧ s'.fuse = s.fuse ∧ s'.time = s.time)) ∧
  (∀ (s : State) (sp w : Nat) (rev : Bool),
    let ok := sp ∈ ([0, 3, 4, 5] : List Nat) ∧ (w ∈ ([1, 2, 4, 8] : List Nat) ∨ (sp = 0 ∧ w = 0)) ∧ rev = s.hif.reversed
    (¬ ok → exec (.linkChange sp w rev) s = .next s) ∧
    (ok → ∃ s', exec (.linkChange sp w rev) s = .next s' ∧ s'.hif.speed = sp ∧ s'.hif.width = w ∧ s'.hif.reversed = s.hif.reversed ∧ s'.hif.qps = s.hif.qps ∧
      s'.towers = s.towers))

/-- Every step of every command keeps the invariant of the state (R395; R387; R427; R445) -/
def Obligations.EveryStepKeepsTheInvariant : Prop :=
  ∀ s s' : State, Inv s → step s = .next s' → Inv s'

/-- The state after reset meets the invariant, with no command waiting, READY 0, fuses not loaded and straps not
sampled (R448; R445) -/
def Obligations.ResetMeetsTheInvariant : Prop :=
  Inv State.reset ∧ State.reset.pending = [] ∧ State.reset.dev.ready = false ∧ State.reset.fuse.loaded = false ∧
  State.reset.dev.tnPhase = 0 ∧ State.reset.host = [] ∧ State.reset.jobs = [] ∧ State.reset.bind = [] ∧
  (∀ t c, (State.reset.ctx t c).st = .free ∧ (State.reset.ctx t c).call = none) ∧ step State.reset = .next (tick State.reset)

/-- No step clears a fuse bit, and each step takes exactly the command at the front of the queue (R394; R399; R400;
R437; log 88) -/
def Obligations.NoStepClearsAFuse : Prop :=
  ∀ s s' : State, step s = .next s' → fusesKept s.fuse s'.fuse ∧ s'.pending = s.pending.tail

/-- The end of a call: one completion in handoff order, the context free, memory of the host and of the block as
before (R32; R91) -/
def Obligations.CallEndHandsOffCompletion : Prop :=
  ∀ (s : State) (t c st table spire : Nat) (res : Bytes) (k : Call), (s.ctx t c).call = some k → jobAt s t c = none →
    (s.ctx t c).work.outLen = 0 →
    let s' := finishCall s t c st table spire res
    let x := s.ctx t c
    let path := (if jobOpCall s t c then 36 else table) + (if x.keepHit then 14 else 0) + x.fetchCycles + x.waits
    (s'.ctx t c).st = .free ∧ (s'.ctx t c).call = none ∧ (s'.ctx t c).needs = [] ∧
    (∀ l ∈ (s'.tower t).clanes ++ (s'.tower t).hlanes, l.owner ≠ some c) ∧
    s'.host = s.host ∧ s'.keep = { s.keep with clock := s'.keep.clock } ∧ s'.vault = s.vault ∧ s'.dome = s.dome ∧ s'.jobs = s.jobs ∧
    ((x.keysOk = false ∨ st = stDeviceFault ∨ st = stStallBroken) → (s'.tower t).cache = (s.tower t).cache ∧ s'.keep = s.keep) ∧
    (x.keysOk = true → st ≠ stDeviceFault → st ≠ stStallBroken → x.keys.length = 1 → t < s.towers.length →
      (s'.tower t).cache = (s.tower t).cache.map (fun e =>
        let h := handleOf k.desc 0
        if e.2.part = hPart h ∧ e.2.cls = hCls h ∧ e.2.idx = hIdx h then
          (e.1, { e.2 with uses := e.2.uses + 1, used := s.keep.clock }) else e)) ∧
    s'.pending = s.pending ∧ (∀ u, u ≠ t → s'.tower u = s.tower u) ∧
    ((byteAt k.desc 10 = (s.qp k.fn k.qp).gen ∧ k.dead = false ∧ (isMf k.fn = true ∨ (s.tf k.fn).frozen = false)) →
      s'.hif.cpls = s.hif.cpls ++ [{
        fn := k.fn, qp := k.qp, irqNow := bitOf (byteAt k.desc 2) 2
        bytes := sub k.desc 4 4 ++ leBytes 2 st ++ sub k.desc 10 1 ++
          leBytes 1 (4 * flag x.keepHit + 8 * flag x.vaultHit + 16 * flag k.degraded) ++
          leBytes 4 (min path (2 ^ 32 - 1)) ++ leBytes 4 (k.bell.getD 0) ++ fit 48 res }]) ∧
    ((byteAt k.desc 10 ≠ (s.qp k.fn k.qp).gen ∨ k.dead = true) → s'.hif.cpls = s.hif.cpls)

/-- ECHO completes OK after 34 path cycles with its payload in RESULTS (R94) -/
def Obligations.EchoReturnsItsPayload : Prop :=
  ∀ (s : State) (t c : Nat) (k : Call), atFigure s t c 0x0001 = true → (s.ctx t c).call = some k → jobAt s t c = none →
    (s.ctx t c).work.outLen = 0 → (s.ctx t c).keepHit = false → (s.ctx t c).vaultHit = false → (s.ctx t c).fetchCycles = 0 →
    byteAt k.desc 10 = (s.qp k.fn k.qp).gen → k.dead = false → (isMf k.fn = true ∨ (s.tf k.fn).frozen = false) →
    ∃ s', exec (.echo t c .none) s = .next s' ∧
      s'.hif.cpls = s.hif.cpls ++ [{
        fn := k.fn, qp := k.qp, irqNow := bitOf (byteAt k.desc 2) 2
        bytes := sub k.desc 4 4 ++ leBytes 2 stOk ++ sub k.desc 10 1 ++ leBytes 1 (16 * flag k.degraded) ++
          leBytes 4 (min (34 + (s.ctx t c).waits) (2 ^ 32 - 1)) ++ leBytes 4 (k.bell.getD 0) ++ fit 48 (sub k.desc 64 48) }] ∧
      (s'.ctx t c).st = .free ∧ s'.host = s.host ∧ s'.keep = { s.keep with clock := s'.keep.clock } ∧ s'.vault = s.vault ∧
      s'.dome = s.dome ∧ ∀ u, u ≠ t → s'.tower u = s.tower u

/-- A fault reported for a call ends it and no figure takes its final step (R317; R384) -/
def Obligations.FigureFaultsEndCallsUntouched : Prop :=
  ∀ (s₀ : State) (t c op : Nat) (f : State → State),
    let s := spireSpent (pastYield s₀ t c) t c
    (atFigure s₀ t c op = true → ∃ n, runFigure s₀ t c op .ecc f =
      finishCall { s with free := s.free + 1, sup := { s.sup with eccUncorr := satAdd 32 s.sup.eccUncorr 1 } } t c stDeviceFault n 0 []) ∧
    (atFigure s₀ t c op = true → holdsSpire s₀ t c = true → runFigure s₀ t c op .spire f =
      (let w := s.tower t
       let s1 := raise (s.setTower t { w with spire := { w.spire with faults := satAdd 32 w.spire.faults 1 } }) (pgTower t) 3
       retireSpire (deviceFault s1 t c) t)) ∧
    (∀ a : State, t < a.towers.length → ((retireSpire a t).tower t).spire.retired = true) ∧
    (atFigure s₀ t c op = true → (s₀.ctx t c).grant ≠ [] → runFigure s₀ t c op .keepWrite f =
      deviceFault (dropLines s (fun k _ => (s.ctx t c).grant.contains k)) t c) ∧
    (∀ (k : Call) (w ok : Bool) (a : Nat), atFigure s₀ t c op = true → (s₀.ctx t c).call = some k →
      let p := pastYield s₀ t c
      let why := ctxRefusal p k (workDesc p t c) w a
      let kind := why.getD 4
      (why.isSome = true ∨ ok = false → runFigure s₀ t c op (.access w a ok) f =
        suspectTower (abortCall (logViolation p 2 kind w false (t + 32 * c) (a % 2 ^ 32) (a / 2 ^ 32)) t c .frozen) t) ∧
      (why = none → ok = true → runFigure s₀ t c op (.access w a ok) f = f p)) ∧
    (holdsSpire s₀ t c = false → runFigure s₀ t c op .spire f = s₀) ∧ ((s₀.ctx t c).grant = [] → runFigure s₀ t c op .keepWrite f = s₀) ∧
    (∀ fault, atFigure s₀ t c op = false → runFigure s₀ t c op fault f = s₀)

/-- The checks of admission and the fate that the first failing one decides (R23) -/
def Obligations.AdmissionJudgesInOrder : Prop :=
  ∀ (s₀ : State) (fn q : Nat) (d : Bytes) (r : List Bytes),
    let s := commitArb s₀
    (5 ≤ s.lcs.st → exec .admission s₀ = .next s) ∧
    (s.lcs.st < 5 → s.cycle % 4 = 0 → s.caller.nextRound ≤ s.cycle → queuesOpen s = true → queueChoice s = some (fn, q) →
    ((queueRound s fn q).qp fn q).fetched = d :: r →
    let a := (queueRound s fn q).setQp fn q { (queueRound s fn q).qp fn q with fetched := r }
    let i := admitInfo a (isMf fn) d
    let k := newCall a fn q d
    let b := { a with caller := { a.caller with seq := a.caller.seq + 1 } }
    let held := b.setQp fn q { b.qp fn q with live := (b.qp fn q).live + 1 }
    let ended := fun (j : Call) (st : Nat) (res : Bytes) =>
      handoff (charge held fn 15 1) j (cplBytes j st (cflags false false false j.degraded) 29 res)
    let illegal := opDefined (opOf d) = false ∨ (i.mfOnly = true ∧ isMf fn = false)
    (byteAt d 10 ≠ (a.qp fn q).gen → exec .admission s₀ = .next a) ∧
    (byteAt d 10 = (a.qp fn q).gen → leAt d 8 2 ≠ fn → exec .admission s₀ = .next (spoof a fn 2 d)) ∧
    (byteAt d 10 = (a.qp fn q).gen → leAt d 8 2 = fn → illegal →
      exec .admission s₀ = .next (ended { k with isJob := false } 0x0100 [])) ∧
    (byteAt d 10 = (a.qp fn q).gen → leAt d 8 2 = fn → ¬ illegal →
      (i.part = true → partBound a fn d = false → exec .admission s₀ = .next (spoof a fn 3 d)) ∧
      ((i.part = true → partBound a fn d = true) →
        (reservedSet i d = true → exec .admission s₀ = .next (ended k 0x0101 [])) ∧
        (reservedSet i d = false →
          (∀ n, lengthFault i d = some n → exec .admission s₀ = .next (ended k 0x0102 (leBytes 4 n))) ∧
          (lengthFault i d = none → exec .admission s₀ = .next (enqueue (chargeAdmitted held k) k))))))

/-- The head that a dispatch takes, and the starvation count after it (R305) -/
def Obligations.DispatchFollowsClassOrder : Prop :=
  ∀ s : State,
    let hs := (heads s).filter (fun h => !(towersFor s h.2).isEmpty)
    (∀ r k, (r, k) ∈ heads s ↔ (∃ i q, s.caller.queues[i]? = some (k :: q) ∧ r = 2 * i) ∨ (∃ q, s.caller.jobQ = k :: q ∧ r = 2 * byteAt k.desc 3 + 1)) ∧
    (∀ k, enqueue s k = if toJobQ k then { s with caller := { s.caller with jobQ := s.caller.jobQ ++ [k] } }
      else { s with caller := { s.caller with queues := s.caller.queues.modify (byteAt k.desc 3) (· ++ [k]) } }) ∧
    (hs = [] → chooseHead s = none) ∧
    (∀ k n served, chooseHead s = some (k, n, served) →
      (∃ r, (r, k) ∈ hs) ∧
      ((s.caller.limit ≠ 0 ∧ s.caller.limit ≤ s.caller.starve) →
        n = 0 ∧ served = true ∧ ∀ h ∈ hs, h.2.seq < 2 ^ 80 → k.seq ≤ h.2.seq) ∧
      (¬ (s.caller.limit ≠ 0 ∧ s.caller.limit ≤ s.caller.starve) →
        served = false ∧ ∃ r, (r, k) ∈ hs ∧ (∀ h ∈ hs, h.1 < 100 → r ≤ h.1) ∧
          n = if hs.any (fun g => decide (r < g.1)) then s.caller.starve + 1 else 0))

/-- DISPATCH places the chosen call in the tower that R27 gives, in its lowest free context (R27) -/
def Obligations.DispatchPlacesCall : Prop :=
  ∀ (s : State) (k : Call) (n : Nat) (served : Bool) (t c : Nat), s.pwr.thermal < 2 → s.caller.nextDispatch ≤ s.cycle →
    chooseHead s = some (k, n, served) → towerFor s k = some t → (freeCtxs s t).head? = some c →
    (let u := unqueue s.caller k
     ∀ bad fixed, exec (.dispatch bad fixed) s = .next (startCall (cacheErrors (placeCall { s with caller := { u with
        nextDispatch := s.cycle + 4, starve := n, starveServes := if served then satAdd 32 u.starveServes 1 else u.starveServes } } k t c) t c bad fixed) t c)) ∧
    (∀ a : State, cacheErrors a t c [] 0 = a) ∧
    t ∈ towersFor s k ∧ (s.ctx t c).st = .free ∧
    ((opInfo (isMf k.fn) k.desc).handles > 0 → s.caller.map.getD (k.hash % 64) 0 ∈ towersFor s k →
      t = s.caller.map.getD (k.hash % 64) 0) ∧
    (((opInfo (isMf k.fn) k.desc).handles = 0 ∨ s.caller.map.getD (k.hash % 64) 0 ∉ towersFor s k) →
      ∀ u ∈ towersFor s k, (freeCtxs s u).length ≤ (freeCtxs s t).length ∧
        ((freeCtxs s u).length = (freeCtxs s t).length → t ≤ u))

/-- The lane arbiter grants in the order of class, age and context, and a request that is not granted blocks the later
ones (R256) -/
def Obligations.LaneArbiterGrantsInRankOrder : Prop :=
  ∀ (s : State) (t : Nat) (hash : Bool),
    (∀ c d, c ∈ (laneDecide t hash 8 s (laneWaiters s t hash)).2 → d ∈ laneWaiters s t hash →
      d ∉ (laneDecide t hash 8 s (laneWaiters s t hash)).2 →
      ctxCls s t c ≤ 3 → ctxCls s t d ≤ 3 → (s.ctx t c).age < 2 ^ 64 → (s.ctx t d).age < 2 ^ 64 →
      ctxCls s t c < ctxCls s t d ∨ (ctxCls s t c = ctxCls s t d ∧
        ((s.ctx t d).age < (s.ctx t c).age ∨ ((s.ctx t d).age = (s.ctx t c).age ∧ c < d)))) ∧
    (∀ c k cfg, bestBy (ctxRank s t) (laneWaiters s t hash) = some c → laneAsk s t hash c = some (k, cfg) →
      (freeLanes s t hash).length < k → laneDecide t hash 8 s (laneWaiters s t hash) = (s, []))

/-- LANE_GRANT gives a waiting call its lanes, and LANE_SAVE takes a marked lane from its holder (R257; R258; R269;
R270; R307; log 15; log 85) -/
def Obligations.LaneGrantAndSave : Prop :=
  (∀ (s : State) (t c k cfg : Nat) (hash : Bool), laneWaiters s t hash = [c] → laneAsk s t hash c = some (k, cfg) →
    ∀ ends, (k ≤ (freeLanes s t hash).length → exec (.laneGrant t hash none ends) s =
      .next (unstall (markLanes (settleChunk (grantLanes s t hash c cfg ((freeLanes s t hash).take k)) t c) t hash ends)
        (fun u n => u == t && n.isLanes hash))) ∧
    ((freeLanes s t hash).length < k → exec (.laneGrant t hash none ends) s = .next (markLanes s t hash ends))) ∧
  (∀ (s : State) (t c i : Nat) (hash : Bool) (l : Lane), ((s.tower t).lanes hash)[i]? = some l → l.owner = some c → l.marked = true →
    t < s.towers.length → c < (s.tower t).ctxs.length → (∀ m ∈ (s.tower t).lanes hash, m.faulty = false) →
    ∃ s', exec (.laneSave t hash i false) s = .next s' ∧
      (((s'.tower t).lanes hash)[i]?).map (·.owner) = some none ∧
      (∀ m ∈ (s'.tower t).clanes ++ (s'.tower t).hlanes, m.owner = some c → m.marked = true) ∧
      (s'.ctx t c).st = .waiting ∧ (s'.ctx t c).waits = (s.ctx t c).waits + (if (s.ctx t c).st = .waiting then 0 else 2) ∧
      (s'.ctx t c).age = (if (s.ctx t c).saved = [] then (s.ctx t c).laneAge else (s.ctx t c).age) ∧
      (s'.ctx t c).saved = (s.ctx t c).saved ++ [{ hash := hash, config := l.config, regs := l.regs.toSave }] ∧
      (s'.ctx t c).call = (s.ctx t c).call ∧ (s'.ctx t c).work = (s.ctx t c).work ∧
      s'.host = s.host ∧ s'.keep = s.keep ∧ s'.vault = s.vault ∧ s'.hif = s.hif)

/-- A residue mismatch of a held lane ends its figure DEVICE_FAULT, is counted and raises LANE_FAULT (R260) -/
def Obligations.LaneFaultLeavesNoEffect : Prop :=
  ∀ (s₀ : State) (t c op i : Nat) (hash : Bool) (l : Lane) (f : State → State), atFigure s₀ t c op = true →
    ((s₀.tower t).lanes hash)[i]? = some l →
    let s := spireSpent (pastYield s₀ t c) t c
    (l.owner = some c → runFigure s₀ t c op (.lane hash i) f =
      (let s1 := modLane s t hash i (fun x => { x with faulty := true })
       let s2 := raise (s1.setTower t { s1.tower t with laneFaults := satAdd 32 (s1.tower t).laneFaults 1 }) (pgTower t) 1
       retireIdle (deviceFault s2 t c) t hash)) ∧
    (l.owner ≠ some c → runFigure s₀ t c op (.lane hash i) f = s₀)

/-- DRBG_DRAW serves the highest-ranked waiting draw whole, or ends its call RNG_UNAVAILABLE where the instance is
STARVED (R277) -/
def Obligations.DrawsAreServedWholeInRankOrder : Prop :=
  ∀ (s : State) (t c n : Nat), drawTurn s t = some c → drawLen s t c = some n →
    (n ≤ (s.tower t).buf.length →
      (let s1 := s.setTower t { s.tower t with buf := (s.tower t).buf.drop n, draws := satAdd 32 (s.tower t).draws 1 }
       let x := s1.ctx t c
       exec (.drbgDraw t) s = .next (unstall (popNeed
        (s1.setCtx t c { x with work := { x.work with drawn := x.work.drawn ++ (s.tower t).buf.take n } }) t c)
          (fun u m => u == t && m.isDraw)))) ∧
    (∀ e, e < 8 → drawLen s t e ≠ none → ctxCls s t c ≤ 3 → ctxCls s t e ≤ 3 → (s.ctx t c).age < 2 ^ 64 → (s.ctx t e).age < 2 ^ 64 → e ≠ c →
      ctxCls s t c < ctxCls s t e ∨ (ctxCls s t c = ctxCls s t e ∧
        ((s.ctx t e).age < (s.ctx t c).age ∨ ((s.ctx t e).age = (s.ctx t c).age ∧ c < e)))) ∧
    ((s.tower t).buf.length < n → starved s t = true → exec (.drbgDraw t) s = .next (rngUnavailable s t c)) ∧
    ((s.tower t).buf.length < n → starved s t = false → exec (.drbgDraw t) s = .next s)

/-- NOISE_WINDOW, SEED_READY and the commands of the DRBG instances (R272; R273; R275; R276; R277; R278; log 14) -/
def Obligations.NoiseSourcesAndSeeds : Prop :=
  (∀ (s : State) (i : Nat) (w : Bytes) (x : NoiseSrc), s.rng.srcs[i]? = some x → x.role = 1 → s.lcs.st < 5 → s.rng.st = 1 → w.length = 128 →
    2 ≤ healthy s → s.sup.degradedSeen = supDegraded s →
    (samplesOf w).length = 1024 → longestRun (samplesOf w) < 61 → ((samplesOf w).filter (fun b => some b == (samplesOf w).head?)).length < 840 →
    (∀ j, starved s j = false) →
    exec (.noiseWindow i w) s = .next { s with rng := { s.rng with
      windows := s.rng.windows ++ [(i, w)]
      srcs := s.rng.srcs.set i { x with recent := (true :: x.recent).take 64, windows := satAdd 32 x.windows 1 } } }) ∧
  (∀ (s : State) (a b : Bytes) (r : List (Nat × Bytes)), s.rng.st = 1 → s.rng.pool.length < 4 → windowPair s.rng.windows = some (a, b, r) →
    exec .seedReady s = .next { s with rng := { s.rng with
      windows := r, pool := s.rng.pool ++ [sha3_256 (a ++ b)], seeds := (s.rng.seeds + 1) % 2 ^ 64 } }) ∧
  (∀ (s : State) (i : Nat) (a b : Bytes) (r : List Bytes), s.rng.pool = a :: b :: r → (inst s i).st = 0 → seedTurn s = some i →
    exec (.drbgInstantiate i) s = .next (spareSettle (starveCheck s { s with rng := { s.rng with
      pool := r, insts := s.rng.insts.set i { drbgInit (inst s i) a (b.take 16) (personal s i) with st := 1, reqs := 0 } } }))) ∧
  (∀ (s : State) (i : Nat) (a : Bytes) (r : List Bytes), s.rng.pool = a :: r → (inst s i).st = 2 → (inst s i).busy = 0 → seedTurn s = some i →
    exec (.drbgReseed i) s = .next (starveCheck s { s with rng := { s.rng with
      pool := r, insts := s.rng.insts.set i { inst s i with busy := 2, left := 56, seed := a } } })) ∧
  (∀ (s : State) (i : Nat), i < 17 → (inst s i).st = 1 → (inst s i).busy = 0 → (s.tower i).buf.length ≤ 192 →
    exec (.drbgGenerate i) s = .next { s with rng := { s.rng with
      insts := s.rng.insts.set i { inst s i with busy := 1, left := 56, reqs := (inst s i).reqs + 1 } } }) ∧
  (∀ (s : State) (i : Nat), i < 17 → (inst s i).busy = 1 → (inst s i).left = 0 → i < s.towers.length → ∃ s',
    exec (.drbgRequestDone i) s = .next s' ∧ (s'.tower i).buf = (s.tower i).buf ++ (drbgGen (inst s i) 64).2) ∧
  (∀ (s : State) (i : Nat), i < 17 → (inst s i).busy = 2 → (inst s i).left = 0 →
    exec (.drbgRequestDone i) s = .next { s with rng := { s.rng with insts := s.rng.insts.set i { drbgUpdate (inst s i) (drbgDf (inst s i).seed) with
      st := 1, reqs := 0, busy := 0, seed := [], reseeds := satAdd 32 (inst s i).reseeds 1 } } })

/-- RANDOM generates N bytes on instance 17, in dispatch order (R279) -/
def Obligations.RandomIsOneRequestOfInstance17 : Prop :=
  ∀ (s₀ : State) (t c : Nat), atFigure s₀ t c 0x0901 = true →
    let s := pastYield s₀ t c
    let n := randomN (workDesc s t c)
    let x := inst s 17
    let g := drbgGen x n
    let s1 := starveCheck s (setInst s 17 (reseedDue s { g.1 with reqs := x.reqs + 1 }))
    (starved s 17 = true → exec (.randomCall t c .none) s₀ = .next (rngUnavailable s t c)) ∧
    (starved s 17 = false → (randomEarlier s t c = true ∨ x.st ≠ 1) →
      exec (.randomCall t c .none) s₀ = .next (setNeeds s t c [.draw17 n])) ∧
    (starved s 17 = false → randomEarlier s t c = false → x.st = 1 →
      (formOf (workDesc s t c) ≠ 2 →
        exec (.randomCall t c .none) s₀ = .next (release17 (finishCall s1 t c stOk (35 + 8 * ceilDiv n 16) 0 g.2))) ∧
      (formOf (workDesc s t c) = 2 → (writeOut s1 t c g.2).2 = true →
        exec (.randomCall t c .none) s₀ =
          .next (release17 (finishCall (writeOut s1 t c g.2).1 t c stOk (34 + 8 * ceilDiv n 16) 0 []))))

/-- JOB_SUSPEND, JOB_RESUME, JOB_CANCEL and JOB_QUERY on the job they name (R101; R102; R103; R104; R105; log 32) -/
def Obligations.JobOperationsActOnTheirTarget : Prop :=
  ∀ (s₀ : State) (t c op : Nat) (k : Call),
    let s := pastYield s₀ t c
    atFigure s₀ t c op = true → (s.ctx t c).call = some k → jobOpEarlier s t c (workDesc s t c) = false →
    let asked := (op = 2 ∨ op = 3) ∧ isMf k.fn = true ∧ leAt (workDesc s t c) 68 2 ≠ mfNum
    let run := fun (o : Nat) => match o with
      | 2 => exec (.jobSuspend t c .none) s₀
      | 3 => exec (.jobResume t c .none) s₀
      | 4 => exec (.jobCancel t c .none) s₀
      | _ => exec (.jobQuery t c .none) s₀
    (2 ≤ op ∧ op ≤ 5) →
    (asked → run op = .next (finishCall s t c stBadParam 36 0 [])) ∧
    (¬ asked → targetJob s k = none → run op = .next (finishCall s t c stNoSuchJob 36 0 [])) ∧
    (∀ j, ¬ asked → targetJob s k = some j →
      (op = 2 → (j.suspended = true ∨ carrierStale s j = true) → run op = .next (finishCall s t c stJobState 36 0 [])) ∧
      (op = 2 → j.suspended = false → carrierStale s j = false → run op = .next (setNeeds
        (modJob s j.at_.1 j.at_.2 (fun y => { y with suspendBy := some (t, c) })) t c [.job j.at_.1 j.at_.2])) ∧
      (op = 3 → j.suspended = false → run op = .next (finishCall s t c stJobState 36 0 [])) ∧
      (op = 3 → j.suspended = true → run op = .next (fetchKeys (({ s with jobs := s.jobs.map (fun (y : Job) =>
        if y.fn == j.fn && y.tag == j.tag then { y with suspended := false, at_ := (t, c), qp := k.qp, suspendBy := none, cancelBy := none }
        else y) } : State).setCtx t c { s.ctx t c with work := j.work }) t c)) ∧
      (op = 4 → j.suspended = true → run op = .next (finishCall (dropJob s j) t c stOk 36 0 [])) ∧
      (op = 4 → j.suspended = false → run op = .next (setNeeds
        (modJob s j.at_.1 j.at_.2 (fun y => { y with cancelBy := some (t, c) })) t c [.job j.at_.1 j.at_.2])) ∧
      (op = 5 → ∃ p n, run op = .next (finishCall s t c stOk 36 0
        (leBytes 1 (if j.suspended then 2 else 1) ++ leBytes 1 j.qp ++ leBytes 2 j.fn ++ leBytes 4 j.tag ++ leBytes 8 p ++ leBytes 8 n)) ∧
        (j.suspended = true → p = j.progress ∧ n = j.total) ∧
        (j.suspended = false → n = totalOf s j.at_.1 j.at_.2) ∧
        (j.suspended = false → streamOp (opOf j.call.desc) = true → p = j.progress) ∧
        (j.suspended = false → streamOp (opOf j.call.desc) = false → p = progressOf s j.at_.1 j.at_.2)))

/-- JOB_SUSPENSION and JOB_CANCELLATION of a running job that stands at a resume point (R100; R101; R103; 15 R432; log
32) -/
def Obligations.JobsStopAtResumePoints : Prop :=
  ∀ (s : State) (t c : Nat) (j : Job), jobAt s t c = some j →
    (atResume s t c = false → exec (.jobSuspension t c) s = .next s ∧ exec (.jobCancellation t c) s = .next s) ∧
    (atResume s t c = true → (j.suspendBy.isSome = true ∨ s.pwr.thermal = 2) →
      (let p := progressOf s t c
       let n := totalOf s t c
       let s1 := finishCore { s with free := s.free + 1 } t c stSuspended (stopPath s t c + 1) 0 (leBytes 8 p ++ leBytes 8 n)
       let s2 := modJob s1 t c (fun y => { y with
        suspended := true, progress := p, total := n, work := entryWork s t c
        suspendBy := none, cancelBy := none })
       exec (.jobSuspension t c) s = .next (finishWaiter s2 j.suspendBy stOk))) ∧
    (atResume s t c = true → j.cancelBy.isSome = true →
      (let s1 := modJob s t c (fun y => { y with cancelBy := none })
       exec (.jobCancellation t c) s = .next (finishWaiter (jobEnded (finishCore { s1 with free := s1.free + 1 } t c stCancelled
        (stopPath s1 t c) 0 []) (jobAt s1 t c)) j.cancelBy stOk))) ∧
    (let x := s.ctx t c
     let d := workDesc s t c
     let op := opOf d
     let w := entryWork s t c
     let end_ := (if x.keysOk = true ∧ x.keys ≠ [] then 5 else 0) + 5
     w.inBase = x.work.input.length ∧ w.outBase = x.work.outLen ∧ w.base = partDone s t c ∧ (op ≠ 0x0807 → w.half = halfOf s t c ∧ w.pc = x.work.pc) ∧
     w.progress = x.work.progress ∧ w.phase = x.work.phase ∧ w.input = x.work.input ∧ w.vals = x.work.vals ∧
     (op = 0x0801 ∨ op = 0x0803 → stopPath s t c =
       38 + (if op = 0x0801 then rsaH (par d 64) (par d 65) (rsaBits (keyOf s t c 0) / 8) else 0) + (x.work.sp - x.work.base) + 3 + end_) ∧
     (op = 0x0805 ∨ op = 0x0807 ∨ op = 0x0809 → stopPath s t c = 38 + (x.work.sp - x.work.base) + 3 + end_) ∧
     (op = 0x0401 ∨ op = 0x0402 → par d 64 = 4 →
       stopPath s t c = 34 + (laneTime (keyOf s t c 0).alg * (x.work.input.length / 16) - x.work.base) + end_))

/-- QP_SQ_TAIL_DB and QP_CQ_HEAD_DB: the new index, the recorded write and the range error (R46; R53) -/
def Obligations.DoorbellsMoveTheRings : Prop :=
  ∀ (s : State) (fn q : Nat) (v : Word), qpShut s fn q = false →
    let x := s.qp fn q
    let i := v.toNat % 65536
    let dist := fun (b : Nat) => (b + 2 ^ x.cqK - x.cqHead) % 2 ^ x.cqK
    (x.enable = false → exec (.qpSqTailDb fn q v) s = .next s ∧ exec (.qpCqHeadDb fn q v) s = .next s) ∧
    (x.enable = true →
      (2 ^ x.sqK ≤ i → exec (.qpSqTailDb fn q v) s = .next (qpWerr s fn)) ∧
      (i < 2 ^ x.sqK → exec (.qpSqTailDb fn q v) s = .next (s.setQp fn q { x with sqTail := i })) ∧
      (2 ^ x.cqK ≤ i → exec (.qpCqHeadDb fn q v) s = .next (qpWerr s fn)) ∧
      (i < 2 ^ x.cqK → 1 ≤ dist i → dist i ≤ dist x.cqTail →
        exec (.qpCqHeadDb fn q v) s = .next (s.setQp fn q { x with cqHead := i })) ∧
      (i < 2 ^ x.cqK → (dist i = 0 ∨ dist x.cqTail < dist i) → exec (.qpCqHeadDb fn q v) s = .next (qpError s fn q 1)))

/-- QP_ENABLE, QUEUE_RESET and HELD_QUEUE_RESET (R48; R63) -/
def Obligations.QueueResetsAndEnables : Prop :=
  (∀ (s : State) (fn q : Nat), qpShut s fn q = false → (s.qp fn q).enable = false → exec (.qpEnable fn q) s =
    .next (s.setQp fn q { s.qp fn q with enable := true, sqHead := 0, sqTail := 0, cqTail := 0, cqHead := 0, phase := true })) ∧
  (∀ (s : State) (fn q : Nat) (e : Bool), qpShut s fn q = false → (s.qp fn q).old ≠ 0 →
    exec (.queueReset fn q true e) s = .next (s.setQp fn q { s.qp fn q with heldReset := some e })) ∧
  (∀ (s : State) (fn q : Nat), qpShut s fn q = false → (s.qp fn q).old = 0 →
    let x := s.qp fn q
    let gone := s.hif.cpls.filter (fun c => c.fn == fn && c.qp == q)
    let s' := ({ s.setQp fn q { x with
        gen := (x.gen + 1) % 256, enable := false, err := 0, fetched := [], old := x.live - gone.length, live := 0
        reads := (x.reads.filter (fun r => r.issued && r.data.isNone)).map (fun r => { r with dropped := true })
        heldReset := none, heldCfg := false, unsignalled := 0, coalAge := 0, age := 0 } with
      jobs := s.jobs.filter (fun j => !(j.fn == fn && j.qp == q && j.suspended)) } : State)
    let t := ({ s' with hif := { s'.hif with
      cpls := s.hif.cpls.filter (fun c => !(c.fn == fn && c.qp == q)) } } : State)
    exec (.queueReset fn q true false) s = .next t ∧
    (x.enable = true → exec (.queueReset fn q false false) s = .next t) ∧
    exec (.queueReset fn q true true) s = .next (Sys2Proof.Machine.qpEnable t fn q)) ∧
  (∀ (s : State) (fn q : Nat) (e : Bool), qpExists s fn q = true → (s.qp fn q).old = 0 → (s.qp fn q).heldReset = some e →
    let s1 := Sys2Proof.Machine.queueReset s fn q
    let s2 := if (s.qp fn q).heldCfg then s1.setQp fn q { s1.qp fn q with
      sqBase := 0, cqBase := 0, sqK := 4, cqK := 4, prio := 0, coalLog := 0, coalTime := 0 } else s1
    exec (.heldQueueReset fn q) s = .next (if e then Sys2Proof.Machine.qpEnable s2 fn q else s2))

/-- What DESC_FETCH reads: at most 8 entries of one ring pass and one page, within the completion space (R49; R52) -/
def Obligations.DescriptorReadsStayWithinLimits : Prop :=
  ∀ (s : State) (fn q : Nat),
    let x := s.qp fn q
    qpExists s fn q = true → x.enable = true → x.err = 0 → qpHeld s fn = false → s.hif.np < 768 →
    x.sqHead < 2 ^ x.sqK → x.sqTail < 2 ^ x.sqK → x.sqHead ≠ x.sqTail → qpOutstanding x < 2 ^ x.cqK - 1 →
    (∀ r ∈ x.reads, r.issued = true) →
    ∃ n, 1 ≤ n ∧ n ≤ 8 ∧ 128 * n ≤ max 128 s.hif.mrrs ∧ n ≤ ringDist x.sqK x.sqHead x.sqTail ∧ x.sqHead + n ≤ 2 ^ x.sqK ∧ (128 * x.sqHead) / 4096 = (128 * (x.sqHead + n) - 1) / 4096 ∧
      (let y := { x with reads := x.reads ++ [{ first := x.sqHead, count := n }] }
       exec (.descFetch fn q) s = .next (s.setQp fn q y) ∧ qpOutstanding y ≤ 2 ^ x.cqK - 1)

/-- DESC_READ_DONE: descriptors enter the fetch buffer in ring order, and an error stops the queue pair (R43; R49) -/
def Obligations.DescriptorsArriveInRingOrder : Prop :=
  ∀ (s : State) (fn q : Nat) (r : DescRead) (rs : List DescRead), (s.qp fn q).reads = r :: rs → r.issued = true → r.data = none →
    let s1 := ({ s with hif := { s.hif with np := s.hif.np - 1 } } : State)
    let y := { s.qp fn q with fetched := (s.qp fn q).fetched ++ (takeArrived rs).1, reads := (takeArrived rs).2 }
    (r.dropped = true → ∀ a, exec (.descReadDone fn q r.first a) s = .next (logAns (s1.setQp fn q y) fn a)) ∧
    (r.dropped = false → ∀ b : Bytes,
      let l := (List.range r.count).map (fun j => fit 128 (b.drop (128 * j)))
      exec (.descReadDone fn q r.first (.data b)) s = .next (s1.setQp fn q
        { s.qp fn q with fetched := (s.qp fn q).fetched ++ (l ++ (takeArrived rs).1), reads := (takeArrived rs).2 })) ∧
    (r.dropped = false → ∀ a : ReadAns, ansBytes a = none →
      exec (.descReadDone fn q r.first a) s = .next (qpError (logAns (s1.setQp fn q y) fn a) fn q 2))

/-- COMPLETION_WRITE stores 64 bytes at the completion tail, sets the phase bit and advances the tail (R51) -/
def Obligations.CompletionEntryIsWrittenAtTheTail : Prop :=
  ∀ (s : State) (fn q i : Nat) (c : Cpl), s.hif.cpls.findIdx? (fun e => e.fn == fn && e.qp == q) = some i →
    s.hif.cpls[i]? = some c → c.bytes.length = 64 → c.irqNow = false → s.hif.cplGranted = true →
    let x := s.qp fn q
    let a := x.cqBase + 64 * x.cqTail
    (isMf fn = true ∨ ((s.tf fn).frozen = false ∧ (s.tf fn).dirtyEn = false)) →
    ringDist x.cqK x.cqHead x.cqTail ≠ 2 ^ x.cqK - 1 → a % 4096 + 64 ≤ 4096 → x.unsignalled + 1 < 2 ^ x.coalLog →
    hostRefusal s fn true a = none → tblWf (0 : Byte) s.host = true → tblWf ({} : Qp) s.hif.qps = true →
    ∃ s', exec (.completionWrite fn q) s = .next s' ∧
      (∀ j, j < 64 → tblGet (0 : Byte) s'.host (a + j) =
        if j = 7 then c.bytes.getD 7 0 ||| (if x.phase then 1 else 0) else c.bytes.getD j 0) ∧
      (∀ b, (b < a ∨ a + 64 ≤ b) → tblGet (0 : Byte) s'.host b = tblGet (0 : Byte) s.host b) ∧
      (s'.qp fn q).cqTail = (x.cqTail + 1) % 2 ^ x.cqK ∧
      (s'.qp fn q).phase = (if (x.cqTail + 1) % 2 ^ x.cqK = 0 then !x.phase else x.phase) ∧
      s'.hif.cpls = s.hif.cpls.eraseIdx i ∧ s'.hif.cplGranted = false ∧ s'.hif.msgs = s.hif.msgs ∧ s'.towers = s.towers ∧ s'.keep = s.keep ∧
      s'.vault = s.vault ∧ s'.pending = s.pending

/-- COAL_TIMER_EXPIRY signals the completion vector and restarts count and timer (R54) -/
def Obligations.CoalescingTimerSignals : Prop :=
  ∀ (s : State) (fn q : Nat),
    let x := s.qp fn q
    let s1 := s.setQp fn q { x with unsignalled := 0, coalAge := 0 }
    (0 < x.unsignalled → x.coalTime ≠ 0 → 1024 * x.coalTime ≤ x.coalAge →
      exec (.coalTimerExpiry fn q) s = .next (signal s1 fn q)) ∧
    (x.coalAge < 1024 * x.coalTime → exec (.coalTimerExpiry fn q) s = .next s) ∧
    (∀ v, let m := s.msix fn
      let e := tblGet (0, 0, true) m.table v
      let masked := e.2.2 = true ∨ m.fmask = true ∨ (isMf fn = false ∧ (s.tf fn).frozen = true)
      (m.enable = false → signal s fn v = s) ∧
      (m.enable = true → masked → signal s fn v = s.setMsix fn { m with pba := m.pba ||| 2 ^ v }) ∧
      (m.enable = true → ¬ masked →
        signal s fn v = { s with hif := { s.hif with msgs := (fn, v, e.1, e.2.1) :: s.hif.msgs, msiWaiting := s.hif.msiWaiting + 1 } }))

/-- MBOX_TO_MF and CH_FROM_MF deliver a word where FULL is 0 and count a drop where it is 1 (R60) -/
def Obligations.MailboxDeliversOrDrops : Prop :=
  ∀ (s : State) (n : Nat) (v : Word), s.dev.ready = true → n < s.hif.numTf →
    let t := s.tf n
    (t.frozen = false → t.toMfFull = false →
      exec (.mboxToMf n v) s = .next (raise (s.setTf n { t with toMf := v, toMfFull := true }) pgMbox 1)) ∧
    (t.frozen = false → t.toMfFull = true →
      exec (.mboxToMf n v) s = .next (s.setTf n { t with toMfDrops := min (t.toMfDrops + 1) 255 })) ∧
    (t.frozen = true → exec (.mboxToMf n v) s = .next s) ∧
    (t.fromMfFull = false →
      exec (.chFromMf n v) s = .next (signal (s.setTf n { t with fromMf := v, fromMfFull := true }) n 8)) ∧
    (t.fromMfFull = true → exec (.chFromMf n v) s = .next (s.setTf n { t with fromMfDrops := min (t.fromMfDrops + 1) 255 }))

/-- TF_STOP, TF_STOP_CLEAR, TF_QUIESCED, TF_RESET_DONE, VF_ENABLE and TF_CEASE (R66; R67; R70; R75; log 19) -/
def Obligations.TfStopsQuiescesAndCeases : Prop :=
  (∀ (s : State) (n : Nat), s.dev.ready = true → n < s.hif.numTf → s.hif.numTf ≤ 1024 →
    exec (.tfStop n) s = .next (withdrawTf (s.setTf n { s.tf n with stop := true }) n) ∧
    exec (.tfStopClear n) s = .next (s.setTf n { s.tf n with stop := false, quiesced := false }) ∧
    ((s.tf n).stop = true → (s.tf n).quiesced = false → tfDrained s n = true →
      exec (.tfQuiesced n) s = .next (raise (s.setTf n { s.tf n with quiesced := true }) pgHif 2)) ∧
    ((s.tf n).resetting = true → (∀ q, q < 8 → (s.qp n q).old = 0 ∧ (s.qp n q).heldReset = none) →
      exec (.tfResetDone n) s = .next (raise (s.setTf n { s.tf n with resetting := false }) pgHif 4))) ∧
  (∀ (s : State) (n : Nat), s.dev.ready = true → s.hif.numTf ≤ n → n < 1024 →
    exec (.tfStop n) s = .next (recordWerr s pgHif) ∧ exec (.tfStopClear n) s = .next (recordWerr s pgHif)) ∧
  (∀ (s : State) (num : Nat), s.hif.numTf = 0 → num ≤ 1024 →
    exec (.vfEnable num) s = .next { s with hif := { s.hif with numTf := num } }) ∧
  (∀ (s : State) (num : Nat), num < s.hif.numTf → ∃ s', exec (.tfCease num) s = .next s' ∧ s'.hif.numTf = num ∧
    (∀ n, num ≤ n → qpExists s' n 0 = false ∨ n = mfNum) ∧
    (∀ l ∈ s'.caller.queues, ∀ k ∈ l, num ≤ k.fn → k.fn ≠ mfNum → k.dead = true) ∧ s'.bind = s.bind ∧ s'.mtr.tally = s.mtr.tally ∧
    s'.acu = s.acu ∧ s'.host = s.host)

/-- TF_RESET: what it clears of the TF and what it leaves (R65; R66; log 19) -/
def Obligations.TfResetClearsOnlyItsOwnState : Prop :=
  ∀ (s : State) (n : Nat), s.dev.ready = true → n < s.hif.numTf → s.hif.numTf ≤ 1024 → tblWf ({} : Tf) s.hif.tfs = true → tblWf ({} : Qp) s.hif.qps = true →
    ∃ s', exec (.tfReset n) s = .next s' ∧
      (let t := s.tf n
       let u := s'.tf n
       u.gen = (t.gen + 1) % 256 ∧ u.frozen = false ∧ u.toMf = 0 ∧ u.toMfFull = false ∧ u.toMfDrops = 0 ∧ u.fromMf = 0 ∧
       u.fromMfFull = false ∧ u.fromMfDrops = 0 ∧ u.msix = {} ∧ u.stop = t.stop ∧ u.cap = t.cap ∧ u.dirtyEn = t.dirtyEn ∧
       u.dirtyA = t.dirtyA ∧ u.dirtyB = t.dirtyB ∧ u.range = t.range ∧ u.pages = t.pages ∧ u.marks = t.marks) ∧
      (∀ q, q < 8 → (s.qp n q).old ≠ 0 → (s'.qp n q).heldReset = some false ∧ (s'.qp n q).heldCfg = true ∧ (s'.qp n q).gen = (s.qp n q).gen) ∧
      (∀ q, q < 8 → (s.qp n q).old = 0 → (s'.qp n q).gen = ((s.qp n q).gen + 1) % 256 ∧ (s'.qp n q).enable = false ∧ (s'.qp n q).err = 0 ∧
        (s'.qp n q).fetched = [] ∧ (s'.qp n q).sqBase = 0 ∧ (s'.qp n q).cqBase = 0 ∧ (s'.qp n q).sqK = 4 ∧ (s'.qp n q).cqK = 4 ∧
        (s'.qp n q).prio = 0 ∧ (s'.qp n q).coalLog = 0 ∧ (s'.qp n q).coalTime = 0) ∧
      (∀ m, m ≠ n → s'.tf m = s.tf m) ∧ (∀ m q, m ≠ n → q < 16 → s'.qp m q = s.qp m q) ∧
      s'.bind = s.bind ∧ s'.mtr = s.mtr ∧ s'.acu = s.acu ∧ s'.host = s.host ∧ s'.vault = s.vault ∧ s'.pending = s.pending

/-- HARVEST and HARVEST_DONE (R72) -/
def Obligations.HarvestSwitchesTheDirtyBuffer : Prop :=
  ∀ (s : State) (n : Nat), s.dev.ready = true → n < s.hif.numTf → s.hif.numTf ≤ 1024 →
    let t := s.tf n
    (t.dirtyEn = true → t.flush = none →
      exec (.dirtyHarvest n) s = .next (s.setTf n { t with flush := some t.marks, marks := [], actB := !t.actB })) ∧
    ((t.dirtyEn = false ∨ t.flush.isSome = true) → exec (.dirtyHarvest n) s = .next s) ∧
    (∀ l, t.flush = some l →
      let s1 := flushMarks s (if t.actB then t.dirtyA else t.dirtyB) l
      exec (.harvestDone n) s = .next (raise (s1.setTf n { s1.tf n with flush := none }) pgHif 3))

/-- SAVE and RESTORE through QCTX: a restored image gives back every field of the queue pair that was saved (R73) -/
def Obligations.QueueContextSavesAndRestores : Prop :=
  (∀ s : State, s.dev.ready = true → s.hif.qctxBusy = 0 →
    exec .qctxSave s = .next { s with hif := { s.hif with qctxBusy := 1 } } ∧
    exec .qctxRestore s = .next { s with hif := { s.hif with qctxBusy := 2 } }) ∧
  (∀ s : State, s.hif.qctxTf < s.hif.numTf →
    let n := s.hif.qctxTf
    let q := s.hif.qctxQ
    (s.hif.qctxBusy = 1 → (s.tf n).quiesced = true → exec .qctxCommandDone s =
      .next { s with hif := { s.hif with qctxBusy := 0, qctxResult := 0, qctxImage := qctxImageOf (s.qp n q) } }) ∧
    (s.hif.qctxBusy = 2 → (s.tf n).stop = true → (s.qp n q).enable = false → qctxBad s.hif.qctxImage = false →
      ∃ s', exec .qctxCommandDone s = .next s' ∧
        s'.hif.qps = (s.setQp n q (qctxApply (s.qp n q) s.hif.qctxImage)).hif.qps ∧ s'.hif.qctxResult = 0 ∧ s'.hif.qctxBusy = 0 ∧
        s'.hif.tfs = s.hif.tfs ∧ s'.towers = s.towers ∧ s'.host = s.host)) ∧
  (∀ x y : Qp, x.sqBase < 2 ^ 64 → x.sqBase % 4096 = 0 → x.cqBase < 2 ^ 64 → x.cqBase % 4096 = 0 → 4 ≤ x.sqK → x.sqK ≤ 16 → 4 ≤ x.cqK →
    x.cqK ≤ 16 → x.prio < 4 → x.gen < 256 → x.sqHead < 2 ^ x.sqK → x.sqTail < 2 ^ x.sqK → x.cqTail < 2 ^ x.cqK →
    x.cqHead < 2 ^ x.cqK → x.coalLog < 16 → x.coalTime < 256 →
    (qctxImageOf x).length = 48 ∧ qctxBad (qctxImageOf x) = false ∧
    qctxApply y (qctxImageOf x) = { y with
      sqBase := x.sqBase, cqBase := x.cqBase, sqK := x.sqK, cqK := x.cqK, prio := x.prio, gen := x.gen, sqHead := x.sqHead
      sqTail := x.sqTail, cqTail := x.cqTail, cqHead := x.cqHead, phase := x.phase, enable := x.enable, coalLog := x.coalLog
      coalTime := x.coalTime })

/-- The PIN field that is built for a destination format passes the PIN field check and carries the same PIN (R121) -/
def Obligations.NewPinFieldKeepsThePinDigits : Prop :=
  ∀ (f : Nat) (digits : List Nat) (drawn : Bytes), fmtOk f = true → 4 ≤ digits.length → digits.length ≤ 12 →
    (∀ x ∈ digits, x < 10) → padDraw f digits.length ≤ drawn.length →
    let n := digits.length
    let p := pinEncode f digits drawn
    pinFieldOk f p = true ∧ pinDigits p = digits ∧ pinLen p = n ∧ p.length = 2 * fmtBlock f ∧ p.getD 0 0 = f ∧
    (∀ i, i < 14 - n →
      (f = 0 → p.getD (2 + n + i) 0 = 15) ∧
      (f = 1 → p.getD (2 + n + i) 0 = (nibbles drawn).getD i 0) ∧
      (f = 3 → p.getD (2 + n + i) 0 = 10 + (nibbles drawn).getD i 0 % 6) ∧
      (f = 4 → p.getD (2 + n + i) 0 = 10)) ∧
    (f = 4 → ∀ i, i < 16 → p.getD (16 + i) 0 = (nibbles drawn).getD i 0) ∧ padDraw 0 n = 0

/-- PIN_TRANSLATE and PIN_FROM_DUKPT: the recovered PIN, the draw of the pad and the new block (R122; R139) -/
def Obligations.PinTranslationDrawsThenEnciphers : Prop :=
  ∀ (s₀ : State) (t c : Nat),
    let s := pastYield s₀ t c
    let d := workDesc s t c
    let src := par d 64
    let dst := par d 65
    let pan := panDigits d 68
    let drawn := drawnOf s t c
    (atFigure s t c 0x0101 = true →
      let p := pinRecover (keyOf s t c 0) src pan (sub d 80 16)
      (pinFieldOk src p = false →
        exec (.pinTranslate t c .none) s₀ = .next (finishCall s t c stPinFormat (if src = 4 then 67 else 64) 0 [])) ∧
      (pinFieldOk src p = true → drawn.length < padDraw dst (pinLen p) →
        ∃ path, exec (.pinTranslate t c .none) s₀ = .next (askPad (if (src = 4) = (dst = 4) then s
          else reconfigure s t c (keyOf s t c 1).alg (keyOf s t c 1).material) t c (padDraw dst (pinLen p)) path)) ∧
      (pinFieldOk src p = true → padDraw dst (pinLen p) ≤ drawn.length →
        exec (.pinTranslate t c .none) s₀ = .next (finishCall s t c stOk
          (if src = 4 ∧ dst = 4 then 86 else if src = 4 ∨ dst = 4 then 92 else if src = dst then 80 else 81) 0
          (pinEncipher (keyOf s t c 1) dst pan (pinEncode dst (pinDigits p) drawn))))) ∧
    (atFigure s t c 0x0107 = true →
      let typ := par d 66
      let k := keyOf s t c 0
      let p := pinRecover { material := dukKey typ 0 0 k (sub d 96 12) } src pan (sub d 80 16)
      let b := if typ = 1 then 14 else 2 * laneTime (typ + 1) + 1
      let a := 34 + dukI typ (k.usage == usageOf "B0") k.alg + 16 * dukS typ + dukW typ 0 + b
      let e := if dst = 4 then 2 * laneTime (keyOf s t c 1).alg + 1 else 14
      (drawn.length < padDraw dst (pinLen p) →
        exec (.pinFromDukpt t c .none) s₀ = .next (askPad s t c (padDraw dst (pinLen p)) (a + 13))) ∧
      (padDraw dst (pinLen p) ≤ drawn.length → pinFieldOk src p = false →
        exec (.pinFromDukpt t c .none) s₀ = .next (finishCall s t c stPinFormat (a + 16) 0 [])) ∧
      (padDraw dst (pinLen p) ≤ drawn.length → pinFieldOk src p = true →
        exec (.pinFromDukpt t c .none) s₀ = .next (finishCall s t c stOk
          (a + (if (typ = 1 ∧ dst ≠ 4) ∨ (typ ≠ 1 ∧ dst = 4) then 0 else 8) + e + 14) 0
          (pinEncipher (keyOf s t c 1) dst pan (pinEncode dst (pinDigits p) drawn)))))

/-- The offset and PVV opcodes and PIN_CHANGE: verdict, results and path cycles (R131) -/
def Obligations.PinVerificationVerdicts : Prop :=
  ∀ (s₀ : State) (t c : Nat),
    let s := pastYield s₀ t c
    let d := workDesc s t c
    let src := par d 64
    let four := if src = 4 then 11 else 0
    let p := pinRecover (keyOf s t c 0) src (panDigits d 68) (sub d 80 16)
    let pin := pinDigits p
    let nat := naturalPin (keyOf s t c 1) (sub d 96 8) (sub d 104 8)
    let pvv := pvvOf (keyOf s t c 1) (panDigits d 68) (par d 65) pin
    let bad := Host.Outcome.next (finishCall s t c stPinFormat (if src = 4 then 67 else 64) 0 [])
    let done := fun (st path : Nat) (r : Bytes) => (Host.Outcome.next (finishCall s t c st path 0 r) : Out)
    (atFigure s t c 0x0102 = true →
      (pinFieldOk src p = false → exec (.pinVerifyOffset t c .none) s₀ = bad) ∧
      (pinFieldOk src p = true → ∃ st, exec (.pinVerifyOffset t c .none) s₀ = done st (108 + four) [] ∧
        (st = stOk ∨ st = stVerifyFail) ∧ (par d 65 ≤ 12 → d.length = 128 → (st = stOk ↔ (pin.length = par d 65 ∧
          ∀ i, i < pin.length → pin.getD i 0 = (nat.getD i 0 + (nibbles (sub d 112 6)).getD i 0) % 10))))) ∧
    (atFigure s t c 0x0104 = true →
      (pinFieldOk src p = false → exec (.pinGenerateOffset t c .none) s₀ = bad) ∧
      (pinFieldOk src p = true → exec (.pinGenerateOffset t c .none) s₀ =
        done stOk (95 + four) (offBytes (pinOffset nat pin) ++ leBytes 1 pin.length))) ∧
    (atFigure s t c 0x0103 = true →
      (pinFieldOk src p = false → exec (.pinVerifyPvv t c .none) s₀ = bad) ∧
      (pinFieldOk src p = true → exec (.pinVerifyPvv t c .none) s₀ =
        done (if pvv = nibbles (sub d 96 2) then stOk else stVerifyFail) (84 + four) [])) ∧
    (atFigure s t c 0x0105 = true →
      (pinFieldOk src p = false → exec (.pinGeneratePvv t c .none) s₀ = bad) ∧
      (pinFieldOk src p = true → exec (.pinGeneratePvv t c .none) s₀ = done stOk (83 + four) (packNibbles pvv))) ∧
    (atFigure s t c 0x0106 = true →
      let k := keyOf s t c 0
      let q := panDigits d 64
      let o := sub d 80 16
      let n := sub d 96 16
      (changeOk k q o = false → exec (.pinChange t c .none) s₀ = done stPinFormat (if isAes k.alg then 67 else 64) []) ∧
      (changeOk k q o = true → (changeFmt k n ≠ changeFmt k o ∨ changeOk k q n = false) →
        exec (.pinChange t c .none) s₀ = done stPinFormat (if isAes k.alg then 87 else 81) []) ∧
      (changeOk k q o = true → changeFmt k n = changeFmt k o → changeOk k q n = true →
        let was := pinDigits (pinRecover k (changeFmt k o) q o)
        let new := pinDigits (pinRecover k (changeFmt k n) q n)
        let v := keyOf s t c 1
        let natC := naturalPin v (sub d 112 8) (sub d 120 8)
        let off := nibbles (sub d 74 6)
        let len := (off.takeWhile (· < 10)).length
        (v.usage = usageOf "V1" → ∃ st, exec (.pinChange t c .none) s₀ = done st (if isAes k.alg then 151 else 137)
            (if st = stOk then offBytes (pinOffset natC new) ++ leBytes 1 new.length else []) ∧
          (st = stOk ∨ st = stVerifyFail) ∧ (d.length = 128 → (st = stOk ↔ was.length = len ∧
            ∀ i, i < was.length → was.getD i 0 = (natC.getD i 0 + off.getD i 0) % 10))) ∧
        (v.usage ≠ usageOf "V1" → exec (.pinChange t c .none) s₀ =
          if pvvOf v q (par d 76) was = nibbles (sub d 74 2)
          then done stOk (if isAes k.alg then 134 else 120) (packNibbles (pvvOf v q (par d 76) new))
          else done stVerifyFail (if isAes k.alg then 134 else 120) [])))

/-- DUKPT_DERIVE_INITIAL, DUKPT_DATA_DECRYPT and DUKPT_MAC_VERIFY complete (R135; R140; R141; R142) -/
def Obligations.DukptFiguresComplete : Prop :=
  ∀ (s₀ : State) (t c : Nat),
    let s := pastYield s₀ t c
    let d := workDesc s t c
    let k := keyOf s t c 0
    let typ := par d 64
    let x := (s.ctx t c).work
    let alg := if typ = 1 then 1 else typ + 1
    let m := dukInitial typ k.material (sub d 68 12)
    let w := dukKey typ 2 (if typ = 1 then par d 66 else beAt d 66 2) k (sub d 68 12)
    let mac := (if typ = 1 then macAlg3 w (padM1 8 x.input) else cmac (aesC w) x.input).take (par d 65)
    (atFigure s t c 0x0201 = true → exec (.dukptDeriveInitial t c .none) s₀ = .next (createRecord s t c
      { part := partOf d, cls := par d 65, named := recAny,
        body := {
          format := 1, alg := alg, usage := usageOf "B1", mode := chr "X", exportC := k.exportC, lines := 2,
          notBefore := k.notBefore, notAfter := k.notAfter, kcv := kcvSym alg m, keylen := m.length,
          ext := fit 16 (ksnBase typ (sub d 68 12)), material := m } }
      (34 + dukI typ true k.alg + kcvCycles alg + 8 + 14) 0 [] [] createResults)) ∧
    (atFigure s t c 0x0202 = true →
      let out := dukDecrypt d k x.input
      let path := dukPath 0x0202 d (k.usage == usageOf "B0") k.alg
      let s1 := (writeOut s t c (out.drop x.outLen)).1
      (formOf d = 1 → exec (.dukptDataDecrypt t c .none) s₀ = .next (finishCall s t c stOk path 0 out)) ∧
      (formOf d ≠ 1 → exec (.dukptDataDecrypt t c .none) s₀ = .next
        (if (writeOut s t c (out.drop x.outLen)).2 then finishCall s1 t c stOk path 0 [] else s1))) ∧
    (atFigure s t c 0x0203 = true → exec (.dukptMacVerify t c .none) s₀ = .next (finishCall s t c
      (if mac = sub d 80 (par d 65) then stOk else stVerifyFail) (dukPath 0x0203 d (k.usage == usageOf "B0") k.alg) 0 []))

/-- CVV_GENERATE, CVV_VERIFY and DCVV_VERIFY complete, and a card value always has three digits (R147) -/
def Obligations.CardValuesHaveThreeDigits : Prop :=
  (∀ n : List Nat, n.length = 16 → (∀ x ∈ n, x < 16) →
    (cvvScan n).length = 3 ∧ (∀ x ∈ cvvScan n, x < 10) ∧
    (3 ≤ (n.filter (· < 10)).length → cvvScan n = (n.filter (· < 10)).take 3) ∧
    ((n.filter (· < 10)).length < 3 → 14 ≤ (n.filter (10 ≤ ·)).length ∧ cvvScan n = (n.filter (· < 10) ++
      ((n.take 5).filter (10 ≤ ·)).map (· - 10)).take 3)) ∧
  ∀ (s₀ : State) (t c : Nat),
    let s := pastYield s₀ t c
    let d := workDesc s t c
    let key := (keyOf s t c 0).material
    let value := fun (digits : List Nat) =>
      let f := packNibbles ((digits ++ List.replicate 32 0).take 32)
      cvvScan (nibbles (tdesEnc key (xorB (desEnc (key.take 8) (f.take 8)) (f.drop 8))))
    let cvv := packNibbles (value (panDigits d 64 ++ nibbles (sub d 74 2) ++ (nibbles (sub d 76 2)).take 3) ++ [15])
    let mid := if par d 64 = 0 then nibbles (sub d 76 2) else nibbles (sub d 80 4)
    let dcvv := packNibbles (value (panDigits d 66 ++ mid ++ atcDigits (beAt d 78 2)) ++ [15])
    (atFigure s t c 0x0301 = true → exec (.cvvGenerate t c .none) s₀ = .next (finishCall s t c stOk 90 0 cvv)) ∧
    (atFigure s t c 0x0302 = true → exec (.cvvVerify t c .none) s₀ =
      .next (finishCall s t c (if cvv = sub d 78 2 then stOk else stVerifyFail) 94 0 [])) ∧
    (atFigure s t c 0x0303 = true → exec (.dcvvVerify t c .none) s₀ =
      .next (finishCall s t c (if dcvv = sub d 84 2 then stOk else stVerifyFail) 94 0 []))

/-- ARQC_VERIFY, SCRIPT_MAC, MAC_GENERATE and MAC_VERIFY: values, verdicts and path cycles (R151; R152; R153; R155;
log 5) -/
def Obligations.CryptogramsAndMacsComplete : Prop :=
  ∀ (s₀ : State) (t c : Nat),
    let s := pastYield s₀ t c
    let d := workDesc s t c
    let k := keyOf s t c 0
    let b := (s.ctx t c).work.input
    let l := inLenOf d
    let aes := isAes k.alg
    let sk := sessionKey aes (cardKey d k) (sub d 78 2)
    let n := if aes then ceilDiv l 16 else l / 8 + 1
    let body := (if aes then (if n ≥ 2 then 8 * n + 2 else 18) else 5 * (n - 1) + 13) + (if aes then 9 else 14) +
      (if par d 64 = 1 then 0 else if aes then 9 else 14)
    let pad := fun (w : Nat) => if par d 65 = 1 then ceilDiv l w else l / w + 1
    let path := fun (alg : Nat) =>
      if alg = 1 then 45 + 13 * pad 8 else if alg = 2 then 45 + laneTime k.alg * pad 16 else if alg = 3 then 53 + 5 * pad 8
      else if alg = 4 then 46 + laneTime k.alg * max 1 (ceilDiv l 16) else if alg = 5 then 46 + 13 * max 1 (ceilDiv l 8)
      else if alg = 6 then 62 + 17 * ceilDiv (l + 9) 64 else if alg = 9 then 58 + 13 * ceilDiv (l + 1) 136
      else 66 + 21 * ceilDiv (l + 17) 128
    (atFigure s t c 0x0304 = true → ∃ a, exec (.arqcVerify t c .none) s₀ =
      .next (if (emvMac aes sk b).take 8 = sub d 80 8
        then finishCall s t c stOk (34 + body + 15 + a) 0 (if par d 65 = 0 then [] else arpcOf d aes sk)
        else finishCall s t c stVerifyFail (34 + body + 15 + a) 0 []) ∧
      (par d 65 = 0 → a = 0) ∧ (par d 65 = 1 → a = if aes then 10 else 15) ∧
      (par d 65 = 2 → par d 67 ≤ 8 → a = if aes then (if par d 67 ≤ 4 then 11 else 19) else 15 + 5 * ((12 + par d 67) / 8))) ∧
    (atFigure s t c 0x0305 = true →
      exec (.scriptMac t c .none) s₀ = .next (finishCall s t c stOk (34 + body + 14) 0 ((emvMac aes sk b).take (par d 67)))) ∧
    (1 ≤ par d 64 → par d 64 ≤ 9 →
      let m := (macValue (par d 64) (par d 65) k b).take (par d 66)
      (atFigure s t c 0x0401 = true →
        exec (.macGenerate t c .none) s₀ = .next (finishCall s t c stOk (path (par d 64)) 0 m)) ∧
      (atFigure s t c 0x0402 = true → exec (.macVerify t c .none) s₀ =
        .next (finishCall s t c (if m = sub d 68 (par d 66) then stOk else stVerifyFail) (path (par d 64)) 0 [])))

/-- DATA_ENCRYPT, DATA_DECRYPT and DATA_TRANSLATE: output, tag verdict and the invocation count of a key (R159; R160;
R161; R162; R163) -/
def Obligations.DataCallsWriteThenJudge : Prop :=
  ∀ (s₀ : State) (t c op : Nat), (op = 0x0501 ∨ op = 0x0502 ∨ op = 0x0503) → atFigure s₀ t c op = true →
    let s := pastYield s₀ t c
    let d := workDesc s t c
    let run := if op = 0x0501 then exec (.dataEncrypt t c .none) s₀ else if op = 0x0502 then exec (.dataDecrypt t c .none) s₀
      else exec (.dataTranslate t c .none) s₀
    let table := dataPath op d (keyOf s t c 0).alg (keyOf s t c 1).alg
    let m := if op = 0x0503 then par d 88 else par d 64
    let r := if formOf d = 1 then (s, true) else writeSoFar s t c
    let h := handleOf d (countSlot op)
    ((s.ctx t c).work.done = false →
      (r.2 = false → run = .next r.1) ∧
      (r.2 = true → op ≠ 0x0501 → dataTagOk s t c = false → run = .next (finishCall r.1 t c stVerifyFail table 0 [])) ∧
      (r.2 = true → (op = 0x0501 ∨ dataTagOk s t c = true) →
        ((op = 0x0502 ∨ aead m = false) → run = .next (finishCall r.1 t c stOk table 0 (dataResults r.1 t c))) ∧
        ((op ≠ 0x0502 ∧ aead m = true) → ∃ s2 ns, run = .next (stepBack s2 t c
          (keepNeeds (recKeys (hPart h) (hCls h) (hIdx h) (keyOf s2 t c (countSlot op)).lines) ++ ns)) ∧
          s2 = r.1.setCtx t c { r.1.ctx t c with work := { (r.1.ctx t c).work with done := true } }))) ∧
    ((s.ctx t c).work.done = true → ∀ k, keepRec s (hPart h) (hCls h) (hIdx h) = some k → k.format ≠ 0 → k.check = hCheck h →
      (hCls h = 1 → missing s (hPart h) (hIdx h) (keyOf s t c (countSlot op)).lines = []) →
      let kn := { (if hCls h = 1 then underDmk s k else k) with aead := k.aead + 1 }
      let s1 := countInCaches kn (hPart h) (hCls h) (hIdx h) s
      (2 ^ 32 ≤ k.aead → run = .next (finishCall s t c stKeyUsage table 0 [])) ∧
      (k.aead < 2 ^ 32 → hCls h = 1 → run = .next (rewriteRecord s t c (hPart h) (hIdx h) kn (stOk, table, 0, dataResults s t c)
        (countInCaches kn (hPart h) (hCls h) (hIdx h)))) ∧
      (k.aead < 2 ^ 32 → hCls h ≠ 1 → run = .next (finishCall
        ((installAll (hCls h) .pinned s1 (copiesOf (hPart h) (hIdx h) (encodeRec kn))).getD s1) t c stOk table 0 (dataResults s t c))))

/-- TOKENIZE, DETOKENIZE and TOKEN_RETIRE: phases, the entry a PAN takes, and one group for both windows (R169; R170;
R171) -/
def Obligations.TokenFiguresChangeBothWindowsAtOnce : Prop :=
  (∀ (l : List TokEnt) (fp : Nat),
    let has := fun (i st : Nat) => ∃ h : i < l.length, l[i].fp = fp ∧ l[i].st = st ∧ ∀ j, (g : j < i) → ¬ (l[j].fp = fp ∧ l[j].st = st)
    (∀ i, has i 1 → panStep l fp = some (i, (l.getD i ⟨0, 0, 0⟩).gen, false)) ∧
    ((∀ e ∈ l, ¬ (e.fp = fp ∧ e.st = 1)) →
      (∀ i, has i 2 → panStep l fp = some (i, (l.getD i ⟨0, 0, 0⟩).gen + 1, true)) ∧
      ((∀ e ∈ l, ¬ (e.fp = fp ∧ e.st = 2)) →
        (∀ i, (h : i < l.length) → l[i].st = 0 → (∀ j, (g : j < i) → l[j].st ≠ 0) → panStep l fp = some (i, 0, true)) ∧
        ((∀ e ∈ l, e.st ≠ 0) → panStep l fp = none)))) ∧
  ∀ (s₀ : State) (t c op : Nat), (op = 0x0601 ∨ op = 0x0602 ∨ op = 0x0603) → atFigure s₀ t c op = true →
    let s := pastYield s₀ t c
    let v := tokView s t c
    let de := op == 0x0602
    let run := if op = 0x0601 then exec (.tokenize t c .none) s₀ else if op = 0x0602 then exec (.detokenize t c .none) s₀
      else exec (.tokenRetire t c .none) s₀
    let a := probe v.ikey de v.digits
    let ph := (s.ctx t c).work.phase
    let lp := probeWindow v.k false a.1
    let ep := windowEnts s v.p lp
    let tok := tokOther v (firstGen v ep a.2)
    let b := probe v.ikey true tok
    let lt := probeWindow v.k true b.1
    let et := windowEnts s v.p lt
    let l1 := probeWindow v.k de a.1
    let l2 := probeWindow v.k (!de) (probe v.ikey (!de) (tokOther v ((s.ctx t c).work.vals.getD 1 0))).1
    let here := fun (l : List Nat) => ∀ i ∈ l, (keepLine s v.p 1 i).isSome = true
    (ph = 0 → ∃ ns, run = .next (tokNext s t c [] (.keep ((probeWindow v.k de a.1).map (keepKey v.p 1)) (!de) :: ns))) ∧
    (ph = 1 → here l1 → ∃ vals ns x, run = .next (tokNext (if de then s.setCtx t c { s.ctx t c with grant := [] } else s) t c vals
      (.keep ((probeWindow v.k (!de) x).map (keepKey v.p 1)) (!de) :: ns))) ∧
    (2 ≤ ph → op = 0x0601 → here (l1 ++ l2) → entsBad ep = false → entsBad et = false →
      (panStep ep a.2 = none → run = .next (finishCall s t c stCapacity 236 0 [3])) ∧
      (∀ i gen new, panStep ep a.2 = some (i, gen, new) →
        (255 < gen → run = .next (finishCall s t c stBadParam 236 0 [])) ∧
        (gen ≤ 255 → new = false → (∃ e ∈ et, e.fp = b.2 ∧ e.st = 1 ∧ e.gen = gen) →
          run = .next (finishCall s t c stOk 236 0 (panBytes tok ++ leBytes 1 gen ++ [0]))) ∧
        (gen ≤ 255 → new = true → freeEnt et [0, 2] = none → run = .next (finishCall s t c stCapacity 236 0 [3])) ∧
        (gen ≤ 255 → new = true → ∀ j, freeEnt et [0, 2] = some j →
          let ls := windowPut s v.p lp i ⟨a.2, 1, gen⟩ ++ windowPut s v.p lt j ⟨b.2, 1, gen⟩
          run = .next (if vaultOnline s then finalStep s t c (copyKeys (rawCopies ls)) (fun x =>
            passGroup x t c { lines := ls } (rawCopies ls) (stOk, 236, 0, panBytes tok ++ leBytes 1 gen ++ [1]))
            else finishCall s t c stVaultUnreach 236 0 [])))) ∧
    (2 ≤ ph → op = 0x0602 → here l2 →
      let g := (s.ctx t c).work.vals.getD 1 0
      let pan := tokOther v g
      let q := probe v.ikey false pan
      let e := windowEnts s v.p (probeWindow v.k false q.1)
      (s.ctx t c).work.vals.getD 2 0 ≠ 1 → entsBad e = false →
      ((s.ctx t c).work.vals.getD 0 0 = 1 ∧ (∃ x ∈ e, x.fp = q.2 ∧ x.st = 1 ∧ x.gen = g) →
        run = .next (finishCall s t c stOk 230 0 (panBytes pan))) ∧
      (¬ ((s.ctx t c).work.vals.getD 0 0 = 1 ∧ (∃ x ∈ e, x.fp = q.2 ∧ x.st = 1 ∧ x.gen = g)) →
        run = .next (finishCall s t c stVerifyFail 230 0 []))) ∧
    (2 ≤ ph → op = 0x0603 → here (l1 ++ l2) → entsBad ep = false → entsBad et = false →
      let g := firstGen v ep a.2
      (findEnt ep a.2 1 = none → run = .next (finishCall s t c stVerifyFail 236 0 [])) ∧
      (∀ i j, findEnt ep a.2 1 = some i → et.findIdx? (fun e => e.fp == b.2 && e.st == 1 && e.gen == g) = some j →
        let ls := windowPut s v.p lp i ⟨a.2, 2, g⟩ ++ windowPut s v.p lt j ⟨b.2, 2, g⟩
        run = .next (if vaultOnline s then finalStep s t c (copyKeys (rawCopies ls)) (fun x =>
          passGroup x t c { lines := ls } (rawCopies ls) (stOk, 236, 0, leBytes 1 g)) else finishCall s t c stVaultUnreach 236 0 [])))

/-- The final step of every call that creates a key: the index, CHECK, the two refusals and the write (R197) -/
def Obligations.CreatingCallsWriteOneRecord : Prop :=
  (∀ v : Nat, 1 ≤ nextCheck v ∧ nextCheck v < 256 ∧ ((v + 1) % 256 ≠ 0 → nextCheck v = (v + 1) % 256)) ∧
  (∀ h k, createResults h k = leBytes 8 h ++ fit 3 k.kcv) ∧
  (∀ v n : Nat, 0 < n → v ≤ alignUp v n ∧ alignUp v n < v + n ∧ n ∣ alignUp v n) ∧
  ∀ (s : State) (t c : Nat) (n : NewRec) (table spire : Nat) (more : List (Nat × Nat × Bytes)) (clear2 : List KeepCopy)
    (res : Nat → KeyRec → Bytes),
    let x := s.ctx t c
    let idx := (x.space.map (·.2)).getD (targetIdx s n.part n.cls n.named n.body.lines)
    let keys := recKeys n.part n.cls idx n.body.lines
    let call := createRecord s t c n table spire more clear2 res
    let up := n.cls ≠ 1 ∨ vaultOnline s = true
    let short := x.space = none ∧ (poolSets s n.part = 0 ∨ (n.named = recAny ∧ idx + n.body.lines > idxLimit s n.part n.cls) ∨
      (n.cls ≠ 1 ∧ pinFull s n.part n.cls idx n.body.lines = true))
    let owned := ∀ k ∈ keys, k ∈ x.grant
    let old := (keepLine s n.part n.cls idx).isSome
    (x.space = none → n.named ≠ recAny → idx = n.named) ∧
    (x.space = none → n.named = recAny → claimed s n.part n.cls = [] →
      idx = alignUp (if n.cls = 1 then allocNext s n.part else tblGet 0 s.keep.cursors (4 * n.part + n.cls)) n.body.lines) ∧
    (¬ up → call = finishCall s t c stVaultUnreach table spire []) ∧
    (up → short → call = finishCall s t c stCapacity table spire [4]) ∧
    (up → ¬ short → ¬ owned → call = askAgain s t c (createNeeds s n.part n.cls idx n.body.lines)) ∧
    (up → ¬ short → owned → n.cls = 1 → old = false → call = stepBack s t c [.fillLine idx]) ∧
    (up → ¬ short → owned → (n.cls = 1 → old = true) →
      (oldFormat s n.part n.cls idx ≠ 0 → call = finishCall s t c stBadParam table spire []) ∧
      (oldFormat s n.part n.cls idx = 0 → n.cls ≠ 1 → old = false → x.work.check = false →
        call = setNeeds (modWork s t c (fun w => { w with check := true })) t c [.draw 1]) ∧
      (oldFormat s n.part n.cls idx = 0 → (old = true ∨ x.work.check = true) → ∃ check, 1 ≤ check ∧ check < 256 ∧
        (old = true → check = nextCheck (oldCheck s n.part n.cls idx)) ∧
        (old = false → byteAt x.work.drawn.reverse 0 ≠ 0 → check = byteAt x.work.drawn.reverse 0) ∧
        (let k := { n.body with check := check, dmkId := ((writeDmk s).map dmkId).getD [0, 0] }
         let s1 := advanceCursor s n idx
         let r := res (mkHandle n.part n.cls check idx) k
         (n.cls ≠ 1 → waysFor s keys = true → call = finishCall
            ((installAll n.cls .pinned s1 (copiesOf n.part idx (encodeRec k))).getD s1) t c stOk table spire r) ∧
         (n.cls ≠ 1 → waysFor s keys = false → call = setNeeds (freeUnits s t c) t c [.way keys]) ∧
         (n.cls = 1 → ∀ a b, recLines s n.part idx k = some a → descLines s n.part (descOf s1 n.part) = some b →
            let d := if n.named = recAny then b else ([], [])
            call = finalStep s t c (copyKeys (a.2 ++ d.2 ++ clear2)) (fun _ => passGroup s1 t c
              { at_ := (t, c), lines := a.1 ++ d.1 ++ more, undo := if n.named = recAny then [(n.part, descOf s n.part, descOf s1 n.part)] else [] }
              (a.2 ++ d.2 ++ clear2) (stOk, table, spire, r))))))

/-- KEY_GENERATE, KEY_DERIVE, KEY_IMPORT_BLOCK, KEY_EXPORT_BLOCK, KEY_DESTROY, KEY_ATTRIBUTES, KEY_CHECK_VALUE
complete (R198; R199; R200; R201; R209; R212) -/
def Obligations.KeyFiguresComplete : Prop :=
  ∀ (s₀ : State) (t c : Nat),
    let s := pastYield s₀ t c
    let d := workDesc s t c
    let a := attrRec d
    let k := keyOf s t c 0
    let r := drawnOf s t c
    let h := handleOf d 0
    let work := fun (ver alg h e : Nat) =>
      let n := (h + e) / kbBlock ver
      (if ver = 0x44 then 20 else 41) + e / kbBlock ver * laneTime alg + (if 2 ≤ n then laneTime alg * n + 2 else 2 * laneTime alg + 2)
    let v := fun (x : Nat) => if x = 1 ∨ x = 2 then 13 else if x = 3 then 12 else if x = 4 then 14 else if x = 5 then 16 else 17
    (atFigure s t c 0x0701 = true →
      let m := if a.alg = 1 ∨ a.alg = 2 then oddParity (r.take a.keylen) else r.take a.keylen
      let ext := if bitOf a.flags 1 then leBytes 1 (par d 96) ++ sub d 98 6 ++ sub d 104 6 else []
      exec (.keyGenerate t c .none) s₀ = .next (createRecord s t c
        (attrNew d { a with material := m, kcv := kcvSym a.alg m, ext := fit 16 ext })
        (34 + ceilDiv a.keylen 16 + (if a.alg = 1 ∨ a.alg = 2 then 1 else 0) + v a.alg + 22) 0 [] [] createResults)) ∧
    (atFigure s t c 0x0704 = true →
      let m := kdf108 (aesC k.material) (ascii "KDRV") (sub d 97 (par d 96) ++ sub d 64 10) (if a.alg = 6 then 256 else 8 * a.keylen)
      exec (.keyDerive t c .none) s₀ = .next (createRecord (holdLane s t c { key := m }) t c (attrNew d (symRec d m))
        (77 + v a.alg) 0 [] [] createResults)) ∧
    (atFigure s t c 0x0702 = true → ∀ b, parseBlock k (inputOf s t c) = some b →
      let mid := 39 + work b.ver k.alg b.header.length b.field.length
      (importRec k (par d 64) b = none → exec (.keyImportBlock t c .none) s₀ = .next (finishCall s t c stKeyBlock (mid + 13) 0 [])) ∧
      (∀ x, importRec k (par d 64) b = some x →
        (strength k.alg < strength x.alg → exec (.keyImportBlock t c .none) s₀ = .next (finishCall s t c stKeyUsage (mid + 13) 0 [])) ∧
        (strength x.alg ≤ strength k.alg → recordField s (partOf d) (par d 64) (leAt d 68 6) 2 = true → bitOf x.flags 1 = false →
          exec (.keyImportBlock t c .none) s₀ = .next (createRecord s t c
            { part := partOf d, cls := par d 64, named := leAt d 68 6, body := x } (mid + v x.alg + 22) 0
            [] [] createResults)))) ∧
    (atFigure s t c 0x0703 = true →
      let e := keyOf s t c 1
      let ver := par d 64
      let out := exportBlock ver k e (s.takeBytes 48).2
      let field := ceilDiv (2 + if e.alg = 1 ∨ e.alg = 2 then 24 else 32) (kbBlock ver) * kbBlock ver
      let w := writeOut (s.takeBytes 48).1 t c out
      (s.takeBytes 48).2.length = 48 ∧
      exec (.keyExportBlock t c .none) s₀ = .next (if w.2 then finishCall w.1 t c stOk
        (52 + work ver k.alg (out.length - 2 * field - 2 * kbBlock ver) field) 0 (leBytes 2 out.length ++ fit 3 e.kcv) else w.1)) ∧
    (atFigure s t c 0x0705 = true → (hCls h = 1 → (keepLine s (hPart h) 1 (hIdx h)).isSome = true) →
      ((oldFormat s (hPart h) (hCls h) (hIdx h) = 0 ∨ oldCheck s (hPart h) (hCls h) (hIdx h) ≠ hCheck h) →
        exec (.keyDestroy t c .none) s₀ = .next (finishCall s t c stKeyNotFound 55 0 [])) ∧
      (oldFormat s (hPart h) (hCls h) (hIdx h) ≠ 0 → oldCheck s (hPart h) (hCls h) (hIdx h) = hCheck h → hCls h ≠ 1 →
        exec (.keyDestroy t c .none) s₀ = .next (finishCall (putLine (forgetKey s (hPart h) (hCls h) (hIdx h) k.lines)
          (hPart h) (hCls h) (hIdx h) (emptyLine k.check) .pinned none) t c stOk 55 0 [])) ∧
      (oldFormat s (hPart h) 1 (hIdx h) ≠ 0 → oldCheck s (hPart h) 1 (hIdx h) = hCheck h → hCls h = 1 → vaultOnline s = true →
        let ls := (hPart h, hIdx h, emptyLine k.check) :: (List.range (k.lines - 1)).map (fun i => (hPart h, hIdx h + 1 + i, zeros 64))
        exec (.keyDestroy t c .none) s₀ = .next (finalStep s t c (copyKeys (rawCopies ls)) (fun y =>
          passGroup (forgetKey y (hPart h) 1 (hIdx h) k.lines) t c { lines := ls } (rawCopies ls) (stOk, 55, 0, []))))) ∧
    (atFigure s t c 0x0706 = true →
      exec (.keyAttributes t c .none) s₀ = .next (finishCall s t c stOk 45 0 ((encodeHead k).take 48))) ∧
    (atFigure s t c 0x0708 = true →
      (k.format ≠ 1 → exec (.keyCheckValue t c .none) s₀ = .next (finishCall s t c stOk 48 0 (fit 3 k.kcv))) ∧
      (k.format = 1 → kcvSym k.alg k.material = k.kcv →
        exec (.keyCheckValue t c .none) s₀ = .next (finishCall s t c stOk (48 + v k.alg) 0 k.kcv)) ∧
      (k.format = 1 → kcvSym k.alg k.material ≠ k.kcv →
        exec (.keyCheckValue t c .none) s₀ = .next (finishCall s t c stIntegrity (48 + v k.alg) 0 [])))

/-- BINDING_RECORD_IMPORT and PARTITION_UNBIND move the binding table; KEY_IMPORT_PK and the two rotations complete
(R181; R182; R183; R203; R204; R205) -/
def Obligations.PublicKeysBindingsAndRotation : Prop :=
  ∀ (s₀ : State) (t c : Nat),
    let s := pastYield s₀ t c
    let d := workDesc s t c
    let b := inputOf s t c
    let p := leAt b 4 2
    let f := leAt b 6 2
    let dd := descOf s p
    let n := ecVerifyCycles curveP384
    let ok := b.take 4 = ascii "BIND" ∧ zeroIn b 24 64 = true ∧ 1 ≤ p ∧ p < 1024 ∧ f < 1024 ∧ pstate s p = 1 ∧
      leAt b 8 8 = s.fuse.serial ∧
      (∃ q, decPoint curveP384 (sub dd 32 97) = some q ∧
        ecdsaVerify curveP384 q (sha384 (b.take 64)) (beAt b 64 48) (beAt b 112 48) = true) ∧
      (leAt dd 8 8 < leAt b 16 8 ∨ (leAt b 16 8 = leAt dd 8 8 ∧ f = leAt dd 4 2))
    let room := tblGet none s.bind p = some f ∨ (boundTo s f).length < 4
    let key := (decPoint curveP384 (sub dd 32 97)).getD (0, 0)
    let s1 := spireOnce s t c (ecVerifyProg curveP384) (ecVerifyOps curveP384 key (sha384 (b.take 64)) (beAt b 64 48) (beAt b 112 48)) n
    (atFigure s t c 0x0707 = true → par d 64 = 0x10 →
      (¬ ok → exec (.bindingRecordImport t c .none) s₀ = .next (finishCall s1 t c stKeyBlock (75 + n) n [])) ∧
      (ok → ¬ room → exec (.bindingRecordImport t c .none) s₀ = .next (finishCall s1 t c stBadParam (75 + n) n [])) ∧
      (ok → room → vaultOnline s = true → exec (.bindingRecordImport t c .none) s₀ = .next (writeDesc
        s1 t c p (patch (patch dd 4 (leBytes 2 f)) 8 (leBytes 8 (leAt b 16 8))) [(p, tblGet none s1.bind p, some f)] (stOk, 75 + n, n, [])
        (fun y => { y with bind := tblSet none y.bind p (some f) }))) ∧
      (ok → room → vaultOnline s = false →
        exec (.bindingRecordImport t c .none) s₀ = .next (finishCall s1 t c stVaultUnreach (75 + n) n []))) ∧
    (atFigure s t c 0x0707 = true → par d 64 = 0x11 → 1 ≤ leAt d 72 2 → leAt d 72 2 < 1024 →
      exec (.partitionUnbind t c .none) s₀ =
        .next (finishCall { s with bind := tblSet none s.bind (leAt d 72 2) none } t c stOk 52 0 [])) ∧
    (atFigure s t c 0x0707 = true → par d 64 < 0x10 →
      let q := pointCheck s d b
      let m := q.2.2.1
      (pubOk s d b = false → exec (.keyImportPk t c .none) s₀ =
        .next (finishCall (spCall s t c q.1 q.2.1 m q.2.2.2) t c stKeyBlock (51 + m) m [])) ∧
      (∀ e, curveOf s (kindAlg (par d 64)) (par d 71) = some e → b.length = 1 + 2 * e.fb → byteAt b 0 = 4 →
        (q.2.2.2 = true ↔ decPoint e b = none) ∧ m = 4 * spM (bitLen e.p) + (if 1 < e.h ∧ q.2.2.2 = false then 242 * bitLen e.n else 0)) ∧
      (pubOk s d b = true → (leAt d 88 6 = recAny ∨ leAt d 88 6 % pubLines b.length = 0) →
        ∃ k, exec (.keyImportPk t c .none) s₀ = .next (createRecord (spireOnce s t c q.1 q.2.1 m) t c
          (attrNew d k) (60 + m + 4 * (pubLines b.length - 2)) m [] [] createResults) ∧
          k.format = 2 ∧ k.exportC = chr "S" ∧ k.material = b ∧ k.alg = kindAlg (par d 64) ∧ k.kcv = (sha256 b).take 3)) ∧
    (∀ k call, atFigure s t c 0x0709 = true → missing s (hPart (handleOf d 0)) (hIdx (handleOf d 0)) 2 = [] → ownRec s t c = some k → (s.ctx t c).call = some call →
      let h := handleOf d 0
      (par d 64 = 0 →
        (rotateOk d k 1 (callSecond call) = false →
          exec (.keyRotateSchedule t c .none) s₀ = .next (finishCall s t c stBadParam (genPath k) 0 [])) ∧
        (rotateOk d k 1 (callSecond call) = true → ∀ l, recLines s (hPart h) (hIdx h)
            { k with rotState := 1, rotateAt := leAt d 68 6, successor := targetIdx s (hPart h) 1 (leAt d 80 6) 2,
                     ext := fit 12 k.ext ++ leBytes 4 (leAt d 74 4) } = some l →
          ∃ s2 succ, exec (.keyRotateSchedule t c .none) s₀ = .next (createRecord s2 t c
              { part := hPart h, cls := 1, named := leAt d 80 6, body := succ } (genPath k) 0 l.1 l.2 createResults) ∧
            succ.rotState = 2 ∧ succ.notBefore = leAt d 68 6 ∧ succ.notAfter = leAt d 86 6 ∧ succ.alg = k.alg ∧
            succ.usage = k.usage ∧ succ.mode = k.mode ∧ succ.exportC = k.exportC ∧ succ.flags = k.flags)) ∧
      (par d 64 = 1 →
        (¬ (k.rotState = 1 ∧ callSecond call < k.rotateAt) →
          exec (.rotateCancel t c .none) s₀ = .next (finishCall s t c stBadParam 52 0 [])) ∧
        ((k.rotState = 1 ∧ callSecond call < k.rotateAt) → missing s (hPart h) k.successor 2 = [] → vaultOnline s = true → ∀ l, recLines s (hPart h) (hIdx h)
            { k with rotState := 0, rotateAt := 0, successor := 0, ext := fit 12 k.ext ++ zeros 4 } = some l →
          ∃ (f : State → State) (gone : List (Nat × Nat × Bytes)), exec (.rotateCancel t c .none) s₀ = .next (finalStep s t c (copyKeys (l.2 ++ rawCopies gone)) (fun y =>
              passGroup (f y) t c { lines := l.1 ++ gone } (l.2 ++ rawCopies gone) (stOk, 52, 0, []))) ∧
            (gone = [] ∨ ∃ z, gone = [(hPart h, k.successor, emptyLine z), (hPart h, k.successor + 1, zeros 64)]))))

/-- KEEP_GRANT grants all lines of a request or none, GRANT_REVOKE ends a holder, VAULT_FILL installs what it verified
(R224; R225; R235) -/
def Obligations.DirectoryGrantsWholeSets : Prop :=
  (∀ s : State, ∃ s', exec (.keepGrant none) s = .next s' ∧ s'.keep = s.keep ∧ s'.vault = s.vault ∧ s'.host = s.host ∧
    (∀ t c ls e, keepAsk s t c = some (ls, e) →
      ((s'.ctx t c).grant = (s.ctx t c).grant ∨
        ((s'.ctx t c).grant = (s.ctx t c).grant ++ ls ∧ ∀ k ∈ ls, lineFree s k e = true ∧ k ∉ pageClaims s))) ∧
    (∀ t c, keepAsk s t c = none → (s'.ctx t c).grant = (s.ctx t c).grant) ∧
    (let reqs := (List.range 17).filterMap (fun t => (keepOfTower s t).map (fun c => (t, c)))
     (commitArb s).caller.arbKeep.dead ≤ s.cycle →
     ∀ t c r ls e, keepOrder (commitArb s) reqs.length reqs = (t, c) :: r → keepAsk s t c = some (ls, e) →
       (∀ k ∈ ls, lineFree s k e = true ∧ k ∉ pageClaims s) → (s'.ctx t c).grant = (s.ctx t c).grant ++ ls)) ∧
  (∀ (s : State) (t c : Nat),
    (((s.ctx t c).call.isSome = true ∧ (s.ctx t c).grant ≠ [] ∧ 256 ≤ (s.ctx t c).work256) → exec (.grantRevoke t c) s =
      .next (deviceFault (raise { s with keep := { s.keep with revokes := satAdd 32 s.keep.revokes 1 } } pgKeep 3) t c)) ∧
    (¬ ((s.ctx t c).call.isSome = true ∧ (s.ctx t c).grant ≠ [] ∧ 256 ≤ (s.ctx t c).work256) →
      exec (.grantRevoke t c) s = .next s)) ∧
  (∀ (s : State) (t c idx : Nat) (mem : List (Nat × Bytes)) (failed : Bool), (s.ctx t c).needs.contains (.fillLine idx) = true →
    (s.ctx t c).asked.head? = some (.fillLine idx) → t < s.towers.length → c < (s.tower t).ctxs.length →
    s.hif.fills.find? (fun f => f.1 == t && f.2.1 == c) = some (t, c, true) → opOf (workDesc s t c) / 256 = 6 →
    let p := partOf (workDesc s t c)
    let x := ({ putMem s mem with hif := { s.hif with np := s.hif.np - 1, fills := s.hif.fills.erase (t, c, true) } } : State)
    let y := (takeAsked (if failed then logVaultError x else x) t c).1
    let done := fun (z : State) => (.next (unstall z (fun _ n => n.isFill)) : Out)
    keepLine s p 1 idx = none →
    (∀ b l, fetchLines y p idx 1 failed = (b, .got l) → runBusy b p 1 idx 1 = false → (b.ctx t c).ready = [] →
      let f : Fetch := { idx := idx, lines := [fit 64 l.flatten] }
      let w := engineKeep (b.setCtx t c { b.ctx t c with ready := [(.fillLine idx, f)] }) true [(p, idx)]
      (∀ e, w.2 = true → installAll 1 .clean w.1 [(p, idx, none, fit 64 l.flatten)] = some e →
        exec (.vaultFill t c mem failed) s = done (filledBy e t c p (.fillLine idx) f)) ∧
      (w.2 = true → installAll 1 .clean w.1 [(p, idx, none, fit 64 l.flatten)] = none →
        exec (.vaultFill t c mem failed) s = done w.1) ∧
      (w.2 = false → exec (.vaultFill t c mem failed) s =
        done (finishFree (clearReady w.1 t c (.fillLine idx)) t c stVaultUnreach []))) ∧
    (∀ b st w, fetchLines y p idx 1 failed = (b, .bad st w) → exec (.vaultFill t c mem failed) s =
      done (finishFree (if st = stIntegrity then noteIntegrity b w else b) t c st [])))

/-- KEEP_MAP_COMMIT: which rooms and tower cache entries move, and what is invalidated (R221) -/
def Obligations.RoomsMoveUnlessRefused : Prop :=
  ∀ s : State, tblWf (none : Owner) s.keep.liveRooms = true → tblWf (none : Owner) s.keep.liveTc = true →
    tblWf ({} : Head) s.heads = true →
    (((s.head pgKeep).commit = false ∨ filling s = true) → exec .keepMapCommit s = .next s) ∧
    ((s.head pgKeep).commit = true → filling s = false →
      ∃ s', exec .keepMapCommit s = .next s' ∧
        (let old := fun r => tblGet (none : Owner) s.keep.liveRooms r
         let new := fun r => ownerOf (tblGet 0 s.keep.rooms r)
         let refuses := fun (o : Owner) => ∃ p, o = some p ∧ refusesRooms s p = true
         let stays := fun r => refuses (old r) ∨ refuses (new r)
         let resized := fun p => ∃ r, r < 1024 ∧ old r ≠ new r ∧ ¬ stays r ∧ (old r = some p ∨ new r = some p)
         (∀ r, r < 1024 → (stays r → tblGet (none : Owner) s'.keep.liveRooms r = old r) ∧
           (¬ stays r → tblGet (none : Owner) s'.keep.liveRooms r = new r)) ∧
         (∀ e ∈ s'.keep.lines, e ∈ s.keep.lines) ∧
         (∀ e ∈ s.keep.lines, e ∈ s'.keep.lines ↔ (¬ resized (keyPart e.1) ∨ e.2.st = .pinned)) ∧
         ((∃ r, r < 1024 ∧ old r ≠ new r ∧ stays r) →
           (s'.head pgKeep).irqStatus.getLsbD 2 = true ∧ ∃ r, s'.keep.reject = some r ∧ r < 1024 ∧ old r ≠ new r ∧ stays r ∧
             ∀ q, r < q → q < 1024 → ¬ (old q ≠ new q ∧ stays q)) ∧
         ((∀ r, r < 1024 → ¬ (old r ≠ new r ∧ stays r)) → s'.keep.reject = s.keep.reject)) ∧
        (∀ i, i < 256 → tblGet (none : Owner) s'.keep.liveTc i = ownerOf (tblGet 0 s.keep.tc i)) ∧
        (∀ t, t < s.towers.length → (∀ e ∈ (s'.tower t).cache, e ∈ (s.tower t).cache) ∧
          ∀ e ∈ (s.tower t).cache, e ∈ (s'.tower t).cache ↔
            ¬ (e.1 < 256 ∧ tblGet (none : Owner) s.keep.liveTc e.1 ≠ ownerOf (tblGet 0 s.keep.tc e.1))) ∧
        s'.vault.mem = s.vault.mem ∧ s'.host = s.host ∧ s'.dome = s.dome)

/-- BATCH_CLOSE, JOURNAL_WRITTEN, HOME_APPLIED, APPLY_RETRY and the three VAULT_CTRL actions (R236; R239; R240; R255)
-/
def Obligations.BatchesCommitInJournalOrder : Prop :=
  ∀ s : State,
    ((s.vault.writing.isSome = true ∨ s.vault.groups = [] ∨ s.vault.st ≠ 3 ∨ batchesHeld s = true) →
      exec .batchClose s = .next s) ∧
    (s.vault.writing = none → s.vault.groups ≠ [] → s.vault.st = 3 → batchesHeld s = false →
      let g := gather s 256 (baseImage s) s.vault.groups
      let own := s.vault.groups.flatMap groupKeys
      ((∃ pg ∈ g.image.pages, pageBusyBut s pg (lockSpan s pg) own = true) →
        exec .batchClose s = .next (s.setVault { s.vault with asked := g.image.pages })) ∧
      ((∀ pg ∈ g.image.pages, pageBusyBut s pg (lockSpan s pg) own = false) → g.bad = [] → g.ok ≠ [] →
        (journalKeys s g.image.slot).isSome = true → (engineKeep s false ((g.ok.flatMap groupKeys).map (fun k => (keyPart k, keyIdx k)))).2 = true →
        (windowCheck s false (batchReads s g.image)).2 = true → ∃ s' b, exec .batchClose s = .next s' ∧ s'.vault.writing = some b ∧
        s'.vault.groups = g.rest ∧ b.groups = g.ok ∧ b.changed = g.image.chg ∧ b.slot.valid = true ∧
        b.slot.epoch = (baseImage s).slot.epoch + 1 ∧ b.slot.seq = (baseImage s).slot.seq + 1 ∧ s'.dome = s.dome ∧
        s'.keep = s.keep) ∧
      ((∀ pg ∈ g.image.pages, pageBusyBut s pg (lockSpan s pg) own = false) → g.bad = [] → g.ok ≠ [] →
        (journalKeys s g.image.slot).isSome = true → ((engineKeep s false ((g.ok.flatMap groupKeys).map (fun k => (keyPart k, keyIdx k)))).2 &&
        (windowCheck s false (batchReads s g.image)).2) = false → ∃ s', exec .batchClose s = .next s' ∧ s'.vault.writing = none ∧
        committed s' = committed s)) ∧
    (∀ failed b, s.vault.writing = some b → s.vault.batch = none →
      let x := writeCheck s ((journalLines s b).map (·.1))
      let w := x.2 && (rootAccess x.1 true).2
      ((failed = true ∨ w = false) → ∃ s', exec (.journalWritten failed) s = .next s' ∧ s'.vault.writing = none ∧
        committed s' = committed s ∧ pendingSlot s' = pendingSlot s ∧ s'.vault.mem = s.vault.mem) ∧
      (failed = false → w = true → ∃ s', exec (.journalWritten failed) s = .next s' ∧ s'.vault.batch = some b ∧
        s'.vault.writing = none ∧ pendingSlot s' = b.slot ∧ committed s' = committed s)) ∧
    ((s.vault.writing = none ∨ s.vault.batch.isSome = true) → ∀ failed, exec (.journalWritten failed) s = .next s) ∧
    (∀ failed b, s.vault.batch = some b →
      let x := writeCheck s (b.changed.map (·.1))
      let w := x.2 && (rootAccess x.1 true).2
      (b.failed = false → (failed = true ∨ w = false) → ∃ s', exec (.homeApplied failed) s = .next s' ∧ s'.dome = s.dome ∧
        s'.vault.batch = some { b with failed := true, retry := 0 }) ∧
      (b.failed = false → failed = false → w = true → ∃ s', exec (.homeApplied failed) s = .next s' ∧ s'.vault.batch = none ∧
        committed s' = pendingSlot s ∧ (pendingSlot s').valid = false) ∧
      (¬ (b.failed = true ∧ 2 ^ 20 ≤ b.retry) → exec (.applyRetry failed) s = .next s) ∧
      (b.failed = true → 2 ^ 20 ≤ b.retry → ∃ s', exec (.applyRetry failed) s = .next s' ∧
        s'.vault.retries = satAdd 32 s.vault.retries 1)) ∧
    (pageShut s pgVault = false →
      (s.vault.st ≠ 0 → exec .vaultCreate s = .next (ctrlResult s 1)) ∧
      (s.vault.st = 0 → geometryOk s = false → exec .vaultCreate s = .next (ctrlResult s 2)) ∧
      (s.vault.st = 0 → geometryOk s = true → s.dome.cur.isSome = true → (rootAccess s true).2 = false →
        exec .vaultCreate s = .next (ctrlResult (rootAccess s true).1 4)) ∧
      (s.vault.st = 0 → geometryOk s = true → s.dome.cur.isSome = true → (rootAccess s true).2 = true → ∃ s', exec .vaultCreate s = .next s' ∧
        s'.vault.st = 3 ∧ s'.vault.mem = [] ∧ s'.vault.descs = [] ∧ s'.vault.result = 0 ∧ (committed s').epoch = 0 ∧ (committed s').root = zeros 64 ∧ (committed s').valid = true) ∧
      (s.vault.st ≠ 1 → exec .vaultAttach s = .next (ctrlResult s 1)) ∧
      (s.vault.st = 1 → geometryOk s = true → s.vault.p = (committed s).p → s.vault.j = (committed s).j →
        (dmkById s (committed s).curSet.dmkId).isSome = true →
        exec .vaultAttach s = .next (s.setVault { s.vault with st := 2, busy := 1 })) ∧
      (((s.vault.st ≠ 3 ∧ s.vault.st ≠ 4) ∨ s.vault.busy ≠ 0) → exec .vaultDetach s = .next (ctrlResult s 1)) ∧
      ((s.vault.st = 3 ∨ s.vault.st = 4) → s.vault.busy = 0 → s.vault.writing = none → s.vault.batch = none → s.vault.groups = [] →
        ∃ s', exec .vaultDetach s = .next s' ∧ s'.vault.st = 1)) ∧
    (∀ mem, s.vault.busy = 0 → exec (.ctrlDone mem) s = .next s) ∧
    (∀ mem, s.vault.busy = 1 → ∃ s', exec (.ctrlDone mem) s = .next s' ∧ s'.vault.busy = 0)

/-- WITNESS stores a record by owner and EPOCH and answers with what the slot holds; WITNESS_ACK fences this device
(R246; R247) -/
def Obligations.WitnessSlotsFenceOlderOwners : Prop :=
  (∀ (l : List Bytes) (b : Bytes),
    ((∀ x ∈ l, x.take 8 ≠ b.take 8) → l.length < 64 → storeWitness l b = l ++ [b]) ∧
    ((∀ x ∈ l, x.take 8 ≠ b.take 8) → l.length = 64 → ∃ i, i < 64 ∧ storeWitness l b = l.set i b ∧
      ∀ j, j < 64 → leAt (l.getD i []) 10 6 ≤ leAt (l.getD j []) 10 6) ∧
    (∀ i, (h : i < l.length) → l[i].take 8 = b.take 8 → (∀ j, (g : j < i) → l[j].take 8 ≠ b.take 8) →
      (leAt l[i] 8 2 = leAt b 8 2 → leAt l[i] 16 8 ≤ leAt b 16 8 → storeWitness l b = l.set i b) ∧
      (leAt l[i] 8 2 ≠ leAt b 8 2 → leAt l[i] 16 8 < leAt b 16 8 → storeWitness l b = l.set i b) ∧
      (leAt l[i] 8 2 = leAt b 8 2 → leAt b 16 8 < leAt l[i] 16 8 → storeWitness l b = l) ∧
      (leAt l[i] 8 2 ≠ leAt b 8 2 → leAt b 16 8 ≤ leAt l[i] 16 8 → storeWitness l b = l))) ∧
  (∀ (s : State) (h : Hdr) (record : Bytes), exec (.witnessRec h record) s = .next (match heard s h 0 with
    | none => (hears s h 0).1
    | some s1 => if h.dst = s1.reel.addr then takeWitness h.src record s1
      else if h.dst = 0xFFFF then takeWitness h.src record (relay s1 0x06 h.src record (cameBy s1 h)) else forward s1 h 0 0x06 record)) ∧
  (∀ (s s1 : State) (h : Hdr) (record : Bytes), heard s h 0 = some s1 → h.dst = s1.reel.addr →
    let b := fit 64 record
    let l := storeWitness s1.dome.witness b
    let x := (l.find? (fun y => y.take 8 == b.take 8)).getD (zeros 64)
    ((∀ i, i ≤ s1.dome.witness.length → intRefusal s1 5 true (0x2000A000 + 64 * i) = none) → exec (.witnessRec h record) s =
      .next (sendTo { s1 with dome := { s1.dome with witness := l } } 3 0x32 h.src (sub x 8 2 ++ sub x 16 8))) ∧
    ((∀ i, i ≤ s1.dome.witness.length → intRefusal s1 5 true (0x2000A000 + 64 * i) ≠ none) → ∃ s',
      exec (.witnessRec h record) s = .next s' ∧ s'.dome = s1.dome)) ∧
  (∀ (s s1 : State) (h : Hdr) (owner epoch : Nat), heard s h 3 = some s1 → h.dst = s1.reel.addr →
    ∃ s', exec (.witnessAck h owner epoch) s = .next s' ∧
      ((s1.vault.st = 3 ∧ (owner ≠ s1.reel.addr ∨ epoch > (committed s1).epoch)) → s'.vault.st = 4) ∧
      (¬ (s1.vault.st = 3 ∧ (owner ≠ s1.reel.addr ∨ epoch > (committed s1).epoch)) → s'.vault.st = s1.vault.st) ∧
      (h.src ∈ s1.vault.awaiting → h.src ∉ s1.vault.fences →
        s'.vault.awaiting = s1.vault.awaiting.erase h.src ∧ s'.vault.acks = min 2 (s1.vault.acks + 1))) ∧
  ∀ s : State, s.vault.awaiting ≠ [] → downstream s ≠ [] → (∀ w ∈ downstream s, (portTo s w).isSome = true) →
    (mirror s).vault.short = true

/-- VAULT_REKEY, VAULT_SCRUB, VAULT_SEAL_ROOT, VAULT_SEAL_RELEASE and VAULT_ADOPT: refusals, phases and results (R242;
R243; R244; R248; R249; log 54; log 113) -/
def Obligations.VaultJobsComplete : Prop :=
  ∀ (s₀ : State) (t c : Nat), t < s₀.towers.length → c < (s₀.tower t).ctxs.length →
    let s := pastYield s₀ t c
    let d := workDesc s t c
    let x := s.ctx t c
    let tgt := par d 64
    let bad := Host.Outcome.next (finishCall s t c stBadParam 39 0 [])
    let pages := geoP (committed s).p / 64
    (atFigure s₀ t c 0x0A01 = true →
      (x.work.phase = 0 → (s.vault.st ≠ 3 ∨ rekeyRuns s t c = true ∨ s.vault.rekey.any (· != tgt) = true ∨ (tgt = 1 ∧ s.dome.next = none)) →
        exec (.vaultRekey t c .none) s₀ = bad) ∧
      (x.work.phase = 0 → s.vault.st = 3 → rekeyRuns s t c = false → s.vault.rekey = some tgt → ¬ (tgt = 1 ∧ s.dome.next = none) →
        ∃ s1, exec (.vaultRekey t c .none) s₀ = .next (setNeeds s1 t c [.page]) ∧ (s1.ctx t c).work.total = pages) ∧
      (x.work.phase = 0 → s.vault.st = 3 → rekeyRuns s t c = false → s.vault.rekey = none → ¬ (tgt = 1 ∧ s.dome.next = none) →
        ∃ s1 k, exec (.vaultRekey t c .none) s₀ = .next (passGroup s1 t c { sets := .add k } [] (goOn, 39, 0, [])) ∧
          s1.vault.rekey = some tgt ∧
          (tgt = 1 → k.gen = 0 ∧ s.dome.next.map dmkId = some k.dmkId) ∧ (tgt ≠ 1 → k.gen = (baseImage s).slot.curSet.gen + 1)) ∧
      (x.work.phase = 9 → ∃ s1, exec (.vaultRekey t c .none) s₀ = .next (setNeeds s1 t c [.page]) ∧ (s1.ctx t c).work.total = pages ∧
        (tgt = 0 → s1.vault.nextReady = false)) ∧
      (x.work.phase = 1 → ∃ s1, exec (.vaultRekey t c .none) s₀ = .next (passGroup s1 t c { sets := .drop } [] (goOn, 39, 0, []))) ∧
      (x.work.phase = 2 → exec (.vaultRekey t c .none) s₀ = .next (finishFree
        (s.setVault { s.vault with rekey := none, nextReady := tgt == 1 }) t c stOk
        (leBytes 8 (workVal s t c 0) ++ leBytes 8 (workVal s t c 1))))) ∧
    (atFigure s₀ t c 0x0A02 = true →
      (x.work.phase = 0 → s.vault.st = 3 → (leAt d 72 8 = 0 ∨ leAt d 64 8 + leAt d 72 8 > pages) →
        exec (.vaultScrub t c .none) s₀ = bad) ∧
      (x.work.phase = 0 → s.vault.st ≠ 3 → exec (.vaultScrub t c .none) s₀ = .next (finishCall s t c stVaultUnreach 39 0 [])) ∧
      (x.work.phase = 0 → s.vault.st = 3 → ¬ (leAt d 72 8 = 0 ∨ leAt d 64 8 + leAt d 72 8 > pages) →
        ∃ s1, exec (.vaultScrub t c .none) s₀ = .next (setNeeds s1 t c [.page]) ∧ (s1.ctx t c).work.total = leAt d 72 8) ∧
      (x.work.phase ≠ 0 → exec (.vaultScrub t c .none) s₀ = .next (finishFree s t c stOk
        (leBytes 8 (workVal s t c 0) ++ leBytes 4 (workVal s t c 1) ++ leBytes 8 (workVal s t c 2))))) ∧
    (∀ mem failed, firstNeed s₀ t c = some .page → s₀.vault.st = 3 →
      let pg := lockFirst s₀ t c
      let n := lockSpan s₀ pg
      let run := exec (.pageLock t c mem failed) s₀
      let y := windowMove (putMem s₀ mem) false (pageReads s₀ (baseImage s₀).slot pg n)
      (pageBusy s₀ pg n = true → run = .next s₀) ∧
      (pageBusy s₀ pg n = false → failed = true ∨ y.2 = false →
        run = .next (finishFree (if failed then logVaultError y.1 else y.1) t c stVaultUnreach [])) ∧
      (pageBusy s₀ pg n = false → failed = false → y.2 = true → opOf (workDesc s₀ t c) = 0x0A02 →
        openPage y.1 (baseImage y.1) (leAt (workDesc y.1 t c) 64 8 + (y.1.ctx t c).work.progress) = none → ∃ s1,
        run = .next (pageDone s1 t c 1) ∧ (s1.ctx t c).work.progress = (y.1.ctx t c).work.progress ∧
        s1.vault.integCount = satAdd 32 y.1.vault.integCount 1) ∧
      (∀ ls, pageBusy s₀ pg n = false → failed = false → y.2 = true → opOf (workDesc s₀ t c) = 0x0A02 →
        let at_ := leAt (workDesc y.1 t c) 64 8 + (y.1.ctx t c).work.progress
        openPage y.1 (baseImage y.1) at_ = some ls → run = .next (
          if par (workDesc y.1 t c) 80 = 1 ∧ readCtr y.1 (baseImage y.1).slot (imageView y.1 (baseImage y.1)) (64 * at_) ≠ some (zeros 64)
          then passPages y.1 t c { first := at_ } (bumpVal 0 1) else pageDone (modWork y.1 t c (bumpVal 0 1)) t c 1))) ∧
    (atFigure s₀ t c 0x0A03 = true → s.vault.st = 3 →
      (tgt = 0 → x.work.phase = 0 →
        let b := sealBytes s false
        let s2 := writeOut (writeSeal s (if timeKnown s then reelSecond s % 2 else 0) b) t c b
        let s3 := mirror (modWork s2.1 t c (fun w => { w with phase := 1, vals := [(committed s).epoch] }))
        s2.2 = true → exec (.vaultSealRoot t c .none) s₀ =
          .next (if s3.vault.awaiting = [] then s3 else setNeeds s3 t c [.reel])) ∧
      (tgt = 0 → x.work.phase = 1 → exec (.vaultSealRoot t c .none) s₀ =
        .next (finishCall s t c stOk 99 0 (leBytes 8 (workVal s t c 0) ++ leBytes 1 s.vault.acks))) ∧
      (tgt = 1 → x.work.phase = 0 → vaultQuiet s = false → exec (.vaultSealRelease t c .none) s₀ =
        .next (setNeeds (modWork s t c (fun w => { w with phase := 2 })) t c [.commit])) ∧
      (tgt = 1 → x.work.phase = 1 → ∃ s1, exec (.vaultSealRelease t c .none) s₀ =
        .next (finishCall s1 t c stOk 99 0 (leBytes 8 (workVal s t c 0) ++ leBytes 1 s.vault.acks)) ∧
        s1.vault.st = 0 ∧ (committed s1).valid = false ∧ (pendingSlot s1).valid = false)) ∧
    (∀ seals answers mem failed, atFigure s₀ t c 0x0A04 = true →
      let run := exec (.vaultAdopt t c .none seals answers mem failed) s₀
      let a := putMem s mem
      let y := windowMove a false (adoptReads a)
      let ready := a.vault.st = 0 ∧ geometryOk a = true ∧ a.dome.cur.isSome = true
      (¬ ready → run = .next (finishCall a t c stBadParam 39 0 [])) ∧
      (ready → failed = true ∨ y.2 = false →
        run = .next (finishFree (if failed then logVaultError y.1 else y.1) t c stVaultUnreach [])) ∧
      (ready → failed = false → y.2 = true → formOf (workDesc y.1 t c) = 2 → sealSlot y.1 (inputOf y.1 t c) = none →
        run = .next (finishFree y.1 t c stIntegrity [])) ∧
      (∀ r, ready → failed = false → y.2 = true → formOf (workDesc y.1 t c) = 2 → sealSlot y.1 (inputOf y.1 t c) = some r →
        r.p = y.1.vault.p → r.j = y.1.vault.j → byteAt (inputOf y.1 t c) 35 = 0 →
        let f := rollForward (y.1.vault.mem.length + 1) y.1 r 0
        let g := rootAccess f.1 true
        let s2 := { g.1 with dome := { g.1.dome with slots := (f.2.1, {}), sel := false } }
        ((f.2.2.2 && g.2) = false → run = .next (finishFree g.1 t c stVaultUnreach [])) ∧
        ((f.2.2.2 && g.2) = true → (tryOnline (s2.setVault { s2.vault with journalLost := false })).2 = true → ∃ s1, run =
          .next (finishFree s1 t c stOk (leBytes 8 f.2.1.epoch ++ leBytes 4 f.2.2.1)) ∧ committed s1 = f.2.1 ∧ s1.vault.st = 3)))

/-- PARTITION_HANDOFF and its four messages: query, reply, pages and descriptor (R251; R252; log 26) -/
def Obligations.HandoffMovesAPartitionOnce : Prop :=
  (∀ (s₀ : State) (t c : Nat), atFigure s₀ t c 0x0A05 = true →
    let s := pastYield s₀ t c
    let d := workDesc s t c
    let p := leAt d 66 2
    let w := (s.ctx t c).work
    let run := exec (.partitionHandoff t c .none) s₀
    let bad := p = 0 ∨ 1023 < p ∨ pstate s p = 0 ∨ 2 < pstate s p ∨ (tblGet none s.bind p).isSome = true
    (w.phase = 0 → bad → run = .next (finishCall s t c stBadParam 39 0 [])) ∧
    (w.phase = 0 → ¬ bad → s.vault.st ≠ 3 → run = .next (finishCall s t c stVaultUnreach 39 0 [])) ∧
    (w.phase = 0 → ¬ bad → s.vault.st = 3 → portTo s (leAt d 64 2) = none → run = .next (finishCall s t c stReelUnreach 39 0 [])) ∧
    (w.phase = 0 → ¬ bad → s.vault.st = 3 → (portTo s (leAt d 64 2)).isSome = true →
      (w.drawn.length < 8 → run = .next (setNeeds s t c [.draw 8])) ∧
      (8 ≤ w.drawn.length → ∃ s1, s1 = modWork s t c (fun y => { y with phase := 1, keep := y.drawn.take 8, vals := [0] }) ∧
        run = .next (setNeeds (sendTo s1 0 0x09 (leAt d 64 2) (queryBytes s p (w.drawn.take 8))) t c [.reel]))) ∧
    (w.phase = 2 → run = .next (writeDesc s t c p ((descOf s p).set 1 2) [] (goOn, 39, 0, [])
      (fun a => modWork a t c (fun w => { w with phase := 3 })))) ∧
    (∀ k, w.phase = 3 → handoffKey s p w.keep = some k →
      let m := gcmEnc (aesC k) (List.replicate 12 0xFF) [] (fit 256 (descOf s p))
      run = .next (finishFree (forgetPart (sendTo s 2 0x21 (leAt d 64 2) (m.1 ++ m.2)) p) t c stOk (leBytes 8 (workVal s t c 0))))) ∧
  ∀ (s s1 : State) (h : Hdr) (b : Bytes), h.dst = s1.reel.addr → let src := h.src
    (heard s h 0 = some s1 → let p := leAt b 0 2
     let ok := s1.vault.st = 3 ∧ s1.dome.cur.map dmkId = some (sub b 10 2) ∧ 1 ≤ p ∧ p ≤ 1023 ∧ pstate s1 p = 0 ∧
       payLine s1 p 0 + leAt b 12 6 ≤ geoP (committed s1).p
     (ok → exec (.peerQuery h b) s = .next (sendTo (s1.setReel { s1.reel with inbound := some (src, p, sub b 2 8) }) 3 0x35 src
       ([0, 1] ++ zeros 8))) ∧
     (¬ ok → exec (.peerQuery h b) s = .next (sendTo s1 3 0x35 src ([0, 0] ++ zeros 8)))) ∧
    (∀ t c, heard s h 3 = some s1 → handoffCtx s1 src = some (t, c) →
      (byteAt b 0 = 0 → firstNeed s1 t c = some .reel → byteAt b 1 = 1 → exec (.peerReply h b) s = .next (popNeed s1 t c)) ∧
      (byteAt b 0 = 0 → firstNeed s1 t c = some .reel → byteAt b 1 ≠ 1 →
        exec (.peerReply h b) s = .next (finishFree s1 t c stReelUnreach [])) ∧
      (byteAt b 0 ≠ 0 → (s1.ctx t c).held = none → exec (.peerReply h b) s = .next (finishFree s1 t c stIntegrity [])) ∧
      (byteAt b 0 ≠ 0 → (s1.ctx t c).held ≠ none → t < s1.towers.length → c < (s1.tower t).ctxs.length → ∃ s',
        exec (.peerReply h b) s = .next s' ∧ ((s'.ctx t c).held.map (·.1)) = some stIntegrity)) ∧
    (∀ p nonce k, heard s h 2 = some s1 → s1.reel.inbound = some (src, p, nonce) → handoffKey s1 p nonce = some k →
      (let iv := beBytes 8 (leAt b 0 8) ++ beBytes 4 (byteAt b 8)
       let good := b.length = 2080 ∧ byteAt b 8 < 2 ∧ zeroIn b 9 16 = true ∧
         gcmTag (aesC k) iv (b.take 16) (sub b 16 2048) = b.drop 2064
       let ls := (chunks 64 (gcmCtr (aesC k) iv (sub b 16 2048))).zipIdx.map (fun e => (p, 64 * leAt b 0 8 + 32 * byteAt b 8 + e.2, e.1))
       (good → exec (.handoffPage h b) s = .next (engineGroup s1 { lines := ls })) ∧
       (¬ good → exec (.handoffPage h b) s = .next (rejectInbound s1 src (leAt b 0 8)))) ∧
      (let iv : Bytes := List.replicate 12 0xFF
       let good := b.length = 272 ∧ gcmTag (aesC k) iv [] (b.take 256) = b.drop 256
       let d := patch ((gcmCtr (aesC k) iv (b.take 256)).set 1 1) 4 [0xFF, 0xFF]
       (good → ∀ l, descLines s1 p d = some l → ∃ s', exec (.handoffDesc h b) s = .next s' ∧ s'.reel.inbound = none ∧
         s'.vault.descs = tblSet (zeros 256) s1.vault.descs p d ∧
         s'.vault.groups = s1.vault.groups ++ [{ at_ := (17, 0), lines := l.1, undo := [(p, descOf s1 p, d)] }]) ∧
       (¬ good → exec (.handoffDesc h b) s = .next (rejectInbound s1 src 0))))
end

