-- ==== Sys2Proof/Laws/Table.lean ====
section
/-! SUPPORT. The laws of sparse tables: canonical form, and a read after a write. -/

namespace Sys2Proof.Machine

theorem tblWf_insert {α : Type} [DecidableEq α] (d : α) (t : Tbl α) (k : Nat) (v : α) (hv : v ≠ d) (h : tblWf d t = true) :
    tblWf d (tblInsert t k v) = true ∧ ∀ m, (∀ e ∈ t, m < e.1) → m < k → ∀ e ∈ tblInsert t k v, m < e.1 := by
  induction t with
  | nil => simp [tblInsert, tblWf, hv]
  | cons x r ih =>
    obtain ⟨j, w⟩ := x
    simp only [tblWf, Bool.and_eq_true, decide_eq_true_eq, List.all_eq_true] at h
    obtain ⟨⟨h1, h2⟩, h3⟩ := h
    obtain ⟨i1, i2⟩ := ih h3
    simp only [tblInsert]
    split
    · subst_vars
      simp [tblWf, hv, h3]
      constructor
      · intro a b hm
        exact h2 _ hm
      · grind
    · split
      · simp [tblWf, hv, h1, h3]
        grind
      · simp [tblWf, h1, i1]
        constructor
        · intro a b hm
          exact i2 j h2 (by omega) _ hm
        · intro m hm hj hk
          refine ⟨by omega, fun a b hab => i2 m (fun e he => ?_) hk _ hab⟩
          have := h2 e he
          omega

theorem tblWf_erase {α : Type} [DecidableEq α] (d : α) (t : Tbl α) (k : Nat) (h : tblWf d t = true) :
    tblWf d (tblErase t k) = true ∧ ∀ e ∈ tblErase t k, e ∈ t := by
  induction t with
  | nil => simp [tblErase, tblWf]
  | cons x r ih =>
    obtain ⟨j, w⟩ := x
    simp only [tblWf, Bool.and_eq_true, decide_eq_true_eq, List.all_eq_true] at h
    obtain ⟨⟨h1, h2⟩, h3⟩ := h
    obtain ⟨i1, i2⟩ := ih h3
    simp only [tblErase]
    split
    · exact ⟨i1, fun e he => List.mem_cons_of_mem _ (i2 e he)⟩
    · simp [tblWf, h1, i1]
      grind

/-- A write keeps the canonical form. -/
theorem tblWf_set {α : Type} [DecidableEq α] (d : α) (t : Tbl α) (k : Nat) (v : α) (h : tblWf d t = true) :
    tblWf d (tblSet d t k v) = true := by
  unfold tblSet
  split
  · exact (tblWf_erase d t k h).1
  · exact (tblWf_insert d t k v ‹_› h).1

/-- A write of a run keeps the canonical form. -/
theorem tblWf_setRun {α : Type} [DecidableEq α] (d : α) (l : List α) (t : Tbl α) (k : Nat) (h : tblWf d t = true) :
    tblWf d (tblSetRun d t k l) = true := by
  induction l generalizing t k with
  | nil => simpa [tblSetRun]
  | cons x r ih => exact ih _ _ (tblWf_set d t k x h)

@[simp] theorem tblGet_insert_same {α : Type} (d : α) (t : Tbl α) (k : Nat) (v : α) : tblGet d (tblInsert t k v) k = v := by
  induction t with
  | nil => simp [tblInsert, tblGet]
  | cons x r ih => simp only [tblInsert]; (repeat' split) <;> simp_all [tblGet]

theorem tblGet_insert_other {α : Type} (d : α) (t : Tbl α) (k m : Nat) (v : α) (h : m ≠ k) :
    tblGet d (tblInsert t k v) m = tblGet d t m := by
  induction t with
  | nil => simp [tblInsert, tblGet, h.symm]
  | cons x r ih => simp only [tblInsert]; (repeat' split) <;> simp_all [tblGet] <;> grind

theorem tblGet_erase_other {α : Type} (d : α) (t : Tbl α) (k m : Nat) (h : m ≠ k) : tblGet d (tblErase t k) m = tblGet d t m := by
  induction t with
  | nil => rfl
  | cons x r ih => simp only [tblErase]; (repeat' split) <;> simp_all [tblGet]; grind

/-- An index below every listed one reads as the default. -/
theorem tblGet_below {α : Type} (d : α) (t : Tbl α) (k : Nat) (h : ∀ e ∈ t, k < e.1) : tblGet d t k = d := by
  induction t with
  | nil => rfl
  | cons x r ih =>
    obtain ⟨j, w⟩ := x
    have := h (j, w) (List.mem_cons_self ..)
    simp only [tblGet]
    rw [if_neg (by simp at this; omega)]
    exact ih (fun e he => h e (List.mem_cons_of_mem _ he))

@[simp] theorem tblGet_erase_same {α : Type} (d : α) (t : Tbl α) (k : Nat) : tblGet d (tblErase t k) k = d := by
  induction t with
  | nil => rfl
  | cons x r ih => simp only [tblErase]; split <;> simp_all [tblGet]

/-- A read after a write to the same index gives the value written, in any table. -/
@[simp] theorem tblGet_set_same {α : Type} [DecidableEq α] (d : α) (t : Tbl α) (k : Nat) (v : α) : tblGet d (tblSet d t k v) k = v := by
  unfold tblSet
  split <;> simp_all

/-- A write leaves every other index alone. -/
theorem tblGet_set_other {α : Type} [DecidableEq α] (d : α) (t : Tbl α) (k m : Nat) (v : α) (h : m ≠ k) :
    tblGet d (tblSet d t k v) m = tblGet d t m := by
  unfold tblSet
  split
  · exact tblGet_erase_other d t k m h
  · exact tblGet_insert_other d t k m v h

/-- A write of a run leaves every index outside it alone. -/
theorem tblGet_setRun_other {α : Type} [DecidableEq α] (d : α) (l : List α) (t : Tbl α) (k m : Nat)
    (h : m < k ∨ k + l.length ≤ m) : tblGet d (tblSetRun d t k l) m = tblGet d t m := by
  induction l generalizing t k with
  | nil => rfl
  | cons x r ih =>
    rw [tblSetRun, ih _ _ (by simp at h; omega), tblGet_set_other]
    simp at h
    omega

/-- A read inside a run gives the value written there, in a table in canonical form. -/
theorem tblGet_setRun_mem {α : Type} [DecidableEq α] (d : α) (l : List α) (t : Tbl α) (k i : Nat) (hi : i < l.length)
    (h : tblWf d t = true) : tblGet d (tblSetRun d t k l) (k + i) = l[i] := by
  induction l generalizing t k i with
  | nil => simp at hi
  | cons x r ih =>
    rw [tblSetRun]
    cases i with
    | zero => rw [tblGet_setRun_other _ _ _ _ _ (by omega)]; simpa using tblGet_set_same d t k x h
    | succ n =>
      have := ih (tblSet d t k x) (k + 1) n (by simpa using hi) (tblWf_set d t k x h)
      rw [show k + (n + 1) = k + 1 + n by omega, this]
      rfl

end Sys2Proof.Machine
end

