-- ==== Sys2Proof/Laws/State.lean ====
section
/-! SUPPORT. The fields of the state after each named update: one lemma per field per update. -/

namespace Sys2Proof.Machine

/-! ## State.setHead -/

@[simp] theorem State.setHead_cycle (s : State) (p : Nat) (h : Head) : (s.setHead p h).cycle = s.cycle := rfl
@[simp] theorem State.setHead_free (s : State) (p : Nat) (h : Head) : (s.setHead p h).free = s.free := rfl
@[simp] theorem State.setHead_heads (s : State) (p : Nat) (h : Head) :
    (s.setHead p h).heads = tblSet ({} : Head) s.heads p h := rfl
@[simp] theorem State.setHead_dev (s : State) (p : Nat) (h : Head) : (s.setHead p h).dev = s.dev := rfl
@[simp] theorem State.setHead_sup (s : State) (p : Nat) (h : Head) : (s.setHead p h).sup = s.sup := rfl
@[simp] theorem State.setHead_pwr (s : State) (p : Nat) (h : Head) : (s.setHead p h).pwr = s.pwr := rfl
@[simp] theorem State.setHead_fuse (s : State) (p : Nat) (h : Head) : (s.setHead p h).fuse = s.fuse := rfl
@[simp] theorem State.setHead_lcs (s : State) (p : Nat) (h : Head) : (s.setHead p h).lcs = s.lcs := rfl
@[simp] theorem State.setHead_cus (s : State) (p : Nat) (h : Head) : (s.setHead p h).cus = s.cus := rfl
@[simp] theorem State.setHead_dome (s : State) (p : Nat) (h : Head) : (s.setHead p h).dome = s.dome := rfl
@[simp] theorem State.setHead_rng (s : State) (p : Nat) (h : Head) : (s.setHead p h).rng = s.rng := rfl
@[simp] theorem State.setHead_time (s : State) (p : Nat) (h : Head) : (s.setHead p h).time = s.time := rfl
@[simp] theorem State.setHead_mtr (s : State) (p : Nat) (h : Head) : (s.setHead p h).mtr = s.mtr := rfl
@[simp] theorem State.setHead_caller (s : State) (p : Nat) (h : Head) : (s.setHead p h).caller = s.caller := rfl
@[simp] theorem State.setHead_keep (s : State) (p : Nat) (h : Head) : (s.setHead p h).keep = s.keep := rfl
@[simp] theorem State.setHead_vault (s : State) (p : Nat) (h : Head) : (s.setHead p h).vault = s.vault := rfl
@[simp] theorem State.setHead_acu (s : State) (p : Nat) (h : Head) : (s.setHead p h).acu = s.acu := rfl
@[simp] theorem State.setHead_hif (s : State) (p : Nat) (h : Head) : (s.setHead p h).hif = s.hif := rfl
@[simp] theorem State.setHead_reel (s : State) (p : Nat) (h : Head) : (s.setHead p h).reel = s.reel := rfl
@[simp] theorem State.setHead_curves (s : State) (p : Nat) (h : Head) : (s.setHead p h).curves = s.curves := rfl
@[simp] theorem State.setHead_towers (s : State) (p : Nat) (h : Head) : (s.setHead p h).towers = s.towers := rfl
@[simp] theorem State.setHead_jobs (s : State) (p : Nat) (h : Head) : (s.setHead p h).jobs = s.jobs := rfl
@[simp] theorem State.setHead_bind (s : State) (p : Nat) (h : Head) : (s.setHead p h).bind = s.bind := rfl
@[simp] theorem State.setHead_host (s : State) (p : Nat) (h : Head) : (s.setHead p h).host = s.host := rfl
@[simp] theorem State.setHead_smb (s : State) (p : Nat) (h : Head) : (s.setHead p h).smb = s.smb := rfl
@[simp] theorem State.setHead_pending (s : State) (p : Nat) (h : Head) : (s.setHead p h).pending = s.pending := rfl

/-! ## State.setTf -/

@[simp] theorem State.setTf_cycle (s : State) (n : Nat) (t : Tf) : (s.setTf n t).cycle = s.cycle := rfl
@[simp] theorem State.setTf_free (s : State) (n : Nat) (t : Tf) : (s.setTf n t).free = s.free := rfl
@[simp] theorem State.setTf_heads (s : State) (n : Nat) (t : Tf) : (s.setTf n t).heads = s.heads := rfl
@[simp] theorem State.setTf_dev (s : State) (n : Nat) (t : Tf) : (s.setTf n t).dev = s.dev := rfl
@[simp] theorem State.setTf_sup (s : State) (n : Nat) (t : Tf) : (s.setTf n t).sup = s.sup := rfl
@[simp] theorem State.setTf_pwr (s : State) (n : Nat) (t : Tf) : (s.setTf n t).pwr = s.pwr := rfl
@[simp] theorem State.setTf_fuse (s : State) (n : Nat) (t : Tf) : (s.setTf n t).fuse = s.fuse := rfl
@[simp] theorem State.setTf_lcs (s : State) (n : Nat) (t : Tf) : (s.setTf n t).lcs = s.lcs := rfl
@[simp] theorem State.setTf_cus (s : State) (n : Nat) (t : Tf) : (s.setTf n t).cus = s.cus := rfl
@[simp] theorem State.setTf_dome (s : State) (n : Nat) (t : Tf) : (s.setTf n t).dome = s.dome := rfl
@[simp] theorem State.setTf_rng (s : State) (n : Nat) (t : Tf) : (s.setTf n t).rng = s.rng := rfl
@[simp] theorem State.setTf_time (s : State) (n : Nat) (t : Tf) : (s.setTf n t).time = s.time := rfl
@[simp] theorem State.setTf_mtr (s : State) (n : Nat) (t : Tf) : (s.setTf n t).mtr = s.mtr := rfl
@[simp] theorem State.setTf_caller (s : State) (n : Nat) (t : Tf) : (s.setTf n t).caller = s.caller := rfl
@[simp] theorem State.setTf_keep (s : State) (n : Nat) (t : Tf) : (s.setTf n t).keep = s.keep := rfl
@[simp] theorem State.setTf_vault (s : State) (n : Nat) (t : Tf) : (s.setTf n t).vault = s.vault := rfl
@[simp] theorem State.setTf_acu (s : State) (n : Nat) (t : Tf) : (s.setTf n t).acu = s.acu := rfl
@[simp] theorem State.setTf_hif (s : State) (n : Nat) (t : Tf) :
    (s.setTf n t).hif = { s.hif with tfs := tblSet ({} : Tf) s.hif.tfs n t } := rfl
@[simp] theorem State.setTf_reel (s : State) (n : Nat) (t : Tf) : (s.setTf n t).reel = s.reel := rfl
@[simp] theorem State.setTf_curves (s : State) (n : Nat) (t : Tf) : (s.setTf n t).curves = s.curves := rfl
@[simp] theorem State.setTf_towers (s : State) (n : Nat) (t : Tf) : (s.setTf n t).towers = s.towers := rfl
@[simp] theorem State.setTf_jobs (s : State) (n : Nat) (t : Tf) : (s.setTf n t).jobs = s.jobs := rfl
@[simp] theorem State.setTf_bind (s : State) (n : Nat) (t : Tf) : (s.setTf n t).bind = s.bind := rfl
@[simp] theorem State.setTf_host (s : State) (n : Nat) (t : Tf) : (s.setTf n t).host = s.host := rfl
@[simp] theorem State.setTf_smb (s : State) (n : Nat) (t : Tf) : (s.setTf n t).smb = s.smb := rfl
@[simp] theorem State.setTf_pending (s : State) (n : Nat) (t : Tf) : (s.setTf n t).pending = s.pending := rfl

/-! ## State.setQp -/

@[simp] theorem State.setQp_cycle (s : State) (fn q : Nat) (x : Qp) : (s.setQp fn q x).cycle = s.cycle := rfl
@[simp] theorem State.setQp_free (s : State) (fn q : Nat) (x : Qp) : (s.setQp fn q x).free = s.free := rfl
@[simp] theorem State.setQp_heads (s : State) (fn q : Nat) (x : Qp) : (s.setQp fn q x).heads = s.heads := rfl
@[simp] theorem State.setQp_dev (s : State) (fn q : Nat) (x : Qp) : (s.setQp fn q x).dev = s.dev := rfl
@[simp] theorem State.setQp_sup (s : State) (fn q : Nat) (x : Qp) : (s.setQp fn q x).sup = s.sup := rfl
@[simp] theorem State.setQp_pwr (s : State) (fn q : Nat) (x : Qp) : (s.setQp fn q x).pwr = s.pwr := rfl
@[simp] theorem State.setQp_fuse (s : State) (fn q : Nat) (x : Qp) : (s.setQp fn q x).fuse = s.fuse := rfl
@[simp] theorem State.setQp_lcs (s : State) (fn q : Nat) (x : Qp) : (s.setQp fn q x).lcs = s.lcs := rfl
@[simp] theorem State.setQp_cus (s : State) (fn q : Nat) (x : Qp) : (s.setQp fn q x).cus = s.cus := rfl
@[simp] theorem State.setQp_dome (s : State) (fn q : Nat) (x : Qp) : (s.setQp fn q x).dome = s.dome := rfl
@[simp] theorem State.setQp_rng (s : State) (fn q : Nat) (x : Qp) : (s.setQp fn q x).rng = s.rng := rfl
@[simp] theorem State.setQp_time (s : State) (fn q : Nat) (x : Qp) : (s.setQp fn q x).time = s.time := rfl
@[simp] theorem State.setQp_mtr (s : State) (fn q : Nat) (x : Qp) : (s.setQp fn q x).mtr = s.mtr := rfl
@[simp] theorem State.setQp_caller (s : State) (fn q : Nat) (x : Qp) : (s.setQp fn q x).caller = s.caller := rfl
@[simp] theorem State.setQp_keep (s : State) (fn q : Nat) (x : Qp) : (s.setQp fn q x).keep = s.keep := rfl
@[simp] theorem State.setQp_vault (s : State) (fn q : Nat) (x : Qp) : (s.setQp fn q x).vault = s.vault := rfl
@[simp] theorem State.setQp_acu (s : State) (fn q : Nat) (x : Qp) : (s.setQp fn q x).acu = s.acu := rfl
@[simp] theorem State.setQp_hif (s : State) (fn q : Nat) (x : Qp) :
    (s.setQp fn q x).hif = { s.hif with qps := tblSet ({} : Qp) s.hif.qps (16 * fn + q) x } := rfl
@[simp] theorem State.setQp_reel (s : State) (fn q : Nat) (x : Qp) : (s.setQp fn q x).reel = s.reel := rfl
@[simp] theorem State.setQp_curves (s : State) (fn q : Nat) (x : Qp) : (s.setQp fn q x).curves = s.curves := rfl
@[simp] theorem State.setQp_towers (s : State) (fn q : Nat) (x : Qp) : (s.setQp fn q x).towers = s.towers := rfl
@[simp] theorem State.setQp_jobs (s : State) (fn q : Nat) (x : Qp) : (s.setQp fn q x).jobs = s.jobs := rfl
@[simp] theorem State.setQp_bind (s : State) (fn q : Nat) (x : Qp) : (s.setQp fn q x).bind = s.bind := rfl
@[simp] theorem State.setQp_host (s : State) (fn q : Nat) (x : Qp) : (s.setQp fn q x).host = s.host := rfl
@[simp] theorem State.setQp_smb (s : State) (fn q : Nat) (x : Qp) : (s.setQp fn q x).smb = s.smb := rfl
@[simp] theorem State.setQp_pending (s : State) (fn q : Nat) (x : Qp) : (s.setQp fn q x).pending = s.pending := rfl

/-! ## State.setTower -/

@[simp] theorem State.setTower_cycle (s : State) (t : Nat) (x : Tower) : (s.setTower t x).cycle = s.cycle := rfl
@[simp] theorem State.setTower_free (s : State) (t : Nat) (x : Tower) : (s.setTower t x).free = s.free := rfl
@[simp] theorem State.setTower_heads (s : State) (t : Nat) (x : Tower) : (s.setTower t x).heads = s.heads := rfl
@[simp] theorem State.setTower_dev (s : State) (t : Nat) (x : Tower) : (s.setTower t x).dev = s.dev := rfl
@[simp] theorem State.setTower_sup (s : State) (t : Nat) (x : Tower) : (s.setTower t x).sup = s.sup := rfl
@[simp] theorem State.setTower_pwr (s : State) (t : Nat) (x : Tower) : (s.setTower t x).pwr = s.pwr := rfl
@[simp] theorem State.setTower_fuse (s : State) (t : Nat) (x : Tower) : (s.setTower t x).fuse = s.fuse := rfl
@[simp] theorem State.setTower_lcs (s : State) (t : Nat) (x : Tower) : (s.setTower t x).lcs = s.lcs := rfl
@[simp] theorem State.setTower_cus (s : State) (t : Nat) (x : Tower) : (s.setTower t x).cus = s.cus := rfl
@[simp] theorem State.setTower_dome (s : State) (t : Nat) (x : Tower) : (s.setTower t x).dome = s.dome := rfl
@[simp] theorem State.setTower_rng (s : State) (t : Nat) (x : Tower) : (s.setTower t x).rng = s.rng := rfl
@[simp] theorem State.setTower_time (s : State) (t : Nat) (x : Tower) : (s.setTower t x).time = s.time := rfl
@[simp] theorem State.setTower_mtr (s : State) (t : Nat) (x : Tower) : (s.setTower t x).mtr = s.mtr := rfl
@[simp] theorem State.setTower_caller (s : State) (t : Nat) (x : Tower) : (s.setTower t x).caller = s.caller := rfl
@[simp] theorem State.setTower_keep (s : State) (t : Nat) (x : Tower) : (s.setTower t x).keep = s.keep := rfl
@[simp] theorem State.setTower_vault (s : State) (t : Nat) (x : Tower) : (s.setTower t x).vault = s.vault := rfl
@[simp] theorem State.setTower_acu (s : State) (t : Nat) (x : Tower) : (s.setTower t x).acu = s.acu := rfl
@[simp] theorem State.setTower_hif (s : State) (t : Nat) (x : Tower) : (s.setTower t x).hif = s.hif := rfl
@[simp] theorem State.setTower_reel (s : State) (t : Nat) (x : Tower) : (s.setTower t x).reel = s.reel := rfl
@[simp] theorem State.setTower_curves (s : State) (t : Nat) (x : Tower) : (s.setTower t x).curves = s.curves := rfl
@[simp] theorem State.setTower_towers (s : State) (t : Nat) (x : Tower) :
    (s.setTower t x).towers = s.towers.set t x := rfl
@[simp] theorem State.setTower_jobs (s : State) (t : Nat) (x : Tower) : (s.setTower t x).jobs = s.jobs := rfl
@[simp] theorem State.setTower_bind (s : State) (t : Nat) (x : Tower) : (s.setTower t x).bind = s.bind := rfl
@[simp] theorem State.setTower_host (s : State) (t : Nat) (x : Tower) : (s.setTower t x).host = s.host := rfl
@[simp] theorem State.setTower_smb (s : State) (t : Nat) (x : Tower) : (s.setTower t x).smb = s.smb := rfl
@[simp] theorem State.setTower_pending (s : State) (t : Nat) (x : Tower) : (s.setTower t x).pending = s.pending := rfl

/-! ## State.setCtx -/

@[simp] theorem State.setCtx_cycle (s : State) (t c : Nat) (x : Ctx) : (s.setCtx t c x).cycle = s.cycle := rfl
@[simp] theorem State.setCtx_free (s : State) (t c : Nat) (x : Ctx) : (s.setCtx t c x).free = s.free := rfl
@[simp] theorem State.setCtx_heads (s : State) (t c : Nat) (x : Ctx) : (s.setCtx t c x).heads = s.heads := rfl
@[simp] theorem State.setCtx_dev (s : State) (t c : Nat) (x : Ctx) : (s.setCtx t c x).dev = s.dev := rfl
@[simp] theorem State.setCtx_sup (s : State) (t c : Nat) (x : Ctx) : (s.setCtx t c x).sup = s.sup := rfl
@[simp] theorem State.setCtx_pwr (s : State) (t c : Nat) (x : Ctx) : (s.setCtx t c x).pwr = s.pwr := rfl
@[simp] theorem State.setCtx_fuse (s : State) (t c : Nat) (x : Ctx) : (s.setCtx t c x).fuse = s.fuse := rfl
@[simp] theorem State.setCtx_lcs (s : State) (t c : Nat) (x : Ctx) : (s.setCtx t c x).lcs = s.lcs := rfl
@[simp] theorem State.setCtx_cus (s : State) (t c : Nat) (x : Ctx) : (s.setCtx t c x).cus = s.cus := rfl
@[simp] theorem State.setCtx_dome (s : State) (t c : Nat) (x : Ctx) : (s.setCtx t c x).dome = s.dome := rfl
@[simp] theorem State.setCtx_rng (s : State) (t c : Nat) (x : Ctx) : (s.setCtx t c x).rng = s.rng := rfl
@[simp] theorem State.setCtx_time (s : State) (t c : Nat) (x : Ctx) : (s.setCtx t c x).time = s.time := rfl
@[simp] theorem State.setCtx_mtr (s : State) (t c : Nat) (x : Ctx) : (s.setCtx t c x).mtr = s.mtr := rfl
@[simp] theorem State.setCtx_caller (s : State) (t c : Nat) (x : Ctx) : (s.setCtx t c x).caller = s.caller := rfl
@[simp] theorem State.setCtx_keep (s : State) (t c : Nat) (x : Ctx) : (s.setCtx t c x).keep = s.keep := rfl
@[simp] theorem State.setCtx_vault (s : State) (t c : Nat) (x : Ctx) : (s.setCtx t c x).vault = s.vault := rfl
@[simp] theorem State.setCtx_acu (s : State) (t c : Nat) (x : Ctx) : (s.setCtx t c x).acu = s.acu := rfl
@[simp] theorem State.setCtx_hif (s : State) (t c : Nat) (x : Ctx) : (s.setCtx t c x).hif = s.hif := rfl
@[simp] theorem State.setCtx_reel (s : State) (t c : Nat) (x : Ctx) : (s.setCtx t c x).reel = s.reel := rfl
@[simp] theorem State.setCtx_curves (s : State) (t c : Nat) (x : Ctx) : (s.setCtx t c x).curves = s.curves := rfl
@[simp] theorem State.setCtx_towers (s : State) (t c : Nat) (x : Ctx) :
    (s.setCtx t c x).towers = s.towers.set t { s.tower t with ctxs := (s.tower t).ctxs.set c x } := rfl
@[simp] theorem State.setCtx_jobs (s : State) (t c : Nat) (x : Ctx) : (s.setCtx t c x).jobs = s.jobs := rfl
@[simp] theorem State.setCtx_bind (s : State) (t c : Nat) (x : Ctx) : (s.setCtx t c x).bind = s.bind := rfl
@[simp] theorem State.setCtx_host (s : State) (t c : Nat) (x : Ctx) : (s.setCtx t c x).host = s.host := rfl
@[simp] theorem State.setCtx_smb (s : State) (t c : Nat) (x : Ctx) : (s.setCtx t c x).smb = s.smb := rfl
@[simp] theorem State.setCtx_pending (s : State) (t c : Nat) (x : Ctx) : (s.setCtx t c x).pending = s.pending := rfl

/-! ## State.setCus -/

@[simp] theorem State.setCus_cycle (s : State) (x : Cus) : (s.setCus x).cycle = s.cycle := rfl
@[simp] theorem State.setCus_free (s : State) (x : Cus) : (s.setCus x).free = s.free := rfl
@[simp] theorem State.setCus_heads (s : State) (x : Cus) : (s.setCus x).heads = s.heads := rfl
@[simp] theorem State.setCus_dev (s : State) (x : Cus) : (s.setCus x).dev = s.dev := rfl
@[simp] theorem State.setCus_sup (s : State) (x : Cus) : (s.setCus x).sup = s.sup := rfl
@[simp] theorem State.setCus_pwr (s : State) (x : Cus) : (s.setCus x).pwr = s.pwr := rfl
@[simp] theorem State.setCus_fuse (s : State) (x : Cus) : (s.setCus x).fuse = s.fuse := rfl
@[simp] theorem State.setCus_lcs (s : State) (x : Cus) : (s.setCus x).lcs = s.lcs := rfl
@[simp] theorem State.setCus_cus (s : State) (x : Cus) : (s.setCus x).cus = x := rfl
@[simp] theorem State.setCus_dome (s : State) (x : Cus) : (s.setCus x).dome = s.dome := rfl
@[simp] theorem State.setCus_rng (s : State) (x : Cus) : (s.setCus x).rng = s.rng := rfl
@[simp] theorem State.setCus_time (s : State) (x : Cus) : (s.setCus x).time = s.time := rfl
@[simp] theorem State.setCus_mtr (s : State) (x : Cus) : (s.setCus x).mtr = s.mtr := rfl
@[simp] theorem State.setCus_caller (s : State) (x : Cus) : (s.setCus x).caller = s.caller := rfl
@[simp] theorem State.setCus_keep (s : State) (x : Cus) : (s.setCus x).keep = s.keep := rfl
@[simp] theorem State.setCus_vault (s : State) (x : Cus) : (s.setCus x).vault = s.vault := rfl
@[simp] theorem State.setCus_acu (s : State) (x : Cus) : (s.setCus x).acu = s.acu := rfl
@[simp] theorem State.setCus_hif (s : State) (x : Cus) : (s.setCus x).hif = s.hif := rfl
@[simp] theorem State.setCus_reel (s : State) (x : Cus) : (s.setCus x).reel = s.reel := rfl
@[simp] theorem State.setCus_curves (s : State) (x : Cus) : (s.setCus x).curves = s.curves := rfl
@[simp] theorem State.setCus_towers (s : State) (x : Cus) : (s.setCus x).towers = s.towers := rfl
@[simp] theorem State.setCus_jobs (s : State) (x : Cus) : (s.setCus x).jobs = s.jobs := rfl
@[simp] theorem State.setCus_bind (s : State) (x : Cus) : (s.setCus x).bind = s.bind := rfl
@[simp] theorem State.setCus_host (s : State) (x : Cus) : (s.setCus x).host = s.host := rfl
@[simp] theorem State.setCus_smb (s : State) (x : Cus) : (s.setCus x).smb = s.smb := rfl
@[simp] theorem State.setCus_pending (s : State) (x : Cus) : (s.setCus x).pending = s.pending := rfl

/-! ## State.setMtr -/

@[simp] theorem State.setMtr_cycle (s : State) (x : Mtr) : (s.setMtr x).cycle = s.cycle := rfl
@[simp] theorem State.setMtr_free (s : State) (x : Mtr) : (s.setMtr x).free = s.free := rfl
@[simp] theorem State.setMtr_heads (s : State) (x : Mtr) : (s.setMtr x).heads = s.heads := rfl
@[simp] theorem State.setMtr_dev (s : State) (x : Mtr) : (s.setMtr x).dev = s.dev := rfl
@[simp] theorem State.setMtr_sup (s : State) (x : Mtr) : (s.setMtr x).sup = s.sup := rfl
@[simp] theorem State.setMtr_pwr (s : State) (x : Mtr) : (s.setMtr x).pwr = s.pwr := rfl
@[simp] theorem State.setMtr_fuse (s : State) (x : Mtr) : (s.setMtr x).fuse = s.fuse := rfl
@[simp] theorem State.setMtr_lcs (s : State) (x : Mtr) : (s.setMtr x).lcs = s.lcs := rfl
@[simp] theorem State.setMtr_cus (s : State) (x : Mtr) : (s.setMtr x).cus = s.cus := rfl
@[simp] theorem State.setMtr_dome (s : State) (x : Mtr) : (s.setMtr x).dome = s.dome := rfl
@[simp] theorem State.setMtr_rng (s : State) (x : Mtr) : (s.setMtr x).rng = s.rng := rfl
@[simp] theorem State.setMtr_time (s : State) (x : Mtr) : (s.setMtr x).time = s.time := rfl
@[simp] theorem State.setMtr_mtr (s : State) (x : Mtr) : (s.setMtr x).mtr = x := rfl
@[simp] theorem State.setMtr_caller (s : State) (x : Mtr) : (s.setMtr x).caller = s.caller := rfl
@[simp] theorem State.setMtr_keep (s : State) (x : Mtr) : (s.setMtr x).keep = s.keep := rfl
@[simp] theorem State.setMtr_vault (s : State) (x : Mtr) : (s.setMtr x).vault = s.vault := rfl
@[simp] theorem State.setMtr_acu (s : State) (x : Mtr) : (s.setMtr x).acu = s.acu := rfl
@[simp] theorem State.setMtr_hif (s : State) (x : Mtr) : (s.setMtr x).hif = s.hif := rfl
@[simp] theorem State.setMtr_reel (s : State) (x : Mtr) : (s.setMtr x).reel = s.reel := rfl
@[simp] theorem State.setMtr_curves (s : State) (x : Mtr) : (s.setMtr x).curves = s.curves := rfl
@[simp] theorem State.setMtr_towers (s : State) (x : Mtr) : (s.setMtr x).towers = s.towers := rfl
@[simp] theorem State.setMtr_jobs (s : State) (x : Mtr) : (s.setMtr x).jobs = s.jobs := rfl
@[simp] theorem State.setMtr_bind (s : State) (x : Mtr) : (s.setMtr x).bind = s.bind := rfl
@[simp] theorem State.setMtr_host (s : State) (x : Mtr) : (s.setMtr x).host = s.host := rfl
@[simp] theorem State.setMtr_smb (s : State) (x : Mtr) : (s.setMtr x).smb = s.smb := rfl
@[simp] theorem State.setMtr_pending (s : State) (x : Mtr) : (s.setMtr x).pending = s.pending := rfl

/-! ## State.setLedger -/

@[simp] theorem State.setLedger_cycle (s : State) (x : Ledger) : (s.setLedger x).cycle = s.cycle := rfl
@[simp] theorem State.setLedger_free (s : State) (x : Ledger) : (s.setLedger x).free = s.free := rfl
@[simp] theorem State.setLedger_heads (s : State) (x : Ledger) : (s.setLedger x).heads = s.heads := rfl
@[simp] theorem State.setLedger_dev (s : State) (x : Ledger) : (s.setLedger x).dev = s.dev := rfl
@[simp] theorem State.setLedger_sup (s : State) (x : Ledger) : (s.setLedger x).sup = s.sup := rfl
@[simp] theorem State.setLedger_pwr (s : State) (x : Ledger) : (s.setLedger x).pwr = s.pwr := rfl
@[simp] theorem State.setLedger_fuse (s : State) (x : Ledger) : (s.setLedger x).fuse = s.fuse := rfl
@[simp] theorem State.setLedger_lcs (s : State) (x : Ledger) : (s.setLedger x).lcs = s.lcs := rfl
@[simp] theorem State.setLedger_cus (s : State) (x : Ledger) : (s.setLedger x).cus = s.cus := rfl
@[simp] theorem State.setLedger_dome (s : State) (x : Ledger) :
    (s.setLedger x).dome = { s.dome with ledger := x } := rfl
@[simp] theorem State.setLedger_rng (s : State) (x : Ledger) : (s.setLedger x).rng = s.rng := rfl
@[simp] theorem State.setLedger_time (s : State) (x : Ledger) : (s.setLedger x).time = s.time := rfl
@[simp] theorem State.setLedger_mtr (s : State) (x : Ledger) : (s.setLedger x).mtr = s.mtr := rfl
@[simp] theorem State.setLedger_caller (s : State) (x : Ledger) : (s.setLedger x).caller = s.caller := rfl
@[simp] theorem State.setLedger_keep (s : State) (x : Ledger) : (s.setLedger x).keep = s.keep := rfl
@[simp] theorem State.setLedger_vault (s : State) (x : Ledger) : (s.setLedger x).vault = s.vault := rfl
@[simp] theorem State.setLedger_acu (s : State) (x : Ledger) : (s.setLedger x).acu = s.acu := rfl
@[simp] theorem State.setLedger_hif (s : State) (x : Ledger) : (s.setLedger x).hif = s.hif := rfl
@[simp] theorem State.setLedger_reel (s : State) (x : Ledger) : (s.setLedger x).reel = s.reel := rfl
@[simp] theorem State.setLedger_curves (s : State) (x : Ledger) : (s.setLedger x).curves = s.curves := rfl
@[simp] theorem State.setLedger_towers (s : State) (x : Ledger) : (s.setLedger x).towers = s.towers := rfl
@[simp] theorem State.setLedger_jobs (s : State) (x : Ledger) : (s.setLedger x).jobs = s.jobs := rfl
@[simp] theorem State.setLedger_bind (s : State) (x : Ledger) : (s.setLedger x).bind = s.bind := rfl
@[simp] theorem State.setLedger_host (s : State) (x : Ledger) : (s.setLedger x).host = s.host := rfl
@[simp] theorem State.setLedger_smb (s : State) (x : Ledger) : (s.setLedger x).smb = s.smb := rfl
@[simp] theorem State.setLedger_pending (s : State) (x : Ledger) : (s.setLedger x).pending = s.pending := rfl

/-! ## State.setPwr -/

@[simp] theorem State.setPwr_cycle (s : State) (x : Pwr) : (s.setPwr x).cycle = s.cycle := rfl
@[simp] theorem State.setPwr_free (s : State) (x : Pwr) : (s.setPwr x).free = s.free := rfl
@[simp] theorem State.setPwr_heads (s : State) (x : Pwr) : (s.setPwr x).heads = s.heads := rfl
@[simp] theorem State.setPwr_dev (s : State) (x : Pwr) : (s.setPwr x).dev = s.dev := rfl
@[simp] theorem State.setPwr_sup (s : State) (x : Pwr) : (s.setPwr x).sup = s.sup := rfl
@[simp] theorem State.setPwr_pwr (s : State) (x : Pwr) : (s.setPwr x).pwr = x := rfl
@[simp] theorem State.setPwr_fuse (s : State) (x : Pwr) : (s.setPwr x).fuse = s.fuse := rfl
@[simp] theorem State.setPwr_lcs (s : State) (x : Pwr) : (s.setPwr x).lcs = s.lcs := rfl
@[simp] theorem State.setPwr_cus (s : State) (x : Pwr) : (s.setPwr x).cus = s.cus := rfl
@[simp] theorem State.setPwr_dome (s : State) (x : Pwr) : (s.setPwr x).dome = s.dome := rfl
@[simp] theorem State.setPwr_rng (s : State) (x : Pwr) : (s.setPwr x).rng = s.rng := rfl
@[simp] theorem State.setPwr_time (s : State) (x : Pwr) : (s.setPwr x).time = s.time := rfl
@[simp] theorem State.setPwr_mtr (s : State) (x : Pwr) : (s.setPwr x).mtr = s.mtr := rfl
@[simp] theorem State.setPwr_caller (s : State) (x : Pwr) : (s.setPwr x).caller = s.caller := rfl
@[simp] theorem State.setPwr_keep (s : State) (x : Pwr) : (s.setPwr x).keep = s.keep := rfl
@[simp] theorem State.setPwr_vault (s : State) (x : Pwr) : (s.setPwr x).vault = s.vault := rfl
@[simp] theorem State.setPwr_acu (s : State) (x : Pwr) : (s.setPwr x).acu = s.acu := rfl
@[simp] theorem State.setPwr_hif (s : State) (x : Pwr) : (s.setPwr x).hif = s.hif := rfl
@[simp] theorem State.setPwr_reel (s : State) (x : Pwr) : (s.setPwr x).reel = s.reel := rfl
@[simp] theorem State.setPwr_curves (s : State) (x : Pwr) : (s.setPwr x).curves = s.curves := rfl
@[simp] theorem State.setPwr_towers (s : State) (x : Pwr) : (s.setPwr x).towers = s.towers := rfl
@[simp] theorem State.setPwr_jobs (s : State) (x : Pwr) : (s.setPwr x).jobs = s.jobs := rfl
@[simp] theorem State.setPwr_bind (s : State) (x : Pwr) : (s.setPwr x).bind = s.bind := rfl
@[simp] theorem State.setPwr_host (s : State) (x : Pwr) : (s.setPwr x).host = s.host := rfl
@[simp] theorem State.setPwr_smb (s : State) (x : Pwr) : (s.setPwr x).smb = s.smb := rfl
@[simp] theorem State.setPwr_pending (s : State) (x : Pwr) : (s.setPwr x).pending = s.pending := rfl

/-! ## State.setReel -/

@[simp] theorem State.setReel_cycle (s : State) (x : Reel) : (s.setReel x).cycle = s.cycle := rfl
@[simp] theorem State.setReel_free (s : State) (x : Reel) : (s.setReel x).free = s.free := rfl
@[simp] theorem State.setReel_heads (s : State) (x : Reel) : (s.setReel x).heads = s.heads := rfl
@[simp] theorem State.setReel_dev (s : State) (x : Reel) : (s.setReel x).dev = s.dev := rfl
@[simp] theorem State.setReel_sup (s : State) (x : Reel) : (s.setReel x).sup = s.sup := rfl
@[simp] theorem State.setReel_pwr (s : State) (x : Reel) : (s.setReel x).pwr = s.pwr := rfl
@[simp] theorem State.setReel_fuse (s : State) (x : Reel) : (s.setReel x).fuse = s.fuse := rfl
@[simp] theorem State.setReel_lcs (s : State) (x : Reel) : (s.setReel x).lcs = s.lcs := rfl
@[simp] theorem State.setReel_cus (s : State) (x : Reel) : (s.setReel x).cus = s.cus := rfl
@[simp] theorem State.setReel_dome (s : State) (x : Reel) : (s.setReel x).dome = s.dome := rfl
@[simp] theorem State.setReel_rng (s : State) (x : Reel) : (s.setReel x).rng = s.rng := rfl
@[simp] theorem State.setReel_time (s : State) (x : Reel) : (s.setReel x).time = s.time := rfl
@[simp] theorem State.setReel_mtr (s : State) (x : Reel) : (s.setReel x).mtr = s.mtr := rfl
@[simp] theorem State.setReel_caller (s : State) (x : Reel) : (s.setReel x).caller = s.caller := rfl
@[simp] theorem State.setReel_keep (s : State) (x : Reel) : (s.setReel x).keep = s.keep := rfl
@[simp] theorem State.setReel_vault (s : State) (x : Reel) : (s.setReel x).vault = s.vault := rfl
@[simp] theorem State.setReel_acu (s : State) (x : Reel) : (s.setReel x).acu = s.acu := rfl
@[simp] theorem State.setReel_hif (s : State) (x : Reel) : (s.setReel x).hif = s.hif := rfl
@[simp] theorem State.setReel_reel (s : State) (x : Reel) : (s.setReel x).reel = x := rfl
@[simp] theorem State.setReel_curves (s : State) (x : Reel) : (s.setReel x).curves = s.curves := rfl
@[simp] theorem State.setReel_towers (s : State) (x : Reel) : (s.setReel x).towers = s.towers := rfl
@[simp] theorem State.setReel_jobs (s : State) (x : Reel) : (s.setReel x).jobs = s.jobs := rfl
@[simp] theorem State.setReel_bind (s : State) (x : Reel) : (s.setReel x).bind = s.bind := rfl
@[simp] theorem State.setReel_host (s : State) (x : Reel) : (s.setReel x).host = s.host := rfl
@[simp] theorem State.setReel_smb (s : State) (x : Reel) : (s.setReel x).smb = s.smb := rfl
@[simp] theorem State.setReel_pending (s : State) (x : Reel) : (s.setReel x).pending = s.pending := rfl

/-! ## State.setRng -/

@[simp] theorem State.setRng_cycle (s : State) (x : Rng) : (s.setRng x).cycle = s.cycle := rfl
@[simp] theorem State.setRng_free (s : State) (x : Rng) : (s.setRng x).free = s.free := rfl
@[simp] theorem State.setRng_heads (s : State) (x : Rng) : (s.setRng x).heads = s.heads := rfl
@[simp] theorem State.setRng_dev (s : State) (x : Rng) : (s.setRng x).dev = s.dev := rfl
@[simp] theorem State.setRng_sup (s : State) (x : Rng) : (s.setRng x).sup = s.sup := rfl
@[simp] theorem State.setRng_pwr (s : State) (x : Rng) : (s.setRng x).pwr = s.pwr := rfl
@[simp] theorem State.setRng_fuse (s : State) (x : Rng) : (s.setRng x).fuse = s.fuse := rfl
@[simp] theorem State.setRng_lcs (s : State) (x : Rng) : (s.setRng x).lcs = s.lcs := rfl
@[simp] theorem State.setRng_cus (s : State) (x : Rng) : (s.setRng x).cus = s.cus := rfl
@[simp] theorem State.setRng_dome (s : State) (x : Rng) : (s.setRng x).dome = s.dome := rfl
@[simp] theorem State.setRng_rng (s : State) (x : Rng) : (s.setRng x).rng = x := rfl
@[simp] theorem State.setRng_time (s : State) (x : Rng) : (s.setRng x).time = s.time := rfl
@[simp] theorem State.setRng_mtr (s : State) (x : Rng) : (s.setRng x).mtr = s.mtr := rfl
@[simp] theorem State.setRng_caller (s : State) (x : Rng) : (s.setRng x).caller = s.caller := rfl
@[simp] theorem State.setRng_keep (s : State) (x : Rng) : (s.setRng x).keep = s.keep := rfl
@[simp] theorem State.setRng_vault (s : State) (x : Rng) : (s.setRng x).vault = s.vault := rfl
@[simp] theorem State.setRng_acu (s : State) (x : Rng) : (s.setRng x).acu = s.acu := rfl
@[simp] theorem State.setRng_hif (s : State) (x : Rng) : (s.setRng x).hif = s.hif := rfl
@[simp] theorem State.setRng_reel (s : State) (x : Rng) : (s.setRng x).reel = s.reel := rfl
@[simp] theorem State.setRng_curves (s : State) (x : Rng) : (s.setRng x).curves = s.curves := rfl
@[simp] theorem State.setRng_towers (s : State) (x : Rng) : (s.setRng x).towers = s.towers := rfl
@[simp] theorem State.setRng_jobs (s : State) (x : Rng) : (s.setRng x).jobs = s.jobs := rfl
@[simp] theorem State.setRng_bind (s : State) (x : Rng) : (s.setRng x).bind = s.bind := rfl
@[simp] theorem State.setRng_host (s : State) (x : Rng) : (s.setRng x).host = s.host := rfl
@[simp] theorem State.setRng_smb (s : State) (x : Rng) : (s.setRng x).smb = s.smb := rfl
@[simp] theorem State.setRng_pending (s : State) (x : Rng) : (s.setRng x).pending = s.pending := rfl

/-! ## State.setTime -/

@[simp] theorem State.setTime_cycle (s : State) (x : Time) : (s.setTime x).cycle = s.cycle := rfl
@[simp] theorem State.setTime_free (s : State) (x : Time) : (s.setTime x).free = s.free := rfl
@[simp] theorem State.setTime_heads (s : State) (x : Time) : (s.setTime x).heads = s.heads := rfl
@[simp] theorem State.setTime_dev (s : State) (x : Time) : (s.setTime x).dev = s.dev := rfl
@[simp] theorem State.setTime_sup (s : State) (x : Time) : (s.setTime x).sup = s.sup := rfl
@[simp] theorem State.setTime_pwr (s : State) (x : Time) : (s.setTime x).pwr = s.pwr := rfl
@[simp] theorem State.setTime_fuse (s : State) (x : Time) : (s.setTime x).fuse = s.fuse := rfl
@[simp] theorem State.setTime_lcs (s : State) (x : Time) : (s.setTime x).lcs = s.lcs := rfl
@[simp] theorem State.setTime_cus (s : State) (x : Time) : (s.setTime x).cus = s.cus := rfl
@[simp] theorem State.setTime_dome (s : State) (x : Time) : (s.setTime x).dome = s.dome := rfl
@[simp] theorem State.setTime_rng (s : State) (x : Time) : (s.setTime x).rng = s.rng := rfl
@[simp] theorem State.setTime_time (s : State) (x : Time) : (s.setTime x).time = x := rfl
@[simp] theorem State.setTime_mtr (s : State) (x : Time) : (s.setTime x).mtr = s.mtr := rfl
@[simp] theorem State.setTime_caller (s : State) (x : Time) : (s.setTime x).caller = s.caller := rfl
@[simp] theorem State.setTime_keep (s : State) (x : Time) : (s.setTime x).keep = s.keep := rfl
@[simp] theorem State.setTime_vault (s : State) (x : Time) : (s.setTime x).vault = s.vault := rfl
@[simp] theorem State.setTime_acu (s : State) (x : Time) : (s.setTime x).acu = s.acu := rfl
@[simp] theorem State.setTime_hif (s : State) (x : Time) : (s.setTime x).hif = s.hif := rfl
@[simp] theorem State.setTime_reel (s : State) (x : Time) : (s.setTime x).reel = s.reel := rfl
@[simp] theorem State.setTime_curves (s : State) (x : Time) : (s.setTime x).curves = s.curves := rfl
@[simp] theorem State.setTime_towers (s : State) (x : Time) : (s.setTime x).towers = s.towers := rfl
@[simp] theorem State.setTime_jobs (s : State) (x : Time) : (s.setTime x).jobs = s.jobs := rfl
@[simp] theorem State.setTime_bind (s : State) (x : Time) : (s.setTime x).bind = s.bind := rfl
@[simp] theorem State.setTime_host (s : State) (x : Time) : (s.setTime x).host = s.host := rfl
@[simp] theorem State.setTime_smb (s : State) (x : Time) : (s.setTime x).smb = s.smb := rfl
@[simp] theorem State.setTime_pending (s : State) (x : Time) : (s.setTime x).pending = s.pending := rfl

/-! ## State.setVault -/

@[simp] theorem State.setVault_cycle (s : State) (x : Vault) : (s.setVault x).cycle = s.cycle := rfl
@[simp] theorem State.setVault_free (s : State) (x : Vault) : (s.setVault x).free = s.free := rfl
@[simp] theorem State.setVault_heads (s : State) (x : Vault) : (s.setVault x).heads = s.heads := rfl
@[simp] theorem State.setVault_dev (s : State) (x : Vault) : (s.setVault x).dev = s.dev := rfl
@[simp] theorem State.setVault_sup (s : State) (x : Vault) : (s.setVault x).sup = s.sup := rfl
@[simp] theorem State.setVault_pwr (s : State) (x : Vault) : (s.setVault x).pwr = s.pwr := rfl
@[simp] theorem State.setVault_fuse (s : State) (x : Vault) : (s.setVault x).fuse = s.fuse := rfl
@[simp] theorem State.setVault_lcs (s : State) (x : Vault) : (s.setVault x).lcs = s.lcs := rfl
@[simp] theorem State.setVault_cus (s : State) (x : Vault) : (s.setVault x).cus = s.cus := rfl
@[simp] theorem State.setVault_dome (s : State) (x : Vault) : (s.setVault x).dome = s.dome := rfl
@[simp] theorem State.setVault_rng (s : State) (x : Vault) : (s.setVault x).rng = s.rng := rfl
@[simp] theorem State.setVault_time (s : State) (x : Vault) : (s.setVault x).time = s.time := rfl
@[simp] theorem State.setVault_mtr (s : State) (x : Vault) : (s.setVault x).mtr = s.mtr := rfl
@[simp] theorem State.setVault_caller (s : State) (x : Vault) : (s.setVault x).caller = s.caller := rfl
@[simp] theorem State.setVault_keep (s : State) (x : Vault) : (s.setVault x).keep = s.keep := rfl
@[simp] theorem State.setVault_vault (s : State) (x : Vault) : (s.setVault x).vault = x := rfl
@[simp] theorem State.setVault_acu (s : State) (x : Vault) : (s.setVault x).acu = s.acu := rfl
@[simp] theorem State.setVault_hif (s : State) (x : Vault) : (s.setVault x).hif = s.hif := rfl
@[simp] theorem State.setVault_reel (s : State) (x : Vault) : (s.setVault x).reel = s.reel := rfl
@[simp] theorem State.setVault_curves (s : State) (x : Vault) : (s.setVault x).curves = s.curves := rfl
@[simp] theorem State.setVault_towers (s : State) (x : Vault) : (s.setVault x).towers = s.towers := rfl
@[simp] theorem State.setVault_jobs (s : State) (x : Vault) : (s.setVault x).jobs = s.jobs := rfl
@[simp] theorem State.setVault_bind (s : State) (x : Vault) : (s.setVault x).bind = s.bind := rfl
@[simp] theorem State.setVault_host (s : State) (x : Vault) : (s.setVault x).host = s.host := rfl
@[simp] theorem State.setVault_smb (s : State) (x : Vault) : (s.setVault x).smb = s.smb := rfl
@[simp] theorem State.setVault_pending (s : State) (x : Vault) : (s.setVault x).pending = s.pending := rfl

/-! ## State.setLinesTbl -/

@[simp] theorem State.setLinesTbl_cycle (s : State) (l : Tbl KeepLine) : (s.setLinesTbl l).cycle = s.cycle := rfl
@[simp] theorem State.setLinesTbl_free (s : State) (l : Tbl KeepLine) : (s.setLinesTbl l).free = s.free := rfl
@[simp] theorem State.setLinesTbl_heads (s : State) (l : Tbl KeepLine) : (s.setLinesTbl l).heads = s.heads := rfl
@[simp] theorem State.setLinesTbl_dev (s : State) (l : Tbl KeepLine) : (s.setLinesTbl l).dev = s.dev := rfl
@[simp] theorem State.setLinesTbl_sup (s : State) (l : Tbl KeepLine) : (s.setLinesTbl l).sup = s.sup := rfl
@[simp] theorem State.setLinesTbl_pwr (s : State) (l : Tbl KeepLine) : (s.setLinesTbl l).pwr = s.pwr := rfl
@[simp] theorem State.setLinesTbl_fuse (s : State) (l : Tbl KeepLine) : (s.setLinesTbl l).fuse = s.fuse := rfl
@[simp] theorem State.setLinesTbl_lcs (s : State) (l : Tbl KeepLine) : (s.setLinesTbl l).lcs = s.lcs := rfl
@[simp] theorem State.setLinesTbl_cus (s : State) (l : Tbl KeepLine) : (s.setLinesTbl l).cus = s.cus := rfl
@[simp] theorem State.setLinesTbl_dome (s : State) (l : Tbl KeepLine) : (s.setLinesTbl l).dome = s.dome := rfl
@[simp] theorem State.setLinesTbl_rng (s : State) (l : Tbl KeepLine) : (s.setLinesTbl l).rng = s.rng := rfl
@[simp] theorem State.setLinesTbl_time (s : State) (l : Tbl KeepLine) : (s.setLinesTbl l).time = s.time := rfl
@[simp] theorem State.setLinesTbl_mtr (s : State) (l : Tbl KeepLine) : (s.setLinesTbl l).mtr = s.mtr := rfl
@[simp] theorem State.setLinesTbl_caller (s : State) (l : Tbl KeepLine) : (s.setLinesTbl l).caller = s.caller := rfl
@[simp] theorem State.setLinesTbl_keep (s : State) (l : Tbl KeepLine) :
    (s.setLinesTbl l).keep = { s.keep with lines := l } := rfl
@[simp] theorem State.setLinesTbl_vault (s : State) (l : Tbl KeepLine) : (s.setLinesTbl l).vault = s.vault := rfl
@[simp] theorem State.setLinesTbl_acu (s : State) (l : Tbl KeepLine) : (s.setLinesTbl l).acu = s.acu := rfl
@[simp] theorem State.setLinesTbl_hif (s : State) (l : Tbl KeepLine) : (s.setLinesTbl l).hif = s.hif := rfl
@[simp] theorem State.setLinesTbl_reel (s : State) (l : Tbl KeepLine) : (s.setLinesTbl l).reel = s.reel := rfl
@[simp] theorem State.setLinesTbl_curves (s : State) (l : Tbl KeepLine) : (s.setLinesTbl l).curves = s.curves := rfl
@[simp] theorem State.setLinesTbl_towers (s : State) (l : Tbl KeepLine) : (s.setLinesTbl l).towers = s.towers := rfl
@[simp] theorem State.setLinesTbl_jobs (s : State) (l : Tbl KeepLine) : (s.setLinesTbl l).jobs = s.jobs := rfl
@[simp] theorem State.setLinesTbl_bind (s : State) (l : Tbl KeepLine) : (s.setLinesTbl l).bind = s.bind := rfl
@[simp] theorem State.setLinesTbl_host (s : State) (l : Tbl KeepLine) : (s.setLinesTbl l).host = s.host := rfl
@[simp] theorem State.setLinesTbl_smb (s : State) (l : Tbl KeepLine) : (s.setLinesTbl l).smb = s.smb := rfl
@[simp] theorem State.setLinesTbl_pending (s : State) (l : Tbl KeepLine) : (s.setLinesTbl l).pending = s.pending := rfl

/-! ## putHost -/

@[simp] theorem putHost_cycle (s : State) (a : Nat) (b : Bytes) : (putHost s a b).cycle = s.cycle := rfl
@[simp] theorem putHost_free (s : State) (a : Nat) (b : Bytes) : (putHost s a b).free = s.free := rfl
@[simp] theorem putHost_heads (s : State) (a : Nat) (b : Bytes) : (putHost s a b).heads = s.heads := rfl
@[simp] theorem putHost_dev (s : State) (a : Nat) (b : Bytes) : (putHost s a b).dev = s.dev := rfl
@[simp] theorem putHost_sup (s : State) (a : Nat) (b : Bytes) : (putHost s a b).sup = s.sup := rfl
@[simp] theorem putHost_pwr (s : State) (a : Nat) (b : Bytes) : (putHost s a b).pwr = s.pwr := rfl
@[simp] theorem putHost_fuse (s : State) (a : Nat) (b : Bytes) : (putHost s a b).fuse = s.fuse := rfl
@[simp] theorem putHost_lcs (s : State) (a : Nat) (b : Bytes) : (putHost s a b).lcs = s.lcs := rfl
@[simp] theorem putHost_cus (s : State) (a : Nat) (b : Bytes) : (putHost s a b).cus = s.cus := rfl
@[simp] theorem putHost_dome (s : State) (a : Nat) (b : Bytes) : (putHost s a b).dome = s.dome := rfl
@[simp] theorem putHost_rng (s : State) (a : Nat) (b : Bytes) : (putHost s a b).rng = s.rng := rfl
@[simp] theorem putHost_time (s : State) (a : Nat) (b : Bytes) : (putHost s a b).time = s.time := rfl
@[simp] theorem putHost_mtr (s : State) (a : Nat) (b : Bytes) : (putHost s a b).mtr = s.mtr := rfl
@[simp] theorem putHost_caller (s : State) (a : Nat) (b : Bytes) : (putHost s a b).caller = s.caller := rfl
@[simp] theorem putHost_keep (s : State) (a : Nat) (b : Bytes) : (putHost s a b).keep = s.keep := rfl
@[simp] theorem putHost_vault (s : State) (a : Nat) (b : Bytes) : (putHost s a b).vault = s.vault := rfl
@[simp] theorem putHost_acu (s : State) (a : Nat) (b : Bytes) : (putHost s a b).acu = s.acu := rfl
@[simp] theorem putHost_hif (s : State) (a : Nat) (b : Bytes) : (putHost s a b).hif = s.hif := rfl
@[simp] theorem putHost_reel (s : State) (a : Nat) (b : Bytes) : (putHost s a b).reel = s.reel := rfl
@[simp] theorem putHost_curves (s : State) (a : Nat) (b : Bytes) : (putHost s a b).curves = s.curves := rfl
@[simp] theorem putHost_towers (s : State) (a : Nat) (b : Bytes) : (putHost s a b).towers = s.towers := rfl
@[simp] theorem putHost_jobs (s : State) (a : Nat) (b : Bytes) : (putHost s a b).jobs = s.jobs := rfl
@[simp] theorem putHost_bind (s : State) (a : Nat) (b : Bytes) : (putHost s a b).bind = s.bind := rfl
@[simp] theorem putHost_host (s : State) (a : Nat) (b : Bytes) :
    (putHost s a b).host = tblSetRun (0 : Byte) s.host a b := rfl
@[simp] theorem putHost_smb (s : State) (a : Nat) (b : Bytes) : (putHost s a b).smb = s.smb := rfl
@[simp] theorem putHost_pending (s : State) (a : Nat) (b : Bytes) : (putHost s a b).pending = s.pending := rfl

/-! ## alertCause -/

@[simp] theorem alertCause_cycle (s : State) (bit : Nat) : (alertCause s bit).cycle = s.cycle := rfl
@[simp] theorem alertCause_free (s : State) (bit : Nat) : (alertCause s bit).free = s.free := rfl
@[simp] theorem alertCause_heads (s : State) (bit : Nat) : (alertCause s bit).heads = s.heads := rfl
@[simp] theorem alertCause_dev (s : State) (bit : Nat) : (alertCause s bit).dev = s.dev := rfl
@[simp] theorem alertCause_sup (s : State) (bit : Nat) : (alertCause s bit).sup = s.sup := rfl
@[simp] theorem alertCause_pwr (s : State) (bit : Nat) : (alertCause s bit).pwr = s.pwr := rfl
@[simp] theorem alertCause_fuse (s : State) (bit : Nat) : (alertCause s bit).fuse = s.fuse := rfl
@[simp] theorem alertCause_lcs (s : State) (bit : Nat) : (alertCause s bit).lcs = s.lcs := rfl
@[simp] theorem alertCause_cus (s : State) (bit : Nat) : (alertCause s bit).cus = s.cus := rfl
@[simp] theorem alertCause_dome (s : State) (bit : Nat) : (alertCause s bit).dome = s.dome := rfl
@[simp] theorem alertCause_rng (s : State) (bit : Nat) : (alertCause s bit).rng = s.rng := rfl
@[simp] theorem alertCause_time (s : State) (bit : Nat) : (alertCause s bit).time = s.time := rfl
@[simp] theorem alertCause_mtr (s : State) (bit : Nat) : (alertCause s bit).mtr = s.mtr := rfl
@[simp] theorem alertCause_caller (s : State) (bit : Nat) : (alertCause s bit).caller = s.caller := rfl
@[simp] theorem alertCause_keep (s : State) (bit : Nat) : (alertCause s bit).keep = s.keep := rfl
@[simp] theorem alertCause_vault (s : State) (bit : Nat) : (alertCause s bit).vault = s.vault := rfl
@[simp] theorem alertCause_acu (s : State) (bit : Nat) : (alertCause s bit).acu = s.acu := rfl
@[simp] theorem alertCause_hif (s : State) (bit : Nat) : (alertCause s bit).hif = s.hif := rfl
@[simp] theorem alertCause_reel (s : State) (bit : Nat) : (alertCause s bit).reel = s.reel := rfl
@[simp] theorem alertCause_curves (s : State) (bit : Nat) : (alertCause s bit).curves = s.curves := rfl
@[simp] theorem alertCause_towers (s : State) (bit : Nat) : (alertCause s bit).towers = s.towers := rfl
@[simp] theorem alertCause_jobs (s : State) (bit : Nat) : (alertCause s bit).jobs = s.jobs := rfl
@[simp] theorem alertCause_bind (s : State) (bit : Nat) : (alertCause s bit).bind = s.bind := rfl
@[simp] theorem alertCause_host (s : State) (bit : Nat) : (alertCause s bit).host = s.host := rfl
@[simp] theorem alertCause_smb (s : State) (bit : Nat) :
    (alertCause s bit).smb = { s.smb with alert := s.smb.alert ||| BitVec.ofNat 6 (2 ^ bit) } := rfl
@[simp] theorem alertCause_pending (s : State) (bit : Nat) : (alertCause s bit).pending = s.pending := rfl

/-! ## A read of a part after a write of it -/

@[simp] theorem State.tower_setTower_other (s : State) (t u : Nat) (x : Tower) (h : u ≠ t) : (s.setTower t x).tower u = s.tower u := by
  simp [State.tower, List.getD_eq_getElem?_getD, Ne.symm h]

theorem State.tower_setTower_same (s : State) (t : Nat) (x : Tower) (h : t < s.towers.length) : (s.setTower t x).tower t = x := by
  simp [State.tower, List.getD_eq_getElem?_getD, h]

theorem State.ctx_setCtx_same (s : State) (t c : Nat) (x : Ctx) (h : t < s.towers.length) (hc : c < (s.tower t).ctxs.length) :
    (s.setCtx t c x).ctx t c = x := by
  rw [State.ctx, State.setCtx, State.tower_setTower_same _ _ _ h]
  simp [List.getD_eq_getElem?_getD, hc]

theorem State.ctx_setCtx_other (s : State) (t c u d : Nat) (x : Ctx) (h : ¬ (u = t ∧ d = c)) : (s.setCtx t c x).ctx u d = s.ctx u d := by
  by_cases hu : u = t
  · subst hu
    have hd : ¬ c = d := fun e => h ⟨rfl, e.symm⟩
    by_cases hl : u < s.towers.length
    · rw [State.ctx, State.setCtx, State.tower_setTower_same _ _ _ hl]
      simp [State.ctx, List.getD_eq_getElem?_getD, hd]
    · have e : s.towers.set u { s.tower u with ctxs := (s.tower u).ctxs.set c x } = s.towers := List.set_eq_of_length_le (by omega)
      simp only [State.ctx, State.tower, State.setCtx, State.setTower] at e ⊢
      rw [e]
  · rw [State.ctx, State.setCtx, State.tower_setTower_other _ _ _ _ hu, ← State.ctx]

@[simp] theorem State.head_setHead_same (s : State) (p : Nat) (h : Head) : (s.setHead p h).head p = h :=
  tblGet_set_same _ _ _ _

@[simp] theorem State.head_setHead_other (s : State) (p q : Nat) (h : Head) (ne : q ≠ p) : (s.setHead p h).head q = s.head q :=
  tblGet_set_other _ _ _ _ _ ne

@[simp] theorem State.tf_setTf_same (s : State) (n : Nat) (t : Tf) : (s.setTf n t).tf n = t :=
  tblGet_set_same _ _ _ _

@[simp] theorem State.tf_setTf_other (s : State) (n m : Nat) (t : Tf) (ne : m ≠ n) : (s.setTf n t).tf m = s.tf m :=
  tblGet_set_other _ _ _ _ _ ne

@[simp] theorem State.qp_setQp_same (s : State) (fn q : Nat) (x : Qp) : (s.setQp fn q x).qp fn q = x :=
  tblGet_set_same _ _ _ _

theorem State.qp_setQp_other (s : State) (fn q g r : Nat) (x : Qp) (ne : 16 * g + r ≠ 16 * fn + q) :
    (s.setQp fn q x).qp g r = s.qp g r := tblGet_set_other _ _ _ _ _ ne

/-! ## Host memory in canonical form -/

/-- A write of host memory keeps the canonical form. -/
theorem putHost_wf (s : State) (a : Nat) (b : Bytes) (h : Memory.wf s.host = true) : Memory.wf (putHost s a b).host = true :=
  tblWf_setRun _ _ _ _ h

/-- Host memory of the state after reset is in canonical form. -/
theorem reset_memory_wf : Memory.wf State.reset.host = true := rfl

end Sys2Proof.Machine
end

