-- ==== Sys2Proof/Laws/Ops.lean ====
section
/-! SUPPORT. Each shared operation, once: the parts of the state that it leaves as they are, and that host memory keeps its canonical
form and the violation log its bound. -/

namespace Sys2Proof.Machine

/-- What `State.setMsix` can change: hif. -/
@[simp] theorem State.setMsix_frame (s : State) (fn : Nat) (m : Msix) :
    (s.setMsix fn m).cycle = s.cycle ∧ (s.setMsix fn m).free = s.free ∧ (s.setMsix fn m).heads = s.heads ∧
    (s.setMsix fn m).dev = s.dev ∧ (s.setMsix fn m).sup = s.sup ∧ (s.setMsix fn m).pwr = s.pwr ∧
    (s.setMsix fn m).fuse = s.fuse ∧ (s.setMsix fn m).lcs = s.lcs ∧ (s.setMsix fn m).cus = s.cus ∧
    (s.setMsix fn m).dome = s.dome ∧ (s.setMsix fn m).rng = s.rng ∧ (s.setMsix fn m).time = s.time ∧
    (s.setMsix fn m).mtr = s.mtr ∧ (s.setMsix fn m).caller = s.caller ∧ (s.setMsix fn m).keep = s.keep ∧
    (s.setMsix fn m).vault = s.vault ∧ (s.setMsix fn m).acu = s.acu ∧ (s.setMsix fn m).reel = s.reel ∧
    (s.setMsix fn m).curves = s.curves ∧ (s.setMsix fn m).towers = s.towers ∧ (s.setMsix fn m).jobs = s.jobs ∧
    (s.setMsix fn m).bind = s.bind ∧ (s.setMsix fn m).host = s.host ∧ (s.setMsix fn m).smb = s.smb ∧
    (s.setMsix fn m).pending = s.pending := by
  unfold State.setMsix
  dsimp only
  (repeat' split) <;> simp

/-- What `signal` can change: hif. -/
@[simp] theorem signal_frame (s : State) (fn v : Nat) :
    (signal s fn v).cycle = s.cycle ∧ (signal s fn v).free = s.free ∧ (signal s fn v).heads = s.heads ∧
    (signal s fn v).dev = s.dev ∧ (signal s fn v).sup = s.sup ∧ (signal s fn v).pwr = s.pwr ∧ (signal s fn v).fuse = s.fuse ∧
    (signal s fn v).lcs = s.lcs ∧ (signal s fn v).cus = s.cus ∧ (signal s fn v).dome = s.dome ∧ (signal s fn v).rng = s.rng ∧
    (signal s fn v).time = s.time ∧ (signal s fn v).mtr = s.mtr ∧ (signal s fn v).caller = s.caller ∧
    (signal s fn v).keep = s.keep ∧ (signal s fn v).vault = s.vault ∧ (signal s fn v).acu = s.acu ∧
    (signal s fn v).reel = s.reel ∧ (signal s fn v).curves = s.curves ∧ (signal s fn v).towers = s.towers ∧
    (signal s fn v).jobs = s.jobs ∧ (signal s fn v).bind = s.bind ∧ (signal s fn v).host = s.host ∧
    (signal s fn v).smb = s.smb ∧ (signal s fn v).pending = s.pending := by
  unfold signal
  dsimp only
  (repeat' split) <;> simp

/-- What `putHead` can change: heads, hif. -/
@[simp] theorem putHead_frame (s : State) (p : Nat) (x : Head) :
    (putHead s p x).cycle = s.cycle ∧ (putHead s p x).free = s.free ∧ (putHead s p x).dev = s.dev ∧
    (putHead s p x).sup = s.sup ∧ (putHead s p x).pwr = s.pwr ∧ (putHead s p x).fuse = s.fuse ∧ (putHead s p x).lcs = s.lcs ∧
    (putHead s p x).cus = s.cus ∧ (putHead s p x).dome = s.dome ∧ (putHead s p x).rng = s.rng ∧ (putHead s p x).time = s.time ∧
    (putHead s p x).mtr = s.mtr ∧ (putHead s p x).caller = s.caller ∧ (putHead s p x).keep = s.keep ∧
    (putHead s p x).vault = s.vault ∧ (putHead s p x).acu = s.acu ∧ (putHead s p x).reel = s.reel ∧
    (putHead s p x).curves = s.curves ∧ (putHead s p x).towers = s.towers ∧ (putHead s p x).jobs = s.jobs ∧
    (putHead s p x).bind = s.bind ∧ (putHead s p x).host = s.host ∧ (putHead s p x).smb = s.smb ∧
    (putHead s p x).pending = s.pending := by
  unfold putHead
  dsimp only
  (repeat' split) <;> simp

/-- What `raise` can change: heads, hif. -/
@[simp] theorem raise_frame (s : State) (p bit : Nat) :
    (raise s p bit).cycle = s.cycle ∧ (raise s p bit).free = s.free ∧ (raise s p bit).dev = s.dev ∧
    (raise s p bit).sup = s.sup ∧ (raise s p bit).pwr = s.pwr ∧ (raise s p bit).fuse = s.fuse ∧ (raise s p bit).lcs = s.lcs ∧
    (raise s p bit).cus = s.cus ∧ (raise s p bit).dome = s.dome ∧ (raise s p bit).rng = s.rng ∧ (raise s p bit).time = s.time ∧
    (raise s p bit).mtr = s.mtr ∧ (raise s p bit).caller = s.caller ∧ (raise s p bit).keep = s.keep ∧
    (raise s p bit).vault = s.vault ∧ (raise s p bit).acu = s.acu ∧ (raise s p bit).reel = s.reel ∧
    (raise s p bit).curves = s.curves ∧ (raise s p bit).towers = s.towers ∧ (raise s p bit).jobs = s.jobs ∧
    (raise s p bit).bind = s.bind ∧ (raise s p bit).host = s.host ∧ (raise s p bit).smb = s.smb ∧
    (raise s p bit).pending = s.pending := by
  unfold raise
  dsimp only
  (repeat' split) <;> simp

/-- What `recordWerr` can change: heads, hif. -/
@[simp] theorem recordWerr_frame (s : State) (p : Nat) :
    (recordWerr s p).cycle = s.cycle ∧ (recordWerr s p).free = s.free ∧ (recordWerr s p).dev = s.dev ∧
    (recordWerr s p).sup = s.sup ∧ (recordWerr s p).pwr = s.pwr ∧ (recordWerr s p).fuse = s.fuse ∧
    (recordWerr s p).lcs = s.lcs ∧ (recordWerr s p).cus = s.cus ∧ (recordWerr s p).dome = s.dome ∧
    (recordWerr s p).rng = s.rng ∧ (recordWerr s p).time = s.time ∧ (recordWerr s p).mtr = s.mtr ∧
    (recordWerr s p).caller = s.caller ∧ (recordWerr s p).keep = s.keep ∧ (recordWerr s p).vault = s.vault ∧
    (recordWerr s p).acu = s.acu ∧ (recordWerr s p).reel = s.reel ∧ (recordWerr s p).curves = s.curves ∧
    (recordWerr s p).towers = s.towers ∧ (recordWerr s p).jobs = s.jobs ∧ (recordWerr s p).bind = s.bind ∧
    (recordWerr s p).host = s.host ∧ (recordWerr s p).smb = s.smb ∧ (recordWerr s p).pending = s.pending := by
  unfold recordWerr
  dsimp only
  (repeat' split) <;> simp

/-- What `recordTfWerr` can change: heads, hif. -/
@[simp] theorem recordTfWerr_frame (s : State) (n : Nat) :
    (recordTfWerr s n).cycle = s.cycle ∧ (recordTfWerr s n).free = s.free ∧ (recordTfWerr s n).dev = s.dev ∧
    (recordTfWerr s n).sup = s.sup ∧ (recordTfWerr s n).pwr = s.pwr ∧ (recordTfWerr s n).fuse = s.fuse ∧
    (recordTfWerr s n).lcs = s.lcs ∧ (recordTfWerr s n).cus = s.cus ∧ (recordTfWerr s n).dome = s.dome ∧
    (recordTfWerr s n).rng = s.rng ∧ (recordTfWerr s n).time = s.time ∧ (recordTfWerr s n).mtr = s.mtr ∧
    (recordTfWerr s n).caller = s.caller ∧ (recordTfWerr s n).keep = s.keep ∧ (recordTfWerr s n).vault = s.vault ∧
    (recordTfWerr s n).acu = s.acu ∧ (recordTfWerr s n).reel = s.reel ∧ (recordTfWerr s n).curves = s.curves ∧
    (recordTfWerr s n).towers = s.towers ∧ (recordTfWerr s n).jobs = s.jobs ∧ (recordTfWerr s n).bind = s.bind ∧
    (recordTfWerr s n).host = s.host ∧ (recordTfWerr s n).smb = s.smb ∧ (recordTfWerr s n).pending = s.pending := by
  unfold recordTfWerr
  dsimp only
  (repeat' split) <;> simp

/-- What `signalAll` can change: hif. -/
@[simp] theorem signalAll_frame (s : State) :
    (signalAll s).cycle = s.cycle ∧ (signalAll s).free = s.free ∧ (signalAll s).heads = s.heads ∧ (signalAll s).dev = s.dev ∧
    (signalAll s).sup = s.sup ∧ (signalAll s).pwr = s.pwr ∧ (signalAll s).fuse = s.fuse ∧ (signalAll s).lcs = s.lcs ∧
    (signalAll s).cus = s.cus ∧ (signalAll s).dome = s.dome ∧ (signalAll s).rng = s.rng ∧ (signalAll s).time = s.time ∧
    (signalAll s).mtr = s.mtr ∧ (signalAll s).caller = s.caller ∧ (signalAll s).keep = s.keep ∧ (signalAll s).vault = s.vault ∧
    (signalAll s).acu = s.acu ∧ (signalAll s).reel = s.reel ∧ (signalAll s).curves = s.curves ∧
    (signalAll s).towers = s.towers ∧ (signalAll s).jobs = s.jobs ∧ (signalAll s).bind = s.bind ∧ (signalAll s).host = s.host ∧
    (signalAll s).smb = s.smb ∧ (signalAll s).pending = s.pending := by
  unfold signalAll
  generalize tfList s = l
  induction l generalizing s with
  | nil => simp
  | cons n r ih => simpa using ih (signal s n 8)

/-- What `degradeCheck` can change: heads, hif, sup. -/
@[simp] theorem degradeCheck_frame (s : State) :
    (degradeCheck s).cycle = s.cycle ∧ (degradeCheck s).free = s.free ∧ (degradeCheck s).dev = s.dev ∧
    (degradeCheck s).pwr = s.pwr ∧ (degradeCheck s).fuse = s.fuse ∧ (degradeCheck s).lcs = s.lcs ∧
    (degradeCheck s).cus = s.cus ∧ (degradeCheck s).dome = s.dome ∧ (degradeCheck s).rng = s.rng ∧
    (degradeCheck s).time = s.time ∧ (degradeCheck s).mtr = s.mtr ∧ (degradeCheck s).caller = s.caller ∧
    (degradeCheck s).keep = s.keep ∧ (degradeCheck s).vault = s.vault ∧ (degradeCheck s).acu = s.acu ∧
    (degradeCheck s).reel = s.reel ∧ (degradeCheck s).curves = s.curves ∧ (degradeCheck s).towers = s.towers ∧
    (degradeCheck s).jobs = s.jobs ∧ (degradeCheck s).bind = s.bind ∧ (degradeCheck s).host = s.host ∧
    (degradeCheck s).smb = s.smb ∧ (degradeCheck s).pending = s.pending := by
  unfold degradeCheck
  dsimp only
  (repeat' split) <;> simp

/-- What `logViolation` can change: heads, hif, sup. -/
@[simp] theorem logViolation_frame (s : State) (i k : Nat) (w ho : Bool) (src a b : Nat) :
    (logViolation s i k w ho src a b).cycle = s.cycle ∧ (logViolation s i k w ho src a b).free = s.free ∧
    (logViolation s i k w ho src a b).dev = s.dev ∧ (logViolation s i k w ho src a b).pwr = s.pwr ∧
    (logViolation s i k w ho src a b).fuse = s.fuse ∧ (logViolation s i k w ho src a b).lcs = s.lcs ∧
    (logViolation s i k w ho src a b).cus = s.cus ∧ (logViolation s i k w ho src a b).dome = s.dome ∧
    (logViolation s i k w ho src a b).rng = s.rng ∧ (logViolation s i k w ho src a b).time = s.time ∧
    (logViolation s i k w ho src a b).mtr = s.mtr ∧ (logViolation s i k w ho src a b).caller = s.caller ∧
    (logViolation s i k w ho src a b).keep = s.keep ∧ (logViolation s i k w ho src a b).vault = s.vault ∧
    (logViolation s i k w ho src a b).acu = s.acu ∧ (logViolation s i k w ho src a b).reel = s.reel ∧
    (logViolation s i k w ho src a b).curves = s.curves ∧ (logViolation s i k w ho src a b).towers = s.towers ∧
    (logViolation s i k w ho src a b).jobs = s.jobs ∧ (logViolation s i k w ho src a b).bind = s.bind ∧
    (logViolation s i k w ho src a b).host = s.host ∧ (logViolation s i k w ho src a b).smb = s.smb ∧
    (logViolation s i k w ho src a b).pending = s.pending := by
  unfold logViolation
  dsimp only
  (repeat' split) <;> simp

/-- What `withdrawTf` can change: hif. -/
@[simp] theorem withdrawTf_frame (s : State) (n : Nat) :
    (withdrawTf s n).cycle = s.cycle ∧ (withdrawTf s n).free = s.free ∧ (withdrawTf s n).heads = s.heads ∧
    (withdrawTf s n).dev = s.dev ∧ (withdrawTf s n).sup = s.sup ∧ (withdrawTf s n).pwr = s.pwr ∧
    (withdrawTf s n).fuse = s.fuse ∧ (withdrawTf s n).lcs = s.lcs ∧ (withdrawTf s n).cus = s.cus ∧
    (withdrawTf s n).dome = s.dome ∧ (withdrawTf s n).rng = s.rng ∧ (withdrawTf s n).time = s.time ∧
    (withdrawTf s n).mtr = s.mtr ∧ (withdrawTf s n).caller = s.caller ∧ (withdrawTf s n).keep = s.keep ∧
    (withdrawTf s n).vault = s.vault ∧ (withdrawTf s n).acu = s.acu ∧ (withdrawTf s n).reel = s.reel ∧
    (withdrawTf s n).curves = s.curves ∧ (withdrawTf s n).towers = s.towers ∧ (withdrawTf s n).jobs = s.jobs ∧
    (withdrawTf s n).bind = s.bind ∧ (withdrawTf s n).host = s.host ∧ (withdrawTf s n).smb = s.smb ∧
    (withdrawTf s n).pending = s.pending := by
  unfold withdrawTf
  generalize List.range 8 = l
  induction l generalizing s with
  | nil => simp
  | cons q r ih => simp [ih]

/-- What `freezeTf` can change: hif. -/
@[simp] theorem freezeTf_frame (s : State) (n : Nat) :
    (freezeTf s n).cycle = s.cycle ∧ (freezeTf s n).free = s.free ∧ (freezeTf s n).heads = s.heads ∧
    (freezeTf s n).dev = s.dev ∧ (freezeTf s n).sup = s.sup ∧ (freezeTf s n).pwr = s.pwr ∧ (freezeTf s n).fuse = s.fuse ∧
    (freezeTf s n).lcs = s.lcs ∧ (freezeTf s n).cus = s.cus ∧ (freezeTf s n).dome = s.dome ∧ (freezeTf s n).rng = s.rng ∧
    (freezeTf s n).time = s.time ∧ (freezeTf s n).mtr = s.mtr ∧ (freezeTf s n).caller = s.caller ∧
    (freezeTf s n).keep = s.keep ∧ (freezeTf s n).vault = s.vault ∧ (freezeTf s n).acu = s.acu ∧ (freezeTf s n).reel = s.reel ∧
    (freezeTf s n).curves = s.curves ∧ (freezeTf s n).towers = s.towers ∧ (freezeTf s n).jobs = s.jobs ∧
    (freezeTf s n).bind = s.bind ∧ (freezeTf s n).host = s.host ∧ (freezeTf s n).smb = s.smb ∧
    (freezeTf s n).pending = s.pending := by
  simp [freezeTf]

/-- What `hostViolation` can change: heads, hif, sup. -/
@[simp] theorem hostViolation_frame (s : State) (fn k : Nat) (w : Bool) (a : Nat) :
    (hostViolation s fn k w a).cycle = s.cycle ∧ (hostViolation s fn k w a).free = s.free ∧
    (hostViolation s fn k w a).dev = s.dev ∧ (hostViolation s fn k w a).pwr = s.pwr ∧
    (hostViolation s fn k w a).fuse = s.fuse ∧ (hostViolation s fn k w a).lcs = s.lcs ∧
    (hostViolation s fn k w a).cus = s.cus ∧ (hostViolation s fn k w a).dome = s.dome ∧
    (hostViolation s fn k w a).rng = s.rng ∧ (hostViolation s fn k w a).time = s.time ∧
    (hostViolation s fn k w a).mtr = s.mtr ∧ (hostViolation s fn k w a).caller = s.caller ∧
    (hostViolation s fn k w a).keep = s.keep ∧ (hostViolation s fn k w a).vault = s.vault ∧
    (hostViolation s fn k w a).acu = s.acu ∧ (hostViolation s fn k w a).reel = s.reel ∧
    (hostViolation s fn k w a).curves = s.curves ∧ (hostViolation s fn k w a).towers = s.towers ∧
    (hostViolation s fn k w a).jobs = s.jobs ∧ (hostViolation s fn k w a).bind = s.bind ∧
    (hostViolation s fn k w a).host = s.host ∧ (hostViolation s fn k w a).smb = s.smb ∧
    (hostViolation s fn k w a).pending = s.pending := by
  unfold hostViolation
  dsimp only
  (repeat' split) <;> simp

/-- What `hostCheck` can change: heads, hif, sup. -/
@[simp] theorem hostCheck_frame (s : State) (fn : Nat) (w : Bool) (a : Nat) :
    ((hostCheck s fn w a).1).cycle = s.cycle ∧ ((hostCheck s fn w a).1).free = s.free ∧ ((hostCheck s fn w a).1).dev = s.dev ∧
    ((hostCheck s fn w a).1).pwr = s.pwr ∧ ((hostCheck s fn w a).1).fuse = s.fuse ∧ ((hostCheck s fn w a).1).lcs = s.lcs ∧
    ((hostCheck s fn w a).1).cus = s.cus ∧ ((hostCheck s fn w a).1).dome = s.dome ∧ ((hostCheck s fn w a).1).rng = s.rng ∧
    ((hostCheck s fn w a).1).time = s.time ∧ ((hostCheck s fn w a).1).mtr = s.mtr ∧
    ((hostCheck s fn w a).1).caller = s.caller ∧ ((hostCheck s fn w a).1).keep = s.keep ∧
    ((hostCheck s fn w a).1).vault = s.vault ∧ ((hostCheck s fn w a).1).acu = s.acu ∧ ((hostCheck s fn w a).1).reel = s.reel ∧
    ((hostCheck s fn w a).1).curves = s.curves ∧ ((hostCheck s fn w a).1).towers = s.towers ∧
    ((hostCheck s fn w a).1).jobs = s.jobs ∧ ((hostCheck s fn w a).1).bind = s.bind ∧ ((hostCheck s fn w a).1).host = s.host ∧
    ((hostCheck s fn w a).1).smb = s.smb ∧ ((hostCheck s fn w a).1).pending = s.pending := by
  unfold hostCheck
  split <;> simp

/-- What `intCheck` can change: heads, hif, sup. -/
@[simp] theorem intCheck_frame (s : State) (i : Nat) (w : Bool) (src a : Nat) :
    ((intCheck s i w src a).1).cycle = s.cycle ∧ ((intCheck s i w src a).1).free = s.free ∧
    ((intCheck s i w src a).1).dev = s.dev ∧ ((intCheck s i w src a).1).pwr = s.pwr ∧
    ((intCheck s i w src a).1).fuse = s.fuse ∧ ((intCheck s i w src a).1).lcs = s.lcs ∧
    ((intCheck s i w src a).1).cus = s.cus ∧ ((intCheck s i w src a).1).dome = s.dome ∧
    ((intCheck s i w src a).1).rng = s.rng ∧ ((intCheck s i w src a).1).time = s.time ∧
    ((intCheck s i w src a).1).mtr = s.mtr ∧ ((intCheck s i w src a).1).caller = s.caller ∧
    ((intCheck s i w src a).1).keep = s.keep ∧ ((intCheck s i w src a).1).vault = s.vault ∧
    ((intCheck s i w src a).1).acu = s.acu ∧ ((intCheck s i w src a).1).reel = s.reel ∧
    ((intCheck s i w src a).1).curves = s.curves ∧ ((intCheck s i w src a).1).towers = s.towers ∧
    ((intCheck s i w src a).1).jobs = s.jobs ∧ ((intCheck s i w src a).1).bind = s.bind ∧
    ((intCheck s i w src a).1).host = s.host ∧ ((intCheck s i w src a).1).smb = s.smb ∧
    ((intCheck s i w src a).1).pending = s.pending := by
  unfold intCheck
  split <;> simp

/-- What `markDirty` can change: hif. -/
@[simp] theorem markDirty_frame (s : State) (fn a : Nat) :
    (markDirty s fn a).cycle = s.cycle ∧ (markDirty s fn a).free = s.free ∧ (markDirty s fn a).heads = s.heads ∧
    (markDirty s fn a).dev = s.dev ∧ (markDirty s fn a).sup = s.sup ∧ (markDirty s fn a).pwr = s.pwr ∧
    (markDirty s fn a).fuse = s.fuse ∧ (markDirty s fn a).lcs = s.lcs ∧ (markDirty s fn a).cus = s.cus ∧
    (markDirty s fn a).dome = s.dome ∧ (markDirty s fn a).rng = s.rng ∧ (markDirty s fn a).time = s.time ∧
    (markDirty s fn a).mtr = s.mtr ∧ (markDirty s fn a).caller = s.caller ∧ (markDirty s fn a).keep = s.keep ∧
    (markDirty s fn a).vault = s.vault ∧ (markDirty s fn a).acu = s.acu ∧ (markDirty s fn a).reel = s.reel ∧
    (markDirty s fn a).curves = s.curves ∧ (markDirty s fn a).towers = s.towers ∧ (markDirty s fn a).jobs = s.jobs ∧
    (markDirty s fn a).bind = s.bind ∧ (markDirty s fn a).host = s.host ∧ (markDirty s fn a).smb = s.smb ∧
    (markDirty s fn a).pending = s.pending := by
  unfold markDirty
  dsimp only
  (repeat' split) <;> simp

/-- What `writePieces` can change: heads, hif, sup, host. -/
@[simp] theorem writePieces_frame (fn : Nat) (l : List (Nat × Nat)) (b : Bytes) (s : State) :
    ((writePieces fn s l b).1).cycle = s.cycle ∧ ((writePieces fn s l b).1).free = s.free ∧
    ((writePieces fn s l b).1).dev = s.dev ∧ ((writePieces fn s l b).1).pwr = s.pwr ∧
    ((writePieces fn s l b).1).fuse = s.fuse ∧ ((writePieces fn s l b).1).lcs = s.lcs ∧
    ((writePieces fn s l b).1).cus = s.cus ∧ ((writePieces fn s l b).1).dome = s.dome ∧
    ((writePieces fn s l b).1).rng = s.rng ∧ ((writePieces fn s l b).1).time = s.time ∧
    ((writePieces fn s l b).1).mtr = s.mtr ∧ ((writePieces fn s l b).1).caller = s.caller ∧
    ((writePieces fn s l b).1).keep = s.keep ∧ ((writePieces fn s l b).1).vault = s.vault ∧
    ((writePieces fn s l b).1).acu = s.acu ∧ ((writePieces fn s l b).1).reel = s.reel ∧
    ((writePieces fn s l b).1).curves = s.curves ∧ ((writePieces fn s l b).1).towers = s.towers ∧
    ((writePieces fn s l b).1).jobs = s.jobs ∧ ((writePieces fn s l b).1).bind = s.bind ∧
    ((writePieces fn s l b).1).smb = s.smb ∧ ((writePieces fn s l b).1).pending = s.pending := by
  induction l generalizing s b with
  | nil => simp [writePieces]
  | cons x r ih =>
    simp only [writePieces]
    split <;> simp [ih]

/-- What `hostWrite` can change: heads, hif, sup, host. -/
@[simp] theorem hostWrite_frame (s : State) (fn a : Nat) (b : Bytes) :
    ((hostWrite s fn a b).1).cycle = s.cycle ∧ ((hostWrite s fn a b).1).free = s.free ∧ ((hostWrite s fn a b).1).dev = s.dev ∧
    ((hostWrite s fn a b).1).pwr = s.pwr ∧ ((hostWrite s fn a b).1).fuse = s.fuse ∧ ((hostWrite s fn a b).1).lcs = s.lcs ∧
    ((hostWrite s fn a b).1).cus = s.cus ∧ ((hostWrite s fn a b).1).dome = s.dome ∧ ((hostWrite s fn a b).1).rng = s.rng ∧
    ((hostWrite s fn a b).1).time = s.time ∧ ((hostWrite s fn a b).1).mtr = s.mtr ∧
    ((hostWrite s fn a b).1).caller = s.caller ∧ ((hostWrite s fn a b).1).keep = s.keep ∧
    ((hostWrite s fn a b).1).vault = s.vault ∧ ((hostWrite s fn a b).1).acu = s.acu ∧ ((hostWrite s fn a b).1).reel = s.reel ∧
    ((hostWrite s fn a b).1).curves = s.curves ∧ ((hostWrite s fn a b).1).towers = s.towers ∧
    ((hostWrite s fn a b).1).jobs = s.jobs ∧ ((hostWrite s fn a b).1).bind = s.bind ∧ ((hostWrite s fn a b).1).smb = s.smb ∧
    ((hostWrite s fn a b).1).pending = s.pending := by
  unfold hostWrite
  split <;> simp

/-- What `writeSlices` can change: heads, hif, sup, host. -/
@[simp] theorem writeSlices_frame (fn : Nat) (l : List (Nat × Nat)) (b : Bytes) (s : State) :
    ((writeSlices fn s l b).1).cycle = s.cycle ∧ ((writeSlices fn s l b).1).free = s.free ∧
    ((writeSlices fn s l b).1).dev = s.dev ∧ ((writeSlices fn s l b).1).pwr = s.pwr ∧
    ((writeSlices fn s l b).1).fuse = s.fuse ∧ ((writeSlices fn s l b).1).lcs = s.lcs ∧
    ((writeSlices fn s l b).1).cus = s.cus ∧ ((writeSlices fn s l b).1).dome = s.dome ∧
    ((writeSlices fn s l b).1).rng = s.rng ∧ ((writeSlices fn s l b).1).time = s.time ∧
    ((writeSlices fn s l b).1).mtr = s.mtr ∧ ((writeSlices fn s l b).1).caller = s.caller ∧
    ((writeSlices fn s l b).1).keep = s.keep ∧ ((writeSlices fn s l b).1).vault = s.vault ∧
    ((writeSlices fn s l b).1).acu = s.acu ∧ ((writeSlices fn s l b).1).reel = s.reel ∧
    ((writeSlices fn s l b).1).curves = s.curves ∧ ((writeSlices fn s l b).1).towers = s.towers ∧
    ((writeSlices fn s l b).1).jobs = s.jobs ∧ ((writeSlices fn s l b).1).bind = s.bind ∧
    ((writeSlices fn s l b).1).smb = s.smb ∧ ((writeSlices fn s l b).1).pending = s.pending := by
  induction l generalizing s b with
  | nil => simp [writeSlices]
  | cons x r ih =>
    simp only [writeSlices]
    split <;> simp [ih]

/-- What `zeroPiece` can change: heads, hif, sup, host. -/
@[simp] theorem zeroPiece_frame (s : State) (fn : Nat) (p : Nat × Nat) :
    (zeroPiece fn s p).cycle = s.cycle ∧ (zeroPiece fn s p).free = s.free ∧ (zeroPiece fn s p).dev = s.dev ∧
    (zeroPiece fn s p).pwr = s.pwr ∧ (zeroPiece fn s p).fuse = s.fuse ∧ (zeroPiece fn s p).lcs = s.lcs ∧
    (zeroPiece fn s p).cus = s.cus ∧ (zeroPiece fn s p).dome = s.dome ∧ (zeroPiece fn s p).rng = s.rng ∧
    (zeroPiece fn s p).time = s.time ∧ (zeroPiece fn s p).mtr = s.mtr ∧ (zeroPiece fn s p).caller = s.caller ∧
    (zeroPiece fn s p).keep = s.keep ∧ (zeroPiece fn s p).vault = s.vault ∧ (zeroPiece fn s p).acu = s.acu ∧
    (zeroPiece fn s p).reel = s.reel ∧ (zeroPiece fn s p).curves = s.curves ∧ (zeroPiece fn s p).towers = s.towers ∧
    (zeroPiece fn s p).jobs = s.jobs ∧ (zeroPiece fn s p).bind = s.bind ∧ (zeroPiece fn s p).smb = s.smb ∧
    (zeroPiece fn s p).pending = s.pending := by
  unfold zeroPiece
  dsimp only
  (repeat' split) <;> simp

/-- What `zeroOutput` can change: heads, hif, sup, host. -/
@[simp] theorem zeroOutput_frame (s : State) (fn : Nat) (w : Work) :
    (zeroOutput s fn w).cycle = s.cycle ∧ (zeroOutput s fn w).free = s.free ∧ (zeroOutput s fn w).dev = s.dev ∧
    (zeroOutput s fn w).pwr = s.pwr ∧ (zeroOutput s fn w).fuse = s.fuse ∧ (zeroOutput s fn w).lcs = s.lcs ∧
    (zeroOutput s fn w).cus = s.cus ∧ (zeroOutput s fn w).dome = s.dome ∧ (zeroOutput s fn w).rng = s.rng ∧
    (zeroOutput s fn w).time = s.time ∧ (zeroOutput s fn w).mtr = s.mtr ∧ (zeroOutput s fn w).caller = s.caller ∧
    (zeroOutput s fn w).keep = s.keep ∧ (zeroOutput s fn w).vault = s.vault ∧ (zeroOutput s fn w).acu = s.acu ∧
    (zeroOutput s fn w).reel = s.reel ∧ (zeroOutput s fn w).curves = s.curves ∧ (zeroOutput s fn w).towers = s.towers ∧
    (zeroOutput s fn w).jobs = s.jobs ∧ (zeroOutput s fn w).bind = s.bind ∧ (zeroOutput s fn w).smb = s.smb ∧
    (zeroOutput s fn w).pending = s.pending := by
  unfold zeroOutput
  generalize List.flatMap _ _ = l
  induction l generalizing s with
  | nil => simp
  | cons x r ih => simp [ih]

/-- What `qpError` can change: heads, hif. -/
@[simp] theorem qpError_frame (s : State) (fn q cause : Nat) :
    (qpError s fn q cause).cycle = s.cycle ∧ (qpError s fn q cause).free = s.free ∧ (qpError s fn q cause).dev = s.dev ∧
    (qpError s fn q cause).sup = s.sup ∧ (qpError s fn q cause).pwr = s.pwr ∧ (qpError s fn q cause).fuse = s.fuse ∧
    (qpError s fn q cause).lcs = s.lcs ∧ (qpError s fn q cause).cus = s.cus ∧ (qpError s fn q cause).dome = s.dome ∧
    (qpError s fn q cause).rng = s.rng ∧ (qpError s fn q cause).time = s.time ∧ (qpError s fn q cause).mtr = s.mtr ∧
    (qpError s fn q cause).caller = s.caller ∧ (qpError s fn q cause).keep = s.keep ∧ (qpError s fn q cause).vault = s.vault ∧
    (qpError s fn q cause).acu = s.acu ∧ (qpError s fn q cause).reel = s.reel ∧ (qpError s fn q cause).curves = s.curves ∧
    (qpError s fn q cause).towers = s.towers ∧ (qpError s fn q cause).jobs = s.jobs ∧ (qpError s fn q cause).bind = s.bind ∧
    (qpError s fn q cause).host = s.host ∧ (qpError s fn q cause).smb = s.smb ∧ (qpError s fn q cause).pending = s.pending := by
  unfold qpError
  dsimp only
  (repeat' split) <;> simp

/-- What `callDone` can change: hif. -/
@[simp] theorem callDone_frame (s : State) (k : Call) :
    (callDone s k).cycle = s.cycle ∧ (callDone s k).free = s.free ∧ (callDone s k).heads = s.heads ∧
    (callDone s k).dev = s.dev ∧ (callDone s k).sup = s.sup ∧ (callDone s k).pwr = s.pwr ∧ (callDone s k).fuse = s.fuse ∧
    (callDone s k).lcs = s.lcs ∧ (callDone s k).cus = s.cus ∧ (callDone s k).dome = s.dome ∧ (callDone s k).rng = s.rng ∧
    (callDone s k).time = s.time ∧ (callDone s k).mtr = s.mtr ∧ (callDone s k).caller = s.caller ∧
    (callDone s k).keep = s.keep ∧ (callDone s k).vault = s.vault ∧ (callDone s k).acu = s.acu ∧ (callDone s k).reel = s.reel ∧
    (callDone s k).curves = s.curves ∧ (callDone s k).towers = s.towers ∧ (callDone s k).jobs = s.jobs ∧
    (callDone s k).bind = s.bind ∧ (callDone s k).host = s.host ∧ (callDone s k).smb = s.smb ∧
    (callDone s k).pending = s.pending := by
  simp [callDone]

/-- What `queueReset` can change: hif, jobs. -/
@[simp] theorem queueReset_frame (s : State) (fn q : Nat) :
    (queueReset s fn q).cycle = s.cycle ∧ (queueReset s fn q).free = s.free ∧ (queueReset s fn q).heads = s.heads ∧
    (queueReset s fn q).dev = s.dev ∧ (queueReset s fn q).sup = s.sup ∧ (queueReset s fn q).pwr = s.pwr ∧
    (queueReset s fn q).fuse = s.fuse ∧ (queueReset s fn q).lcs = s.lcs ∧ (queueReset s fn q).cus = s.cus ∧
    (queueReset s fn q).dome = s.dome ∧ (queueReset s fn q).rng = s.rng ∧ (queueReset s fn q).time = s.time ∧
    (queueReset s fn q).mtr = s.mtr ∧ (queueReset s fn q).caller = s.caller ∧ (queueReset s fn q).keep = s.keep ∧
    (queueReset s fn q).vault = s.vault ∧ (queueReset s fn q).acu = s.acu ∧ (queueReset s fn q).reel = s.reel ∧
    (queueReset s fn q).curves = s.curves ∧ (queueReset s fn q).towers = s.towers ∧ (queueReset s fn q).bind = s.bind ∧
    (queueReset s fn q).host = s.host ∧ (queueReset s fn q).smb = s.smb ∧ (queueReset s fn q).pending = s.pending := by
  simp [queueReset]

/-- What `qpEnable` can change: hif. -/
@[simp] theorem qpEnable_frame (s : State) (fn q : Nat) :
    (qpEnable s fn q).cycle = s.cycle ∧ (qpEnable s fn q).free = s.free ∧ (qpEnable s fn q).heads = s.heads ∧
    (qpEnable s fn q).dev = s.dev ∧ (qpEnable s fn q).sup = s.sup ∧ (qpEnable s fn q).pwr = s.pwr ∧
    (qpEnable s fn q).fuse = s.fuse ∧ (qpEnable s fn q).lcs = s.lcs ∧ (qpEnable s fn q).cus = s.cus ∧
    (qpEnable s fn q).dome = s.dome ∧ (qpEnable s fn q).rng = s.rng ∧ (qpEnable s fn q).time = s.time ∧
    (qpEnable s fn q).mtr = s.mtr ∧ (qpEnable s fn q).caller = s.caller ∧ (qpEnable s fn q).keep = s.keep ∧
    (qpEnable s fn q).vault = s.vault ∧ (qpEnable s fn q).acu = s.acu ∧ (qpEnable s fn q).reel = s.reel ∧
    (qpEnable s fn q).curves = s.curves ∧ (qpEnable s fn q).towers = s.towers ∧ (qpEnable s fn q).jobs = s.jobs ∧
    (qpEnable s fn q).bind = s.bind ∧ (qpEnable s fn q).host = s.host ∧ (qpEnable s fn q).smb = s.smb ∧
    (qpEnable s fn q).pending = s.pending := by
  simp [qpEnable]

/-- What `doReset` can change: hif, jobs. -/
@[simp] theorem doReset_frame (s : State) (fn q : Nat) (en cfg : Bool) :
    (doReset s fn q en cfg).cycle = s.cycle ∧ (doReset s fn q en cfg).free = s.free ∧ (doReset s fn q en cfg).heads = s.heads ∧
    (doReset s fn q en cfg).dev = s.dev ∧ (doReset s fn q en cfg).sup = s.sup ∧ (doReset s fn q en cfg).pwr = s.pwr ∧
    (doReset s fn q en cfg).fuse = s.fuse ∧ (doReset s fn q en cfg).lcs = s.lcs ∧ (doReset s fn q en cfg).cus = s.cus ∧
    (doReset s fn q en cfg).dome = s.dome ∧ (doReset s fn q en cfg).rng = s.rng ∧ (doReset s fn q en cfg).time = s.time ∧
    (doReset s fn q en cfg).mtr = s.mtr ∧ (doReset s fn q en cfg).caller = s.caller ∧ (doReset s fn q en cfg).keep = s.keep ∧
    (doReset s fn q en cfg).vault = s.vault ∧ (doReset s fn q en cfg).acu = s.acu ∧ (doReset s fn q en cfg).reel = s.reel ∧
    (doReset s fn q en cfg).curves = s.curves ∧ (doReset s fn q en cfg).towers = s.towers ∧
    (doReset s fn q en cfg).bind = s.bind ∧ (doReset s fn q en cfg).host = s.host ∧ (doReset s fn q en cfg).smb = s.smb ∧
    (doReset s fn q en cfg).pending = s.pending := by
  unfold doReset
  dsimp only
  (repeat' split) <;> simp

/-- What `askReset` can change: hif, jobs. -/
@[simp] theorem askReset_frame (s : State) (fn q : Nat) (en cfg : Bool) :
    (askReset s fn q en cfg).cycle = s.cycle ∧ (askReset s fn q en cfg).free = s.free ∧
    (askReset s fn q en cfg).heads = s.heads ∧ (askReset s fn q en cfg).dev = s.dev ∧ (askReset s fn q en cfg).sup = s.sup ∧
    (askReset s fn q en cfg).pwr = s.pwr ∧ (askReset s fn q en cfg).fuse = s.fuse ∧ (askReset s fn q en cfg).lcs = s.lcs ∧
    (askReset s fn q en cfg).cus = s.cus ∧ (askReset s fn q en cfg).dome = s.dome ∧ (askReset s fn q en cfg).rng = s.rng ∧
    (askReset s fn q en cfg).time = s.time ∧ (askReset s fn q en cfg).mtr = s.mtr ∧
    (askReset s fn q en cfg).caller = s.caller ∧ (askReset s fn q en cfg).keep = s.keep ∧
    (askReset s fn q en cfg).vault = s.vault ∧ (askReset s fn q en cfg).acu = s.acu ∧ (askReset s fn q en cfg).reel = s.reel ∧
    (askReset s fn q en cfg).curves = s.curves ∧ (askReset s fn q en cfg).towers = s.towers ∧
    (askReset s fn q en cfg).bind = s.bind ∧ (askReset s fn q en cfg).host = s.host ∧ (askReset s fn q en cfg).smb = s.smb ∧
    (askReset s fn q en cfg).pending = s.pending := by
  unfold askReset
  dsimp only
  (repeat' split) <;> simp

/-- What `freeUnits` can change: towers. -/
@[simp] theorem freeUnits_frame (s : State) (t c : Nat) :
    (freeUnits s t c).cycle = s.cycle ∧ (freeUnits s t c).free = s.free ∧ (freeUnits s t c).heads = s.heads ∧
    (freeUnits s t c).dev = s.dev ∧ (freeUnits s t c).sup = s.sup ∧ (freeUnits s t c).pwr = s.pwr ∧
    (freeUnits s t c).fuse = s.fuse ∧ (freeUnits s t c).lcs = s.lcs ∧ (freeUnits s t c).cus = s.cus ∧
    (freeUnits s t c).dome = s.dome ∧ (freeUnits s t c).rng = s.rng ∧ (freeUnits s t c).time = s.time ∧
    (freeUnits s t c).mtr = s.mtr ∧ (freeUnits s t c).caller = s.caller ∧ (freeUnits s t c).keep = s.keep ∧
    (freeUnits s t c).vault = s.vault ∧ (freeUnits s t c).acu = s.acu ∧ (freeUnits s t c).hif = s.hif ∧
    (freeUnits s t c).reel = s.reel ∧ (freeUnits s t c).curves = s.curves ∧ (freeUnits s t c).jobs = s.jobs ∧
    (freeUnits s t c).bind = s.bind ∧ (freeUnits s t c).host = s.host ∧ (freeUnits s t c).smb = s.smb ∧
    (freeUnits s t c).pending = s.pending := by
  simp [freeUnits]

/-- What `setActive` can change: cus. -/
@[simp] theorem setActive_frame (s : State) (p : Nat) (on : Bool) :
    (setActive s p on).cycle = s.cycle ∧ (setActive s p on).free = s.free ∧ (setActive s p on).heads = s.heads ∧
    (setActive s p on).dev = s.dev ∧ (setActive s p on).sup = s.sup ∧ (setActive s p on).pwr = s.pwr ∧
    (setActive s p on).fuse = s.fuse ∧ (setActive s p on).lcs = s.lcs ∧ (setActive s p on).dome = s.dome ∧
    (setActive s p on).rng = s.rng ∧ (setActive s p on).time = s.time ∧ (setActive s p on).mtr = s.mtr ∧
    (setActive s p on).caller = s.caller ∧ (setActive s p on).keep = s.keep ∧ (setActive s p on).vault = s.vault ∧
    (setActive s p on).acu = s.acu ∧ (setActive s p on).hif = s.hif ∧ (setActive s p on).reel = s.reel ∧
    (setActive s p on).curves = s.curves ∧ (setActive s p on).towers = s.towers ∧ (setActive s p on).jobs = s.jobs ∧
    (setActive s p on).bind = s.bind ∧ (setActive s p on).host = s.host ∧ (setActive s p on).smb = s.smb ∧
    (setActive s p on).pending = s.pending := by
  by_cases h : (!on && !(if p = 1 then s.cus.active.1 else s.cus.active.2)) = true
  · simp only [setActive, if_pos h, and_self]
  · simp only [setActive, if_neg h, State.setCus, and_self]

/-- What `leaveCard` can change: cus. -/
@[simp] theorem leaveCard_frame (s : State) (t c : Nat) :
    (leaveCard s t c).cycle = s.cycle ∧ (leaveCard s t c).free = s.free ∧ (leaveCard s t c).heads = s.heads ∧
    (leaveCard s t c).dev = s.dev ∧ (leaveCard s t c).sup = s.sup ∧ (leaveCard s t c).pwr = s.pwr ∧
    (leaveCard s t c).fuse = s.fuse ∧ (leaveCard s t c).lcs = s.lcs ∧ (leaveCard s t c).dome = s.dome ∧
    (leaveCard s t c).rng = s.rng ∧ (leaveCard s t c).time = s.time ∧ (leaveCard s t c).mtr = s.mtr ∧
    (leaveCard s t c).caller = s.caller ∧ (leaveCard s t c).keep = s.keep ∧ (leaveCard s t c).vault = s.vault ∧
    (leaveCard s t c).acu = s.acu ∧ (leaveCard s t c).hif = s.hif ∧ (leaveCard s t c).reel = s.reel ∧
    (leaveCard s t c).curves = s.curves ∧ (leaveCard s t c).towers = s.towers ∧ (leaveCard s t c).jobs = s.jobs ∧
    (leaveCard s t c).bind = s.bind ∧ (leaveCard s t c).host = s.host ∧ (leaveCard s t c).smb = s.smb ∧
    (leaveCard s t c).pending = s.pending := by
  unfold leaveCard
  split <;> simp

/-- What `askOut` can change: hif. -/
@[simp] theorem askOut_frame (s : State) (t c n : Nat) :
    (askOut s t c n).cycle = s.cycle ∧ (askOut s t c n).free = s.free ∧ (askOut s t c n).heads = s.heads ∧
    (askOut s t c n).dev = s.dev ∧ (askOut s t c n).sup = s.sup ∧ (askOut s t c n).pwr = s.pwr ∧
    (askOut s t c n).fuse = s.fuse ∧ (askOut s t c n).lcs = s.lcs ∧ (askOut s t c n).cus = s.cus ∧
    (askOut s t c n).dome = s.dome ∧ (askOut s t c n).rng = s.rng ∧ (askOut s t c n).time = s.time ∧
    (askOut s t c n).mtr = s.mtr ∧ (askOut s t c n).caller = s.caller ∧ (askOut s t c n).keep = s.keep ∧
    (askOut s t c n).vault = s.vault ∧ (askOut s t c n).acu = s.acu ∧ (askOut s t c n).reel = s.reel ∧
    (askOut s t c n).curves = s.curves ∧ (askOut s t c n).towers = s.towers ∧ (askOut s t c n).jobs = s.jobs ∧
    (askOut s t c n).bind = s.bind ∧ (askOut s t c n).host = s.host ∧ (askOut s t c n).smb = s.smb ∧
    (askOut s t c n).pending = s.pending := by
  simp [askOut]

/-- What `zeroOut` can change: heads, hif, sup, host. -/
@[simp] theorem zeroOut_frame (s : State) (t c fn : Nat) (w : Work) :
    (zeroOut s t c fn w).cycle = s.cycle ∧ (zeroOut s t c fn w).free = s.free ∧ (zeroOut s t c fn w).dev = s.dev ∧
    (zeroOut s t c fn w).pwr = s.pwr ∧ (zeroOut s t c fn w).fuse = s.fuse ∧ (zeroOut s t c fn w).lcs = s.lcs ∧
    (zeroOut s t c fn w).cus = s.cus ∧ (zeroOut s t c fn w).dome = s.dome ∧ (zeroOut s t c fn w).rng = s.rng ∧
    (zeroOut s t c fn w).time = s.time ∧ (zeroOut s t c fn w).mtr = s.mtr ∧ (zeroOut s t c fn w).caller = s.caller ∧
    (zeroOut s t c fn w).keep = s.keep ∧ (zeroOut s t c fn w).vault = s.vault ∧ (zeroOut s t c fn w).acu = s.acu ∧
    (zeroOut s t c fn w).reel = s.reel ∧ (zeroOut s t c fn w).curves = s.curves ∧ (zeroOut s t c fn w).towers = s.towers ∧
    (zeroOut s t c fn w).jobs = s.jobs ∧ (zeroOut s t c fn w).bind = s.bind ∧ (zeroOut s t c fn w).smb = s.smb ∧
    (zeroOut s t c fn w).pending = s.pending := by
  simp [zeroOut]

/-- What `endCtx` can change: hif, towers, cus. -/
@[simp] theorem endCtx_frame (s : State) (t c : Nat) (st : CtxState) :
    (endCtx s t c st).cycle = s.cycle ∧ (endCtx s t c st).free = s.free ∧ (endCtx s t c st).heads = s.heads ∧
    (endCtx s t c st).dev = s.dev ∧ (endCtx s t c st).sup = s.sup ∧ (endCtx s t c st).pwr = s.pwr ∧
    (endCtx s t c st).fuse = s.fuse ∧ (endCtx s t c st).lcs = s.lcs ∧ (endCtx s t c st).dome = s.dome ∧
    (endCtx s t c st).rng = s.rng ∧ (endCtx s t c st).time = s.time ∧ (endCtx s t c st).mtr = s.mtr ∧
    (endCtx s t c st).caller = s.caller ∧ (endCtx s t c st).keep = s.keep ∧ (endCtx s t c st).vault = s.vault ∧
    (endCtx s t c st).acu = s.acu ∧ (endCtx s t c st).reel = s.reel ∧ (endCtx s t c st).curves = s.curves ∧
    (endCtx s t c st).jobs = s.jobs ∧ (endCtx s t c st).bind = s.bind ∧ (endCtx s t c st).host = s.host ∧
    (endCtx s t c st).smb = s.smb ∧ (endCtx s t c st).pending = s.pending := by
  simp [endCtx]

/-- What `handoff` can change: hif. -/
@[simp] theorem handoff_frame (s : State) (k : Call) (b : Bytes) :
    (handoff s k b).cycle = s.cycle ∧ (handoff s k b).free = s.free ∧ (handoff s k b).heads = s.heads ∧
    (handoff s k b).dev = s.dev ∧ (handoff s k b).sup = s.sup ∧ (handoff s k b).pwr = s.pwr ∧ (handoff s k b).fuse = s.fuse ∧
    (handoff s k b).lcs = s.lcs ∧ (handoff s k b).cus = s.cus ∧ (handoff s k b).dome = s.dome ∧ (handoff s k b).rng = s.rng ∧
    (handoff s k b).time = s.time ∧ (handoff s k b).mtr = s.mtr ∧ (handoff s k b).caller = s.caller ∧
    (handoff s k b).keep = s.keep ∧ (handoff s k b).vault = s.vault ∧ (handoff s k b).acu = s.acu ∧
    (handoff s k b).reel = s.reel ∧ (handoff s k b).curves = s.curves ∧ (handoff s k b).towers = s.towers ∧
    (handoff s k b).jobs = s.jobs ∧ (handoff s k b).bind = s.bind ∧ (handoff s k b).host = s.host ∧
    (handoff s k b).smb = s.smb ∧ (handoff s k b).pending = s.pending := by
  unfold handoff
  dsimp only
  (repeat' split) <;> simp

/-- What `charge` can change: mtr. -/
@[simp] theorem charge_frame (s : State) (fn i n : Nat) :
    (charge s fn i n).cycle = s.cycle ∧ (charge s fn i n).free = s.free ∧ (charge s fn i n).heads = s.heads ∧
    (charge s fn i n).dev = s.dev ∧ (charge s fn i n).sup = s.sup ∧ (charge s fn i n).pwr = s.pwr ∧
    (charge s fn i n).fuse = s.fuse ∧ (charge s fn i n).lcs = s.lcs ∧ (charge s fn i n).cus = s.cus ∧
    (charge s fn i n).dome = s.dome ∧ (charge s fn i n).rng = s.rng ∧ (charge s fn i n).time = s.time ∧
    (charge s fn i n).caller = s.caller ∧ (charge s fn i n).keep = s.keep ∧ (charge s fn i n).vault = s.vault ∧
    (charge s fn i n).acu = s.acu ∧ (charge s fn i n).hif = s.hif ∧ (charge s fn i n).reel = s.reel ∧
    (charge s fn i n).curves = s.curves ∧ (charge s fn i n).towers = s.towers ∧ (charge s fn i n).jobs = s.jobs ∧
    (charge s fn i n).bind = s.bind ∧ (charge s fn i n).host = s.host ∧ (charge s fn i n).smb = s.smb ∧
    (charge s fn i n).pending = s.pending := by
  unfold charge
  dsimp only
  (repeat' split) <;> simp

/-- What `chargeOutcome` can change: mtr. -/
@[simp] theorem chargeOutcome_frame (s : State) (x : Ctx) (k : Call) (st p sp : Nat) :
    (chargeOutcome s x k st p sp).cycle = s.cycle ∧ (chargeOutcome s x k st p sp).free = s.free ∧
    (chargeOutcome s x k st p sp).heads = s.heads ∧ (chargeOutcome s x k st p sp).dev = s.dev ∧
    (chargeOutcome s x k st p sp).sup = s.sup ∧ (chargeOutcome s x k st p sp).pwr = s.pwr ∧
    (chargeOutcome s x k st p sp).fuse = s.fuse ∧ (chargeOutcome s x k st p sp).lcs = s.lcs ∧
    (chargeOutcome s x k st p sp).cus = s.cus ∧ (chargeOutcome s x k st p sp).dome = s.dome ∧
    (chargeOutcome s x k st p sp).rng = s.rng ∧ (chargeOutcome s x k st p sp).time = s.time ∧
    (chargeOutcome s x k st p sp).caller = s.caller ∧ (chargeOutcome s x k st p sp).keep = s.keep ∧
    (chargeOutcome s x k st p sp).vault = s.vault ∧ (chargeOutcome s x k st p sp).acu = s.acu ∧
    (chargeOutcome s x k st p sp).hif = s.hif ∧ (chargeOutcome s x k st p sp).reel = s.reel ∧
    (chargeOutcome s x k st p sp).curves = s.curves ∧ (chargeOutcome s x k st p sp).towers = s.towers ∧
    (chargeOutcome s x k st p sp).jobs = s.jobs ∧ (chargeOutcome s x k st p sp).bind = s.bind ∧
    (chargeOutcome s x k st p sp).host = s.host ∧ (chargeOutcome s x k st p sp).smb = s.smb ∧
    (chargeOutcome s x k st p sp).pending = s.pending := by
  unfold chargeOutcome
  dsimp only
  (repeat' split) <;> simp

/-- What `bookKey` can change: keep, towers. -/
@[simp] theorem bookKey_frame (s : State) (t h : Nat) :
    (bookKey t h s).cycle = s.cycle ∧ (bookKey t h s).free = s.free ∧ (bookKey t h s).heads = s.heads ∧
    (bookKey t h s).dev = s.dev ∧ (bookKey t h s).sup = s.sup ∧ (bookKey t h s).pwr = s.pwr ∧ (bookKey t h s).fuse = s.fuse ∧
    (bookKey t h s).lcs = s.lcs ∧ (bookKey t h s).cus = s.cus ∧ (bookKey t h s).dome = s.dome ∧ (bookKey t h s).rng = s.rng ∧
    (bookKey t h s).time = s.time ∧ (bookKey t h s).mtr = s.mtr ∧ (bookKey t h s).caller = s.caller ∧
    (bookKey t h s).vault = s.vault ∧ (bookKey t h s).acu = s.acu ∧ (bookKey t h s).hif = s.hif ∧
    (bookKey t h s).reel = s.reel ∧ (bookKey t h s).curves = s.curves ∧ (bookKey t h s).jobs = s.jobs ∧
    (bookKey t h s).bind = s.bind ∧ (bookKey t h s).host = s.host ∧ (bookKey t h s).smb = s.smb ∧
    (bookKey t h s).pending = s.pending := by
  simp [bookKey]

/-- What `bookKeys` can change: keep, towers. -/
@[simp] theorem bookKeys_frame (s : State) (t c st : Nat) :
    (bookKeys s t c st).cycle = s.cycle ∧ (bookKeys s t c st).free = s.free ∧ (bookKeys s t c st).heads = s.heads ∧
    (bookKeys s t c st).dev = s.dev ∧ (bookKeys s t c st).sup = s.sup ∧ (bookKeys s t c st).pwr = s.pwr ∧
    (bookKeys s t c st).fuse = s.fuse ∧ (bookKeys s t c st).lcs = s.lcs ∧ (bookKeys s t c st).cus = s.cus ∧
    (bookKeys s t c st).dome = s.dome ∧ (bookKeys s t c st).rng = s.rng ∧ (bookKeys s t c st).time = s.time ∧
    (bookKeys s t c st).mtr = s.mtr ∧ (bookKeys s t c st).caller = s.caller ∧ (bookKeys s t c st).vault = s.vault ∧
    (bookKeys s t c st).acu = s.acu ∧ (bookKeys s t c st).hif = s.hif ∧ (bookKeys s t c st).reel = s.reel ∧
    (bookKeys s t c st).curves = s.curves ∧ (bookKeys s t c st).jobs = s.jobs ∧ (bookKeys s t c st).bind = s.bind ∧
    (bookKeys s t c st).host = s.host ∧ (bookKeys s t c st).smb = s.smb ∧ (bookKeys s t c st).pending = s.pending := by
  unfold bookKeys
  dsimp only
  generalize List.range _ = l
  generalize workDesc s t c = d
  split
  · simp
  · clear * -
    induction l generalizing s with
    | nil => simp
    | cons n r ih => simp [ih]

/-- What `finishCore` can change: heads, hif, sup, host, mtr, keep, towers, cus. -/
@[simp] theorem finishCore_frame (s : State) (t c st table sp : Nat) (r : Bytes) :
    (finishCore s t c st table sp r).cycle = s.cycle ∧ (finishCore s t c st table sp r).free = s.free ∧
    (finishCore s t c st table sp r).dev = s.dev ∧ (finishCore s t c st table sp r).pwr = s.pwr ∧
    (finishCore s t c st table sp r).fuse = s.fuse ∧ (finishCore s t c st table sp r).lcs = s.lcs ∧
    (finishCore s t c st table sp r).dome = s.dome ∧ (finishCore s t c st table sp r).rng = s.rng ∧
    (finishCore s t c st table sp r).time = s.time ∧ (finishCore s t c st table sp r).caller = s.caller ∧
    (finishCore s t c st table sp r).vault = s.vault ∧ (finishCore s t c st table sp r).acu = s.acu ∧
    (finishCore s t c st table sp r).reel = s.reel ∧ (finishCore s t c st table sp r).curves = s.curves ∧
    (finishCore s t c st table sp r).jobs = s.jobs ∧ (finishCore s t c st table sp r).bind = s.bind ∧
    (finishCore s t c st table sp r).smb = s.smb ∧ (finishCore s t c st table sp r).pending = s.pending := by
  unfold finishCore
  dsimp only
  (repeat' split) <;> simp

/-- What `finishWaiter` can change: heads, hif, sup, host, mtr, keep, towers, cus. -/
@[simp] theorem finishWaiter_frame (s : State) (o : Option (Nat × Nat)) (st : Nat) :
    (finishWaiter s o st).cycle = s.cycle ∧ (finishWaiter s o st).free = s.free ∧ (finishWaiter s o st).dev = s.dev ∧
    (finishWaiter s o st).pwr = s.pwr ∧ (finishWaiter s o st).fuse = s.fuse ∧ (finishWaiter s o st).lcs = s.lcs ∧
    (finishWaiter s o st).dome = s.dome ∧ (finishWaiter s o st).rng = s.rng ∧ (finishWaiter s o st).time = s.time ∧
    (finishWaiter s o st).caller = s.caller ∧ (finishWaiter s o st).vault = s.vault ∧ (finishWaiter s o st).acu = s.acu ∧
    (finishWaiter s o st).reel = s.reel ∧ (finishWaiter s o st).curves = s.curves ∧ (finishWaiter s o st).jobs = s.jobs ∧
    (finishWaiter s o st).bind = s.bind ∧ (finishWaiter s o st).smb = s.smb ∧ (finishWaiter s o st).pending = s.pending := by
  unfold finishWaiter
  (repeat' split) <;> simp

/-- What `dropJob` can change: jobs. -/
@[simp] theorem dropJob_frame (s : State) (j : Job) :
    (dropJob s j).cycle = s.cycle ∧ (dropJob s j).free = s.free ∧ (dropJob s j).heads = s.heads ∧ (dropJob s j).dev = s.dev ∧
    (dropJob s j).sup = s.sup ∧ (dropJob s j).pwr = s.pwr ∧ (dropJob s j).fuse = s.fuse ∧ (dropJob s j).lcs = s.lcs ∧
    (dropJob s j).cus = s.cus ∧ (dropJob s j).dome = s.dome ∧ (dropJob s j).rng = s.rng ∧ (dropJob s j).time = s.time ∧
    (dropJob s j).mtr = s.mtr ∧ (dropJob s j).caller = s.caller ∧ (dropJob s j).keep = s.keep ∧ (dropJob s j).vault = s.vault ∧
    (dropJob s j).acu = s.acu ∧ (dropJob s j).hif = s.hif ∧ (dropJob s j).reel = s.reel ∧ (dropJob s j).curves = s.curves ∧
    (dropJob s j).towers = s.towers ∧ (dropJob s j).bind = s.bind ∧ (dropJob s j).host = s.host ∧ (dropJob s j).smb = s.smb ∧
    (dropJob s j).pending = s.pending := by
  simp [dropJob]

/-- What `jobEnded` can change: heads, hif, sup, host, mtr, keep, towers, cus, jobs. -/
@[simp] theorem jobEnded_frame (s : State) (j : Option Job) :
    (jobEnded s j).cycle = s.cycle ∧ (jobEnded s j).free = s.free ∧ (jobEnded s j).dev = s.dev ∧ (jobEnded s j).pwr = s.pwr ∧
    (jobEnded s j).fuse = s.fuse ∧ (jobEnded s j).lcs = s.lcs ∧ (jobEnded s j).dome = s.dome ∧ (jobEnded s j).rng = s.rng ∧
    (jobEnded s j).time = s.time ∧ (jobEnded s j).caller = s.caller ∧ (jobEnded s j).vault = s.vault ∧
    (jobEnded s j).acu = s.acu ∧ (jobEnded s j).reel = s.reel ∧ (jobEnded s j).curves = s.curves ∧
    (jobEnded s j).bind = s.bind ∧ (jobEnded s j).smb = s.smb ∧ (jobEnded s j).pending = s.pending := by
  unfold jobEnded
  (repeat' split) <;> simp

/-- What `finishCall` can change: heads, hif, sup, host, mtr, keep, towers, cus, jobs. -/
@[simp] theorem finishCall_frame (s : State) (t c st table sp : Nat) (r : Bytes) :
    (finishCall s t c st table sp r).cycle = s.cycle ∧ (finishCall s t c st table sp r).free = s.free ∧
    (finishCall s t c st table sp r).dev = s.dev ∧ (finishCall s t c st table sp r).pwr = s.pwr ∧
    (finishCall s t c st table sp r).fuse = s.fuse ∧ (finishCall s t c st table sp r).lcs = s.lcs ∧
    (finishCall s t c st table sp r).dome = s.dome ∧ (finishCall s t c st table sp r).rng = s.rng ∧
    (finishCall s t c st table sp r).time = s.time ∧ (finishCall s t c st table sp r).caller = s.caller ∧
    (finishCall s t c st table sp r).vault = s.vault ∧ (finishCall s t c st table sp r).acu = s.acu ∧
    (finishCall s t c st table sp r).reel = s.reel ∧ (finishCall s t c st table sp r).curves = s.curves ∧
    (finishCall s t c st table sp r).bind = s.bind ∧ (finishCall s t c st table sp r).smb = s.smb ∧
    (finishCall s t c st table sp r).pending = s.pending := by
  simp [finishCall]

/-- What `finishUnkeyed` can change: heads, hif, sup, host, mtr, keep, towers, cus, jobs. -/
@[simp] theorem finishUnkeyed_frame (s : State) (t c st table : Nat) (r : Bytes) :
    (finishUnkeyed s t c st table r).cycle = s.cycle ∧ (finishUnkeyed s t c st table r).free = s.free ∧
    (finishUnkeyed s t c st table r).dev = s.dev ∧ (finishUnkeyed s t c st table r).pwr = s.pwr ∧
    (finishUnkeyed s t c st table r).fuse = s.fuse ∧ (finishUnkeyed s t c st table r).lcs = s.lcs ∧
    (finishUnkeyed s t c st table r).dome = s.dome ∧ (finishUnkeyed s t c st table r).rng = s.rng ∧
    (finishUnkeyed s t c st table r).time = s.time ∧ (finishUnkeyed s t c st table r).caller = s.caller ∧
    (finishUnkeyed s t c st table r).vault = s.vault ∧ (finishUnkeyed s t c st table r).acu = s.acu ∧
    (finishUnkeyed s t c st table r).reel = s.reel ∧ (finishUnkeyed s t c st table r).curves = s.curves ∧
    (finishUnkeyed s t c st table r).bind = s.bind ∧ (finishUnkeyed s t c st table r).smb = s.smb ∧
    (finishUnkeyed s t c st table r).pending = s.pending := by
  unfold finishUnkeyed
  (repeat' split) <;> simp

/-- What `abortCall` can change: heads, hif, sup, host, mtr, keep, towers, cus, jobs. -/
@[simp] theorem abortCall_frame (s : State) (t c : Nat) (st : CtxState) :
    (abortCall s t c st).cycle = s.cycle ∧ (abortCall s t c st).free = s.free ∧ (abortCall s t c st).dev = s.dev ∧
    (abortCall s t c st).pwr = s.pwr ∧ (abortCall s t c st).fuse = s.fuse ∧ (abortCall s t c st).lcs = s.lcs ∧
    (abortCall s t c st).dome = s.dome ∧ (abortCall s t c st).rng = s.rng ∧ (abortCall s t c st).time = s.time ∧
    (abortCall s t c st).caller = s.caller ∧ (abortCall s t c st).vault = s.vault ∧ (abortCall s t c st).acu = s.acu ∧
    (abortCall s t c st).reel = s.reel ∧ (abortCall s t c st).curves = s.curves ∧ (abortCall s t c st).bind = s.bind ∧
    (abortCall s t c st).smb = s.smb ∧ (abortCall s t c st).pending = s.pending := by
  unfold abortCall
  dsimp only
  (repeat' split) <;> simp

/-- What `dataError` can change: heads, hif, sup, host, mtr, keep, towers, cus, jobs. -/
@[simp] theorem dataError_frame (s : State) (t c cause : Nat) :
    (dataError s t c cause).cycle = s.cycle ∧ (dataError s t c cause).free = s.free ∧ (dataError s t c cause).dev = s.dev ∧
    (dataError s t c cause).pwr = s.pwr ∧ (dataError s t c cause).fuse = s.fuse ∧ (dataError s t c cause).lcs = s.lcs ∧
    (dataError s t c cause).dome = s.dome ∧ (dataError s t c cause).rng = s.rng ∧ (dataError s t c cause).time = s.time ∧
    (dataError s t c cause).caller = s.caller ∧ (dataError s t c cause).vault = s.vault ∧ (dataError s t c cause).acu = s.acu ∧
    (dataError s t c cause).reel = s.reel ∧ (dataError s t c cause).curves = s.curves ∧ (dataError s t c cause).bind = s.bind ∧
    (dataError s t c cause).smb = s.smb ∧ (dataError s t c cause).pending = s.pending := by
  unfold dataError
  dsimp only
  (repeat' split) <;> simp

/-- What `refusedAccess` can change: heads, hif, sup, host, mtr, keep, towers, cus, jobs. -/
@[simp] theorem refusedAccess_frame (s : State) (t c cause : Nat) :
    (refusedAccess s t c cause).cycle = s.cycle ∧ (refusedAccess s t c cause).free = s.free ∧
    (refusedAccess s t c cause).dev = s.dev ∧ (refusedAccess s t c cause).pwr = s.pwr ∧
    (refusedAccess s t c cause).fuse = s.fuse ∧ (refusedAccess s t c cause).lcs = s.lcs ∧
    (refusedAccess s t c cause).dome = s.dome ∧ (refusedAccess s t c cause).rng = s.rng ∧
    (refusedAccess s t c cause).time = s.time ∧ (refusedAccess s t c cause).caller = s.caller ∧
    (refusedAccess s t c cause).vault = s.vault ∧ (refusedAccess s t c cause).acu = s.acu ∧
    (refusedAccess s t c cause).reel = s.reel ∧ (refusedAccess s t c cause).curves = s.curves ∧
    (refusedAccess s t c cause).bind = s.bind ∧ (refusedAccess s t c cause).smb = s.smb ∧
    (refusedAccess s t c cause).pending = s.pending := by
  unfold refusedAccess
  (repeat' split) <;> simp

/-- What `writeOut` can change: heads, hif, sup, host, mtr, keep, towers, cus, jobs. -/
@[simp] theorem writeOut_frame (s : State) (t c : Nat) (b : Bytes) :
    ((writeOut s t c b).1).cycle = s.cycle ∧ ((writeOut s t c b).1).free = s.free ∧ ((writeOut s t c b).1).dev = s.dev ∧
    ((writeOut s t c b).1).pwr = s.pwr ∧ ((writeOut s t c b).1).fuse = s.fuse ∧ ((writeOut s t c b).1).lcs = s.lcs ∧
    ((writeOut s t c b).1).dome = s.dome ∧ ((writeOut s t c b).1).rng = s.rng ∧ ((writeOut s t c b).1).time = s.time ∧
    ((writeOut s t c b).1).caller = s.caller ∧ ((writeOut s t c b).1).vault = s.vault ∧ ((writeOut s t c b).1).acu = s.acu ∧
    ((writeOut s t c b).1).reel = s.reel ∧ ((writeOut s t c b).1).curves = s.curves ∧ ((writeOut s t c b).1).bind = s.bind ∧
    ((writeOut s t c b).1).smb = s.smb ∧ ((writeOut s t c b).1).pending = s.pending := by
  unfold writeOut
  dsimp only
  (repeat' split) <;> simp

/-- What `armDma` can change: hif. -/
@[simp] theorem armDma_frame (s : State) (t c : Nat) :
    (armDma s t c).cycle = s.cycle ∧ (armDma s t c).free = s.free ∧ (armDma s t c).heads = s.heads ∧
    (armDma s t c).dev = s.dev ∧ (armDma s t c).sup = s.sup ∧ (armDma s t c).pwr = s.pwr ∧ (armDma s t c).fuse = s.fuse ∧
    (armDma s t c).lcs = s.lcs ∧ (armDma s t c).cus = s.cus ∧ (armDma s t c).dome = s.dome ∧ (armDma s t c).rng = s.rng ∧
    (armDma s t c).time = s.time ∧ (armDma s t c).mtr = s.mtr ∧ (armDma s t c).caller = s.caller ∧
    (armDma s t c).keep = s.keep ∧ (armDma s t c).vault = s.vault ∧ (armDma s t c).acu = s.acu ∧ (armDma s t c).reel = s.reel ∧
    (armDma s t c).curves = s.curves ∧ (armDma s t c).towers = s.towers ∧ (armDma s t c).jobs = s.jobs ∧
    (armDma s t c).bind = s.bind ∧ (armDma s t c).host = s.host ∧ (armDma s t c).smb = s.smb ∧
    (armDma s t c).pending = s.pending := by
  unfold armDma
  dsimp only
  (repeat' split) <;> simp

/-! ## Host memory keeps its canonical form -/

theorem writePieces_wf (fn : Nat) (l : List (Nat × Nat)) (b : Bytes) (s : State) (w : Memory.wf s.host = true) : Memory.wf ((writePieces fn s l b).1).host = true := by
  induction l generalizing s b with
  | nil => exact w
  | cons x r ih =>
    simp only [writePieces]
    split
    · exact ih _ _ (by simp; exact tblWf_setRun _ _ _ _ w)
    · simpa using w

theorem hostWrite_wf (s : State) (fn a : Nat) (b : Bytes) (w : Memory.wf s.host = true) : Memory.wf ((hostWrite s fn a b).1).host = true := by
  unfold hostWrite
  split
  · exact w
  · exact writePieces_wf _ _ _ _ w

theorem writeSlices_wf (fn : Nat) (l : List (Nat × Nat)) (b : Bytes) (s : State) (w : Memory.wf s.host = true) : Memory.wf ((writeSlices fn s l b).1).host = true := by
  induction l generalizing s b with
  | nil => exact w
  | cons x r ih =>
    simp only [writeSlices]
    split
    · exact hostWrite_wf _ _ _ _ w
    · exact ih _ _ (hostWrite_wf _ _ _ _ w)

theorem zeroPiece_wf (s : State) (fn : Nat) (p : Nat × Nat) (w : Memory.wf s.host = true) : Memory.wf (zeroPiece fn s p).host = true := by
  unfold zeroPiece
  split
  · exact w
  · dsimp only
    split
    · simp
      exact tblWf_setRun _ _ _ _ w
    · simpa using w

theorem zeroOutput_wf (s : State) (fn : Nat) (x : Work) (w : Memory.wf s.host = true) : Memory.wf (zeroOutput s fn x).host = true := by
  unfold zeroOutput
  generalize List.flatMap _ _ = l
  induction l generalizing s with
  | nil => exact w
  | cons y r ih => exact ih _ (zeroPiece_wf _ _ _ w)

theorem zeroOut_wf (s : State) (t c fn : Nat) (x : Work) (w : Memory.wf s.host = true) : Memory.wf (zeroOut s t c fn x).host = true := by
  exact zeroOutput_wf _ _ _ w

theorem finishCore_wf (s : State) (t c st table sp : Nat) (r : Bytes) (w : Memory.wf s.host = true) : Memory.wf (finishCore s t c st table sp r).host = true := by
  unfold finishCore
  dsimp only
  split
  · exact w
  · split
    · simpa using w
    · simpa using zeroOut_wf _ _ _ _ _ w

theorem finishWaiter_wf (s : State) (o : Option (Nat × Nat)) (st : Nat) (w : Memory.wf s.host = true) : Memory.wf (finishWaiter s o st).host = true := by
  unfold finishWaiter
  split
  · exact w
  · exact finishCore_wf _ _ _ _ _ _ _ w

theorem jobEnded_wf (s : State) (j : Option Job) (w : Memory.wf s.host = true) : Memory.wf (jobEnded s j).host = true := by
  unfold jobEnded
  split
  · exact w
  · exact finishWaiter_wf _ _ _ (finishWaiter_wf _ _ _ (by simpa using w))

theorem finishCall_wf (s : State) (t c st table sp : Nat) (r : Bytes) (w : Memory.wf s.host = true) : Memory.wf (finishCall s t c st table sp r).host = true := by
  exact jobEnded_wf _ _ (finishCore_wf _ _ _ _ _ _ _ w)

theorem finishUnkeyed_wf (s : State) (t c st table : Nat) (r : Bytes) (w : Memory.wf s.host = true) : Memory.wf (finishUnkeyed s t c st table r).host = true := by
  unfold finishUnkeyed
  split
  · exact finishCall_wf _ _ _ _ _ _ _ w
  · split
    · exact finishCall_wf _ _ _ _ _ _ _ w
    · exact jobEnded_wf _ _ (finishCore_wf _ _ _ _ _ _ _ (by simpa using w))

theorem abortCall_wf (s : State) (t c : Nat) (st : CtxState) (w : Memory.wf s.host = true) : Memory.wf (abortCall s t c st).host = true := by
  unfold abortCall
  dsimp only
  split
  · exact w
  · exact jobEnded_wf _ _ (by simpa using w)

theorem dataError_wf (s : State) (t c cause : Nat) (w : Memory.wf s.host = true) : Memory.wf (dataError s t c cause).host = true := by
  unfold dataError
  dsimp only
  split
  · exact w
  · rw [(qpError_frame _ _ _ _).2.2.2.2.2.2.2.2.2.2.2.2.2.2.2.2.2.2.2.2.2.1]; exact abortCall_wf _ _ _ _ (zeroOut_wf _ _ _ _ _ w)

theorem refusedAccess_wf (s : State) (t c cause : Nat) (w : Memory.wf s.host = true) : Memory.wf (refusedAccess s t c cause).host = true := by
  unfold refusedAccess
  split
  · exact w
  · split
    · exact dataError_wf _ _ _ _ w
    · exact abortCall_wf _ _ _ _ w

theorem writeOut_wf (s : State) (t c : Nat) (b : Bytes) (w : Memory.wf s.host = true) : Memory.wf ((writeOut s t c b).1).host = true := by
  unfold writeOut
  dsimp only
  split
  · exact w
  · split
    · exact refusedAccess_wf _ _ _ _ (by simpa using writeSlices_wf _ _ _ _ w)
    · simpa using writeSlices_wf _ _ _ _ w

end Sys2Proof.Machine
end

