-- ==== Sys2Proof/Laws/Figures.lean ====
section
/-! SUPPORT. The frame of a figure: what it runs on each fault, and when it runs at all. -/

namespace Sys2Proof.Machine

/-- Away from its figure, the command changes nothing. -/
theorem runFigure_away {s : State} {t c op : Nat} (h : atFigure s t c op = false) (x : FigFault) (f : State → State) :
    runFigure s t c op x f = s := by simp [runFigure, h]

/-- At its figure, with no fault, the figure's own effect happens, past any yield that the job owed. -/
theorem runFigure_at {s : State} {t c op : Nat} (h : atFigure s t c op = true) (f : State → State) :
    runFigure s t c op .none f = f (pastYield s t c) := by simp [runFigure, h, faultFits, withFault]

/-- A context that owes no run to a yield point is past it. -/
theorem pastYield_none {s : State} {t c : Nat} (h : (s.tower t).spire.owed = false) : pastYield s t c = s := by
  simp [pastYield, h]

/-- Running past a yield point leaves every context as it is. -/
@[simp] theorem pastYield_ctx (s : State) (t c t' c' : Nat) : (pastYield s t c).ctx t' c' = s.ctx t' c' := by
  have h : ((pastYield s t c).tower t').ctxs = (s.tower t').ctxs := by
    unfold pastYield
    simp only
    split
    · simp only [State.setTower, State.tower, List.getD_eq_getElem?_getD, List.getElem?_set]
      split
      · subst_vars
        split <;> simp_all
      · rfl
    · rfl
  simp [State.ctx, h]

/-- It leaves the job store and the Keep. -/
@[simp] theorem pastYield_frame (s : State) (t c : Nat) :
    (pastYield s t c).jobs = s.jobs ∧ (pastYield s t c).keep = s.keep ∧ (pastYield s t c).vault = s.vault ∧
    (pastYield s t c).dome = s.dome ∧ (pastYield s t c).hif = s.hif := by
  unfold pastYield
  simp only
  split <;> simp [State.setTower]

/-- It leaves the descriptor that a context works on. -/
@[simp] theorem pastYield_workDesc (s : State) (t c t' c' : Nat) : workDesc (pastYield s t c) t' c' = workDesc s t' c' := by
  simp [workDesc, jobAt]

/-- A context past its yield point stands at the same figure. -/
@[simp] theorem pastYield_atFigure (s : State) (t c t' c' op : Nat) : atFigure (pastYield s t c) t' c' op = atFigure s t' c' op := by
  simp [atFigure]

/-- What standing at a figure says: a call is in the running context of a tower that exists, and all its needs are met. -/
theorem atFigure_call {s : State} {t c op : Nat} (h : atFigure s t c op = true) :
    t < 17 ∧ c < 8 ∧ (s.ctx t c).st = .running ∧ (∃ k, (s.ctx t c).call = some k) ∧ (s.ctx t c).needs = [] ∧
      opOf (workDesc s t c) = op := by
  simp only [atFigure, Bool.and_eq_true, decide_eq_true_eq, beq_iff_eq, List.isEmpty_iff, Option.isSome_iff_exists] at h
  obtain ⟨⟨⟨⟨⟨h1, h2⟩, h3⟩, h4⟩, h5⟩, h6⟩ := h
  exact ⟨h1, h2, h3, h4, h5, h6⟩

/-- A figure ends DEVICE_FAULT through the end of its call, with a free number of path cycles. -/
theorem deviceFault_eq (s : State) (t c : Nat) :
    deviceFault s t c = finishCall { s with free := s.free + 1 } t c stDeviceFault (Config.freeValue s.free % 2 ^ 32) 0 [] := rfl

@[simp] theorem takeFree_fst (s : State) : s.takeFree.1 = { s with free := s.free + 1 } := rfl
@[simp] theorem takeFree_snd (s : State) : s.takeFree.2 = s.free := rfl
@[simp] theorem takeBytes_fst (s : State) (n : Nat) : (s.takeBytes n).1 = { s with free := s.free + 1 } := rfl
@[simp] theorem takeBytes_snd (s : State) (n : Nat) : (s.takeBytes n).2 = leBytes n (Config.freeValue s.free) := rfl

/-- The violation log holds at most 16 entries after one more violation. -/
theorem logViolation_bound (s : State) (i k : Nat) (w ho : Bool) (src a b : Nat) (h : s.sup.log.length ≤ 16) :
    (logViolation s i k w ho src a b).sup.log.length ≤ 16 := by
  unfold logViolation
  dsimp only
  split
  · simp
    omega
  · simpa using h

theorem hostViolation_bound (s : State) (fn k : Nat) (w : Bool) (a : Nat) (h : s.sup.log.length ≤ 16) :
    (hostViolation s fn k w a).sup.log.length ≤ 16 := by
  unfold hostViolation
  dsimp only
  split <;> simpa using logViolation_bound _ _ _ _ _ _ _ _ h

theorem hostCheck_bound (s : State) (fn : Nat) (w : Bool) (a : Nat) (h : s.sup.log.length ≤ 16) :
    (hostCheck s fn w a).1.sup.log.length ≤ 16 := by
  unfold hostCheck
  split
  · exact h
  · exact hostViolation_bound _ _ _ _ _ h

end Sys2Proof.Machine
end

