-- ==== Sys2Proof/WellFormed.lean ====
section
/-! DEFINITION. Which commands are well formed: operands that name a part which the spec gives the block, and values that fit
the widths which the spec gives them. The meanings are total and do not rely on it. -/

namespace Sys2Proof

/-- A function number: a TF, or the MF (02 R41). -/
def fnOk (fn : Nat) : Bool := decide (fn < 1024) || fn == 0xFFFF

/-- A function number of a register access: a function's, or the debug port's (14 R393). -/
def portOk (fn : Nat) : Bool := fnOk fn || fn == 0xFFFE

/-- A queue pair of a function: 8 for a TF, 16 for the MF (02 R44, R75). -/
def queueOk (fn q : Nat) : Bool := if fn = 0xFFFF then decide (q < 16) else decide (fn < 1024) && decide (q < 8)

/-- A tower (00 R3). -/
def towerOk (t : Nat) : Bool := decide (t < 17)

/-- A figure context (10 R301). -/
def ctxOk (t c : Nat) : Bool := towerOk t && decide (c < 8)

/-- A lane of a kind: 6 cipher lanes, 3 hash lanes (08 R281). -/
def laneOk (hash : Bool) (i : Nat) : Bool := if hash then decide (i < 3) else decide (i < 6)

/-- A fault report names a lane that a tower has. -/
def FigFault.fits : FigFault → Bool
  | .lane hash i => laneOk hash i
  | .access _ addr _ => decide (addr < 2 ^ 48)
  | _ => true

/-- A part that the sparing controller can test. -/
def TestPart.fits : TestPart → Bool
  | .lane t hash i => towerOk t && laneOk hash i
  | .spire t => towerOk t
  | .spareTower t => towerOk t

/-- The bits that a power loss leaves fill a row or block of `n` bytes (14 R394, R400). -/
def StepBurn.fits (n : Nat) : StepBurn → Bool
  | .cut bits => bits.length == n
  | .cutAgain bits => bits.length == n
  | _ => true

/-- Both steps of a burn fit a policy block of 49 bytes and a row of 4. -/
def BurnResult.fits (b : BurnResult) : Bool := b.block.fits 49 && b.row.fits 4

/-- Window-space lines of 64 bytes (07 R227). -/
def memOk (m : List (Nat × Bytes)) : Bool := m.all (fun e => e.2.length == 64)

/-- A Reel address (11 R325). -/
def reelOk (a : Nat) : Bool := decide (a < 1000)

/-- A header that a Reel message can carry: SRC, DST or a broadcast, and a 16-bit SEQ (11 R327). -/
def hdrOk (h : Hdr) : Bool := reelOk h.src && (reelOk h.dst || h.dst == 0xFFFF) && decide (h.seq < 65536)

/-- A block page of the MF's BAR0 (00 R15). -/
def pageOk (p : Nat) : Bool := decide (p ≤ 0x013) || (decide (0x100 ≤ p) && decide (p ≤ 0x110))

/-- A width of an access, in bits. -/
def widthOk (w : Nat) : Bool := w == 8 || w == 16 || w == 32 || w == 64

/-- The command is well formed. -/
def Instr.wf : Instr → Bool
  | .qpSqTailDb fn q _ => queueOk fn q
  | .qpCqHeadDb fn q _ => queueOk fn q
  | .qpEnable fn q => queueOk fn q
  | .queueReset fn q _ _ => queueOk fn q
  | .heldQueueReset fn q => queueOk fn q
  | .descFetch fn q => queueOk fn q
  | .descReadDone fn q first _ => queueOk fn q && decide (first < 65536)
  | .admission => true
  | .dispatch bad fixed => bad.all (fun i => decide (i < 4)) && decide (fixed < 256)
  | .vaultFill tower ctx mem _ => ctxOk tower ctx && memOk mem
  | .keepGrant fault => fault.all (fun x => ctxOk x.1 x.2)
  | .grantRevoke tower ctx => ctxOk tower ctx
  | .laneGrant tower hash fault _ => towerOk tower && fault.all (laneOk hash)
  | .laneSave tower hash lane _ => towerOk tower && laneOk hash lane
  | .spireGrant tower _ => towerOk tower
  | .spireSwitch tower _ => towerOk tower
  | .dmaGrant _ => true
  | .listRead tower ctx _ => ctxOk tower ctx
  | .blobRead tower ctx _ => ctxOk tower ctx
  | .chunkRead tower ctx _ fault => ctxOk tower ctx && fault.fits
  | .drbgDraw tower => towerOk tower
  | .completionWrite fn q => queueOk fn q
  | .coalTimerExpiry fn q => queueOk fn q
  | .stallBreak => true
  | .keepRowRepair row _ line => decide (row < 16384) && line.all (fun k => decide (k < 2 ^ 56))
  | .echo tower ctx fault => ctxOk tower ctx && fault.fits
  | .jobSuspend tower ctx fault => ctxOk tower ctx && fault.fits
  | .jobSuspension tower ctx => ctxOk tower ctx
  | .jobResume tower ctx fault => ctxOk tower ctx && fault.fits
  | .jobCancel tower ctx fault => ctxOk tower ctx && fault.fits
  | .jobCancellation tower ctx => ctxOk tower ctx
  | .jobQuery tower ctx fault => ctxOk tower ctx && fault.fits
  | .pinTranslate tower ctx fault => ctxOk tower ctx && fault.fits
  | .pinVerifyOffset tower ctx fault => ctxOk tower ctx && fault.fits
  | .pinVerifyPvv tower ctx fault => ctxOk tower ctx && fault.fits
  | .pinGenerateOffset tower ctx fault => ctxOk tower ctx && fault.fits
  | .pinGeneratePvv tower ctx fault => ctxOk tower ctx && fault.fits
  | .pinChange tower ctx fault => ctxOk tower ctx && fault.fits
  | .pinFromDukpt tower ctx fault => ctxOk tower ctx && fault.fits
  | .dukptDeriveInitial tower ctx fault => ctxOk tower ctx && fault.fits
  | .dukptDataDecrypt tower ctx fault => ctxOk tower ctx && fault.fits
  | .dukptMacVerify tower ctx fault => ctxOk tower ctx && fault.fits
  | .cvvGenerate tower ctx fault => ctxOk tower ctx && fault.fits
  | .cvvVerify tower ctx fault => ctxOk tower ctx && fault.fits
  | .dcvvVerify tower ctx fault => ctxOk tower ctx && fault.fits
  | .arqcVerify tower ctx fault => ctxOk tower ctx && fault.fits
  | .scriptMac tower ctx fault => ctxOk tower ctx && fault.fits
  | .macGenerate tower ctx fault => ctxOk tower ctx && fault.fits
  | .macVerify tower ctx fault => ctxOk tower ctx && fault.fits
  | .dataEncrypt tower ctx fault => ctxOk tower ctx && fault.fits
  | .dataDecrypt tower ctx fault => ctxOk tower ctx && fault.fits
  | .dataTranslate tower ctx fault => ctxOk tower ctx && fault.fits
  | .tokenize tower ctx fault => ctxOk tower ctx && fault.fits
  | .detokenize tower ctx fault => ctxOk tower ctx && fault.fits
  | .tokenRetire tower ctx fault => ctxOk tower ctx && fault.fits
  | .keyGenerate tower ctx fault => ctxOk tower ctx && fault.fits
  | .keyImportBlock tower ctx fault => ctxOk tower ctx && fault.fits
  | .keyExportBlock tower ctx fault => ctxOk tower ctx && fault.fits
  | .keyDerive tower ctx fault => ctxOk tower ctx && fault.fits
  | .keyDestroy tower ctx fault => ctxOk tower ctx && fault.fits
  | .keyAttributes tower ctx fault => ctxOk tower ctx && fault.fits
  | .keyImportPk tower ctx fault => ctxOk tower ctx && fault.fits
  | .bindingRecordImport tower ctx fault => ctxOk tower ctx && fault.fits
  | .partitionUnbind tower ctx fault => ctxOk tower ctx && fault.fits
  | .keyCheckValue tower ctx fault => ctxOk tower ctx && fault.fits
  | .keyRotateSchedule tower ctx fault => ctxOk tower ctx && fault.fits
  | .rotateCancel tower ctx fault => ctxOk tower ctx && fault.fits
  | .pkSign tower ctx fault => ctxOk tower ctx && fault.fits
  | .pkVerify tower ctx fault => ctxOk tower ctx && fault.fits
  | .pkDecrypt tower ctx fault => ctxOk tower ctx && fault.fits
  | .pkAgree tower ctx fault => ctxOk tower ctx && fault.fits
  | .pkKeygen tower ctx fault => ctxOk tower ctx && fault.fits
  | .pqKemDecaps tower ctx fault => ctxOk tower ctx && fault.fits
  | .pqSign tower ctx fault => ctxOk tower ctx && fault.fits
  | .pqVerify tower ctx fault => ctxOk tower ctx && fault.fits
  | .curveLoad tower ctx fault => ctxOk tower ctx && fault.fits
  | .randomCall tower ctx fault => ctxOk tower ctx && fault.fits
  | .vaultRekey tower ctx fault => ctxOk tower ctx && fault.fits
  | .vaultScrub tower ctx fault => ctxOk tower ctx && fault.fits
  | .vaultSealRoot tower ctx fault => ctxOk tower ctx && fault.fits
  | .vaultSealRelease tower ctx fault => ctxOk tower ctx && fault.fits
  | .vaultAdopt tower ctx fault seals _ mem _ => ctxOk tower ctx && fault.fits && memOk mem && seals.all (fun b => b.length == 128)
  | .partitionHandoff tower ctx fault => ctxOk tower ctx && fault.fits
  | .attest tower ctx fault => ctxOk tower ctx && fault.fits
  | .tallyStatement tower ctx fault => ctxOk tower ctx && fault.fits
  | .ceremonyOpen tower ctx fault => ctxOk tower ctx && fault.fits
  | .tableLoad tower ctx fault => ctxOk tower ctx && fault.fits
  | .custodianAuth tower ctx fault => ctxOk tower ctx && fault.fits
  | .cardResponse tower ctx resp => ctxOk tower ctx && decide (resp.length ≤ 338)
  | .cardTimeout tower ctx => ctxOk tower ctx
  | .dmkLoad tower ctx fault => ctxOk tower ctx && fault.fits
  | .dmkPromote tower ctx fault => ctxOk tower ctx && fault.fits
  | .partitionCreate tower ctx fault => ctxOk tower ctx && fault.fits
  | .partitionDelete tower ctx fault => ctxOk tower ctx && fault.fits
  | .commission tower ctx fault => ctxOk tower ctx && fault.fits
  | .recommission tower ctx fault => ctxOk tower ctx && fault.fits
  | .returnCer tower ctx fault => ctxOk tower ctx && fault.fits
  | .scrap tower ctx fault => ctxOk tower ctx && fault.fits
  | .ceremonyAbort tower ctx fault => ctxOk tower ctx && fault.fits
  | .ceremonyWindowExpiry => true
  | .lifecycleTransition burn => burn.fits
  | .lcsRequest target => decide (target < 8)
  | .lcsExecute target => decide (target < 8)
  | .reelCloneDomain tower ctx fault => ctxOk tower ctx && fault.fits
  | .reelSend tower ctx fault => ctxOk tower ctx && fault.fits
  | .reelSnapshot tower ctx fault => ctxOk tower ctx && fault.fits
  | .batchClose => true
  | .journalWritten _ => true
  | .homeApplied _ => true
  | .applyRetry _ => true
  | .pageLock tower ctx mem _ => ctxOk tower ctx && memOk mem
  | .vaultCreate => true
  | .vaultAttach => true
  | .vaultDetach => true
  | .keepMapCommit => true
  | .arbCommit => true
  | .blkShadowCommit page _ => pageOk page
  | .blkIrqTest page _ => pageOk page
  | .blkLock page _ => pageOk page
  | .lowHalfRead fn off width => portOk fn && decide (off < 2 ^ 27) && widthOk width
  | .registerWrite fn off width value => portOk fn && decide (off < 2 ^ 27) && widthOk width && decide (value < 2 ^ width)
  | .acuEntryWrite off width value => decide (off < 2 ^ 27) && widthOk width && decide (value < 2 ^ width)
  | .mboxToMf tf _ => decide (tf < 1024)
  | .chFromMf tf _ => decide (tf < 1024)
  | .tfStop tf => decide (tf < 1024)
  | .tfStopClear tf => decide (tf < 1024)
  | .tfQuiesced tf => decide (tf < 1024)
  | .tfReset tf => decide (tf < 1024)
  | .tfResetDone tf => decide (tf < 1024)
  | .tfCease num => decide (num ≤ 1024)
  | .dirtyHarvest tf => decide (tf < 1024)
  | .harvestDone tf => decide (tf < 1024)
  | .qctxSave => true
  | .qctxRestore => true
  | .linkChange speed width _ => (speed == 0 || speed == 3 || speed == 4 || speed == 5) && (width == 1 || width == 2 || width == 4 || width == 8 || (speed == 0 && width == 0))
  | .mfFlr _ => true
  | .warmReset => true
  | .coldReset _ _ => true
  | .strapSample _ => true
  | .fuseLoad => true
  | .deviceReady lanes spires sources _ _ => lanes.all (fun e => towerOk e.1 && laneOk e.2.1 e.2.2) && spires.all towerOk && sources.all (fun i => decide (i < 6))
  | .domePowerUp _ => true
  | .tamperEvent _ _ vbat => decide (vbat < 4096)
  | .tamperToggle _ => true
  | .eraseDone => true
  | .keepEraseDone => true
  | .battLow vbat => decide (vbat < 4096)
  | .domeAck _ _ => true
  | .droop mv => decide (mv < 1024)
  | .droopRecovery mv => decide (mv < 1024)
  | .brownout mv => decide (mv < 1024)
  | .thermalReading temps => temps.length == 18
  | .throttleUpdate => true
  | .thermalStopped => true
  | .thermalStopTimeout => true
  | .selfTestStart part => part.fits
  | .selfTestDone part _ => part.fits
  | .spareTowerTest => true
  | .towerDrained tower => towerOk tower
  | .sparingFuseBurn _ => true
  | .noiseWindow src samples => decide (src < 6) && samples.length == 128
  | .seedReady => true
  | .drbgInstantiate inst => decide (inst < 18)
  | .drbgReseed inst => decide (inst < 18)
  | .drbgGenerate inst => decide (inst < 18)
  | .drbgRequestDone inst => decide (inst < 18)
  | .supCtxUnfreeze _ => true
  | .supViolPop _ => true
  | .tariffArm => true
  | .tariffCancel => true
  | .tariffSwitch => true
  | .intervalClose => true
  | .snapBankSwap => true
  | .reelCtrlPromenade => true
  | .promenade addr d _ seq => decide (seq < 65536) && decide (addr ≤ 1000) && decide (d < 2 ^ 24)
  | .promenadeEnd n seq => decide (seq < 65536) && decide (n ≤ 1001)
  | .topology n topo brk seq src => decide (src < 1000) && decide (seq < 65536) && decide (n ≤ 1001) && decide (topo < 4) && decide (brk < 1024)
  | .delayEcho _ _ => true
  | .laneSwap _ lane seq => decide (seq < 65536) && decide (lane < 3)
  | .reelLaneRetire _ lane => decide (lane < 3)
  | .reelLinkDown _ => true
  | .reelLinkUp _ => true
  | .breakNotice addr h => hdrOk h && reelOk addr
  | .retransmitTimeout _ cls => decide (cls < 4)
  | .linkAck _ cls seq credits => decide (cls < 4) && decide (seq < 65536) && credits.length == 8
  | .linkNak _ cls seq => decide (cls < 4) && decide (seq < 65536)
  | .reelWord h _ => hdrOk h
  | .witnessRec h record => hdrOk h && record.length == 64
  | .witnessAck h owner epoch => hdrOk h && reelOk owner && decide (epoch < 2 ^ 64)
  | .snapOrder bell issuer h => hdrOk h && decide (bell < 2 ^ 64) && reelOk issuer
  | .snapshotCapture => true
  | .snapAck h bell ans => hdrOk h && decide (bell < 2 ^ 64) && decide (ans < 256)
  | .setAck h bell captured missed => hdrOk h && decide (bell < 2 ^ 64) && decide (captured < 256) && decide (missed < 256)
  | .setGatherTimeout bell => decide (bell < 2 ^ 64)
  | .snapDoneTimeout => true
  | .peerQuery h payload => hdrOk h && decide (payload.length ≤ 4096)
  | .peerReply h payload => hdrOk h && decide (payload.length ≤ 4096)
  | .handoffPage h payload => hdrOk h && decide (payload.length ≤ 4096)
  | .handoffDesc h payload => hdrOk h && decide (payload.length ≤ 4096)
  | .cloneHello h payload => hdrOk h && decide (payload.length ≤ 4096)
  | .cloneReply h payload => hdrOk h && decide (payload.length ≤ 4096)
  | .cloneKey h payload => hdrOk h && decide (payload.length ≤ 4096)
  | .cloneDone h payload => hdrOk h && decide (payload.length ≤ 4096)
  | .cloneSessionExpiry => true
  | .reelReplyTimeout tower ctx => ctxOk tower ctx
  | .bellBlock low40 _ => decide (low40 < 2 ^ 40)
  | .bellAssert => true
  | .bellLoss => true
  | .timeFull number headState seq => decide (seq < 65536) && decide (number < 2 ^ 64) && decide (headState < 5)
  | .ppsEdge _ _ _ _ => true
  | .ppsWindowMissed => true
  | .todFrame frame _ raw => frame.length == 10 && raw.all (fun x => x.length == 16)
  | .timeSet => true
  | .ppsOutEnd => true
  | .todTx => true
  | .inputSample _ => true
  | .smbStatus code _ => decide (code < 256)
  | .smbTemps => true
  | .smbVolts => true
  | .smbIdent => true
  | .smbCounts => true
  | .smbAlert => true
  | .smbAlertResponse => true
  | .vddAonLoss vbat => decide (vbat < 4096)
  | .holdupOkLow => true
  | .vfEnable num => decide (num ≤ 1024)
  | .ctrlDone mem => memOk mem
  | .qctxCommandDone => true
  | .reelPortDrop _ _ _ seq => decide (seq < 65536)

end Sys2Proof
end

