-- ==== Sys2Proof/Tests/Slice0.lean ====
section
/-! SUPPORT. Small tests, each on one step or one formula with values worked out from the spec; ill-formed commands that the checks
refuse; and for every statement with hypotheses a concrete state and operands that meet them. -/

namespace Sys2Proof.Tests

set_option Elab.async false

open Sys2Proof.Machine

/-! ## Helpers -/

/-- A descriptor of opcode `op` with `b` from byte `off` on. -/
def desc (op off : Nat) (b : Bytes) : Bytes := patch (leBytes 2 op ++ zeros 126) off b

/-- A call of TF 0, queue pair 0. -/
def callOf (d : Bytes) : Call := { desc := d }

/-- Context 0 of tower 0 runs the figure of a call, with all its needs met. -/
def running (s : State) (d : Bytes) : State := s.setCtx 0 0 { st := .running, call := some (callOf d) }

/-- The same for a call of the MF. -/
def runningMf (s : State) (d : Bytes) : State := s.setCtx 0 0 { st := .running, call := some { callOf d with fn := mfNum } }

/-- Context 0 of tower 0 waits for a need. -/
def waiting (s : State) (d : Bytes) (n : Need) : State := s.setCtx 0 0 { st := .waiting, call := some (callOf d), needs := [n] }

/-- What a field of the next state is. -/
def after {α : Type} (o : Out) (f : State → α) : Option α :=
  match o with
  | .next s => some (f s)
  | _ => none

/-- A three-key TDES key. -/
def tdesKey : KeyRec := { alg := 2, usage := usageOf "P0", mode := chr "B", material := (List.range 24).map (BitVec.ofNat 8) }
/-- An AES-128 key. -/
def aesKey : KeyRec := { alg := 3, usage := usageOf "P0", mode := chr "B", material := (List.range 16).map (BitVec.ofNat 8) }

/-- A context with two keys that runs the figure of a descriptor. -/
def keyed (d : Bytes) (k0 k1 : KeyRec) : State := running {} d |>.setCtx 0 0 { st := .running, call := some (callOf d), keys := [some k0, some k1] }

/-- Device 1 of an open Reel of four, both ports up. -/
def reelSt (s : State) : State :=
  { s with reel := { s.reel with addressed := true, topo := 1, addr := 1, count := 4, up := { link := 2 }, dn := { link := 2 } } }

/-- A blank vault of the smallest geometry, ONLINE under the DMK of 32 zero bytes. -/
def vaultSt (s : State) : State :=
  { s with
    dev := { s.dev with ready := true }
    vault := { s.vault with st := 3, wins := (0, 2 ^ 16) :: List.replicate 15 (0, 0) }
    dome := { s.dome with
      cur := some (zeros 32)
      slots := ({ valid := true, vaultId := zeros 8, p := 0, j := 0, set0 := { dmkId := dmkId (zeros 32) }, root := zeros 64 }, {}) } }

/-- A call of two keys, both named 0, in context 0. -/
def keyedCall : State := running {} (desc 0x0101 0 [])

/-! ## The block's frame, admission and dispatch -/

/-- ECHO of TF 0 in context 0 of tower 0. -/
def echoSt : State := running {} (desc 1 64 [1, 2, 3])

theorem witness_StepRunsFrontCommand :
    ({ pending := [.admission] } : State).pending = .admission :: [] ∧ State.reset.pending = [] ∧
    atFigure echoSt 0 0 1 = true ∧ atFigure State.reset 0 0 1 = false := by decide +kernel

theorem witness_CallEndHandsOffCompletion :
    (echoSt.ctx 0 0).call = some (callOf (desc 1 64 [1, 2, 3])) ∧ jobAt echoSt 0 0 = none ∧ (echoSt.ctx 0 0).work.outLen = 0 ∧
    (echoSt.ctx 0 0).keysOk = false ∧
    byteAt (desc 1 64 [1, 2, 3]) 10 = (echoSt.qp 0 0).gen ∧ (callOf (desc 1 64 [1, 2, 3])).dead = false ∧
    (echoSt.tf 0).frozen = false := by decide +kernel

theorem witness_CallEndHandsOffCompletion_stale :
    let s := running {} (desc 1 10 [5])
    (s.ctx 0 0).call = some (callOf (desc 1 10 [5])) ∧ byteAt (desc 1 10 [5]) 10 ≠ (s.qp 0 0).gen := by decide +kernel

/-- A call of one key, in the tower's cache, whose checks passed. -/
def usedSt : State :=
  let s := running {} (desc 0x0708 0 [])
  s.setTower 0 { s.tower 0 with
    ctxs := (s.tower 0).ctxs.set 0 { s.ctx 0 0 with keysOk := true, keys := [some aesKey] }
    cache := [(3, { part := 0, cls := 0, idx := 0 })] }

theorem witness_CallEndHandsOffCompletion_key :
    (usedSt.ctx 0 0).keysOk = true ∧ stOk ≠ stDeviceFault ∧ stOk ≠ stStallBroken ∧ (usedSt.ctx 0 0).keys.length = 1 ∧
    0 < usedSt.towers.length ∧ hPart (handleOf (desc 0x0708 0 []) 0) = 0 ∧ hCls (handleOf (desc 0x0708 0 []) 0) = 0 ∧
    hIdx (handleOf (desc 0x0708 0 []) 0) = 0 := by decide +kernel

/-- R32: the completion build of a call whose key passed counts its use. -/
theorem test_key_use : ((finishCall usedSt 0 0 stOk 40 0 []).tower 0).cache.map (fun e => e.2.uses) = [1] := by decide +kernel

theorem witness_EchoReturnsItsPayload :
    atFigure echoSt 0 0 1 = true ∧ (echoSt.ctx 0 0).keepHit = false ∧ (echoSt.ctx 0 0).vaultHit = false ∧
    (echoSt.ctx 0 0).fetchCycles = 0 := by decide +kernel

/-- R94: 34 path cycles and the payload, three bytes of it here. -/
theorem test_echo : after (Machine.exec (.echo 0 0 .none) echoSt) (fun s => s.hif.cpls.map (fun c => (leAt c.bytes 8 4, sub c.bytes 16 4))) =
    some [(34, [1, 2, 3, 0])] := by decide +kernel

theorem witness_FigureFaultsEndCallsUntouched : atFigure echoSt 0 0 1 = true ∧ atFigure echoSt 0 0 2 = false := by decide +kernel

/-- TF 0 has one fetched descriptor. -/
def fetchedSt (d : Bytes) : State :=
  State.setQp ({ hif := { numTf := 1, speed := 5, width := 8 } } : State) 0 0 { enable := true, fetched := [d] }

theorem witness_AdmissionJudgesInOrder : let s := fetchedSt (desc 1 0 [])
    s.cycle % 4 = 0 ∧ s.caller.nextRound ≤ s.cycle ∧ queuesOpen (commitArb s) = true ∧ queueChoice (commitArb s) = some (0, 0) ∧ ((queueRound (commitArb s) 0 0).qp 0 0).fetched = desc 1 0 [] :: [] := by decide +kernel

theorem witness_AdmissionJudgesInOrder_fates : let s := fetchedSt (desc 1 0 [])
    let a := (queueRound s 0 0).setQp 0 0 { (queueRound s 0 0).qp 0 0 with fetched := [] }
    byteAt (desc 1 10 [1]) 10 ≠ (a.qp 0 0).gen ∧ byteAt (desc 1 0 []) 10 = (a.qp 0 0).gen ∧ leAt (desc 1 8 [1]) 8 2 ≠ 0 ∧
    opDefined (opOf (desc 0x00FF 0 [])) = false ∧ (opInfo false (desc 0x0C01 0 [])).mfOnly = true ∧
    (opInfo false (desc 0x0101 0 [])).part = true ∧ partBound a 0 (desc 0x0101 0 []) = false ∧
    partBound { a with bind := [(0, some 0)] } 0 (desc 0x0101 0 []) = true ∧
    reservedSet (opInfo false (desc 1 112 [1])) (desc 1 112 [1]) = true ∧ reservedSet (opInfo false (desc 1 0 [])) (desc 1 0 []) = false ∧
    lengthFault (opInfo false (desc 1 0 [])) (desc 1 0 []) = none ∧
    lengthFault (opInfo false (desc 0x0401 0 [])) (desc 0x0401 0 []) = some 0 := by decide +kernel

/-- A call of class urgent waits in the first queue. -/
def queuedSt : State := { caller := { queues := [[callOf (desc 1 0 [])], [callOf (desc 1 3 [1])], [], []], map := List.replicate 64 3 } }

theorem witness_DispatchFollowsClassOrder :
    (callOf (desc 1 0 [])).seq < 2 ^ 80 ∧
    (chooseHead queuedSt).map (fun x => (x.2.1, x.2.2)) = some (1, false) ∧
    (chooseHead { queuedSt with caller := { queuedSt.caller with limit := 2, starve := 2 } }).map (fun x => (x.2.1, x.2.2)) = some (0, true) ∧
    ((heads State.reset).filter (fun h => !(towersFor State.reset h.2).isEmpty)) = [] := by decide +kernel

theorem witness_DispatchPlacesCall :
    queuedSt.pwr.thermal < 2 ∧ queuedSt.caller.nextDispatch ≤ queuedSt.cycle ∧ (chooseHead queuedSt).map (·.1.desc) = some (desc 1 0 []) ∧
    towerFor queuedSt (callOf (desc 1 0 [])) = some 0 ∧ (freeCtxs queuedSt 0).head? = some 0 ∧
    (opInfo false (desc 1 0 [])).handles = 0 ∧ (opInfo false (desc 0x0101 0 [])).handles > 0 ∧
    queuedSt.caller.map.getD 0 0 ∈ towersFor queuedSt (callOf (desc 0x0101 0 [])) := by decide +kernel

/-- R27: a call with a key goes to its preferred tower, one without to the tower with the most free contexts, lowest number first. -/
theorem test_tower_choice : towerFor queuedSt (callOf (desc 0x0101 0 [])) = some 3 ∧ towerFor queuedSt (callOf (desc 1 0 [])) = some 0 := by
  decide +kernel

/-- R434: an entry of the tower key cache with an uncorrectable error is invalidated and counted, with no effect on another. -/
theorem test_cache_error :
    let s := keyedCall.setTower 0 { keyedCall.tower 0 with cache := [(0, { part := 0, cls := 0, idx := 9 }), (3, { part := 0, cls := 0, idx := 0 })] }
    let a := cacheErrors s 0 0 [0, 1] 2
    ((a.tower 0).cache.map (·.1), a.sup.eccUncorr, a.sup.eccCorr) = ([0], 1, 2) := by decide +kernel


/-- The figure holds the Spire, or lines of the Keep. -/
theorem witness_FigureFaultsEndCallsUntouched_units :
    let s := echoSt.setTower 0 { echoSt.tower 0 with spire := { half0 := some 0 } }
    let g := echoSt.setCtx 0 0 { echoSt.ctx 0 0 with grant := [4] }
    atFigure s 0 0 1 = true ∧ holdsSpire s 0 0 = true ∧ holdsSpire echoSt 0 0 = false ∧ atFigure g 0 0 1 = true ∧ (g.ctx 0 0).grant ≠ [] ∧
    (echoSt.ctx 0 0).grant = [] ∧ 0 < s.towers.length := by decide +kernel

/-- An access of a context that is refused, and one to the room of its partition. -/
theorem witness_FigureFaultsEndCallsUntouched_access :
    let d := desc 0x0101 0 []
    let p : State := { running {} d with keep := { liveRooms := [(0, some 0)] } }
    atFigure (running {} d) 0 0 0x0101 = true ∧ ((running {} d).ctx 0 0).call = some (callOf d) ∧
    ctxRefusal p (callOf d) d true 0x04000000 = some 5 ∧ ctxRefusal p (callOf d) d true 0x10000000 = none := by decide +kernel

theorem witness_AdmissionJudgesInOrder_states : 5 ≤ ({ lcs := { st := 5 } } : State).lcs.st ∧ (fetchedSt (desc 1 0 [])).lcs.st < 5 := by decide +kernel

/-- The jobs whose stop has a path of its own, and the two kinds of progress. -/
theorem witness_JobsStopAtResumePoints_ops :
    (∀ op ∈ ([0x0801, 0x0803, 0x0805, 0x0807, 0x0809, 0x0401, 0x0402] : List Nat), opOf (desc op 64 [4]) = op) ∧ par (desc 0x0401 64 [4]) 64 = 4 ∧
    streamOp 0x0401 = true ∧ streamOp 0x0801 = false := by decide +kernel
/-! ## Units: lanes, random bytes, jobs -/

theorem witness_LaneArbiterGrantsInRankOrder :
    let s := waiting {} (desc 0x0101 0 []) (.lanes false 6 1)
    bestBy (ctxRank s 0) (laneWaiters s 0 false) = some 0 ∧ laneAsk s 0 false 0 = some (6, 1) ∧ (freeLanes s 0 false).length < 6 := by
  decide +kernel

theorem witness_LaneArbiterGrantsInRankOrder_order :
    let s := (waiting {} (desc 0x0101 0 []) (.lanes false 3 1)).setCtx 0 1
      { st := .waiting, call := some (callOf (desc 0x0101 3 [1])), needs := [.lanes false 3 1] }
    (laneDecide 0 false 8 s (laneWaiters s 0 false)).2 = [0] ∧ laneWaiters s 0 false = [0, 1] ∧ ctxCls s 0 0 = 0 ∧ ctxCls s 0 1 = 1 := by
  decide +kernel

theorem witness_LaneGrantAndSave :
    let s := waiting {} (desc 0x0101 0 []) (.lanes false 5 1)
    let u := waiting {} (desc 0x0101 0 []) (.lanes false 6 1)
    laneWaiters s 0 false = [0] ∧ laneAsk s 0 false 0 = some (5, 1) ∧ 5 ≤ (freeLanes s 0 false).length ∧
    laneWaiters u 0 false = [0] ∧ (freeLanes u 0 false).length < 6 := by decide +kernel

/-- Context 0 holds lane 0, marked. -/
def markedSt : State := modLane (running {} (desc 0x0101 0 [])) 0 false 0 (fun l => { l with owner := some 0, marked := true })

theorem witness_LaneGrantAndSave_save :
    (((markedSt.tower 0).lanes false)[0]?).map (fun l => (l.owner, l.marked)) = some (some 0, true) ∧ 0 < markedSt.towers.length ∧
    0 < (markedSt.tower 0).ctxs.length ∧ ∀ m ∈ (markedSt.tower 0).lanes false, m.faulty = false := by decide +kernel

/-- R269: the save area has the configuration of the lane. -/
theorem test_save : after (Machine.exec (.laneSave 0 false 0 false) markedSt) (fun s => ((s.ctx 0 0).saved.map (·.config), (s.ctx 0 0).waits)) =
    some ([(((markedSt.tower 0).lanes false).getD 0 {}).config], 2) := by decide +kernel

theorem witness_LaneFaultLeavesNoEffect :
    atFigure markedSt 0 0 0x0101 = true ∧ (((markedSt.tower 0).lanes false)[0]?).map (·.owner) = some (some 0) ∧
    (((markedSt.tower 0).lanes false)[1]?).map (·.owner) = some none := by decide +kernel

/-- Context 0 draws 16 bytes, and the buffer holds `n`. -/
def drawSt (n : Nat) : State :=
  let s := waiting {} (desc 0x0101 0 []) (.draw 16)
  s.setTower 0 { s.tower 0 with buf := zeros n }

theorem witness_DrawsAreServedWholeInRankOrder :
    drawTurn (drawSt 16) 0 = some 0 ∧ drawLen (drawSt 16) 0 0 = some 16 ∧ 16 ≤ ((drawSt 16).tower 0).buf.length ∧
    ((drawSt 15).tower 0).buf.length < 16 ∧ starved (drawSt 15) 0 = false ∧
    starved { drawSt 15 with rng := { st := 2, insts := List.replicate 18 { st := 2 } } } 0 = true := by decide +kernel

/-- R277: a draw is served whole or not at all. -/
theorem test_draw : after (Machine.exec (.drbgDraw 0) (drawSt 16)) (fun s => ((s.ctx 0 0).work.drawn.length, (s.tower 0).buf.length)) = some (16, 0) ∧
    after (Machine.exec (.drbgDraw 0) (drawSt 15)) (fun s => ((s.ctx 0 0).work.drawn.length, (s.tower 0).buf.length)) = some (0, 15) := by
  decide +kernel

/-- A noise source in service in SERVING. -/
def noiseSt : State :=
  { rng := { st := 1, srcs := List.replicate 4 { role := 1 } ++ List.replicate 2 { role := 0 } }, lcs := { st := 3 } }

theorem witness_NoiseSourcesAndSeeds :
    let w : Bytes := List.replicate 128 0x55
    (noiseSt.rng.srcs[0]?).map (·.role) = some 1 ∧ noiseSt.lcs.st < 5 ∧ noiseSt.rng.st = 1 ∧ w.length = 128 ∧ 2 ≤ healthy noiseSt ∧
    noiseSt.sup.degradedSeen = supDegraded noiseSt ∧ (samplesOf w).length = 1024 ∧ longestRun (samplesOf w) < 61 ∧
    ((samplesOf w).filter (fun b => some b == (samplesOf w).head?)).length < 840 := by decide +kernel

theorem witness_NoiseSourcesAndSeeds_starved : ∀ j, starved noiseSt j = false := by
  intro j
  simp [starved, noiseSt]

/-- R273: a run of 61 equal samples fails the repetition count test. -/
theorem test_repetition : repOk (List.replicate 61 true) = false ∧ repOk (List.replicate 60 true ++ [false]) = true := by decide +kernel

theorem witness_NoiseSourcesAndSeeds_seeds :
    windowPair [(0, [1]), (0, [2]), (1, [3])] = some ([1], [3], [(0, [2])]) ∧
    seedTurn { rng := { pool := [zeros 32, zeros 32] } } = some 0 ∧ (inst { rng := { pool := [zeros 32, zeros 32] } } 0).st = 0 ∧
    seedTurn { rng := { pool := [zeros 32], insts := List.replicate 18 { st := 2 } } } = some 0 ∧
    (inst { rng := { insts := List.replicate 18 { st := 1 } } } 16).busy = 0 ∧
    (({} : State).tower 16).buf.length ≤ 192 ∧ 16 < ({} : State).towers.length ∧
    (inst { rng := { insts := List.replicate 18 { st := 1, busy := 1 } } } 16).left = 0 ∧
    (inst { rng := { insts := List.replicate 18 { st := 2, busy := 2 } } } 16).busy = 2 ∧
    (inst { rng := { insts := List.replicate 18 { st := 2, busy := 2 } } } 16).left = 0 ∧
    (inst { rng := { insts := List.replicate 18 { st := 2 } } } 0).st = 2 := by decide +kernel

/-- RANDOM of `n` bytes, inline. -/
def randomSt (n : Nat) : State := running { rng := { insts := List.replicate 18 { st := 1 } } } (desc 0x0901 64 (leBytes 4 n))

theorem witness_RandomIsOneRequestOfInstance17 :
    atFigure (randomSt 16) 0 0 0x0901 = true ∧ starved (randomSt 16) 17 = false ∧ randomEarlier (randomSt 16) 0 0 = false ∧
    (inst (randomSt 16) 17).st = 1 ∧ formOf (workDesc (randomSt 16) 0 0) ≠ 2 ∧
    (inst { randomSt 16 with rng := {} } 17).st ≠ 1 ∧
    randomEarlier ((randomSt 16).setCtx 0 0 { (randomSt 16).ctx 0 0 with work := { (randomSt 16 |>.ctx 0 0).work with vals := [5] } }
      |>.setCtx 0 1 ((randomSt 16).ctx 0 0)) 0 0 = true ∧
    starved { randomSt 16 with rng := { st := 2, insts := List.replicate 18 { st := 2 } } } 17 = true := by decide +kernel

theorem witness_RandomIsOneRequestOfInstance17_list :
    let s := running { rng := { insts := List.replicate 18 { st := 1 } } } (desc 0x0901 2 [2])
    atFigure s 0 0 0x0901 = true ∧ formOf (workDesc s 0 0) = 2 ∧ (writeOut s 0 0 []).2 = true := by decide +kernel

/-- A job operation `op` on a job of tag 0, and the job. -/
def jobOpSt (op : Nat) (j : List Job) : State := { running {} (desc op 0 []) with jobs := j }

theorem witness_JobOperationsActOnTheirTarget :
    atFigure (jobOpSt 2 []) 0 0 2 = true ∧ jobOpEarlier (jobOpSt 2 []) 0 0 (workDesc (jobOpSt 2 []) 0 0) = false ∧
    targetJob (jobOpSt 2 []) (callOf (desc 2 0 [])) = none ∧
    (targetJob (jobOpSt 2 [{ suspended := true }]) (callOf (desc 2 0 []))).map (·.suspended) = some true ∧
    (targetJob (jobOpSt 2 [{ at_ := (1, 0) }]) (callOf (desc 2 0 []))).map (fun j => (j.suspended, carrierStale (jobOpSt 2 []) j)) =
      some (false, false) ∧
    atFigure (jobOpSt 3 [{ at_ := (1, 0) }]) 0 0 3 = true ∧ atFigure (jobOpSt 4 [{ at_ := (1, 0) }]) 0 0 4 = true ∧
    atFigure (jobOpSt 5 [{ at_ := (1, 0) }]) 0 0 5 = true ∧
    leAt (workDesc (runningMf {} (desc 2 68 [1])) 0 0) 68 2 ≠ mfNum := by decide +kernel

/-- A rekey between two pages in context 0 of tower 0, the job of the context. -/
def jobSt (j : Job) : State :=
  { waiting {} (desc 0x0A01 0 []) .page with jobs := [{ j with call := callOf (desc 0x0A01 0 []) }] }

theorem witness_JobsStopAtResumePoints :
    (jobAt (jobSt { suspendBy := some (1, 0) }) 0 0).map (·.suspendBy) = some (some (1, 0)) ∧
    atResume (jobSt { suspendBy := some (1, 0) }) 0 0 = true ∧
    (jobAt (jobSt { cancelBy := some (1, 0) }) 0 0).map (·.cancelBy) = some (some (1, 0)) ∧
    atResume (jobSt { cancelBy := some (1, 0) }) 0 0 = true ∧
    (jobAt ((jobSt {}).setCtx 0 0 { (jobSt {}).ctx 0 0 with needs := [] }) 0 0).isSome = true ∧
    atResume ((jobSt {}).setCtx 0 0 { (jobSt {}).ctx 0 0 with needs := [] }) 0 0 = false := by decide +kernel

/-- A function whose MSI-X is enabled and whose vector is open, and one that masks them all. -/
theorem witness_CoalescingTimerSignals_msix :
    let s := ({} : State).setMsix mfNum { enable := true, table := [(3, (0x1000, 7, false))] }
    (({} : State).msix mfNum).enable = false ∧ (s.msix mfNum).enable = true ∧ (tblGet (0, 0, true) (s.msix mfNum).table 3).2.2 = false ∧
    (s.msix mfNum).fmask = false ∧ (tblGet (0, 0, true) (s.msix mfNum).table 4).2.2 = true := by decide +kernel

theorem witness_DrawsAreServedWholeInRankOrder_order :
    let s := (drawSt 16).setCtx 0 1 { st := .waiting, call := some (callOf (desc 0x0101 3 [1])), needs := [.draw 16] }
    drawTurn s 0 = some 0 ∧ (drawLen s 0 1).isSome = true ∧ ctxCls s 0 0 ≤ 3 ∧ ctxCls s 0 1 ≤ 3 ∧ (s.ctx 0 0).age < 2 ^ 64 ∧ (s.ctx 0 1).age < 2 ^ 64 := by
  decide +kernel
/-! ## The host interface -/

/-- TF 0 exists, the device is ready, and queue pair 0 of it is as given. -/
def qpSt (x : Qp) : State := State.setQp ({ dev := { ready := true }, hif := { numTf := 1, speed := 5, width := 8 } } : State) 0 0 x

theorem witness_DoorbellsMoveTheRings :
    qpShut (qpSt { enable := true }) 0 0 = false ∧ ((qpSt {}).qp 0 0).enable = false ∧ ((qpSt { enable := true }).qp 0 0).enable = true ∧
    (let x : Qp := { cqHead := 15, cqTail := 3 }
     let dist := fun (b : Nat) => (b + 2 ^ x.cqK - x.cqHead) % 2 ^ x.cqK
     1 ≤ dist 3 ∧ dist 3 ≤ dist x.cqTail ∧ dist 15 = 0 ∧ dist x.cqTail < dist 4 ∧ 1 ≤ dist 0) := by decide +kernel

/-- R53: a value of 2^K is a reserved encoding, 2^K - 1 is not. -/
theorem test_tail : after (Machine.exec (.qpSqTailDb 0 0 15) (qpSt { enable := true })) (fun s => (s.qp 0 0).sqTail) = some 15 ∧
    after (Machine.exec (.qpSqTailDb 0 0 16) (qpSt { enable := true })) (fun s => ((s.qp 0 0).sqTail, (s.head pgHif).werr)) =
      some (0, true) := by decide +kernel

/-- R55: a head beyond the tail is CQ_HEAD_RANGE. -/
theorem test_head_range : after (Machine.exec (.qpCqHeadDb 0 0 4) (qpSt { enable := true, cqTail := 3 })) (fun s => (s.qp 0 0).err) = some 1 := by
  decide +kernel

theorem witness_QueueResetsAndEnables :
    qpShut (qpSt {}) 0 0 = false ∧ ((qpSt {}).qp 0 0).enable = false ∧ ((qpSt { old := 1 }).qp 0 0).old ≠ 0 ∧
    ((qpSt { enable := true }).qp 0 0).old = 0 ∧ qpExists (qpSt { heldReset := some true }) 0 0 = true ∧
    ((qpSt { heldReset := some true }).qp 0 0).heldReset = some true ∧ ((qpSt { heldReset := some true }).qp 0 0).old = 0 := by decide +kernel

/-- R63: GEN wraps at 256. -/
theorem test_gen_wraps : after (Machine.exec (.queueReset 0 0 true false) (qpSt { gen := 255, enable := true })) (fun s => (s.qp 0 0).gen) = some 0 := by
  decide +kernel

theorem witness_DescriptorReadsStayWithinLimits :
    let s := qpSt { enable := true, sqHead := 14, sqTail := 3 }
    let x := s.qp 0 0
    qpExists s 0 0 = true ∧ x.enable = true ∧ x.err = 0 ∧ qpHeld s 0 = false ∧ s.hif.np < 768 ∧ x.sqHead < 2 ^ x.sqK ∧
    x.sqTail < 2 ^ x.sqK ∧ x.sqHead ≠ x.sqTail ∧ qpOutstanding x < 2 ^ x.cqK - 1 ∧
    x.reads = [] := by decide +kernel

/-- R49: no read crosses the ring's end. -/
theorem test_fetch_end : after (Machine.exec (.descFetch 0 0) (qpSt { enable := true, sqHead := 14, sqTail := 3 }))
    (fun s => (s.qp 0 0).reads.map (fun r => (r.first, r.count))) = some [(14, 2)] := by decide +kernel

theorem witness_DescriptorsArriveInRingOrder :
    (((qpSt { reads := [{ first := 2, count := 1, issued := true }] }).qp 0 0).reads.head?).map
      (fun r => (r.issued, r.data, r.dropped)) = some (true, none, false) ∧
    ansBytes .timeout = none := by decide +kernel

/-- A completion waits for TF 0, queue pair 0, whose completion tail is 15. -/
def cplSt : State :=
  let s := qpSt { enable := true, cqTail := 15, cqHead := 1, cqBase := 0x10000, coalLog := 2 }
  { s with
    hif := { s.hif with cplGranted := true, cpls := [{ fn := 0, qp := 0, bytes := List.replicate 64 2, irqNow := false }] }
    acu := { tf := [(0, { valid := true, rd := true, wr := true, base := 0x10000, size := 0 })] } }

theorem witness_CompletionEntryIsWrittenAtTheTail :
    let s := cplSt
    let x := s.qp 0 0
    s.hif.cpls.findIdx? (fun e => e.fn == 0 && e.qp == 0) = some 0 ∧ (s.hif.cpls[0]?).map (fun c => (c.bytes.length, c.irqNow)) = some (64, false) ∧
    s.hif.cplGranted = true ∧ (s.tf 0).frozen = false ∧ (s.tf 0).dirtyEn = false ∧ ringDist x.cqK x.cqHead x.cqTail ≠ 2 ^ x.cqK - 1 ∧
    (x.cqBase + 64 * x.cqTail) % 4096 + 64 ≤ 4096 ∧ x.unsignalled + 1 < 2 ^ x.coalLog ∧
    hostRefusal s 0 true (x.cqBase + 64 * x.cqTail) = none ∧ tblWf (0 : Byte) s.host = true ∧ tblWf ({} : Qp) s.hif.qps = true := by
  decide +kernel

/-- R51: byte 7 bit 0 is the phase, which inverts as the tail wraps. -/
theorem test_completion : after (Machine.exec (.completionWrite 0 0) cplSt)
    (fun s => (tblGet (0 : Byte) s.host 0x103C7, (s.qp 0 0).cqTail, (s.qp 0 0).phase)) = some (3, 0, false) := by decide +kernel

theorem witness_CoalescingTimerSignals :
    let x : Qp := { unsignalled := 1, coalTime := 1, coalAge := 1024 }
    0 < x.unsignalled ∧ x.coalTime ≠ 0 ∧ 1024 * x.coalTime ≤ x.coalAge ∧ 1023 < 1024 * x.coalTime := by decide

/-- TF 0 is as given, and the device is ready. -/
def tfSt (t : Tf) : State := State.setTf (qpSt {}) 0 t

theorem witness_MailboxDeliversOrDrops :
    (tfSt {}).dev.ready = true ∧ 0 < (tfSt {}).hif.numTf ∧ ((tfSt {}).tf 0).frozen = false ∧ ((tfSt {}).tf 0).toMfFull = false ∧
    ((tfSt { toMfFull := true }).tf 0).toMfFull = true ∧ ((tfSt { frozen := true }).tf 0).frozen = true ∧
    ((tfSt { fromMfFull := true }).tf 0).fromMfFull = true := by decide +kernel

/-- R60: a word to a full channel is dropped and counted. -/
theorem test_drop : after (Machine.exec (.mboxToMf 0 7) (tfSt { toMfFull := true, toMf := 3, toMfDrops := 255 }))
    (fun s => ((s.tf 0).toMf, (s.tf 0).toMfDrops)) = some (3, 255) := by decide +kernel

theorem witness_TfStopsQuiescesAndCeases :
    (tfSt {}).dev.ready = true ∧ 0 < (tfSt {}).hif.numTf ∧ (tfSt {}).hif.numTf ≤ 1024 ∧ ((tfSt { stop := true }).tf 0).stop = true ∧
    ((tfSt { stop := true }).tf 0).quiesced = false ∧ tfDrained (tfSt { stop := true }) 0 = true ∧
    ((tfSt { resetting := true }).tf 0).resetting = true ∧ (∀ q, q < 8 → ((tfSt { resetting := true }).qp 0 q).old = 0 ∧ ((tfSt { resetting := true }).qp 0 q).heldReset = none) ∧
    (tfSt {}).hif.numTf ≤ 1023 ∧ 0 < (tfSt {}).hif.numTf ∧ State.reset.hif.numTf = 0 := by decide +kernel

theorem witness_TfResetClearsOnlyItsOwnState :
    0 < (tfSt { frozen := true }).hif.numTf ∧ tblWf ({} : Tf) (tfSt { frozen := true }).hif.tfs = true ∧
    tblWf ({} : Qp) (tfSt { frozen := true }).hif.qps = true ∧ (tfSt { frozen := true }).hif.numTf ≤ 1024 ∧
    ((tfSt { frozen := true }).qp 0 0).old = 0 ∧ ((qpSt { old := 2 }).qp 0 0).old ≠ 0 := by decide +kernel

/-- R65: a TF reset is held for a queue pair whose RESET_BUSY is 1, and done at once for another. -/
theorem test_tf_reset : after (Machine.exec (.tfReset 0) (qpSt { old := 2, gen := 4, sqK := 9 }))
    (fun s => ((s.qp 0 0).gen, (s.qp 0 0).heldReset, (s.qp 0 1).gen, (s.tf 0).gen)) = some (4, some false, 1, 1) := by decide +kernel

theorem witness_HarvestSwitchesTheDirtyBuffer :
    ((tfSt { dirtyEn := true }).tf 0).dirtyEn = true ∧ ((tfSt { dirtyEn := true }).tf 0).flush = none ∧
    ((tfSt { dirtyEn := true, flush := some [1] }).tf 0).flush = some [1] := by decide +kernel

theorem witness_QueueContextSavesAndRestores :
    let s := tfSt { stop := true, quiesced := true }
    s.dev.ready = true ∧ s.hif.qctxBusy = 0 ∧ s.hif.qctxTf < s.hif.numTf ∧ (s.tf 0).quiesced = true ∧ (s.tf 0).stop = true ∧
    (s.qp 0 0).enable = false ∧ qctxBad (qctxImageOf ({} : Qp)) = false := by decide +kernel

/-- R73: a queue pair with every field at the top of its range. -/
theorem witness_QueueContextSavesAndRestores_range :
    let x : Qp := { sqBase := 2 ^ 64 - 4096, cqBase := 2 ^ 64 - 4096, sqK := 16, cqK := 16, prio := 3, gen := 255, sqHead := 65535, sqTail := 65535, cqTail := 65535, cqHead := 65535, coalLog := 15, coalTime := 255 }
    x.sqBase % 4096 = 0 ∧ x.sqHead < 2 ^ x.sqK ∧ qctxBad (qctxImageOf x) = false ∧ (qctxApply {} (qctxImageOf x)) = x := by decide +kernel


/-- PIN_CHANGE from 1234 to 4321 under a TDES key, by the offset whose natural PIN key is the second key. -/
theorem witness_PinVerificationVerdicts_change_verdict :
    let q := panDigits (desc 0 64 [0x40, 0, 0, 0x12, 0x34, 0x56, 0x78, 0x99, 0xFF, 0xFF]) 64
    let b := fun (l : List Nat) => fit 16 (pinEncipher tdesKey 0 q (pinEncode 0 l []))
    let v := { aesKey with usage := usageOf "V1" }
    let d := desc 0x0106 64 ([0x40, 0, 0, 0x12, 0x34, 0x56, 0x78, 0x99, 0xFF, 0xFF] ++ zeros 6 ++ b [1, 2, 3, 4] ++ b [4, 3, 2, 1])
    let s := keyed d tdesKey v
    atFigure s 0 0 0x0106 = true ∧ changeOk (keyOf s 0 0 0) q (sub d 80 16) = true ∧ changeOk (keyOf s 0 0 0) q (sub d 96 16) = true ∧
    changeFmt (keyOf s 0 0 0) (sub d 96 16) = changeFmt (keyOf s 0 0 0) (sub d 80 16) ∧ (keyOf s 0 0 1).usage = usageOf "V1" ∧ aesKey.usage ≠ usageOf "V1" ∧
    d.length = 128 := by decide +kernel
/-! ## PIN and DUKPT figures -/

/-- Every figure of a call can stand at its figure. -/
theorem witness_figures : ∀ op ∈ ([0x0001, 0x0101, 0x0102, 0x0103, 0x0104, 0x0105, 0x0106, 0x0107, 0x0201, 0x0202, 0x0203, 0x0301, 0x0302, 0x0303,
    0x0304, 0x0305, 0x0401, 0x0402, 0x0501, 0x0502, 0x0503, 0x0601, 0x0602, 0x0603, 0x0701, 0x0702, 0x0703, 0x0704, 0x0705, 0x0706, 0x0707,
    0x0708, 0x0709, 0x070A, 0x070B, 0x070C, 0x0801, 0x0802, 0x0803, 0x0804, 0x0805, 0x0806, 0x0807, 0x0808, 0x0901, 0x0A01, 0x0A02, 0x0A03,
    0x0A04, 0x0A05, 0x0A06, 0x0B01, 0x0B02, 0x0C01, 0x0C02, 0x0C03, 0x0D01, 0x0D02, 0x0D03] : List Nat),
    atFigure (running {} (desc op 0 [])) 0 0 op = true := by decide +kernel

theorem witness_NewPinFieldKeepsThePinDigits : ∀ f ∈ ([0, 1, 3, 4] : List Nat), ∀ n ∈ ([4, 12] : List Nat),
    fmtOk f = true ∧ (∀ x ∈ List.replicate n 9, x < 10) ∧ padDraw f n ≤ (zeros 8).length := by decide +kernel

/-- R121: the field of a 4-digit PIN in formats 0 and 3. -/
theorem test_pin_field : pinEncode 0 [1, 2, 3, 4] [] = [0, 4, 1, 2, 3, 4, 15, 15, 15, 15, 15, 15, 15, 15, 15, 15] ∧
    pinEncode 3 [1, 2, 3, 4] [0x0F, 0x67, 0x00, 0x00, 0x00] = [3, 4, 1, 2, 3, 4, 10, 13, 10, 11, 10, 10, 10, 10, 10, 10] := by decide +kernel

/-- A PIN block of the PIN 1234 under the TDES key, for the PAN of the spec's example. -/
def pinBlock : Bytes := pinEncipher tdesKey 0 (panDigits (desc 0 68 [0x40, 0, 0, 0x12, 0x34, 0x56, 0x78, 0x99, 0xFF, 0xFF]) 68) (pinEncode 0 [1, 2, 3, 4] [])
/-- The descriptor of a PIN figure over a block. -/
def pinDesc (op src dst : Nat) (b : Bytes) : Bytes :=
  patch (desc op 64 (leBytes 1 src ++ leBytes 1 dst ++ [0, 0] ++ [0x40, 0, 0, 0x12, 0x34, 0x56, 0x78, 0x99, 0xFF, 0xFF])) 80 b
/-- The whole path: the PIN that was enciphered is recovered, and another block fails the check. -/
theorem witness_PinTranslationDrawsThenEnciphers :
    let d := pinDesc 0x0101 0 4 pinBlock
    let s := keyed d tdesKey aesKey
    atFigure s 0 0 0x0101 = true ∧
    pinFieldOk 0 (pinRecover (keyOf s 0 0 0) 0 (panDigits d 68) (sub d 80 16)) = true ∧
    pinDigits (pinRecover (keyOf s 0 0 0) 0 (panDigits d 68) (sub d 80 16)) = [1, 2, 3, 4] ∧
    (drawnOf s 0 0).length < padDraw 4 4 ∧ padDraw 0 4 ≤ (drawnOf s 0 0).length ∧
    pinFieldOk 0 (pinRecover (keyOf s 0 0 0) 0 (panDigits d 68) (zeros 16)) = false := by decide +kernel

/-- R122: a TDES source and a TDES destination of the same format take 80 cycles. -/
theorem test_pin_translate : after (Machine.exec (.pinTranslate 0 0 .none) (keyed (pinDesc 0x0101 0 0 pinBlock) tdesKey tdesKey))
    (fun s => s.hif.cpls.map (fun c => (leAt c.bytes 4 2, leAt c.bytes 8 4, sub c.bytes 16 8))) = some [(0, 80, pinBlock.take 8)] := by decide +kernel

/-- A PIN_FROM_DUKPT to format 1 whose block, of format 0, holds the PIN 1234 under the working key, or zeros. -/
def dukSt (good : Bool) : State :=
  let ksn : Bytes := zeros 9 ++ [1, 0, 0]
  let work : KeyRec := { material := dukKey 1 0 0 tdesKey ksn }
  keyed (patch (patch (pinDesc 0x0107 0 1 (if good then pinEncipher work 0
    (panDigits (desc 0 68 [0x40, 0, 0, 0x12, 0x34, 0x56, 0x78, 0x99, 0xFF, 0xFF]) 68) (pinEncode 0 [1, 2, 3, 4] []) else zeros 16)) 66 [1]) 96 ksn)
    tdesKey tdesKey

theorem witness_PinTranslationDrawsThenEnciphers_dukpt :
    let d := workDesc (dukSt true) 0 0
    let p := pinRecover { material := dukKey 1 0 0 (keyOf (dukSt true) 0 0 0) (sub d 96 12) } 0 (panDigits d 68) (sub d 80 16)
    atFigure (dukSt true) 0 0 0x0107 = true ∧ par d 64 = 0 ∧ par d 65 = 1 ∧ par d 66 = 1 ∧ pinFieldOk 0 p = true ∧
    pinDigits p = [1, 2, 3, 4] ∧ (drawnOf (dukSt true) 0 0).length < padDraw 1 4 ∧ padDraw 0 4 ≤ (drawnOf (dukSt true) 0 0).length ∧
    pinFieldOk 0 (pinRecover { material := dukKey 1 0 0 (keyOf (dukSt true) 0 0 0) (sub d 96 12) } 0 (panDigits d 68) (zeros 16)) = false := by
  decide +kernel

/-- 04, example of R125: the offset 31 19 of the natural PIN 8125 and the PIN 1234, and back. -/
theorem test_offset : offBytes (pinOffset [8, 1, 2, 5] [1, 2, 3, 4]) = [0x31, 0x19, 0xFF, 0xFF, 0xFF, 0xFF] ∧
    offsetPin [8, 1, 2, 5] [3, 1, 1, 9] = [1, 2, 3, 4] ∧ dectabOk (nibbles [0x01, 0x23, 0x45, 0x67, 0x89, 0xAB, 0xCD, 0xEF]) = false := by decide +kernel

theorem witness_PinVerificationVerdicts :
    let d := pinDesc 0x0106 0x40 0 (zeros 32)
    (∀ op ∈ ([0x0102, 0x0103, 0x0104, 0x0105, 0x0106] : List Nat), (pinDesc op 0 4 pinBlock).length = 128 ∧ par (pinDesc op 0 4 pinBlock) 65 ≤ 12) ∧
    changeOk tdesKey (panDigits d 64) (sub d 80 16) = false := by decide +kernel

theorem witness_PinVerificationVerdicts_change :
    let b := pinEncipher tdesKey 0 (panDigits (desc 0 64 [0x40, 0, 0, 0x12, 0x34, 0x56, 0x78, 0x99, 0xFF, 0xFF]) 64) (pinEncode 0 [1, 2, 3, 4] [])
    let d := desc 0x0106 64 ([0x40, 0, 0, 0x12, 0x34, 0x56, 0x78, 0x99, 0xFF, 0xFF] ++ zeros 6 ++ fit 16 b ++ fit 16 b)
    changeOk tdesKey (panDigits d 64) (sub d 80 16) = true ∧ changeFmt tdesKey (sub d 96 16) = changeFmt tdesKey (sub d 80 16) ∧
    changeFmt tdesKey (sub d 96 16) ≠ changeFmt tdesKey (zeros 16) := by decide +kernel

/-- R141, R142: the two worked path examples of DUKPT_MAC_VERIFY. -/
theorem test_dukpt_path : dukPath 0x0203 (patch (desc 0x0203 2 [1]) 48 ([8] ++ zeros 15 ++ [1])) false 2 = 158 ∧
    dukPath 0x0203 (patch (desc 0x0203 2 [1]) 48 ([8] ++ zeros 15 ++ [2])) false 3 = 164 := by decide +kernel

/-- R133: 17 one bits are refused, 16 are not. -/
theorem test_counter_ones : counterOnes 0x1FFFF = 17 ∧ counterOnes 0xFFFF = 16 := by decide +kernel

theorem witness_DukptFiguresComplete :
    atFigure (running {} (desc 0x0201 0 [])) 0 0 0x0201 = true ∧ formOf (desc 0x0202 2 [1]) = 1 ∧ formOf (desc 0x0202 2 [2]) ≠ 1 := by decide +kernel

/-! ## Card values, cryptograms, data and tokens -/

/-- 05, example of R147: the first and the second scan. -/
theorem test_cvv_scan : cvvScan (nibbles [0x3E, 0x7A, 0x91, 0xC4, 0xB0, 0x5D, 0x28, 0xF6]) = [3, 7, 9] ∧
    cvvScan (nibbles [0xB3, 0xEA, 0xFC, 0xDE, 0xAF, 0xCB, 0xDA, 0x7E]) = [3, 7, 1] ∧ cvvBytes [3, 7, 9] = [0x37, 0x9F] := by decide +kernel

theorem witness_CardValuesHaveThreeDigits : let n := nibbles [0x3E, 0x7A, 0x91, 0xC4, 0xB0, 0x5D, 0x28, 0xF6]
    let m := nibbles [0xB3, 0xEA, 0xFC, 0xDE, 0xAF, 0xCB, 0xDA, 0x7E]
    n.length = 16 ∧ (∀ x ∈ n, x < 16) ∧ 3 ≤ (n.filter (· < 10)).length ∧ m.length = 16 ∧ (m.filter (· < 10)).length < 3 := by decide +kernel

theorem witness_CryptogramsAndMacsComplete :
    par (desc 0x0304 65 [2, 0, 8]) 65 = 2 ∧ par (desc 0x0304 65 [2, 0, 8]) 67 ≤ 8 ∧ 1 ≤ par (desc 0x0401 64 [9]) 64 ∧ par (desc 0x0401 64 [9]) 64 ≤ 9 ∧
    atFigure (running {} (desc 0x0401 64 [9])) 0 0 0x0401 = true := by decide +kernel

/-- 01, example of R35: CMAC with AES-128 over 3 blocks takes 52 + 2 · 6 cycles, before the 14 of a key in the Keep. -/
theorem test_mac_path : macPath 4 0 48 6 = 64 := by decide +kernel

theorem witness_DataCallsWriteThenJudge :
    let s := keyed (desc 0x0501 2 [1]) aesKey aesKey
    atFigure s 0 0 0x0501 = true ∧ (s.ctx 0 0).work.done = false ∧ formOf (workDesc s 0 0) = 1 ∧ aead (par (workDesc s 0 0) 64) = false ∧
    dataTagOk (keyed (desc 0x0502 2 [1]) aesKey aesKey) 0 0 = true ∧ aead (par (desc 0x0501 64 [3]) 64) = true := by decide +kernel

/-- DATA_DECRYPT with GCM of 16 bytes that are all tag. -/
def gcmSt : State :=
  let s := keyed (patch (patch (desc 0x0502 2 [1]) 48 [16]) 64 [3, 0, 16]) aesKey aesKey
  s.setCtx 0 0 { s.ctx 0 0 with work := { input := zeros 16 } }

theorem witness_DataCallsWriteThenJudge_tag : atFigure gcmSt 0 0 0x0502 = true ∧ dataTagOk gcmSt 0 0 = false := by decide +kernel

/-- A record of class 0 with index 0 in the Keep, whose encryption count is `n`. -/
def countedSt (n : Nat) : State :=
  let s := keyed (desc 0x0501 64 [3]) aesKey aesKey
  let k : KeyRec := { format := 1, alg := 3, lines := 2, aead := n, keylen := 16, material := zeros 16 }
  (copiesOf 0 0 (encodeRec k)).foldl (fun a x => putLine a 0 0 x.2.1 x.2.2.2 .pinned x.2.2.1)
    (s.setCtx 0 0 { s.ctx 0 0 with work := { done := true } })

theorem witness_DataCallsWriteThenJudge_count : let s := countedSt 5
    (s.ctx 0 0).work.done = true ∧ (keepRec s 0 0 0).map (fun k => (k.format, k.check, k.aead)) = some (1, hCheck 0, 5) ∧ hCls 0 ≠ 1 ∧
    (keepRec (countedSt (2 ^ 32)) 0 0 0).map (·.aead) = some (2 ^ 32) := by decide +kernel

/-- R164: the window wraps at the end of the table. -/
theorem test_window : probeWindow { ext := [20] ++ zeros 15 } false 0x93C10A5E7D2FFFFE = [0xFFFFE, 0xFFFFF, 0x00000, 0x00001] := by decide +kernel

/-- The 8 lines of the two windows that a token figure takes. -/
def tokLines (s : State) : List Nat :=
  let v := tokView s 0 0
  let de := v.op == 0x0602
  let a := probe v.ikey de v.digits
  probeWindow v.k de a.1 ++ probeWindow v.k (!de) (probe v.ikey (!de) (tokOther v ((s.ctx 0 0).work.vals.getD 1 0))).1

/-- TOKENIZE, DETOKENIZE or TOKEN_RETIRE in a phase, with empty windows in the Keep. -/
def tokSt (op phase : Nat) (vals : List Nat) : State :=
  let d := desc op 64 ([6, 4, 0, 0] ++ [0x40, 0, 0, 0x12, 0x34, 0x56, 0x78, 0x99, 0xFF, 0xFF])
  let k := { aesKey with usage := usageOf "10", ext := [4] ++ zeros 15 }
  let s := keyed d k k
  let s1 := s.setCtx 0 0 { s.ctx 0 0 with work := { phase := phase, vals := vals } }
  (tokLines s1).foldl (fun a i => putLine a 0 1 i (zeros 64) .clean none) s1

theorem witness_TokenFiguresChangeBothWindowsAtOnce :
    let s := tokSt 0x0601 2 []
    let v := tokView s 0 0
    let a := probe v.ikey false v.digits
    let ep := windowEnts s v.p (probeWindow v.k false a.1)
    atFigure s 0 0 0x0601 = true ∧ (∀ i ∈ tokLines s, (keepLine s v.p 1 i).isSome = true) ∧
    entsBad ep = false ∧ panStep ep a.2 = some (0, 0, true) ∧ ep.length = 16 ∧
    freeEnt ep [0, 2] = some 0 ∧ findEnt ep a.2 1 = none := by decide +kernel

theorem witness_TokenFiguresChangeBothWindowsAtOnce_phases :
    ((tokSt 0x0601 0 []).ctx 0 0).work.phase = 0 ∧ ((tokSt 0x0602 1 []).ctx 0 0).work.phase = 1 ∧
    (∀ i ∈ (tokLines (tokSt 0x0602 1 [])).take 4, (keepLine (tokSt 0x0602 1 []) 0 1 i).isSome = true) := by decide +kernel

theorem witness_TokenFiguresChangeBothWindowsAtOnce_steps :
    panStep (List.replicate 16 ⟨7, 1, 5⟩) 7 = some (0, 5, false) ∧ panStep (List.replicate 16 ⟨7, 2, 5⟩) 7 = some (0, 6, true) ∧
    panStep (List.replicate 16 ⟨8, 1, 5⟩) 7 = none ∧ panStep (List.replicate 16 ⟨7, 2, 255⟩) 7 = some (0, 256, true) ∧
    freeEnt (List.replicate 16 ⟨8, 1, 5⟩) [0, 2] = none ∧ findEnt (List.replicate 16 ⟨7, 1, 5⟩) 7 1 = some 0 ∧
    entsBad (List.replicate 16 ⟨7, 1, 5⟩) = false := by decide +kernel

theorem witness_TokenFiguresChangeBothWindowsAtOnce_back :
    let s := tokSt 0x0602 2 [0, 0, 0]
    let v := tokView s 0 0
    let q := probe v.ikey false (tokOther v 0)
    atFigure s 0 0 0x0602 = true ∧ (∀ i ∈ tokLines s, (keepLine s v.p 1 i).isSome = true) ∧ (s.ctx 0 0).work.vals.getD 2 0 ≠ 1 ∧
    entsBad (windowEnts s v.p (probeWindow v.k false q.1)) = false := by decide +kernel
/-! ## Keys -/

/-- Partition 1 owns room 0 of the Keep. -/
def roomSt (s : State) : State := { s with keep := { s.keep with liveRooms := [(0, some 1)] } }

theorem witness_CreatingCallsWriteOneRecord :
    let s := running {} (desc 0x0701 0 [])
    let r := roomSt s
    let g := r.setCtx 0 0 { r.ctx 0 0 with grant := recKeys 1 0 0 2 }
    let w := { g with keep := { g.keep with lines := [(keepKey 1 0 0, { data := 1 :: zeros 63, st := .pinned })] } }
    poolSets s 1 = 0 ∧ poolSets r 1 = 64 ∧ targetIdx r 1 0 recAny 2 = 0 ∧ ¬ (0 + 2 > idxLimit r 1 0) ∧ 511 + 2 > idxLimit r 1 0 ∧
    ¬ (∀ k ∈ recKeys 1 0 0 2, k ∈ (r.ctx 0 0).grant) ∧ (∀ k ∈ recKeys 1 0 0 2, k ∈ (g.ctx 0 0).grant) ∧
    oldFormat g 1 0 0 = 0 ∧ oldFormat w 1 0 0 ≠ 0 ∧ keepLine g 1 0 0 = none ∧ (keepLine w 1 0 0).isSome = true ∧
    (g.ctx 0 0).space = none ∧ claimed g 1 0 = [] ∧ (g.ctx 0 0).work.check = false := by decide +kernel

/-- A volatile record of two lines finds its ways over the emptied lines of an earlier one. -/
theorem witness_CreatingCallsWriteOneRecord_ways :
    let r := roomSt (running {} (desc 0x0701 0 []))
    let o := putLine (putLine r 1 0 0 (emptyLine 7) .pinned none) 1 0 1 (zeros 64) .pinned none
    oldFormat o 1 0 0 = 0 ∧ (keepLine o 1 0 0).isSome = true ∧ oldCheck o 1 0 0 = 7 ∧ waysFor o (recKeys 1 0 0 2) = true := by decide +kernel

theorem witness_CreatingCallsWriteOneRecord_pinned : pinFull (roomSt {}) 1 0 0 2 = false := by
  have h : (freshSets (roomSt {}) 1 0 0 2).length ≤ 2 := by simp [freshSets, keepLine, roomSt]
  have g : claimed (roomSt {}) 1 0 = [] := by decide +kernel
  unfold pinFull
  simp only [g, List.filter_nil, List.flatMap_nil, List.append_nil, List.any_eq_false, decide_eq_true_eq]
  intro q _
  have k : pinnedIn (roomSt {}) 1 q = 0 := rfl
  have := List.count_le_length (a := q) (l := freshSets (roomSt {}) 1 0 0 2)
  omega

/-- R186: CHECK skips 0. -/
theorem test_check : nextCheck 255 = 1 ∧ nextCheck 0 = 1 ∧ nextCheck 7 = 8 := by decide

/-- The vault is ONLINE under the DMK of 32 zero bytes, and partition 1 is ACTIVE. -/
def onlineSt (s : State) : State :=
  { s with
    vault := { s.vault with st := 3, descs := [(1, 4 :: 1 :: zeros 254)] }
    dome := { s.dome with cur := some (zeros 32), slots := ({ valid := true }, {}) } }

theorem witness_CreatingCallsWriteOneRecord_journal : let s := onlineSt {}
    vaultOnline s = true ∧ (recLines s 1 0 {}).isSome = true ∧ (descLines s 1 (descOf s 1)).isSome = true := by decide +kernel

theorem witness_KeyFiguresComplete :
    let d := desc 0x0705 0 []
    let s := running {} d
    let w := { s with keep := { s.keep with lines := [(keepKey 0 0 0, { data := 1 :: zeros 63, st := .pinned })] } }
    atFigure s 0 0 0x0705 = true ∧ oldFormat s 0 0 0 = 0 ∧ oldFormat w 0 0 0 ≠ 0 ∧ oldCheck w 0 0 0 = hCheck (handleOf d 0) ∧
    hCls (handleOf d 0) ≠ 1 ∧ (keyOf s 0 0 0).format ≠ 1 ∧
    (let k : KeyRec := { aesKey with format := 1, kcv := kcvAes aesKey.material }
     kcvSym k.alg k.material = k.kcv) ∧ kcvSym 3 aesKey.material ≠ zeros 3 := by decide +kernel

/-- 06, the example of an imported key block: 144 characters are a header of 16, a key field of 48 bytes and a MAC of 16. -/
theorem test_key_block : (parseBlock { alg := 5, material := zeros 32 } (ascii "D0144P0AE00E0000" ++ List.replicate 128 0x30)).map
    (fun b => (b.header.length, b.field.length, b.mac.length)) = some (16, 48, 16) := by decide +kernel

/-- An AES-256 key block protection key. -/
def kbpk : KeyRec := { alg := 5, material := zeros 32 }
/-- A version D block of the AES-128 key. -/
def wrapped : Bytes :=
  exportBlock 0x44 kbpk { aesKey with version := 0x3030, exportC := chr "E", mode := chr "E", notAfter := 99, keylen := 16 } (zeros 48)

/-- A block that was wrapped is opened again, and one whose MAC differs is not. -/
theorem witness_KeyFiguresComplete_import :
    ((parseBlock kbpk wrapped).bind (importRec kbpk 0)).map (fun x => (x.alg, x.material)) = some (3, aesKey.material) ∧
    ((parseBlock kbpk (wrapped.dropLast ++ [0x47])).bind (importRec kbpk 0)) = none := by decide +kernel

theorem witness_KeyFiguresComplete_import_weak :
    strength 3 ≤ strength kbpk.alg ∧ strength 2 < strength 5 ∧ recordField (roomSt {}) 1 0 recAny 2 = true := by decide +kernel

theorem witness_PublicKeysBindingsAndRotation :
    let d := desc 0x0707 64 ([0x11] ++ zeros 7 ++ [1, 0])
    atFigure (running {} d) 0 0 0x0707 = true ∧ par d 64 = 0x11 ∧ 1 ≤ leAt d 72 2 ∧ leAt d 72 2 < 1024 ∧
    par (desc 0x0707 64 [0x10]) 64 = 0x10 ∧ par (desc 0x0707 64 [6]) 64 < 0x10 ∧ pubOk {} (desc 0x0707 64 [6]) (zeros 1952) = true ∧
    pubOk {} (desc 0x0707 64 [6]) [] = false ∧ (boundTo { bind := [(1, some 5)] } 5).length < 4 := by decide +kernel

/-- A class 1 record with an armed rotation, and one without. -/
def rotSt (op rot : Nat) : State :=
  let d := patch (desc 0x0709 64 [BitVec.ofNat 8 op]) 16 (leBytes 8 (mkHandle 0 1 0 0))
  let k : KeyRec := { format := 1, alg := 3, usage := usageOf "P0", lines := 2, keylen := 16, material := zeros 16, rotState := rot, rotateAt := 9, notAfter := 99 }
  let s := onlineSt (running {} d)
  (copiesOf 0 0 (encodeRec k)).foldl (fun a x => putLine a 0 1 x.2.1 x.2.2.2 .clean x.2.2.1) s

theorem witness_PublicKeysBindingsAndRotation_rotate :
    missing (rotSt 0 0) 0 0 2 = [] ∧ (keepLine (rotSt 0 0) 0 1 0).isSome = true ∧ oldFormat (rotSt 0 0) 0 1 0 ≠ 0 ∧
    oldCheck (rotSt 0 0) 0 1 0 = hCheck (mkHandle 0 1 0 0) ∧ hCls (mkHandle 0 1 0 0) = 1 ∧
    (ownRec (rotSt 0 0) 0 0).map (·.rotState) = some 0 ∧ (ownRec (rotSt 1 1) 0 0).map (fun k => (k.rotState, k.rotateAt)) = some (1, 9) ∧
    callSecond (callOf []) < 9 ∧ vaultOnline (rotSt 1 1) = true ∧ atFigure (rotSt 1 1) 0 0 0x0709 = true ∧
    rotateOk (desc 0x0709 0 []) {} 1 0 = false ∧
    rotateOk (patch (desc 0x0709 68 [5]) 86 (leBytes 6 50 ++ [0x30, 0x30])) { format := 1, usage := usageOf "P0", notAfter := 99 } 1 0 = true := by
  decide +kernel

/-- The line that a new record of class 1 takes the place of is fetched first. -/
theorem witness_CreatingCallsWriteOneRecord_fetch :
    let o := onlineSt (roomSt (running {} (desc 0x0701 0 [])))
    let s := o.setVault { o.vault with descs := [(1, patch (4 :: 1 :: zeros 254) 22 [2])] }
    vaultOnline s = true ∧ poolSets s 1 ≠ 0 ∧ keepLine s 1 1 0 = none ∧ ¬ (0 + 2 > idxLimit s 1 1) := by decide +kernel

/-- A point of P-256, one that is not on it, and a key block to export. -/
theorem witness_PublicKeysBindingsAndRotation_point :
    let d := patch (desc 0x0707 64 [2]) 71 [1]
    let g : Bytes := 4 :: (beBytes 32 curveP256.gx ++ beBytes 32 curveP256.gy)
    curveOf {} (kindAlg (par (desc 0x0707 64 [2]) 64)) 0 = some curveP256 ∧ g.length = 1 + 2 * curveP256.fb ∧ byteAt g 0 = 4 ∧ par d 64 < 0x10 ∧
    pubOk {} (desc 0x0707 64 [2]) g = true ∧ pubOk {} (desc 0x0707 64 [2]) (g.set 64 0) = false ∧
    (leAt (desc 0x0707 88 (List.replicate 6 0xFF)) 88 6 = recAny ∨ leAt (desc 0x0707 0 []) 88 6 % pubLines g.length = 0) := by decide +kernel

/-- KEY_EXPORT_BLOCK to an output that may be written. -/
theorem witness_KeyFiguresComplete_export :
    let d := patch (desc 0x0703 2 [2]) 64 [0x44]
    let s := running { acu := { tf := [(0, { valid := true, rd := true, wr := true })] } } d
    let s1 := s.setCtx 0 0 { s.ctx 0 0 with keys := [some kbpk, some { aesKey with keylen := 16 }], work := { segs := [{ addr := 0x1000, len := 256, out := true }] } }
    atFigure s1 0 0 0x0703 = true ∧ (writeOut s1 0 0 (zeros 144)).2 = true ∧ (writeOut {} 0 0 (zeros 144)).2 = false := by decide +kernel
/-! ## The Keep and the vault -/

theorem witness_DirectoryGrantsWholeSets :
    let d := desc 0x0601 0 []
    let s := waiting {} d (.keep [3, 4] true)
    let h := s.setCtx 1 0 { st := .running, call := some (callOf d), grant := [4], work256 := 256 }
    keepAsk s 0 0 = some ([3, 4], true) ∧ (∀ k ∈ ([3, 4] : List Nat), lineFree s k true = true) ∧ lineFree h 4 true = false ∧
    lineFree h 4 false = true ∧ keepAsk s 0 1 = none ∧ keepOrder (commitArb s) 1 [(0, 0)] = [(0, 0)] ∧ pageClaims s = [] ∧
    (commitArb s).caller.arbKeep.dead ≤ s.cycle ∧ keepOfTower s 0 = some 0 ∧ (h.ctx 1 0).call.isSome = true ∧
    (h.ctx 1 0).grant ≠ [] ∧ 256 ≤ (h.ctx 1 0).work256 := by decide +kernel

/-- R225: 255 working cycles are not 256. -/
theorem test_revoke : after (Machine.exec (.grantRevoke 1 0)
    (({} : State).setCtx 1 0 { st := .running, call := some (callOf (desc 0x0601 0 [])), grant := [4], work256 := 255 })) (fun s => (s.ctx 1 0).grant) =
      some [4] ∧
    after (Machine.exec (.grantRevoke 1 0)
      (({} : State).setCtx 1 0 { st := .running, call := some (callOf (desc 0x0601 0 [])), grant := [4], work256 := 256 })) (fun s => (s.ctx 1 0).grant) =
      some [] := by decide +kernel

/-- A context of TOKENIZE waits for bucket 0 of partition 0, its read granted. -/
def fillSt : State :=
  let s := vaultSt (waiting {} (desc 0x0601 0 []) (.fillLine 0))
  { s with keep := { s.keep with liveRooms := [(0, some 0)] }, hif := { s.hif with fills := [(0, 0, true)], np := 1 } }

theorem witness_DirectoryGrantsWholeSets_fill :
    let x := ({ fillSt with hif := { fillSt.hif with np := 0, fills := [] } } : State)
    let f := fetchLines x 0 0 1 false
    let g := fetchLines (logVaultError x) 0 0 1 true
    firstNeed fillSt 0 0 = some (.fillLine 0) ∧ opOf (workDesc fillSt 0 0) / 256 = 6 ∧ keepLine fillSt 0 1 0 = none ∧
    fillSt.hif.fills.find? (fun f => f.1 == 0 && f.2.1 == 0) = some (0, 0, true) ∧
    (match f.2 with | .got l => l == [zeros 64] | _ => false) = true ∧ runBusy f.1 0 1 0 1 = false ∧
    (match g.2 with | .bad st _ => st == stVaultUnreach | _ => false) = true := by
  decide +kernel

/-- A line that is here is installed over its own copy; a set of 16 pinned lines has no way. -/
theorem witness_DirectoryGrantsWholeSets_way :
    poolSets fillSt 0 ≠ 0 ∧
    (installLine { fillSt with keep := { fillSt.keep with lines := [(keepKey 0 1 0, {})] } } 0 1 0 (zeros 64) .clean none).isSome = true := by
  decide +kernel

/-- The 16 ways of room 0 are disabled. -/
def noWaySt : State := { fillSt with sup := { fillSt.sup with rowsDisabled := List.range 16 } }

theorem witness_DirectoryGrantsWholeSets_noWay : poolSets noWaySt 0 ≠ 0 ∧ installLine noWaySt 0 1 0 (zeros 64) .clean none = none := by
  have p : poolSets noWaySt 0 = 64 := by decide +kernel
  have z : setOf noWaySt 0 1 0 / 64 = 0 := by
    have := Nat.mod_lt (Config.keepHash noWaySt.keep.hashKey 1 0) (show 0 < 64 by decide)
    simp only [Machine.setOf, p]
    omega
  have w : setWays noWaySt 0 (setOf noWaySt 0 1 0) = 0 := by
    simp only [setWays, z]
    decide +kernel
  refine ⟨by omega, ?_⟩
  have k : keepLine noWaySt 0 1 0 = none := by decide +kernel
  have e : evictable noWaySt 0 (setOf noWaySt 0 1 0) = [] := rfl
  simp [installLine, installLine.bestBy', k, p, w, e]

/-- A commit of the Keep's maps is due: room 0 goes to partition 1. -/
def mapSt (l : Tbl KeepLine) : State :=
  { keep := { rooms := [(0, 0x8001)], liveRooms := [(1, some 2)], lines := l }, heads := [(pgKeep, { commit := true })] }

theorem witness_RoomsMoveUnlessRefused :
    tblWf (none : Owner) (mapSt []).keep.liveRooms = true ∧ tblWf (none : Owner) (mapSt []).keep.liveTc = true ∧
    tblWf ({} : Head) (mapSt []).heads = true ∧ ((mapSt []).head pgKeep).commit = true ∧ filling (mapSt []) = false ∧
    filling fillSt = true ∧ (({} : State).head pgKeep).commit = false ∧ refusesRooms (mapSt [(keepKey 1 0 0, { st := .pinned })]) 1 = true ∧
    tblGet (none : Owner) (mapSt []).keep.liveRooms 0 ≠ ownerOf (tblGet 0 (mapSt []).keep.rooms 0) := by decide +kernel

/-- R221: the room moves, or stays where its new owner refuses. -/
theorem test_rooms : after (Machine.exec .keepMapCommit (mapSt [])) (fun s => (tblGet (none : Owner) s.keep.liveRooms 0, s.keep.reject)) = some (some 1, none) ∧
    after (Machine.exec .keepMapCommit (mapSt [(keepKey 1 0 0, { st := .pinned })])) (fun s => (tblGet (none : Owner) s.keep.liveRooms 0, s.keep.reject)) =
      some (none, some 0) := by decide +kernel

theorem witness_BatchesCommitInJournalOrder :
    let s := vaultSt {}
    let g : Group := { lines := [(0, 0, zeros 64)] }
    let v := s.setVault { s.vault with groups := [g] }
    let r := gather v 256 (baseImage v) v.vault.groups
    v.vault.writing = none ∧ v.vault.groups ≠ [] ∧ v.vault.st = 3 ∧ batchesHeld v = false ∧ r.image.pages = [] ∧ r.bad = [] ∧ r.ok = [g] ∧
    (journalKeys v r.image.slot).isSome = true := by decide +kernel

theorem witness_BatchesCommitInJournalOrder_steps :
    let v := vaultSt {}
    let b : Batch := { changed := [(5, zeros 64)], slot := { valid := true } }
    (windowCheck v true (b.changed.map (·.1))).2 = true ∧ (windowCheck {} true (b.changed.map (·.1))).2 = false ∧
    pageShut v pgVault = false ∧ geometryOk v = true ∧ geometryOk { dev := { ready := true } } = false ∧ v.dome.cur.isSome = true ∧
    v.vault.p = (committed v).p ∧ v.vault.j = (committed v).j ∧ (dmkById v (committed v).curSet.dmkId).isSome = true ∧ v.vault.busy = 0 ∧
    v.vault.batch = none ∧ v.vault.groups = [] := by decide +kernel

/-- R255: CREATE with no DMK has result KEY, and with a vault present STATE. -/
theorem test_create : after (Machine.exec .vaultCreate { vaultSt {} with vault := { (vaultSt {}).vault with st := 0 }, dome := {} }) (fun s => s.vault.result) = some 3 ∧
    after (Machine.exec .vaultCreate (vaultSt {})) (fun s => s.vault.result) = some 1 := by decide +kernel


/-- A scrub finds a page of zeros good. -/
theorem witness_VaultJobsComplete_page_good :
    let s := vaultSt (waiting {} (desc 0x0A02 64 (zeros 8 ++ [1])) .page)
    (windowMove (putMem s []) false (pageReads s (baseImage s).slot 0 1)).2 = true ∧ (openPage s (baseImage s) 0).isSome = true ∧
    firstNeed s 0 0 = some .page ∧ s.vault.st = 3 ∧ pageBusy s 0 1 = false ∧ opOf (workDesc s 0 0) = 0x0A02 := by decide +kernel

/-- The fill of bucket 0 is the one that was asked first: granted to the engine, installed or without a way, and refused. -/
def askedSt : State := fillSt.setCtx 0 0 { fillSt.ctx 0 0 with asked := [.fillLine 0] }

theorem witness_DirectoryGrantsWholeSets_asked :
    let x := ({ askedSt with hif := { askedSt.hif with np := 0, fills := [] } } : State)
    let y := (takeAsked x 0 0).1
    let b := (fetchLines y 0 0 1 false).1
    ((askedSt.ctx 0 0).needs.contains (.fillLine 0)) = true ∧ (askedSt.ctx 0 0).asked.head? = some (.fillLine 0) ∧
    0 < askedSt.towers.length ∧ 0 < (askedSt.tower 0).ctxs.length ∧ runBusy b 0 1 0 1 = false ∧ (b.ctx 0 0).ready = [] ∧
    (match (fetchLines y 0 0 1 false).2 with | .got l => l == [zeros 64] | _ => false) = true := by decide +kernel

/-- The reads of a batch's close are allowed, or no window holds them. -/
theorem witness_BatchesCommitInJournalOrder_reads :
    let s := vaultSt {}
    let g : Group := { lines := [(0, 0, zeros 64)] }
    let v := s.setVault { s.vault with groups := [g] }
    let n := v.setVault { v.vault with wins := List.replicate 16 (0, 0) }
    let r := fun (a : State) => gather a 256 (baseImage a) a.vault.groups
    (windowCheck v false (batchReads v (r v).image)).2 = true ∧ (windowCheck n false (batchReads n (r n).image)).2 = false ∧
    (r n).bad = [] ∧ (r n).ok = [g] ∧ (r n).image.pages = [] ∧ (journalKeys n (r n).image.slot).isSome = true ∧
    (engineKeep v false (((r v).ok.flatMap groupKeys).map (fun k => (keyPart k, keyIdx k)))).2 = true := by decide +kernel

theorem witness_BatchesCommitInJournalOrder_root :
    (rootAccess (vaultSt {}) true).2 = true ∧ (writeCheck (vaultSt {}) [5]).2 = true ∧ (writeCheck {} [5]).2 = false ∧
    (rootAccess { acu := { int := [(0, { valid := true, init := 8, base := 0x20000000, size := 12, wr := false })] } } true).2 = false ∧
    (let s : State := { vaultSt {} with vault := { (vaultSt {}).vault with st := 0 } }
     s.vault.st = 0 ∧ geometryOk s = true ∧ s.dome.cur.isSome = true) := by decide +kernel
/-! ## The vault: witnesses, jobs and handoff -/

/-- A record of 64 bytes for VAULT_ID `v`, an owner and an EPOCH. -/
def witnessOf (v owner epoch : Nat) : Bytes := leBytes 8 v ++ leBytes 2 owner ++ zeros 6 ++ leBytes 8 epoch ++ zeros 40

theorem witness_WitnessSlotsFenceOlderOwners :
    (∀ x ∈ [witnessOf 1 2 5], x.take 8 ≠ (witnessOf 7 2 5).take 8) ∧ [witnessOf 1 2 5].length < 64 ∧
    (List.replicate 64 (witnessOf 1 2 5)).length = 64 ∧ leAt (witnessOf 1 2 5) 8 2 = 2 ∧ leAt (witnessOf 1 2 5) 16 8 = 5 ∧
    (heard (reelSt {}) { src := 0, dst := 1 } 0).map (·.reel.addr) = some 1 ∧ (heard (reelSt {}) { src := 2, dst := 1 } 3).isSome = true ∧ intRefusal {} 5 true 0x2000A000 = none ∧
    intRefusal { acu := { int := [(0, { valid := true, init := 32, base := 0x2000A000, size := 12, wr := false })] } } 5 true 0x2000A000 ≠ none ∧
    (committed (vaultSt {})).epoch < 1 ∧ (vaultSt {}).vault.st = 3 := by decide +kernel

/-- The answer of device 0 to the last mirror is missing. -/
def mirrorSt : State :=
  let s := reelSt (vaultSt {})
  { s with vault := { s.vault with wcount := 1, awaiting := [0] } }

theorem witness_WitnessSlotsFenceOlderOwners_mirror : mirrorSt.vault.awaiting ≠ [] ∧ downstream mirrorSt = [2, 3] ∧
    (∀ w ∈ downstream mirrorSt, (portTo mirrorSt w).isSome = true) ∧ 0 ∈ mirrorSt.vault.awaiting ∧ 0 ∉ mirrorSt.vault.fences := by decide +kernel

/-- R247: the same owner may repeat its EPOCH, another must come with a higher one. -/
theorem test_witness : storeWitness [witnessOf 1 2 5] (witnessOf 1 2 5 |>.set 63 9) = [(witnessOf 1 2 5).set 63 9] ∧
    storeWitness [witnessOf 1 2 5] (witnessOf 1 3 5) = [witnessOf 1 2 5] ∧ storeWitness [witnessOf 1 2 5] (witnessOf 1 3 6) = [witnessOf 1 3 6] := by
  decide +kernel

/-- A vault job in a phase, with the target or flag `tgt`. -/
def jobIn (op tgt phase : Nat) : State :=
  let s := vaultSt (running {} (desc op 64 [BitVec.ofNat 8 tgt]))
  s.setCtx 0 0 { s.ctx 0 0 with work := { phase := phase } }

theorem witness_VaultJobsComplete :
    0 < (jobIn 0x0A01 0 0).towers.length ∧ 0 < ((jobIn 0x0A01 0 0).tower 0).ctxs.length ∧
    (∀ ph ∈ ([0, 1, 2, 9] : List Nat), atFigure (jobIn 0x0A01 0 ph) 0 0 0x0A01 = true ∧ ((jobIn 0x0A01 0 ph).ctx 0 0).work.phase = ph) ∧
    rekeyRuns (jobIn 0x0A01 0 0) 0 0 = false ∧ rekeyRuns { jobIn 0x0A01 0 0 with jobs := [{ at_ := (1, 0), call := callOf (desc 0x0A01 0 []) }] } 0 0 = true ∧
    (jobIn 0x0A01 0 0).vault.rekey = none ∧ (jobIn 0x0A01 1 0).dome.next = none := by decide +kernel

theorem witness_VaultJobsComplete_scrub :
    let d := desc 0x0A02 64 (zeros 8 ++ [1])
    let s := vaultSt (running {} d)
    atFigure s 0 0 0x0A02 = true ∧ leAt d 72 8 ≠ 0 ∧ ¬ (leAt d 64 8 + leAt d 72 8 > geoP (committed s).p / 64) ∧ leAt (desc 0x0A02 0 []) 72 8 = 0 ∧
    leAt (desc 0x0A02 72 (List.replicate 8 0xFF)) 72 8 > geoP (committed s).p / 64 := by decide +kernel

theorem witness_VaultJobsComplete_page :
    let s := vaultSt (waiting {} (desc 0x0A02 64 (zeros 8 ++ [1])) .page)
    let g := s.setCtx 1 0 { grant := [keepKey 0 1 5] }
    firstNeed s 0 0 = some .page ∧ pageBusy s 0 2 = false ∧ pageBusy g 0 2 = true := by decide +kernel

/-- A counter line of zeros under a root that counts a write fails verification. -/
theorem witness_VaultJobsComplete_page_bad :
    let s := vaultSt {}
    let s := { s with dome := { s.dome with slots := ({ s.dome.slots.1 with root := 1 :: zeros 63 }, {}) } }
    (openPage s (baseImage s) 0).isNone = true := by decide +kernel

theorem witness_VaultJobsComplete_seal :
    (∀ f ∈ ([0, 1] : List Nat), ∀ ph ∈ ([0, 1] : List Nat), atFigure (jobIn 0x0A03 f ph) 0 0 0x0A03 = true) ∧
    (mirror (jobIn 0x0A03 0 0)).vault.awaiting = [] ∧ vaultQuiet (jobIn 0x0A03 1 0) = true ∧
    vaultQuiet ((jobIn 0x0A03 1 0).setVault { (jobIn 0x0A03 1 0).vault with batch := some {} }) = false ∧ atFigure (jobIn 0x0A04 0 0) 0 0 0x0A04 = true ∧ (jobIn 0x0A04 0 0).vault.st ≠ 0 ∧
    sealSlot (vaultSt {}) (zeros 128) = (none : Option RootSlot) := by decide +kernel

/-- The output of VAULT_SEAL_ROOT, when every write is made. -/
theorem witness_VaultJobsComplete_seal_out :
    let s := jobIn 0x0A03 0 0
    let s1 := s.setCtx 0 0 { s.ctx 0 0 with work := { segs := [{ addr := 0x1000, len := 128, out := true }] } }
    (writeOut { s1 with acu := { tf := [(0, { valid := true, rd := true, wr := true })] } } 0 0 (zeros 128)).2 = true := by decide +kernel

/-- VAULT_ADOPT of the seal of an empty vault, in NONE. -/
def adoptSt : State :=
  let s := vaultSt (running {} (desc 0x0A04 2 [2]))
  let r := s.setCtx 0 0 { s.ctx 0 0 with work := { input := sealBytes s false } }
  { r with vault := { r.vault with st := 0 }, dome := { r.dome with slots := ({}, {}) } }

theorem witness_VaultJobsComplete_adopted :
    adoptSt.vault.st = 0 ∧ geometryOk adoptSt = true ∧ adoptSt.dome.cur.isSome = true ∧ atFigure adoptSt 0 0 0x0A04 = true ∧
    formOf (workDesc adoptSt 0 0) = 2 ∧ (sealSlot adoptSt (inputOf adoptSt 0 0)).map (fun r => (r.p, r.j)) =
      some (adoptSt.vault.p, adoptSt.vault.j) := by decide +kernel

/-- The MF has no region that refuses, and a window covers the journal. -/
theorem witness_VaultJobsComplete_adopted_reads : (windowCheck adoptSt false (adoptReads adoptSt)).2 = true := by
  have h : ∀ x, hostCheck adoptSt mfNum false x = (adoptSt, true) := fun x => rfl
  have g : ∀ w ∈ adoptReads adoptSt, ∃ x, windowAddr adoptSt.vault.wins w = some x := by
    intro w hw
    have e : adoptSt.vault.wins = (0, 2 ^ 16) :: List.replicate 15 (0, 0) := rfl
    simp only [adoptReads, List.mem_map, List.mem_range] at hw
    obtain ⟨i, hi, rfl⟩ := hw
    have : geoJ adoptSt.vault.j / 64 = 4096 := by decide +kernel
    rw [e, windowAddr, if_pos (by omega)]
    exact ⟨_, rfl⟩
  have k : ∀ ws, (∀ w ∈ ws, ∃ x, windowAddr adoptSt.vault.wins w = some x) → windowCheck adoptSt false ws = (adoptSt, true) := by
    intro ws hws
    induction ws with
    | nil => rfl
    | cons w r ih =>
      obtain ⟨x, hx⟩ := hws w (by simp)
      simpa [windowCheck, hx, h] using ih (fun v hv => hws v (by simp [hv]))
  rw [k _ g]

theorem witness_VaultJobsComplete_adopted_online :
    let r := (sealSlot adoptSt (inputOf adoptSt 0 0)).getD {}
    let f := rollForward (adoptSt.vault.mem.length + 1) adoptSt r 0
    let s2 := { f.1 with dome := { f.1.dome with slots := (f.2.1, {}), sel := false } }
    byteAt (inputOf adoptSt 0 0) 35 = 0 ∧ (tryOnline (s2.setVault { s2.vault with journalLost := false })).2 = true := by decide +kernel

/-- A seal that this device made is a valid one. -/
theorem witness_VaultJobsComplete_adopt : (sealSlot (vaultSt {}) (sealBytes (vaultSt {}) false)).map (fun r => (r.p, r.j, r.epoch)) = some (0, 0, 0) ∧
    byteAt (sealBytes (vaultSt {}) false) 35 = 0 := by decide +kernel

/-- PARTITION_HANDOFF of partition 1 to device `dst`, in a phase. -/
def handSt (dst phase : Nat) (drawn : Bytes) : State :=
  let s := reelSt (vaultSt (running {} (desc 0x0A05 64 (leBytes 2 dst ++ leBytes 2 1))))
  { s.setCtx 0 0 { s.ctx 0 0 with work := { phase := phase, drawn := drawn } } with
    vault := { s.vault with descs := [(1, 4 :: 1 :: zeros 254)] } }

theorem witness_HandoffMovesAPartitionOnce :
    let s := handSt 3 0 (zeros 8)
    atFigure s 0 0 0x0A05 = true ∧ pstate s 1 = 1 ∧ (tblGet none s.bind 1).isSome = false ∧ pstate (vaultSt {}) 1 = 0 ∧
    (portTo s 3).isSome = true ∧ portTo s 9 = none ∧ 8 ≤ ((s.ctx 0 0).work.drawn).length ∧ (((handSt 3 0 []).ctx 0 0).work.drawn).length < 8 ∧
    (handoffKey s 1 []).isSome = true := by decide +kernel

/-- A device that a query reaches. -/
def s0 : State := reelSt (vaultSt {})
/-- A query that it confirms. -/
def q : Bytes := leBytes 2 1 ++ zeros 8 ++ dmkId (zeros 32) ++ leBytes 6 64

theorem witness_HandoffMovesAPartitionOnce_messages :
    (heard (handSt 3 1 []) { src := 3, dst := 1 } 3).isSome = true ∧ handoffCtx (handSt 3 1 []) 3 = some (0, 0) ∧
    firstNeed ((handSt 3 1 []).setCtx 0 0 { needs := [.reel] }) 0 0 = some .reel ∧
    (let s := { reelSt (vaultSt {}) with reel := { (reelSt (vaultSt {})).reel with inbound := some (3, 1, zeros 8) } }
     s.reel.inbound = some (3, 1, zeros 8) ∧ (handoffKey s 1 (zeros 8)).isSome = true) ∧
    (heard s0 { src := 3, dst := 1 } 0).isSome = true ∧ (heard s0 { src := 3, dst := 1 } 2).isSome = true ∧ s0.vault.st = 3 ∧ s0.dome.cur.map dmkId = some (sub q 10 2) ∧ pstate s0 1 = 0 ∧ payLine s0 1 0 + leAt q 12 6 ≤ geoP (committed s0).p := by
  decide +kernel

/-- A page whose tag verifies. -/
theorem witness_HandoffMovesAPartitionOnce_page :
    let k := aesKey.material
    let b := handoffPayload k 0 0 (List.replicate 64 (zeros 64))
    b.length = 2080 ∧ byteAt b 8 < 2 ∧ zeroIn b 9 16 = true := by decide +kernel

/-- A descriptor whose tag verifies. -/
theorem witness_HandoffMovesAPartitionOnce_desc :
    let k := aesKey.material
    let m := gcmEnc (aesC k) (List.replicate 12 0xFF) [] (zeros 256)
    let b := m.1 ++ m.2
    b.length = 272 ∧ gcmTag (aesC k) (List.replicate 12 0xFF) [] (b.take 256) = b.drop 256 := by decide +kernel

/-! ## The Spire and the shared arbiters -/

/-- A call of a Spire figure in tower 0, context 0, with one key, an input and drawn bytes. -/
def pkSt (op b64 : Nat) (k : KeyRec) (i r : Bytes) : State :=
  ({} : State).setCtx 0 0 { st := .running, call := some (callOf (desc op 64 [BitVec.ofNat 8 b64, 1])), keys := [some k], work := { input := i, drawn := r } }

/-- A private P-256 key of scalar 1. -/
def ecKey : KeyRec := { alg := 0x10, format := 3, material := beBytes 32 1 }

theorem witness_SpireFiguresRunTheirFullTime_ec :
    let s := pkSt 0x0801 1 ecKey (zeros 31 ++ [5]) (zeros 39 ++ [7])
    keyCurve s ecKey = some curveP256 ∧ ecKey.alg ≠ 0x18 ∧ (keyOf s 0 0 0 = ecKey) ∧ atFigure s 0 0 0x0801 = true ∧
    (ecdsaSign curveP256 (beVal (keyOf s 0 0 0).material) (drawnScalar curveP256 (drawnOf s 0 0)) (inputOf s 0 0)).1 ≠ 0 ∧
    (ecdsaSign curveP256 (beVal (keyOf s 0 0 0).material) (drawnScalar curveP256 (drawnOf s 0 0)) (inputOf s 0 0)).2 ≠ 0 ∧
    atFigure (pkSt 0x0802 1 ecKey [] []) 0 0 0x0802 = true := by decide +kernel

theorem witness_SpireFiguresRunTheirFullTime_agree :
    let g : Bytes := 4 :: (beBytes 32 curveP256.gx ++ beBytes 32 curveP256.gy)
    atFigure (pkSt 0x0804 5 ecKey g []) 0 0 0x0804 = true ∧ decPoint curveP256 (g.set 64 0) = none ∧
    decPoint curveP256 g = some (curveP256.gx, curveP256.gy) ∧
    ecMul curveP256 (curveP256.h * beVal ecKey.material) (some (curveP256.gx, curveP256.gy)) = some (curveP256.gx, curveP256.gy) := by
  decide +kernel

/-- A result at infinity needs a point of small order: a curve of h 4 with a point of order 2. -/
theorem witness_SpireFiguresRunTheirFullTime_infinity :
    let e : Curve := { p := 11, a := 1, b := 0, gx := 5, gy := 3, n := 3, h := 4 }
    let k : KeyRec := { alg := 0x13, format := 3, material := [1] }
    let s := { pkSt 0x0804 5 k [4, 0, 0] [] with curves := { slots := [(0, some e)] } }
    keyCurve s k = some e ∧ decPoint e (inputOf s 0 0) = some (0, 0) ∧ ecMul e (e.h * beVal k.material) (some (0, 0)) = none := by decide +kernel

/-- A private RSA key of 1,024 bits. -/
def rsaKey : KeyRec :=
  { alg := 0x18, format := 3, ext := leBytes 2 1024 ++ zeros 14, material :=
      beBytes 64 0xc9be762c9612437510cd9fad181e1c0278f2aa63cd4f7e3f1278c565cc1222304fb692533abad6f90441a7ecb78e013a4b8e8d26629eb4f06c3dd3b0b1505cb9 ++
      beBytes 64 0xe6188b0a3185bebc2eda0f1b1eb7e3d85c5bb38ea8db020aa0f89553085df33df320322ea6e519fbf740c7715168cfb9eaf89d1627cf62f77070598025522d87 }

/-- A ciphertext of the two bytes 'OK' under it: OAEP with SHA-256 and the seed 00 01 .. 1F (RFC 8017). -/
def rsaCipher : Nat :=
  0x56bf4e8033ca551b64503bf0ad25a7c4f6d0be492919f011e0668e94cfd47af04c4fbdf5f1c85e1f02c3c3c6b201307647bce13922c4b93a48d7db9b9b7fded0a3af05d41f17ebdc81217de715744343cceaffca534609d06c9a2c4a46d38ad4a2947b4fc04e105c03031b5cae9f813fe8c3007c3c15015c7311ca82ff96847d

/-- The ten commands of a private operation over `x`, on the key of the primes `p` and `q`. -/
def rsaRun (k : KeyRec) (x : Nat) : State × Bool :=
  let s := pkSt 0x0801 2 k (zeros 32) []
  spRun rsaProg false false 0 0 10 (loadHalf s 0 0 (rsaOperands k x))

/-- Slot 11 of half 0, and the flag. -/
def rsaEnd (k : KeyRec) (x : Nat) : Bool × Bool × Nat :=
  let z := rsaRun k x
  let y := (z.1.tower 0).spire
  (z.2, y.flag, (y.slot 11).val)

theorem witness_SpireFiguresRunTheirFullTime_rsa :
    let s := pkSt 0x0801 2 rsaKey (zeros 32) []
    rsaKey.alg = 0x18 ∧ isJobCtx s 0 0 = false ∧ rsaBits rsaKey = 1024 ∧ atFigure s 0 0 0x0801 = true ∧ (s.ctx 0 0).work.phase = 0 ∧
    par (workDesc s 0 0) 64 = 2 ∧ hashLen (par (workDesc s 0 0) 65) = 32 ∧ (s.tower 0).spire.slots = [] ∧
    (rsaEnd rsaKey (beVal (emsaPkcs1 128 32 (zeros 32)))).1 = false ∧ (rsaEnd rsaKey (beVal (emsaPkcs1 128 32 (zeros 32)))).2.1 = true ∧
    (rsaEnd rsaKey 1).1 = true := by
  decide +kernel

/-- A second prime that is none: the signature fails the check by the public exponent. -/
theorem witness_SpireFiguresRunTheirFullTime_rsa_check :
    let k := { rsaKey with material := rsaKey.material.take 64 ++ beBytes 64 (beVal (rsaKey.material.drop 64) + 6) }
    (rsaEnd k 12345).1 = false ∧ (rsaEnd k 12345).2.1 = false := by decide +kernel

/-- R293 with RFC 8017: the ciphertext decrypts to its message. -/
theorem test_oaep :
    atFigure (pkSt 0x0803 1 rsaKey [] []) 0 0 0x0803 = true ∧ (rsaEnd rsaKey rsaCipher).1 = false ∧
    oaepDecode (hashFn 1) 32 (beBytes 128 (rsaEnd rsaKey rsaCipher).2.2) = some (ascii "OK") ∧
    oaepDecode (hashFn 1) 32 (zeros 128) = none := by decide +kernel

/-- R285 to R287 over slots of half 0: modulus 13 of 4 bits in slot 0, 5 in slot 1, 11 in slot 2. -/
def spSt : Spire := (({} : Spire).putAll 0 [(4, 13), (4, 5), (4, 11)])

/-- What a command leaves in slot 3, whether it refused, and the flag. -/
def spAfter (op a b : Nat) : Nat × Bool × Bool :=
  let r := spSt.run { op := op, d := 3, a := a, b := b } 0
  ((r.1.slot 3).val, r.2, r.1.flag)

theorem test_spire_commands : [1, 2, 3].map (fun op => spAfter op 1 2) = [(3, false, false), (7, false, false), (3, false, false)] ∧
    spAfter 5 1 0 = (8, false, false) ∧ spAfter 6 1 2 = (8, false, false) ∧ spAfter 8 1 1 = (0, false, true) ∧ (spAfter 6 0 2).2.1 = true := by
  decide +kernel

theorem witness_SpireFiguresRunTheirFullTime_command :
    let c : SpCmd := { op := 6, d := 3, a := 1, b := 2 }
    c.op < 32 ∧ c.d < 64 ∧ spSt.refuses c = false ∧ spSt.refuses { c with a := 0 } = true ∧ spSt.refuses { c with op := 5, a := 0 } = true ∧
    spSt.refuses { c with op := 5 } = false ∧ spSt.refuses { c with op := 7 } = false := by decide +kernel

/-- PK_KEYGEN of an RSA key of 2,048 bits: fewer bytes than a candidate needs, an even candidate and an odd one. -/
def genSt (r : Bytes) : State :=
  ({} : State).setCtx 0 0 { st := .running, call := some (callOf (patch (desc 0x0805 64 [0x18]) 96 [0, 8])), work := { drawn := r } }

theorem witness_SpireFiguresRunTheirFullTime_candidate :
    atFigure (genSt []) 0 0 0x0805 = true ∧ par (workDesc (genSt []) 0 0) 64 = 0x18 ∧ leAt (workDesc (genSt []) 0 0) 96 2 / 2 = 1024 ∧
    ((genSt []).ctx 0 0).work.phase = 0 ∧ (drawnOf (genSt (zeros 128)) 0 0).length = 128 ∧
    (beVal (zeros 128) % 2 ^ 1022 + 3 * 2 ^ 1022) % 2 = 0 ∧ (beVal (zeros 127 ++ [1]) % 2 ^ 1022 + 3 * 2 ^ 1022) % 2 = 1 := by decide +kernel

theorem witness_SpireFiguresRunTheirFullTime_gen :
    let s := pkSt 0x0805 0x10 ecKey [] []
    atFigure s 0 0 0x0805 = true ∧ par (workDesc s 0 0) 64 = 0x10 ∧ curveOf s 0x10 (par (workDesc s 0 0) 98) = some curveP256 ∧
    (∀ op ∈ ([0x0806, 0x0807, 0x0808] : List Nat), atFigure (pkSt op 0 { alg := 0x22 } [] []) 0 0 op = true) ∧
    (∀ a ∈ ([0x20, 0x21, 0x22, 0x23] : List Nat), atFigure (pkSt 0x0805 a ecKey [] []) 0 0 0x0805 = true ∧
      par (workDesc (pkSt 0x0805 a ecKey [] []) 0 0) 64 = a) ∧ (({ alg := 0x20 } : KeyRec).alg = 0x20) ∧
    (let w := pkSt 0x0807 0 { alg := 0x22 } [] []
     ((w.ctx 0 0).work.progress < 1024 ∧ 1024 ≤ ((w.setCtx 0 0 { work := { progress := 1024 } }).ctx 0 0).work.progress)) ∧
    (({ alg := 0x22 } : KeyRec).alg = 0x22) := by decide +kernel

/-- SHA3-512 and SHAKE256 of the empty string (FIPS 202, by another implementation). -/
theorem test_sponge : sha3_512 [] = beBytes 64 0xa69f73cca23a9ac5c8b567dc185a756e97c982164fe25859e0d1dcc1475c80a615b2123af1f5f94c11e3e9402c3ac558f500199d95b6d3e301758586281dcd26 ∧
    shake256 [] 40 = beBytes 40 0x46b9dd2b0ba88d13233b3feb743eeb243fcd52ea62b81b82b50c27646ed5762fd75dc4ddd8c0f200 := by decide +kernel

/-- Modulo X^256 + 1, X^255 times X² is −X: the transforms and the product agree with it. -/
theorem test_ntt :
    let x := fun (i : Nat) => zeroPoly.set i 1
    kemIntt (kemMul (kemNtt (x 255)) (kemNtt (x 2))) = zeroPoly.set 1 3328 ∧
    dsaIntt (dsaMul (dsaNtt (x 255)) (dsaNtt (x 2))) = zeroPoly.set 1 8380416 := by decide +kernel

/-- FIPS 204's roundings: −1 rounds to a high part of 0, a low part at half the step stays, one above it carries, and a hint moves the high
part by one in the direction of the low part. -/
theorem test_rounding : dsaSplit 8380416 = (0, 8380416) ∧ dsaSplit 261888 = (0, 261888) ∧ dsaSplit 261889 = (1, 8380417 - 261887) ∧
    dsaRound 4096 = (0, 4096) ∧ dsaRound 4097 = (1, 8380417 - 4095) ∧ dsaUseHint true 261889 = 0 ∧ dsaUseHint true 261888 = 1 ∧
    dsaUseHint true 0 = 15 ∧ dsaUseHint false 261889 = 1 := by decide +kernel

/-- A hint of one place in the first polynomial and one in the last is encoded as FIPS 204 says, and reads back; places that do not rise
are refused. -/
theorem test_hint :
    let p := dsaSet 0x22
    let h := (List.range 6).map (fun i => (List.range 256).map (fun j => (i == 0 && j == 7) || (i == 5 && j == 200)))
    dsaPackHint p h = [7, 200] ++ zeros 53 ++ [1, 1, 1, 1, 1, 2] ∧ dsaUnpackHint p (dsaPackHint p h) = some h ∧
    dsaUnpackHint p ([7, 7] ++ zeros 53 ++ [2, 2, 2, 2, 2, 2]) = none ∧ dsaUnpackHint p ([7, 8] ++ zeros 53 ++ [1, 1, 1, 1, 1, 1]) = none := by
  decide +kernel

/-- CURVE_LOAD of P-256 to a slot, at a check unit. -/
def loadSt (slot u : Nat) (r : Bytes) : State :=
  ({} : State).setCtx 0 0 { st := .running, call := some (callOf (desc 0x0809 64 [BitVec.ofNat 8 slot, 32])), work := { progress := u, drawn := r, input := beBytes 32 curveP256.p ++ beBytes 32 curveP256.a ++ beBytes 32 curveP256.b ++ beBytes 32 curveP256.gx ++ beBytes 32 curveP256.gy ++ beBytes 32 curveP256.n ++ [1] } }

theorem witness_CurveChecksRunInOrder :
    atFigure (loadSt 3 0 []) 0 0 0x0809 = true ∧ curveSlot (loadSt 3 0 []) (workDesc (loadSt 3 0 []) 0 0) = some 3 ∧
    curveSlot { loadSt 0xFF 0 [] with curves := { slots := (List.range 16).map (fun i => (i, some curveP256)) } } (workDesc (loadSt 0xFF 0 []) 0 0) = none ∧
    unitOk curveP256 32 0 [] = true ∧ unitCause 1 = 2 ∧ ((loadSt 3 1 []).ctx 0 0).work.drawn = [] ∧
    unitOk curveP256 32 1 [9] = true ∧ unitOk curveP256 24 0 [] = false ∧ unitOk curveP256 32 41 [] = true ∧
    inputCurve 32 (inputOf (loadSt 3 0 []) 0 0) = { curveP256 with digest := (inputCurve 32 (inputOf (loadSt 3 0 []) 0 0)).digest } := by
  decide +kernel

/-- R296 over P-256 (SP 800-186): the checks that need no base hold of it, the last one too. -/
theorem test_p256_checks : (∀ u ∈ ([42, 43, 44, 85, 87] : List Nat), unitOk curveP256 32 u [] = true) ∧
    ([0, 40, 41, 44, 45, 84, 85, 87].map unitCause = [1, 2, 3, 6, 7, 7, 8, 10]) := by decide +kernel

/-- Two calls wait for the Spire of tower 0. -/
def spireSt (x : Spire) : State :=
  let s := waiting {} (desc 0x0801 0 []) .spire
  s.setTower 0 { s.tower 0 with spire := x }

theorem witness_SharedUnitsServeAndBreakStalls :
    (((spireSt { retired := true }).tower 0).spire.retired = true) ∧ spireWaiters (spireSt {}) 0 = [0] ∧ spireWaiters (spireSettle (commitArb (spireSt {})) 0) 0 = [0] ∧ spireEligible (spireSt {}) 0 0 = true ∧
    isJobCtx (spireSt {}) 0 0 = false ∧
    (let s := spireSt {}
     isJobCtx { s with jobs := [{ call := callOf (desc 0x0805 0 []) }] } 0 0 = true) ∧
    spireEligible (spireSt { half0 := some 1, half1 := some 2 }) 0 0 = false ∧ ((spireSt {}).tower 0).spire.resident = none ∧
    (let s := spireSt { half0 := some 1, half1 := some 0, resident := some 1 }
     spireWaiting (spireSettle s 0) 0 = some 0 ∧ (s.tower 0).spire.owed = false ∧ firstNeed s 0 0 = some .spire ∧ (s.tower 0).spire.switched = false) ∧
    spireGuest { half0 := some 1, resident := some 1, switched := true } = none := by decide +kernel

/-- Context 0 asks ARB_DMA for a chunk. -/
def askSt (n : Nat) : State :=
  { waiting {} (desc 0x0501 0 []) .chunk with
    hif := { np := n, dma := [{ what := .chunk, len := 16, pieces := [(0x1000, 16)] }] }
    acu := { tf := [(0, { valid := true, rd := true, wr := true })] } }

theorem witness_SharedUnitsServeAndBreakStalls_reads :
    768 ≤ ({ hif := { np := 768 } } : State).hif.np ∧ cplAsk { hif := { np := 768 } } = false ∧ dmaReqs {} = [] ∧
    (let s := commitArb (askSt 767)
     s.caller.arbDma.dead ≤ s.cycle ∧ dmaReqs s = [(3, 3, 0)] ∧ dmaWithdraws s 3 false = false ∧ dmaWithdraws s 3 true = true ∧
     dmaReqs (commitArb (askSt 768)) = []) ∧
    (∀ k ∈ ([.list, .blob, .chunk] : List DmaFor), (readOf { hif := { dma := [{ what := k, granted := 1, len := 16 }] } } 0 0 k).isSome = true ∧ readOf {} 0 0 k = none) ∧
    ansBytes (.data (zeros 16)) = some (zeros 16) ∧ ansBytes .timeout = none ∧
    listWhole (zeros 16) = false ∧
    (let s := waiting {} (desc 0x0501 0 []) .chunk
     firstNeed s 0 0 = some .chunk ∧ (chunkOutput (waiting {} (desc 0x0502 0 []) .chunk) 0 0).2 = true) := by decide +kernel

/-- A call that has waited 2^20 cycles for a vault commit or a Spire half. -/
def stallSt (n : Need) : State := let s := waiting {} (desc 0x0801 0 []) n
  s.setCtx 0 0 { s.ctx 0 0 with stall := 2 ^ 20 }

theorem witness_SharedUnitsServeAndBreakStalls_stall :
    stalledCtx {} = [] ∧ stalledCtx (stallSt .spire) = [(0, 0)] ∧ ((stallSt .spire).ctx 0 0).call.map (fun j => decide (j.seq < 2 ^ 70)) = some true := by
  decide +kernel
/-! ## Time and the Reel -/

/-- A time state in TRACKING at a Bell, with what comes due. -/
def timeSt (role bell : Nat) (due : Option Nat) : State :=
  { time := { st := 1, bell := bell, due := due, src := 7, edges := 2 }, reel := { role := role } }

theorem witness_BellsRiseAndFireTheirEvents :
    (timeSt 1 9 none).time.due = none ∧ timeKnown (timeSt 1 9 (some 9)) = true ∧ (9 : Nat) ≤ (timeSt 1 9 (some 9)).time.bell ∧
    (timeSt 1 1023 (some 1024)).time.bell < 1024 ∧ isHead (timeSt 1 0 none) = true ∧ isHead (timeSt 0 0 none) = false ∧
    timeKnown ({} : State) = false ∧ (timeSt 0 9 (some 10)).time.st = 1 ∧
    (heard (reelSt {}) { src := 0, dst := 0xFFFF } 0).isSome = true ∧ heard {} { src := 0, dst := 0xFFFF } 0 = none ∧
    1024 % 1024 = 0 ∧ 1025 % 1024 ≠ 0 ∧ (1023 + 1) % 1024 = 0 ∧ 1024 * 5 ≠ 1023 ∧ (timeSt 0 9 none).time.st ≠ 0 ∧ (timeSt 0 9 none).time.st ≠ 3 ∧
    ({} : State).time.st = 0 := by decide +kernel

/-- R337: the number nearest to the one expected. -/
theorem test_extend : extend40 0 (2 ^ 40 - 1) = 2 ^ 40 ∧ extend40 (2 ^ 40 - 1) (2 ^ 40) = 2 ^ 40 - 1 ∧ extend40 5 4 = 5 := by decide +kernel

/-- R345: an order falls due with its Bell, and a ceremony's window ends at a second. -/
theorem witness_BellsRiseAndFireTheirEvents_due :
    let s := { timeSt 1 1023 (some 1024) with reel := { role := 1, order := some (1024, [0]) }, cus := { cer := some { expires := some 1 } } }
    s.reel.order = some (1024, [0]) ∧ s.cus.cer.bind (·.expires) = some 1 ∧
    after (Machine.exec .bellAssert s) (fun t => (t.reel.order.isNone, t.mtr.hidden.map (·.1), t.cus.cer.isNone, t.dev.ppsOut)) =
      some (true, some 1024, true, true) := by decide +kernel

/-- R336: a member schedules the Bell that a block brings one period later, less its delay and the block's correction; a number it has
asserted is not scheduled again. -/
theorem test_bell_block :
    let s := { reelSt {} with time := { st := 1, bell := 9, delay := 25 } }
    after (Machine.exec (.bellBlock 10 5) s) (fun t => (t.time.due, t.time.lead, t.reel.dn.bell.map (·.1))) = some (some 10, 9765595, some 10) ∧
    after (Machine.exec (.bellBlock 9 5) s) (fun t => t.time.due) = some none := by decide +kernel

/-- R341: the tenth byte is the XOR of the nine before it. -/
theorem witness_HeadTakesTimeFromItsSources :
    isHead (timeSt 1 9 none) = true ∧ isHead (timeSt 2 9 none) = false ∧ (timeSt 1 9 none).time.src.getLsbD 0 = true ∧
    (timeSt 1 9 none).time.src.getLsbD 1 = true ∧ ({} : State).time.src.getLsbD 0 = false ∧ (timeSt 1 9 none).time.edges ≠ 0 ∧
    todOk (timeSt 1 9 none).time [0x54, 0x44, 0, 0, 0, 0, 0, 5, 0, 0x15] 100 = true ∧
    todOk (timeSt 1 9 none).time [0x54, 0x44, 0, 0, 0, 0, 0, 5, 0, 0x14] 100 = false ∧
    todOk (timeSt 1 9 none).time [0x54, 0x44, 0, 0, 0, 0, 0, 5, 0, 0x15] 901 = false ∧ (timeSt 1 9 none).time.bell / 1024 < 1 := by decide +kernel

theorem witness_HeadTakesTimeFromItsSources_unknown :
    let s : State := { time := { src := 15, todSecond := some 4 }, reel := { role := 1 } }
    isHead s = true ∧ s.time.src.getLsbD 0 = true ∧ s.time.edges = 0 ∧ s.time.st = 0 ∧ s.time.setPending.or s.time.todSecond = some 4 ∧
    s.time.due = none ∧ s.time.src.getLsbD 3 = true ∧ (timeSt 1 9 none).time.src.getLsbD 3 = false ∧ (1024 * 7 ≤ 1024 * 7) := by decide +kernel

/-- R342: HOLDOVER is left at the third accepted edge: by a step, through RESYNC, or at once. -/
theorem test_pps :
    let s := { timeSt 1 9 none with time := { (timeSt 1 9 none).time with st := 3 } }
    [2, 3, 62500000, 62500001].map (fun (p : Nat) => after (Machine.exec (.ppsEdge 1000000 (BitVec.ofNat 32 p)) s) (fun t => t.time.st)) =
      [some 1, some 4, some 4, some 1] ∧
    after (Machine.exec (.ppsEdge 899999 0) s) (fun t => (t.time.st, t.time.ignored)) = some (3, 1) := by decide +kernel

/-- A message of class 1, sequence number 0, waits for its acknowledgement at the DOWN port. -/
def linkSt (fails : Nat) : State :=
  let s := reelSt {}
  { s with
    reel := { s.reel with dn := { s.reel.dn with unacked := [(1, 0, { typ := 6, src := 1, dst := 2 })], fails := fails } }
    vault := { s.vault with awaiting := [2], wcount := 1 } }

theorem witness_ReelLinksTrainFailAndPromenade :
    portUp (linkSt 0) true = true ∧ portUp {} true = false ∧ (portOf (linkSt 0) true).queue = [] ∧
    ((portOf (linkSt 0) true).unacked.any (fun e => e.1 == 1 && e.2.1 == 0)) = true ∧
    ((portOf (linkSt 0) true).unacked.any (fun e => e.1 == 1 && e.2.1 == 1)) = false ∧ (portOf (linkSt 14) true).fails < 15 ∧
    15 ≤ (portOf (linkSt 15) true).fails ∧ (portOf (linkSt 0) true).link ≠ 0 ∧ (portOf {} true).link = 0 ∧
    (∃ e ∈ (portOf (linkSt 0) true).unacked, e.2.2.typ = 6 ∧ e.2.2.src = (linkSt 0).reel.addr ∧ e.2.2.dst = 2) ∧
    (linkSt 0).vault.fences = [] ∧ (linkSt 0).vault.acks < (linkSt 0).vault.wcount ∧ (reelSt {}).reel.topo ≠ 2 ∧
    ({ (reelSt {}).reel with topo := 2 } : Reel).topo = 2 := by decide +kernel

/-- R325: the 16th failure in a row takes the link down. -/
theorem test_sixteen : after (Machine.exec (.linkNak true 1 0) (linkSt 14)) (fun t => (t.reel.dn.link, t.reel.dn.fails)) = some (2, 15) ∧
    after (Machine.exec (.linkNak true 1 0) (linkSt 15)) (fun t => (t.reel.dn.link, t.vault.short)) = some (0, true) := by decide +kernel

/-- A port whose DOWN side is as given. -/
def dnSt (p : Port) : State := { reelSt {} with reel := { (reelSt {}).reel with dn := p } }

theorem witness_ReelLinksTrainFailAndPromenade_lanes :
    portEnabled (dnSt {}) true = true ∧ portEnabled { reel := { role := 2 } } true = false ∧
    (portOf (dnSt {}) true).rx = [1, 1, 0] ∧ (portOf (dnSt {}) true).rx.getD 2 2 ≠ 1 ∧ (portOf (dnSt { rx := [2, 1, 2] }) true).rx = [2, 2, 2].set 1 1 ∧
    (portOf (dnSt {}) true).lanes = [1, 1, 0] ∧ (portOf (dnSt {}) true).lanes.getD 2 2 ≠ 1 ∧ 1 ∈ (portOf (dnSt {}) true).lanes ∧
    1 ∉ (portOf (dnSt { lanes := [2, 2, 2] }) true).lanes ∧ (portOf (dnSt { lanes := [2, 2, 1] }) true).lanes = [2, 2, 2].set 2 1 ∧
    (hop (dnSt { link := 2 }) true 0 7).2 = true ∧ (hop (dnSt { link := 2, rxSeqs := [some 8, none, none, none] }) true 0 7).2 = false ∧
    (heard (ringBroken (reelSt {}) 2) { src := 3, dst := 0xFFFF } 0).isSome = true ∧ (2 : Nat) < (reelSt {}).reel.count ∧
    (portOf (dnSt { link := 2, echoes := List.replicate 15 100 }) true).echoes.length = 15 ∧
    (portOf (dnSt { link := 2, echoes := List.replicate 14 100 }) true).echoes.length < 15 ∧
    (portOf (dnSt {}) true).link = 0 ∧ (dnSt { link := 2 }).reel.role = 0 ∧ (portOf (dnSt { link := 2 }) true).link = 2 := by decide +kernel

/-- R326: the mean of 16 round trips, halved; above 600.0 ns the link goes down. -/
theorem test_delay :
    after (Machine.exec (.delayEcho true 100) (dnSt { link := 2, echoes := List.replicate 15 100 })) (fun t => (t.reel.dn.delay, t.reel.dn.link)) =
      some (50, 2) ∧
    after (Machine.exec (.delayEcho true 12032) (dnSt { link := 2, echoes := List.replicate 15 12000 })) (fun t => (t.reel.dn.delay, t.reel.dn.link)) =
      some (6001, 0) ∧
    after (Machine.exec (.delayEcho true 12031) (dnSt { link := 2, echoes := List.replicate 15 12000 })) (fun t => (t.reel.dn.delay, t.reel.dn.link)) =
      some (6000, 2) := by decide +kernel

/-- R323: each direction has its own spare, and no lane retires twice. -/
theorem test_lanes : after (Machine.exec (.reelLaneRetire true 0) (dnSt { link := 2 })) (fun t => (t.reel.dn.rx, t.reel.dn.lanes)) =
    some ([2, 1, 1], [1, 1, 0]) ∧
    after (Machine.exec (.laneSwap true 1 0) (dnSt { link := 2 })) (fun t => (t.reel.dn.rx, t.reel.dn.lanes)) = some ([1, 1, 0], [1, 2, 1]) := by
  decide +kernel

theorem witness_ReelLinksTrainFailAndPromenade_walk :
    let h := fun (c : Bool) => { reelSt {} with reel := { (reelSt {}).reel with role := 1, closed := c } }
    (h true).reel.role = 1 ∧ portUp (h true) false = true ∧ portUp (h false) true = true ∧ portUp { reel := { role := 1 } } true = false ∧
    (reelSt {}).reel.up.place 0 7 ≠ 1 ∧ ({ rxSeqs := [some 8, none, none, none] } : Port).place 0 7 = 1 ∧
    (h true).reel.walking = false ∧ ({ (h true).reel with walking := true } : Reel).walking = true ∧
    (heard (setTopology (reelSt {}) 4 3 (some 2)) { src := 0, dst := 0xFFFF } 0).isSome = true ∧
    (h true).reel.closed = true ∧ (h false).reel.closed = false ∧ (reelSt {}).reel.role ≠ 1 ∧ portUp (reelSt {}) false = true ∧
    ((reelSt {}).reel.role % 2 ≠ 1 ∧ 0 < (reelSt {}).reel.addr ∧ (reelSt {}).reel.addr < 4) ∧
    ((3 : Nat) = 3 → (some 1 : Option Nat) = some (if true then (reelSt {}).reel.addr else 0)) := by decide +kernel

/-- R328: addresses end at 999. -/
theorem test_promenade : after (Machine.exec (.promenade 999 0 [] 0) (reelSt {})) (fun t => t.reel.addr) = some 999 ∧
    after (Machine.exec (.promenade 1000 0 [] 0) (reelSt {})) (fun t => t.reel.addr) = some 1 ∧
    after (Machine.exec (.topology 4 3 2 0) (reelSt {})) (fun t => (t.reel.topo, t.reel.brk)) = some (3, some 2) := by decide +kernel

/-- A call of family 0x0D on an open Reel, with parameter bytes. -/
def reelCall (op : Nat) (b : Bytes) : State :=
  let s := ({} : State).setCtx 0 0 { st := .running, call := some { callOf (desc op 64 b) with bell := some 100 } }
  reelSt { s with time := { st := 1, bell := 100 } }

theorem witness_ReelWordsSnapshotsAndClones :
    atFigure (reelCall 0x0D02 [2]) 0 0 0x0D02 = true ∧ portTo (reelCall 0x0D02 [9]) 9 = none ∧ portTo (reelCall 0x0D02 [2]) 2 = some true ∧
    hasCredit (reelCall 0x0D02 [2]) 1 2 = true ∧ hasCredit (dnSt { link := 2, credits := [0, 0, 0, 0] }) 1 2 = false ∧
    hasCredit (dnSt { link := 2, credits := [0, 0, 0, 0] }) 0 0xFFFF = false ∧ atFigure (reelCall 0x0D03 [200]) 0 0 0x0D03 = true ∧
    hasCredit (reelCall 0x0D03 [200]) 0 0xFFFF = true ∧ atFigure (reelCall 0x0D01 [2]) 0 0 0x0D01 = true ∧
    cloneParams (reelCall 0x0D01 [2]) { bell := some 100 } (workDesc (reelCall 0x0D01 [2]) 0 0) = some stCeremony := by decide +kernel

/-- REEL_CLONE_DOMAIN with its ceremony, in a phase. -/
def cloneSt (phase : Nat) (blob : Bytes) : State :=
  let s := reelCall 0x0D01 [2]
  { s.setCtx 0 0 { s.ctx 0 0 with work := { phase := phase, blob := blob } } with
    cus := { cer := some { typ := 6, authorized := true, input := zeros 56 ++ [2, 0, 0] } }, dome := { cur := some (zeros 32) } }

theorem witness_ReelWordsSnapshotsAndClones_clone :
    cloneParams (cloneSt 0 []) { bell := some 100 } (workDesc (cloneSt 0 []) 0 0) = none ∧ ((cloneSt 0 []).ctx 0 0).work.phase = 0 ∧
    (let s := cloneSt 3 (0 :: 1 :: kcvAes (zeros 32))
     atFigure s 0 0 0x0D01 = true ∧ (s.ctx 0 0).work.phase = 3 ∧ cloneParams s { bell := some 100 } (workDesc s 0 0) = none ∧ byteAt (s.ctx 0 0).work.blob 0 = 0 ∧
     sub (s.ctx 0 0).work.blob 2 3 = kcvAes ((cloneDmk s (workDesc s 0 0)).getD [])) ∧
    (let s := waiting {} (desc 0x0D01 0 []) .reel
     firstNeed s 0 0 = some .reel ∧ (s.ctx 0 0).age < 2 ^ 30 ∧ 2 ^ 30 ≤ ((s.setCtx 0 0 { s.ctx 0 0 with age := 2 ^ 30 }).ctx 0 0).age) := by
  decide +kernel

theorem witness_ReelWordsSnapshotsAndClones_orders :
    timeKnown (reelCall 0 []) = true ∧ 100 ≤ (reelCall 0 []).time.bell ∧ ¬ (timeKnown (reelCall 0 []) = true ∧ 101 ≤ (reelCall 0 []).time.bell) ∧
    (reelCall 0 []).reel.order = none ∧ (some (101, [0]) : Option (Nat × List Nat)) = some (101, [0]) ∧
    heard (reelSt {}) { src := 1 } 0 = none ∧ (heard (reelSt {}) { dst := 0xFFFF } 0).isSome = true ∧ (reelSt {}).reel.addr % 8 ≠ 0 ∧ (reelSt {}).reel.gathering = false ∧
    (let s := { reelSt {} with reel := { (reelSt {}).reel with addr := 0, gathering := true, issued := 101 } }
     s.reel.addr % 8 = 0 ∧ 8 * (3 / 8) = s.reel.addr ∧ s.reel.gathering = true ∧ s.reel.issued = 101 ∧ 8 / 8 ∉ s.reel.sets) ∧
    (let s := { reelSt {} with reel := { (reelSt {}).reel with addr := 0, gathering := true, issued := 101, count := 12 } }
     (heard s { src := 8 } 3).isSome = true ∧ 4 + 0 < 256 ∧ 8 % 8 = 0) := by decide +kernel

theorem witness_ReelWordsSnapshotsAndClones_sessions :
    (reelSt {}).reel.session = none ∧ receiveCer (reelSt {}) = none ∧
    (receiveCer { cus := { cer := some { typ := 7, authorized := true } } }).isSome = true ∧
    (let s := { reelSt {} with reel := { (reelSt {}).reel with session := some { src := 2 } } }
     s.reel.session ≠ none ∧ s.reel.session.map (·.src) = some 2 ∧ (heard s { src := 2, dst := 1 } 2).isSome = true ∧ s.dome.cur = none) ∧
    cloneCtx (reelSt {}) 2 3 = none ∧
    (let s := fun (ph : Nat) => let s := cloneSt ph []
      s.setCtx 0 0 { s.ctx 0 0 with st := .waiting, needs := [.reel] }
     cloneCtx (s 3) 2 3 = some (0, 0) ∧ cloneCtx (s 1) 2 1 = some (0, 0) ∧ (heard (s 1) { src := 2, dst := 1 } 2).isSome = true) ∧
    (reelCall 0 []).time.bell < 37 + 64 ∧ 36 + 64 ≤ (reelCall 0 []).time.bell := by decide +kernel

/-- R333: a word to a full channel is dropped and counted. -/
theorem test_word : after (Machine.exec (.reelWord { src := 0, dst := 1 } 7) { reelSt {} with reel := { (reelSt {}).reel with mbox := [(0, (5, true, 255))] } })
    (fun t => t.reel.mbox) = some [(0, (5, true, 255))] ∧
    after (Machine.exec (.reelWord { src := 0, dst := 1 } 7) (reelSt {})) (fun t => t.reel.mbox) = some [(0, (7, true, 0))] := by decide +kernel


/-- A switch that was due at Bell 1,024, the ledger open to the metering engine. -/
theorem witness_BellsRiseAndFireTheirEvents_late :
    let s := { timeSt 1 1025 (some 1026) with dome := { ledger := { at_ := some 1 } } }
    1026 % 1024 ≠ 0 ∧ s.mtr.recovering = false ∧ s.dome.ledger.at_ = some 1 ∧ 1024 * 1 < 1026 ∧ (∀ o ∈ ledgerPages, ledgerMay s o = true) := by decide +kernel

theorem witness_HeadTakesTimeFromItsSources_width : ((999 : Nat) < 1000 ∨ (0 : Nat) < 1000) ∧ ([List.replicate 16 true] : List (List Bool)) ≠ [] ∧
    (some 5 : Option Nat).any (fun e => decide (e ≤ 5)) = true := by decide

/-- Of an open Reel whose link beyond device 2 is cut. -/
theorem witness_ReelLinksTrainFailAndPromenade_cuts :
    let s := { reelSt {} with reel := { (reelSt {}).reel with cuts := [2] } }
    s.reel.topo = 1 ∧ 2 ∈ s.reel.cuts ∧ min s.reel.addr 3 ≤ 2 ∧ 2 < max s.reel.addr 3 ∧ (heard (noteBreak (reelSt {}) 2) { src := 3, dst := 0xFFFF } 0).isSome = true ∧
    heard (noteBreak {} 0) { src := 3, dst := 0xFFFF } 0 = none ∧ (3 : Nat) ≠ 0 ∧ (heard (noteMend (reelSt {}) 2) { src := 3, dst := 0xFFFF, seq := 0 } 0).isSome = true ∧
    heard (noteMend {} 2) { src := 3, dst := 0xFFFF, seq := 0 } 0 = none ∧ (portOf (dnSt { link := 2 }) true).rx = [1, 1, 0] ∧ (portOf (dnSt { link := 2 }) true).lanes = [1, 1, 0] ∧
    (hop (dnSt { link := 2 }) true 0 7).2 = true := by decide +kernel

theorem witness_ReelWordsSnapshotsAndClones_last :
    let s := cloneSt 3 []
    cloneCeremony s { bell := some 100 } (workDesc s 0 0) = none ∧ (s.ctx 0 0).work.phase = 3 ∧ ((cloneSt 0 []).ctx 0 0).work.sp = 0 := by decide +kernel
/-! ## Metering -/

/-- R366's example before Bell 1,024 × 120: LEN 60, the interval from 60 open, weights 2 and 5, a switch to 3 at 120. -/
def mtrSt : State :=
  { time := { st := 1, bell := 1024 * 120 }
    mtr := { tally := [(192, 1000), (193, 400)], openTot := some [], lastSecond := some 119 }
    dome := { ledger := { openStart := 60, open_ := true, begin_ := 118, commit := 118, active := [2, 5] ++ List.replicate 14 0,
                          pending := [3, 5] ++ List.replicate 14 0, at_ := some 120 } } }

/-- 12, the example: 4,000 units at the old weights, the interval 60 to 119 closes, the switch applies, 120 opens. -/
theorem test_fold :
    (after (Machine.exec .intervalClose mtrSt) (fun s => s.dome.ledger)).map (fun l => (l.closedW, [l.closedStart, l.closedLen, l.closedFlags])) =
      some ([(12, { cost := 4000, peak := 1000, par := false })], [60, 60, 0]) ∧
    (after (Machine.exec .intervalClose mtrSt) (fun s => s.dome.ledger)).map (fun l => ([l.openStart, l.openFlags], l.active.take 2, l.at_)) =
      some ([120, 0], [3, 5], none) := by decide +kernel

/-- 12, the example after the power failure: the record from 120 closes INTERRUPTED with LEN 30; a SHORT one opens at 157. -/
theorem test_recovery :
    let w : LedgerWord := { cost := 77, peak := 7, par := true }
    let s : State := { mtr := { recovering := true }, dome := { ledger := { openStart := 120, closedStart := 60, closedCommit := 60, open_ := true, begin_ := 149, commit := 148, openW := [(12, w)] } } }
    let l := (mtrSecond s 157).dome.ledger
    (l.closedW, (l.closedStart, l.closedLen, l.closedFlags), (l.openStart, l.openFlags)) =
      ([(12, { w with par := false })], (120, 30, 1), (157, 4)) := by decide +kernel

/-- 12, the example's cut: BEGIN and TF 12's word are written, COMMIT is not; a cut one word earlier leaves the old word. -/
theorem test_cut :
    let a : Ledger := { begin_ := 148, commit := 148, openW := [(12, { cost := 70, peak := 7 })] }
    let b : Ledger := { begin_ := 149, commit := 149, openW := [(12, { cost := 77, peak := 7, par := true })] }
    [13, 14].map (fun k => (((cutFold a b k).begin_, (cutFold a b k).commit), tblGet {} (cutFold a b k).openW 12)) =
      [((149, 148), { cost := 70, peak := 7 }), ((149, 148), { cost := 77, peak := 7, par := true })] := by decide +kernel

theorem witness_SecondsFoldCloseAndReprice :
    mtrSt.mtr.recovering = false ∧ mtrSt.dome.ledger.open_ = true ∧ mtrSt.mtr.lastSecond = some 119 ∧ (119 : Nat) < 120 / 60 * 60 ∧
    118 / 60 * 60 ≤ (119 : Nat) ∧ ({} : State).dome.ledger.at_ = none ∧ (mtrSt.head pgMtr).commit = false ∧ mtrSt.dome.ledger.at_ = some 120 ∧
    (120 : Nat) ≤ 120 ∧ ({} : State).dome.ledger.open_ = false ∧ ({} : State).mtr.recovering = false := by decide +kernel

theorem witness_SecondsFoldCloseAndReprice_rows :
    pageShut {} pgMtr = true ∧ pageShut { dev := { ready := true } } pgMtr = false ∧ ({} : State).time.st = 0 ∧
    (let s : State := { mtrSt with reel := { order := some (1024 * 120, [0]) } }
     s.time.st ≠ 0 ∧ s.reel.order = some (1024 * 120, [0]) ∧ 1024 * 120 ≤ s.time.bell) ∧ ({} : State).mtr.hidden = none ∧
    ({ mtr := { hidden := some (5, []) } } : State).mtr.hidden = some (5, []) ∧
    atFigure (running {} (desc 0x0B02 0 [])) 0 0 0x0B02 = true ∧ (workDesc (running {} (desc 0x0B02 0 [])) 0 0).length = 128 ∧
    dikSign (running {} (desc 0x0B02 0 [])) [] [] = none ∧ (dikSign { dome := { dik := some 1 } } [] (zeros 55 ++ [1])).isSome = true := by
  decide +kernel


/-- The metering engine may write every page of the ledger, or not the first. -/
theorem witness_SecondsFoldCloseAndReprice_access :
    (∀ o ∈ ledgerPages, intRefusal mtrSt 6 true (0x20004000 + o) = none) ∧
    intRefusal { acu := { int := [(0, { valid := true, init := 64, base := 0x20004000, size := 12, wr := false })] } } 6 true 0x20004000 ≠ none ∧
    (let s : State := { mtr := { recovering := true }, dome := { ledger := { open_ := true } } }
     s.mtr.recovering = true ∧ s.dome.ledger.open_ = true) := by decide +kernel

/-- The keys of TALLY_STATEMENT and of ATTEST pass. -/
theorem witness_SecondsFoldCloseAndReprice_statement : ∀ op ∈ ([0x0B01, 0x0B02] : List Nat),
    let d := patch (desc op 2 [2]) 64 [0xFF, 0xFF]
    let s := runningMf {} d
    opOf (workDesc s 0 0) = op ∧ formOf (workDesc s 0 0) = 2 ∧ (s.ctx 0 0).claim = none ∧ carries s 0 0 = false ∧ listWhole (s.ctx 0 0).work.listRaw = false ∧
    paramFault (s.setCtx 0 0 { s.ctx 0 0 with keysOk := true }) { callOf d with fn := mfNum, bell := some 5 } (workDesc s 0 0) [] = none := by decide +kernel
/-! ## Access control and register accesses -/

/-- TF 9 with R387's entry. -/
def tf9 : State :=
  { acu := { tf := [(72, { base := 0x1234000000, size := 11, subDis := 0x80, rd := true, wr := true, valid := true })] } }

theorem witness_RegionsJudgeEachAccess :
    regionH tf9 9 0 = { base := 0x1234000000, size := 11, subDis := 0x80, rd := true, wr := true, valid := true } ∧
    (∀ e, e < 8 → 0 < e → (regionH tf9 9 e).valid = false) ∧ tf9.sup.log = [] ∧ (regionH tf9 9 0).matches 0x1234000000 = true ∧
    (∀ e, e < 8 → (regionH tf9 9 e).matches 0x1237800000 = false) ∧ hostRefusal tf9 9 true 0x12377FFFFF = none ∧
    hostRefusal tf9 9 true 0x1233FFFFFF = some 0 ∧ (9 : Nat) ≠ 0xFFFF ∧ tblWf {} tf9.hif.tfs = true ∧
    16 ≤ (List.replicate 16 ([] : List Word)).length := by decide +kernel

theorem witness_RegionsJudgeEachAccess_internal :
    let s : State := { acu := { int := [(3, { base := 0x8000, size := 12, rd := true, valid := true, init := 2 })] } }
    targetOf 0x04000000 = none ∧ targetOf 0x03FFFFFF = some .pages ∧ defaultMap 1 0x10000000 .keep = false ∧ defaultMap 1 0x9000 .pages = true ∧
    (∀ e, e < 16 → (tblGet ({} : RegionI) s.acu.int e).matches 1 0x9000 = false) ∧ (tblGet ({} : RegionI) s.acu.int 3).matches 1 0x8FFF = true ∧
    (∀ j, j < 3 → (tblGet ({} : RegionI) s.acu.int j).matches 1 0x8FFF = false) ∧ intRefusal s 1 true 0x8FFF = some 1 ∧
    intRefusal s 1 false 0x8FFF = none := by decide +kernel

/-- A ready device of two TFs whose MF may not write BLK_LOCK of the SPIRE page. -/
def regSt : State :=
  { dev := { ready := true }, hif := { numTf := 2 }
    acu := { int := [(0, { base := 0x8000, size := 12, rd := true, valid := true, init := 2 })] } }

theorem witness_RegisterAccessesObeyTheirRules :
    intRefusal regSt 1 true 0x8000 = some 1 ∧ intRefusal { acu := { int := [(0, { base := 0x8000, size := 12, valid := true, init := 2 })] } } 1 false 0x8000 = some 1 ∧
    fnExists regSt 2 = false ∧ fnExists regSt 1 = true ∧ fnExists regSt 0xFFFF = true ∧ intRefusal regSt 1 false 0x8000 = none ∧
    isLow 0 0x2000 = true ∧ isLow 0 0x2004 = false ∧
    latchAt (regSt.setTf 0 { regSt.tf 0 with latch := some (0x2004, 7) }) 0 0x2004 = some (0x2004, 7) ∧ latchAt regSt 0 0x2004 = none ∧
    isBlock 0x014 = false ∧ isBlock 0x110 = true ∧ pageShut {} pgHif = true ∧ pageShut regSt 5 = false := by decide +kernel

theorem witness_RegisterAccessesObeyTheirRules_types :
    isBlock 2 = true ∧ pageShut regSt 2 = false ∧ isLow 0xFFFF (4096 * 5 + 0x054) = false ∧ 0x011 % 4 ≠ 0 ∧ regSt.dev.ready = true ∧
    intRefusal regSt 1 true 0x2054 = none ∧ intRefusal regSt 1 true 0x0058 = none ∧ 18 ≤ 18 % 32 ∧ (regSt.head 0).lock.getLsbD 0 = false ∧
    (({ heads := [(0, { lock := 1 })] } : State).head 0).lock.getLsbD 0 = true ∧ regSt.dev.tnOut ≠ BitVec.ofNat 4 1 ∧ 1 < regSt.hif.numTf ∧
    tfListed 0x40 = false ∧ tfListed 0x3C = true ∧ (regSt.tf 1).frozen = false ∧ isLow 1 0x3C = false := by decide +kernel

/-- Debug access in TEST and RETURN, in the TEST phase; in SERVICE there is none. -/
theorem witness_RegisterAccessesObeyTheirRules_debug :
    fnExists regSt 0xFFFE = false ∧ ({ lcs := { st := 1 }, dev := { tnPhase := 3 } } : State).dev.tnPhase = 3 ∧
    debugReach { lcs := { st := 4 }, dev := { tnPhase := 3 } } 0 = true ∧ debugReach { lcs := { st := 3 }, dev := { tnPhase := 2 } } 0 = false ∧
    intRefusal regSt 1 true 0 = none ∧ intRefusal regSt 1 false 0 = none := by decide +kernel

/-- R7, R13: a field of type RW, W1C and W1S, a reserved encoding and a locked field. -/
theorem test_register_write :
    let s : State := { regSt with heads := [(0, { irqStatus := 0xC, lock := 1 })] }
    after (Machine.exec (.registerWrite 0xFFFF 0x10 32 4) s) (fun t => (t.head 0).irqStatus) = some 8 ∧
    after (Machine.exec (.registerWrite 0xFFFF 0x14 32 0xFF) s) (fun t => (t.head 0).irqEnable) = some 0xF ∧
    after (Machine.exec (.registerWrite 0xFFFF 0x1C 32 2) s) (fun t => (t.head 0).lock) = some 1 ∧
    after (Machine.exec (.registerWrite 0xFFFF 0x58 32 1) s) (fun t => (t.dev.tnOut, (t.head 0).werrCount)) = some (0, 1) ∧
    after (Machine.exec (.registerWrite 0xFFFF 0x2054 32 18) s) (fun t => (t.pwr.tjSel, (t.head 2).werr)) = some (0, true) := by decide +kernel

/-- Without class I entries, every access of the MF to a page is allowed. -/
theorem witness_RegisterAccessesObeyTheirRules_heads : isBlock 5 = true ∧ ∀ o, o < 4096 → intRefusal { dev := { ready := true } } 1 true (4096 * 5 + o) = none := by
  constructor
  · decide
  · intro o h
    have t : targetOf (4096 * 5 + o) = some .pages := by
      unfold targetOf
      rw [if_pos (by omega)]
    simp [intRefusal, t, defaultMap, tblGet, RegionI.matches, List.find?, List.range, List.range.loop]

theorem witness_RegisterAccessesObeyTheirRules_rows :
    acuOffset 0x00D280 = false ∧ intRefusal regSt 1 true 0x020480 = none ∧ ((({} : State).head pgArb).commit = false) ∧
    (let s : State := { cycle := 4, heads := [(pgArb, { commit := true })], caller := { commitAt := 3 } }
     (s.head pgArb).commit = true ∧ s.cycle % 4 = 0 ∧ s.caller.commitAt < s.cycle) ∧ (5 % 4 ≠ 0 ∧ ({} : State).cycle ≤ ({} : State).caller.commitAt) ∧ intRefusal regSt 1 true 0x1044 = none ∧
    intRefusal regSt 1 true 0x1054 = none ∧ locked { heads := [(pgArb, { lock := 1 })] } pgArb 0 = true ∧
    (({ lock := true } : RegionH).lock = true) ∧ ({ valid := true } : RegionH).base % 2 ^ 15 = 0 ∧
    (writeH { valid := true } 8 0x8000000B = none ∨ (writeH {} 8 0x8003800B).isSome = true) ∧ (17 : Nat) ≤ 17 ∧
    ((({} : State).setCtx 0 0 { st := .frozen }).ctx 0 0).st = .frozen := by decide +kernel

/-- R12: the identity of TOWER16 is page 0x110, version 0x0100. -/
theorem test_blk_id : after (Machine.exec (.lowHalfRead 0xFFFF 0x110000 32) regSt) (fun s => s.smb.readData) = some 0x01100100 := by decide +kernel

/-- R9: the high half read after the low half is the one latched then. -/
theorem test_latch :
    let s := regSt.setTf 0 { regSt.tf 0 with latch := some (0x2004, 7) }
    after (Machine.exec (.lowHalfRead 0 0x2004 32) s) (fun t => (t.smb.readData, (t.tf 0).latch)) = some (7, none) := by decide +kernel

/-- R383: a base that is no multiple of the region's size is not taken with VALID. -/
theorem test_entry : writeH { base := 0x1234001000 } 8 0x8003000B = none ∧ (writeH { base := 0x1234000000 } 8 0x8003800B).map (fun r => (r.size, r.subDis, r.rd, r.wr, r.valid)) =
    some (11, 0x80, true, true, true) := by decide +kernel

/-! ## Custody -/

/-- The P-384 public keys of two custodians. -/
def pub1 : Bytes :=
  beBytes 60 0x0419fc6ebe957236248a5af0cf9e25cc3f14219f89d063eef1aaf8f24e60db4cc26ed86b8063edc74526cfbb45e1bf9c4743f8e085b278a99e97d647 ++
  beBytes 37 0xd413704380a7b5e09929a657877d4caa93c823f97953dc53d1c9cddd442f9e620749b7f4c6
/-- The second one. -/
def pub2 : Bytes :=
  beBytes 60 0x047359f225b60b9e7b4509e6b2ecb19b792d4d6d3a89d3ed7efa2cc991d4ed3031efd4a08fc80448fee0f9a1836b6efe901e71f3c1ad33e319098d48 ++
  beBytes 37 0x644ae0744b6a9a0869c8e464ebe2a16e73d30ef3f32ae0cd999e25cd829ad3aff6917e60ab

/-- A table of two custodians: slot 0 in group A, slot 1 in group B, one of each needed. -/
def tableHead : Bytes := ascii "CTBL" ++ [1, 1, 1, 0] ++ leBytes 2 3 ++ leBytes 2 2 ++ zeros 4 ++ pub1 ++ pub2 ++ zeros (14 * 97)

/-- Custody in SERVICE with that table and a ceremony. -/
def cusSt (x : Option Ceremony) : State := { lcs := { st := 3 }, cus := { table := some (tableHead ++ zeros 193), cer := x } }

theorem witness_CeremoniesNeedTheirQuorum :
    (let x : Ceremony := { typ := 3, counted := [0] }
     cerOf (cusSt (some x)) 0 0 = some x ∧ x.authorized = false ∧ countOf (cusSt (some x)) x false = 1 ∧ countOf (cusSt (some x)) x true = 0) ∧
    (let s := running {} (desc 0x0C01 64 [3])
     atFigure s 0 0 0x0C01 = true ∧ cerChecks s 0 0 0x0C01 = some stStateNot) ∧
    (let s := running (cusSt none) (desc 0x0C01 64 [3])
     atFigure s 0 0 0x0C01 = true ∧ cerChecks { s with lcs := { st := 3 }, cus := (cusSt none).cus } 0 0 0x0C01 = none ∧ commitWaits s 0 0 = false ∧
     cerInputOk s 3 (zeros 8) = true ∧ cerInputOk s 3 (1 :: zeros 7) = false) := by decide +kernel

/-- R410: the second group completes the quorum. -/
theorem test_quorum : ((authorize (cusSt (some { typ := 3, counted := [0] })) 0 0).cus.cer.map (·.authorized)) = some false ∧
    ((authorize (cusSt (some { typ := 3, counted := [0, 1] })) 0 0).cus.cer.map (·.authorized)) = some true := by decide +kernel

/-- A ceremony call waits while another context's commit waits for its batch. -/
theorem witness_CeremoniesNeedTheirQuorum_turn :
    let s0 := running (cusSt none) (desc 0x0C01 64 [3])
    let s := (s0.setCtx 0 0 { s0.ctx 0 0 with disp := 1 }).setCtx 1 0
      { st := .waiting, call := some (callOf (desc 0x0C03 64 [4])), needs := [.commit], work := { phase := 1 } }
    commitWaits s 0 0 = true ∧ atFigure s 0 0 0x0C01 = true := by decide +kernel

theorem witness_CeremoniesNeedTheirQuorum_table :
    let s := { running {} (desc 0x0C01 64 [1]) with lcs := { st := 2 } }
    let b := tableHead ++ zeros 193
    atFigure s 0 0 0x0C01 = true ∧ cerChecks s 0 0 0x0C01 = none ∧ par (workDesc s 0 0) 64 = 1 ∧ tabLayout b = true ∧ allZero ((tableHead ++ zeros 192 ++ [1]).drop 1568) = false ∧
    tabLayout (b.set 7 1) = false ∧ allZero s.fuse.owner = true ∧ allZero (b.drop 1568) = true := by decide +kernel

/-- A ceremony of DMK_LOAD with two components. -/
def dmkCer : Ceremony := { typ := 2, input := [0, 2] ++ zeros 6, challenge := zeros 32, pdigest := zeros 47 ++ [1], eph := 1 }

/-- An authentication record of slot 0 without a component, and its signature: r and s are the digest itself, so that both factors of
the verification are 1 and R is the sum of the base point and the key (FIPS 186-5, worked out outside the model). -/
def authRec : Bytes :=
  beBytes 60 0x434155540000020000000000000000000000000000000000000000000000000000000000000000000000000000000000000000000000000000000000 ++
  beBytes 60 0x000000000000000000000000000000000000000000000000000000000000000000000001000000000000000000000000000000000000000000000000 ++
  beBytes 60 0x000000000000000000000000000000000000000000000000000000000000000000000000000000000000000000000000000000000000000000000000 ++
  beBytes 60 0x000000000000000000000000000000000000000000000000000000000000000000000000000000000000000000000000000000000000000000000000 ++
  beBytes 60 0x1b2d3f6a000aee4e2753c6b4e052034a1c9c85383885524b9c2ec1b94c904e739346bd2101d5ca8e37a53b4f102a0d4d1b2d3f6a000aee4e2753c6b4 ++
  beBytes 36 0xe052034a1c9c85383885524b9c2ec1b94c904e739346bd2101d5ca8e37a53b4f102a0d4d

/-- One of slot 1 with a component of 32 bytes 09, wrapped for the device key of scalar 1 by the ephemeral key of scalar 1. -/
def authComp : Bytes :=
  beBytes 60 0x434155540101020000000000000000000000000000000000000000000000000000000000000000000000000000000000000000000000000000000000 ++
  beBytes 60 0x00000000000000000000000000000000000000000000000000000000000000000000000104aa87ca22be8b05378eb1c71ef320ad746e1d3b628ba79b ++
  beBytes 60 0x9859f741e082542a385502f25dbf55296c3a545e3872760ab73617de4a96262c6f5d9e98bf9292dc29f8f41dbd289a147ce9da3113b5f0b8c00a60b1 ++
  beBytes 60 0xce1d7e819d7a431d7c90ea0e5f4b8d93bf5153d096edd88ccb2cb2037a298f3bee535e94aa8156d0a2b0de0abd2d2ba8fa8e66e74a00000000000000 ++
  beBytes 60 0x27005857abb48ece1654e10ccc00e3d33df7484374133e447e130801fccee01be5dc2f9780d487a7b12f30806efe2ba927005857abb48ece1654e10c ++
  beBytes 36 0xcc00e3d33df7484374133e447e130801fccee01be5dc2f9780d487a7b12f30806efe2ba9

/-- CUSTODIAN_AUTH of a record. -/
def authSt (b : Bytes) (x : Option Ceremony) : State :=
  let s := running (cusSt x) (desc 0x0C02 0 [])
  s.setCtx 0 0 { s.ctx 0 0 with work := { blob := b } }

/-- The same at a stage of its checks. -/
def authAt (b : Bytes) (x : Option Ceremony) (p : Nat) : State :=
  let s := authSt b x
  s.setCtx 0 0 { s.ctx 0 0 with work := { (s.ctx 0 0).work with vals := [p] } }

/-- The first command of a record's checks, and what it answers. -/
def authFirst (b : Bytes) (x : Ceremony) : State × Bool :=
  let s := authSt b (some x)
  let pr := authProg s x b 0
  spPart pr.1 true true 0 0 (loadHalf s 0 0 pr.2)

theorem witness_CeremoniesNeedTheirQuorum_pieces : ([0, 1, 2, 3] : List Nat).map (fun p =>
    let s := authAt authRec (some dmkCer) p
    (atFigure s 0 0 0x0C02 && !commitWaits s 0 0 && !cerLate s 0 0, (s.ctx 0 0).work.vals.getD 0 0)) = [(true, 0), (true, 1), (true, 2), (true, 3)] ∧
    (authFirst authRec dmkCer).2 = false ∧ ((authFirst authRec dmkCer).1.ctx 0 0).work.pc < (ecVerifyProg curveP384).length ∧
    (authFirst (authRec.drop 240 ++ zeros 240) dmkCer).2 = false ∧ ((authSt authRec none).ctx 0 0).work.sp = 0 ∧
    cerOf (authSt authRec none) 0 0 = none ∧ cerChecks (authSt authRec (some dmkCer)) 0 0 0x0C02 = none ∧
    cerChecks (authSt authRec none) 0 0 0x0C02 = some stCeremony := by decide +kernel

theorem witness_CeremoniesNeedTheirQuorum_auth :
    let s := authSt authRec (some dmkCer)
    atFigure s 0 0 0x0C02 = true ∧ par (workDesc s 0 0) 64 = 0 ∧ inputOf s 0 0 = authRec ∧ authFields s dmkCer authRec = true ∧
    tabKey (s.cus.table.getD []) (byteAt authRec 4) = pub1 ∧ bitOf (byteAt authRec 5) 0 = false ∧
    byteAt authRec 4 ∉ dmkCer.counted ∧ byteAt authRec 4 ∈ ({ dmkCer with counted := [0] } : Ceremony).counted ∧
    authFields s dmkCer (authRec.set 6 3) = false ∧ dmkCer.rejects < 2 := by decide +kernel

/-- Its signature verifies; the digest is that of SHA-384 (FIPS 180-4). -/
theorem witness_CeremoniesNeedTheirQuorum_signature : p384Verify pub1 (authRec.take 240) (authRec.drop 240) = true := by
  have h : sha384 (authRec.take 240) = beBytes 48 0x1b2d3f6a000aee4e2753c6b4e052034a1c9c85383885524b9c2ec1b94c904e739346bd2101d5ca8e37a53b4f102a0d4d := by decide +kernel
  have d : decPoint curveP384 pub1 = some (0x19fc6ebe957236248a5af0cf9e25cc3f14219f89d063eef1aaf8f24e60db4cc26ed86b8063edc74526cfbb45e1bf9c47,
      0x43f8e085b278a99e97d647d413704380a7b5e09929a657877d4caa93c823f97953dc53d1c9cddd442f9e620749b7f4c6) := by decide +kernel
  unfold p384Verify
  rw [h, d]
  decide +kernel

theorem witness_CeremoniesNeedTheirQuorum_component :
    let s := authSt authComp (some dmkCer)
    inputOf s 0 0 = authComp ∧ authFields s dmkCer authComp = true ∧ tabKey (s.cus.table.getD []) (byteAt authComp 4) = pub2 ∧
    dmkCer.comps.length < byteAt dmkCer.input 1 ∧ byteAt dmkCer.input 1 ≤ ({ dmkCer with comps := [[1], [2]] } : Ceremony).comps.length := by
  decide +kernel

theorem witness_CeremoniesNeedTheirQuorum_component_opens :
    authComponent (authSt authComp (some dmkCer)) dmkCer authComp = some (List.replicate 32 9) := by decide +kernel

theorem witness_CeremoniesNeedTheirQuorum_component_fails :
    authComponent (authSt authComp (some dmkCer)) dmkCer (authComp.set 96 5) = none := by decide +kernel

theorem witness_CeremoniesNeedTheirQuorum_component_signature : p384Verify pub2 (authComp.take 240) (authComp.drop 240) = true := by
  have h : sha384 (authComp.take 240) = beBytes 48 0x27005857abb48ece1654e10ccc00e3d33df7484374133e447e130801fccee01be5dc2f9780d487a7b12f30806efe2ba9 := by decide +kernel
  have d : decPoint curveP384 pub2 = some (0x7359f225b60b9e7b4509e6b2ecb19b792d4d6d3a89d3ed7efa2cc991d4ed3031efd4a08fc80448fee0f9a1836b6efe90,
      0x1e71f3c1ad33e319098d48644ae0744b6a9a0869c8e464ebe2a16e73d30ef3f32ae0cd999e25cd829ad3aff6917e60ab) := by decide +kernel
  unfold p384Verify
  rw [h, d]
  decide +kernel

theorem witness_CeremoniesNeedTheirQuorum_card :
    firstNeed (waiting {} (desc 0x0C02 64 [1]) .card) 0 0 = some .card ∧ firstNeed {} 0 0 ≠ some .card ∧
    (zeros 336 ++ [0x90, 0x00]).length = 338 ∧ ((zeros 336 ++ [0x90, 0x00]).drop 336 = [0x90, 0x00]) := by decide +kernel

/-- A commit of an authorized ceremony of a type, with its input. -/
def commitSt (typ : Nat) (i : Bytes) (comps : List Bytes) : State :=
  let s := cusSt (some { typ := typ, authorized := true, input := i, comps := comps })
  running { s with pwr := { s.pwr with holdup := true, vcore := 750 } } (desc 0x0C03 64 [BitVec.ofNat 8 typ])

theorem witness_CeremoniesNeedTheirQuorum_commit :
    (∀ k ∈ ([2, 3, 4, 5, 8, 9, 10, 11] : List Nat), atFigure (commitSt k [] []) 0 0 0x0C03 = true ∧
      par (workDesc (commitSt k [] []) 0 0) 64 = k ∧ cerChecks (commitSt k [] []) 0 0 0x0C03 = none ∧ commitWaits (commitSt k [] []) 0 0 = false ∧ cerLate (commitSt k [] []) 0 0 = false) ∧
    cerChecks { commitSt 2 [] [] with cus := {} } 0 0 0x0C03 = some stCeremony ∧
    (let cs : List Bytes := [List.replicate 32 1, List.replicate 32 2]
     (cs.any allZero || !decide cs.Nodup || allZero (cs.foldl xorB (zeros 32))) = false ∧ (commitSt 2 [0, 2] cs).dome.cur = none ∧
     byteAt [(0 : Byte), 2] 0 = 0) ∧
    (({ vault := { nextReady := true } } : State).vault.nextReady = true) ∧ ({ dome := { next := some [1] } } : State).dome.next = some [1] ∧ (commitSt 3 [] []).vault.st = 0 ∧
    ((commitSt 4 [] []).ctx 0 0).work.phase = 0 ∧ (commitSt 4 [] []).vault.st ≠ 3 ∧ intRefusal (commitSt 2 [] []) 6 true 0x20000000 = none := by decide +kernel

/-- A partition's commit with the vault ONLINE. -/
def partSt (typ : Nat) : State := let s := commitSt typ ([5, 0] ++ zeros 110) []
  { vaultSt s with lcs := s.lcs }

theorem witness_CeremoniesNeedTheirQuorum_partition : ∀ k ∈ ([4, 5] : List Nat),
    atFigure (partSt k) 0 0 0x0C03 = true ∧ cerChecks (partSt k) 0 0 0x0C03 = none ∧ (partSt k).vault.st = 3 ∧ pstate (partSt k) 5 = 0 ∧
    (descLines (partSt k) 5 (zeros 256)).isSome = true ∧ waysFor (partSt k) [] = true ∧ descLines {} 5 (zeros 256) = none ∧
    pstate { partSt k with vault := { (partSt k).vault with descs := [(5, 4 :: 1 :: zeros 254)] } } 5 ≠ 0 := by decide +kernel

theorem witness_CeremoniesNeedTheirQuorum_states :
    (let s := { commitSt 8 (sha384 []) [] with cus := { table := some [], cer := some { typ := 8, authorized := true, input := sha384 [] } } }
     s.cus.table.any (fun b => tabDigest b == ((s.cus.cer.map (·.input)).getD [])) = true) ∧
    lcRefusal { commitSt 9 [] [] with lcs := { st := 3 }, pwr := { (commitSt 9 [] []).pwr with supplyOk := true } } 2 = 0 ∧ lcRefusal ({ pwr := { holdup := false } } : State) 2 = 2 ∧
    (commitSt 9 [] []).lcs.transition = none := by decide +kernel

theorem witness_CeremoniesNeedTheirQuorum_ends :
    atFigure (running {} (desc 0x0C04 0 [])) 0 0 0x0C04 = true ∧ atFigure (running {} (desc 0x0B01 0 [])) 0 0 0x0B01 = true ∧
    ({} : State).cus.cer = none ∧
    (let s : State := { time := { st := 1, bell := 1024 }, cus := { cer := some { expires := some 1 } } }
     s.time.st ≠ 0 ∧ 1024 * 1 ≤ s.time.bell ∧ s.cus.cer.bind (·.expires) = some 1) ∧
    ({ cyclesLeft := 1 } : Ceremony).cyclesLeft ≠ 0 ∧ dikSign {} [] [] = none ∧
    (dikSign { dome := { dik := some 1 } } [7] (zeros 56)).isSome = true := by decide +kernel

/-- 14, the example: row 2 is SERVICE with SEQ 3, and a row cut after its CODE bits loses the device. -/
theorem test_rows : lcRow 0xA35C 3 = 0xA35C0C03 ∧ fuseState { fuse := { rows := [lcRow (lcsCode 1) 1, lcRow (lcsCode 2) 2, 0xA35C0C03] ++ List.replicate 21 0 } } = 3 ∧
    fuseState { fuse := { rows := [lcRow (lcsCode 1) 1, lcRow (lcsCode 2) 2, 0xA35C0C03, 0x5CA30000] ++ List.replicate 20 0 } } = 6 := by decide +kernel

/-! ## The Dome, power, spares and pins -/

/-- A Dome on main power or on the battery. -/
def domeSt (main tampered : Bool) : State := { dome := { onMain := main, tampered := tampered, cause := 1, sensorEn := 0x3F } }

theorem witness_TamperErasesAndIsLogged :
    (0 : BitVec 15) &&& sensorMask (domeSt true false).dome = 0 ∧ (1 : BitVec 15) &&& sensorMask (domeSt true false).dome ≠ 0 ∧
    (0x100 : BitVec 15) &&& sensorMask (domeSt true false).dome = 0 ∧ (0x100 : BitVec 15) &&& sensorMask (domeSt false false).dome ≠ 0 ∧
    (domeSt true true).dome.tampered = true ∧ (domeSt true true).dome.acked = false ∧ (domeSt true false).dome.tampered = false ∧
    (domeSt true false).dome.onMain = true ∧ (domeSt false false).dome.onMain = false ∧ (2600 : Nat) ≤ 2600 ∧ (2599 : Nat) < 2600 ∧
    (0 : Nat) < 6 ∧ intRefusal (domeSt true false) 6 true domeLog = none ∧
    intRefusal { acu := { int := [(0, { valid := true, init := 64, base := domeLog / 4096 * 4096, size := 12, wr := false })] } } 6 true domeLog ≠ none := by
  decide +kernel

/-- R423, R427: an event on the battery: no Bell, nothing cleared yet, and the entry that DOME_LOG_NEXT names. -/
theorem test_tamper : after (Machine.exec (.tamperEvent 0x101 (BitVec.ofNat 8 25) 3000) (domeSt false false)) (fun s =>
    (s.dome.logNext, s.dome.unhandled, (tblGet ({} : TamperEnt) s.dome.log 0).cause, (tblGet ({} : TamperEnt) s.dome.log 0).onBattery)) =
  some (1, true, 0x101, true) := by decide +kernel

/-- R425: an acknowledgement with a live sensor is refused; in SERVICE the device stays TAMPERED. -/
theorem test_ack :
    after (Machine.exec (.domeAck 1 1) (domeSt true true)) (fun s => (s.dome.acked, s.dome.tampered)) = some (false, true) ∧
    after (Machine.exec (.domeAck 1 0) (domeSt true true)) (fun s => (s.dome.acked, s.dome.tampered)) = some (true, false) ∧
    after (Machine.exec (.domeAck 1 0) { domeSt true true with lcs := { st := 3 } }) (fun s => (s.dome.acked, s.dome.tampered, s.dome.cause)) =
      some (true, true, 0) := by decide +kernel

/-- A state of the thermal controller. -/
def hotSt (th : Nat) (c : Int) : State := { pwr := { thermal := th, tj := List.replicate 17 (BitVec.ofInt 8 c) ++ [BitVec.ofInt 8 (c - 4)] } }

theorem witness_PowerThermalSparesAndPins :
    (hotSt 0 40).lcs.transition = none ∧ (699 : Nat) < 700 ∧ (619 : Nat) < 620 ∧ ({ dev := { ready := true } } : State).dev.ready = true ∧
    (List.replicate 18 (0 : BitVec 8)).length = 18 ∧ (List.replicate 17 (0 : BitVec 8)).length ≠ 18 ∧ (hotSt 1 110).pwr.thermal = 1 ∧
    (hotSt 2 110).pwr.thermal = 2 ∧ (∀ t, t < 17 → ∀ i, i < 8 → ((hotSt 2 110).ctx t i).call = none) ∧ (hotSt 2 110).vault.writing = none ∧
    (hotSt 2 110).vault.batch = none ∧ reading (hotSt 1 110).pwr.tj (hottest (hotSt 1 110).pwr.tj) = 110 := by decide +kernel

/-- R430, R432: the thresholds 105, 102 and 115 of a reading of every sensor. -/
theorem test_thermal :
    let th := fun (st : Nat) (c : Int) => after (Machine.exec (.thermalReading (List.replicate 18 (BitVec.ofInt 8 c))) (hotSt st 0)) (fun s => s.pwr.thermal)
    [th 0 104, th 0 105, th 1 102, th 1 101, th 1 115, th 0 115, th 2 20] = [some 0, some 1, some 1, some 0, some 2, some 2, some 2] := by
  decide +kernel

/-- A ready device with a part under test. -/
def testSt (s : State) : State := { s with dev := { s.dev with ready := true } }

theorem witness_PowerThermalSparesAndPins_tests :
    testsOn {} = false ∧ testsOn (testSt {}) = true ∧ spareDue (testSt { sup := { spareTimer := 2 ^ 36 } }) = some 16 ∧
    (testSt {}).sup.spareTesting = false ∧ spireClaimable (testSt {}) 0 = true ∧ 0 < (testSt {}).towers.length ∧
    ((testSt {}).tower 0).spire.testing = false ∧
    (let s := testSt {}
     ((s.setTower 0 { s.tower 0 with spire := { testing := true } }).tower 0).spire.testing = true ∧
     (((modLane s 0 false 1 (fun l => { l with testing := true })).tower 0).lanes false)[1]?.map (·.testing) = some true) ∧
    spireWaiters (testSt {}) 0 = [] ∧ spireWaiters (testSt (waiting {} (desc 0x0801 0 []) .spire)) 0 ≠ [] ∧ laneWaiters (testSt {}) 0 false = [] := by decide +kernel

/-- R433: a test whose part has been requested is no test. -/
theorem test_abandoned :
    let s := testSt (waiting {} (desc 0x0801 0 []) .spire)
    let s := s.setTower 0 { s.tower 0 with spire := { testing := true } }
    after (Machine.exec (.selfTestDone (.spire 0) false) s) (fun t => (t.sup.testFails, (t.tower 0).spire.retired, (t.tower 0).spire.testing)) =
      some (0, false, false) := by decide +kernel

/-- R437: a record of which one copy is not burned still reads by majority. -/
theorem test_sparing :
    let s : State := { sup := { pending := [5] }, pwr := { holdup := true } }
    after (Machine.exec (.sparingFuseBurn false) s) (fun t => (t.fuse.sparing, sparingRecs t.fuse)) = some ([(5, 7)], [5]) ∧
    ([6, 5, 3, 4, 1] : List Nat).map (fun m => sparingRecs { sparing := [(5, m)] }) = [[5], [5], [5], [], []] := by decide +kernel

/-- A line of row 0 is held, and one is not. -/
theorem witness_PowerThermalSparesAndPins_rows :
    let s : State := { keep := { liveRooms := [(0, some 0)], lines := [(keepKey 0 1 0, { way := 0, st := .writing })] } }
    rowBusy {} 0 = false ∧ rowLines {} 0 = [] ∧ (s.keep.lines.any (fun e => e.2.st == .writing)) = true := by decide +kernel

/-- R459: a code that is not listed is NACKed. -/
theorem test_smbus_nack : ([0, 7] : List Nat).map (fun c => after (Machine.exec (.smbStatus c []) { dev := { tnPhase := 2 }, smb := { answer := some [1] } })
    (fun s => s.smb.answer)) = [some none, some none] := by decide +kernel

/-- R453, R455: pins are high-impedance before their phase; TOD_TX rests high. -/
theorem test_pins : (List.range 24).all (fun i => turnPin { dev := { tnPhase := 1 } } i == .z) = true ∧
    turnPin { dev := { tnPhase := 2 } } 13 = .level true ∧ turnPin { dev := { tnPhase := 2 } } 3 = .level false ∧ turnPin { dev := { tnPhase := 3 } } 3 = .debug := by
  decide +kernel

theorem witness_PowerThermalSparesAndPins_parts :
    (testSt {}).sup.roles.getD 0 2 ≠ 3 ∧
    (let s : State := { sup := { roles := (List.replicate 16 1 ++ [0]).set 4 3 } }
     s.sup.roles.getD 4 2 = 3 ∧ ∀ i, i < 8 → (s.ctx 4 i).st = .free) ∧ ((running {} []).ctx 0 0).st ≠ .free ∧
    ({} : State).sup.pending = [] ∧ ({ sup := { pending := [5] }, pwr := { holdup := true } } : State).sup.pending = 5 :: [] ∧
    ({ sup := { pending := [5] }, pwr := { holdup := true } } : State).pwr.holdup = true ∧
    (let s : State := { sup := { rowCorr := [(7, 3)], rowsDisabled := [9] } }
     tblGet 0 s.sup.rowCorr 7 = 3 ∧ tblGet 0 s.sup.rowCorr 8 < 3 ∧ 9 ∈ s.sup.rowsDisabled ∧ 7 ∉ s.sup.rowsDisabled ∧ s.keep.repaired.length < 64) ∧
    64 ≤ (List.range 64).length ∧ ({} : State).dev.tnPhase < 2 ∧ 2 ≤ ({ dev := { tnPhase := 2 } } : State).dev.tnPhase ∧
    ({} : State).dev.tnPhase = 0 := by decide +kernel

theorem witness_PowerThermalSparesAndPins_ecc :
    let s := keyedCall.setTower 0 { keyedCall.tower 0 with cache := [(3, { part := 0, cls := 0, idx := 0 })] }
    let h := handleOf (workDesc s 0 0) 0
    atFigure s 0 0 0x0101 = true ∧ 0 < s.towers.length ∧ (s.ctx 0 0).call = some (callOf (desc 0x0101 0 [])) ∧
    0 ∈ slotsOf (isMf (callOf (desc 0x0101 0 [])).fn) (workDesc s 0 0) ∧ (tcLookup s 0 (hPart h) (hCls h) (hIdx h)).isSome = true := by
  decide +kernel

/-- R458: nine agreeing samples change nothing, the tenth does. -/
theorem test_sample :
    let s := fun (k : Nat) => ({ dev := { tnPhase := 2, disagree := [k, 0, 0, 0] } } : State)
    after (Machine.exec (.inputSample 1) (s 8)) (fun t => t.dev.tnIn) = some 0 ∧
    after (Machine.exec (.inputSample 1) (s 9)) (fun t => t.dev.tnIn) = some 1 := by decide +kernel

/-- 16, the example of the straps: SMBus address 0x63. -/
theorem test_smbus : smbAddr { dev := { straps := 0x76 } } = 0x63 ∧
    after (Machine.exec .smbAlertResponse { dev := { straps := 0x76, tnPhase := 2 }, smb := { alert := 1 } }) (fun s => s.smb.answer) = some (some [0x63]) := by
  decide +kernel


/-- A line in WRITING of row 0. -/
def busySt : State := { keep := { liveRooms := [(0, some 0)], lines := [(keepKey 0 1 0, { way := 0, st := .writing })] } }

theorem witness_PowerThermalSparesAndPins_busy : rowBusy busySt 0 = true := by
  have p : poolSets busySt 0 = 64 := by decide +kernel
  have z : setOf busySt 0 1 0 / 64 = 0 := by
    have := Nat.mod_lt (Config.keepHash busySt.keep.hashKey 1 0) (show 0 < 64 by decide)
    simp only [Machine.setOf, p]
    omega
  have k : (keyPart (keepKey 0 1 0), keyCls (keepKey 0 1 0), keyIdx (keepKey 0 1 0)) = (0, 1, 0) := by decide +kernel
  have r : (roomsOf busySt 0)[0]? = some 0 := by decide +kernel
  simp only [Prod.mk.injEq] at k
  have l : rowLines busySt 0 = busySt.keep.lines := by
    unfold rowLines
    have : (tblGet none busySt.keep.liveRooms (0 / 16) : Option Nat) = some 0 := by decide +kernel
    rw [this]
    simp only [List.filter_eq_self]
    intro e he
    rcases List.mem_singleton.mp he with rfl
    simp [k.1, k.2.1, k.2.2, z, r]
  rw [rowBusy, l]
  decide +kernel
/-! ## The life cycle and resets -/

/-- The rows of R396's example. -/
def exampleRows (last : Word) : List Word := [lcRow 0x3A5C 1, lcRow 0x5CA3 2, 0xA35C0C03, last] ++ List.replicate 20 0

/-- A device in TEST whose request for SEALED is armed. -/
def armedSt : State :=
  { lcs := { st := 1, armed := some 2, challenge := zeros 31 ++ [2], auth := authBytes }, fuse := { rows := lcRow 0x3A5C 1 :: List.replicate 23 0 }, pwr := { holdup := true, vcore := 750, supplyOk := true } }
where
  /-- R and S of a signature: both are the message's digest. -/
  authBytes : Bytes :=
  beBytes 60 0x776c96954337bbf4865486cdf06d356969d9eedcb87676a169fe510c292f5d7eaabfc79c251c2358246c5efd9fa47bde776c96954337bbf4865486cd ++
  beBytes 36 0xf06d356969d9eedcb87676a169fe510c292f5d7eaabfc79c251c2358246c5efd9fa47bde

/-- A root key under which it verifies (FIPS 186-5, worked out outside the model). The ROM's key is an open value. -/
def rootKey : Bytes :=
  beBytes 60 0x04370f0d9a689fc033e00eac4b57d20fed7f79d79ddbda752a2c2093760fab96577f0ac44567035221afaae166de8456524d9fe27b96fbd77cdec10f ++
  beBytes 37 0x67eb812fc2411d5e38fd27312007a36b53f9dc7f95ed1dd12704c9ba5055ccb6cd46d95332

theorem witness_LifeCycleAndResetsKeepTheirOrder :
    exampleRows 0x5CA30000 = [lcRow 0x3A5C 1, lcRow 0x5CA3 2, 0xA35C0C03, 0x5CA30000] ++ List.replicate 20 0 ∧
    ({} : State).fuse.lost = false ∧ (3 : Nat) ≠ 1 ∧ (3 : Nat) ≠ 2 ∧ (3 : Nat) ≠ 5 ∧ armedSt.lcs.transition = none ∧ armedSt.lcs.st = 1 ∧
    lcPermits 1 2 = true ∧ lcPermits 2 5 = true ∧ armedSt.lcs.armed = some 2 ∧ lcRefusal armedSt 2 = 0 ∧ lcRefusal { armedSt with pwr := {} } 2 ≠ 0 := by
  decide +kernel

/-- The message of an EXECUTE verifies under that root key. -/
theorem witness_LifeCycleAndResetsKeepTheirOrder_signature : p384Verify rootKey (lcMessage armedSt 2) armedSt.lcs.auth = true := by
  have h : sha384 (lcMessage armedSt 2) = beBytes 48 0x776c96954337bbf4865486cdf06d356969d9eedcb87676a169fe510c292f5d7eaabfc79c251c2358246c5efd9fa47bde := by
    decide +kernel
  have d : decPoint curveP384 rootKey = some (0x370f0d9a689fc033e00eac4b57d20fed7f79d79ddbda752a2c2093760fab96577f0ac44567035221afaae166de845652,
      0x4d9fe27b96fbd77cdec10f67eb812fc2411d5e38fd27312007a36b53f9dc7f95ed1dd12704c9ba5055ccb6cd46d95332) := by decide +kernel
  unfold p384Verify
  rw [h, d]
  decide +kernel

theorem witness_LifeCycleAndResetsKeepTheirOrder_burn :
    let s := { armedSt with lcs := { armedSt.lcs with transition := some (2, none) } }
    s.lcs.transition = some (2, none) ∧ lcRefusal s 2 = 0 ∧ lcDrained s none = true ∧ ¬ (s.lcs.st = 2 ∧ 2 = 3) ∧ (rowScan s).used = 1 ∧
    lcDrained { running s [] with lcs := s.lcs } none = false ∧ lcRefusal { s with pwr := {} } 2 ≠ 0 ∧
    intRefusal s 6 true fuseArray = none ∧ (rowScan s).used + 1 < 24 ∧
    intRefusal { acu := { int := [(0, { valid := true, init := 64, base := fuseArray, size := 12, wr := false })] } } 6 true fuseArray ≠ none ∧
    (scanRow { rowScan s with blank := false, ok := true } (BitVec.ofNat 32 (leVal [0, 0, 0xA3]))).ok = false ∧
    blankPolicy ({} : State) = some 0 := by decide +kernel

/-- R399: a first try that fails leaves a void row, and the next row takes its place. R400: a cut row is LOST at the next load. -/
theorem test_burn_fails :
    let s := { armedSt with lcs := { armedSt.lcs with transition := some (2, none) } }
    after (Machine.exec (.lifecycleTransition { row := .retry }) s) (fun t => ((t.fuse.rows.getD 1 0, t.fuse.rows.getD 2 0), t.lcs.st)) =
      some ((0xFFFFFFFF, lcRow 0x5CA3 2), 2) ∧
    after (Machine.exec (.lifecycleTransition { row := .cut [0, 0, 0xA3, 0x5C] }) s) (fun t => (t.fuse.rows.getD 1 0, fuseState t)) = some (0x5CA30000, 6) ∧
    after (Machine.exec (.lifecycleTransition { row := .cut [] }) s) (fun t => t.lcs.transition) = some (some (2, none)) := by decide +kernel

/-- R396, R397: the burn of SEALED from TEST writes row 1 with SEQ 2, and the warm reset follows. -/
theorem test_burn :
    let s := { armedSt with lcs := { armedSt.lcs with transition := some (2, none) } }
    after (Machine.exec (.lifecycleTransition {}) s) (fun t => (t.fuse.rows.getD 1 0, t.lcs.st, t.lcs.result, t.dev.ready)) =
      some (lcRow 0x5CA3 2, 2, 1, false) := by decide +kernel

theorem witness_LifeCycleAndResetsKeepTheirOrder_start :
    ({} : State).dev.ready = false ∧ ({ dev := { ready := true } } : State).dev.ready = true ∧ ({ dev := { tnPhase := 1 } } : State).dev.tnPhase = 1 ∧
    ({} : State).dev.tnPhase = 0 ∧ ({} : State).fuse.loaded = false ∧ ({ fuse := { loaded := true } } : State).fuse.loaded = true ∧
    ({} : State).hif.reversed = false ∧ ((5 : Nat) ∈ ([0, 3, 4, 5] : List Nat) ∧ (8 : Nat) ∈ ([1, 2, 4, 8] : List Nat)) ∧ (1 : Nat) ∉ ([0, 3, 4, 5] : List Nat) ∧
    ({} : State).lcs.transition = none := by decide +kernel

/-- 16, the example of the straps: DEV_STRAPS reads 0x76, the role is head of a closed Reel, and the reference is external. -/
theorem test_straps : after (Machine.exec (.strapSample 0x76) {}) (fun s => (s.dev.straps, s.reel.role, s.reel.closed, s.dev.strapErr)) =
    some (0x76, 1, true, false) := by decide +kernel

/-- From reset: straps, then fuses; blank fuses give BLANK. -/
theorem test_start : after (Machine.exec (.strapSample 0x76) {}) (fun s => after (Machine.exec .fuseLoad s) (fun t => (t.fuse.loaded, t.lcs.st, t.dev.tnPhase))) =
    some (some (true, 0, 2)) := by decide +kernel

/-! ## The invariant, and commands that are not well formed -/

/-- A state that meets the invariant, and the step from it answers a next state: for the two statements over every step. -/
theorem witness_EveryStepKeepsTheInvariant : Inv State.reset ∧ step State.reset = .next (tick State.reset) := by
  refine ⟨⟨?_, ?_, ?_, ?_, ?_, ?_, ?_, ?_⟩, rfl⟩ <;> decide

/-- The same with a command at the front: the burn of a fuse row. -/
theorem witness_NoStepClearsAFuse :
    let s : State := { pending := [.strapSample 0x76] }
    s.pending = .strapSample 0x76 :: [] ∧ step s = Machine.exec (.strapSample 0x76) { s with pending := [] } := ⟨rfl, rfl⟩

theorem test_length_fault : lengthFault (opInfo false (desc 1 2 [2])) (desc 1 2 [2]) = some 0 := by decide +kernel

/-- Function and queue pair numbers. -/
theorem test_wf_functions : Instr.wf (.qpEnable 1023 7) = true ∧ Instr.wf (.qpEnable 1023 8) = false ∧ Instr.wf (.qpEnable 0xFFFF 15) = true ∧
    Instr.wf (.qpEnable 0xFFFF 16) = false ∧ Instr.wf (.qpEnable 1024 0) = false ∧ Instr.wf (.lowHalfRead 1024 0 32) = false ∧
    Instr.wf (.mboxToMf 1024 0) = false ∧ Instr.wf (.tfStop 1024) = false ∧ Instr.wf (.vfEnable 1025) = false ∧ Instr.wf (.tfCease 1025) = false := by
  decide

/-- Towers, contexts, lanes and the parts of fault reports and tests. -/
theorem test_wf_parts : Instr.wf (.drbgDraw 17) = false ∧ Instr.wf (.echo 16 7 .none) = true ∧ Instr.wf (.echo 16 8 .none) = false ∧
    Instr.wf (.echo 17 0 .none) = false ∧ Instr.wf (.echo 0 0 (.lane false 6)) = false ∧ Instr.wf (.echo 0 0 (.lane true 3)) = false ∧
    Instr.wf (.laneGrant 0 true (some 3) []) = false ∧ Instr.wf (.laneSave 0 false 6 false) = false ∧
    Instr.wf (.selfTestStart (.lane 0 true 3)) = false ∧ Instr.wf (.selfTestDone (.spire 17) true) = false ∧
    Instr.wf (.selfTestStart (.spareTower 17)) = false ∧ Instr.wf (.towerDrained 17) = false ∧
    Instr.wf (.drbgGenerate 18) = false ∧ Instr.wf (.deviceReady [(0, false, 6)] [] [] false 0) = false ∧
    Instr.wf (.deviceReady [] [17] [] false 0) = false ∧ Instr.wf (.deviceReady [] [] [6] false 0) = false := by decide

/-- Register accesses: pages, offsets, widths and values. -/
theorem test_wf_registers : Instr.wf (.blkLock 0x014 0) = false ∧ Instr.wf (.blkIrqTest 0x111 0) = false ∧ Instr.wf (.blkShadowCommit 0x110 0) = true ∧
    Instr.wf (.registerWrite 0 0 32 (2 ^ 32)) = false ∧ Instr.wf (.registerWrite 0 0 24 0) = false ∧
    Instr.wf (.registerWrite 0 (2 ^ 27) 32 0) = false ∧ Instr.wf (.acuEntryWrite 0xD100 64 (2 ^ 64)) = false ∧
    Instr.wf (.descReadDone 0 0 65536 .timeout) = false := by decide

/-- Vault lines, fuse blocks and seals have their lengths. -/
theorem test_wf_lengths : Instr.wf (.pageLock 0 0 [(0, [])] false) = false ∧ Instr.wf (.ctrlDone [(0, zeros 64)]) = true ∧
    Instr.wf (.lifecycleTransition { block := .cut (zeros 50) }) = false ∧ Instr.wf (.thermalReading []) = false ∧ Instr.wf (.todFrame [] 0) = false ∧
    Instr.wf (.noiseWindow 0 []) = false ∧ Instr.wf (.noiseWindow 6 (zeros 128)) = false ∧ Instr.wf (.cardResponse 0 0 (zeros 339)) = false ∧
    Instr.wf (.vaultAdopt 0 0 .none [zeros 127] [] [] false) = false ∧ Instr.wf (.witnessRec {} (zeros 63)) = false ∧
    Instr.wf (.peerQuery {} (zeros 4097)) = false ∧ Instr.wf (.linkAck true 0 0 []) = false := by decide +kernel

/-- Reel addresses and fields, and readings of the power and time commands. -/
theorem test_wf_fields : Instr.wf (.reelWord { src := 1000 } 0) = false ∧ Instr.wf (.promenade 1001 0 [] 0) = false ∧ Instr.wf (.promenade 999 (2 ^ 24) [] 0) = false ∧
    Instr.wf (.promenadeEnd 1002 0) = false ∧ Instr.wf (.topology 4 4 0 0) = false ∧ Instr.wf (.laneSwap true 3 0) = false ∧
    Instr.wf (.retransmitTimeout true 4) = false ∧ Instr.wf (.linkNak true 0 65536) = false ∧ Instr.wf (.snapAck {} 0 256) = false ∧
    Instr.wf (.setGatherTimeout (2 ^ 64)) = false ∧ Instr.wf (.bellBlock (2 ^ 40) 0) = false ∧ Instr.wf (.timeFull 0 5 0) = false ∧
    Instr.wf (.linkChange 5 3 false) = false ∧ Instr.wf (.linkChange 2 8 false) = false ∧ Instr.wf (.linkChange 0 0 false) = true ∧
    Instr.wf (.battLow 4096) = false ∧ Instr.wf (.droop 1024) = false ∧ Instr.wf (.lcsRequest 8) = false ∧
    Instr.wf (.keepRowRepair 16384 true none) = false ∧ Instr.wf (.keepRowRepair 0 true (some (2 ^ 56))) = false := by decide

/-! ## Worked examples of the spec -/

/-- 03, example of R98: a CMAC over 2^24 bytes is a job, over 4 KiB it is not. -/
theorem test_job : (opInfo false (patch (desc 0x0401 56 (leBytes 4 (2 ^ 24) ++ zeros 4 ++ [4])) 2 [2])).job = true ∧
    (opInfo false (patch (desc 0x0401 56 (leBytes 4 4096 ++ zeros 4 ++ [4])) 2 [2])).job = false := by decide +kernel

/-- 05, example of R162: AES-256 GCM over 4 KiB with 32 bytes of additional data takes 2,098 path cycles. -/
theorem test_gcm_path : dataPath 0x0501 (patch (desc 0x0501 56 (leBytes 4 4128 ++ zeros 4 ++ [3, 0, 16, 0] ++ beBytes 4 32)) 2 [2]) 5 5 = 2098 := by
  decide +kernel

/-- 10, example of R306: the four entries of TOWER6 go to towers 0 to 3, and every other key keeps its tower. -/
theorem test_map : (mapWithout { caller := { map := (List.range 64).map (· % 16) }, sup := { roles := (List.replicate 16 1 ++ [2]).set 6 2 } } 6) =
    (List.range 64).map (fun i => if i % 16 = 6 then i / 16 else i % 16) := by decide +kernel

/-- 11, example of R328: a member's TIME_DELAY is the sum of the links before it, in tenths of a nanosecond. -/
theorem test_time_delay :
    let s := reelSt {}
    after (Machine.exec (.promenade 2 4123 [] 0) { s with reel := { s.reel with addressed := false, up := { link := 2, delay := 3889 } } })
      (fun t => t.time.delay) = some 8012 := by decide +kernel

end Sys2Proof.Tests
end

/-! SUPPORT. Register accesses: which of them the access control and the page let pass, what one that passes does by its form, and the
rules of the region entries (00 R7 to R13; 02 R45; 13 R382, R384). From these rules follows the statement about register accesses. -/

namespace Sys2Proof.Machine

/-! ## The commands that are register accesses -/

theorem exec_registerWrite (s : State) (fn a w v : Nat) : exec (.registerWrite fn a w v) s = .next (regWrite s fn a w v) := rfl
theorem exec_lowHalfRead (s : State) (fn a w : Nat) : exec (.lowHalfRead fn a w) s = .next (regRead s fn a w) := rfl
theorem exec_blkLock (s : State) (p : Nat) (v : Word) : exec (.blkLock p v) s = .next (headWrite s p 0x01C v) := rfl
theorem exec_blkIrqTest (s : State) (p : Nat) (v : Word) : exec (.blkIrqTest p v) s = .next (headWrite s p 0x018 v) := rfl
theorem exec_blkShadowCommit (s : State) (p : Nat) (v : Word) : exec (.blkShadowCommit p v) s = .next (headWrite s p 0x020 v) := rfl
theorem exec_acuEntryWrite (s : State) (a w v : Nat) :
    exec (.acuEntryWrite a w v) s = .next (if acuOffset a then regWrite s mfNum a w v else s) := rfl
theorem exec_supViolPop (s : State) (v : Word) : exec (.supViolPop v) s = .next (mfWrite s 0x001044 32 v.toNat) := rfl
theorem exec_supCtxUnfreeze (s : State) (v : Word) : exec (.supCtxUnfreeze v) s = .next (mfWrite s 0x001054 32 v.toNat) := rfl

/-! ## Who reaches which registers -/

theorem regWrite_mf (s : State) {a : Nat} (w v : Nat) (ha : a < 2 ^ 26) : regWrite s mfNum a w v = mfWrite s a w v := by
  have hm : ¬ msixBase ≤ a := by unfold msixBase; omega
  simp [regWrite, fnExists, isMf, mfNum, debugNum, hm]

theorem regWrite_tf (s : State) {n a : Nat} (w v : Nat) (hn : n < s.hif.numTf) (hn' : n < 1024) (ha : a < 0x4000) :
    regWrite s n a w v = tfWrite s n a w v := by
  have hm : ¬ msixBase ≤ a := by unfold msixBase; omega
  have hmf : isMf n = false := by simp [isMf, mfNum]; omega
  have hd : n ≠ debugNum := by unfold debugNum; omega
  simp [regWrite, fnExists, hmf, hn, hm, hd]

theorem regWrite_absent {s : State} {fn : Nat} (a w v : Nat) (h : fnExists s fn = false) (hd : fn ≠ debugNum) :
    regWrite s fn a w v = s := by
  simp [regWrite, h, hd]

theorem regWrite_debug (s : State) (a w v : Nat) :
    regWrite s debugNum a w v = if debugReach s a then mfPortWrite s a w v else s := by
  simp [regWrite]

theorem regRead_absent {s : State} {fn : Nat} (a w : Nat) (h : fnExists s fn = false) (hd : fn ≠ debugNum) :
    regRead s fn a w = putRead s 0 := by
  simp [regRead, h, hd]

theorem regRead_debug (s : State) (a w : Nat) :
    regRead s debugNum a w = if debugReach s a then portRead s mfNum a w else putRead s 0 := by
  simp [regRead]

theorem debugReach_iff (s : State) (a : Nat) :
    debugReach s a = true ↔ (s.lcs.st = 1 ∨ s.lcs.st = 4) ∧ s.dev.tnPhase = 3 ∧ a < 2 ^ 26 := by
  simp only [debugReach, debugOpen, Bool.and_eq_true, Bool.or_eq_true, beq_iff_eq, decide_eq_true_eq, and_assoc]
  rfl

/-! ## The check of the access control (13 R384) -/

theorem mfIngress_allowed {s : State} {w : Bool} {a : Nat} (h : intRefusal s 1 w a = none) : mfIngress s w a = (s, true) := by
  simp [mfIngress, intCheck, h]

theorem mfIngress_refused {s : State} {w : Bool} {a k : Nat} (ha : a < 2 ^ 26) (h : intRefusal s 1 w a = some k) :
    mfIngress s w a = (logViolation s 1 k w false mfNum (a % 2 ^ 32) (a / 2 ^ 32), false) := by
  have hm : a < msixBase := ha
  simp [mfIngress, hm, intCheck, h]

theorem mfWrite_allowed {s : State} {a : Nat} (w v : Nat) (h : intRefusal s 1 true a = none) :
    mfWrite s a w v = mfPortWrite s a w v := by
  simp [mfWrite, mfIngress_allowed h]

theorem mfWrite_refused {s : State} {a k : Nat} (w v : Nat) (ha : a < 2 ^ 26) (h : intRefusal s 1 true a = some k) :
    mfWrite s a w v = logViolation s 1 k true false mfNum (a % 2 ^ 32) (a / 2 ^ 32) := by
  simp [mfWrite, mfIngress_refused ha h]

theorem regRead_mf_refused {s : State} {a k : Nat} (w : Nat) (ha : a < 2 ^ 26) (h : intRefusal s 1 false a = some k) :
    regRead s mfNum a w = putRead (logViolation s 1 k false false mfNum (a % 2 ^ 32) (a / 2 ^ 32)) 0 := by
  simp [regRead, fnExists, isMf, mfNum, debugNum, mfIngress_refused ha h]

/-- A read by a function that exists is a read of its port, where the access control lets it pass. -/
theorem regRead_port {s : State} {fn a : Nat} (w : Nat) (he : fnExists s fn = true) (hd : fn ≠ debugNum)
    (h : fn = mfNum → intRefusal s 1 false a = none) : regRead s fn a w = portRead s fn a w := by
  by_cases hm : fn = mfNum
  · simp [regRead, hd, he, mfIngress_allowed (h hm)]
  · simp [regRead, hd, he, isMf, hm]

/-- A violation adds one to the count of all violations. -/
theorem logViolation_total (s : State) (i k : Nat) (w ho : Bool) (src a b : Nat) :
    (logViolation s i k w ho src a b).sup.total = satAdd 32 s.sup.total 1 := by
  unfold logViolation
  dsimp only
  split <;> simp

/-! ## The form of an access (00 R9) -/

/-- No register takes an access of this width at this address. -/
def BadForm (fn a width : Nat) : Prop := a % 4 ≠ 0 ∨ (width ≠ 32 ∧ (width ≠ 64 ∨ a % 8 ≠ 0 ∨ isLow fn a = false))

theorem BadForm.not_dword {fn a width : Nat} (h : BadForm fn a width) : ¬ (width = 32 ∧ a % 4 = 0) := by
  rintro ⟨hw, ha⟩
  rcases h with h | ⟨h, -⟩ <;> contradiction

theorem BadForm.not_pair {fn a width : Nat} (h : BadForm fn a width) : ¬ (width = 64 ∧ a % 8 = 0 ∧ isLow fn a = true) := by
  rintro ⟨hw, ha, hl⟩
  rcases h with h | ⟨-, h | h | h⟩
  · omega
  · exact h hw
  · exact h ha
  · simp [hl] at h

theorem accessWrite_dword (wr : State → Nat → Nat → Option State) (s : State) (fn : Nat) {a v : Nat} (ha : a % 4 = 0)
    (hv : v < 2 ^ 32) : accessWrite wr s fn a 32 v = wr s a v := by
  simp only [accessWrite, ha, and_self, if_true, Nat.mod_eq_of_lt hv]

theorem accessWrite_badForm (wr : State → Nat → Nat → Option State) (s : State) {fn a width : Nat} (v : Nat)
    (h : BadForm fn a width) : accessWrite wr s fn a width v = none := by
  simp only [accessWrite, h.not_dword, h.not_pair, if_false]

theorem portRead_pair {s : State} {fn a : Nat} (ha : a % 8 = 0) (hl : isLow fn a = true) :
    portRead s fn a 64 = putRead s (readReg s fn a + 2 ^ 32 * readReg s fn (a + 4)) := by
  simp [portRead, ha, hl]

theorem portRead_low {s : State} {fn a : Nat} (ha : a % 4 = 0) (hl : isLow fn a = true) :
    portRead s fn a 32 = setLatch (putRead s (readReg s fn a)) fn a (some (a + 4, BitVec.ofNat 32 (readReg s fn (a + 4)))) := by
  simp [portRead, ha, hl]

theorem portRead_latched {s : State} {fn a : Nat} {v : Word} (ha : a % 4 = 0) (hl : isLow fn a = false) (h : latchAt s fn a = some (a, v)) :
    portRead s fn a 32 = setLatch (putRead s v.toNat) fn a none := by
  simp [portRead, ha, hl, h]

theorem portRead_dword {s : State} {fn a : Nat} (ha : a % 4 = 0) (hl : isLow fn a = false) (h : ∀ v, latchAt s fn a ≠ some (a, v)) :
    portRead s fn a 32 = putRead s (readReg s fn a) := by
  rcases e : latchAt s fn a with _ | ⟨b, v⟩
  · simp [portRead, ha, hl, e]
  · have hb : b ≠ a := fun hb => h v (by rw [e, hb])
    simp [portRead, ha, hl, e, hb]

theorem portRead_badForm {s : State} {fn a width : Nat} (h : BadForm fn a width) : portRead s fn a width = putRead s 0 := by
  have hd : width ≠ 32 ∨ a % 4 ≠ 0 := by
    by_contra hc
    exact h.not_dword (by omega)
  simp only [portRead, h.not_pair, hd, if_true, if_false]

/-! ## A write that reaches a register page -/

theorem mfPortWrite_shut {s : State} {a : Nat} (w v : Nat) (h : pageShut s (a / 4096) = true) : mfPortWrite s a w v = s := by
  simp [mfPortWrite, h]

/-- The access control lets the MF's write of `a` pass, to a page that is open. -/
structure MfReaches (s : State) (a : Nat) : Prop where
  /-- No class I entry refuses it. -/
  allowed : intRefusal s 1 true a = none
  /-- The page answers. -/
  shown : pageShut s (a / 4096) = false

theorem mfWrite_takes {s t : State} {a v : Nat} (h : MfReaches s a) (ha : a % 4 = 0) (hv : v < 2 ^ 32) (ht : writeMf s a v = some t) :
    mfWrite s a 32 v = t := by
  simp [mfWrite_allowed _ _ h.allowed, mfPortWrite, h.shown, accessWrite_dword _ _ _ ha hv, ht]

theorem mfWrite_records {s : State} {a w v p : Nat} (h : MfReaches s a) (hn : accessWrite writeMf s mfNum a w v = none)
    (hp : recordPage (a / 4096) = some p) : mfWrite s a w v = recordWerr s p := by
  simp [mfWrite_allowed _ _ h.allowed, mfPortWrite, h.shown, hn, hp]

theorem mfWrite_ignored {s : State} {a v p : Nat} (h : MfReaches s a) (ha : a % 4 = 0) (hv : v < 2 ^ 32) (hn : writeMf s a v = none)
    (hp : recordPage (a / 4096) = some p) : mfWrite s a 32 v = recordWerr s p :=
  mfWrite_records h (by rw [accessWrite_dword _ _ _ ha hv, hn]) hp

/-! ## The head of a block page (00 R11) -/

theorem isBlock_le {p : Nat} (h : isBlock p = true) : p ≤ 0x110 := by
  simp [isBlock] at h
  omega

theorem recordPage_block {p : Nat} (h : isBlock p = true) : recordPage p = some p := by simp [recordPage, h]

theorem page_of_offset {p o : Nat} (h : o < 4096) : (4096 * p + o) / 4096 = p := by omega

theorem writeMf_head (s : State) {p o : Nat} (v : Nat) (hb : isBlock p = true) (ho : o < 0x040) :
    writeMf s (4096 * p + o) v = some (writeHead s p o v) := by
  have hm : (4096 * p + o) % 4096 = o := by omega
  simp [writeMf, page_of_offset (show o < 4096 by omega), hm, hb, writeBlock, ho]

theorem mfWrite_head {s : State} {p o v : Nat} (hb : isBlock p = true) (hs : pageShut s p = false)
    (hi : intRefusal s 1 true (4096 * p + o) = none) (ho : o < 0x040) (ha : o % 4 = 0) (hv : v < 2 ^ 32) :
    mfWrite s (4096 * p + o) 32 v = writeHead s p o v := by
  have hp : (4096 * p + o) / 4096 = p := page_of_offset (by omega)
  exact mfWrite_takes ⟨hi, by rw [hp, hs]⟩ (by omega) hv (writeMf_head s v hb ho)

theorem exec_write_head {s : State} {p o v : Nat} (hb : isBlock p = true) (hs : pageShut s p = false)
    (hi : intRefusal s 1 true (4096 * p + o) = none) (ho : o < 0x040) (ha : o % 4 = 0) (hv : v < 2 ^ 32) :
    exec (.registerWrite mfNum (4096 * p + o) 32 v) s = .next (writeHead s p o v) := by
  have := isBlock_le hb
  rw [exec_registerWrite, regWrite_mf _ _ _ (by omega), mfWrite_head hb hs hi ho ha hv]

theorem exec_write_badForm {s : State} {p o width : Nat} (v : Nat) (hb : isBlock p = true) (hs : pageShut s p = false)
    (hi : intRefusal s 1 true (4096 * p + o) = none) (ho : o < 4096) (hf : BadForm mfNum (4096 * p + o) width) :
    exec (.registerWrite mfNum (4096 * p + o) width v) s = .next (recordWerr s p) := by
  have hp : (4096 * p + o) / 4096 = p := page_of_offset ho
  have := isBlock_le hb
  rw [exec_registerWrite, regWrite_mf _ _ _ (by omega),
    mfWrite_records ⟨hi, by rw [hp, hs]⟩ (accessWrite_badForm _ _ _ hf) (by rw [hp, recordPage_block hb])]

theorem headWrite_reserved (s : State) {p : Nat} (o : Nat) (v : Word) (hb : isBlock p = false) : headWrite s p o v = s := by
  simp [headWrite, hb]

theorem headWrite_shut {s : State} {p o : Nat} (v : Word) (hs : pageShut s p = true) (hi : intRefusal s 1 true (4096 * p + o) = none)
    (ho : o < 4096) : headWrite s p o v = s := by
  have hm : mfWrite s (4096 * p + o) 32 v.toNat = s := by
    rw [mfWrite_allowed _ _ hi, mfPortWrite_shut _ _ (by rw [page_of_offset ho, hs])]
  simp [headWrite, hm]

theorem headWrite_open {s : State} {p o : Nat} (v : Word) (hb : isBlock p = true) (hs : pageShut s p = false)
    (hi : intRefusal s 1 true (4096 * p + o) = none) (ho : o < 0x040) (ha : o % 4 = 0) : headWrite s p o v = writeHead s p o v.toNat := by
  rw [headWrite, hb, if_pos rfl, mfWrite_head hb hs hi ho ha v.isLt]

/-! ## Region entries (13 R382, R383) -/

/-- The base of an entry that is VALID is a multiple of the region's size. -/
def RegionH.Aligned (r : RegionH) : Prop := r.valid = true → r.base % 2 ^ (15 + r.size) = 0

/-- The base of an entry that is VALID is a multiple of the region's size. -/
def RegionI.Aligned (r : RegionI) : Prop := r.valid = true → r.base % 2 ^ r.size = 0

theorem writeH_locked {r : RegionH} (o v : Nat) (h : r.lock = true) : writeH r o v = none := by simp [writeH, h]

theorem writeI_locked {r : RegionI} (o v : Nat) (h : r.lock = true) : writeI r o v = none := by simp [writeI, h]

theorem writeH_base_valid {r : RegionH} {o : Nat} (v : Nat) (h : r.valid = true) (ho : o < 8) (h4 : o % 4 = 0) : writeH r o v = none := by
  obtain rfl | rfl : o = 0 ∨ o = 4 := by omega
  all_goals simp [writeH, h]

theorem writeI_base_valid {r : RegionI} {o : Nat} (v : Nat) (h : r.valid = true) (ho : o < 8) (h4 : o % 4 = 0) : writeI r o v = none := by
  obtain rfl | rfl : o = 0 ∨ o = 4 := by omega
  all_goals simp [writeI, h]

/-- A write that an entry takes keeps its alignment: its base stands while it is VALID, and H_CFG is checked against the base. -/
theorem writeH_aligned {r r' : RegionH} {o v : Nat} (hw : writeH r o v = some r') (h : r.Aligned) : r'.Aligned := by
  intro hv
  simp only [writeH, Option.ite_none_left_eq_some] at hw
  obtain ⟨-, hw⟩ := hw
  split at hw
  case h_4 => cases hw; exact h hv
  case h_3 =>
    simp only [Option.ite_none_left_eq_some, Option.some.injEq] at hw
    obtain ⟨hc, rfl⟩ := hw
    simp only [not_or, not_and, not_not] at hc
    exact hc.2 hv
  all_goals
    simp only [Option.ite_none_left_eq_some, Option.some.injEq] at hw
    obtain ⟨hn, rfl⟩ := hw
    exact absurd hv hn

/-- The same of a class I entry. -/
theorem writeI_aligned {r r' : RegionI} {o v : Nat} (hw : writeI r o v = some r') (h : r.Aligned) : r'.Aligned := by
  intro hv
  simp only [writeI, Option.ite_none_left_eq_some] at hw
  obtain ⟨-, hw⟩ := hw
  split at hw
  case h_4 =>
    simp only [Option.ite_none_left_eq_some, Option.some.injEq] at hw
    obtain ⟨-, rfl⟩ := hw
    exact h hv
  case h_3 =>
    simp only [Option.ite_none_left_eq_some, Option.some.injEq] at hw
    obtain ⟨hc, rfl⟩ := hw
    simp only [not_or, not_and, not_not] at hc
    exact hc.2.2 hv
  all_goals
    simp only [Option.ite_none_left_eq_some, Option.some.injEq] at hw
    obtain ⟨hn, rfl⟩ := hw
    exact absurd hv hn

/-- Entry `e` of TF `n` stands at byte `128 n + 16 e` of the ACU_HOST array. -/
theorem writeMf_acuHost (s : State) {n e o : Nat} (v : Nat) (hn : n < 1024) (he : e < 8) (ho : o < 4) :
    writeMf s (0x020000 + 128 * n + 16 * e + 4 * o) v = (writeH (tblGet {} s.acu.tf (8 * n + e)) (4 * o) v).map
      (fun r => { s with acu := { s.acu with tf := tblSet {} s.acu.tf (8 * n + e) r } }) := by
  have hb : isBlock ((0x020000 + 128 * n + 16 * e + 4 * o) / 4096) = false := by simp [isBlock]; omega
  have hr : 0x020000 ≤ 0x020000 + 128 * n + 16 * e + 4 * o ∧ 0x020000 + 128 * n + 16 * e + 4 * o < 0x040000 := by omega
  have hq : (0x020000 + 128 * n + 16 * e + 4 * o - 0x020000) / 16 = 8 * n + e := by omega
  have hm : (0x020000 + 128 * n + 16 * e + 4 * o - 0x020000) % 16 = 4 * o := by omega
  simp only [writeMf, hb, writeArray, if_pos hr, writeAcuHost, hq, hm, Bool.false_eq_true, if_false]

theorem recordPage_acuHost {p : Nat} (h : 0x020 ≤ p) (h' : p ≤ 0x03F) : recordPage p = some pgAcu := by
  have hb : isBlock p = false := by simp [isBlock]; omega
  simp [recordPage, hb, h, h']

/-! ## Locked fields and the arbiters (00 R13; 10 R310) -/

theorem unlessLocked_takes {α : Type} [DecidableEq α] {s : State} {p g : Nat} {old new : α} (f : State)
    (h : locked s p g = false ∨ old = new) : unlessLocked s p g old new f = some f := by
  rcases h with h | h <;> simp [unlessLocked, h]

theorem unlessLocked_ignored {α : Type} [DecidableEq α] {s : State} {p g : Nat} {old new : α} (f : State)
    (h : locked s p g = true) (hne : old ≠ new) : unlessLocked s p g old new f = none := by
  simp [unlessLocked, h, hne]

/-- Writing an arbiter back as it stands changes nothing. -/
theorem setArbiter_arbiterOf (s : State) (k : Nat) : setArbiter s k (arbiterOf s k) = s := by
  match k with
  | 0 | 1 | 2 | 3 | _ + 4 => rfl

/-- A write that the ARB page takes while its lock group is set leaves every base as it was. -/
theorem writeArb_locked {s t : State} {o v : Nat} (hl : locked s pgArb 0 = true) (h : writeArb s o v = some t) : t = s := by
  unfold writeArb at h
  split at h
  case isFalse => exact (Option.some.inj h).symm
  case isTrue =>
    simp only [unlessLocked, hl, Bool.true_and, decide_eq_true_eq, Option.ite_none_left_eq_some, ne_eq, not_not, Option.some.injEq] at h
    obtain ⟨hb, rfl⟩ := h
    rw [← hb]
    exact setArbiter_arbiterOf s _

/-- Refusing, ignoring and recording a write leave the Caller alone: only the register itself can change it. -/
theorem mfWrite_caller {s : State} {a w v : Nat} (h : ∀ t, accessWrite writeMf s mfNum a w v = some t → t.caller = s.caller) :
    (mfWrite s a w v).caller = s.caller := by
  have hp : (mfPortWrite s a w v).caller = s.caller := by
    unfold mfPortWrite
    split
    · rfl
    · split
      · next t ht => exact h t ht
      · split <;> simp
  by_cases hm : a < msixBase
  · rcases hi : intRefusal s 1 true a with _ | k
    · rw [mfWrite_allowed _ _ hi, hp]
    · rw [mfWrite_refused _ _ hm hi]
      simp
  · simpa [mfWrite, mfIngress, hm] using hp

theorem commitArb_waits {s : State} (h : commitDue s = false) : commitArb s = s := by simp [commitArb, h]

/-- At the commit cycle all arbiters take their shadow bases together. -/
theorem commitArb_due {s : State} (h : commitDue s = true) : commitArb s = raise (shadowDone { s with caller := { s.caller with
    arbKeep := s.caller.arbKeep.commit, arbDma := s.caller.arbDma.commit, arbQueue := s.caller.arbQueue.commit
    arbSpire := s.caller.arbSpire.commit, arbReel := s.caller.arbReel.commit } } pgArb) pgArb 1 := by simp [commitArb, h]

theorem commitDue_iff (s : State) :
    commitDue s = true ↔ (s.head pgArb).commit = true ∧ s.cycle % 4 = 0 ∧ s.caller.commitAt < s.cycle := by
  simp [commitDue, and_assoc]

/-! ## Registers of single pages -/

theorem pageShut_ready {s : State} (p : Nat) (h : s.dev.ready = true) : pageShut s p = false := by simp [pageShut, h]

theorem pageShut_sup (s : State) : pageShut s pgSup = false := by simp [pageShut, aonPage]

theorem exec_write_takes {s t : State} {a v : Nat} (hm : a < 2 ^ 26) (h : MfReaches s a) (ha : a % 4 = 0) (hv : v < 2 ^ 32)
    (ht : writeMf s a v = some t) : exec (.registerWrite mfNum a 32 v) s = .next t := by
  rw [exec_registerWrite, regWrite_mf _ _ _ hm, mfWrite_takes h ha hv ht]

theorem exec_write_ignored {s : State} {a v p : Nat} (hm : a < 2 ^ 26) (h : MfReaches s a) (ha : a % 4 = 0) (hv : v < 2 ^ 32)
    (hn : writeMf s a v = none) (hp : recordPage (a / 4096) = some p) :
    exec (.registerWrite mfNum a 32 v) s = .next (recordWerr s p) := by
  rw [exec_registerWrite, regWrite_mf _ _ _ hm, mfWrite_ignored h ha hv hn hp]

/-- PWR_TJ_SEL: 18 and more are reserved encodings (15 R440). -/
theorem writeMf_tjSel (s : State) (v : Nat) :
    writeMf s 0x2054 v = if 18 ≤ v % 32 then none else some { s with pwr := { s.pwr with tjSel := v % 32 } } := rfl

/-- DEV_TN_OUT is a field of lock group 0 (16 R461). -/
theorem writeMf_tnOut (s : State) (v : Nat) : writeMf s 0x0058 v =
    unlessLocked s pgDev 0 s.dev.tnOut (BitVec.ofNat 4 v) { s with dev := { s.dev with tnOut := BitVec.ofNat 4 v } } := rfl

theorem writeMf_violPop (s : State) (v : Nat) : writeMf s 0x1044 v = some (violPop s v) := rfl

theorem writeMf_ctxUnfreeze (s : State) (v : Nat) : writeMf s 0x1054 v = ctxUnfreeze s v := rfl

theorem exec_write_tjSel {s : State} {v : Nat} (hv : v < 2 ^ 32) (hr : s.dev.ready = true) (hi : intRefusal s 1 true 0x2054 = none) :
    exec (.registerWrite mfNum 0x2054 32 v) s =
      .next (if 18 ≤ v % 32 then recordWerr s 2 else { s with pwr := { s.pwr with tjSel := v % 32 } }) := by
  have hm : MfReaches s 0x2054 := ⟨hi, pageShut_ready _ hr⟩
  split
  case isTrue h => exact exec_write_ignored (by decide) hm rfl hv (by rw [writeMf_tjSel, if_pos h]) rfl
  case isFalse h => exact exec_write_takes (by decide) hm rfl hv (by rw [writeMf_tjSel, if_neg h])

/-- A TF's write of a form that no register takes is recorded for it (02 R45). -/
theorem tfWrite_badForm {s : State} {n a width : Nat} (v : Nat) (hr : s.dev.ready = true) (hl : tfListed a = true)
    (hf : (s.tf n).frozen = false) (hb : BadForm n a width) : tfWrite s n a width v = recordTfWerr s n := by
  simp [tfWrite, hr, hl, hf, accessWrite_badForm _ _ _ hb]

theorem tfWrite_unlisted {s : State} {n a : Nat} (width v : Nat) (hl : tfListed a = false) : tfWrite s n a width v = s := by
  simp [tfWrite, hl]

/-! ## The head's commands -/

theorem writeHead_lock (s : State) (p : Nat) (v : Word) : writeHead s p 0x01C v.toNat =
    putHead s p { s.head p with lock := (s.head p).lock ||| (v &&& BitVec.ofNat 32 (lockMask p)) } := by
  simp [writeHead]

theorem writeHead_irqTest (s : State) (p : Nat) (v : Word) : writeHead s p 0x018 v.toNat =
    putHead s p { s.head p with irqStatus := (s.head p).irqStatus ||| (v &&& BitVec.ofNat 32 (irqMask p)) } := by
  simp [writeHead]

/-- BLK_SHADOW_COMMIT sets COMMIT in a page with SH fields; of the ARB page it notes the cycle of the write (10 R310). -/
theorem writeHead_shadowCommit (s : State) (p : Nat) (v : Word) : writeHead s p 0x020 v.toNat =
    (let s1 := putHead s p { s.head p with commit := (s.head p).commit || (v.getLsbD 0 && (p == 9 || p == 11 || p == 8)) }
     if p = 9 ∧ (s.head p).commit = false then { s1 with caller := { s1.caller with commitAt := s.cycle } } else s1) := by
  simp [writeHead, hasShadow]

/-! ## The debug port (14 R393; log 124) -/

theorem debugReach_shut {s : State} {a : Nat} (h : (s.lcs.st ≠ 1 ∧ s.lcs.st ≠ 4) ∨ s.dev.tnPhase ≠ 3 ∨ 2 ^ 26 ≤ a) :
    debugReach s a = false := by
  rw [Bool.eq_false_iff, ne_eq, debugReach_iff]
  omega

/-- A function that does not exist changes nothing, nor does the debug port where it does not reach. -/
theorem regAccess_nowhere {s : State} {fn a : Nat} (w v : Nat) (he : fnExists s fn = false)
    (h : fn ≠ 0xFFFE ∨ (s.lcs.st ≠ 1 ∧ s.lcs.st ≠ 4) ∨ s.dev.tnPhase ≠ 3 ∨ 2 ^ 26 ≤ a) :
    regWrite s fn a w v = s ∧ regRead s fn a w = putRead s 0 := by
  by_cases hd : fn = debugNum
  · subst hd
    have hr : debugReach s a = false := debugReach_shut (h.resolve_left (fun hne => hne rfl))
    simp [regWrite_debug, regRead_debug, hr]
  · exact ⟨regWrite_absent a w v he hd, regRead_absent a w he hd⟩

theorem fnExists_mf (s : State) : fnExists s mfNum = true := by simp [fnExists, isMf]

/-- Where the debug port reaches, it reads and writes what the MF does. -/
theorem regAccess_debug {s : State} {a : Nat} (w v : Nat) (hr : debugReach s a = true) (ha : a < 2 ^ 26) :
    regRead s debugNum a w = portRead s mfNum a w ∧
    (intRefusal s 1 false a = none → regRead s debugNum a w = regRead s mfNum a w) ∧
    (intRefusal s 1 true a = none → regWrite s debugNum a w v = regWrite s mfNum a w v) := by
  have hp : regRead s debugNum a w = portRead s mfNum a w := by rw [regRead_debug, if_pos hr]
  refine ⟨hp, fun hi => ?_, fun hi => ?_⟩
  · rw [hp, regRead_port w (fnExists_mf s) (by decide) (fun _ => hi)]
  · rw [regWrite_debug, if_pos hr, regWrite_mf _ _ _ ha, mfWrite_allowed _ _ hi]

/-! ## Region entries, the arbiters and the supervisor -/

theorem exec_acuEntryWrite_host {s : State} {n e o v : Nat} (hn : n < 1024) (he : e < 8) (ho : o < 4) (hv : v < 2 ^ 32)
    (hr : s.dev.ready = true) (hi : intRefusal s 1 true (0x020000 + 128 * n + 16 * e + 4 * o) = none) :
    exec (.acuEntryWrite (0x020000 + 128 * n + 16 * e + 4 * o) 32 v) s =
      .next (match writeH (tblGet {} s.acu.tf (8 * n + e)) (4 * o) v with
        | some r => { s with acu := { s.acu with tf := tblSet {} s.acu.tf (8 * n + e) r } }
        | none => recordWerr s pgAcu) := by
  have hm : MfReaches s (0x020000 + 128 * n + 16 * e + 4 * o) := ⟨hi, pageShut_ready _ hr⟩
  have hoff : acuOffset (0x020000 + 128 * n + 16 * e + 4 * o) = true := by simp [acuOffset]; omega
  have hw := writeMf_acuHost s v hn he ho
  rw [exec_acuEntryWrite, if_pos hoff, regWrite_mf _ _ _ (by omega)]
  rcases hH : writeH (tblGet {} s.acu.tf (8 * n + e)) (4 * o) v with _ | r <;> rw [hH] at hw
  · rw [mfWrite_ignored hm (by omega) hv hw (recordPage_acuHost (by omega) (by omega))]
  · rw [mfWrite_takes hm (by omega) hv hw]

theorem mfWrite_violPop {s : State} (v : Word) (hi : intRefusal s 1 true 0x1044 = none) :
    mfWrite s 0x1044 32 v.toNat = if v.getLsbD 0 then { s with sup := { s.sup with log := s.sup.log.drop 1 } } else s :=
  mfWrite_takes ⟨hi, pageShut_sup s⟩ rfl v.isLt (writeMf_violPop s v.toNat)

/-- SUP_CTX_UNFREEZE names a tower and a context; there is no tower above 16. -/
theorem ctxUnfreeze_eq (s : State) (v : Nat) : ctxUnfreeze s v = if 17 ≤ v % 32 then none
    else some (if (s.ctx (v % 32) (v / 256 % 8)).st = .frozen then s.setCtx (v % 32) (v / 256 % 8) {} else s) := by
  have hf : fieldOf v 8 3 = v / 256 % 8 := by simp [fieldOf, Nat.shiftRight_eq_div_pow]
  simp only [ctxUnfreeze, hf, ge_iff_le]

theorem mfWrite_ctxUnfreeze {s : State} (v : Word) (hi : intRefusal s 1 true 0x1054 = none) :
    mfWrite s 0x1054 32 v.toNat = if 17 ≤ v.toNat % 32 then recordWerr s pgSup
      else if (s.ctx (v.toNat % 32) (v.toNat / 256 % 8)).st = .frozen then s.setCtx (v.toNat % 32) (v.toNat / 256 % 8) {} else s := by
  have hm : MfReaches s 0x1054 := ⟨hi, pageShut_sup s⟩
  have hw : writeMf s 0x1054 v.toNat = _ := (writeMf_ctxUnfreeze s v.toNat).trans (ctxUnfreeze_eq s v.toNat)
  split
  case isTrue h => exact mfWrite_ignored hm rfl v.isLt (by rw [hw, if_pos h]) rfl
  case isFalse h => exact mfWrite_takes hm rfl v.isLt (by rw [hw, if_neg h])

theorem writeMf_arbBase (s : State) {k : Nat} (v : Nat) (hk : k < 5) :
    writeMf s (0x009080 + 0x80 * k) v = writeArb s (0x080 + 0x80 * k) v := by
  have hp : (0x009080 + 0x80 * k) / 4096 = 9 := by omega
  have ho : (0x009080 + 0x80 * k) % 4096 = 0x080 + 0x80 * k := by omega
  have hh : ¬ 0x080 + 0x80 * k < 0x040 := by omega
  simp only [writeMf, hp, ho, writeBlock, if_neg hh]
  rfl

/-- Taken, ignored, refused or shut out, a write of a locked arbiter base leaves every base. -/
theorem mfWrite_arbBase_locked {s : State} {k : Nat} (v : Nat) (hk : k < 5) (hl : locked s pgArb 0 = true) :
    (mfWrite s (0x009080 + 0x80 * k) 32 v).caller = s.caller := by
  have h4 : (0x009080 + 0x80 * k) % 4 = 0 := by omega
  refine mfWrite_caller fun t ht => ?_
  simp only [accessWrite, h4, and_self, if_true, writeMf_arbBase _ _ hk] at ht
  rw [writeArb_locked hl ht]

/-- Settles O11: each access is taken apart into the check of the access control, the page, its form and its register. -/
theorem registerAccessesObeyTheirRules : Obligations.RegisterAccessesObeyTheirRules := by
  unfold Obligations.RegisterAccessesObeyTheirRules
  refine ⟨?heads, ?fields, ?tenants, ?refused, ?absent, ?reads, ?reserved, ?shut, ?lock, ?irqTest, ?shadow, ?offset, ?entry, ?classH,
    ?classI, ?commit, ?pop, ?unfreeze, ?arbLocked⟩
  case heads =>
    intro s p v hb hs hv hi h w
    have head (o : Nat) (ho : o < 0x040) (h4 : o % 4 = 0) := exec_write_head (v := v) hb hs (hi o (by omega)) ho h4 hv
    refine ⟨head 0x014 (by omega) rfl, head 0x010 (by omega) rfl, head 0x00C (by omega) rfl, head 0x01C (by omega) rfl, ?_, ?_⟩
    · rintro o (rfl | rfl | rfl)
      · exact head 0x000 (by omega) rfl
      · exact head 0x004 (by omega) rfl
      · exact head 0x024 (by omega) rfl
    · intro o width x ho hf
      have hf' : BadForm mfNum (4096 * p + o) width := hf.imp (by omega) (And.imp_right (Or.imp_right (Or.imp_left (by omega))))
      exact exec_write_badForm x hb hs (hi o ho) ho hf'
  case fields =>
    intro s v hv hr hi hi'
    have hm : MfReaches s 0x0058 := ⟨hi', pageShut_ready _ hr⟩
    refine ⟨exec_write_tjSel hv hr hi, fun h => ?_, fun h hne => ?_⟩
    · exact exec_write_takes (by decide) hm rfl hv ((writeMf_tnOut s v).trans (unlessLocked_takes _ h))
    · exact exec_write_ignored (by decide) hm rfl hv ((writeMf_tnOut s v).trans (unlessLocked_ignored _ h hne)) rfl
  case tenants =>
    intro s n a width v hn hn' hr ha
    rw [exec_registerWrite, regWrite_tf _ _ _ hn hn' ha]
    exact ⟨fun hl => by rw [tfWrite_unlisted _ _ hl], fun hl hf hb => by rw [tfWrite_badForm _ hr hl hf hb]; rfl⟩
  case refused =>
    intro s a w v k ha
    refine ⟨fun h => ?_, fun h => ?_⟩
    · rw [exec_registerWrite, regWrite_mf _ _ _ ha, mfWrite_refused _ _ ha h]
    · exact ⟨_, congrArg Host.Outcome.next (regRead_mf_refused w ha h), rfl, logViolation_total .., by simp [putRead],
        by simp [putRead]⟩
  case absent =>
    intro s fn a w v he
    refine ⟨fun h => ?_, ?_⟩
    · obtain ⟨hw, hr⟩ := regAccess_nowhere w v he h
      rw [exec_registerWrite, exec_lowHalfRead, hw, hr]
      exact ⟨rfl, rfl⟩
    · rintro rfl hst hph ha
      obtain ⟨hp, hrd, hwr⟩ := regAccess_debug w v ((debugReach_iff s a).2 ⟨hst, hph, ha⟩) ha
      exact ⟨congrArg _ hp, fun hi => congrArg Host.Outcome.next (hrd hi), fun hi => congrArg Host.Outcome.next (hwr hi)⟩
  case reads =>
    intro s fn a he hd hm
    have port (w : Nat) : exec (.lowHalfRead fn a w) s = .next (portRead s fn a w) :=
      congrArg Host.Outcome.next (regRead_port w he hd (fun h => (hm h).2))
    simp only [port]
    refine ⟨fun h hl => ?pair, fun h hl => ?low, fun v h hl hv => ?latched, fun h hl hv => ?dword, fun width hf => ?badForm⟩
    case pair => rw [portRead_pair h hl, putRead]
    case low => rw [portRead_low h hl, putRead]
    case latched => rw [portRead_latched h hl hv, putRead]
    case dword => rw [portRead_dword h hl hv, putRead]
    case badForm => rw [portRead_badForm hf, putRead]
  case reserved =>
    intro s p v hb
    simp only [exec_blkLock, exec_blkIrqTest, exec_blkShadowCommit, headWrite_reserved s _ v hb, and_self]
  case shut =>
    intro s p v hb hs hi
    have still (o : Nat) (ho : o < 4096) := headWrite_shut v hs (hi o ho) ho
    rw [exec_blkLock, exec_blkIrqTest, exec_blkShadowCommit, still 0x01C (by omega), still 0x018 (by omega), still 0x020 (by omega)]
    exact ⟨rfl, rfl, rfl⟩
  case lock =>
    intro s p v hb hs hi
    rw [exec_blkLock, headWrite_open v hb hs hi (by omega) rfl, writeHead_lock]
  case irqTest =>
    intro s p v hb hs hi
    rw [exec_blkIrqTest, headWrite_open v hb hs hi (by omega) rfl, writeHead_irqTest]
  case shadow =>
    intro s p v hb hs hi
    rw [exec_blkShadowCommit, headWrite_open v hb hs hi (by omega) rfl, writeHead_shadowCommit]
  case offset =>
    intro s a w v ha
    rw [exec_acuEntryWrite, ha]
    rfl
  case entry =>
    intro s n e o v hn he ho hv hr hi
    exact exec_acuEntryWrite_host hn he ho hv hr hi
  case classH => exact fun r o v => ⟨writeH_locked o v, writeH_base_valid v, fun r' => writeH_aligned⟩
  case classI => exact fun r o v => ⟨writeI_locked o v, writeI_base_valid v, fun r' => writeI_aligned⟩
  case commit =>
    intro s
    refine ⟨fun h => ?_, fun hc h4 hlt => ?_⟩
    · have hd : commitDue s = false := by
        rw [Bool.eq_false_iff, ne_eq, commitDue_iff]
        rintro ⟨hc, h4, hlt⟩
        rcases h with h | h | h
        · simp [hc] at h
        · exact h h4
        · omega
      exact congrArg Host.Outcome.next (commitArb_waits hd)
    · have hd : commitDue s = true := (commitDue_iff s).2 ⟨hc, h4, hlt⟩
      exact congrArg Host.Outcome.next (commitArb_due hd)
  case pop => exact fun s v hi => congrArg Host.Outcome.next (mfWrite_violPop v hi)
  case unfreeze => exact fun s v hi => congrArg Host.Outcome.next (mfWrite_ctxUnfreeze v hi)
  case arbLocked =>
    intro s k v hk hl
    exact ⟨_, by rw [exec_registerWrite, regWrite_mf _ _ _ (by omega)], mfWrite_arbBase_locked v hk hl⟩

end Sys2Proof.Machine

/-! SUPPORT. The path of a call: admission, dispatch, and the end of a call (01 R23, R27, R32; 03 R91). One law for each fate of admission,
for the choice of a tower and for each step of the completion build; from these follow the three statements about the path. -/

namespace Sys2Proof.Machine

/-! ## Admission (01 R21 to R25) -/

theorem exec_admission (s : State) : exec .admission s = execAdmission s := rfl

/-- In SCRAP and LOST no call is admitted (14 R392). -/
theorem execAdmission_dead {s : State} (h : 5 ≤ (commitArb s).lcs.st) : execAdmission s = .next (commitArb s) := by
  simp [execAdmission, h]

/-- A round of ARB_QUEUE gives the oldest fetched descriptor of the pair that it grants to the checks of admission. -/
theorem execAdmission_round {s : State} {fn q : Nat} {d : Bytes} {r : List Bytes} (hl : (commitArb s).lcs.st < 5)
    (h4 : (commitArb s).cycle % 4 = 0) (hn : (commitArb s).caller.nextRound ≤ (commitArb s).cycle) (ho : queuesOpen (commitArb s) = true)
    (hq : queueChoice (commitArb s) = some (fn, q)) (hf : ((queueRound (commitArb s) fn q).qp fn q).fetched = d :: r) :
    execAdmission s = .next (admitCall ((queueRound (commitArb s) fn q).setQp fn q
      { (queueRound (commitArb s) fn q).qp fn q with fetched := r }) fn q d) := by
  simp [execAdmission, hl, h4, hn, ho, hq, hf]

/-- Admission holds a call of queue pair (fn, q): the next call has the next number, and the pair counts one more (02 R52). -/
def holdCall (s : State) (fn q : Nat) : State :=
  let b := { s with caller := { s.caller with seq := s.caller.seq + 1 } }
  b.setQp fn q { b.qp fn q with live := (b.qp fn q).live + 1 }

/-- The opcode is undefined, or the function may not use it. -/
def IllegalOpcode (i : OpInfo) (fn : Nat) (d : Bytes) : Prop := opDefined (opOf d) = false ∨ (i.mfOnly = true ∧ isMf fn = false)

/-- The first two checks of R23 pass: generation and function number. -/
structure PassesNaming (s : State) (fn q : Nat) (d : Bytes) : Prop where
  /-- The descriptor is of the pair's current generation. -/
  gen : byteAt d 10 = (s.qp fn q).gen
  /-- It names the function that issued it. -/
  issuer : leAt d 8 2 = fn

/-- The first four checks of R23 pass: a permitted opcode, of a partition that is bound to the function. -/
structure PassesBinding (s : State) (fn q : Nat) (d : Bytes) : Prop extends PassesNaming s fn q d where
  /-- The opcode is defined and the function may use it. -/
  legal : ¬ IllegalOpcode (admitInfo s (isMf fn) d) fn d
  /-- The partition, where the opcode takes one, is bound to the function. -/
  part : (admitInfo s (isMf fn) d).part = true → partBound s fn d = true

section
variable {s : State} {fn q : Nat} {d : Bytes}

theorem admitCall_otherGeneration (h : byteAt d 10 ≠ (s.qp fn q).gen) : admitCall s fn q d = s := by
  simp [admitCall, h]

theorem admitCall_otherFunction (hg : byteAt d 10 = (s.qp fn q).gen) (hf : leAt d 8 2 ≠ fn) : admitCall s fn q d = spoof s fn 2 d := by
  simp [admitCall, hg, hf]

theorem admitCall_illegal (h : PassesNaming s fn q d) (hi : IllegalOpcode (admitInfo s (isMf fn) d) fn d) :
    admitCall s fn q d = rejectCall (holdCall s fn q) { newCall s fn q d with isJob := false } stIllegal [] := by
  unfold IllegalOpcode at hi
  simp [admitCall, holdCall, h.gen, h.issuer, hi]

theorem admitCall_otherPartition (h : PassesNaming s fn q d) (hi : ¬ IllegalOpcode (admitInfo s (isMf fn) d) fn d)
    (hp : (admitInfo s (isMf fn) d).part = true) (hb : partBound s fn d = false) : admitCall s fn q d = spoof s fn 3 d := by
  unfold IllegalOpcode at hi
  simp [admitCall, h.gen, h.issuer, hi, hp, hb]

/-- Past the partition check, what is left are the reserved fields and the length check. -/
theorem admitCall_bound (h : PassesBinding s fn q d) : admitCall s fn q d =
    if reservedSet (admitInfo s (isMf fn) d) d then rejectCall (holdCall s fn q) (newCall s fn q d) stReserved []
    else match lengthFault (admitInfo s (isMf fn) d) d with
      | some n => rejectCall (holdCall s fn q) (newCall s fn q d) stBadLength (leBytes 4 n)
      | none => enqueue (chargeAdmitted (holdCall s fn q) (newCall s fn q d)) (newCall s fn q d) := by
  have hl := h.legal
  have hp := h.part
  unfold IllegalOpcode at hl
  rw [admitCall, if_neg (not_not.2 h.gen), if_neg (not_not.2 h.issuer), if_neg (by simpa using hl), if_neg (by simpa using hp)]
  rfl

end

/-- Settles O22: a round gives its descriptor to the checks, and each fate is the law of the first check that fails. -/
theorem admissionJudgesInOrder : Obligations.AdmissionJudgesInOrder := by
  unfold Obligations.AdmissionJudgesInOrder
  intro s₀ fn q d r
  simp only [exec_admission]
  refine ⟨execAdmission_dead, fun hl h4 hn ho hq hf => ?_⟩
  rw [execAdmission_round hl h4 hn ho hq hf]
  refine ⟨fun hg => ?generation, fun hg hf => ?function, fun hg hf hi => ?illegal,
    fun hg hf hi => ⟨fun hp hb => ?partition, fun hb => ?bound⟩⟩
  case generation => rw [admitCall_otherGeneration hg]
  case function => rw [admitCall_otherFunction hg hf]
  case illegal =>
    rw [admitCall_illegal ⟨hg, hf⟩ hi]
    rfl
  case partition => rw [admitCall_otherPartition ⟨hg, hf⟩ hi hp hb]
  case bound =>
    rw [admitCall_bound ⟨⟨hg, hf⟩, hi, hb⟩]
    refine ⟨fun hr => ?reserved, fun hr => ⟨fun n hn => ?length, fun hn => ?admitted⟩⟩
    case reserved =>
      rw [if_pos hr]
      rfl
    case length =>
      rw [if_neg (by simp [hr]), hn]
      rfl
    case admitted =>
      rw [if_neg (by simp [hr]), hn]
      rfl

/-! ## Dispatch (01 R26, R27; 10 R302 to R306) -/

theorem eq_nil_of_bestBy_none {α : Type} {f : α → Nat} {l : List α} (h : bestBy f l = none) : l = [] := by
  cases l with
  | nil => rfl
  | cons a l =>
    simp only [bestBy] at h
    split at h
    · cases h
    · split at h <;> cases h

/-- `bestBy` takes the first entry of greatest value: the entries before it are less, and those after it no greater. -/
theorem bestBy_split {α : Type} {f : α → Nat} {l : List α} {x : α} (h : bestBy f l = some x) :
    ∃ p r, l = p ++ x :: r ∧ (∀ y ∈ p, f y < f x) ∧ ∀ y ∈ r, f y ≤ f x := by
  induction l generalizing x with
  | nil => cases h
  | cons a l ih =>
    simp only [bestBy] at h
    split at h
    case h_1 hb =>
      obtain rfl : a = x := Option.some.inj h
      exact ⟨[], l, rfl, by simp, by simp [eq_nil_of_bestBy_none hb]⟩
    case h_2 y hb =>
      obtain ⟨p, r, rfl, hp, hr⟩ := ih hb
      split at h
      case isTrue hge =>
        obtain rfl : a = x := Option.some.inj h
        refine ⟨[], p ++ y :: r, rfl, by simp, fun z hz => ?_⟩
        rcases List.mem_append.1 hz with hz | hz
        · exact (hp z hz).le.trans hge
        · rcases List.mem_cons.1 hz with rfl | hz
          · exact hge
          · exact (hr z hz).trans hge
      case isFalse hlt =>
        obtain rfl : y = x := Option.some.inj h
        refine ⟨a :: p, r, rfl, fun z hz => ?_, hr⟩
        rcases List.mem_cons.1 hz with rfl | hz
        · omega
        · exact hp z hz

theorem exec_dispatch (s : State) (bad : List Nat) (fixed : Nat) : exec (.dispatch bad fixed) s = execDispatch bad fixed s := rfl

/-- The Caller past a dispatch that took call `k` (01 R26; 10 R305). -/
def pastDispatch (s : State) (k : Call) (n : Nat) (served : Bool) : State :=
  let u := unqueue s.caller k
  { s with caller := { u with
    nextDispatch := s.cycle + 4, starve := n, starveServes := if served then satAdd 32 u.starveServes 1 else u.starveServes } }

theorem execDispatch_places {s : State} {k : Call} {n t c : Nat} {served : Bool} (ht : s.pwr.thermal < 2)
    (hn : s.caller.nextDispatch ≤ s.cycle) (hk : chooseHead s = some (k, n, served)) (hw : towerFor s k = some t)
    (hc : (freeCtxs s t).head? = some c) (bad : List Nat) (fixed : Nat) : execDispatch bad fixed s =
      .next (startCall (cacheErrors (placeCall (pastDispatch s k n served) k t c) t c bad fixed) t c) := by
  have hgo : ¬ (s.pwr.thermal ≥ 2 ∨ s.cycle < s.caller.nextDispatch) := by omega
  simp only [execDispatch, if_neg hgo, hk, hw, hc, pastDispatch]

theorem cacheErrors_none (s : State) (t c : Nat) : cacheErrors s t c [] 0 = s := rfl

theorem freeCtxs_head {s : State} {t c : Nat} (h : (freeCtxs s t).head? = some c) : (s.ctx t c).st = .free := by
  have hm : c ∈ freeCtxs s t := List.mem_of_head? h
  simpa [freeCtxs] using (List.mem_filter.1 hm).2

theorem towersFor_ascending (s : State) (k : Call) : (towersFor s k).Pairwise (· < ·) :=
  (List.pairwise_lt_range.filter _).filter _

/-- The call goes to its preferred tower (01 R27). -/
def PrefersTower (s : State) (k : Call) : Prop :=
  (opInfo (isMf k.fn) k.desc).handles > 0 ∧ s.caller.map.getD (k.hash % 64) 0 ∈ towersFor s k

theorem towerFor_preferred {s : State} {k : Call} (h : PrefersTower s k) : towerFor s k = some (s.caller.map.getD (k.hash % 64) 0) := by
  simp only [towerFor, List.contains_iff_mem]
  exact if_pos h

theorem towerFor_other {s : State} {k : Call} (h : ¬ PrefersTower s k) :
    towerFor s k = bestBy (fun t => (freeCtxs s t).length) (towersFor s k) := by
  simp only [towerFor, List.contains_iff_mem]
  exact if_neg h

theorem towerFor_mem {s : State} {k : Call} {t : Nat} (h : towerFor s k = some t) : t ∈ towersFor s k := by
  by_cases hp : PrefersTower s k
  · rw [towerFor_preferred hp] at h
    exact Option.some.inj h ▸ hp.2
  · rw [towerFor_other hp] at h
    obtain ⟨p, r, hl, -⟩ := bestBy_split h
    simp [hl]

/-- Of the towers that are free for a call, one without a preferred tower takes the least of those with the most free contexts. -/
theorem towerFor_other_best {s : State} {k : Call} {t u : Nat} (hp : ¬ PrefersTower s k) (h : towerFor s k = some t)
    (hu : u ∈ towersFor s k) : (freeCtxs s u).length ≤ (freeCtxs s t).length ∧
      ((freeCtxs s u).length = (freeCtxs s t).length → t ≤ u) := by
  rw [towerFor_other hp] at h
  have hs := towersFor_ascending s k
  obtain ⟨p, r, hl, hbefore, hafter⟩ := bestBy_split h
  rw [hl] at hu hs
  rcases List.mem_append.1 hu with hu | hu
  · have := hbefore u hu
    omega
  · rcases List.mem_cons.1 hu with rfl | hu
    · simp
    · have hlt : t < u := List.rel_of_pairwise_cons (List.pairwise_append.1 hs).2.1 hu
      exact ⟨hafter u hu, fun _ => hlt.le⟩

/-- Settles O24: the dispatch by its own law; the tower by the laws of the choice of R27. -/
theorem dispatchPlacesCall : Obligations.DispatchPlacesCall := by
  unfold Obligations.DispatchPlacesCall
  intro s k n served t c ht hn hk hw hc
  refine ⟨execDispatch_places ht hn hk hw hc, fun a => cacheErrors_none a t c, towerFor_mem hw, freeCtxs_head hc,
    fun hh hm => ?_, fun h u hu => ?_⟩
  · exact Option.some.inj (hw.symm.trans (towerFor_preferred ⟨hh, hm⟩))
  · refine towerFor_other_best ?_ hw hu
    rintro ⟨hh, hm⟩
    rcases h with h | h
    · omega
    · exact h hm

/-! ## Reading a state whose parts stand -/

theorem State.tower_of_towers_eq {s r : State} (h : s.towers = r.towers) (t : Nat) : s.tower t = r.tower t := by
  rw [State.tower, State.tower, h]

/-- A part of a tower that is written as it stands is the same in every tower. -/
theorem State.part_setTower {α : Type} {s : State} {t : Nat} {x : Tower} (f : Tower → α) (h : f x = f (s.tower t)) (u : Nat) :
    f ((s.setTower t x).tower u) = f (s.tower u) := by
  by_cases hu : u = t
  · subst hu
    by_cases hl : u < s.towers.length
    · rw [State.tower_setTower_same _ _ _ hl, h]
    · rw [State.tower_of_towers_eq (List.set_eq_of_length_le (by omega))]
  · rw [State.tower_setTower_other _ _ _ _ hu]

/-- A context that holds a call is one of a tower that exists. -/
theorem ctx_call_exists {s : State} {t c : Nat} {k : Call} (h : (s.ctx t c).call = some k) :
    t < s.towers.length ∧ c < (s.tower t).ctxs.length := by
  have hc : c < (s.tower t).ctxs.length := by
    by_contra hc
    rw [State.ctx, List.getD_eq_default _ _ (by omega)] at h
    cases h
  refine ⟨?_, hc⟩
  by_contra ht
  have hd : s.tower t = {} := List.getD_eq_default _ _ (by omega)
  have hn : (s.ctx t c).call = none := by
    rw [State.ctx, hd, List.getD_replicate _ (by simpa [hd] using hc)]
  rw [hn] at h
  cases h

/-! ## The context that ends (10 R301) -/

theorem dropLanes_owner {c : Nat} {ls : List Lane} : ∀ l ∈ dropLanes c ls, l.owner ≠ some c := by
  intro l hl
  obtain ⟨m, -, rfl⟩ := List.mem_map.1 hl
  split
  case isTrue => simp [Lane.free]
  case isFalse h => exact h

/-- The tower past the end of a call in context `c`. -/
def Tower.ended (w : Tower) (c : Nat) (st : CtxState) : Tower :=
  { w with
    clanes := dropLanes c w.clanes, hlanes := dropLanes c w.hlanes, spire := w.spire.drop c
    blocks := w.blocks + (w.ctxs.getD c {}).blocks, ctxs := w.ctxs.set c { st := st } }

theorem endCtx_towers (s : State) (t c : Nat) (st : CtxState) :
    (endCtx s t c st).towers = (s.setTower t ((s.tower t).ended c st)).towers := by
  have h : (leaveCard s t c).towers = s.towers := by simp
  simp only [endCtx, State.setTower_towers, h, State.tower_of_towers_eq h t]
  rfl

theorem endCtx_tower_same {s : State} {t : Nat} (c : Nat) (st : CtxState) (h : t < s.towers.length) :
    (endCtx s t c st).tower t = (s.tower t).ended c st := by
  rw [State.tower_of_towers_eq (endCtx_towers s t c st), State.tower_setTower_same _ _ _ h]

theorem endCtx_tower_other {s : State} {t u : Nat} (c : Nat) (st : CtxState) (h : u ≠ t) : (endCtx s t c st).tower u = s.tower u := by
  rw [State.tower_of_towers_eq (endCtx_towers s t c st), State.tower_setTower_other _ _ _ _ h]

@[simp] theorem endCtx_cpls (s : State) (t c : Nat) (st : CtxState) : (endCtx s t c st).hif.cpls = s.hif.cpls := by
  simp [endCtx]

/-! ## Handoff (01 R32; 02 R64, R68) -/

@[simp] theorem callDone_cpls (s : State) (k : Call) : (callDone s k).hif.cpls = s.hif.cpls := by simp [callDone]

theorem handoff_cpls_taken {s : State} {k : Call} (b : Bytes) (hs : staleCall s k = false)
    (hf : isMf k.fn = true ∨ (s.tf k.fn).frozen = false) :
    (handoff s k b).hif.cpls = s.hif.cpls ++ [{ fn := k.fn, qp := k.qp, bytes := b, irqNow := bitOf (byteAt k.desc 2) 2 }] := by
  have hc : (staleCall s k || (!isMf k.fn && (s.tf k.fn).frozen)) = false := by
    rcases hf with hf | hf <;> simp [hs, hf]
  simp [handoff, hc]

theorem handoff_cpls_stale {s : State} {k : Call} (b : Bytes) (hs : staleCall s k = true) : (handoff s k b).hif.cpls = s.hif.cpls := by
  simp [handoff, hs]

theorem staleCall_of_hif_eq {s r : State} (k : Call) (h : s.hif = r.hif) : staleCall s k = staleCall r k := by
  simp [staleCall, State.qp, h]

theorem tf_of_hif_eq {s r : State} (n : Nat) (h : s.hif = r.hif) : s.tf n = r.tf n := by
  rw [State.tf, State.tf, h]

/-! ## Key bookkeeping (01 R31, R32) -/

/-- The uses of the key of handle `h`, in a tower key cache: one more, with the last-use mark `now` (01 R32). -/
def useKey (h now : Nat) (l : Tbl CacheEnt) : Tbl CacheEnt := l.map fun e =>
  if e.2.part = hPart h ∧ e.2.cls = hCls h ∧ e.2.idx = hIdx h then (e.1, { e.2 with uses := e.2.uses + 1, used := now }) else e

/-- One key's use changes the Keep in its clock only. -/
theorem bookKey_keep (s : State) (t h : Nat) : (bookKey t h s).keep = { s.keep with clock := s.keep.clock + 1 } := rfl

theorem bookKeys_unbooked {s : State} {t c st : Nat} (h : (s.ctx t c).keysOk = false ∨ st = stDeviceFault ∨ st = stStallBroken) :
    bookKeys s t c st = s := by
  rcases h with h | h | h <;> simp [bookKeys, h]

theorem bookKeys_booked {s : State} {t c st : Nat} (hk : (s.ctx t c).keysOk = true) (hd : st ≠ stDeviceFault)
    (hb : st ≠ stStallBroken) : bookKeys s t c st =
      (List.range (s.ctx t c).keys.length).foldl (fun a i => bookKey t (handleOf (workDesc s t c) i) a) s := by
  simp [bookKeys, hk, hd, hb]

/-- What one key's use keeps, all its uses keep. -/
theorem bookKeys_keeps {P : State → Prop} {s : State} (t c st : Nat) (h0 : P s) (h : ∀ a i, P a → P (bookKey t i a)) :
    P (bookKeys s t c st) := by
  by_cases hb : (s.ctx t c).keysOk = false ∨ st = stDeviceFault ∨ st = stStallBroken
  · rwa [bookKeys_unbooked hb]
  · simp only [not_or, Bool.not_eq_false] at hb
    obtain ⟨hk, hd, hs⟩ := hb
    rw [bookKeys_booked hk hd hs]
    exact List.foldlRecOn _ _ h0 fun a ha i _ => h a _ ha

theorem bookKeys_keep (s : State) (t c st : Nat) :
    (bookKeys s t c st).keep = { s.keep with clock := (bookKeys s t c st).keep.clock } :=
  bookKeys_keeps (P := fun a => a.keep = { s.keep with clock := a.keep.clock }) t c st rfl
    fun a i h => by rw [bookKey_keep, h]

theorem bookKey_tower_other (s : State) {t u : Nat} (h : Nat) (hu : u ≠ t) : (bookKey t h s).tower u = s.tower u :=
  State.tower_setTower_other s t u _ hu

theorem bookKeys_tower_other (s : State) {t u : Nat} (c st : Nat) (hu : u ≠ t) : (bookKeys s t c st).tower u = s.tower u :=
  bookKeys_keeps (P := fun a => a.tower u = s.tower u) t c st rfl fun a i h => by rw [bookKey_tower_other a i hu, h]

theorem bookKeys_towers_length (s : State) (t c st : Nat) : (bookKeys s t c st).towers.length = s.towers.length :=
  bookKeys_keeps (P := fun a => a.towers.length = s.towers.length) t c st rfl fun a i h => by simpa [bookKey] using h

/-- One key's use changes the tower in its key cache only. -/
theorem bookKey_tower_ctxs (s : State) (t h : Nat) : ((bookKey t h s).tower t).ctxs = (s.tower t).ctxs :=
  State.part_setTower (t := t) (x := { s.tower t with cache := useKey h s.keep.clock (s.tower t).cache }) Tower.ctxs rfl t

theorem bookKeys_tower_ctxs (s : State) (t c st : Nat) : ((bookKeys s t c st).tower t).ctxs = (s.tower t).ctxs :=
  bookKeys_keeps (P := fun a => (a.tower t).ctxs = (s.tower t).ctxs) t c st rfl fun a i h => by rw [bookKey_tower_ctxs, h]

theorem bookKey_cache {s : State} {t : Nat} (h : Nat) (ht : t < s.towers.length) :
    ((bookKey t h s).tower t).cache = useKey h s.keep.clock (s.tower t).cache :=
  congrArg Tower.cache (State.tower_setTower_same s t _ ht)

theorem workDesc_noJob {s : State} {t c : Nat} {k : Call} (hk : (s.ctx t c).call = some k) (hj : jobAt s t c = none) :
    workDesc s t c = k.desc := by
  simp [workDesc, hj, hk]

/-! ## Completion build of a call that carries no job and has written no output (01 R32) -/

theorem slices_zero (l : List Seg) (off : Nat) : slices l off 0 = [] := by
  cases l <;> simp [slices]

theorem zeroOut_noOutput (s : State) (t c fn : Nat) {w : Work} (h : w.outLen = 0) : zeroOut s t c fn w = s := by
  simp [zeroOut, zeroOutput, h, slices_zero, pieceCount, askOut]

theorem tableOf_noJob {s : State} {t c : Nat} (table : Nat) (h : jobAt s t c = none) :
    tableOf s t c table = if jobOpCall s t c then 36 else table := by
  simp [tableOf, carries, h]

theorem cflags_noJob (keep vault deg : Bool) : cflags false keep vault deg = 4 * flag keep + 8 * flag vault + 16 * flag deg := by
  simp [cflags, show flag false = 0 from rfl]

/-- Keys booked and outcome tallied: the state in which a call that carries no job hands its completion off. -/
def tallied (s : State) (t c st table spire : Nat) (k : Call) : State :=
  let x := s.ctx t c
  chargeOutcome (bookKeys s t c st) x k st (pathOf x (tableOf s t c table)) (spireOf x.work spire)

/-- The completion of a call that carries no job. -/
def completion (s : State) (t c st table : Nat) (res : Bytes) (k : Call) : Bytes :=
  let x := s.ctx t c
  cplBytes k st (cflags false x.keepHit x.vaultHit k.degraded) (pathOf x (tableOf s t c table)) res

/-- The end of a call that carries no job and has written no output: bookkeeping and tallies, handoff, and the context is free. -/
theorem finishCall_eq {s : State} {t c : Nat} {k : Call} (hk : (s.ctx t c).call = some k) (hj : jobAt s t c = none)
    (ho : (s.ctx t c).work.outLen = 0) (st table spire : Nat) (res : Bytes) : finishCall s t c st table spire res =
      endCtx (handoff (tallied s t c st table spire k) k (completion s t c st table res k)) t c .free := by
  simp only [finishCall, finishCore, hk, hj, zeroOut_noOutput _ _ _ _ ho, ite_self, jobEnded, Option.isSome_none]
  rfl

/-- Settles O19: the end is bookkeeping and tallies, handoff and the release of the context, and each clause is the law of one of them. -/
theorem callEndHandsOffCompletion : Obligations.CallEndHandsOffCompletion := by
  unfold Obligations.CallEndHandsOffCompletion
  intro s t c st table spire res k hk hj ho s' x path
  obtain ⟨ht, hc⟩ := ctx_call_exists hk
  have he : s' = endCtx (handoff (tallied s t c st table spire k) k (completion s t c st table res k)) t c .free :=
    finishCall_eq hk hj ho st table spire res
  have htow : (handoff (tallied s t c st table spire k) k (completion s t c st table res k)).towers = (bookKeys s t c st).towers := by
    simp [tallied]
  have hend : s'.tower t = ((bookKeys s t c st).tower t).ended c .free := by
    rw [he, endCtx_tower_same c _ (by rwa [htow, bookKeys_towers_length]), State.tower_of_towers_eq htow]
  have hh : (tallied s t c st table spire k).hif = s.hif := by simp [tallied]
  have hkeep : s'.keep = (bookKeys s t c st).keep := by simp [he, tallied]
  have hctx : s'.ctx t c = { st := .free } := by
    simp [State.ctx, hend, Tower.ended, bookKeys_tower_ctxs, List.getD_eq_getElem?_getD, hc]
  obtain ⟨hhost, hvault, hdome, hjobs, hpending⟩ :
      s'.host = s.host ∧ s'.vault = s.vault ∧ s'.dome = s.dome ∧ s'.jobs = s.jobs ∧ s'.pending = s.pending := by
    simp [he, tallied]
  refine ⟨by rw [hctx], by rw [hctx], by rw [hctx], ?lanes, hhost, ?keep, hvault, hdome, hjobs, fun hu => ?unbooked,
    fun hok hd hb h1 _ => ?booked, hpending, fun u hu => ?others, ?taken, ?stale⟩
  case lanes =>
    rw [hend]
    intro l hl
    exact (List.mem_append.1 hl).elim (dropLanes_owner l) (dropLanes_owner l)
  case keep => rw [hkeep, bookKeys_keep]
  case unbooked =>
    rw [hkeep, hend, bookKeys_unbooked hu]
    exact ⟨rfl, rfl⟩
  case booked =>
    rw [hend, bookKeys_booked hok hd hb, h1, workDesc_noJob hk hj]
    exact bookKey_cache _ ht
  case others => rw [he, endCtx_tower_other _ _ hu, State.tower_of_towers_eq htow, bookKeys_tower_other _ _ _ hu]
  case taken =>
    rintro ⟨hg, hdead, hf⟩
    have hs : staleCall s k = false := by simp [staleCall, hg, hdead]
    rw [he, endCtx_cpls, handoff_cpls_taken _ (by rw [staleCall_of_hif_eq k hh, hs]) (by rwa [tf_of_hif_eq _ hh]), hh,
      completion, cflags_noJob, tableOf_noJob _ hj]
    rfl
  case stale =>
    intro hg
    have hs : staleCall s k = true := by
      rcases hg with hg | hg <;> simp [staleCall, hg]
    rw [he, endCtx_cpls, handoff_cpls_stale _ (by rw [staleCall_of_hif_eq k hh, hs]), hh]

end Sys2Proof.Machine

/-! SUPPORT. The rings of the host interface: doorbells, enables and queue resets, descriptor reads, completions and their signals (02 R43 to
R54, R63 to R65). One law for each command where it completes; the statements follow from the laws. -/

namespace Sys2Proof.Machine

/-! ## The commands of the rings -/

theorem exec_qpSqTailDb (fn q : Nat) (v : Word) (s : State) : exec (.qpSqTailDb fn q v) s = execQpSqTailDb fn q v s := rfl
theorem exec_qpCqHeadDb (fn q : Nat) (v : Word) (s : State) : exec (.qpCqHeadDb fn q v) s = execQpCqHeadDb fn q v s := rfl
theorem exec_qpEnable (fn q : Nat) (s : State) : exec (.qpEnable fn q) s = execQpEnable fn q s := rfl
theorem exec_queueReset (fn q : Nat) (r e : Bool) (s : State) : exec (.queueReset fn q r e) s = execQueueReset fn q r e s := rfl
theorem exec_heldQueueReset (fn q : Nat) (s : State) : exec (.heldQueueReset fn q) s = execHeldQueueReset fn q s := rfl
theorem exec_descFetch (fn q : Nat) (s : State) : exec (.descFetch fn q) s = execDescFetch fn q s := rfl
theorem exec_descReadDone (fn q i : Nat) (a : ReadAns) (s : State) : exec (.descReadDone fn q i a) s = execDescReadDone fn q i a s := rfl
theorem exec_completionWrite (fn q : Nat) (s : State) : exec (.completionWrite fn q) s = execCompletionWrite fn q s := rfl
theorem exec_coalTimerExpiry (fn q : Nat) (s : State) : exec (.coalTimerExpiry fn q) s = execCoalTimerExpiry fn q s := rfl

/-! ## Doorbells (R46, R53) -/

theorem exec_qpSqTailDb_disabled {s : State} {fn q : Nat} (v : Word) (h : (s.qp fn q).enable = false) :
    exec (.qpSqTailDb fn q v) s = .next s := by
  simp [exec_qpSqTailDb, execQpSqTailDb, h]

theorem exec_qpCqHeadDb_disabled {s : State} {fn q : Nat} (v : Word) (h : (s.qp fn q).enable = false) :
    exec (.qpCqHeadDb fn q v) s = .next s := by
  simp [exec_qpCqHeadDb, execQpCqHeadDb, h]

theorem exec_qpSqTailDb_enabled {s : State} {fn q : Nat} (v : Word) (hs : qpShut s fn q = false) (h : (s.qp fn q).enable = true) :
    exec (.qpSqTailDb fn q v) s = .next (if 2 ^ (s.qp fn q).sqK ≤ v.toNat % 65536 then qpWerr s fn
      else s.setQp fn q { s.qp fn q with sqTail := v.toNat % 65536 }) := by
  simp [exec_qpSqTailDb, execQpSqTailDb, hs, h]

theorem exec_qpCqHeadDb_enabled {s : State} {fn q : Nat} (v : Word) (hs : qpShut s fn q = false) (h : (s.qp fn q).enable = true) :
    exec (.qpCqHeadDb fn q v) s = .next (if 2 ^ (s.qp fn q).cqK ≤ v.toNat % 65536 then qpWerr s fn
      else if 1 ≤ ringDist (s.qp fn q).cqK (s.qp fn q).cqHead (v.toNat % 65536) ∧
        ringDist (s.qp fn q).cqK (s.qp fn q).cqHead (v.toNat % 65536) ≤ ringDist (s.qp fn q).cqK (s.qp fn q).cqHead (s.qp fn q).cqTail
      then s.setQp fn q { s.qp fn q with cqHead := v.toNat % 65536 } else qpError s fn q 1) := by
  simp [exec_qpCqHeadDb, execQpCqHeadDb, hs, h]

/-- Settles O33: an enabled queue pair judges the new index by its range, and a completion head by its place in the ring. -/
theorem doorbellsMoveTheRings : Obligations.DoorbellsMoveTheRings := by
  unfold Obligations.DoorbellsMoveTheRings
  intro s fn q v hs x i dist
  refine ⟨fun he => ⟨exec_qpSqTailDb_disabled v he, exec_qpCqHeadDb_disabled v he⟩, fun he => ?_⟩
  rw [exec_qpSqTailDb_enabled v hs he, exec_qpCqHeadDb_enabled v hs he]
  refine ⟨fun hi => ?sqRange, fun hi => ?sqTail, fun hi => ?cqRange, fun hi h1 ht => ?cqHead, fun hi hd => ?cqError⟩
  case sqRange => rw [if_pos hi]
  case sqTail => rw [if_neg (Nat.not_le.2 hi)]
  case cqRange => rw [if_pos hi]
  case cqHead => rw [if_neg (Nat.not_le.2 hi), if_pos ⟨h1, ht⟩]
  case cqError =>
    rw [if_neg (Nat.not_le.2 hi), if_neg]
    rintro ⟨h1, ht⟩
    change 1 ≤ dist i at h1
    change dist i ≤ dist x.cqTail at ht
    omega

/-! ## Enables and queue resets (R48, R63 to R65) -/

theorem askReset_held {s : State} {fn q : Nat} (e cfg : Bool) (h : (s.qp fn q).old ≠ 0) : askReset s fn q e cfg =
    s.setQp fn q { s.qp fn q with heldReset := some e, heldCfg := (s.qp fn q).heldCfg || cfg } := if_pos h

theorem askReset_free {s : State} {fn q : Nat} (e cfg : Bool) (h : (s.qp fn q).old = 0) :
    askReset s fn q e cfg = doReset s fn q e cfg := if_neg (not_not_intro h)

/-- A QP_CTRL write with RESET asks for a queue reset, and so does one with ENABLE 0 to an enabled queue pair (R63). -/
theorem exec_queueReset_asks {s : State} {fn q : Nat} {reset : Bool} (e : Bool) (hs : qpShut s fn q = false)
    (h : reset = true ∨ e = false ∧ (s.qp fn q).enable = true) : exec (.queueReset fn q reset e) s = .next (askReset s fn q e false) := by
  rcases h with rfl | ⟨rfl, he⟩
  · simp [exec_queueReset, execQueueReset, hs, qpCtrlWrite]
  · cases reset <;> simp [exec_queueReset, execQueueReset, hs, qpCtrlWrite, he]

theorem exec_qpEnable_disabled {s : State} {fn q : Nat} (hs : qpShut s fn q = false) (h : (s.qp fn q).enable = false) :
    exec (.qpEnable fn q) s = .next (Sys2Proof.Machine.qpEnable s fn q) := by
  simp [exec_qpEnable, execQpEnable, hs, qpCtrlWrite, h]

theorem exec_heldQueueReset_takes {s : State} {fn q : Nat} {e : Bool} (hq : qpExists s fn q = true) (ho : (s.qp fn q).old = 0)
    (h : (s.qp fn q).heldReset = some e) : exec (.heldQueueReset fn q) s = .next (doReset s fn q e (s.qp fn q).heldCfg) := by
  simp [exec_heldQueueReset, execHeldQueueReset, h, hq, ho]

/-- A queue pair past its reset, `gone` of its calls having been handed off (R63). -/
def Qp.pastReset (x : Qp) (gone : Nat) : Qp :=
  { x with
    gen := (x.gen + 1) % 256, enable := false, err := 0, reads := dropReads x.reads, fetched := [], old := x.old + (x.live - gone)
    live := 0, heldReset := none, heldCfg := false, unsignalled := 0, coalAge := 0, age := 0 }

theorem queueReset_eq (s : State) (fn q : Nat) : queueReset s fn q =
    { s.setQp fn q ((s.qp fn q).pastReset (cplCount s fn q)) with
      jobs := s.jobs.filter (fun j => !(j.fn == fn && j.qp == q && j.suspended))
      hif := { (s.setQp fn q ((s.qp fn q).pastReset (cplCount s fn q))).hif with
        cpls := s.hif.cpls.filter (fun c => !(c.fn == fn && c.qp == q)) } } := rfl

/-- Settles O34: a write that asks for a reset resets at once where no older call is in flight, and is held where one is. -/
theorem queueResetsAndEnables : Obligations.QueueResetsAndEnables := by
  unfold Obligations.QueueResetsAndEnables
  refine ⟨fun s fn q hs he => exec_qpEnable_disabled hs he, fun s fn q e hs ho => ?held, fun s fn q hs ho => ?atOnce,
    fun s fn q e hq ho hr => ?taken⟩
  case held => rw [exec_queueReset_asks e hs (.inl rfl), askReset_held e false ho, Bool.or_false]
  case atOnce =>
    intro x gone s' t
    have ht : queueReset s fn q = t := by
      rw [queueReset_eq, Qp.pastReset, ho, Nat.zero_add]
      rfl
    have hreset : askReset s fn q false false = t := (askReset_free false false ho).trans ht
    refine ⟨?_, fun he => ?_, ?_⟩
    · rw [exec_queueReset_asks false hs (.inl rfl), hreset]
    · rw [exec_queueReset_asks false hs (.inr ⟨rfl, he⟩), hreset]
    · rw [exec_queueReset_asks true hs (.inl rfl), askReset_free true false ho, ← ht]
      rfl
  case taken => exact exec_heldQueueReset_takes hq ho hr

/-! ## Descriptor reads (R49, R52) -/

theorem ringDist_pos {k a b : Nat} (ha : a < 2 ^ k) (hb : b < 2 ^ k) (h : a ≠ b) : 0 < ringDist k a b := by
  unfold ringDist
  by_cases hab : a < b
  · rw [show b + 2 ^ k - a = (b - a) + 2 ^ k by omega, Nat.add_mod_right, Nat.mod_eq_of_lt (by omega)]
    omega
  · rw [Nat.mod_eq_of_lt (by omega)]
    omega

/-- How many descriptors the fetcher reads (R39, R49, R52). -/
def fetchCount (s : State) (x : Qp) : Nat :=
  min (min (min 8 (max 128 s.hif.mrrs / 128)) (ringDist x.sqK x.sqHead x.sqTail))
    (min (min (2 ^ x.sqK - x.sqHead) (32 - x.sqHead % 32)) (2 ^ x.cqK - 1 - qpOutstanding x))

theorem fetchCount_pos {s : State} {x : Qp} (hh : x.sqHead < 2 ^ x.sqK) (hp : 0 < ringDist x.sqK x.sqHead x.sqTail)
    (hr : qpOutstanding x < 2 ^ x.cqK - 1) : 0 < fetchCount s x := by
  unfold fetchCount
  omega

/-- A read from `h` within its 32 entries lies in one 4 KiB page of a 4 KiB-aligned ring. -/
theorem entries_in_page {h n : Nat} (hn : 0 < n) (h32 : n ≤ 32 - h % 32) : (128 * h) / 4096 = (128 * (h + n) - 1) / 4096 := by
  omega

/-- A new read that stands counts as outstanding, entry by entry. -/
theorem qpOutstanding_append (x : Qp) (r : DescRead) (h : r.dropped = false) :
    qpOutstanding { x with reads := x.reads ++ [r] } = qpOutstanding x + r.count := by
  simp [qpOutstanding, h]
  omega

theorem exec_descFetch_reads {s : State} {fn q : Nat} (hq : qpExists s fn q = true) (he : (s.qp fn q).enable = true)
    (hz : (s.qp fn q).err = 0) (hh : qpHeld s fn = false) (hn : s.hif.np < 768) (hi : ∀ r ∈ (s.qp fn q).reads, r.issued = true)
    (hc : 0 < fetchCount s (s.qp fn q)) : exec (.descFetch fn q) s = .next (s.setQp fn q { s.qp fn q with
      reads := (s.qp fn q).reads ++ [{ first := (s.qp fn q).sqHead, count := fetchCount s (s.qp fn q) }] }) := by
  have ha : (s.qp fn q).reads.any (fun r => !r.issued) = false := by simpa using hi
  have hc' : (fetchCount s (s.qp fn q) == 0) = false := by simp; omega
  unfold fetchCount at hc' ⊢
  simp only [exec_descFetch, execDescFetch, hq, he, hz, hh, ha, hc', show ¬ s.hif.np ≥ 768 by omega]
  rfl

/-- Settles O35: each bound is one term of the minimum that the fetcher takes. -/
theorem descriptorReadsStayWithinLimits : Obligations.DescriptorReadsStayWithinLimits := by
  unfold Obligations.DescriptorReadsStayWithinLimits
  intro s fn q x hq he hz hh hn hhead htail hne hroom hi
  have hpos : 0 < fetchCount s x := fetchCount_pos hhead (ringDist_pos hhead htail hne) hroom
  have hle : fetchCount s x ≤ 8 ∧ fetchCount s x ≤ max 128 s.hif.mrrs / 128 ∧ fetchCount s x ≤ ringDist x.sqK x.sqHead x.sqTail ∧
      fetchCount s x ≤ 2 ^ x.sqK - x.sqHead ∧ fetchCount s x ≤ 32 - x.sqHead % 32 ∧
      fetchCount s x ≤ 2 ^ x.cqK - 1 - qpOutstanding x := by
    unfold fetchCount
    omega
  obtain ⟨h8, hmrrs, hpending, hend, hpage, hspace⟩ := hle
  refine ⟨fetchCount s x, hpos, h8, by omega, hpending, by omega, entries_in_page hpos hpage,
    exec_descFetch_reads hq he hz hh hn hi hpos, ?_⟩
  rw [qpOutstanding_append _ _ rfl]
  dsimp only
  omega

/-! ## The answers to descriptor reads (R43, R49) -/

/-- One read fewer is outstanding (R39). -/
def oneReadFewer (s : State) : State := { s with hif := { s.hif with np := s.hif.np - 1 } }

/-- The queue pair once its reads, oldest first, are `l`: what has arrived with no earlier read before it is fetched (R49). -/
def Qp.withReads (x : Qp) (l : List DescRead) : Qp :=
  { x with fetched := x.fetched ++ (takeArrived l).1, reads := (takeArrived l).2 }

/-- A read once its answer has brought `b`. -/
def DescRead.filled (r : DescRead) (b : Bytes) : DescRead :=
  { r with data := some ((List.range r.count).map (fun j => fit 128 (b.drop (128 * j)))) }

theorem takeArrived_filled {r : DescRead} (b : Bytes) (rs : List DescRead) (hd : r.dropped = false) : takeArrived (r.filled b :: rs) =
    ((List.range r.count).map (fun j => fit 128 (b.drop (128 * j))) ++ (takeArrived rs).1, (takeArrived rs).2) := by
  simp [takeArrived, DescRead.filled, hd]

section OldestRead

variable {s : State} {fn q : Nat} {r : DescRead} {rs : List DescRead} (h : (s.qp fn q).reads = r :: rs) (hi : r.issued = true)
  (hn : r.data = none)

include hi hn in
theorem oldestRead_found : (r :: rs).findIdx? (fun x => x.first == r.first && x.issued && x.data.isNone) = some 0 := by
  simp [List.findIdx?_cons, hi, hn]

include h hi hn

theorem exec_descReadDone_dropped (hd : r.dropped = true) (a : ReadAns) : exec (.descReadDone fn q r.first a) s =
    .next (logAns ((oneReadFewer s).setQp fn q ((s.qp fn q).withReads rs)) fn a) := by
  simp only [exec_descReadDone, execDescReadDone, h, oldestRead_found hi hn]
  exact if_pos hd

theorem exec_descReadDone_data (hd : r.dropped = false) (b : Bytes) : exec (.descReadDone fn q r.first (.data b)) s =
    .next ((oneReadFewer s).setQp fn q ((s.qp fn q).withReads (r.filled b :: rs))) := by
  simp only [exec_descReadDone, execDescReadDone, h, oldestRead_found hi hn]
  exact if_neg (ne_true_of_eq_false hd)

theorem exec_descReadDone_failed (hd : r.dropped = false) {a : ReadAns} (ha : ansBytes a = none) :
    exec (.descReadDone fn q r.first a) s =
      .next (qpError (logAns ((oneReadFewer s).setQp fn q ((s.qp fn q).withReads rs)) fn a) fn q 2) := by
  simp only [exec_descReadDone, execDescReadDone, h, oldestRead_found hi hn, ha]
  exact if_neg (ne_true_of_eq_false hd)

end OldestRead

/-- Settles O36: the oldest read's answer joins the fetch buffer, with what waited behind it, or brings nothing. -/
theorem descriptorsArriveInRingOrder : Obligations.DescriptorsArriveInRingOrder := by
  unfold Obligations.DescriptorsArriveInRingOrder
  intro s fn q r rs hr hi hn s1 y
  refine ⟨fun hd a => exec_descReadDone_dropped hr hi hn hd a, fun hd b => ?data, fun hd a ha => exec_descReadDone_failed hr hi hn hd ha⟩
  rw [exec_descReadDone_data hr hi hn hd b, Qp.withReads, takeArrived_filled b rs hd]
  rfl

/-! ## Completions (R47, R51, R52) -/

/-- A host transfer that crosses no 4 KiB boundary is one piece (13 R379). -/
theorem pieces_one {a n : Nat} (hn : 0 < n) (h : a % 4096 + n ≤ 4096) : pieces a n = [(a, n)] := by
  have hm : min n (4096 - a % 4096) = n := by omega
  simp [pieces, piecesAux, hm, show n ≠ 0 by omega]

theorem markDirty_unlogged {s : State} {fn : Nat} (a : Nat) (h : isMf fn = true ∨ (s.tf fn).dirtyEn = false) : markDirty s fn a = s := by
  rcases h with h | h <;> simp [markDirty, h]

@[simp] theorem putHost_tf (s : State) (a n : Nat) (b : Bytes) : (putHost s a b).tf n = s.tf n := rfl

/-- A function whose host writes go through and mark no page: the MF, or a TF that is neither frozen nor logged (02 R68, R71). -/
def PlainWriter (s : State) (fn : Nat) : Prop := isMf fn = true ∨ ((s.tf fn).frozen = false ∧ (s.tf fn).dirtyEn = false)

/-- A write of one piece within the regions of a function that logs no pages stores its bytes, all of them, and changes nothing else. -/
theorem hostWrite_piece {s : State} {fn a : Nat} {b : Bytes} (hw : PlainWriter s fn) (hb : 0 < b.length) (ha : a % 4096 + b.length ≤ 4096)
    (hr : hostRefusal s fn true a = none) : hostWrite s fn a b = (putHost s a b, b.length) := by
  have hf : (!isMf fn && (s.tf fn).frozen) = false := by
    rcases hw with h | ⟨h, -⟩ <;> simp [h]
  have hd : isMf fn = true ∨ ((putHost s a b).tf fn).dirtyEn = false := hw.imp id And.right
  simp [hostWrite, hf, pieces_one hb ha, writePieces, hostCheck, hr, markDirty_unlogged a hd]

theorem cplOpen_of_space {s : State} {fn q : Nat} (hw : PlainWriter s fn)
    (h : ringDist (s.qp fn q).cqK (s.qp fn q).cqHead (s.qp fn q).cqTail ≠ 2 ^ (s.qp fn q).cqK - 1) : cplOpen s fn q = true := by
  rcases hw with hw | ⟨hw, -⟩ <;> simp [cplOpen, hw, h]

/-- A completion's bytes with the phase bit (R51). -/
def cplEntry (x : Qp) (b : Bytes) : Bytes := b.set 7 (b.getD 7 0 ||| (if x.phase then 1 else 0))

@[simp] theorem cplEntry_length (x : Qp) (b : Bytes) : (cplEntry x b).length = b.length := by simp [cplEntry]

theorem cplEntry_getElem {x : Qp} {b : Bytes} {j : Nat} (h : j < (cplEntry x b).length) :
    (cplEntry x b)[j] = if j = 7 then b.getD 7 0 ||| (if x.phase then 1 else 0) else b.getD j 0 := by
  have hj : j < b.length := by simpa using h
  simp only [cplEntry, List.getElem_set, List.getD_eq_getElem _ _ hj, eq_comm]

/-- The queue pair past a completion entry that it does not signal (R51, R52, R54). -/
def Qp.pastEntry (x : Qp) : Qp :=
  { x with
    cqTail := (x.cqTail + 1) % 2 ^ x.cqK, phase := if (x.cqTail + 1) % 2 ^ x.cqK = 0 then !x.phase else x.phase, live := x.live - 1
    unsignalled := x.unsignalled + 1 }

/-- The completion writer's oldest completion of a queue pair has its entry within the regions and signals nothing. -/
structure WritesEntry (s : State) (fn q i : Nat) (c : Cpl) : Prop where
  oldest : s.hif.cpls.findIdx? (fun e => e.fn == fn && e.qp == q) = some i
  cpl : s.hif.cpls[i]? = some c
  length : c.bytes.length = 64
  quiet : c.irqNow = false
  granted : s.hif.cplGranted = true
  writer : PlainWriter s fn
  space : ringDist (s.qp fn q).cqK (s.qp fn q).cqHead (s.qp fn q).cqTail ≠ 2 ^ (s.qp fn q).cqK - 1
  page : ((s.qp fn q).cqBase + 64 * (s.qp fn q).cqTail) % 4096 + 64 ≤ 4096
  coalesced : (s.qp fn q).unsignalled + 1 < 2 ^ (s.qp fn q).coalLog
  allowed : hostRefusal s fn true ((s.qp fn q).cqBase + 64 * (s.qp fn q).cqTail) = none

theorem exec_completionWrite_entry {s : State} {fn q i : Nat} {c : Cpl} (h : WritesEntry s fn q i c) :
    exec (.completionWrite fn q) s = .next
      ((putHost { s with hif := { s.hif with cpls := s.hif.cpls.eraseIdx i, cplGranted := false } }
        ((s.qp fn q).cqBase + 64 * (s.qp fn q).cqTail) (cplEntry (s.qp fn q) c.bytes)).setQp fn q (s.qp fn q).pastEntry) := by
  obtain ⟨ho, hc, hl, hquiet, hg, hw, hspace, hpage, hcoal, hallow⟩ := h
  have hgo : (!s.hif.cplGranted || !cplOpen s fn q) = false := by simp [hg, cplOpen_of_space hw hspace]
  have hi : s.hif.cpls.getD i {} = c := by simp [List.getD_eq_getElem?_getD, hc]
  have hlen : (cplEntry (s.qp fn q) c.bytes).length = 64 := by simp [hl]
  have hwrite := hostWrite_piece (s := { s with hif := { s.hif with cpls := s.hif.cpls.eraseIdx i, cplGranted := false } })
    (b := cplEntry (s.qp fn q) c.bytes) hw (by omega) (by omega) hallow
  have hsig : (c.irqNow || decide ((s.qp fn q).unsignalled + 1 ≥ 2 ^ (s.qp fn q).coalLog)) = false := by simp [hquiet, hcoal]
  unfold cplEntry at hwrite hlen
  simp only [exec_completionWrite, execCompletionWrite, ho, hgo, hi, hwrite, hlen]
  exact congrArg Host.Outcome.next (if_neg (ne_true_of_eq_false hsig))

/-- Settles O37: the entry is one piece of host memory, stored by the law of a run of bytes; the queue pair moves past it. -/
theorem completionEntryIsWrittenAtTheTail : Obligations.CompletionEntryIsWrittenAtTheTail := by
  unfold Obligations.CompletionEntryIsWrittenAtTheTail
  intro s fn q i c ho hc hl hquiet hg x a hw hspace hpage hcoal hallow hmem _
  refine ⟨_, exec_completionWrite_entry ⟨ho, hc, hl, hquiet, hg, hw, hspace, hpage, hcoal, hallow⟩, fun j hj => ?entry,
    fun b hb => ?elsewhere, ?tail, ?phase, rfl, rfl, rfl, rfl, rfl, rfl, rfl⟩
  case entry =>
    have hj' : j < (cplEntry x c.bytes).length := by simpa [hl] using hj
    exact (tblGet_setRun_mem _ _ _ _ _ hj' hmem).trans (cplEntry_getElem hj')
  case elsewhere => exact tblGet_setRun_other _ _ _ _ _ (by simpa [hl] using hb)
  case tail => simp [Qp.pastEntry, x]
  case phase => simp [Qp.pastEntry, x]

/-! ## Signals (R54, R59, R68) -/

/-- A vector whose message is withheld (R68). -/
def VectorMasked (s : State) (fn v : Nat) : Prop :=
  (tblGet (0, 0, true) (s.msix fn).table v).2.2 = true ∨ (s.msix fn).fmask = true ∨ (isMf fn = false ∧ (s.tf fn).frozen = true)

theorem signal_disabled {s : State} {fn : Nat} (v : Nat) (h : (s.msix fn).enable = false) : signal s fn v = s := by
  simp [signal, h]

theorem signal_masked {s : State} {fn v : Nat} (h : (s.msix fn).enable = true) (hm : VectorMasked s fn v) :
    signal s fn v = s.setMsix fn { s.msix fn with pba := (s.msix fn).pba ||| 2 ^ v } := by
  have hc : ((tblGet (0, 0, true) (s.msix fn).table v).2.2 || (s.msix fn).fmask || (!isMf fn && (s.tf fn).frozen)) = true := by
    simpa [VectorMasked, or_assoc] using hm
  simp [signal, h, hc]

theorem signal_open {s : State} {fn v : Nat} (h : (s.msix fn).enable = true) (hm : ¬ VectorMasked s fn v) :
    signal s fn v = { s with hif := { s.hif with
      msgs := (fn, v, (tblGet (0, 0, true) (s.msix fn).table v).1, (tblGet (0, 0, true) (s.msix fn).table v).2.1) :: s.hif.msgs
      msiWaiting := s.hif.msiWaiting + 1 } } := by
  have hc : ¬ ((tblGet (0, 0, true) (s.msix fn).table v).2.2 || (s.msix fn).fmask || (!isMf fn && (s.tf fn).frozen)) = true := by
    simpa [VectorMasked, or_assoc] using hm
  simp only [signal, h, Bool.not_true, if_neg hc]
  rfl

/-- Settles O38: the timer's condition, and the three things that a signal can be. -/
theorem coalescingTimerSignals : Obligations.CoalescingTimerSignals := by
  unfold Obligations.CoalescingTimerSignals
  intro s fn q x s1
  refine ⟨fun hu ht ha => ?expired, fun ha => ?waits, fun v => ⟨signal_disabled v, signal_masked, signal_open⟩⟩
  case expired => exact congrArg Host.Outcome.next (if_pos ⟨hu, ht, ha⟩)
  case waits => exact congrArg Host.Outcome.next (if_neg fun h => Nat.not_le.2 ha h.2.2)

end Sys2Proof.Machine

/-! SUPPORT. The tenant functions: mailboxes, stopping, resetting and ceasing, dirty logging, and the context image of a queue pair (02 R60
to R75). A reset is followed queue pair by queue pair: what each one becomes, and what a step for one leaves of the others. -/

namespace Sys2Proof.Machine

/-! ## The commands of the tenant functions -/

theorem exec_mboxToMf (n : Nat) (v : Word) (s : State) : exec (.mboxToMf n v) s = execMboxToMf n v s := rfl
theorem exec_chFromMf (n : Nat) (v : Word) (s : State) : exec (.chFromMf n v) s = execChFromMf n v s := rfl
theorem exec_tfStop (n : Nat) (s : State) : exec (.tfStop n) s = .next (tfCommand s n (stopTf s n)) := rfl
theorem exec_tfStopClear (n : Nat) (s : State) :
    exec (.tfStopClear n) s = .next (tfCommand s n (s.setTf n { s.tf n with stop := false, quiesced := false })) := rfl
theorem exec_tfQuiesced (n : Nat) (s : State) : exec (.tfQuiesced n) s = execTfQuiesced n s := rfl
theorem exec_tfReset (n : Nat) (s : State) : exec (.tfReset n) s = execTfReset n s := rfl
theorem exec_tfResetDone (n : Nat) (s : State) : exec (.tfResetDone n) s = execTfResetDone n s := rfl
theorem exec_tfCease (n : Nat) (s : State) : exec (.tfCease n) s = execTfCease n s := rfl
theorem exec_vfEnable (n : Nat) (s : State) : exec (.vfEnable n) s = execVfEnable n s := rfl
theorem exec_dirtyHarvest (n : Nat) (s : State) : exec (.dirtyHarvest n) s = execDirtyHarvest n s := rfl
theorem exec_harvestDone (n : Nat) (s : State) : exec (.harvestDone n) s = execHarvestDone n s := rfl
theorem exec_qctxSave (s : State) : exec .qctxSave s = .next (qctxCommand s 1) := rfl
theorem exec_qctxRestore (s : State) : exec .qctxRestore s = .next (qctxCommand s 2) := rfl
theorem exec_qctxCommandDone (s : State) : exec .qctxCommandDone s = execQctxCommandDone s := rfl

/-! ## Mailboxes (R60, R61) -/

section Mailboxes

variable {s : State} {n : Nat} (v : Word) (hr : s.dev.ready = true) (hn : n < s.hif.numTf)
include hr hn

theorem exec_mboxToMf_thawed (hf : (s.tf n).frozen = false) : exec (.mboxToMf n v) s =
    .next (if (s.tf n).toMfFull then s.setTf n { s.tf n with toMfDrops := satAdd 8 (s.tf n).toMfDrops 1 }
      else raise (s.setTf n { s.tf n with toMf := v, toMfFull := true }) pgMbox 1) := by
  simp [exec_mboxToMf, execMboxToMf, hr, Nat.not_le.2 hn, hf]

theorem exec_chFromMf_exists : exec (.chFromMf n v) s =
    .next (if (s.tf n).fromMfFull then s.setTf n { s.tf n with fromMfDrops := satAdd 8 (s.tf n).fromMfDrops 1 }
      else signal (s.setTf n { s.tf n with fromMf := v, fromMfFull := true }) n 8) := by
  simp [exec_chFromMf, execChFromMf, pageShut_ready _ hr, Nat.not_le.2 hn]

end Mailboxes

/-- Settles O39: each channel delivers or drops by its FULL; a frozen TF sends nothing. -/
theorem mailboxDeliversOrDrops : Obligations.MailboxDeliversOrDrops := by
  unfold Obligations.MailboxDeliversOrDrops
  intro s n v hr hn t
  refine ⟨fun hf he => ?delivered, fun hf he => ?dropped, fun hf => ?frozen, fun he => ?fromMf, fun he => ?fromMfDropped⟩
  case delivered => rw [exec_mboxToMf_thawed v hr hn hf, if_neg (ne_true_of_eq_false he)]
  case dropped =>
    rw [exec_mboxToMf_thawed v hr hn hf, if_pos he]
    rfl
  case frozen => exact congrArg Host.Outcome.next (if_pos (.inr (.inr hf)))
  case fromMf => rw [exec_chFromMf_exists v hr hn, if_neg (ne_true_of_eq_false he)]
  case fromMfDropped =>
    rw [exec_chFromMf_exists v hr hn, if_pos he]
    rfl

/-! ## Registers of a TF (R75; 16 R447) -/

theorem tfCommand_exists {s : State} {n : Nat} (f : State) (hr : s.dev.ready = true) (hn : n < s.hif.numTf) (hm : s.hif.numTf ≤ 1024) :
    tfCommand s n f = f := by
  simp [tfCommand, pageShut_ready _ hr, show ¬ 1024 ≤ n by omega, Nat.not_le.2 hn]

theorem tfCommand_absent {s : State} {n : Nat} (f : State) (hr : s.dev.ready = true) (hn : s.hif.numTf ≤ n) (hm : n < 1024) :
    tfCommand s n f = recordWerr s pgHif := by
  simp [tfCommand, pageShut_ready _ hr, Nat.not_le.2 hm, hn]

/-! ## Dirty logging (R71, R72) -/

theorem exec_harvestDone_flush {s : State} {n : Nat} {l : List Nat} (h : (s.tf n).flush = some l) : exec (.harvestDone n) s =
    (let s1 := flushMarks s (if (s.tf n).actB then (s.tf n).dirtyA else (s.tf n).dirtyB) l
    .next (raise (s1.setTf n { s1.tf n with flush := none }) pgHif 3)) := by
  simp only [exec_harvestDone, execHarvestDone, h]

/-- Settles O42: HARVEST switches the buffers under its condition, and HARVEST_DONE flushes the marks that it set aside. -/
theorem harvestSwitchesTheDirtyBuffer : Obligations.HarvestSwitchesTheDirtyBuffer := by
  unfold Obligations.HarvestSwitchesTheDirtyBuffer
  intro s n hr hn hm t
  refine ⟨fun hd hf => ?harvest, fun h => ?none, fun l hf => exec_harvestDone_flush hf⟩
  case harvest =>
    rw [exec_dirtyHarvest, execDirtyHarvest, tfCommand_exists _ hr hn hm, if_pos ⟨hd, Option.isNone_iff_eq_none.2 hf⟩]
  case none =>
    rw [exec_dirtyHarvest, execDirtyHarvest, tfCommand_exists _ hr hn hm, if_neg]
    rintro ⟨hd, hf⟩
    rcases h with h | h
    · exact ne_true_of_eq_false h hd
    · exact Option.isSome_iff_ne_none.1 h (Option.isNone_iff_eq_none.1 hf)

/-! ## What resets of queue pairs and of TFs never change -/

/-- The parts of the state that no reset of a queue pair or a TF changes (R66, R67). -/
structure KeepsBeyond (s r : State) : Prop where
  bind : r.bind = s.bind
  mtr : r.mtr = s.mtr
  acu : r.acu = s.acu
  host : r.host = s.host
  vault : r.vault = s.vault
  pending : r.pending = s.pending
  numTf : r.hif.numTf = s.hif.numTf

theorem KeepsBeyond.refl (s : State) : KeepsBeyond s s := ⟨rfl, rfl, rfl, rfl, rfl, rfl, rfl⟩

theorem KeepsBeyond.trans {s r u : State} (h : KeepsBeyond s r) (h' : KeepsBeyond r u) : KeepsBeyond s u :=
  ⟨h'.bind.trans h.bind, h'.mtr.trans h.mtr, h'.acu.trans h.acu, h'.host.trans h.host, h'.vault.trans h.vault,
    h'.pending.trans h.pending, h'.numTf.trans h.numTf⟩

theorem KeepsBeyond.foldl {f : State → Nat → State} (h : ∀ a i, KeepsBeyond a (f a i)) (l : List Nat) (s : State) :
    KeepsBeyond s (l.foldl f s) :=
  List.foldlRecOn l f (.refl s) fun a ha i _ => ha.trans (h a i)

theorem setQp_keepsBeyond (s : State) (fn q : Nat) (x : Qp) : KeepsBeyond s (s.setQp fn q x) := ⟨rfl, rfl, rfl, rfl, rfl, rfl, rfl⟩

theorem setTf_keepsBeyond (s : State) (n : Nat) (t : Tf) : KeepsBeyond s (s.setTf n t) := ⟨rfl, rfl, rfl, rfl, rfl, rfl, rfl⟩

theorem queueReset_keepsBeyond (s : State) (fn q : Nat) : KeepsBeyond s (queueReset s fn q) := ⟨rfl, rfl, rfl, rfl, rfl, rfl, rfl⟩

theorem endSession_keepsBeyond (s : State) (n : Nat) : KeepsBeyond s (endSession s n) := ⟨rfl, rfl, rfl, rfl, rfl, rfl, rfl⟩

theorem killCalls_keepsBeyond (s : State) (p : Nat → Bool) : KeepsBeyond s (killCalls s p) := ⟨rfl, rfl, rfl, rfl, rfl, rfl, rfl⟩

/-- A QCTX command in progress for TF `n` ends with it (R74). -/
def endQctx (s : State) (n : Nat) : State :=
  if s.hif.qctxBusy ≠ 0 ∧ s.hif.qctxTf = n then { s with hif := { s.hif with qctxBusy := 0, qctxResult := 4 } } else s

theorem endQctx_keepsBeyond (s : State) (n : Nat) : KeepsBeyond s (endQctx s n) := by
  unfold endQctx
  split
  · exact ⟨rfl, rfl, rfl, rfl, rfl, rfl, rfl⟩
  · exact .refl s

/-! ## A queue reset, by queue pair (R63, R65) -/

theorem qp_queueReset_same (s : State) (fn q : Nat) : (queueReset s fn q).qp fn q = (s.qp fn q).pastReset (cplCount s fn q) :=
  State.qp_setQp_same s fn q _

theorem qp_queueReset_other (s : State) {fn q g r : Nat} (h : 16 * g + r ≠ 16 * fn + q) : (queueReset s fn q).qp g r = s.qp g r :=
  State.qp_setQp_other s fn q g r _ h

/-- A reset that a TF reset asks for, where no older call is in flight: the queue reset, with QP_CFG and the bases. -/
theorem askReset_cfg_free {s : State} {fn q : Nat} (h : (s.qp fn q).old = 0) :
    askReset s fn q false true = (queueReset s fn q).setQp fn q ((s.qp fn q).pastReset (cplCount s fn q)).clearCfg := by
  rw [askReset_free false true h, ← qp_queueReset_same]
  rfl

theorem askReset_cfg_keepsBeyond (s : State) (fn q : Nat) : KeepsBeyond s (askReset s fn q false true) := by
  by_cases h : (s.qp fn q).old = 0
  · rw [askReset_cfg_free h]
    exact (queueReset_keepsBeyond s fn q).trans (setQp_keepsBeyond _ _ _ _)
  · rw [askReset_held false true h]
    exact setQp_keepsBeyond _ _ _ _

theorem askReset_cfg_tfs (s : State) (fn q : Nat) : (askReset s fn q false true).hif.tfs = s.hif.tfs := by
  by_cases h : (s.qp fn q).old = 0
  · rw [askReset_cfg_free h]
    rfl
  · rw [askReset_held false true h]
    rfl

theorem qp_askReset_cfg_other (s : State) {fn q g r : Nat} (hne : 16 * g + r ≠ 16 * fn + q) :
    (askReset s fn q false true).qp g r = s.qp g r := by
  by_cases h : (s.qp fn q).old = 0
  · rw [askReset_cfg_free h, State.qp_setQp_other _ _ _ _ _ _ hne, qp_queueReset_other s hne]
  · rw [askReset_held false true h, State.qp_setQp_other _ _ _ _ _ _ hne]

/-! ## A TF reset (R65, R66) -/

/-- A queue pair as its TF's reset finds it: of a frozen TF, without what it has fetched (R68). -/
def Qp.thawed (x : Qp) (frozen : Bool) : Qp := if frozen then x.dropFetched else x

@[simp] theorem Qp.thawed_old (x : Qp) (b : Bool) : (x.thawed b).old = x.old := by cases b <;> rfl
@[simp] theorem Qp.thawed_gen (x : Qp) (b : Bool) : (x.thawed b).gen = x.gen := by cases b <;> rfl

/-- What a TF reset makes of a queue pair: its reset is held while older calls are in flight, and otherwise takes effect. -/
inductive Qp.TfReset (x : Qp) : Qp → Prop
  | held (frozen : Bool) (h : x.old ≠ 0) : x.TfReset { x.thawed frozen with heldReset := some false, heldCfg := true }
  | taken (frozen : Bool) (gone : Nat) (h : x.old = 0) : x.TfReset ((x.thawed frozen).pastReset gone).clearCfg

/-- The part of a TF reset that falls to queue pair `q`. -/
def resetTfQp (n : Nat) (frozen : Bool) (s : State) (q : Nat) : State :=
  askReset (if frozen then s.setQp n q (s.qp n q).dropFetched else s) n q false true

/-- The queue pair that is reset finds itself thawed. -/
theorem qp_thaw_same (s : State) (n q : Nat) (frozen : Bool) :
    (if frozen then s.setQp n q (s.qp n q).dropFetched else s).qp n q = (s.qp n q).thawed frozen := by
  cases frozen
  · rfl
  · exact State.qp_setQp_same s n q _

theorem resetTfQp_keepsBeyond (n : Nat) (frozen : Bool) (s : State) (q : Nat) : KeepsBeyond s (resetTfQp n frozen s q) := by
  refine KeepsBeyond.trans ?_ (askReset_cfg_keepsBeyond _ n q)
  cases frozen
  · exact .refl s
  · exact setQp_keepsBeyond _ _ _ _

theorem resetTfQp_tfs (n : Nat) (frozen : Bool) (s : State) (q : Nat) : (resetTfQp n frozen s q).hif.tfs = s.hif.tfs := by
  rw [resetTfQp, askReset_cfg_tfs]
  cases frozen <;> rfl

theorem qp_resetTfQp_other {n q g r : Nat} (frozen : Bool) (s : State) (hne : 16 * g + r ≠ 16 * n + q) :
    (resetTfQp n frozen s q).qp g r = s.qp g r := by
  rw [resetTfQp, qp_askReset_cfg_other _ hne]
  cases frozen
  · rfl
  · exact State.qp_setQp_other s n q g r _ hne

theorem qp_resetTfQp_same (n : Nat) (frozen : Bool) (s : State) (q : Nat) : (s.qp n q).TfReset ((resetTfQp n frozen s q).qp n q) := by
  have hx := qp_thaw_same s n q frozen
  unfold resetTfQp
  generalize (if frozen then s.setQp n q (s.qp n q).dropFetched else s) = a at hx ⊢
  have ho : (a.qp n q).old = (s.qp n q).old := by rw [hx, Qp.thawed_old]
  by_cases h : (s.qp n q).old = 0
  · rw [askReset_cfg_free (ho.trans h), State.qp_setQp_same, hx]
    exact .taken frozen _ h
  · rw [askReset_held false true (ho.trans_ne h), State.qp_setQp_same, hx, Bool.or_true]
    exact .held frozen h

/-- A fold over queue pairs, each step of which changes its own queue pair only, does to each of them what its step does. -/
theorem qp_foldl_own {f : State → Nat → State} {n : Nat} {P : Qp → Qp → Prop} (other : ∀ a q r, r ≠ q → (f a q).qp n r = a.qp n r)
    (same : ∀ a q, P (a.qp n q) ((f a q).qp n q)) {l : List Nat} (hl : l.Nodup) {q : Nat} (hq : q ∈ l) (s : State) :
    P (s.qp n q) ((l.foldl f s).qp n q) := by
  induction l generalizing s with
  | nil => cases hq
  | cons i r ih =>
    obtain ⟨hi, hr⟩ := List.nodup_cons.1 hl
    rcases List.mem_cons.1 hq with rfl | hq
    · have hrest : (r.foldl f (f s q)).qp n q = (f s q).qp n q :=
        List.foldlRecOn (motive := fun a : State => a.qp n q = (f s q).qp n q) r f rfl
          fun a ha j hj => (other a j q (fun e => hi (e ▸ hj))).trans ha
      rw [List.foldl_cons, hrest]
      exact same s q
    · rw [← other s i q (fun e => hi (e ▸ hq))]
      exact ih hr hq (f s i)

/-- The registers of a TF past its reset (R66). -/
def Tf.pastReset (t : Tf) : Tf :=
  { t with
    frozen := false, gen := (t.gen + 1) % 256, resetting := true, toMf := 0, toMfFull := false, toMfDrops := 0, fromMf := 0
    fromMfFull := false, fromMfDrops := 0, msix := {} }

/-- The queue pairs of TF `n` past its reset. -/
def resetTfQps (s : State) (n : Nat) : State := (List.range 8).foldl (resetTfQp n (s.tf n).frozen) s

theorem resetTfQps_tfs (s : State) (n : Nat) : (resetTfQps s n).hif.tfs = s.hif.tfs :=
  List.foldlRecOn (motive := fun a : State => a.hif.tfs = s.hif.tfs) _ _ rfl fun a ha q _ => (resetTfQp_tfs n _ a q).trans ha

theorem resetTf_eq (s : State) (n : Nat) :
    resetTf s n = endQctx (endSession ((resetTfQps s n).setTf n ((resetTfQps s n).tf n).pastReset) n) n := rfl

@[simp] theorem endQctx_tfs (s : State) (n : Nat) : (endQctx s n).hif.tfs = s.hif.tfs := by
  unfold endQctx
  split <;> rfl

@[simp] theorem endQctx_qps (s : State) (n : Nat) : (endQctx s n).hif.qps = s.hif.qps := by
  unfold endQctx
  split <;> rfl

@[simp] theorem endSession_hif (s : State) (n : Nat) : (endSession s n).hif = s.hif := rfl

theorem State.tf_of_tfs_eq {s r : State} (h : s.hif.tfs = r.hif.tfs) (n : Nat) : s.tf n = r.tf n := by
  rw [State.tf, State.tf, h]

theorem State.qp_of_qps_eq {s r : State} (h : s.hif.qps = r.hif.qps) (fn q : Nat) : s.qp fn q = r.qp fn q := by
  rw [State.qp, State.qp, h]

theorem tf_resetTf (s : State) (n m : Nat) : (resetTf s n).tf m = ((resetTfQps s n).setTf n (s.tf n).pastReset).tf m := by
  rw [State.tf_of_tfs_eq (s := resetTf s n) (r := (resetTfQps s n).setTf n ((resetTfQps s n).tf n).pastReset) (by simp [resetTf_eq]),
    State.tf_of_tfs_eq (resetTfQps_tfs s n) n]

theorem qp_resetTf (s : State) (n fn q : Nat) : (resetTf s n).qp fn q = (resetTfQps s n).qp fn q :=
  State.qp_of_qps_eq (by simp [resetTf_eq]) fn q

theorem resetTf_tf_same (s : State) (n : Nat) : (resetTf s n).tf n = (s.tf n).pastReset := by
  rw [tf_resetTf, State.tf_setTf_same]

theorem resetTf_tf_other (s : State) {n m : Nat} (h : m ≠ n) : (resetTf s n).tf m = s.tf m := by
  rw [tf_resetTf, State.tf_setTf_other _ _ _ _ h, State.tf_of_tfs_eq (resetTfQps_tfs s n)]

theorem resetTf_qp_own (s : State) (n : Nat) {q : Nat} (hq : q < 8) : (s.qp n q).TfReset ((resetTf s n).qp n q) := by
  rw [qp_resetTf]
  exact qp_foldl_own (fun a i r h => qp_resetTfQp_other _ a (by omega)) (qp_resetTfQp_same n _) List.nodup_range (List.mem_range.2 hq) s

theorem resetTf_qp_other (s : State) {n m q : Nat} (hm : m ≠ n) (hq : q < 16) : (resetTf s n).qp m q = s.qp m q := by
  rw [qp_resetTf]
  refine List.foldlRecOn (motive := fun a : State => a.qp m q = s.qp m q) _ _ rfl fun a ha i hi => ?_
  have hi : i < 8 := List.mem_range.1 hi
  rw [qp_resetTfQp_other _ a (by omega), ha]

theorem resetTf_keepsBeyond (s : State) (n : Nat) : KeepsBeyond s (resetTf s n) :=
  (KeepsBeyond.foldl (resetTfQp_keepsBeyond n _) _ s).trans
    ((setTf_keepsBeyond _ _ _).trans ((endSession_keepsBeyond _ _).trans (endQctx_keepsBeyond _ _)))

/-- Settles O41: the TF's registers past its reset, its queue pairs by the two cases of their reset, and the rest by the frame. -/
theorem tfResetClearsOnlyItsOwnState : Obligations.TfResetClearsOnlyItsOwnState := by
  unfold Obligations.TfResetClearsOnlyItsOwnState
  intro s n hr hn _ _ _
  have hk := resetTf_keepsBeyond s n
  refine ⟨resetTf s n, congrArg Host.Outcome.next (if_pos ⟨hn, hr⟩), ?registers, fun q hq ho => ?held, fun q hq ho => ?taken,
    fun m hm => resetTf_tf_other s hm, fun m q hm hq => resetTf_qp_other s hm hq, hk.bind, hk.mtr, hk.acu, hk.host, hk.vault, hk.pending⟩
  case registers =>
    rw [resetTf_tf_same]
    simp [Tf.pastReset]
  case held =>
    have h := resetTf_qp_own s n hq
    generalize (resetTf s n).qp n q = y at h ⊢
    cases h with
    | held frozen _ => simp
    | taken frozen gone h0 => exact absurd h0 ho
  case taken =>
    have h := resetTf_qp_own s n hq
    generalize (resetTf s n).qp n q = y at h ⊢
    cases h with
    | held frozen h0 => exact absurd ho h0
    | taken frozen gone _ => simp [Qp.clearCfg, Qp.pastReset]

/-! ## TFs that cease to exist (R67, R75) -/

/-- The reset of queue pair `q` of a TF that ceases to exist: calls and reads in flight are all that it keeps. -/
def ceaseQp (n : Nat) (s : State) (q : Nat) : State :=
  (queueReset s n q).setQp n q { old := ((queueReset s n q).qp n q).old, reads := ((queueReset s n q).qp n q).reads }

theorem ceaseQp_keepsBeyond (n : Nat) (s : State) (q : Nat) : KeepsBeyond s (ceaseQp n s q) :=
  (queueReset_keepsBeyond s n q).trans (setQp_keepsBeyond _ _ _ _)

theorem aerErased_keepsBeyond (s : State) (n : Nat) : KeepsBeyond s { s with hif := { s.hif with aer := tblErase s.hif.aer n } } :=
  ⟨rfl, rfl, rfl, rfl, rfl, rfl, rfl⟩

theorem ceaseTf_keepsBeyond (s : State) (n : Nat) : KeepsBeyond s (ceaseTf s n) :=
  (KeepsBeyond.foldl (ceaseQp_keepsBeyond n) (List.range 8) s).trans
    ((setTf_keepsBeyond _ _ _).trans ((endSession_keepsBeyond _ n).trans ((aerErased_keepsBeyond _ n).trans (endQctx_keepsBeyond _ n))))

theorem Call.kill_fn (p : Nat → Bool) (k : Call) : (k.kill p).fn = k.fn := by
  unfold Call.kill
  split <;> rfl

theorem Call.kill_dead {p : Nat → Bool} {k : Call} (h : p k.fn = true) : (k.kill p).dead = true := by
  rw [Call.kill, if_pos h]

theorem killCalls_queued_dead {s : State} {p : Nat → Bool} {l : List Call} (hl : l ∈ (killCalls s p).caller.queues) {k : Call}
    (hk : k ∈ l) (hp : p k.fn = true) : k.dead = true := by
  obtain ⟨l', -, rfl⟩ := List.mem_map.1 hl
  obtain ⟨k', -, rfl⟩ := List.mem_map.1 hk
  exact Call.kill_dead (Call.kill_fn p k' ▸ hp)

/-- A function that is a TF from `num` on. -/
def fromTf (num : Nat) (fn : Nat) : Bool := !isMf fn && decide (num ≤ fn)

/-- The state in which the TFs from `num` on have ceased, before NumVFs takes its new value. -/
def ceased (s : State) (num : Nat) : State := killCalls (((tfList s).filter (num ≤ ·)).foldl ceaseTf s) (fromTf num)

theorem ceased_keepsBeyond (s : State) (num : Nat) : KeepsBeyond s (ceased s num) :=
  (KeepsBeyond.foldl ceaseTf_keepsBeyond _ s).trans (killCalls_keepsBeyond _ _)

theorem exec_tfCease_fewer {s : State} {num : Nat} (h : num < s.hif.numTf) :
    exec (.tfCease num) s = .next { ceased s num with hif := { (ceased s num).hif with numTf := num } } := by
  have hn : min (ceased s num).hif.numTf num = num := by
    rw [(ceased_keepsBeyond s num).numTf]
    omega
  rw [exec_tfCease, execTfCease, if_pos h, ceaseFrom]
  exact congrArg (fun k => Host.Outcome.next { ceased s num with hif := { (ceased s num).hif with numTf := k } }) hn

theorem qpExists_absent {s : State} {n : Nat} (q : Nat) (hn : s.hif.numTf ≤ n) (hm : n ≠ mfNum) : qpExists s n q = false := by
  simp [qpExists, isMf, hm, Nat.not_lt.2 hn]

/-- Settles O40: each command of a TF under its condition; the calls of TFs that cease are marked where all calls are gone through. -/
theorem tfStopsQuiescesAndCeases : Obligations.TfStopsQuiescesAndCeases := by
  unfold Obligations.TfStopsQuiescesAndCeases
  refine ⟨fun s n hr hn hm => ⟨?stop, ?stopClear, fun hs hq hd => ?quiesced, fun hg hall => ?resetDone⟩, fun s n hr hn hm => ?absent,
    fun s num h0 hnum => ?enable, fun s num hnum => ?cease⟩
  case stop =>
    rw [exec_tfStop, tfCommand_exists _ hr hn hm]
    rfl
  case stopClear => rw [exec_tfStopClear, tfCommand_exists _ hr hn hm]
  case quiesced => exact congrArg Host.Outcome.next (if_pos ⟨hn, hs, by simp [hq], hd⟩)
  case resetDone =>
    have hfree : (List.range 8).all (fun q => (s.qp n q).old == 0 && (s.qp n q).heldReset.isNone) = true := by
      simpa using hall
    exact congrArg Host.Outcome.next (if_pos ⟨hn, hg, hfree⟩)
  case absent => exact ⟨by rw [exec_tfStop, tfCommand_absent _ hr hn hm], by rw [exec_tfStopClear, tfCommand_absent _ hr hn hm]⟩
  case enable => exact congrArg Host.Outcome.next (if_pos ⟨h0, hnum⟩)
  case cease =>
    have hk := ceased_keepsBeyond s num
    refine ⟨_, exec_tfCease_fewer hnum, rfl, fun n hn => ?_, fun l hl k hmem hf hmf => ?_, hk.bind, congrArg _ hk.mtr, hk.acu, hk.host⟩
    · by_cases hmf : n = mfNum
      · exact .inr hmf
      · exact .inl (qpExists_absent 0 hn hmf)
    · exact killCalls_queued_dead hl hmem (by simp [fromTf, isMf, hmf, hf])

/-! ## Little-endian fields -/

@[simp] theorem leBytes_length (n v : Nat) : (leBytes n v).length = n := by
  induction n generalizing v with
  | zero => rfl
  | succ n ih => simp [leBytes, ih]

theorem leVal_leBytes (n v : Nat) : leVal (leBytes n v) = v % 256 ^ n := by
  induction n generalizing v with
  | zero => simp [leBytes, leVal, Nat.mod_one]
  | succ n ih =>
    rw [leBytes, leVal, ih, BitVec.toNat_ofNat, pow_succ' 256 n, Nat.mod_mul]

theorem byteAt_eq_leAt (b : Bytes) (i : Nat) : byteAt b i = leAt b i 1 := by
  by_cases h : i < b.length
  · simp [byteAt, leAt, sub, List.take_one, List.head?_drop, List.getD_eq_getElem?_getD, h, leVal]
  · simp [byteAt, leAt, sub, List.getD_eq_getElem?_getD, h, leVal, List.drop_eq_nil_of_le (Nat.not_lt.1 h)]

/-- A field at the head of a string. -/
theorem leAt_head (n v : Nat) (r : Bytes) : leAt (leBytes n v ++ r) 0 n = v % 256 ^ n := by
  simp [leAt, sub, leVal_leBytes]

theorem drop_field {n off : Nat} (v : Nat) (r : Bytes) (h : n ≤ off) : (leBytes n v ++ r).drop off = r.drop (off - n) := by
  simp [List.drop_append, h]

/-- A field past the one at the head. -/
theorem leAt_tail {n off : Nat} (v : Nat) (r : Bytes) (len : Nat) (h : n ≤ off) :
    leAt (leBytes n v ++ r) off len = leAt r (off - n) len := by
  rw [leAt, leAt, sub, sub, drop_field v r h]

/-! ## The context image of a queue pair (R73, R74) -/

theorem qctxImageOf_length (x : Qp) : (qctxImageOf x).length = 48 := by simp [qctxImageOf, zeros]

/-- The fields of an image, each where R73 places it. -/
structure ImageFields (b : Bytes) (x : Qp) : Prop where
  sqBase : leAt b 0 8 = x.sqBase % 256 ^ 8
  cqBase : leAt b 8 8 = x.cqBase % 256 ^ 8
  sqK : byteAt b 16 = x.sqK % 256
  cqK : byteAt b 17 = x.cqK % 256
  prio : byteAt b 18 = x.prio % 256
  gen : byteAt b 19 = x.gen % 256
  sqHead : leAt b 20 2 = x.sqHead % 256 ^ 2
  sqTail : leAt b 22 2 = x.sqTail % 256 ^ 2
  cqTail : leAt b 24 2 = x.cqTail % 256 ^ 2
  cqHead : leAt b 26 2 = x.cqHead % 256 ^ 2
  flags : byteAt b 28 = (flag x.phase + 2 * flag x.enable) % 256
  coalLog : byteAt b 29 = x.coalLog % 256
  coalTime : byteAt b 30 = x.coalTime % 256
  reserved : b.drop 31 = zeros 17

theorem qctxImageOf_fields (x : Qp) : ImageFields (qctxImageOf x) x := by
  constructor <;> simp [qctxImageOf, byteAt_eq_leAt, leAt_tail, leAt_head, drop_field]

/-- A queue pair whose fields are in their ranges (R44, R57, R73). -/
structure Qp.InRange (x : Qp) : Prop where
  sqBase : x.sqBase < 2 ^ 64
  sqPage : x.sqBase % 4096 = 0
  cqBase : x.cqBase < 2 ^ 64
  cqPage : x.cqBase % 4096 = 0
  sqK : 4 ≤ x.sqK ∧ x.sqK ≤ 16
  cqK : 4 ≤ x.cqK ∧ x.cqK ≤ 16
  prio : x.prio < 4
  gen : x.gen < 256
  sqHead : x.sqHead < 2 ^ x.sqK
  sqTail : x.sqTail < 2 ^ x.sqK
  cqTail : x.cqTail < 2 ^ x.cqK
  cqHead : x.cqHead < 2 ^ x.cqK
  coalLog : x.coalLog < 16
  coalTime : x.coalTime < 256

/-- An index of a ring fits its 16 bits. -/
theorem index_mod {k i : Nat} (hk : k ≤ 16) (h : i < 2 ^ k) : i % 256 ^ 2 = i := by
  have := Nat.pow_le_pow_right (n := 2) (by omega) hk
  omega

/-- The fields of an image of a queue pair in its ranges are the queue pair's own. -/
theorem ImageFields.exact {b : Bytes} {x : Qp} (f : ImageFields b x) (h : x.InRange) :
    leAt b 0 8 = x.sqBase ∧ leAt b 8 8 = x.cqBase ∧ byteAt b 16 = x.sqK ∧ byteAt b 17 = x.cqK ∧ leAt b 20 2 = x.sqHead ∧
      leAt b 22 2 = x.sqTail ∧ leAt b 24 2 = x.cqTail ∧ leAt b 26 2 = x.cqHead := by
  obtain ⟨hsk, hsk'⟩ := h.sqK
  obtain ⟨hck, hck'⟩ := h.cqK
  refine ⟨f.sqBase.trans (Nat.mod_eq_of_lt h.sqBase), f.cqBase.trans (Nat.mod_eq_of_lt h.cqBase),
    f.sqK.trans (Nat.mod_eq_of_lt (by omega)), f.cqK.trans (Nat.mod_eq_of_lt (by omega)), f.sqHead.trans (index_mod hsk' h.sqHead),
    f.sqTail.trans (index_mod hsk' h.sqTail), f.cqTail.trans (index_mod hck' h.cqTail), f.cqHead.trans (index_mod hck' h.cqHead)⟩

/-- The flags byte gives back phase and ENABLE. -/
theorem flags_bits (p e : Bool) : bitOf ((flag p + 2 * flag e) % 256) 0 = p ∧ bitOf ((flag p + 2 * flag e) % 256) 1 = e := by
  cases p <;> cases e <;> decide

theorem qctxBad_image {x : Qp} (h : x.InRange) : qctxBad (qctxImageOf x) = false := by
  have f := qctxImageOf_fields x
  obtain ⟨hsb, hcb, hsk, hck, hsh, hst, hct, hch⟩ := f.exact h
  have hz : allZero (zeros 17) = true := by decide
  simp [qctxBad, hsb, hcb, hsk, hck, hsh, hst, hct, hch, f.reserved, hz, h.sqPage, h.cqPage, h.sqK, h.cqK, h.sqHead, h.sqTail, h.cqTail,
    h.cqHead]

/-- A queue pair with the saved fields of another (R73). -/
def Qp.restored (y x : Qp) : Qp :=
  { y with
    sqBase := x.sqBase, cqBase := x.cqBase, sqK := x.sqK, cqK := x.cqK, prio := x.prio, gen := x.gen, sqHead := x.sqHead
    sqTail := x.sqTail, cqTail := x.cqTail, cqHead := x.cqHead, phase := x.phase, enable := x.enable, coalLog := x.coalLog
    coalTime := x.coalTime }

theorem qctxApply_image (y : Qp) {x : Qp} (h : x.InRange) : qctxApply y (qctxImageOf x) = y.restored x := by
  have f := qctxImageOf_fields x
  obtain ⟨hsb, hcb, hsk, hck, hsh, hst, hct, hch⟩ := f.exact h
  have hprio : x.prio % 256 % 4 = x.prio := by have := h.prio; omega
  have hlog : x.coalLog % 256 % 16 = x.coalLog := by have := h.coalLog; omega
  simp only [qctxApply, Qp.restored, hsb, hcb, hsk, hck, hsh, hst, hct, hch, f.prio, f.gen, f.flags, f.coalLog, f.coalTime, hprio, hlog,
    Nat.mod_eq_of_lt h.gen, Nat.mod_eq_of_lt h.coalTime, flags_bits]

/-! ## QCTX commands (R73, R74) -/

theorem qctxCommand_begins {s : State} {cmd : Nat} (hr : s.dev.ready = true) (hb : s.hif.qctxBusy = 0) (hc : cmd ≠ 0) :
    qctxCommand s cmd = { s with hif := { s.hif with qctxBusy := cmd } } := by
  simp [qctxCommand, pageShut_ready _ hr, hb, hc]

theorem exec_qctxCommandDone_saves {s : State} (hb : s.hif.qctxBusy = 1) (hn : s.hif.qctxTf < s.hif.numTf)
    (hq : (s.tf s.hif.qctxTf).quiesced = true) : exec .qctxCommandDone s = .next { s with hif := { s.hif with
      qctxBusy := 0, qctxResult := 0, qctxImage := qctxImageOf (s.qp s.hif.qctxTf s.hif.qctxQ) } } := by
  simp only [exec_qctxCommandDone, execQctxCommandDone, hb]
  exact congrArg Host.Outcome.next (if_pos ⟨hn, hq⟩)

/-- The state past a RESTORE that writes its image into the selected queue pair. -/
def pastRestore (s : State) : State :=
  let s1 := s.setQp s.hif.qctxTf s.hif.qctxQ (qctxApply (s.qp s.hif.qctxTf s.hif.qctxQ) s.hif.qctxImage)
  { s1 with hif := { s1.hif with qctxBusy := 0, qctxResult := 0 } }

theorem exec_qctxCommandDone_restores {s : State} (hb : s.hif.qctxBusy = 2) (hn : s.hif.qctxTf < s.hif.numTf)
    (hs : (s.tf s.hif.qctxTf).stop = true) (he : (s.qp s.hif.qctxTf s.hif.qctxQ).enable = false)
    (hi : qctxBad s.hif.qctxImage = false) : exec .qctxCommandDone s = .next (pastRestore s) := by
  simp only [exec_qctxCommandDone, execQctxCommandDone, hb, hn, hs, he, hi]
  rfl

/-- Settles O43: the commands by their laws, and the image by its fields, each of which its bytes hold whole. -/
theorem queueContextSavesAndRestores : Obligations.QueueContextSavesAndRestores := by
  unfold Obligations.QueueContextSavesAndRestores
  refine ⟨fun s hr hb => ?begins, fun s hn => ⟨fun hb hq => ?save, fun hb hs he hi => ?restore⟩, ?image⟩
  case begins =>
    rw [exec_qctxSave, exec_qctxRestore, qctxCommand_begins hr hb (by omega), qctxCommand_begins hr hb (by omega)]
    exact ⟨rfl, rfl⟩
  case save => exact exec_qctxCommandDone_saves hb hn hq
  case restore => exact ⟨_, exec_qctxCommandDone_restores hb hn hs he hi, rfl, rfl, rfl, rfl, rfl, rfl⟩
  case image =>
    intro x y hsb hsp hcb hcp hsk hsk' hck hck' hprio hgen hsh hst hct hch hlog htime
    have h : x.InRange := ⟨hsb, hsp, hcb, hcp, ⟨hsk, hsk'⟩, ⟨hck, hck'⟩, hprio, hgen, hsh, hst, hct, hch, hlog, htime⟩
    exact ⟨qctxImageOf_length x, qctxBad_image h, qctxApply_image y h⟩

end Sys2Proof.Machine

/-! SUPPORT. The calls that answer for themselves and the operations on jobs: ECHO, the four job operations, and where a running job stops (03
R94, R100 to R105). One law for each command at its figure, and one for each fate of the job that it names. -/

namespace Sys2Proof.Machine

/-! ## ECHO (R94) -/

@[simp] theorem pastYield_host (s : State) (t c : Nat) : (pastYield s t c).host = s.host := by
  dsimp only [pastYield]
  split <;> rfl

/-- Running past a yield point leaves every other tower as it is. -/
theorem pastYield_tower_other (s : State) {t u : Nat} (c : Nat) (h : u ≠ t) : (pastYield s t c).tower u = s.tower u := by
  dsimp only [pastYield]
  split
  · exact State.tower_setTower_other _ _ _ _ h
  · rfl

@[simp] theorem pastYield_jobAt (s : State) (t c t' c' : Nat) : jobAt (pastYield s t c) t' c' = jobAt s t' c' := by
  simp [jobAt]

theorem jobOpCall_otherOp {s : State} {t c : Nat} {k : Call} (hk : (s.ctx t c).call = some k) (h : opOf k.desc < 2 ∨ 5 < opOf k.desc) :
    jobOpCall s t c = false := by
  have h' : ¬ (2 ≤ leAt k.desc 0 2 ∧ leAt k.desc 0 2 ≤ 5) := by
    simp only [opOf] at h
    omega
  simp only [jobOpCall, hk, Option.map_some, Option.getD_some, ← Bool.decide_and, h', decide_false, Bool.false_and]

theorem exec_echo_at {s : State} {t c : Nat} (h : atFigure s t c 0x0001 = true) :
    exec (.echo t c .none) s = .next (finishCall (pastYield s t c) t c stOk 34 0 (sub (workDesc s t c) 64 48)) := by
  rw [← pastYield_workDesc s t c]
  exact congrArg Host.Outcome.next (runFigure_at h _)

/-- Settles O20: ECHO is the end of its call past the yield, so the law of the end of a call gives every clause. -/
theorem echoReturnsItsPayload : Obligations.EchoReturnsItsPayload := by
  unfold Obligations.EchoReturnsItsPayload
  intro s t c k hf hk hj ho hkeep hvault hfetch hgen hdead hfn
  obtain ⟨-, -, -, -, -, hop⟩ := atFigure_call hf
  have hd : workDesc s t c = k.desc := workDesc_noJob hk hj
  obtain ⟨-, hK, hV, hD, hH⟩ := pastYield_frame s t c
  have hx : (pastYield s t c).ctx t c = s.ctx t c := pastYield_ctx s t c t c
  have hno : jobOpCall (pastYield s t c) t c = false := jobOpCall_otherOp (hx ▸ hk) (by rw [← hd, hop]; decide)
  have hqp : (pastYield s t c).qp k.fn k.qp = s.qp k.fn k.qp := by simp only [State.qp, hH]
  obtain ⟨hst, -, -, -, hhost, hkp, hvt, hdm, -, -, -, -, hothers, htaken, -⟩ :=
    callEndHandsOffCompletion (pastYield s t c) t c stOk 34 0 (sub (workDesc s t c) 64 48) k (hx ▸ hk)
      ((pastYield_jobAt s t c t c).trans hj) (hx ▸ ho)
  refine ⟨_, exec_echo_at hf, ?_, hst, hhost.trans (pastYield_host s t c), by rw [hkp, hK], hvt.trans hV, hdm.trans hD,
    fun u hu => (hothers u hu).trans (pastYield_tower_other s c hu)⟩
  rw [htaken ⟨by rw [hqp, hgen], hdead, by rwa [tf_of_hif_eq k.fn hH]⟩, hno, hx, hH, hkeep, hvault, hfetch, hd]
  simp [show flag false = 0 from rfl]

/-! ## Which job an operation names (R103 to R105) -/

/-- The MF names a job of another function by an operation that takes its own jobs only (R105). -/
def NamesOther (own : Bool) (s : State) (t c : Nat) (k : Call) : Prop :=
  own = true ∧ isMf k.fn = true ∧ leAt (workDesc s t c) 68 2 ≠ mfNum

theorem passes_targetCheck {own : Bool} {s : State} {t c : Nat} {k : Call} (h : ¬ NamesOther own s t c k) :
    (own && isMf k.fn && leAt (workDesc s t c) 68 2 != mfNum) = false := by
  rwa [NamesOther, ← bne_iff_ne, ← Bool.and_eq_true, ← Bool.and_eq_true, ← Bool.and_assoc, Bool.not_eq_true] at h

section OnJob

variable {s : State} {t c : Nat} {k : Call} {own : Bool} (f : Job → State → State) (hk : (s.ctx t c).call = some k)
  (he : jobOpEarlier s t c (workDesc s t c) = false)
include hk he

theorem onJob_notOwn (h : NamesOther own s t c k) : onJob own t c f s = finishCall s t c stBadParam 36 0 [] := by
  obtain ⟨ho, hmf, hfn⟩ := h
  simp [onJob, hk, he, ho, hmf, hfn, jobDone]

theorem onJob_noJob (h : ¬ NamesOther own s t c k) (hj : targetJob s k = none) : onJob own t c f s = finishCall s t c stNoSuchJob 36 0 [] := by
  simp [onJob, hk, he, passes_targetCheck h, hj, jobDone]

theorem onJob_target {j : Job} (h : ¬ NamesOther own s t c k) (hj : targetJob s k = some j) : onJob own t c f s = f j s := by
  simp [onJob, hk, he, passes_targetCheck h, hj]

end OnJob

/-! ## The job operations on their target (R101 to R104) -/

section Target

variable {s : State} {t c : Nat} {j : Job}

theorem exec_jobSuspend_at (h : atFigure s t c 0x0002 = true) :
    exec (.jobSuspend t c .none) s = .next (onJob true t c (jobSuspend t c) (pastYield s t c)) :=
  congrArg Host.Outcome.next (runFigure_at h _)

theorem exec_jobResume_at (h : atFigure s t c 0x0003 = true) :
    exec (.jobResume t c .none) s = .next (onJob true t c (jobResume t c) (pastYield s t c)) :=
  congrArg Host.Outcome.next (runFigure_at h _)

theorem exec_jobCancel_at (h : atFigure s t c 0x0004 = true) :
    exec (.jobCancel t c .none) s = .next (onJob false t c (jobCancel t c) (pastYield s t c)) :=
  congrArg Host.Outcome.next (runFigure_at h _)

theorem exec_jobQuery_at (h : atFigure s t c 0x0005 = true) :
    exec (.jobQuery t c .none) s = .next (onJob false t c (jobQuery t c) (pastYield s t c)) :=
  congrArg Host.Outcome.next (runFigure_at h _)

theorem jobSuspend_refused (h : j.suspended = true ∨ carrierStale s j = true) :
    jobSuspend t c j s = finishCall s t c stJobState 36 0 [] := if_pos h

theorem jobSuspend_asks (hs : j.suspended = false) (hc : carrierStale s j = false) : jobSuspend t c j s =
    setNeeds (modJob s j.at_.1 j.at_.2 (fun y => { y with suspendBy := some (t, c) })) t c [.job j.at_.1 j.at_.2] :=
  if_neg (by simp [hs, hc])

theorem jobCancel_suspended (h : j.suspended = true) : jobCancel t c j s = finishCall (dropJob s j) t c stOk 36 0 [] := if_pos h

theorem jobCancel_asks (h : j.suspended = false) : jobCancel t c j s =
    setNeeds (modJob s j.at_.1 j.at_.2 (fun y => { y with cancelBy := some (t, c) })) t c [.job j.at_.1 j.at_.2] :=
  if_neg (by simp [h])

theorem jobResume_running (h : j.suspended = false) : jobResume t c j s = finishCall s t c stJobState 36 0 [] := by
  simp [jobResume, h, jobDone]

/-- The entry `y` of the store once job `j` goes on in context `c` of tower `t`, carried by a call of queue pair `q` (R102). -/
def Job.resumed (j : Job) (t c q : Nat) (y : Job) : Job :=
  if y.fn == j.fn && y.tag == j.tag then { y with suspended := false, at_ := (t, c), qp := q, suspendBy := none, cancelBy := none } else y

theorem jobResume_suspended {k : Call} (hk : (s.ctx t c).call = some k) (h : j.suspended = true) : jobResume t c j s =
    fetchKeys (({ s with jobs := s.jobs.map (j.resumed t c k.qp) } : State).setCtx t c { s.ctx t c with work := j.work }) t c := by
  have hq : ((s.ctx t c).call.map (·.qp)).getD 0 = k.qp := by simp [hk]
  simp only [jobResume, h, hq]
  rfl

/-- PROGRESS that JOB_QUERY gives: of a stream as at the last resume point that its entry has noted (R104). -/
def queriedProgress (s : State) (j : Job) : Nat :=
  if j.suspended ∨ streamOp (opOf j.call.desc) then j.progress else progressOf s j.at_.1 j.at_.2

/-- TOTAL that JOB_QUERY gives (R104). -/
def queriedTotal (s : State) (j : Job) : Nat := if j.suspended then j.total else totalOf s j.at_.1 j.at_.2

theorem jobQuery_answers : jobQuery t c j s = finishCall s t c stOk 36 0 (leBytes 1 (if j.suspended then 2 else 1) ++ leBytes 1 j.qp ++
    leBytes 2 j.fn ++ leBytes 4 j.tag ++ leBytes 8 (queriedProgress s j) ++ leBytes 8 (queriedTotal s j)) := rfl

end Target

/-- What the job operation of opcode `op` does on its target. -/
def jobOperation (op t c : Nat) : Job → State → State :=
  match op with
  | 2 => jobSuspend t c
  | 3 => jobResume t c
  | 4 => jobCancel t c
  | _ => jobQuery t c

/-- Settles O31: each command is its operation on the job it names, and each clause the law of one fate of that job. -/
theorem jobOperationsActOnTheirTarget : Obligations.JobOperationsActOnTheirTarget := by
  unfold Obligations.JobOperationsActOnTheirTarget
  intro s₀ t c op k s hf hk he asked run hop
  have hrun : run op = .next (onJob (decide (op = 2 ∨ op = 3)) t c (jobOperation op t c) s) := by
    obtain rfl | rfl | rfl | rfl : op = 2 ∨ op = 3 ∨ op = 4 ∨ op = 5 := by omega
    · exact exec_jobSuspend_at hf
    · exact exec_jobResume_at hf
    · exact exec_jobCancel_at hf
    · exact exec_jobQuery_at hf
  have hown : asked ↔ NamesOther (decide (op = 2 ∨ op = 3)) s t c k := by rw [NamesOther, decide_eq_true_iff]
  rw [hrun, hown]
  refine ⟨fun ha => by rw [onJob_notOwn _ hk he ha], fun ha hj => by rw [onJob_noJob _ hk he ha hj], fun j ha hj => ?_⟩
  rw [onJob_target _ hk he ha hj]
  refine ⟨?suspendRefused, ?suspend, ?resumeRefused, ?resume, ?cancelSuspended, ?cancel, ?query⟩ <;> rintro rfl
  case suspendRefused => exact fun h => congrArg Host.Outcome.next (jobSuspend_refused h)
  case suspend => exact fun hs hc => congrArg Host.Outcome.next (jobSuspend_asks hs hc)
  case resumeRefused => exact fun hs => congrArg Host.Outcome.next (jobResume_running hs)
  case resume => exact fun hs => congrArg Host.Outcome.next (jobResume_suspended hk hs)
  case cancelSuspended => exact fun hs => congrArg Host.Outcome.next (jobCancel_suspended hs)
  case cancel => exact fun hs => congrArg Host.Outcome.next (jobCancel_asks hs)
  case query =>
    refine ⟨queriedProgress s j, queriedTotal s j, congrArg Host.Outcome.next jobQuery_answers, fun hs => ⟨?_, ?_⟩, fun hs => ?_,
      fun hs hst => ?_, fun hs hst => ?_⟩
    · exact if_pos (.inl hs)
    · exact if_pos hs
    · exact if_neg (by simp [hs])
    · exact if_pos (.inr hst)
    · exact if_neg (by simp [hs, hst])

/-! ## Where a running job stops (R100, R101, R103; 15 R432) -/

theorem exec_jobSuspension (t c : Nat) (s : State) : exec (.jobSuspension t c) s = execJobSuspension t c s := rfl
theorem exec_jobCancellation (t c : Nat) (s : State) : exec (.jobCancellation t c) s = execJobCancellation t c s := rfl

section RunningJob

variable {s : State} {t c : Nat} {j : Job} (hj : jobAt s t c = some j)
include hj

theorem exec_jobSuspension_job : exec (.jobSuspension t c) s =
    .next (if (j.suspendBy.isSome ∨ s.pwr.thermal = 2) ∧ atResume s t c then suspendJob s t c j else s) := by
  simp only [exec_jobSuspension, execJobSuspension, hj]

theorem exec_jobCancellation_job (ha : atResume s t c = true) (hc : j.cancelBy.isSome = true) :
    let s1 := modJob s t c (fun y => { y with cancelBy := none })
    exec (.jobCancellation t c) s = .next (finishWaiter (jobEnded (finishCore { s1 with free := s1.free + 1 } t c stCancelled
      (stopPath s1 t c) 0 []) (jobAt s1 t c)) j.cancelBy stOk) := by
  have h : ¬ (j.cancelBy.isNone = true ∨ (!atResume s t c) = true) := by simp [ha, Option.isSome_iff_ne_none.1 hc]
  simp only [exec_jobCancellation, execJobCancellation, hj, if_neg h]

theorem exec_jobCancellation_goesOn (ha : atResume s t c = false) : exec (.jobCancellation t c) s = .next s := by
  have h : j.cancelBy.isNone = true ∨ (!atResume s t c) = true := .inr (by simp [ha])
  simp only [exec_jobCancellation, execJobCancellation, hj, if_pos h]

end RunningJob

/-! ## The work that an entry keeps (R99, R101) -/

/-- An entry marks how far the streams and the cycles have come, and of the work it drops at most what PQ_SIGN, 0x0807, makes again. -/
theorem entryWork_keeps (s : State) (t c : Nat) : let w := (s.ctx t c).work
    let v := entryWork s t c
    v.inBase = w.input.length ∧ v.outBase = w.outLen ∧ v.base = partDone s t c ∧
      (opOf (workDesc s t c) ≠ 0x0807 → v.half = halfOf s t c ∧ v.pc = w.pc) ∧ v.progress = w.progress ∧ v.phase = w.phase ∧
      v.input = w.input ∧ v.vals = w.vals := by
  by_cases h : opOf (workDesc s t c) = 0x0807
  · simp [entryWork, h]
  · simp [entryWork, h]

/-! ## The path value of a part of a job (R101, R102; log 32) -/

section StopPath

variable {s : State} {t c : Nat}

/-- Key bookkeeping where the keys passed, and tallies, stamp and handoff: the end of a path (01 R32). -/
def pathEnd (x : Ctx) : Nat := (if x.keysOk = true ∧ x.keys ≠ [] then 5 else 0) + 5

theorem stopPath_eq : stopPath s t c = 34 + bodyCycles s t c + (if heldClear s t c then 3 else 0) + pathEnd (s.ctx t c) := by
  simp only [stopPath, pathEnd, Bool.not_eq_true', List.isEmpty_eq_false_iff, Nat.add_assoc]

/-- Of a Spire job the commands that this carrying call ran count, and of 0x0801 its hash as well, H of 09 R293. -/
theorem bodyCycles_spire (h : opOf (workDesc s t c) / 256 = 0x08) : bodyCycles s t c = 4 +
    (if opOf (workDesc s t c) = 0x0801 then rsaH (par (workDesc s t c) 64) (par (workDesc s t c) 65) (rsaBits (keyOf s t c 0) / 8) else 0) +
      ((s.ctx t c).work.sp - (s.ctx t c).work.base) := by
  have hst : streamOp (opOf (workDesc s t c)) = false := by simp [streamOp, h]
  simp only [bodyCycles, partDone, hst, h, if_true, Bool.false_eq_true, if_false]

theorem heldClear_spire (h : opOf (workDesc s t c) / 256 = 0x08) : heldClear s t c = true := by
  simp [heldClear, h]

theorem stopPath_spire (h : opOf (workDesc s t c) / 256 = 0x08) : stopPath s t c = 38 +
    (if opOf (workDesc s t c) = 0x0801 then rsaH (par (workDesc s t c) 64) (par (workDesc s t c) 65) (rsaBits (keyOf s t c 0) / 8) else 0) +
      ((s.ctx t c).work.sp - (s.ctx t c).work.base) + 3 + pathEnd (s.ctx t c) := by
  rw [stopPath_eq, bodyCycles_spire h, heldClear_spire h, if_pos rfl]
  omega

/-- A MAC job of type 4, CMAC, takes its lane's time for each block of 16 bytes. -/
theorem bodyCycles_cmac (h : opOf (workDesc s t c) = 0x0401 ∨ opOf (workDesc s t c) = 0x0402) (ht : par (workDesc s t c) 64 = 4) :
    bodyCycles s t c = laneTime (keyOf s t c 0).alg * ((s.ctx t c).work.input.length / 16) - (s.ctx t c).work.base := by
  rcases h with h | h <;> simp [bodyCycles, partDone, streamOp, streamPre, streamLane, h, ht]

theorem stopPath_cmac (h : opOf (workDesc s t c) = 0x0401 ∨ opOf (workDesc s t c) = 0x0402) (ht : par (workDesc s t c) 64 = 4) :
    stopPath s t c = 34 + (laneTime (keyOf s t c 0).alg * ((s.ctx t c).work.input.length / 16) - (s.ctx t c).work.base) +
      pathEnd (s.ctx t c) := by
  have hc : heldClear s t c = false := by rcases h with h | h <;> simp [heldClear, h]
  rw [stopPath_eq, bodyCycles_cmac h ht, hc]
  rfl

end StopPath

/-- Settles O32: the two commands by their laws where a job runs, then the work an entry keeps and the path value of each kind of job. -/
theorem jobsStopAtResumePoints : Obligations.JobsStopAtResumePoints := by
  unfold Obligations.JobsStopAtResumePoints
  intro s t c j hj
  refine ⟨fun ha => ⟨?goesOn, exec_jobCancellation_goesOn hj ha⟩, fun ha hs => ?suspends, exec_jobCancellation_job hj, ?path⟩
  case goesOn => rw [exec_jobSuspension_job hj, if_neg (by simp [ha])]
  case suspends =>
    rw [exec_jobSuspension_job hj, if_pos ⟨hs, ha⟩]
    rfl
  case path =>
    intro x d op w end_
    obtain ⟨hin, hout, hbase, hhalf, hprogress, hphase, hinput, hvals⟩ := entryWork_keeps s t c
    refine ⟨hin, hout, hbase, hhalf, hprogress, hphase, hinput, hvals, ?_, ?_, stopPath_cmac⟩
    · exact fun ho => stopPath_spire (by show op / 256 = 8; omega)
    · intro ho
      have h1 : op ≠ 0x0801 := by omega
      exact (stopPath_spire (by show op / 256 = 8; omega)).trans (by rw [if_neg h1]; rfl)

end Sys2Proof.Machine

/-! SUPPORT. The PIN and DUKPT figures (04 R121 to R142): the field that is built for a destination, one law for each fate of a figure, and
what the comparison of an offset says digit by digit; from these follow the four statements about the two families. -/

namespace Sys2Proof.Machine

/-! ## Lengths of byte strings and of DES blocks -/

@[simp] theorem sub_length (b : Bytes) (off len : Nat) : (sub b off len).length = min len (b.length - off) := by simp [sub]

@[simp] theorem nibbles_length (b : Bytes) : (nibbles b).length = 2 * b.length := by
  simp [nibbles, List.length_flatMap, Nat.mul_comm]

@[simp] theorem desEnc_length (key blk : Bytes) : (desEnc key blk).length = 8 := by simp [desEnc, desBlock, beBytes]

@[simp] theorem tdesEnc_length (key blk : Bytes) : (tdesEnc key blk).length = 8 := by simp [tdesEnc]

/-! ## The new PIN field (R121) -/

/-- The fill nibble `i` of a destination, from the drawn nibbles `v`. -/
def fillNibble (f : Nat) (v : List Nat) (i : Nat) : Nat :=
  if f = 0 then 15 else if f = 4 then 10 else if f = 1 then v.getD i 0 else 10 + v.getD i 0 % 6

/-- The fill after the `n` digits of a PIN. -/
def pinFill (f n : Nat) (v : List Nat) : List Nat := (List.range (14 - n)).map (fillNibble f v)

/-- What follows nibble 15: the drawn bytes of format 4. -/
def pinTail (f : Nat) (v : List Nat) : List Nat := if f = 4 then (v ++ List.replicate 16 0).take 16 else []

theorem pinEncode_eq (f : Nat) (digits : List Nat) (drawn : Bytes) : pinEncode f digits drawn =
    f :: digits.length :: (digits ++ (pinFill f digits.length (nibbles drawn) ++ pinTail f (nibbles drawn))) := by
  rw [← List.append_assoc]
  rfl

@[simp] theorem pinFill_length (f n : Nat) (v : List Nat) : (pinFill f n v).length = 14 - n := by simp [pinFill]

theorem pinFill_getD {f n i : Nat} (v : List Nat) (hi : i < 14 - n) : (pinFill f n v).getD i 0 = fillNibble f v i := by
  simp [pinFill, hi]

/-- The fill meets the rule that R110 gives for its format. -/
theorem pinFill_ok (f n : Nat) (v : List Nat) (hf : fmtOk f = true) :
    (if f = 0 then (pinFill f n v).all (· == 15) else if f = 3 then (pinFill f n v).all (10 ≤ ·)
      else if f = 4 then (pinFill f n v).all (· == 10) else true) = true := by
  simp only [fmtOk, Bool.or_eq_true, beq_iff_eq] at hf
  obtain ((rfl | rfl) | rfl) | rfl := hf <;> simp [pinFill, fillNibble]

theorem pinTail_getD {i : Nat} (v : List Nat) (hi : i < 16) : (pinTail 4 v).getD i 0 = v.getD i 0 := by
  rw [pinTail, if_pos rfl, List.getD_eq_getElem?_getD, List.getElem?_take_of_lt hi]
  by_cases h : i < v.length
  · rw [List.getElem?_append_left h, List.getD_eq_getElem?_getD]
  · rw [List.getElem?_append_right (by omega), List.getElem?_replicate_of_lt (by omega)]
    simp [h]

section PinField

variable (f : Nat) (digits : List Nat) (drawn : Bytes)

@[simp] theorem pinLen_pinEncode : pinLen (pinEncode f digits drawn) = digits.length := rfl

@[simp] theorem pinDigits_pinEncode : pinDigits (pinEncode f digits drawn) = digits := by
  rw [pinDigits, pinLen_pinEncode, pinEncode_eq]
  exact List.take_left

theorem pinEncode_length (hn : digits.length ≤ 12) : (pinEncode f digits drawn).length = 2 * fmtBlock f := by
  by_cases h : f = 4 <;> simp [pinEncode_eq, pinTail, fmtBlock, h] <;> omega

/-- The nibbles between the digits and nibble 16 are the fill. -/
theorem pinEncode_fill :
    ((pinEncode f digits drawn).drop (2 + digits.length)).take (14 - digits.length) = pinFill f digits.length (nibbles drawn) := by
  simp [pinEncode_eq, Nat.add_comm 2]

theorem pinEncode_getD_fill {i : Nat} (hi : i < 14 - digits.length) :
    (pinEncode f digits drawn).getD (2 + digits.length + i) 0 = fillNibble f (nibbles drawn) i := by
  rw [← pinFill_getD _ hi, ← pinEncode_fill]
  simp [hi]

theorem pinEncode_getD_tail (hn : digits.length ≤ 12) {i : Nat} (hi : i < 16) :
    (pinEncode 4 digits drawn).getD (16 + i) 0 = (nibbles drawn).getD i 0 := by
  have hd : (pinEncode 4 digits drawn).drop 16 = pinTail 4 (nibbles drawn) := by
    rw [pinEncode_eq, show 16 = 14 + 1 + 1 from rfl, List.drop_succ_cons, List.drop_succ_cons, ← List.append_assoc]
    exact List.drop_left' (by simp; omega)
  rw [← pinTail_getD _ hi, ← hd]
  simp

/-- The field check passes over a field built of 4 to 12 decimal digits. -/
theorem pinFieldOk_pinEncode (hf : fmtOk f = true) (h4 : 4 ≤ digits.length) (h12 : digits.length ≤ 12) (hd : ∀ x ∈ digits, x < 10) :
    pinFieldOk f (pinEncode f digits drawn) = true := by
  have hc : (pinEncode f digits drawn).getD 0 15 = f := rfl
  simp only [pinFieldOk, pinLen_pinEncode, pinDigits_pinEncode, pinEncode_fill, hc, pinFill_ok f _ _ hf]
  simpa [h4, h12] using hd

end PinField

/-- Settles O44: the field is its control nibble, N, the digits, the fill and the tail, and each part is read off. -/
theorem newPinFieldKeepsThePinDigits : Obligations.NewPinFieldKeepsThePinDigits := by
  unfold Obligations.NewPinFieldKeepsThePinDigits
  intro f digits drawn hf h4 h12 hd _ n p
  refine ⟨pinFieldOk_pinEncode f digits drawn hf h4 h12 hd, pinDigits_pinEncode f digits drawn, rfl, pinEncode_length f digits drawn h12,
    rfl, fun i hi => ?fill, ?tail, rfl⟩
  case fill =>
    rw [pinEncode_getD_fill f digits drawn hi]
    refine ⟨?_, ?_, ?_, ?_⟩ <;> rintro rfl <;> rfl
  case tail =>
    rintro rfl i hi
    exact pinEncode_getD_tail digits drawn h12 hi

/-! ## The commands of the figures, past the yield that a job owed -/

section Commands

variable {s : State} {t c : Nat}

theorem runFigure_past {op : Nat} (h : atFigure (pastYield s t c) t c op = true) (f : State → State) :
    runFigure s t c op .none f = f (pastYield s t c) :=
  runFigure_at (by simpa using h) f

theorem exec_pinTranslate_at (h : atFigure (pastYield s t c) t c 0x0101 = true) :
    exec (.pinTranslate t c .none) s = .next (pinTranslate t c (pastYield s t c)) :=
  congrArg Host.Outcome.next (runFigure_past h _)

theorem exec_pinVerifyOffset_at (h : atFigure (pastYield s t c) t c 0x0102 = true) :
    exec (.pinVerifyOffset t c .none) s = .next (pinVerifyOffset t c (pastYield s t c)) :=
  congrArg Host.Outcome.next (runFigure_past h _)

theorem exec_pinVerifyPvv_at (h : atFigure (pastYield s t c) t c 0x0103 = true) :
    exec (.pinVerifyPvv t c .none) s = .next (pinVerifyPvv t c (pastYield s t c)) :=
  congrArg Host.Outcome.next (runFigure_past h _)

theorem exec_pinGenerateOffset_at (h : atFigure (pastYield s t c) t c 0x0104 = true) :
    exec (.pinGenerateOffset t c .none) s = .next (pinGenerateOffset t c (pastYield s t c)) :=
  congrArg Host.Outcome.next (runFigure_past h _)

theorem exec_pinGeneratePvv_at (h : atFigure (pastYield s t c) t c 0x0105 = true) :
    exec (.pinGeneratePvv t c .none) s = .next (pinGeneratePvv t c (pastYield s t c)) :=
  congrArg Host.Outcome.next (runFigure_past h _)

theorem exec_pinChange_at (h : atFigure (pastYield s t c) t c 0x0106 = true) :
    exec (.pinChange t c .none) s = .next (pinChange t c (pastYield s t c)) :=
  congrArg Host.Outcome.next (runFigure_past h _)

theorem exec_pinFromDukpt_at (h : atFigure (pastYield s t c) t c 0x0107 = true) :
    exec (.pinFromDukpt t c .none) s = .next (pinFromDukpt t c (pastYield s t c)) :=
  congrArg Host.Outcome.next (runFigure_past h _)

theorem exec_dukptDeriveInitial_at (h : atFigure (pastYield s t c) t c 0x0201 = true) :
    exec (.dukptDeriveInitial t c .none) s = .next (dukptDeriveInitial t c (pastYield s t c)) :=
  congrArg Host.Outcome.next (runFigure_past h _)

theorem exec_dukptDataDecrypt_at (h : atFigure (pastYield s t c) t c 0x0202 = true) :
    exec (.dukptDataDecrypt t c .none) s = .next (dukptDataDecrypt t c (pastYield s t c)) :=
  congrArg Host.Outcome.next (runFigure_past h _)

theorem exec_dukptMacVerify_at (h : atFigure (pastYield s t c) t c 0x0203 = true) :
    exec (.dukptMacVerify t c .none) s = .next (dukptMacVerify t c (pastYield s t c)) :=
  congrArg Host.Outcome.next (runFigure_past h _)

end Commands

/-! ## PIN_TRANSLATE (R122) -/

/-- The clear PIN field that a single-block PIN figure recovers from its block. -/
def clearField (s : State) (t c : Nat) : List Nat :=
  pinRecover (keyOf s t c 0) (par (workDesc s t c) 64) (panDigits (workDesc s t c) 68) (sub (workDesc s t c) 80 16)

/-- Path cycles of a call whose PIN field check fails in the first check step (R116). -/
def failPath (src : Nat) : Nat := if src = 4 then 67 else 64

/-- The new block of PIN digits: in the destination's format, with the bytes drawn, under the key in HANDLE1 (R121). -/
def newBlock (s : State) (t c : Nat) (pin : List Nat) : Bytes :=
  pinEncipher (keyOf s t c 1) (par (workDesc s t c) 65) (panDigits (workDesc s t c) 68)
    (pinEncode (par (workDesc s t c) 65) pin (drawnOf s t c))

/-- The last cycle of the recovery and the check of a source, and 13 cycles after it (R116, R122). -/
theorem failPath_eq (src : Nat) : 34 + pinTime src + 3 + 13 = failPath src := by
  unfold pinTime failPath
  split <;> rfl

/-- Path cycles of PIN_TRANSLATE up to its pad step (R122). -/
def padPath (src dst : Nat) : Nat :=
  34 + pinTime src + 3 + (if src = dst then 0 else 1) + (if (src = 4) = (dst = 4) then 0 else 8) + 1

/-- The table of R122, from the stages of the figure. -/
theorem translatePath_eq (src dst : Nat) : padPath src dst + pinTime dst + 14 =
    if src = 4 ∧ dst = 4 then 86 else if src = 4 ∨ dst = 4 then 92 else if src = dst then 80 else 81 := by
  by_cases hs : src = 4
  · by_cases hd : dst = 4
    · simp [padPath, pinTime, hs, hd]
    · simp [padPath, pinTime, hs, hd, Ne.symm hd]
  · by_cases hd : dst = 4
    · simp [padPath, pinTime, hs, hd]
    · by_cases he : src = dst <;> simp [padPath, pinTime, hs, hd, he]

section Translate

variable {s : State} {t c : Nat}

theorem pinTranslate_fails (h : pinFieldOk (par (workDesc s t c) 64) (clearField s t c) = false) :
    pinTranslate t c s = finishCall s t c stPinFormat (failPath (par (workDesc s t c) 64)) 0 [] := by
  rw [← failPath_eq]
  exact if_pos (congrArg not h)

/-- The lane of PIN_TRANSLATE as its destination needs it (R119). -/
def laneForDst (s : State) (t c : Nat) : State :=
  if (par (workDesc s t c) 64 = 4) = (par (workDesc s t c) 65 = 4) then s
  else reconfigure s t c (keyOf s t c 1).alg (keyOf s t c 1).material

theorem pinTranslate_draws (h : pinFieldOk (par (workDesc s t c) 64) (clearField s t c) = true)
    (hn : (drawnOf s t c).length < padDraw (par (workDesc s t c) 65) (pinLen (clearField s t c))) :
    pinTranslate t c s = askPad (laneForDst s t c) t c (padDraw (par (workDesc s t c) 65) (pinLen (clearField s t c)))
      (padPath (par (workDesc s t c) 64) (par (workDesc s t c) 65) + 13) :=
  (if_neg (ne_true_of_eq_false (congrArg not h))).trans (if_pos hn)

theorem pinTranslate_completes (h : pinFieldOk (par (workDesc s t c) 64) (clearField s t c) = true)
    (hn : padDraw (par (workDesc s t c) 65) (pinLen (clearField s t c)) ≤ (drawnOf s t c).length) :
    pinTranslate t c s = finishCall s t c stOk
      (if par (workDesc s t c) 64 = 4 ∧ par (workDesc s t c) 65 = 4 then 86 else if par (workDesc s t c) 64 = 4 ∨ par (workDesc s t c) 65 = 4
        then 92 else if par (workDesc s t c) 64 = par (workDesc s t c) 65 then 80 else 81) 0
      (newBlock s t c (pinDigits (clearField s t c))) := by
  rw [← translatePath_eq]
  exact (if_neg (ne_true_of_eq_false (congrArg not h))).trans (if_neg (Nat.not_lt.2 hn))

end Translate

/-! ## PIN_FROM_DUKPT (R139) -/

section FromDukpt

/-- The clear PIN field that the working PIN key of a KSN recovers. -/
def dukptField (s : State) (t c : Nat) : List Nat :=
  pinRecover { material := dukKey (par (workDesc s t c) 66) 0 0 (keyOf s t c 0) (sub (workDesc s t c) 96 12) } (par (workDesc s t c) 64)
    (panDigits (workDesc s t c) 68) (sub (workDesc s t c) 80 16)

/-- Path cycles up to the last cycle of d: key fetch, I, the chain, w and d (R139). -/
def dukptRecovered (s : State) (t c : Nat) : Nat :=
  let typ := par (workDesc s t c) 66
  34 + dukI typ ((keyOf s t c 0).usage == usageOf "B0") (keyOf s t c 0).alg + 16 * dukS typ + dukW typ 0 +
    (if typ = 1 then 14 else 2 * laneTime (typ + 1) + 1)

/-- x of R139. -/
def dukptSwap (typ dst : Nat) : Nat := if (typ = 1 ∧ dst ≠ 4) ∨ (typ ≠ 1 ∧ dst = 4) then 0 else 8

theorem dukptSwap_eq (typ dst : Nat) : (if (typ = 1) = (dst ≠ 4) then 0 else 8) = dukptSwap typ dst := by
  by_cases ht : typ = 1 <;> by_cases hd : dst = 4 <;> simp [dukptSwap, ht, hd]

variable {s : State} {t c : Nat}

theorem pinFromDukpt_draws (hn : (drawnOf s t c).length < padDraw (par (workDesc s t c) 65) (pinLen (dukptField s t c))) :
    pinFromDukpt t c s = askPad s t c (padDraw (par (workDesc s t c) 65) (pinLen (dukptField s t c))) (dukptRecovered s t c + 13) :=
  if_pos hn

section Drawn

variable (hn : padDraw (par (workDesc s t c) 65) (pinLen (dukptField s t c)) ≤ (drawnOf s t c).length)
include hn

theorem pinFromDukpt_fails (h : pinFieldOk (par (workDesc s t c) 64) (dukptField s t c) = false) :
    pinFromDukpt t c s = finishCall s t c stPinFormat (dukptRecovered s t c + 16) 0 [] :=
  (if_neg (Nat.not_lt.2 hn)).trans (if_pos (congrArg not h))

theorem pinFromDukpt_completes (h : pinFieldOk (par (workDesc s t c) 64) (dukptField s t c) = true) :
    pinFromDukpt t c s = finishCall s t c stOk (dukptRecovered s t c + dukptSwap (par (workDesc s t c) 66) (par (workDesc s t c) 65) +
      (if par (workDesc s t c) 65 = 4 then 2 * laneTime (keyOf s t c 1).alg + 1 else 14) + 14) 0
      (newBlock s t c (pinDigits (dukptField s t c))) := by
  rw [← dukptSwap_eq]
  exact (if_neg (Nat.not_lt.2 hn)).trans (if_neg (ne_true_of_eq_false (congrArg not h)))

end Drawn

end FromDukpt

/-- Settles O45: the two commands at their figures, then the law of each of their three fates. -/
theorem pinTranslationDrawsThenEnciphers : Obligations.PinTranslationDrawsThenEnciphers := by
  unfold Obligations.PinTranslationDrawsThenEnciphers
  intro s₀ t c s d src dst pan drawn
  refine ⟨fun ha => ?translate, fun ha => ?fromDukpt⟩
  case translate =>
    rw [exec_pinTranslate_at ha]
    exact ⟨fun h => congrArg _ (pinTranslate_fails h), fun h hn => ⟨_, congrArg _ (pinTranslate_draws h hn)⟩,
      fun h hn => congrArg _ (pinTranslate_completes h hn)⟩
  case fromDukpt =>
    rw [exec_pinFromDukpt_at ha]
    exact ⟨fun hn => congrArg _ (pinFromDukpt_draws hn), fun hn h => congrArg _ (pinFromDukpt_fails hn h),
      fun hn h => congrArg _ (pinFromDukpt_completes hn h)⟩

/-! ## Verdicts, and the offset of a PIN digit by digit (R117, R125) -/

/-- The status of a verification (R117). -/
def verifyStatus (p : Prop) [Decidable p] : Nat := if p then stOk else stVerifyFail

theorem verifyStatus_eq_ok {p : Prop} [Decidable p] : verifyStatus p = stOk ↔ p := by
  by_cases h : p <;> simp [verifyStatus, h]

theorem verifyStatus_cases (p : Prop) [Decidable p] : verifyStatus p = stOk ∨ verifyStatus p = stVerifyFail := by
  by_cases h : p <;> simp [verifyStatus, h]

theorem ite_verifyStatus {α : Type} (b : Bool) (x y : α) : (if verifyStatus (b = true) = stOk then x else y) = if b then x else y := by
  cases b <;> rfl

@[simp] theorem naturalPin_length (k : KeyRec) (vd dectab : Bytes) : (naturalPin k vd dectab).length = 12 := by simp [naturalPin]

/-- A PIN is the one that the first `len` digits of an offset stand for: its length is theirs, and every digit agrees. -/
theorem eq_take_offsetPin_iff {pin nat off : List Nat} {len : Nat} (hn : len ≤ nat.length) (ho : len ≤ off.length) :
    pin = (offsetPin nat off).take len ↔
      pin.length = len ∧ ∀ i, i < pin.length → pin.getD i 0 = (nat.getD i 0 + off.getD i 0) % 10 := by
  have hlen : ((offsetPin nat off).take len).length = len := by simp [offsetPin, hn, ho]
  have hdigit : ∀ i (h : i < ((offsetPin nat off).take len).length),
      ((offsetPin nat off).take len)[i] = (nat.getD i 0 + off.getD i 0) % 10 := by
    intro i h
    have hin : i < nat.length := by omega
    have hio : i < off.length := by omega
    simp [offsetPin, hin, hio]
  constructor
  · rintro rfl
    refine ⟨hlen, fun i h => ?_⟩
    rw [List.getD_eq_getElem _ _ h, hdigit i h]
  · rintro ⟨hp, h⟩
    refine List.ext_getElem (hp.trans hlen.symm) fun i hi hi' => ?_
    rw [hdigit i hi', ← h i hi, List.getD_eq_getElem _ _ hi]

/-! ## The figures over one PIN block (R123 to R127) -/

section Single

variable {s : State} {t c : Nat}

theorem pinSingle_fails (f : List Nat → State) (h : pinFieldOk (par (workDesc s t c) 64) (clearField s t c) = false) :
    pinSingle s t c f = finishCall s t c stPinFormat (failPath (par (workDesc s t c) 64)) 0 [] := by
  rw [← failPath_eq]
  exact if_neg (ne_true_of_eq_false h)

theorem pinSingle_passes (f : List Nat → State) (h : pinFieldOk (par (workDesc s t c) 64) (clearField s t c) = true) :
    pinSingle s t c f = f (pinDigits (clearField s t c)) := if_pos h

/-- The PIN that the given offset of PIN_VERIFY_OFFSET stands for. -/
def offsetWants (s : State) (t c : Nat) : List Nat :=
  let d := workDesc s t c
  (offsetPin (naturalPin (keyOf s t c 1) (sub d 96 8) (sub d 104 8)) (nibbles (sub d 112 6))).take (par d 65)

theorem pinVerifyOffset_judges (h : pinFieldOk (par (workDesc s t c) 64) (clearField s t c) = true) :
    pinVerifyOffset t c s = finishCall s t c (verifyStatus (pinDigits (clearField s t c) = offsetWants s t c))
      (108 + fmt4Extra (par (workDesc s t c) 64)) 0 [] := by
  rw [pinVerifyOffset, pinSingle_passes _ h]
  rfl

end Single

/-! ## PIN_CHANGE (R128 to R131) -/

section Change

/-- The block of PIN_CHANGE at byte `i` passes its check: the old one at 80, the new one at 96. -/
def changePasses (s : State) (t c i : Nat) : Bool :=
  changeOk (keyOf s t c 0) (panDigits (workDesc s t c) 64) (sub (workDesc s t c) i 16)

/-- The format that the block at byte `i` shows. -/
def changeShows (s : State) (t c i : Nat) : Nat := changeFmt (keyOf s t c 0) (sub (workDesc s t c) i 16)

/-- The PIN in the block at byte `i`. -/
def changePin (s : State) (t c i : Nat) : List Nat :=
  pinDigits (pinRecover (keyOf s t c 0) (changeShows s t c i) (panDigits (workDesc s t c) 64) (sub (workDesc s t c) i 16))

/-- The natural PIN digits of PIN_CHANGE. -/
def changeNatural (s : State) (t c : Nat) : List Nat :=
  naturalPin (keyOf s t c 1) (sub (workDesc s t c) 112 8) (sub (workDesc s t c) 120 8)

/-- The old offset of PIN_CHANGE, in its 12 positions. -/
def changeOffset (s : State) (t c : Nat) : List Nat := nibbles (sub (workDesc s t c) 74 6)

/-- The old PIN is the one that the old offset stands for. -/
def changeOffsetHolds (s : State) (t c : Nat) : Bool :=
  changePin s t c 80 == (offsetPin (changeNatural s t c) (changeOffset s t c)).take (offDigits (sub (workDesc s t c) 74 6)).length

/-- The PVV of the PIN in the block at byte `i`. -/
def changePvv (s : State) (t c i : Nat) : List Nat :=
  pvvOf (keyOf s t c 1) (panDigits (workDesc s t c) 64) (par (workDesc s t c) 76) (changePin s t c i)

variable {s : State} {t c : Nat}

theorem pinChange_oldFails (h : changePasses s t c 80 = false) :
    pinChange t c s = finishCall s t c stPinFormat (if isAes (keyOf s t c 0).alg then 67 else 64) 0 [] :=
  if_pos (congrArg not h)

theorem pinChange_newFails (ho : changePasses s t c 80 = true)
    (h : changeShows s t c 96 ≠ changeShows s t c 80 ∨ changePasses s t c 96 = false) :
    pinChange t c s = finishCall s t c stPinFormat (if isAes (keyOf s t c 0).alg then 87 else 81) 0 [] :=
  (if_neg (ne_true_of_eq_false (congrArg not ho))).trans (if_pos (h.imp_right (congrArg not)))

section BothPass

variable (ho : changePasses s t c 80 = true) (hf : changeShows s t c 96 = changeShows s t c 80) (hn : changePasses s t c 96 = true)
include ho hf hn

theorem pinChange_offset (hv : (keyOf s t c 1).usage = usageOf "V1") : pinChange t c s =
    finishCall s t c (verifyStatus (changeOffsetHolds s t c = true)) (if isAes (keyOf s t c 0).alg then 151 else 137) 0
      (if changeOffsetHolds s t c then
        offBytes (pinOffset (changeNatural s t c) (changePin s t c 96)) ++ leBytes 1 (changePin s t c 96).length else []) :=
  (if_neg (ne_true_of_eq_false (congrArg not ho))).trans <|
    (if_neg (not_or.2 ⟨not_not.2 hf, ne_true_of_eq_false (congrArg not hn)⟩)).trans (if_pos hv)

theorem pinChange_pvv (hv : (keyOf s t c 1).usage ≠ usageOf "V1") : pinChange t c s =
    if changePvv s t c 80 = nibbles (sub (workDesc s t c) 74 2)
    then finishCall s t c stOk (if isAes (keyOf s t c 0).alg then 134 else 120) 0 (packNibbles (changePvv s t c 96))
    else finishCall s t c stVerifyFail (if isAes (keyOf s t c 0).alg then 134 else 120) 0 [] := by
  refine (if_neg (ne_true_of_eq_false (congrArg not ho))).trans <|
    (if_neg (not_or.2 ⟨not_not.2 hf, ne_true_of_eq_false (congrArg not hn)⟩)).trans <| (if_neg hv).trans ?_
  change finishCall s t c (if (changePvv s t c 80 == nibbles (sub (workDesc s t c) 74 2)) = true then stOk else stVerifyFail) _ 0
    (if (changePvv s t c 80 == nibbles (sub (workDesc s t c) 74 2)) = true then packNibbles (changePvv s t c 96) else []) = _
  by_cases h : changePvv s t c 80 = nibbles (sub (workDesc s t c) 74 2) <;> simp [h]

end BothPass

/-- What the comparison with the old offset says of the old PIN, digit by digit (R125, R130). -/
theorem changeOffsetHolds_iff (hd : (workDesc s t c).length = 128) : changeOffsetHolds s t c = true ↔
    (changePin s t c 80).length = ((changeOffset s t c).takeWhile (· < 10)).length ∧ ∀ i, i < (changePin s t c 80).length →
      (changePin s t c 80).getD i 0 = ((changeNatural s t c).getD i 0 + (changeOffset s t c).getD i 0) % 10 := by
  have hoff : (changeOffset s t c).length = 12 := by simp [changeOffset, hd]
  have hlen : (offDigits (sub (workDesc s t c) 74 6)).length ≤ (changeOffset s t c).length := (List.takeWhile_prefix _).length_le
  exact beq_iff_eq.trans (eq_take_offsetPin_iff (by rw [changeNatural, naturalPin_length]; omega) hlen)

end Change

/-- Settles O46: the four opcodes over one block by the law of a recovered block, PIN_CHANGE by its four laws. -/
theorem pinVerificationVerdicts : Obligations.PinVerificationVerdicts := by
  unfold Obligations.PinVerificationVerdicts
  intro s₀ t c s d src four p pin nat pvv bad done
  refine ⟨fun ha => ?verifyOffset, fun ha => ?generateOffset, fun ha => ?verifyPvv, fun ha => ?generatePvv, fun ha => ?change⟩
  case verifyOffset =>
    rw [exec_pinVerifyOffset_at ha, pinVerifyOffset]
    refine ⟨fun h => congrArg _ (pinSingle_fails _ h), fun h => ⟨_, congrArg _ (pinVerifyOffset_judges h), verifyStatus_cases _, ?_⟩⟩
    intro hl hd
    have hoff : (nibbles (sub d 112 6)).length = 12 := by simp [hd]
    exact verifyStatus_eq_ok.trans (eq_take_offsetPin_iff (by rwa [naturalPin_length]) (hoff ▸ hl))
  case generateOffset =>
    rw [exec_pinGenerateOffset_at ha, pinGenerateOffset]
    exact ⟨fun h => congrArg _ (pinSingle_fails _ h), fun h => congrArg _ (pinSingle_passes _ h)⟩
  case verifyPvv =>
    rw [exec_pinVerifyPvv_at ha, pinVerifyPvv]
    exact ⟨fun h => congrArg _ (pinSingle_fails _ h), fun h => congrArg _ (pinSingle_passes _ h)⟩
  case generatePvv =>
    rw [exec_pinGeneratePvv_at ha, pinGeneratePvv]
    exact ⟨fun h => congrArg _ (pinSingle_fails _ h), fun h => congrArg _ (pinSingle_passes _ h)⟩
  case change =>
    rw [exec_pinChange_at ha]
    refine ⟨fun h => congrArg _ (pinChange_oldFails h), fun ho h => congrArg _ (pinChange_newFails ho h), ?_⟩
    intro ho hf hn was new v natC off len
    refine ⟨fun hv => ⟨verifyStatus (changeOffsetHolds s t c = true), ?_, verifyStatus_cases _, fun hd => ?_⟩, fun hv => ?_⟩
    · rw [ite_verifyStatus]
      exact congrArg _ (pinChange_offset ho hf hn hv)
    · exact verifyStatus_eq_ok.trans (changeOffsetHolds_iff hd)
    · rw [pinChange_pvv ho hf hn hv]
      exact apply_ite _ _ _ _

/-! ## The DUKPT figures (R140 to R142) -/

section Dukpt

variable {s : State} {t c : Nat}

/-- The output of DUKPT_DATA_DECRYPT over all the input of its call. -/
def dukptOutput (s : State) (t c : Nat) : Bytes := dukDecrypt (workDesc s t c) (keyOf s t c 0) (s.ctx t c).work.input

/-- Path cycles of a data or MAC call of opcode `op` (R142). -/
def dukptPath (s : State) (t c op : Nat) : Nat :=
  dukPath op (workDesc s t c) ((keyOf s t c 0).usage == usageOf "B0") (keyOf s t c 0).alg

theorem dukptDataDecrypt_inline (h : formOf (workDesc s t c) = 1) :
    dukptDataDecrypt t c s = finishCall s t c stOk (dukptPath s t c 0x0202) 0 (dukptOutput s t c) := if_pos h

/-- The rest of the output goes to the output stream; where all of it could be written, the call ends OK. -/
theorem dukptDataDecrypt_stream (h : formOf (workDesc s t c) ≠ 1) : dukptDataDecrypt t c s =
    if (writeOut s t c ((dukptOutput s t c).drop (s.ctx t c).work.outLen)).2
    then finishCall (writeOut s t c ((dukptOutput s t c).drop (s.ctx t c).work.outLen)).1 t c stOk (dukptPath s t c 0x0202) 0 []
    else (writeOut s t c ((dukptOutput s t c).drop (s.ctx t c).work.outLen)).1 := if_neg h

/-- The MAC that DUKPT_MAC_VERIFY computes over its input. -/
def dukptMac (s : State) (t c : Nat) : Bytes :=
  let d := workDesc s t c
  let typ := par d 64
  let w := dukKey typ 2 (if typ = 1 then par d 66 else beAt d 66 2) (keyOf s t c 0) (sub d 68 12)
  if typ = 1 then macAlg3 w (padM1 8 (s.ctx t c).work.input) else cmac (aesC w) (s.ctx t c).work.input

theorem dukptMacVerify_judges : dukptMacVerify t c s = finishCall s t c
    (verifyStatus ((dukptMac s t c).take (par (workDesc s t c) 65) = sub (workDesc s t c) 80 (par (workDesc s t c) 65)))
    (dukptPath s t c 0x0203) 0 [] :=
  congrArg (finishCall s t c · _ 0 []) (if_congr beq_iff_eq rfl rfl)

end Dukpt

/-- Settles O47: DUKPT_DERIVE_INITIAL is one creation of a record; the two data figures by their laws. -/
theorem dukptFiguresComplete : Obligations.DukptFiguresComplete := by
  unfold Obligations.DukptFiguresComplete
  intro s₀ t c s d k typ x alg m w mac
  refine ⟨fun ha => exec_dukptDeriveInitial_at ha, fun ha => ?decrypt, fun ha => ?verify⟩
  case decrypt =>
    rw [exec_dukptDataDecrypt_at ha]
    exact ⟨fun h => congrArg _ (dukptDataDecrypt_inline h), fun h => congrArg _ (dukptDataDecrypt_stream h)⟩
  case verify =>
    rw [exec_dukptMacVerify_at ha]
    exact congrArg _ dukptMacVerify_judges

end Sys2Proof.Machine

/-! SUPPORT. The card, MAC, data and token figures (05 R147 to R171): the two scans of a card value, the cycles of a cryptogram and of a MAC, and
one law for each fate of a data call and of each phase of a token call; from these follow the four statements about the families. -/

namespace Sys2Proof.Machine

/-! ## The commands of the figures, past the yield that a job owed -/

section Commands

variable {s : State} {t c : Nat}

/-- The three data commands run one figure. -/
theorem exec_data_at {op : Nat} (ho : op = 0x0501 ∨ op = 0x0502 ∨ op = 0x0503) (h : atFigure (pastYield s t c) t c op = true) :
    (if op = 0x0501 then exec (.dataEncrypt t c .none) s else if op = 0x0502 then exec (.dataDecrypt t c .none) s
      else exec (.dataTranslate t c .none) s) = .next (dataFigure t c (pastYield s t c)) := by
  rcases ho with rfl | rfl | rfl <;> exact congrArg Host.Outcome.next (runFigure_past h _)

/-- The three token commands run one figure. -/
theorem exec_token_at {op : Nat} (ho : op = 0x0601 ∨ op = 0x0602 ∨ op = 0x0603) (h : atFigure (pastYield s t c) t c op = true) :
    (if op = 0x0601 then exec (.tokenize t c .none) s else if op = 0x0602 then exec (.detokenize t c .none) s
      else exec (.tokenRetire t c .none) s) = .next (tokenFigure t c (pastYield s t c)) := by
  rcases ho with rfl | rfl | rfl <;> exact congrArg Host.Outcome.next (runFigure_past h _)

end Commands

/-! ## The two scans of a card value (R147) -/

section Scan

variable {n : List Nat}

/-- The digit nibbles and the letters make up all the nibbles. -/
theorem digits_add_letters_length (n : List Nat) : (n.filter (· < 10)).length + (n.filter (10 ≤ ·)).length = n.length := by
  simp only [n.length_eq_length_filter_add (· < 10), ← Nat.not_lt, decide_not]

/-- With three digit nibbles the first scan completes the value. -/
theorem cvvScan_of_digits (h : 3 ≤ (n.filter (· < 10)).length) : cvvScan n = (n.filter (· < 10)).take 3 :=
  List.take_append_of_le_length h

/-- The digits among the first five nibbles count in the first scan, the letters among them in the second. -/
theorem cvvScan_length (h : 5 ≤ n.length) : (cvvScan n).length = 3 := by
  have hfive := digits_add_letters_length (n.take 5)
  have hdigits : ((n.take 5).filter (· < 10)).length ≤ (n.filter (· < 10)).length := ((List.take_sublist 5 n).filter _).length_le
  rw [List.length_take] at hfive
  simp only [cvvScan, List.length_take, List.length_append, List.length_map]
  omega

theorem cvvScan_lt (h : ∀ x ∈ n, x < 16) : ∀ x ∈ cvvScan n, x < 10 := by
  intro x hx
  rcases List.mem_append.1 (List.mem_of_mem_take hx) with hx | hx
  · simpa using List.of_mem_filter hx
  · obtain ⟨y, hy, rfl⟩ := List.mem_map.1 hx
    have := h y (List.mem_of_mem_take (List.mem_of_mem_filter hy))
    omega

end Scan

theorem verdict_eq (s : State) (t c table : Nat) {p : Prop} [Decidable p] {b : Bool} (h : b = true ↔ p) :
    verdict s t c b table = finishCall s t c (if p then stOk else stVerifyFail) table 0 [] := by
  simp only [verdict, h]

/-- Settles O48: the scans by the counts of digits and letters, the two verifying figures by their comparison. -/
theorem cardValuesHaveThreeDigits : Obligations.CardValuesHaveThreeDigits := by
  unfold Obligations.CardValuesHaveThreeDigits
  refine ⟨fun n hlen hlt => ?scan, ?figures⟩
  case scan =>
    have hsum := digits_add_letters_length n
    exact ⟨cvvScan_length (by omega), cvvScan_lt hlt, cvvScan_of_digits, fun h => ⟨by omega, rfl⟩⟩
  case figures =>
    intro s₀ t c s d key value cvv mid dcvv
    refine ⟨fun ha => ?_, fun ha => ?_, fun ha => ?_⟩
    · exact congrArg Host.Outcome.next (runFigure_past ha _)
    · exact congrArg Host.Outcome.next ((runFigure_past ha _).trans (verdict_eq s t c 94 beq_iff_eq))
    · exact congrArg Host.Outcome.next ((runFigure_past ha _).trans (verdict_eq s t c 94 beq_iff_eq))

/-! ## Cryptograms and MACs (R151 to R155) -/

/-- R152's sum, in the order that its table gives it: MAC, session key and U. -/
theorem emvCycles_eq (d : Bytes) (aes : Bool) :
    let n := if aes then ceilDiv (inLenOf d) 16 else inLenOf d / 8 + 1
    emvCycles d aes = (if aes then (if n ≥ 2 then 8 * n + 2 else 18) else 5 * (n - 1) + 13) + (if aes then 9 else 14) +
      (if par d 64 = 1 then 0 else if aes then 9 else 14) := by
  intro n
  simp only [emvCycles, n]
  ac_rfl

/-- The cycles of an ARPC with the cycle that follows it; none where no ARPC is asked for (R152). -/
def arpcStep (d : Bytes) (aes : Bool) : Nat := arpcCycles d aes + if arpcCycles d aes > 0 then 1 else 0

section ArpcStep

variable {d : Bytes} (aes : Bool)

theorem arpcStep_none (h : par d 65 = 0) : arpcStep d aes = 0 := by simp [arpcStep, arpcCycles, h]

theorem arpcStep_method1 (h : par d 65 = 1) : arpcStep d aes = if aes then 10 else 15 := by
  cases aes <;> simp [arpcStep, arpcCycles, h]

theorem arpcStep_method2 (h : par d 65 = 2) :
    arpcStep d aes = if aes then (if par d 67 ≤ 4 then 11 else 19) else 15 + 5 * ((12 + par d 67) / 8) := by
  cases aes
  · simp [arpcStep, arpcCycles, h]
    omega
  · by_cases hn : par d 67 ≤ 4 <;> simp [arpcStep, arpcCycles, h, hn]

end ArpcStep

/-- The session key of a card call (R151 step 2). -/
def cardSession (s : State) (t c : Nat) : Bytes :=
  sessionKey (isAes (keyOf s t c 0).alg) (cardKey (workDesc s t c) (keyOf s t c 0)) (sub (workDesc s t c) 78 2)

/-- A verdict with results: they are zero where it fails, and where none are asked for. -/
theorem finishCall_verdict (s : State) (t c table q : Nat) (r : Bytes) {p : Prop} [Decidable p] {b : Bool} (h : b = true ↔ p) :
    finishCall s t c (if b then stOk else stVerifyFail) table 0 (if b ∧ q ≠ 0 then r else []) =
      if p then finishCall s t c stOk table 0 (if q = 0 then [] else r) else finishCall s t c stVerifyFail table 0 [] := by
  by_cases hp : p
  · simp [h, hp]
  · simp [h, hp]

theorem arqcVerify_judges (s : State) (t c : Nat) :
    let d := workDesc s t c
    let aes := isAes (keyOf s t c 0).alg
    let path := 34 + emvCycles d aes + 15 + arpcStep d aes
    arqcVerify t c s = if (emvMac aes (cardSession s t c) (s.ctx t c).work.input).take 8 = sub d 80 8
      then finishCall s t c stOk path 0 (if par d 65 = 0 then [] else arpcOf d aes (cardSession s t c))
      else finishCall s t c stVerifyFail path 0 [] := by
  intro d aes path
  have hpath : 34 + emvCycles d aes + 2 + arpcCycles d aes + 13 + (if arpcCycles d aes > 0 then 1 else 0) = path := by
    simp only [path, arpcStep]
    omega
  rw [← hpath]
  exact finishCall_verdict s t c _ _ _ beq_iff_eq

/-- The table of R155, row by row. -/
theorem macPath_eq {alg : Nat} (pad l time : Nat) (h1 : 1 ≤ alg) (h9 : alg ≤ 9) :
    let iso := fun (w : Nat) => if pad = 1 then ceilDiv l w else l / w + 1
    macPath alg pad l time =
      if alg = 1 then 45 + 13 * iso 8 else if alg = 2 then 45 + time * iso 16 else if alg = 3 then 53 + 5 * iso 8
      else if alg = 4 then 46 + time * max 1 (ceilDiv l 16) else if alg = 5 then 46 + 13 * max 1 (ceilDiv l 8)
      else if alg = 6 then 62 + 17 * ceilDiv (l + 9) 64 else if alg = 9 then 58 + 13 * ceilDiv (l + 1) 136
      else 66 + 21 * ceilDiv (l + 17) 128 := by
  interval_cases alg <;> exact rfl

/-- Settles O49: the verdict and the sum of ARQC_VERIFY by their laws, the MAC figures by R155's table. -/
theorem cryptogramsAndMacsComplete : Obligations.CryptogramsAndMacsComplete := by
  unfold Obligations.CryptogramsAndMacsComplete
  intro s₀ t c s d k b l aes sk n body pad path
  have hbody : emvCycles d aes = body := emvCycles_eq d aes
  refine ⟨fun ha => ⟨arpcStep d aes, ?arqc, arpcStep_none aes, arpcStep_method1 aes, fun h _ => arpcStep_method2 aes h⟩, fun ha => ?script,
    fun h1 h9 => ?mac⟩
  case arqc =>
    rw [← hbody]
    exact congrArg Host.Outcome.next ((runFigure_past ha _).trans (arqcVerify_judges s t c))
  case script =>
    rw [← hbody]
    exact congrArg Host.Outcome.next (runFigure_past ha _)
  case mac =>
    intro m
    have hpath : macTable s t c = path (par d 64) := macPath_eq (par d 65) l (laneTime k.alg) h1 h9
    rw [← hpath]
    refine ⟨fun ha => ?_, fun ha => ?_⟩
    · exact congrArg Host.Outcome.next (runFigure_past ha _)
    · exact congrArg Host.Outcome.next ((runFigure_past ha _).trans (verdict_eq s t c _ beq_iff_eq))

/-! ## Data calls (R159 to R163) -/

section Data

/-- What is left of the output of a data call is written, or kept where it is inline; the flag says that nothing refused it (R88). -/
def dataWritten (s : State) (t c : Nat) : State × Bool := if formOf (workDesc s t c) = 1 then (s, true) else writeSoFar s t c

/-- Path cycles of a data call (R162, R163). -/
def dataTable (s : State) (t c : Nat) : Nat :=
  dataPath (opOf (workDesc s t c)) (workDesc s t c) (keyOf s t c 0).alg (keyOf s t c 1).alg

/-- The mode that a data call encrypts with; of DATA_DECRYPT, the one that it decrypts with. -/
def dataMode (s : State) (t c : Nat) : Nat :=
  if opOf (workDesc s t c) = 0x0503 then par (workDesc s t c) 88 else par (workDesc s t c) 64

/-- The figure has got past its output: what is left is the count of its key. -/
def markDone (s : State) (t c : Nat) : State := s.setCtx t c { s.ctx t c with work := { (s.ctx t c).work with done := true } }

variable {s : State} {t c : Nat}

section FirstStep

variable (hd : (s.ctx t c).work.done = false)
include hd

theorem dataFigure_refused (hw : (dataWritten s t c).2 = false) : dataFigure t c s = (dataWritten s t c).1 :=
  (if_neg (ne_true_of_eq_false hd)).trans (if_pos (congrArg not hw))

variable (hw : (dataWritten s t c).2 = true)
include hw

theorem dataFigure_forged (ho : opOf (workDesc s t c) ≠ 0x0501) (ht : dataTagOk s t c = false) :
    dataFigure t c s = finishCall (dataWritten s t c).1 t c stVerifyFail (dataTable s t c) 0 [] :=
  (if_neg (ne_true_of_eq_false hd)).trans <| (if_neg (ne_true_of_eq_false (congrArg not hw))).trans (if_pos ⟨ho, congrArg not ht⟩)

variable (ht : opOf (workDesc s t c) = 0x0501 ∨ dataTagOk s t c = true)
include ht

/-- Past the verdict on the tag, only a GCM or CCM encryption has a count to move. -/
theorem dataFigure_authentic : dataFigure t c s =
    if opOf (workDesc s t c) ≠ 0x0502 ∧ aead (dataMode s t c) = true
    then stepBack (markDone (dataWritten s t c).1 t c) t c (countNeeds (markDone (dataWritten s t c).1 t c) t c)
    else finishCall (dataWritten s t c).1 t c stOk (dataTable s t c) 0 (dataResults (dataWritten s t c).1 t c) := by
  have hforged : ¬ (opOf (workDesc s t c) ≠ 0x0501 ∧ (!dataTagOk s t c) = true) := by
    rintro ⟨ho, hf⟩
    simp [ht.resolve_left ho] at hf
  exact (if_neg (ne_true_of_eq_false hd)).trans <| (if_neg (ne_true_of_eq_false (congrArg not hw))).trans (if_neg hforged)

end FirstStep

theorem dataFigure_counting (hd : (s.ctx t c).work.done = true) : dataFigure t c s = aeadFinal s t c (dataTable s t c) := if_pos hd

/-- The handle of the key whose count a call moves. -/
abbrev countHandle (s : State) (t c : Nat) : Nat := handleOf (workDesc s t c) (countSlot (opOf (workDesc s t c)))

/-- The record with the count of one more invocation; a class 1 record stands under the device key of now. -/
def counted (s : State) (cls : Nat) (k : KeyRec) : KeyRec := { (if cls = 1 then underDmk s k else k) with aead := k.aead + 1 }

/-- With the lines of a class 1 record in the Keep, the final step acts on the record of either class. -/
theorem withLines_of_missing_eq_nil {p idx n : Nat} (h : missing s p idx n = []) (f : State → State) : withLines s t c p idx n f = f s :=
  if_pos (by rw [h]; rfl)

section Count

variable {k : KeyRec} {table : Nat}
variable (hk : keepRec s (hPart (countHandle s t c)) (hCls (countHandle s t c)) (hIdx (countHandle s t c)) = some k)
  (hf : k.format ≠ 0) (hc : k.check = hCheck (countHandle s t c))
  (hm : hCls (countHandle s t c) = 1 →
    missing s (hPart (countHandle s t c)) (hIdx (countHandle s t c)) (keyOf s t c (countSlot (opOf (workDesc s t c)))).lines = [])
include hk hf hc hm

/-- The count of a record that still is the call's: refused at the limit of R159, and otherwise rewritten by the class of the record. -/
theorem aeadFinal_standing : aeadFinal s t c table =
    let p := hPart (countHandle s t c)
    let cls := hCls (countHandle s t c)
    let idx := hIdx (countHandle s t c)
    let k' := counted s cls k
    let s1 := countInCaches k' p cls idx s
    if k.aead ≥ 2 ^ 32 then finishCall s t c stKeyUsage table 0 []
    else if cls = 1 then rewriteRecord s t c p idx k' (stOk, table, 0, dataResults s t c) (countInCaches k' p cls idx)
    else finishCall ((installAll cls .pinned s1 (copiesOf p idx (encodeRec k'))).getD s1) t c stOk table 0 (dataResults s t c) := by
  have hstands : ¬ (k.format = 0 ∨ k.check ≠ hCheck (countHandle s t c)) := not_or.2 ⟨hf, not_not.2 hc⟩
  by_cases h1 : hCls (countHandle s t c) = 1
  · simp only [aeadFinal, if_pos h1, withLines_of_missing_eq_nil (hm h1), hk, if_neg hstands, counted]
  · simp only [aeadFinal, if_neg h1, hk, if_neg hstands, counted]

end Count

end Data

/-! ## A data call works on the same descriptor past its output -/

section WorkDesc

variable {s r : State} {t c : Nat} {k : Call}

theorem workDesc_congr (hj : r.jobs = s.jobs) (hc : (r.ctx t c).call = (s.ctx t c).call) : workDesc r t c = workDesc s t c := by
  simp [workDesc, jobAt, hj, hc]

@[simp] theorem askOut_ctx (s : State) (t c n u d : Nat) : (askOut s t c n).ctx u d = s.ctx u d := rfl

variable (hk : (s.ctx t c).call = some k)
include hk

/-- A context that is written with the call that it holds. -/
theorem State.call_setCtx {x : Ctx} (hx : x.call = some k) : ((s.setCtx t c x).ctx t c).call = some k := by
  obtain ⟨ht, hc⟩ := ctx_call_exists hk
  rw [State.ctx_setCtx_same _ _ _ _ ht hc, hx]

/-- `n` more bytes of the call's output have been written. -/
def sentOut (s : State) (t c n : Nat) : State :=
  s.setCtx t c { s.ctx t c with work := { (s.ctx t c).work with outLen := (s.ctx t c).work.outLen + n } }

theorem sentOut_call (n : Nat) : ((sentOut s t c n).ctx t c).call = some k := State.call_setCtx hk (by exact hk)

theorem writeOut_eq (b : Bytes) :
    let l := slices ((s.ctx t c).work.segs.filter (·.out)) (s.ctx t c).work.outLen b.length
    let w := writeSlices k.fn s l b
    let s2 := askOut (sentOut w.1 t c w.2) t c (if !isMf k.fn && (s.tf k.fn).frozen then 0 else pieceCount l w.2)
    writeOut s t c b = if w.2 < b.length then (refusedAccess s2 t c 4, false) else (s2, true) := by
  rw [writeOut, hk]
  exact rfl

theorem writeOut_standing {b : Bytes} (hw : (writeOut s t c b).2 = true) :
    ((writeOut s t c b).1.ctx t c).call = some k ∧ (writeOut s t c b).1.jobs = s.jobs := by
  have hcall : ∀ l, ((writeSlices k.fn s l b).1.ctx t c).call = some k := by
    intro l
    rw [State.ctx, State.tower_of_towers_eq (r := s) (by simp), ← State.ctx, hk]
  rw [writeOut_eq hk] at hw ⊢
  split at hw
  case isTrue => cases hw
  case isFalse hall =>
    rw [if_neg hall, askOut_ctx, sentOut_call (hcall _)]
    exact ⟨rfl, by simp [sentOut]⟩

theorem dataWritten_standing (hw : (dataWritten s t c).2 = true) :
    ((dataWritten s t c).1.ctx t c).call = some k ∧ (dataWritten s t c).1.jobs = s.jobs := by
  unfold dataWritten at hw ⊢
  split at hw
  case isTrue hform =>
    rw [if_pos hform]
    exact ⟨hk, rfl⟩
  case isFalse hform =>
    rw [if_neg hform]
    exact writeOut_standing hk hw

theorem workDesc_markDone_dataWritten (hw : (dataWritten s t c).2 = true) :
    workDesc (markDone (dataWritten s t c).1 t c) t c = workDesc s t c := by
  obtain ⟨hcall, hjobs⟩ := dataWritten_standing hk hw
  exact workDesc_congr hjobs ((State.call_setCtx hcall (by exact hcall)).trans hk.symm)

/-- What the count of a key needs: the lines of its record, and then those that the Keep has lost. -/
theorem countNeeds_markDone (hw : (dataWritten s t c).2 = true) :
    let s2 := markDone (dataWritten s t c).1 t c
    let h := countHandle s t c
    let n := (keyOf s2 t c (countSlot (opOf (workDesc s t c)))).lines
    countNeeds s2 t c = keepNeeds (recKeys (hPart h) (hCls h) (hIdx h) n) ++ (if hCls h = 1 then missing s2 (hPart h) (hIdx h) n else []) := by
  intro s2 h n
  simp only [countNeeds, s2, h, n, workDesc_markDone_dataWritten hk hw]

end WorkDesc

/-- Settles O50: the one figure of the three commands, by the laws of its first step and of its count. -/
theorem dataCallsWriteThenJudge : Obligations.DataCallsWriteThenJudge := by
  unfold Obligations.DataCallsWriteThenJudge
  intro s₀ t c op ho ha s d run table m r h
  have ha' : atFigure s t c op = true := by simpa [s] using ha
  obtain ⟨-, -, -, ⟨call, hk⟩, -, hop⟩ := atFigure_call ha'
  have hrun : run = .next (dataFigure t c s) := exec_data_at ho ha'
  clear_value run
  subst hop hrun
  refine ⟨fun hd => ⟨fun hw => ?refused, fun hw hn ht => ?forged, fun hw ht => ⟨fun hm => ?ends, fun hm => ?counts⟩⟩,
    fun hd k hk hf hc hm => ?count⟩
  case refused => exact congrArg Host.Outcome.next (dataFigure_refused hd hw)
  case forged => exact congrArg Host.Outcome.next (dataFigure_forged hd hw hn ht)
  case ends =>
    rw [dataFigure_authentic hd hw ht]
    exact congrArg Host.Outcome.next (if_neg fun hc => hm.elim hc.1 (ne_true_of_eq_false · hc.2))
  case counts =>
    rw [dataFigure_authentic hd hw ht]
    exact ⟨_, _, congrArg Host.Outcome.next ((if_pos hm).trans (congrArg _ (countNeeds_markDone hk hw))), rfl⟩
  case count =>
    intro kn s1
    rw [dataFigure_counting hd, aeadFinal_standing hk hf hc hm]
    refine ⟨fun hlim => congrArg Host.Outcome.next (if_pos hlim), fun hlim h1 => ?_, fun hlim h1 => ?_⟩
    · exact congrArg Host.Outcome.next ((if_neg (Nat.not_le.2 hlim)).trans (if_pos h1))
    · exact congrArg Host.Outcome.next ((if_neg (Nat.not_le.2 hlim)).trans (if_neg h1))

/-! ## The entry that a PAN takes (R169) -/

section PanStep

variable {l : List TokEnt} {fp : Nat}

/-- Entry `i` is the first of a list that a test passes. -/
def FirstEnt (l : List TokEnt) (p : TokEnt → Prop) (i : Nat) : Prop := ∃ h : i < l.length, p l[i] ∧ ∀ j, (g : j < i) → ¬ p l[j]

theorem findIdx?_eq_some_iff_firstEnt {q : TokEnt → Bool} {p : TokEnt → Prop} (hq : ∀ e, q e = true ↔ p e) {i : Nat} :
    l.findIdx? q = some i ↔ FirstEnt l p i := by
  simp only [List.findIdx?_eq_some_iff_getElem, FirstEnt, ← hq]

theorem findEnt_eq_some_iff {st i : Nat} : findEnt l fp st = some i ↔ FirstEnt l (fun e => e.fp = fp ∧ e.st = st) i :=
  findIdx?_eq_some_iff_firstEnt (by simp)

theorem findEnt_eq_none_iff {st : Nat} : findEnt l fp st = none ↔ ∀ e ∈ l, ¬ (e.fp = fp ∧ e.st = st) := by
  simp [findEnt, List.findIdx?_eq_none_iff]

theorem freeEnt_empty_eq_some_iff {i : Nat} : freeEnt l [0] = some i ↔ FirstEnt l (·.st = 0) i :=
  findIdx?_eq_some_iff_firstEnt (by simp)

theorem freeEnt_empty_eq_none_iff : freeEnt l [0] = none ↔ ∀ e ∈ l, e.st ≠ 0 := by
  simp [freeEnt, List.findIdx?_eq_none_iff]

theorem panStep_active {i : Nat} (h : findEnt l fp 1 = some i) : panStep l fp = some (i, (l.getD i ⟨0, 0, 0⟩).gen, false) := by
  rw [panStep, h]

theorem panStep_retired {i : Nat} (ha : findEnt l fp 1 = none) (h : findEnt l fp 2 = some i) :
    panStep l fp = some (i, (l.getD i ⟨0, 0, 0⟩).gen + 1, true) := by
  rw [panStep, ha, h]

theorem panStep_fresh (ha : findEnt l fp 1 = none) (hr : findEnt l fp 2 = none) :
    panStep l fp = (freeEnt l [0]).map (fun i => (i, 0, true)) := by
  rw [panStep, ha, hr]

end PanStep

/-! ## The phases of a token call (R170, R171) -/

section Phases

variable {s : State} {t c : Nat}

theorem withWindow_here {p : Nat} {ls : List Nat} (h : ∀ i ∈ ls, (keepLine s p 1 i).isSome = true) (f : State → State) :
    withWindow s t c p ls f = f s := by
  have hgone : ls.filter (fun i => (keepLine s p 1 i).isNone) = [] := by
    simpa [List.filter_eq_nil_iff, Option.isSome_iff_ne_none] using h
  exact if_pos (by rw [hgone]; rfl)

/-- The window of the value that the call gives, which the figure reads first; `de` says that it is a token. -/
def givenWindow (s : State) (t c : Nat) (de : Bool) : List Nat :=
  let v := tokView s t c
  probeWindow v.k de (probe v.ikey de v.digits).1

/-- The window of the other value, by the GEN that the first window gave. -/
def otherWindow (s : State) (t c : Nat) (de : Bool) : List Nat :=
  let v := tokView s t c
  probeWindow v.k (!de) (probe v.ikey (!de) (tokOther v ((s.ctx t c).work.vals.getD 1 0))).1

/-- The Keep holds lines of the call's partition. -/
def Here (s : State) (t c : Nat) (ls : List Nat) : Prop := ∀ i ∈ ls, (keepLine s (tokView s t c).p 1 i).isSome = true

/-- The call is a DETOKENIZE. -/
def isDetokenize (s : State) (t c : Nat) : Bool := (tokView s t c).op == 0x0602

theorem tokenFigure_first (h : (s.ctx t c).work.phase = 0) : tokenFigure t c s =
    tokNext s t c [] (windowNeeds s (tokView s t c).p (givenWindow s t c (isDetokenize s t c)) (!isDetokenize s t c)) := by
  rw [tokenFigure, h]
  exact rfl

theorem tokenFigure_second (h : (s.ctx t c).work.phase = 1) (hh : Here s t c (givenWindow s t c (isDetokenize s t c))) :
    tokenFigure t c s = tokenSecond t c (tokView s t c) s := by
  rw [tokenFigure, h]
  exact withWindow_here hh _

/-- What the first window gives: DETOKENIZE's active entry, GEN, and whether an entry has a reserved STATE. -/
def firstGave (s : State) (t c : Nat) : List Nat :=
  let v := tokView s t c
  let l := windowEnts s v.p (givenWindow s t c (isDetokenize s t c))
  let fp := (probe v.ikey (isDetokenize s t c) v.digits).2
  [flag (isDetokenize s t c && (findEnt l fp 1).isSome), firstGen v l fp, flag (entsBad l)]

/-- The hash of the other value, by the GEN that the first window gives. -/
def secondHash (s : State) (t c : Nat) : Nat :=
  let v := tokView s t c
  (probe v.ikey (!isDetokenize s t c) (tokOther v ((firstGave s t c).getD 1 0))).1

/-- DETOKENIZE, which changes nothing, gives its first window back. -/
def firstDone (s : State) (t c : Nat) : State := if isDetokenize s t c then s.setCtx t c { s.ctx t c with grant := [] } else s

/-- The lines of a window that the Keep lacks. -/
def fillNeeds (s : State) (p : Nat) (ls : List Nat) : List Need := (ls.filter (fun i => (keepLine s p 1 i).isNone)).map Need.fillLine

theorem tokenSecond_eq (s : State) (t c : Nat) : let v := tokView s t c
    let l := probeWindow v.k (!isDetokenize s t c) (secondHash s t c)
    tokenSecond t c v s = tokNext (firstDone s t c) t c (firstGave s t c)
      (.keep (l.map (keepKey v.p 1)) (!isDetokenize s t c) :: fillNeeds (firstDone s t c) v.p l) := rfl

/-- The lines that the last phase works on: both windows, but of DETOKENIZE only the PAN's. -/
def lastLines (s : State) (t c : Nat) : List Nat :=
  if isDetokenize s t c then otherWindow s t c (isDetokenize s t c)
  else givenWindow s t c (isDetokenize s t c) ++ otherWindow s t c (isDetokenize s t c)

section Last

variable (h : 2 ≤ (s.ctx t c).work.phase)
include h

theorem tokenFigure_last (hh : Here s t c (lastLines s t c)) :
    tokenFigure t c s = if (tokView s t c).op = 0x0601 then tokenizeEnd s t c (tokView s t c)
      else if isDetokenize s t c then detokenizeEnd s t c (tokView s t c) else tokenRetireEnd s t c (tokView s t c) := by
  obtain ⟨n, hn⟩ := Nat.exists_eq_add_of_le' h
  rw [tokenFigure, hn]
  exact withWindow_here hh _

theorem tokenFigure_tokenize (ho : (tokView s t c).op = 0x0601) (hh : Here s t c (givenWindow s t c false ++ otherWindow s t c false)) :
    tokenFigure t c s = tokenizeEnd s t c (tokView s t c) := by
  have hde : isDetokenize s t c = false := by simp [isDetokenize, ho]
  rw [tokenFigure_last h (by rwa [lastLines, hde]), if_pos ho]

theorem tokenFigure_detokenize (ho : (tokView s t c).op = 0x0602) (hh : Here s t c (otherWindow s t c true)) :
    tokenFigure t c s = detokenizeEnd s t c (tokView s t c) := by
  have hde : isDetokenize s t c = true := by simp [isDetokenize, ho]
  rw [tokenFigure_last h (by rwa [lastLines, hde]), if_neg (by simp [ho]), if_pos hde]

theorem tokenFigure_retire (ho : (tokView s t c).op = 0x0603) (hh : Here s t c (givenWindow s t c false ++ otherWindow s t c false)) :
    tokenFigure t c s = tokenRetireEnd s t c (tokView s t c) := by
  have hde : isDetokenize s t c = false := by simp [isDetokenize, ho]
  rw [tokenFigure_last h (by rwa [lastLines, hde]), if_neg (by simp [ho]), if_neg (by simp [hde])]

end Last

end Phases

/-! ## The ends of TOKENIZE and TOKEN_RETIRE (R169, R170) -/

section Ends

/-- The PAN's window, with its fingerprint. -/
abbrev panProbe (v : TokView) : Nat × Nat := probe v.ikey false v.digits

/-- The lines of the PAN's window. -/
abbrev panLines (v : TokView) : List Nat := probeWindow v.k false (panProbe v).1

/-- The entries of the PAN's window. -/
abbrev panEnts (s : State) (v : TokView) : List TokEnt := windowEnts s v.p (panLines v)

/-- The token of the PAN, by the GEN that its window gives. -/
abbrev panToken (s : State) (v : TokView) : List Nat := tokOther v (firstGen v (panEnts s v) (panProbe v).2)

/-- The token's window, with its fingerprint. -/
abbrev tokenProbe (s : State) (v : TokView) : Nat × Nat := probe v.ikey true (panToken s v)

/-- The lines of the token's window. -/
abbrev tokenLines (s : State) (v : TokView) : List Nat := probeWindow v.k true (tokenProbe s v).1

/-- The entries of the token's window. -/
abbrev tokenEnts (s : State) (v : TokView) : List TokEnt := windowEnts s v.p (tokenLines s v)

/-- Entry `i` of the PAN's window and entry `j` of the token's, both written with one state and one GEN. -/
abbrev pairPut (s : State) (v : TokView) (i j st gen : Nat) : List (Nat × Nat × Bytes) :=
  windowPut s v.p (panLines v) i ⟨(panProbe v).2, st, gen⟩ ++ windowPut s v.p (tokenLines s v) j ⟨(tokenProbe s v).2, st, gen⟩

/-- Lines written as one group, after which the call ends OK with `r`; none are where the vault is not ONLINE. -/
abbrev putGroup (s : State) (t c : Nat) (ls : List (Nat × Nat × Bytes)) (r : Bytes) : State :=
  if vaultOnline s then finalStep s t c (copyKeys (rawCopies ls)) (fun a => passGroup a t c { lines := ls } (rawCopies ls) (stOk, 236, 0, r))
  else finishCall s t c stVaultUnreach 236 0 []

variable {s : State} {t c : Nat} {v : TokView}

/-- GEN of an entry that a PAN takes, where it fits its byte. -/
theorem firstGen_of_panStep {l : List TokEnt} {fp i gen : Nat} {new : Bool} (ho : v.op ≠ 0x0602) (h : panStep l fp = some (i, gen, new))
    (hg : gen ≤ 255) : firstGen v l fp = gen := by
  simp only [firstGen, if_neg ho, h, Option.map_some, Option.getD_some]
  omega

section Sound

variable (hp : entsBad (panEnts s v) = false) (ht : entsBad (tokenEnts s v) = false)
include hp ht

theorem tokenizeEnd_noPanEntry (h : panStep (panEnts s v) (panProbe v).2 = none) :
    tokenizeEnd s t c v = finishCall s t c stCapacity 236 0 [3] := by
  simp [tokenizeEnd, hp, ht, h]

section PanEntry

variable {i gen : Nat} {new : Bool} (h : panStep (panEnts s v) (panProbe v).2 = some (i, gen, new))
include h

theorem tokenizeEnd_genSpent (hg : 255 < gen) : tokenizeEnd s t c v = finishCall s t c stBadParam 236 0 [] := by
  simp [tokenizeEnd, hp, ht, h, hg]

variable (hg : gen ≤ 255)
include hg

theorem tokenizeEnd_known (ho : v.op ≠ 0x0602) (hn : new = false)
    (he : ∃ e ∈ tokenEnts s v, e.fp = (tokenProbe s v).2 ∧ e.st = 1 ∧ e.gen = gen) :
    tokenizeEnd s t c v = finishCall s t c stOk 236 0 (panBytes (panToken s v) ++ leBytes 1 gen ++ [0]) := by
  have hany : (tokenEnts s v).any (fun e => e.fp == (tokenProbe s v).2 && e.st == 1 && e.gen == gen) = true := by
    simpa [and_assoc] using he
  have hgen : firstGen v (panEnts s v) (panProbe v).2 = gen := firstGen_of_panStep ho h hg
  simp only [tokenizeEnd, hp, ht, h, hn, hany, if_neg (Nat.not_lt.2 hg), Bool.or_self, Bool.not_false, if_true, if_neg Bool.false_ne_true]
  rw [← hgen]
  rfl

theorem tokenizeEnd_noTokenEntry (hn : new = true) (hf : freeEnt (tokenEnts s v) [0, 2] = none) :
    tokenizeEnd s t c v = finishCall s t c stCapacity 236 0 [3] := by
  simp [tokenizeEnd, hp, ht, h, hn, hf, Nat.not_lt.2 hg]

theorem tokenizeEnd_writes (ho : v.op ≠ 0x0602) (hn : new = true) {j : Nat} (hf : freeEnt (tokenEnts s v) [0, 2] = some j) :
    tokenizeEnd s t c v = putGroup s t c (pairPut s v i j 1 gen) (panBytes (panToken s v) ++ leBytes 1 gen ++ [1]) := by
  have hgen : firstGen v (panEnts s v) (panProbe v).2 = gen := firstGen_of_panStep ho h hg
  simp only [tokenizeEnd, hp, ht, h, hn, hf, if_neg (Nat.not_lt.2 hg), Bool.or_self, Bool.not_true, if_neg Bool.false_ne_true]
  rw [← hgen]
  rfl

end PanEntry

theorem tokenRetireEnd_notActive (h : findEnt (panEnts s v) (panProbe v).2 1 = none) :
    tokenRetireEnd s t c v = finishCall s t c stVerifyFail 236 0 [] := by
  simp [tokenRetireEnd, hp, ht, h]

theorem tokenRetireEnd_writes {i j : Nat} (h : findEnt (panEnts s v) (panProbe v).2 1 = some i)
    (hj : (tokenEnts s v).findIdx?
      (fun e => e.fp == (tokenProbe s v).2 && e.st == 1 && e.gen == firstGen v (panEnts s v) (panProbe v).2) = some j) :
    tokenRetireEnd s t c v = putGroup s t c (pairPut s v i j 2 (firstGen v (panEnts s v) (panProbe v).2))
      (leBytes 1 (firstGen v (panEnts s v) (panProbe v).2)) := by
  simp only [tokenRetireEnd, hp, ht, h, hj, Bool.or_self, if_neg Bool.false_ne_true]

end Sound

end Ends

/-! ## The end of DETOKENIZE (R171) -/

section Detokenize

/-- What the token's window gave to a context: its active entry stood (0), GEN (1), some entry was reserved (2). -/
abbrev tokenGave (s : State) (t c i : Nat) : Nat := (s.ctx t c).work.vals.getD i 0

/-- The PAN of the call's token. -/
abbrev tokenPan (s : State) (t c : Nat) (v : TokView) : List Nat := tokOther v (tokenGave s t c 1)

/-- The PAN's window of DETOKENIZE, with its fingerprint. -/
abbrev backProbe (s : State) (t c : Nat) (v : TokView) : Nat × Nat := probe v.ikey false (tokenPan s t c v)

/-- The entries of the PAN's window of DETOKENIZE. -/
abbrev backEnts (s : State) (t c : Nat) (v : TokView) : List TokEnt := windowEnts s v.p (probeWindow v.k false (backProbe s t c v).1)

/-- Both entries are active, with one GEN. -/
def bothActive (s : State) (t c : Nat) (v : TokView) : Prop :=
  tokenGave s t c 0 = 1 ∧ ∃ x ∈ backEnts s t c v, x.fp = (backProbe s t c v).2 ∧ x.st = 1 ∧ x.gen = tokenGave s t c 1

variable {s : State} {t c : Nat} {v : TokView}

theorem bothActive_iff : (tokenGave s t c 0 == 1 &&
    (backEnts s t c v).any (fun e => e.fp == (backProbe s t c v).2 && e.st == 1 && e.gen == tokenGave s t c 1)) = true ↔ bothActive s t c v := by
  simp [bothActive, and_assoc]

variable (hr : tokenGave s t c 2 ≠ 1) (he : entsBad (backEnts s t c v) = false)
include hr he

theorem detokenizeEnd_found (h : bothActive s t c v) : detokenizeEnd s t c v = finishCall s t c stOk 230 0 (panBytes (tokenPan s t c v)) := by
  have hok := bothActive_iff.2 h
  simp only [detokenizeEnd, hr, he, hok, Bool.false_eq_true, or_self, if_false, if_true]

theorem detokenizeEnd_notFound (h : ¬ bothActive s t c v) : detokenizeEnd s t c v = finishCall s t c stVerifyFail 230 0 [] := by
  have hok := ne_true_of_eq_false (Bool.eq_false_iff.2 (mt bothActive_iff.1 h))
  simp only [detokenizeEnd, hr, he, hok, Bool.false_eq_true, or_self, if_false]

end Detokenize

/-- Settles O51: the entry by `panStep`'s laws, the phases by the figure's, and each end by the law of its fate. -/
theorem tokenFiguresChangeBothWindowsAtOnce : Obligations.TokenFiguresChangeBothWindowsAtOnce := by
  unfold Obligations.TokenFiguresChangeBothWindowsAtOnce
  refine ⟨fun l fp => ?entry, ?figures⟩
  case entry =>
    intro has
    have hfind : ∀ {i st}, has i st → findEnt l fp st = some i := fun ⟨h, hf, hs, hj⟩ => findEnt_eq_some_iff.2 ⟨h, ⟨hf, hs⟩, hj⟩
    refine ⟨fun i h => panStep_active (hfind h), fun hna => ⟨fun i h => ?_, fun hnr => ?_⟩⟩
    · exact panStep_retired (findEnt_eq_none_iff.2 hna) (hfind h)
    rw [panStep_fresh (findEnt_eq_none_iff.2 hna) (findEnt_eq_none_iff.2 hnr)]
    refine ⟨fun i h hs hj => ?_, fun hn => ?_⟩
    · rw [freeEnt_empty_eq_some_iff.2 ⟨h, hs, hj⟩]
      rfl
    · rw [freeEnt_empty_eq_none_iff.2 hn]
      rfl
  case figures =>
    intro s₀ t c op ho ha s v de run a ph lp ep tok b lt et l1 l2 here
    have ha' : atFigure s t c op = true := by simpa [s] using ha
    have hop : v.op = op := (atFigure_call ha').2.2.2.2.2
    have hrun : run = .next (tokenFigure t c s) := exec_token_at ho ha'
    clear_value run
    subst hrun
    refine ⟨fun h => ?first, fun h hh => ?second, fun h ho hh hp ht => ?tokenize, fun h ho hh => ?detokenize, fun h ho hh hp ht => ?retire⟩
    case first =>
      subst hop
      rw [tokenFigure_first h]
      exact ⟨_, rfl⟩
    case second =>
      subst hop
      rw [tokenFigure_second h hh]
      exact ⟨_, _, _, congrArg Host.Outcome.next (tokenSecond_eq s t c)⟩
    case tokenize =>
      subst ho
      rw [tokenFigure_tokenize h hop hh]
      have hv : v.op ≠ 0x0602 := by simp [hop]
      refine ⟨fun h => congrArg Host.Outcome.next (tokenizeEnd_noPanEntry hp ht h), fun i gen new h => ⟨fun hg => ?_, fun hg hn he => ?_,
        fun hg hn hf => ?_, fun hg hn j hf => ?_⟩⟩
      · exact congrArg Host.Outcome.next (tokenizeEnd_genSpent hp ht h hg)
      · exact congrArg Host.Outcome.next (tokenizeEnd_known hp ht h hg hv hn he)
      · exact congrArg Host.Outcome.next (tokenizeEnd_noTokenEntry hp ht h hg hn hf)
      · exact congrArg Host.Outcome.next (tokenizeEnd_writes hp ht h hg hv hn hf)
    case detokenize =>
      subst ho
      rw [tokenFigure_detokenize h hop hh]
      intro g pan q e hr he
      exact ⟨fun h => congrArg Host.Outcome.next (detokenizeEnd_found hr he h),
        fun h => congrArg Host.Outcome.next (detokenizeEnd_notFound hr he h)⟩
    case retire =>
      subst ho
      rw [tokenFigure_retire h hop hh]
      exact ⟨fun h => congrArg Host.Outcome.next (tokenRetireEnd_notActive hp ht h),
        fun i j h hj => congrArg Host.Outcome.next (tokenRetireEnd_writes hp ht h hj)⟩

end Sys2Proof.Machine

/-! SUPPORT. The key figures (06 R185 to R212): one chain of decisions for the write that all creating calls share, what CHECK and the
index of its record are, and one law for each fate of a key call; from these follow the two statements about the creation of keys and
the figures of family 0x07. -/

namespace Sys2Proof.Machine

/-! ## CHECK and the index of a new record (R185, R186) -/

theorem byteAt_lt (b : Bytes) (i : Nat) : byteAt b i < 256 := BitVec.isLt _

theorem nextCheck_of_ne {v : Nat} (h : (v + 1) % 256 ≠ 0) : nextCheck v = (v + 1) % 256 := if_neg h

/-- CHECK stays in its byte and skips 0. -/
theorem nextCheck_bounds (v : Nat) : 1 ≤ nextCheck v ∧ nextCheck v < 256 := by
  unfold nextCheck
  split <;> omega

theorem dvd_alignUp (v n : Nat) : n ∣ alignUp v n := Nat.dvd_mul_left n _

/-- The multiple of `n` is the least one at or above `v`. -/
theorem alignUp_bounds (v : Nat) {n : Nat} (h : 0 < n) : v ≤ alignUp v n ∧ alignUp v n < v + n := by
  have hdiv : alignUp v n + (v + n - 1) % n = v + n - 1 := Nat.div_add_mod' (v + n - 1) n
  have hmod : (v + n - 1) % n < n := Nat.mod_lt _ h
  omega

section Index

variable {s : State} {p cls named lines : Nat}

theorem targetIdx_named (h : named ≠ recAny) : targetIdx s p cls named lines = named := if_pos h

/-- With no space claimed, the cursor gives the index. -/
theorem targetIdx_next (h : named = recAny) (hc : claimed s p cls = []) : targetIdx s p cls named lines =
    alignUp (if cls = 1 then allocNext s p else tblGet 0 s.keep.cursors (4 * p + cls)) lines := by
  rw [targetIdx, if_neg (not_not.2 h), hc]
  rfl

end Index

/-! ## The decisions of a creating call (R197) -/

section Create

/-- The index of a creating call's record: that of the space that the call claimed, else the one that RECORD or the cursor gives. -/
abbrev recordIdx (s : State) (t c : Nat) (n : NewRec) : Nat :=
  ((s.ctx t c).space.map (·.2)).getD (targetIdx s n.part n.cls n.named n.body.lines)

/-- The Keep lines of a creating call's record. -/
abbrev recordKeys (s : State) (t c : Nat) (n : NewRec) : List Nat := recKeys n.part n.cls (recordIdx s t c n) n.body.lines

/-- The vault takes the record, or it is volatile. -/
abbrev VaultTakes (s : State) (n : NewRec) : Prop := n.cls ≠ 1 ∨ vaultOnline s = true

/-- A call without claimed space finds none for its record. -/
abbrev SpaceShort (s : State) (t c : Nat) (n : NewRec) : Prop :=
  (s.ctx t c).space = none ∧ (poolSets s n.part = 0 ∨
    (n.named = recAny ∧ recordIdx s t c n + n.body.lines > idxLimit s n.part n.cls) ∨
    (n.cls ≠ 1 ∧ pinFull s n.part n.cls (recordIdx s t c n) n.body.lines = true))

/-- The call owns the lines of its record. -/
abbrev OwnsRecord (s : State) (t c : Nat) (n : NewRec) : Prop := ∀ k ∈ recordKeys s t c n, k ∈ (s.ctx t c).grant

/-- The Keep holds a line at an index. -/
abbrev lineStands (s : State) (n : NewRec) (idx : Nat) : Bool := (keepLine s n.part n.cls idx).isSome

variable {s : State} {t c : Nat} {n : NewRec} {idx : Nat}

theorem newCheck_standing (h : lineStands s n idx = true) : newCheck s t c n idx = nextCheck (oldCheck s n.part n.cls idx) :=
  if_neg fun hc => ne_true_of_eq_false (Option.isSome_eq_false_iff.2 hc.2) h

theorem newCheck_fresh (hc : n.cls ≠ 1) (h : lineStands s n idx = false) (hb : byteAt (s.ctx t c).work.drawn.reverse 0 ≠ 0) :
    newCheck s t c n idx = byteAt (s.ctx t c).work.drawn.reverse 0 :=
  (if_pos ⟨hc, Option.isSome_eq_false_iff.1 h⟩).trans (if_neg hb)

theorem newCheck_bounds (s : State) (t c : Nat) (n : NewRec) (idx : Nat) : 1 ≤ newCheck s t c n idx ∧ newCheck s t c n idx < 256 := by
  have hdrawn := byteAt_lt (s.ctx t c).work.drawn.reverse 0
  have hnext := nextCheck_bounds (oldCheck s n.part n.cls idx)
  unfold newCheck
  dsimp only
  split_ifs <;> omega

/-- A class 1 line that the Keep lacks is filled before the final step. -/
theorem withLines_absent {p : Nat} (h : keepLine s p 1 idx = none) (f : State → State) :
    withLines s t c p idx 1 f = stepBack s t c [.fillLine idx] := by
  have hm : missing s p idx 1 = [.fillLine idx] := by simp [missing, h]
  rw [withLines, hm]
  rfl

theorem spaceShort_iff : ((s.ctx t c).space.isNone ∧ spaceShort s n.part n.cls n.named (recordIdx s t c n) n.body.lines = true) ↔
    SpaceShort s t c n := by
  simp [spaceShort, or_assoc]

variable {table spire : Nat} {more : List (Nat × Nat × Bytes)} {clear : List KeepCopy} {res : Nat → KeyRec → Bytes}

/-- The order in which a creating call is judged at its record. -/
theorem createRecord_eq : createRecord s t c n table spire more clear res =
    if ¬ VaultTakes s n then finishCall s t c stVaultUnreach table spire []
    else if SpaceShort s t c n then finishCall s t c stCapacity table spire [4]
    else if ¬ OwnsRecord s t c n then askAgain s t c (createNeeds s n.part n.cls (recordIdx s t c n) n.body.lines)
    else if n.cls = 1 ∧ lineStands s n (recordIdx s t c n) = false then stepBack s t c [.fillLine (recordIdx s t c n)]
    else if oldFormat s n.part n.cls (recordIdx s t c n) ≠ 0 then finishCall s t c stBadParam table spire []
    else if n.cls ≠ 1 ∧ lineStands s n (recordIdx s t c n) = false ∧ (s.ctx t c).work.check = false then
      setNeeds (modWork s t c (fun w => { w with check := true })) t c [.draw 1]
    else placeRecord s t c n (recordIdx s t c n) table spire more clear res := by
  refine if_congr (by simp) rfl <| if_congr spaceShort_iff rfl <| if_congr (by simp) rfl <|
    if_ctx_congr ?fill (fun h => ?_) fun _ => if_congr Iff.rfl rfl <| if_congr (by simp) rfl rfl
  case fill =>
    exact and_congr_right fun h => by simp only [lineStands, recordIdx, h, Option.isSome_eq_false_iff]
  exact withLines_absent (by simpa [lineStands, recordIdx, h.1] using h.2) id

/-! ## The write (R186, R197; 10 R317) -/

theorem finalStep_ways {ks : List Nat} (h : waysFor s ks = true) (f : State → State) : finalStep s t c ks f = f s := if_pos h

theorem finalStep_waits {ks : List Nat} (h : waysFor s ks = false) (f : State → State) :
    finalStep s t c ks f = setNeeds (freeUnits s t c) t c [.way ks] := if_neg (ne_true_of_eq_false h)

/-- The record that a creating call writes at an index: with its CHECK, under the device key of now. -/
abbrev placedRec (s : State) (t c : Nat) (n : NewRec) (idx : Nat) : KeyRec := underDmk s { n.body with check := newCheck s t c n idx }

/-- The results of the call that writes it. -/
abbrev placedResults (s : State) (t c : Nat) (n : NewRec) (idx : Nat) (res : Nat → KeyRec → Bytes) : Bytes :=
  res (mkHandle n.part n.cls (newCheck s t c n idx) idx) (placedRec s t c n idx)

theorem placeRecord_volatile (hc : n.cls ≠ 1) : placeRecord s t c n idx table spire more clear res =
    finalStep s t c (recKeys n.part n.cls idx n.body.lines) (fun _ => finishCall
      ((installAll n.cls .pinned (advanceCursor s n idx) (copiesOf n.part idx (encodeRec (placedRec s t c n idx)))).getD (advanceCursor s n idx))
      t c stOk table spire (placedResults s t c n idx res)) := if_neg hc

/-- The lines of a descriptor that go into the group of a record: those of the cursor that gave its index. -/
abbrev cursorLines (n : NewRec) (b : List (Nat × Nat × Bytes) × List KeepCopy) : List (Nat × Nat × Bytes) × List KeepCopy :=
  if n.named = recAny then b else ([], [])

theorem placeRecord_journal (hc : n.cls = 1) (hv : vaultOnline s = true) {a b : List (Nat × Nat × Bytes) × List KeepCopy}
    (ha : recLines s n.part idx (placedRec s t c n idx) = some a)
    (hb : descLines s n.part (descOf (advanceCursor s n idx) n.part) = some b) :
    placeRecord s t c n idx table spire more clear res =
      finalStep s t c (copyKeys (a.2 ++ (cursorLines n b).2 ++ clear)) (fun _ => passGroup (advanceCursor s n idx) t c
        { at_ := (t, c), lines := a.1 ++ (cursorLines n b).1 ++ more
          undo := if n.named = recAny then [(n.part, descOf s n.part, descOf (advanceCursor s n idx) n.part)] else [] }
        (a.2 ++ (cursorLines n b).2 ++ clear) (stOk, table, spire, placedResults s t c n idx res)) := by
  have hd : (if n.named = recAny then descLines s n.part (descOf (advanceCursor s n idx) n.part) else some ([], [])) =
      some (cursorLines n b) := by
    rw [hb]
    exact (apply_ite some _ _ _).symm
  simp only [placeRecord, if_pos hc, ha, hd, hv, Bool.not_true, Bool.false_eq_true, if_false]

end Create

/-- Settles O52: each fate of the call is a branch of `createRecord_eq`, and the write one of the two laws of `placeRecord`. -/
theorem creatingCallsWriteOneRecord : Obligations.CreatingCallsWriteOneRecord := by
  unfold Obligations.CreatingCallsWriteOneRecord
  refine ⟨fun v => ⟨(nextCheck_bounds v).1, (nextCheck_bounds v).2, nextCheck_of_ne⟩, fun _ _ => rfl,
    fun v n h => ⟨(alignUp_bounds v h).1, (alignUp_bounds v h).2, dvd_alignUp v n⟩, ?_⟩
  intro s t c n table spire more clear res x idx keys call up short owned old
  have hcall : call = _ := createRecord_eq
  refine ⟨fun hs hn => ?named, fun hs hn hc => ?next, fun hu => ?offline, fun hu hsh => ?full, fun hu hsh ho => ?asks,
    fun hu hsh ho h1 hold => ?fetches, fun hu hsh ho hold => ?_⟩
  case named => simp only [idx, hs, Option.map_none, Option.getD_none, targetIdx_named hn]
  case next => simp only [idx, hs, Option.map_none, Option.getD_none, targetIdx_next hn hc]
  case offline => exact hcall.trans (if_pos hu)
  case full => rw [hcall, if_neg (not_not.2 hu), if_pos hsh]
  case asks => rw [hcall, if_neg (not_not.2 hu), if_neg hsh, if_pos ho]
  case fetches => rw [hcall, if_neg (not_not.2 hu), if_neg hsh, if_neg (not_not.2 ho), if_pos ⟨h1, hold⟩]
  have hfetched : ¬ (n.cls = 1 ∧ old = false) := fun h => ne_true_of_eq_false h.2 (hold h.1)
  rw [if_neg (not_not.2 hu), if_neg hsh, if_neg (not_not.2 ho), if_neg hfetched] at hcall
  refine ⟨fun hf => ?occupied, fun hf hc hold hd => ?draws, fun hf hd => ⟨newCheck s t c n idx, (newCheck_bounds s t c n idx).1,
    (newCheck_bounds s t c n idx).2, newCheck_standing, fun hold => newCheck_fresh (fun h1 => hfetched ⟨h1, hold⟩) hold, ?writes⟩⟩
  case occupied => exact hcall.trans (if_pos hf)
  case draws => rw [hcall, if_neg (not_not.2 hf), if_pos ⟨hc, hold, hd⟩]
  case writes =>
    have hdrawn : ¬ (n.cls ≠ 1 ∧ old = false ∧ x.work.check = false) := fun h =>
      hd.elim (ne_true_of_eq_false h.2.1) (ne_true_of_eq_false h.2.2)
    rw [if_neg (not_not.2 hf), if_neg hdrawn] at hcall
    intro k s1 r
    refine ⟨fun hc hw => ?_, fun hc hw => ?_, fun hc a b ha hb => ?_⟩
    · exact hcall.trans ((placeRecord_volatile hc).trans (finalStep_ways hw _))
    · exact hcall.trans ((placeRecord_volatile hc).trans (finalStep_waits hw _))
    · exact hcall.trans (placeRecord_journal hc (hu.resolve_left (not_not.2 hc)) ha hb)

/-! ## Cycles and lengths of the key figures (R193, R198, R209, R212) -/

@[simp] theorem isTdes_iff {a : Nat} : isTdes a = true ↔ a = 1 ∨ a = 2 := by simp [isTdes]

/-- The table of R193. -/
theorem kcvCycles_eq (a : Nat) : kcvCycles a =
    if a = 1 ∨ a = 2 then 13 else if a = 3 then 12 else if a = 4 then 14 else if a = 5 then 16 else 17 := by
  by_cases h : a ≤ 5
  · interval_cases a <;> rfl
  · have hne : a ≠ 1 ∧ a ≠ 2 ∧ a ≠ 3 ∧ a ≠ 4 ∧ a ≠ 5 := by omega
    obtain ⟨h1, h2, h3, h4, h5⟩ := hne
    simp [kcvCycles, isAes, h1, h2, h3, h4, h5]

theorem genPath_eq (k : KeyRec) : genPath k =
    34 + ceilDiv k.keylen 16 + (if k.alg = 1 ∨ k.alg = 2 then 1 else 0) + kcvCycles k.alg + 22 := by
  simp only [genPath, isTdes_iff, Nat.add_assoc]

theorem genMaterial_eq (k : KeyRec) (r : Bytes) :
    genMaterial k r = if k.alg = 1 ∨ k.alg = 2 then oddParity (r.take k.keylen) else r.take k.keylen := by
  simp only [genMaterial, isTdes_iff]

theorem takeBytes_length (s : State) (n : Nat) : (s.takeBytes n).2.length = n := by rw [takeBytes_snd, leBytes_length]

theorem kbBlock_bounds (ver : Nat) : 0 < kbBlock ver ∧ kbBlock ver ≤ 16 := by
  unfold kbBlock
  split <;> omega

/-- The field's 48 free bytes reach past its end, whatever the length of the key. -/
theorem exportField_length (ver : Nat) (k : KeyRec) {pad : Bytes} (h : pad.length = 48) :
    (exportField ver k pad).length = ceilDiv (2 + if k.alg = 1 ∨ k.alg = 2 then 24 else 32) (kbBlock ver) * kbBlock ver := by
  obtain ⟨hpos, hle⟩ := kbBlock_bounds ver
  have hend := (alignUp_bounds (2 + if k.alg = 1 ∨ k.alg = 2 then 24 else 32) hpos).2
  have hmost : (2 + if k.alg = 1 ∨ k.alg = 2 then 24 else 32) ≤ 34 := by split <;> omega
  simp only [exportField, isTdes_iff, List.length_take, List.length_append, beBytes, List.length_reverse, leBytes_length, h]
  exact Nat.min_eq_left (by omega)

/-! ## The fates of a key call (R198 to R201, R208 to R212) -/

section KeyFigures

variable {s : State} {t c : Nat}

/-- The child key of KEY_DERIVE, from the parent in the lane's key register (R199). -/
def childKey (s : State) (t c : Nat) : Bytes :=
  let d := workDesc s t c
  kdf108 (aesC (keyOf s t c 0).material) (ascii "KDRV") (sub d 97 (par d 96) ++ sub d 64 10)
    (if (attrRec d).alg = 6 then 256 else 8 * (attrRec d).keylen)

theorem keyDerive_creates : keyDerive t c s = createRecord (holdLane s t c { key := childKey s t c }) t c
    (attrNew (workDesc s t c) (symRec (workDesc s t c) (childKey s t c))) (77 + kcvCycles (attrRec (workDesc s t c)).alg) 0 [] []
    createResults := by
  have hpath : ∀ n, 34 + 1 + 20 + n + 8 + 14 = 77 + n := by omega
  rw [← hpath]
  rfl

section Import

/-- The cycle in which KEY_IMPORT_BLOCK judges its block (R209). -/
def importMid (s : State) (t c : Nat) (b : KeyBlock) : Nat :=
  39 + kbWork b.ver (keyOf s t c 0).alg b.header.length b.field.length

variable {b : KeyBlock}

theorem importMid_eq : 34 + 4 + kbWork b.ver (keyOf s t c 0).alg b.header.length b.field.length + 1 = importMid s t c b := by
  unfold importMid
  omega

variable (hb : parseBlock (keyOf s t c 0) (inputOf s t c) = some b)
include hb

theorem keyImportBlock_refused (h : importRec (keyOf s t c 0) (par (workDesc s t c) 64) b = none) :
    keyImportBlock t c s = finishCall s t c stKeyBlock (importMid s t c b + 13) 0 [] := by
  simp only [keyImportBlock, hb, h, importMid_eq]

variable {x : KeyRec} (h : importRec (keyOf s t c 0) (par (workDesc s t c) 64) b = some x)
include h

theorem keyImportBlock_tooStrong (hs : strength (keyOf s t c 0).alg < strength x.alg) :
    keyImportBlock t c s = finishCall s t c stKeyUsage (importMid s t c b + 13) 0 [] := by
  simp only [keyImportBlock, hb, h, importMid_eq, if_pos hs]

theorem keyImportBlock_creates (hs : strength x.alg ≤ strength (keyOf s t c 0).alg)
    (hr : recordField s (partOf (workDesc s t c)) (par (workDesc s t c) 64) (leAt (workDesc s t c) 68 6) 2 = true)
    (hf : bitOf x.flags 1 = false) : keyImportBlock t c s = createRecord s t c
      { part := partOf (workDesc s t c), cls := par (workDesc s t c) 64, named := leAt (workDesc s t c) 68 6, body := x }
      (importMid s t c b + kcvCycles x.alg + 22) 0 [] [] createResults := by
  simp only [keyImportBlock, hb, h, importMid_eq, if_neg (Nat.not_lt.2 hs), hr, hf, Bool.not_true, Bool.or_self, Bool.false_eq_true,
    if_false]

end Import

section Export

/-- The block that KEY_EXPORT_BLOCK writes. -/
abbrev exportedBlock (s : State) (t c : Nat) : Bytes :=
  exportBlock (par (workDesc s t c) 64) (keyOf s t c 0) (keyOf s t c 1) (s.takeBytes 48).2

/-- Bytes of its key field. -/
abbrev exportedField (s : State) (t c : Nat) : Nat :=
  ceilDiv (2 + if (keyOf s t c 1).alg = 1 ∨ (keyOf s t c 1).alg = 2 then 24 else 32) (kbBlock (par (workDesc s t c) 64)) *
    kbBlock (par (workDesc s t c) 64)

/-- Its path cycles (R212). -/
abbrev exportPath (s : State) (t c : Nat) : Nat :=
  52 + kbWork (par (workDesc s t c) 64) (keyOf s t c 0).alg
    ((exportedBlock s t c).length - 2 * exportedField s t c - 2 * kbBlock (par (workDesc s t c) 64)) (exportedField s t c)

/-- The block goes to the output stream; where all of it could be written, the call ends OK. -/
theorem keyExportBlock_writes : keyExportBlock t c s =
    let w := writeOut (s.takeBytes 48).1 t c (exportedBlock s t c)
    if w.2 then finishCall w.1 t c stOk (exportPath s t c) 0 (leBytes 2 (exportedBlock s t c).length ++ fit 3 (keyOf s t c 1).kcv)
    else w.1 := by
  have hpath : ∀ n, 34 + n + 4 + 14 = 52 + n := by omega
  rw [exportPath, exportedField, ← exportField_length _ _ (takeBytes_length s 48), ← hpath]
  rfl

end Export

section Destroy

/-- The handle that KEY_DESTROY names. -/
abbrev destroyHandle (s : State) (t c : Nat) : Nat := handleOf (workDesc s t c) 0

/-- The named record is no longer there: it was destroyed, or another one stands at its index (R200). -/
abbrev Destroyed (s : State) (t c : Nat) : Prop :=
  let h := destroyHandle s t c
  oldFormat s (hPart h) (hCls h) (hIdx h) = 0 ∨ oldCheck s (hPart h) (hCls h) (hIdx h) ≠ hCheck h

/-- The emptied lines of the named record, as they go to the vault. -/
abbrev emptiedLines (s : State) (t c : Nat) : List (Nat × Nat × Bytes) :=
  let h := destroyHandle s t c
  (hPart h, hIdx h, emptyLine (keyOf s t c 0).check) ::
    (List.range ((keyOf s t c 0).lines - 1)).map (fun i => (hPart h, hIdx h + 1 + i, zeros 64))

variable (hl : hCls (destroyHandle s t c) = 1 → (keepLine s (hPart (destroyHandle s t c)) 1 (hIdx (destroyHandle s t c))).isSome = true)
include hl

/-- With its first line in the Keep, the final step judges the record of either class. -/
theorem keyDestroy_eq : keyDestroy t c s =
    let h := destroyHandle s t c
    let n := (keyOf s t c 0).lines
    if Destroyed s t c then finishCall s t c stKeyNotFound 55 0 []
    else if hCls h = 1 then
      if !vaultOnline s then finishCall s t c stVaultUnreach 55 0 []
      else finalStep s t c (copyKeys (rawCopies (emptiedLines s t c))) (fun y => passGroup (forgetKey y (hPart h) (hCls h) (hIdx h) n) t c
        { lines := emptiedLines s t c } (rawCopies (emptiedLines s t c)) (stOk, 55, 0, []))
    else finishCall (putLine (forgetKey s (hPart h) (hCls h) (hIdx h) n) (hPart h) (hCls h) (hIdx h)
      (emptyLine (keyOf s t c 0).check) .pinned none) t c stOk 55 0 [] := by
  by_cases h1 : hCls (destroyHandle s t c) = 1
  · have hm : missing s (hPart (destroyHandle s t c)) (hIdx (destroyHandle s t c)) 1 = [] := by
      simpa [missing, Option.isSome_iff_ne_none] using hl h1
    exact (if_pos h1).trans (withLines_of_missing_eq_nil hm _)
  · exact if_neg h1

theorem keyDestroy_notFound (h : Destroyed s t c) : keyDestroy t c s = finishCall s t c stKeyNotFound 55 0 [] :=
  (keyDestroy_eq hl).trans (if_pos h)

theorem keyDestroy_volatile (h : ¬ Destroyed s t c) (hc : hCls (destroyHandle s t c) ≠ 1) : keyDestroy t c s =
    let h := destroyHandle s t c
    finishCall (putLine (forgetKey s (hPart h) (hCls h) (hIdx h) (keyOf s t c 0).lines) (hPart h) (hCls h) (hIdx h)
      (emptyLine (keyOf s t c 0).check) .pinned none) t c stOk 55 0 [] :=
  (keyDestroy_eq hl).trans ((if_neg h).trans (if_neg hc))

theorem keyDestroy_commits (hc : hCls (destroyHandle s t c) = 1)
    (hf : oldFormat s (hPart (destroyHandle s t c)) 1 (hIdx (destroyHandle s t c)) ≠ 0)
    (hk : oldCheck s (hPart (destroyHandle s t c)) 1 (hIdx (destroyHandle s t c)) = hCheck (destroyHandle s t c))
    (hv : vaultOnline s = true) : keyDestroy t c s =
    finalStep s t c (copyKeys (rawCopies (emptiedLines s t c))) (fun y => passGroup
      (forgetKey y (hPart (destroyHandle s t c)) 1 (hIdx (destroyHandle s t c)) (keyOf s t c 0).lines) t c
      { lines := emptiedLines s t c } (rawCopies (emptiedLines s t c)) (stOk, 55, 0, [])) := by
  have hd : ¬ Destroyed s t c := by simp [Destroyed, hc, hf, hk]
  rw [keyDestroy_eq hl]
  simp only [if_neg hd, hc, hv, Bool.not_true, Bool.false_eq_true, if_true, if_false]

end Destroy

section CheckValue

theorem keyCheckValue_stored (h : (keyOf s t c 0).format ≠ 1) :
    keyCheckValue t c s = finishCall s t c stOk 48 0 (fit 3 (keyOf s t c 0).kcv) := if_pos h

variable (h : (keyOf s t c 0).format = 1)
include h

/-- The check value is computed anew, and the call judged by the stored one. -/
theorem keyCheckValue_computed : keyCheckValue t c s =
    let v := kcvSym (keyOf s t c 0).alg (keyOf s t c 0).material
    finishCall s t c (if v = (keyOf s t c 0).kcv then stOk else stIntegrity) (48 + kcvCycles (keyOf s t c 0).alg) 0
      (if v = (keyOf s t c 0).kcv then v else []) := by
  rw [show 48 = 34 + 14 from rfl, Nat.add_right_comm]
  exact if_neg (not_not.2 h)

theorem keyCheckValue_agrees (hv : kcvSym (keyOf s t c 0).alg (keyOf s t c 0).material = (keyOf s t c 0).kcv) :
    keyCheckValue t c s = finishCall s t c stOk (48 + kcvCycles (keyOf s t c 0).alg) 0 (keyOf s t c 0).kcv := by
  simp only [keyCheckValue_computed h, hv, if_true]

theorem keyCheckValue_differs (hv : kcvSym (keyOf s t c 0).alg (keyOf s t c 0).material ≠ (keyOf s t c 0).kcv) :
    keyCheckValue t c s = finishCall s t c stIntegrity (48 + kcvCycles (keyOf s t c 0).alg) 0 [] := by
  simp only [keyCheckValue_computed h, hv, if_false]

end CheckValue

end KeyFigures

/-- Settles O53: each command runs its figure, whose fates are the laws above. -/
theorem keyFiguresComplete : Obligations.KeyFiguresComplete := by
  unfold Obligations.KeyFiguresComplete
  intro s₀ t c s d a k r h work v
  have hv : ∀ alg, kcvCycles alg = v alg := kcvCycles_eq
  refine ⟨fun ha => ?generate, fun ha => ?derive, fun ha b hb => ⟨fun hx => ?refused, fun x hx => ⟨fun hs => ?tooStrong,
    fun hs hr hf => ?imports⟩⟩, fun ha => ?exports, fun ha hl => ⟨fun hd => ?notFound, fun hf hc h1 => ?volatile,
    fun hf hc h1 hon => ?commits⟩, fun ha => ?attributes, fun ha => ⟨fun hf => ?stored, fun hf hk => ?agrees, fun hf hk => ?differs⟩⟩
  case generate =>
    have hrun : exec (.keyGenerate t c .none) s₀ = .next (keyGenerate t c s) := congrArg Host.Outcome.next (runFigure_past ha _)
    rw [hrun, keyGenerate, genPath_eq, genMaterial_eq, hv]
  case derive =>
    rw [← hv]
    exact congrArg Host.Outcome.next ((runFigure_past ha _).trans keyDerive_creates)
  case refused => exact congrArg Host.Outcome.next ((runFigure_past ha _).trans (keyImportBlock_refused hb hx))
  case tooStrong => exact congrArg Host.Outcome.next ((runFigure_past ha _).trans (keyImportBlock_tooStrong hb hx hs))
  case imports =>
    rw [← hv]
    exact congrArg Host.Outcome.next ((runFigure_past ha _).trans (keyImportBlock_creates hb hx hs hr hf))
  case exports =>
    exact ⟨takeBytes_length s 48, congrArg Host.Outcome.next ((runFigure_past ha _).trans keyExportBlock_writes)⟩
  case notFound => exact congrArg Host.Outcome.next ((runFigure_past ha _).trans (keyDestroy_notFound hl hd))
  case volatile =>
    exact congrArg Host.Outcome.next ((runFigure_past ha _).trans (keyDestroy_volatile hl (not_or.2 ⟨hf, not_not.2 hc⟩) h1))
  case commits =>
    exact congrArg Host.Outcome.next ((runFigure_past ha _).trans (keyDestroy_commits hl h1 hf hc hon))
  case attributes => exact congrArg Host.Outcome.next (runFigure_past ha _)
  case stored => exact congrArg Host.Outcome.next ((runFigure_past ha _).trans (keyCheckValue_stored hf))
  case agrees =>
    rw [← hv]
    exact congrArg Host.Outcome.next ((runFigure_past ha _).trans (keyCheckValue_agrees hf hk))
  case differs =>
    rw [← hv]
    exact congrArg Host.Outcome.next ((runFigure_past ha _).trans (keyCheckValue_differs hf hk))

end Sys2Proof.Machine

/-! SUPPORT. What the shared operations leave of the vault, the Dome, the Keep and the contexts: rounds of the arbiters, messages over the
Reel, needs that are met, accesses that are checked, and groups that are given up. -/

namespace Sys2Proof.Machine

/-! ## Contexts -/

/-- A part of a context that is written as it stands is the same in every context. -/
theorem State.part_setCtx {α : Type} {s : State} {t c : Nat} {x : Ctx} (f : Ctx → α) (h : f x = f (s.ctx t c)) (u d : Nat) :
    f ((s.setCtx t c x).ctx u d) = f (s.ctx u d) := by
  by_cases hd : d = c
  · subst hd
    by_cases hu : u = t
    · subst hu
      refine State.part_setTower (fun w => f (w.ctxs.getD d {})) ?_ u
      by_cases hl : d < (s.tower u).ctxs.length
      · simpa [List.getD_eq_getElem?_getD, hl, State.ctx] using h
      · rw [List.set_eq_of_length_le (Nat.not_lt.1 hl)]
    · rw [State.ctx_setCtx_other _ _ _ _ _ _ (fun e => hu e.1)]
  · rw [State.ctx_setCtx_other _ _ _ _ _ _ (fun e => hd e.2)]

theorem State.ctx_congr {s r : State} (h : r.towers = s.towers) (t c : Nat) : r.ctx t c = s.ctx t c := by
  rw [State.ctx, State.ctx, State.tower_of_towers_eq h]

/-- A context that is not as new is one of a tower that exists. -/
theorem State.ctx_exists {s : State} {t c : Nat} (h : s.ctx t c ≠ {}) : t < s.towers.length ∧ c < (s.tower t).ctxs.length := by
  have hc : c < (s.tower t).ctxs.length := by
    by_contra hc
    exact h (List.getD_eq_default _ _ (Nat.not_lt.1 hc))
  refine ⟨?_, hc⟩
  by_contra ht
  have hd : s.tower t = {} := List.getD_eq_default _ _ (Nat.not_lt.1 ht)
  refine h ?_
  rw [State.ctx, hd, List.getD_replicate _ (by simpa [hd] using hc)]

@[simp] theorem popNeed_frame (s : State) (t c : Nat) : (popNeed s t c).vault = s.vault ∧ (popNeed s t c).dome = s.dome ∧
    (popNeed s t c).keep = s.keep ∧ (popNeed s t c).host = s.host := by
  simp [popNeed, State.setCtx]

@[simp] theorem armDma_ctx (s : State) (t c u d : Nat) : (armDma s t c).ctx u d = s.ctx u d := State.ctx_congr (by simp) u d

/-- A need that is met is a need of its own context. -/
theorem popNeed_ctx_other (s : State) {t c u d : Nat} (h : ¬ (u = t ∧ d = c)) : (popNeed s t c).ctx u d = s.ctx u d :=
  (armDma_ctx _ _ _ _ _).trans (State.ctx_setCtx_other _ _ _ _ _ _ h)

theorem popNeed_grant (s : State) (t c u d : Nat) : ((popNeed s t c).ctx u d).grant = (s.ctx u d).grant := by
  rw [popNeed, armDma_ctx]
  exact State.part_setCtx Ctx.grant (by rfl) u d

theorem popNeed_grantExcl (s : State) (t c u d : Nat) : ((popNeed s t c).ctx u d).grantExcl = (s.ctx u d).grantExcl := by
  rw [popNeed, armDma_ctx]
  exact State.part_setCtx Ctx.grantExcl (by rfl) u d

theorem setArbAge_grant (s : State) (t c i v u d : Nat) : ((setArbAge s t c i v).ctx u d).grant = (s.ctx u d).grant :=
  State.part_setCtx Ctx.grant (by rfl) u d

theorem unstall_grant (s : State) (p : Nat → Need → Bool) (t c : Nat) : ((unstall s p).ctx t c).grant = (s.ctx t c).grant := by
  simp only [unstall, State.ctx, State.tower, List.getD_eq_getElem?_getD, List.getElem?_map, List.getElem?_zipIdx]
  cases s.towers[t]? with
  | none => simp
  | some w =>
    simp only [Option.map_some, Option.getD_some, List.getElem?_map]
    cases w.ctxs[c]? with
    | none => rfl
    | some x =>
      simp only [Option.map_some, Option.getD_some]
      split
      · split <;> rfl
      · rfl

/-! ## Rounds of the arbiters, and messages over the Reel (10 R302; 11 R328, R330) -/

/-- The units that a round of an arbiter, or a message over the Reel, leaves as they are. -/
structure SameUnits (s r : State) : Prop where
  /-- The contexts. -/
  towers : r.towers = s.towers
  /-- The jobs that they carry. -/
  jobs : r.jobs = s.jobs
  /-- The vault engine. -/
  vault : r.vault = s.vault
  /-- The Keep. -/
  keep : r.keep = s.keep
  /-- The Dome. -/
  dome : r.dome = s.dome
  /-- The sparing controller. -/
  sup : r.sup = s.sup

theorem commitArb_sameUnits (s : State) : SameUnits s (commitArb s) := by
  unfold commitArb
  split
  · exact ⟨rfl, rfl, rfl, rfl, rfl, rfl⟩
  · constructor <;> simp [shadowDone]

theorem SameUnits.refl (s : State) : SameUnits s s := ⟨rfl, rfl, rfl, rfl, rfl, rfl⟩

theorem SameUnits.trans {s r q : State} (h : SameUnits s r) (g : SameUnits r q) : SameUnits s q :=
  ⟨g.towers.trans h.towers, g.jobs.trans h.jobs, g.vault.trans h.vault, g.keep.trans h.keep, g.dome.trans h.dome, g.sup.trans h.sup⟩

theorem reelRound_sameUnits (s : State) (down : Bool) : SameUnits s (reelRound s down) := by
  refine (commitArb_sameUnits s).trans ?_
  unfold reelRound freeBuffer
  dsimp only
  split
  · exact .refl _
  · split
    · exact .refl _
    · split <;> exact ⟨rfl, rfl, rfl, rfl, rfl, rfl⟩

theorem reelPump_sameUnits (down : Bool) (n : Nat) (s : State) : SameUnits s (reelPump down n s) := by
  induction n generalizing s with
  | zero => exact .refl s
  | succ n ih =>
    rw [reelPump]
    split
    · exact .refl s
    · exact (reelRound_sameUnits s down).trans (ih _)

theorem sendTo_sameUnits (s : State) (cls typ dst : Nat) (b : Bytes) : SameUnits s (sendTo s cls typ dst b) := by
  unfold sendTo
  split
  · unfold putOn
    split
    · exact .refl s
    · exact SameUnits.trans (r := setPort s _ _) ⟨rfl, rfl, rfl, rfl, rfl, rfl⟩ (reelPump_sameUnits _ _ _)
  · exact .refl s

theorem receive_here {s s1 : State} {h : Hdr} {cls : Nat} (hh : heard s h cls = some s1) (hd : h.dst = s1.reel.addr) (typ : Nat)
    (b : Bytes) (f : State → State) : receive s h cls typ b f = f s1 := by
  simp only [receive, hh, if_pos hd]

/-! ## Accesses that are checked (07 R227; 13 R373, R380) -/

/-- What the checks of window accesses can change: heads, hif, sup. -/
@[simp] theorem windowCheck_frame (s : State) (w : Bool) (ws : List Nat) : (windowCheck s w ws).1.vault = s.vault ∧
    (windowCheck s w ws).1.dome = s.dome ∧ (windowCheck s w ws).1.keep = s.keep ∧ (windowCheck s w ws).1.acu = s.acu ∧
    (windowCheck s w ws).1.towers = s.towers ∧ (windowCheck s w ws).1.jobs = s.jobs ∧ (windowCheck s w ws).1.reel = s.reel := by
  refine List.foldlRecOn (motive := fun (a : State × Bool) => a.1.vault = s.vault ∧ a.1.dome = s.dome ∧ a.1.keep = s.keep ∧ a.1.acu = s.acu ∧
    a.1.towers = s.towers ∧ a.1.jobs = s.jobs ∧ a.1.reel = s.reel) ws _ ⟨rfl, rfl, rfl, rfl, rfl, rfl, rfl⟩ (fun a h x _ => ?_)
  split
  · exact h
  · split
    · exact h
    · simpa using h

theorem hostRefusal_congr {s r : State} (h : r.acu = s.acu) (fn : Nat) (w : Bool) (a : Nat) : hostRefusal r fn w a = hostRefusal s fn w a := by
  unfold hostRefusal
  rw [show regionH r fn = regionH s fn from funext fun e => by rw [regionH, regionH, h]]

theorem intRefusal_congr {s r : State} (h : r.acu = s.acu) (i : Nat) (w : Bool) (a : Nat) : intRefusal r i w a = intRefusal s i w a := by
  unfold intRefusal
  rw [h]

/-- Two folds over one list, whose steps keep a relation, end in it. -/
theorem foldl_related {α β γ : Type} {R : β → γ → Prop} {f : β → α → β} {g : γ → α → γ} (h : ∀ b c a, R b c → R (f b a) (g c a)) :
    ∀ (l : List α) {b : β} {c : γ}, R b c → R (l.foldl f b) (l.foldl g c)
  | [], _, _, hr => hr
  | x :: l, _, _, hr => foldl_related h l (h _ _ x hr)

/-- The verdicts on a run of accesses agree so far, under the same windows, Keep and access control. -/
def SameVerdict (a b : State × Bool) : Prop :=
  a.2 = b.2 ∧ a.1.vault.wins = b.1.vault.wins ∧ a.1.keep = b.1.keep ∧ a.1.acu = b.1.acu

theorem hostCheck_ok (s : State) (fn : Nat) (w : Bool) (a : Nat) : (hostCheck s fn w a).2 = (hostRefusal s fn w a).isNone := by
  unfold hostCheck
  split <;> simp [*]

theorem intCheck_ok (s : State) (i : Nat) (w : Bool) (src a : Nat) : (intCheck s i w src a).2 = (intRefusal s i w a).isNone := by
  unfold intCheck
  split <;> simp [*]

theorem windowCheck_congr {s r : State} (hv : r.vault.wins = s.vault.wins) (hk : r.keep = s.keep) (ha : r.acu = s.acu) (w : Bool)
    (ws : List Nat) : (windowCheck r w ws).2 = (windowCheck s w ws).2 := by
  refine (foldl_related (R := SameVerdict) (fun a b x h => ?_) ws (b := (r, true)) (c := (s, true)) ⟨rfl, hv, hk, ha⟩).1
  obtain ⟨h2, hv, hk, ha⟩ := h
  rw [h2, hv]
  split
  · exact ⟨h2, hv, hk, ha⟩
  · split
    · exact ⟨rfl, hv, hk, ha⟩
    · exact ⟨by rw [hostCheck_ok, hostCheck_ok, hostRefusal_congr ha], by simpa using hv, by simpa using hk, by simpa using ha⟩

theorem engineKeep_congr {s r : State} (hv : r.vault.wins = s.vault.wins) (hk : r.keep = s.keep) (ha : r.acu = s.acu) (w : Bool)
    (ks : List (Nat × Nat)) : (engineKeep r w ks).2 = (engineKeep s w ks).2 := by
  refine (foldl_related (R := SameVerdict) (fun a b x h => ?_) ks (b := (r, true)) (c := (s, true)) ⟨rfl, hv, hk, ha⟩).1
  obtain ⟨h2, hv, hk, ha⟩ := h
  have hrooms : roomsOf a.1 = roomsOf b.1 := funext fun p => by rw [roomsOf, roomsOf, hk]
  have hsets : poolSets a.1 x.1 = poolSets b.1 x.1 := by rw [poolSets, poolSets, hrooms]
  have haddr : keepAddr a.1 x.1 1 x.2 = keepAddr b.1 x.1 1 x.2 := by simp only [keepAddr, setOf, poolSets, hrooms, hk]
  rw [h2, hsets, haddr]
  split
  · exact ⟨h2, hv, hk, ha⟩
  · exact ⟨by rw [intCheck_ok, intCheck_ok, intRefusal_congr ha], by simpa using hv, by simpa using hk, by simpa using ha⟩

@[simp] theorem windowMove_frame (s : State) (w : Bool) (ws : List Nat) : (windowMove s w ws).1.vault = s.vault ∧
    (windowMove s w ws).1.dome = s.dome ∧ (windowMove s w ws).1.keep = s.keep ∧ (windowMove s w ws).1.acu = s.acu ∧
    (windowMove s w ws).1.towers = s.towers ∧ (windowMove s w ws).1.jobs = s.jobs ∧ (windowMove s w ws).1.reel = s.reel := by
  simp [windowMove]

@[simp] theorem writeCheck_frame (s : State) (ws : List Nat) : (writeCheck s ws).1.vault = s.vault ∧
    (writeCheck s ws).1.dome = s.dome ∧ (writeCheck s ws).1.keep = s.keep ∧ (writeCheck s ws).1.acu = s.acu ∧
    (writeCheck s ws).1.towers = s.towers ∧ (writeCheck s ws).1.jobs = s.jobs ∧ (writeCheck s ws).1.reel = s.reel := by
  unfold writeCheck
  dsimp only
  split <;> simp

@[simp] theorem rootAccess_frame (s : State) (w : Bool) : (rootAccess s w).1.vault = s.vault ∧ (rootAccess s w).1.dome = s.dome ∧
    (rootAccess s w).1.keep = s.keep ∧ (rootAccess s w).1.towers = s.towers ∧ (rootAccess s w).1.jobs = s.jobs ∧
    (rootAccess s w).1.reel = s.reel := by
  simp [rootAccess]

@[simp] theorem engineKeep_frame (s : State) (w : Bool) (ks : List (Nat × Nat)) : (engineKeep s w ks).1.vault = s.vault ∧
    (engineKeep s w ks).1.dome = s.dome ∧ (engineKeep s w ks).1.keep = s.keep ∧ (engineKeep s w ks).1.acu = s.acu ∧
    (engineKeep s w ks).1.towers = s.towers ∧ (engineKeep s w ks).1.jobs = s.jobs := by
  refine List.foldlRecOn (motive := fun (a : State × Bool) => a.1.vault = s.vault ∧ a.1.dome = s.dome ∧ a.1.keep = s.keep ∧ a.1.acu = s.acu ∧
    a.1.towers = s.towers ∧ a.1.jobs = s.jobs) ks _ ⟨rfl, rfl, rfl, rfl, rfl, rfl⟩ (fun a h x _ => ?_)
  split
  · exact h
  · simpa using h

end Sys2Proof.Machine

/-! SUPPORT. The ownership directory of the Keep and the vault's fills (07 R224, R225, R235): what one decision of the directory grants,
that a round of the arbiter keeps what the decision reads, and how a fetch of a token bucket ends; from these follows the statement about
them. -/

namespace Sys2Proof.Machine

/-! ## What the directory decides on (07 R225) -/

section
variable {s r : State} (h : SameUnits s r)
include h

theorem SameUnits.pageClaims : pageClaims r = pageClaims s := by
  obtain ⟨ht, hj, hv, hk, hd, hs⟩ := h
  cases s
  cases r
  dsimp only at ht hj hv hk hd hs
  subst ht hj hv hk hd hs
  rfl

theorem SameUnits.ctx (t c : Nat) : r.ctx t c = s.ctx t c := State.ctx_congr h.towers t c

theorem SameUnits.keepAsk (t c : Nat) : keepAsk r t c = keepAsk s t c := by
  simp only [Machine.keepAsk, firstNeed, h.ctx]

theorem SameUnits.lineFree (k : Nat) (e : Bool) : lineFree r k e = lineFree s k e := by
  simp only [Machine.lineFree, h.ctx, pageHeld, payLine, h.vault, h.keep]
  rfl

theorem SameUnits.keepOfTower (t : Nat) : keepOfTower r t = keepOfTower s t := by
  simp only [Machine.keepOfTower, ctxCls, arbAge, h.ctx, h.keepAsk]

end

/-- A line that is free stays so for one request where holders only increase: what is free later was free before. -/
theorem lineFree_of_more {s r : State} (hk : r.keep = s.keep) (hv : r.vault = s.vault)
    (hg : ∀ t c k, k ∈ (s.ctx t c).grant → k ∈ (r.ctx t c).grant ∧ ((s.ctx t c).grantExcl = true → (r.ctx t c).grantExcl = true))
    {k : Nat} {e : Bool} (h : lineFree r k e = true) : lineFree s k e = true := by
  have hpage : pageHeld r (payLine r (keyPart k) (keyIdx k) / 64) = pageHeld s (payLine s (keyPart k) (keyIdx k) / 64) := by
    unfold pageHeld payLine
    rw [hv]
  simp only [lineFree, hpage, hk, Bool.and_eq_true, Bool.not_eq_true', List.any_eq_false, List.contains_iff_mem] at h ⊢
  refine ⟨h.1, fun x hx => ?_⟩
  have := h.2 x hx
  have := hg x.1 x.2 k
  grind

/-! ## One decision (07 R225) -/

/-- The state past the grant of lines to a context. -/
def keepGranted (s : State) (x : Nat × Nat) (ls : List Nat) (e : Bool) : State :=
  let y := s.ctx x.1 x.2
  popNeed (s.setCtx x.1 x.2 { y with
    grant := y.grant ++ ls, grantExcl := e || (y.grantExcl && !y.grant.isEmpty), work256 := if y.grant.isEmpty then 0 else y.work256 }) x.1 x.2

theorem keepGranted_frame (s : State) (x : Nat × Nat) (ls : List Nat) (e : Bool) : (keepGranted s x ls e).keep = s.keep ∧
    (keepGranted s x ls e).vault = s.vault ∧ (keepGranted s x ls e).host = s.host := by
  simp [keepGranted, State.setCtx]

theorem keepGranted_ctx_other (s : State) {x : Nat × Nat} (ls : List Nat) (e : Bool) {t c : Nat} (h : (t, c) ≠ x) :
    (keepGranted s x ls e).ctx t c = s.ctx t c := by
  have hne : ¬ (t = x.1 ∧ c = x.2) := fun hh => h (Prod.ext hh.1 hh.2)
  rw [keepGranted, popNeed_ctx_other _ hne, State.ctx_setCtx_other _ _ _ _ _ _ hne]

/-- A context that asks is one of a tower that exists. -/
theorem keepAsk_exists {s : State} {t c : Nat} {a : List Nat × Bool} (h : keepAsk s t c = some a) :
    t < s.towers.length ∧ c < (s.tower t).ctxs.length :=
  State.ctx_exists fun hd => by
    rw [keepAsk, firstNeed, hd] at h
    cases h

theorem keepGranted_grant {s : State} {t c : Nat} {ls : List Nat} {e : Bool} (h : keepAsk s t c = some (ls, e)) :
    ((keepGranted s (t, c) ls e).ctx t c).grant = (s.ctx t c).grant ++ ls := by
  obtain ⟨ht, hc⟩ := keepAsk_exists h
  rw [keepGranted, popNeed_grant, State.ctx_setCtx_same _ _ _ _ ht hc]

theorem keepGranted_grantExcl {s : State} {t c : Nat} {ls : List Nat} {e : Bool} (h : keepAsk s t c = some (ls, e)) :
    ((keepGranted s (t, c) ls e).ctx t c).grantExcl = (e || ((s.ctx t c).grantExcl && !(s.ctx t c).grant.isEmpty)) := by
  obtain ⟨ht, hc⟩ := keepAsk_exists h
  rw [keepGranted, popNeed_grantExcl, State.ctx_setCtx_same _ _ _ _ ht hc]

theorem lineFree_of_keepGranted {s : State} {x : Nat × Nat} {ls : List Nat} {e : Bool} (h : keepAsk s x.1 x.2 = some (ls, e))
    {k : Nat} {excl : Bool} (hf : lineFree (keepGranted s x ls e) k excl = true) : lineFree s k excl = true := by
  obtain ⟨hk, hv, -⟩ := keepGranted_frame s x ls e
  refine lineFree_of_more hk hv (fun t c k hm => ?_) hf
  by_cases hx : (t, c) = x
  · subst hx
    rw [keepGranted_grant h, keepGranted_grantExcl h]
    have hne : (s.ctx t c).grant.isEmpty = false := by simpa using List.ne_nil_of_mem hm
    exact ⟨List.mem_append_left _ hm, fun he => by simp [he, hne]⟩
  · rw [keepGranted_ctx_other s ls e hx]
    exact ⟨hm, id⟩

/-- The lines of a request may be granted: all are free, and no earlier request blocks one. -/
def Grantable (s : State) (ls : List Nat) (e : Bool) (blocked : List Nat) : Prop := ∀ k ∈ ls, lineFree s k e = true ∧ k ∉ blocked

theorem keepDecide_silent {s : State} {x : Nat × Nat} (h : keepAsk s x.1 x.2 = none) (r : List (Nat × Nat)) (blocked : List Nat) :
    keepDecide s (x :: r) blocked = keepDecide s r blocked := by
  simp only [keepDecide, h]

theorem keepDecide_asks {s : State} {x : Nat × Nat} {ls : List Nat} {e : Bool} (h : keepAsk s x.1 x.2 = some (ls, e))
    (r : List (Nat × Nat)) (blocked : List Nat) [Decidable (Grantable s ls e blocked)] : keepDecide s (x :: r) blocked =
    if Grantable s ls e blocked then
      let d := keepDecide (keepGranted s x ls e) r blocked
      (d.1, x :: d.2)
    else keepDecide s r (blocked ++ ls) := by
  have hall : (ls.all (fun k => lineFree s k e && !blocked.contains k)) = true ↔ Grantable s ls e blocked := by
    simp [Grantable]
  simp only [keepDecide, h, hall]
  rfl

/-- What a context may hold after a decision: what it held, or where it asked, all the lines that it asked for, which could be granted. -/
def GrantOutcome (s s' : State) (blocked : List Nat) (t c : Nat) : Prop :=
  (s'.ctx t c).grant = (s.ctx t c).grant ∨ ∃ ls e, keepAsk s t c = some (ls, e) ∧ Grantable s ls e blocked ∧
    (s'.ctx t c).grant = (s.ctx t c).grant ++ ls

open Classical in
theorem keepDecide_other (l : List (Nat × Nat)) (s : State) (blocked : List Nat) {t c : Nat} (h : (t, c) ∉ l) :
    (keepDecide s l blocked).1.ctx t c = s.ctx t c := by
  induction l generalizing s blocked with
  | nil => rfl
  | cons x r ih =>
    obtain ⟨hx, hr⟩ := not_or.1 (mt List.mem_cons.2 h)
    cases ha : keepAsk s x.1 x.2 with
    | none => rw [keepDecide_silent ha, ih _ _ hr]
    | some a =>
      rw [keepDecide_asks ha]
      split
      · exact (ih _ _ hr).trans (keepGranted_ctx_other s _ _ hx)
      · exact ih _ _ hr

open Classical in
theorem keepDecide_outcome (l : List (Nat × Nat)) (s : State) (blocked : List Nat) (hl : l.Nodup) (t c : Nat) :
    GrantOutcome s (keepDecide s l blocked).1 blocked t c := by
  induction l generalizing s blocked with
  | nil => exact .inl rfl
  | cons x r ih =>
    obtain ⟨hx, hr⟩ := List.nodup_cons.1 hl
    cases ha : keepAsk s x.1 x.2 with
    | none =>
      rw [keepDecide_silent ha]
      exact ih _ _ hr
    | some a =>
      rw [keepDecide_asks ha]
      split
      case isTrue hg =>
        by_cases hn : (t, c) = x
        · subst hn
          exact .inr ⟨a.1, a.2, ha, hg, by rw [keepDecide_other _ _ _ hx, keepGranted_grant ha]⟩
        · have hctx := keepGranted_ctx_other s a.1 a.2 hn
          rcases ih (keepGranted s x a.1 a.2) blocked hr with hs | ⟨ls, e, hk, hf, hs⟩
          · exact .inl (by rw [hs, hctx])
          · refine .inr ⟨ls, e, ?_, fun k hk => ⟨lineFree_of_keepGranted ha (hf k hk).1, (hf k hk).2⟩, by rw [hs, hctx]⟩
            simpa only [keepAsk, firstNeed, hctx] using hk
      case isFalse =>
        rcases ih s (blocked ++ a.1) hr with hs | ⟨ls, e, hk, hf, hs⟩
        · exact .inl hs
        · exact .inr ⟨ls, e, hk, fun k hm => ⟨(hf k hm).1, fun hb => (hf k hm).2 (List.mem_append_left _ hb)⟩, hs⟩

open Classical in
theorem keepDecide_frame (l : List (Nat × Nat)) (s : State) (blocked : List Nat) : (keepDecide s l blocked).1.keep = s.keep ∧
    (keepDecide s l blocked).1.vault = s.vault ∧ (keepDecide s l blocked).1.host = s.host := by
  induction l generalizing s blocked with
  | nil => exact ⟨rfl, rfl, rfl⟩
  | cons x r ih =>
    cases ha : keepAsk s x.1 x.2 with
    | none =>
      rw [keepDecide_silent ha]
      exact ih _ _
    | some a =>
      rw [keepDecide_asks ha]
      split
      · simpa only [keepGranted_frame] using ih (keepGranted s x a.1 a.2) blocked
      · exact ih _ _

/-! ## The order of the requests (10 R309) -/

theorem mem_of_mem_keepOrder {s : State} {x : Nat × Nat} : ∀ {n : Nat} {l : List (Nat × Nat)}, x ∈ keepOrder s n l → x ∈ l
  | 0, _, h => nomatch h
  | n + 1, l, h => by
    simp only [keepOrder] at h
    split at h
    · cases h
    case h_2 y hb =>
      rcases List.mem_cons.1 h with rfl | hm
      · obtain ⟨p, r, rfl, -, -⟩ := bestBy_split hb
        simp
      · exact (List.mem_filter.1 (mem_of_mem_keepOrder hm)).1

theorem keepOrder_nodup (s : State) : ∀ (n : Nat) (l : List (Nat × Nat)), (keepOrder s n l).Nodup
  | 0, _ => List.nodup_nil
  | n + 1, l => by
    simp only [keepOrder]
    split
    · exact List.nodup_nil
    · exact List.nodup_cons.2 ⟨fun hm => by simpa using (List.mem_filter.1 (mem_of_mem_keepOrder hm)).2, keepOrder_nodup s n _⟩

/-! ## KEEP_GRANT (07 R225) -/

/-- The requests of a decision cycle: one of each tower. -/
abbrev keepReqs (s : State) : List (Nat × Nat) := (List.range 17).filterMap (fun t => (keepOfTower s t).map (fun c => (t, c)))

/-- What the decision of a cycle gives. -/
abbrev keepRound (s : State) : State × List (Nat × Nat) :=
  keepDecide (commitArb s) (keepOrder (commitArb s) (keepReqs (commitArb s)).length (keepReqs (commitArb s))) (pageClaims (commitArb s))

theorem foldl_setArbAge_grant (l : List (Nat × Nat)) (f : State → Nat × Nat → Nat) (s : State) (t c : Nat) :
    ((l.foldl (fun b x => setArbAge b x.1 x.2 0 (f b x)) s).ctx t c).grant = (s.ctx t c).grant := by
  induction l generalizing s with
  | nil => rfl
  | cons x r ih => exact (ih _).trans (setArbAge_grant _ _ _ _ _ _ _)

theorem foldl_setArbAge_frame (l : List (Nat × Nat)) (f : State → Nat × Nat → Nat) (s : State) :
    let b := l.foldl (fun b x => setArbAge b x.1 x.2 0 (f b x)) s
    b.keep = s.keep ∧ b.vault = s.vault ∧ b.host = s.host := by
  induction l generalizing s with
  | nil => exact ⟨rfl, rfl, rfl⟩
  | cons x r ih => exact ih _

/-- The books of a round of ARB_KEEP (10 R309, R319): ages, counts and stall counts. -/
def keepBooked (s : State) (order : List (Nat × Nat)) (d : State × List (Nat × Nat)) : State :=
  let lost := order.filter (fun x => !d.2.contains x)
  let kept := d.2.filter (fun x => some x != none)
  let a := s.caller.arbKeep
  let s2 := lost.foldl (fun b x => setArbAge b x.1 x.2 0 (a.aged (ctxCls s x.1 x.2) (arbAge s x.1 x.2 0))) d.1
  let s3 := kept.foldl (fun b x => setArbAge b x.1 x.2 0 0) s2
  let a1 := kept.foldl (fun b x => b.count (a.eff (ctxCls s x.1 x.2) (arbAge s x.1 x.2 0)) 0) a
  let a2 := if kept.length < d.2.length then a1.withdrawn s.cycle else a1
  unstall { s3 with caller := { s3.caller with arbKeep := { a2 with lost := satAdd 32 a.lost lost.length } } } (fun _ n => n.isKeep)

theorem keepBooked_grant (s : State) (order : List (Nat × Nat)) (d : State × List (Nat × Nat)) (t c : Nat) :
    ((keepBooked s order d).ctx t c).grant = (d.1.ctx t c).grant :=
  (unstall_grant _ _ _ _).trans ((foldl_setArbAge_grant _ _ _ _ _).trans (foldl_setArbAge_grant _ _ _ _ _))

theorem keepBooked_frame (s : State) (order : List (Nat × Nat)) (d : State × List (Nat × Nat)) :
    (keepBooked s order d).keep = d.1.keep ∧ (keepBooked s order d).vault = d.1.vault ∧ (keepBooked s order d).host = d.1.host := by
  obtain ⟨hk, hv, hh⟩ := foldl_setArbAge_frame (order.filter (fun x => !d.2.contains x))
    (fun _ x => s.caller.arbKeep.aged (ctxCls s x.1 x.2) (arbAge s x.1 x.2 0)) d.1
  obtain ⟨hk', hv', hh'⟩ := foldl_setArbAge_frame (d.2.filter (fun x => some x != none)) (fun _ _ => 0)
    ((order.filter (fun x => !d.2.contains x)).foldl
      (fun b x => setArbAge b x.1 x.2 0 (s.caller.arbKeep.aged (ctxCls s x.1 x.2) (arbAge s x.1 x.2 0))) d.1)
  exact ⟨hk'.trans hk, hv'.trans hv, hh'.trans hh⟩

/-- KEEP_GRANT does nothing where no request is granted, or in a dead cycle. -/
theorem exec_keepGrant (s : State) : exec (.keepGrant none) s = .next
    (if (keepRound s).2.isEmpty ∨ (commitArb s).cycle < (commitArb s).caller.arbKeep.dead then commitArb s
    else keepBooked (commitArb s) (keepOrder (commitArb s) (keepReqs (commitArb s)).length (keepReqs (commitArb s))) (keepRound s)) := by
  exact (apply_ite Host.Outcome.next _ _ _).symm

theorem keepReqs_commitArb (s : State) : keepReqs (commitArb s) = keepReqs s := by
  simp only [keepReqs, (commitArb_sameUnits s).keepOfTower]

theorem grantOutcome_commitArb {s r : State} {t c : Nat} (h : GrantOutcome (commitArb s) r (pageClaims (commitArb s)) t c) :
    GrantOutcome s r (pageClaims s) t c := by
  have hu := commitArb_sameUnits s
  simpa only [GrantOutcome, Grantable, hu.pageClaims, hu.ctx, hu.keepAsk, hu.lineFree] using h

theorem keepRound_outcome (s : State) (t c : Nat) : GrantOutcome s (keepRound s).1 (pageClaims s) t c :=
  grantOutcome_commitArb (keepDecide_outcome _ _ _ (keepOrder_nodup _ _ _) t c)

/-- The first request of the order is granted where its lines may be. -/
theorem keepRound_first {s : State} {t c : Nat} {r : List (Nat × Nat)} {ls : List Nat} {e : Bool}
    (ho : keepOrder (commitArb s) (keepReqs s).length (keepReqs s) = (t, c) :: r) (ha : keepAsk s t c = some (ls, e))
    (hg : Grantable s ls e (pageClaims s)) :
    (keepRound s).2.isEmpty = false ∧ ((keepRound s).1.ctx t c).grant = (s.ctx t c).grant ++ ls := by
  classical
  have hu := commitArb_sameUnits s
  have ha' : keepAsk (commitArb s) t c = some (ls, e) := (hu.keepAsk t c).trans ha
  have hg' : Grantable (commitArb s) ls e (pageClaims (commitArb s)) := by
    simpa only [Grantable, hu.pageClaims, hu.lineFree] using hg
  have hr : (t, c) ∉ r := (List.nodup_cons.1 (ho ▸ keepOrder_nodup (commitArb s) (keepReqs s).length (keepReqs s))).1
  rw [keepRound, keepReqs_commitArb, ho, keepDecide_asks ha', if_pos hg']
  exact ⟨rfl, by rw [keepDecide_other _ _ _ hr, keepGranted_grant ha', hu.ctx]⟩

/-- What every context holds after KEEP_GRANT, and what stands. -/
theorem keepGrant_outcome (s : State) : ∃ s', exec (.keepGrant none) s = .next s' ∧ s'.keep = s.keep ∧ s'.vault = s.vault ∧
    s'.host = s.host ∧ (∀ t c, GrantOutcome s s' (pageClaims s) t c) ∧
    ((commitArb s).caller.arbKeep.dead ≤ s.cycle → (keepRound s).2.isEmpty = false →
      ∀ t c, (s'.ctx t c).grant = ((keepRound s).1.ctx t c).grant) := by
  have hu := commitArb_sameUnits s
  have hc : (commitArb s).cycle = s.cycle := by
    unfold commitArb
    split <;> simp [shadowDone]
  refine ⟨_, exec_keepGrant s, ?_⟩
  split
  case isTrue h =>
    refine ⟨hu.keep, hu.vault, ?_, fun t c => .inl (by rw [hu.ctx]), fun hd hg => ?_⟩
    · unfold commitArb
      split <;> simp [shadowDone]
    · simp only [hg, hc, Bool.false_eq_true, false_or] at h
      omega
  case isFalse h =>
    obtain ⟨hk, hv, hh⟩ := keepBooked_frame (commitArb s) (keepOrder (commitArb s) (keepReqs (commitArb s)).length (keepReqs (commitArb s)))
      (keepRound s)
    obtain ⟨hk', hv', hh'⟩ := keepDecide_frame (keepOrder (commitArb s) (keepReqs (commitArb s)).length (keepReqs (commitArb s)))
      (commitArb s) (pageClaims (commitArb s))
    refine ⟨hk.trans (hk'.trans hu.keep), hv.trans (hv'.trans hu.vault), hh.trans (hh'.trans ?_), fun t c => ?_,
      fun _ _ t c => keepBooked_grant _ _ _ t c⟩
    · unfold commitArb
      split <;> simp [shadowDone]
    · simpa only [GrantOutcome, keepBooked_grant] using keepRound_outcome s t c

/-! ## GRANT_REVOKE (07 R224) -/

theorem exec_grantRevoke_spent {s : State} {t c : Nat} (h : (s.ctx t c).call.isSome = true ∧ (s.ctx t c).grant ≠ [] ∧
    256 ≤ (s.ctx t c).work256) : exec (.grantRevoke t c) s =
    .next (deviceFault (raise { s with keep := { s.keep with revokes := satAdd 32 s.keep.revokes 1 } } pgKeep 3) t c) := by
  refine if_neg ?_
  simpa only [not_or, Bool.not_eq_true, Option.isNone_eq_false_iff, List.isEmpty_eq_false_iff, Nat.not_lt] using h

theorem exec_grantRevoke_else {s : State} {t c : Nat} (h : ¬ ((s.ctx t c).call.isSome = true ∧ (s.ctx t c).grant ≠ [] ∧
    256 ≤ (s.ctx t c).work256)) : exec (.grantRevoke t c) s = .next s := by
  refine if_pos (by_contra fun hn => h ?_)
  simpa only [not_or, Bool.not_eq_true, Option.isNone_eq_false_iff, List.isEmpty_eq_false_iff, Nat.not_lt] using hn

/-! ## VAULT_FILL of a token bucket (07 R235) -/

@[simp] theorem cacheMeta_frame (s : State) (p : Nat) (ws : List Nat) : (cacheMeta s p ws).towers = s.towers ∧
    (cacheMeta s p ws).jobs = s.jobs ∧ (cacheMeta s p ws).keep = s.keep := by
  refine List.foldlRecOn (motive := fun (a : State) => a.towers = s.towers ∧ a.jobs = s.jobs ∧ a.keep = s.keep) ws _ ⟨rfl, rfl, rfl⟩
    (fun a h w _ => ?_)
  dsimp only
  split
  · exact h
  · split
    · exact h
    · exact h

/-- A fetch of vault lines leaves the contexts, the jobs and the Keep. -/
@[simp] theorem fetchLines_frame (s : State) (p idx n : Nat) (failed : Bool) : (fetchLines s p idx n failed).1.towers = s.towers ∧
    (fetchLines s p idx n failed).1.jobs = s.jobs ∧ (fetchLines s p idx n failed).1.keep = s.keep := by
  unfold fetchLines
  dsimp only
  split
  · simp
  · split <;> simp

section Bucket

variable {s : State} {t c idx : Nat}

/-- The line that a bucket's fetch brings. -/
abbrev bucketFetch (idx : Nat) (l : List Bytes) : Fetch := { idx := idx, lines := [fit 64 l.flatten] }

theorem fetchOther_bucket (h : opOf (workDesc s t c) / 256 = 6) (failed : Bool) :
    fetchOther s t c idx failed = fetchRaw s (partOf (workDesc s t c)) idx failed := if_pos h

/-- The state in which what a fetch has brought waits for a way. -/
abbrev withReady (b : State) (t c idx : Nat) (l : List Bytes) : State :=
  b.setCtx t c { b.ctx t c with ready := [(.fillLine idx, bucketFetch idx l)] }

/-- What is done with a bucket's line that has come: it is installed, waits, or is refused. -/
theorem takeFetch_bucket {b : State} {p : Nat} {l : List Bytes} (ht : t < b.towers.length) (hc : c < (b.tower t).ctxs.length)
    (hn : (b.ctx t c).needs.contains (.fillLine idx) = true) (hp : partOf (workDesc b t c) = p) (hk : keepLine b p 1 idx = none)
    (hb : runBusy b p 1 idx 1 = false) (hr : (b.ctx t c).ready = []) :
    takeFetch b t c (.fillLine idx) (bucketFetch idx l) =
    let w := engineKeep (withReady b t c idx l) true [(p, idx)]
    if w.2 then ((installAll 1 .clean w.1 [(p, idx, none, fit 64 l.flatten)]).map
        (fun a => filledBy a t c p (.fillLine idx) (bucketFetch idx l))).getD w.1
    else finishFree (clearReady w.1 t c (.fillLine idx)) t c stVaultUnreach [] := by
  have hx := State.ctx_setCtx_same b t c { b.ctx t c with ready := [(.fillLine idx, bucketFetch idx l)] } ht hc
  have hd : workDesc (withReady b t c idx l) t c = workDesc b t c := workDesc_congr rfl (by rw [hx])
  rw [takeFetch, hr]
  simp only [settleOne, List.nil_append, hd, hp]
  rw [if_neg (by simp [hx]), if_neg (by simpa [hx] using hn)]
  exact (if_neg (ne_true_of_eq_false (congrArg Option.isSome hk))).trans (if_neg (ne_true_of_eq_false hb))

/-- A fetch that ends with a status ends the call. -/
theorem fillOther_bad {b : State} {st w : Nat} {failed : Bool} (h6 : opOf (workDesc s t c) / 256 = 6)
    (hk : keepLine s (partOf (workDesc s t c)) 1 idx = none)
    (hf : fetchLines s (partOf (workDesc s t c)) idx 1 failed = (b, .bad st w)) :
    fillOther s t c idx failed = finishFree (noteBad b st w) t c st [] := by
  simp only [fillOther, hk, fetchOther_bucket h6, fetchRaw, hf, Option.isSome_none, Bool.false_eq_true, if_false]

theorem fillOther_got {b : State} {l : List Bytes} {failed : Bool} (h6 : opOf (workDesc s t c) / 256 = 6)
    (hk : keepLine s (partOf (workDesc s t c)) 1 idx = none)
    (hf : fetchLines s (partOf (workDesc s t c)) idx 1 failed = (b, .got l)) :
    fillOther s t c idx failed = takeFetch b t c (.fillLine idx) (bucketFetch idx l) := by
  simp only [fillOther, hk, fetchOther_bucket h6, fetchRaw, hf, Option.isSome_none, Bool.false_eq_true, if_false]

/-- The answer of a fetch that ARB_DMA has granted is taken for the oldest need that was asked for. -/
theorem exec_vaultFill_asked (mem : List (Nat × Bytes)) (failed : Bool)
    (ha : (s.ctx t c).asked.head? = some (.fillLine idx))
    (hf : s.hif.fills.find? (fun f => f.1 == t && f.2.1 == c) = some (t, c, true)) :
    let x := ({ putMem s mem with hif := { s.hif with np := s.hif.np - 1, fills := s.hif.fills.erase (t, c, true) } } : State)
    let y := (takeAsked (if failed then logVaultError x else x) t c).1
    exec (.vaultFill t c mem failed) s = .next (unstall (doFill y t c (.fillLine idx) failed) (fun _ n => n.isFill)) := by
  intro x y
  have hm : takeAsked (if failed then logVaultError x else x) t c = (y, some (.fillLine idx)) :=
    Prod.ext rfl (by cases failed <;> exact ha)
  show execVaultFill t c mem failed s = _
  simp only [execVaultFill, hf, if_true]
  generalize hz : takeAsked _ t c = z
  obtain rfl := hz.symm.trans hm
  rfl

/-- What the state in which a fetch's answer is taken keeps of the state before. -/
theorem answered_frame (s : State) (t c : Nat) (mem : List (Nat × Bytes)) (failed : Bool) (h : Hif) :
    let x := ({ putMem s mem with hif := h } : State)
    let y := (takeAsked (if failed then logVaultError x else x) t c).1
    y.towers = (s.setCtx t c { s.ctx t c with asked := (s.ctx t c).asked.drop 1 }).towers ∧ y.jobs = s.jobs ∧ y.keep = s.keep := by
  cases failed <;> exact ⟨rfl, rfl, rfl⟩

end Bucket

/-- Settles O55: what a decision grants is `keepGrant_outcome`, and a bucket's fetch ends as one of the laws of `fillOther`. -/
theorem directoryGrantsWholeSets : Obligations.DirectoryGrantsWholeSets := by
  unfold Obligations.DirectoryGrantsWholeSets
  refine ⟨fun s => ?grants, fun s t c => ⟨exec_grantRevoke_spent, exec_grantRevoke_else⟩,
    fun s t c idx mem failed hn ha ht hc hf h6 => ?fills⟩
  case grants =>
    obtain ⟨s', he, hk, hv, hh, hg, hr⟩ := keepGrant_outcome s
    refine ⟨s', he, hk, hv, hh, fun t c ls e hask => ?_, fun t c hask => ?_, fun hd t c r ls e ho hask hfree => ?_⟩
    · rcases hg t c with h | ⟨ls', e', hask', hg', h⟩
      · exact .inl h
      · obtain ⟨rfl, rfl⟩ := Prod.mk.inj (Option.some.inj (hask'.symm.trans hask))
        exact .inr ⟨h, hg'⟩
    · rcases hg t c with h | ⟨ls', e', hask', -⟩
      · exact h
      · exact absurd (hask'.symm.trans hask) (by simp)
    · obtain ⟨hne, hfirst⟩ := keepRound_first ho hask hfree
      exact (hr hd hne t c).trans hfirst
  case fills =>
    intro p x y done hk
    have hrun : exec (.vaultFill t c mem failed) s = done (doFill y t c (.fillLine idx) failed) := exec_vaultFill_asked mem failed ha hf
    obtain ⟨hyt, hyj, hyk⟩ : y.towers = _ ∧ y.jobs = s.jobs ∧ y.keep = s.keep := answered_frame s t c mem failed _
    have hyx : y.ctx t c = { s.ctx t c with asked := (s.ctx t c).asked.drop 1 } :=
      (State.ctx_congr hyt t c).trans (State.ctx_setCtx_same _ _ _ _ ht hc)
    have hyd : workDesc y t c = workDesc s t c := workDesc_congr hyj (by rw [hyx])
    have hyk' : keepLine y (partOf (workDesc y t c)) 1 idx = none := by
      rw [hyd, keepLine, hyk]
      exact hk
    have hfill : doFill y t c (.fillLine idx) failed = fillOther y t c idx failed := by
      refine if_neg ?_
      rw [hyx]
      simpa using hn
    have hy6 : opOf (workDesc y t c) / 256 = 6 := by rw [hyd, h6]
    refine ⟨fun b l hl hb hr => ?got, fun b st w hl => ?bad⟩
    case bad =>
      rw [hrun, hfill, fillOther_bad hy6 hyk' (by rw [hyd]; exact hl)]
      rfl
    case got =>
      intro f w
      obtain ⟨hbt, hbj, hbk⟩ : b.towers = y.towers ∧ b.jobs = y.jobs ∧ b.keep = y.keep := by
        simpa only [hl] using fetchLines_frame y p idx 1 failed
      have hbx : b.ctx t c = y.ctx t c := State.ctx_congr hbt t c
      have hbd : workDesc b t c = workDesc s t c := (workDesc_congr hbj (by rw [hbx])).trans hyd
      have hneed : (b.ctx t c).needs.contains (.fillLine idx) = true := by
        rw [hbx, hyx]
        exact hn
      obtain ⟨htb, hcb⟩ := State.ctx_exists (s := b) (t := t) (c := c) (fun hd => by
        rw [hd] at hneed
        cases hneed)
      have hkb : keepLine b p 1 idx = none := by
        rw [keepLine, hbk, hyk]
        exact hk
      have htake := takeFetch_bucket (l := l) htb hcb hneed (congrArg partOf hbd) hkb hb hr
      have hw : exec (.vaultFill t c mem failed) s = done (if w.2 then
          ((installAll 1 .clean w.1 [(p, idx, none, fit 64 l.flatten)]).map (fun a => filledBy a t c p (.fillLine idx) f)).getD w.1
        else finishFree (clearReady w.1 t c (.fillLine idx)) t c stVaultUnreach []) := by
        rw [hrun, hfill, fillOther_got hy6 hyk' (by rw [hyd]; exact hl), htake]
      refine ⟨fun e h2 hi => ?_, fun h2 hi => ?_, fun h2 => ?_⟩
      · rw [hw, if_pos h2, hi]
        rfl
      · rw [hw, if_pos h2, hi]
        rfl
      · rw [hw, if_neg (ne_true_of_eq_false h2)]

end Sys2Proof.Machine

/-! SUPPORT. The commit of the Keep's maps (07 R221): which entries of a map change, what a commit does to a table of owners, and the rooms
that stay; from these follows the statement about the maps. -/

namespace Sys2Proof.Machine

/-! ## A map's changes -/

theorem mem_mapChanges {shadow : Tbl Nat} {live : Tbl Owner} {n i : Nat} {a b : Owner} : (i, a, b) ∈ mapChanges shadow live n ↔
    i < n ∧ a = tblGet none live i ∧ b = ownerOf (tblGet 0 shadow i) ∧ a ≠ b := by
  simp only [mapChanges, List.mem_filter, List.mem_map, List.mem_range, Prod.mk.injEq, bne_iff_ne]
  constructor
  · rintro ⟨⟨j, hj, rfl, rfl, rfl⟩, h⟩
    exact ⟨hj, rfl, rfl, h⟩
  · rintro ⟨hi, rfl, rfl, h⟩
    exact ⟨⟨i, hi, rfl, rfl, rfl⟩, h⟩

/-- The entries of a map come in ascending order. -/
theorem mapChanges_ascending (shadow : Tbl Nat) (live : Tbl Owner) (n : Nat) :
    (mapChanges shadow live n).Pairwise (fun a b => a.1 < b.1) :=
  List.Pairwise.filter _ (List.pairwise_map.2 List.pairwise_lt_range)

/-- Owners written one after another: an entry that none of the changes names stands. -/
theorem tblGet_foldl_other (l : List (Nat × Owner × Owner)) (t : Tbl Owner) {i : Nat} (h : ∀ e ∈ l, e.1 ≠ i) :
    tblGet none (l.foldl (fun t e => tblSet (none : Owner) t e.1 e.2.2) t) i = tblGet none t i := by
  induction l generalizing t with
  | nil => rfl
  | cons e l ih =>
    rw [List.foldl_cons, ih _ (fun x hx => h x (List.mem_cons_of_mem _ hx)), tblGet_set_other _ _ _ _ _ (h e (List.mem_cons_self ..)).symm]

theorem tblGet_foldl_mem (l : List (Nat × Owner × Owner)) (t : Tbl Owner) (hl : l.Pairwise (fun a b => a.1 < b.1))
    {i : Nat} {a b : Owner} (h : (i, a, b) ∈ l) :
    tblGet none (l.foldl (fun t e => tblSet (none : Owner) t e.1 e.2.2) t) i = b := by
  induction l generalizing t with
  | nil => cases h
  | cons e l ih =>
    obtain ⟨he, hl⟩ := List.pairwise_cons.1 hl
    rw [List.foldl_cons]
    rcases List.mem_cons.1 h with rfl | hm
    · rw [tblGet_foldl_other _ _ (fun x hx => (he x hx).ne'), tblGet_set_same]
    · exact ih _ hl hm

/-! ## The heads of a page -/

theorem putHead_head (s : State) (p : Nat) (h : Head) : (putHead s p h).head p = h := by
  unfold putHead
  dsimp only
  split
  · exact State.head_setHead_same _ _ _
  · split
    · rw [State.head, (signal_frame _ _ _).2.2.1, ← State.head, State.head_setHead_same]
    · exact State.head_setHead_same _ _ _

theorem raise_irqStatus (s : State) (p b : Nat) : ((raise s p b).head p).irqStatus = (s.head p).irqStatus ||| BitVec.ofNat 32 (2 ^ b) := by
  rw [raise, putHead_head]

theorem shadowDone_irqStatus (s : State) (p : Nat) : ((shadowDone s p).head p).irqStatus = (s.head p).irqStatus := by
  rw [shadowDone, putHead_head]

/-! ## The room map (07 R221) -/

/-- An owner refuses a change of its rooms. -/
def ownerRefuses (s : State) (o : Owner) : Bool := o.any (refusesRooms s)

/-- The rooms whose shadow names another owner. -/
@[irreducible] def roomChanges (s : State) : List (Nat × Owner × Owner) := mapChanges s.keep.rooms s.keep.liveRooms 1024

/-- Of these, the rooms that stay: their old or new owner refuses. -/
def roomsStaying (s : State) : List (Nat × Owner × Owner) :=
  (roomChanges s).filter (fun e => ownerRefuses s e.2.1 || ownerRefuses s e.2.2)

/-- And the rooms that move. -/
def roomsMoving (s : State) : List (Nat × Owner × Owner) :=
  (roomChanges s).filter (fun e => !(ownerRefuses s e.2.1 || ownerRefuses s e.2.2))

/-- A room of the partition moves. -/
def resizedPart (s : State) (p : Nat) : Bool := (roomsMoving s).any (fun e => e.2.1 == some p || e.2.2 == some p)

/-- What KEEP_MAP_REJECT names: the last room that stays, or what it named before. -/
def lastRoom (last : Option (Nat × Owner × Owner)) (before : Option Nat) : Option Nat :=
  match last with
  | some e => some e.1
  | none => before

/-- The state past the room map's commit, but for the interrupt of a refusal. -/
def roomsCommitted (s : State) : State :=
  let dropped := dropLines s (fun k l => resizedPart s (keyPart k) && l.st != .pinned)
  { dropped with
    keep := { dropped.keep with
      liveRooms := (roomsMoving s).foldl (fun t e => tblSet (none : Owner) t e.1 e.2.2) dropped.keep.liveRooms
      reject := lastRoom (roomsStaying s).getLast? dropped.keep.reject
      rejects := satAdd 16 dropped.keep.rejects (roomsStaying s).length }
    vault := { dropped.vault with meta_ := dropped.vault.meta_.filter (fun e => !resizedPart s e.2.1) } }

theorem commitRooms_eq (s : State) : commitRooms s =
    if (roomsStaying s).isEmpty then roomsCommitted s else raise (roomsCommitted s) pgKeep 2 := by
  unfold commitRooms roomsCommitted resizedPart roomsMoving roomsStaying ownerRefuses roomChanges lastRoom
  generalize mapChanges s.keep.rooms s.keep.liveRooms 1024 = ch
  rfl

theorem commitRooms_keep (s : State) : (commitRooms s).keep = (roomsCommitted s).keep := by
  rw [commitRooms_eq]
  split <;> simp

@[simp] theorem commitRooms_frame (s : State) : (commitRooms s).towers = s.towers ∧ (commitRooms s).dome = s.dome ∧
    (commitRooms s).host = s.host ∧ (commitRooms s).vault.mem = s.vault.mem := by
  rw [commitRooms_eq]
  split <;> simp [roomsCommitted, dropLines]

theorem commitRooms_irqStatus {s : State} (h : (roomsStaying s).isEmpty = false) :
    ((commitRooms s).head pgKeep).irqStatus = (s.head pgKeep).irqStatus ||| 4#32 := by
  rw [commitRooms_eq, if_neg (ne_true_of_eq_false h), raise_irqStatus]
  rfl

/-! ## The map of the tower key caches (07 R221) -/

/-- The entries whose shadow names another owner. -/
@[irreducible] def tcChanges (s : State) : List (Nat × Owner × Owner) := mapChanges s.keep.tc s.keep.liveTc 256

theorem commitTc_keep (s : State) : (commitTc s).keep =
    { s.keep with liveTc := (tcChanges s).foldl (fun t e => tblSet (none : Owner) t e.1 e.2.2) s.keep.liveTc } := by
  unfold commitTc tcChanges
  rfl

@[simp] theorem commitTc_frame (s : State) : (commitTc s).dome = s.dome ∧ (commitTc s).host = s.host ∧ (commitTc s).vault = s.vault ∧
    (commitTc s).heads = s.heads := ⟨rfl, rfl, rfl, rfl⟩

theorem commitTc_rooms (s : State) : (commitTc s).keep.liveRooms = s.keep.liveRooms ∧
    (commitTc s).keep.reject = s.keep.reject ∧ (commitTc s).keep.lines = s.keep.lines := ⟨rfl, rfl, rfl⟩

theorem commitTc_head (s : State) (p : Nat) : (commitTc s).head p = s.head p := rfl

theorem commitTc_cache {s : State} {t : Nat} (ht : t < s.towers.length) :
    ((commitTc s).tower t).cache = (s.tower t).cache.filter (fun e => !(tcChanges s).any (fun x => x.1 == e.1)) := by
  simp only [commitTc, tcDrop, tcChanges, State.tower, List.getD_eq_getElem?_getD, List.getElem?_map, List.getElem?_eq_getElem ht, Option.map_some,
    Option.getD_some]

/-- A map takes the owner that its shadow names for every entry that it has. -/
theorem tblGet_mapChanges {shadow : Tbl Nat} {live : Tbl Owner} {n i : Nat} (hi : i < n) :
    tblGet none ((mapChanges shadow live n).foldl (fun t e => tblSet (none : Owner) t e.1 e.2.2) live) i = ownerOf (tblGet 0 shadow i) := by
  by_cases h : tblGet none live i = ownerOf (tblGet 0 shadow i)
  · rw [tblGet_foldl_other _ _ fun e he => ?_, h]
    rintro rfl
    obtain ⟨-, ha, hb, hne⟩ := mem_mapChanges.1 (show (e.1, e.2.1, e.2.2) ∈ _ from he)
    exact hne (ha.trans (h.trans hb.symm))
  · exact tblGet_foldl_mem _ _ (mapChanges_ascending _ _ _) (mem_mapChanges.2 ⟨hi, rfl, rfl, h⟩)

/-! ## Which rooms move -/

section Rooms

variable {s : State} {r : Nat}

/-- The owner of a room in force. -/
abbrev roomOwner (s : State) (r : Nat) : Owner := tblGet (none : Owner) s.keep.liveRooms r

/-- The owner that its shadow names. -/
abbrev roomShadow (s : State) (r : Nat) : Owner := ownerOf (tblGet 0 s.keep.rooms r)

/-- The room keeps its owner: the old or the new one refuses. -/
def RoomStays (s : State) (r : Nat) : Prop :=
  (∃ p, roomOwner s r = some p ∧ refusesRooms s p = true) ∨ ∃ p, roomShadow s r = some p ∧ refusesRooms s p = true

theorem roomStays_iff : (ownerRefuses s (roomOwner s r) || ownerRefuses s (roomShadow s r)) = true ↔ RoomStays s r := by
  unfold RoomStays ownerRefuses
  rw [Bool.or_eq_true, Option.any_eq_true, Option.any_eq_true]

theorem mem_roomsStaying {a b : Owner} : (r, a, b) ∈ roomsStaying s ↔
    r < 1024 ∧ a = roomOwner s r ∧ b = roomShadow s r ∧ a ≠ b ∧ RoomStays s r := by
  unfold roomsStaying roomChanges
  rw [List.mem_filter, mem_mapChanges, ← roomStays_iff]
  constructor
  · rintro ⟨⟨hi, rfl, rfl, hne⟩, h⟩
    exact ⟨hi, rfl, rfl, hne, h⟩
  · rintro ⟨hi, rfl, rfl, hne, h⟩
    exact ⟨⟨hi, rfl, rfl, hne⟩, h⟩

theorem mem_roomsMoving {a b : Owner} : (r, a, b) ∈ roomsMoving s ↔
    r < 1024 ∧ a = roomOwner s r ∧ b = roomShadow s r ∧ a ≠ b ∧ ¬ RoomStays s r := by
  unfold roomsMoving roomChanges
  rw [List.mem_filter, mem_mapChanges, ← roomStays_iff, Bool.not_eq_true', Bool.not_eq_true]
  constructor
  · rintro ⟨⟨hi, rfl, rfl, hne⟩, h⟩
    exact ⟨hi, rfl, rfl, hne, h⟩
  · rintro ⟨hi, rfl, rfl, hne, h⟩
    exact ⟨⟨hi, rfl, rfl, hne⟩, h⟩

theorem roomsStaying_ascending (s : State) : (roomsStaying s).Pairwise (fun a b => a.1 < b.1) := by
  unfold roomsStaying roomChanges
  exact (mapChanges_ascending _ _ _).filter _

theorem roomsMoving_ascending (s : State) : (roomsMoving s).Pairwise (fun a b => a.1 < b.1) := by
  unfold roomsMoving roomChanges
  exact (mapChanges_ascending _ _ _).filter _

theorem resizedPart_iff {p : Nat} : resizedPart s p = true ↔
    ∃ r, r < 1024 ∧ roomOwner s r ≠ roomShadow s r ∧ ¬ RoomStays s r ∧ (roomOwner s r = some p ∨ roomShadow s r = some p) := by
  simp only [resizedPart, List.any_eq_true, Bool.or_eq_true, beq_iff_eq]
  constructor
  · rintro ⟨⟨r, a, b⟩, he, h⟩
    obtain ⟨hi, rfl, rfl, hne, hs⟩ := mem_roomsMoving.1 he
    exact ⟨r, hi, hne, hs, h⟩
  · rintro ⟨r, hi, hne, hs, h⟩
    exact ⟨(r, roomOwner s r, roomShadow s r), mem_roomsMoving.2 ⟨hi, rfl, rfl, hne, hs⟩, h⟩

theorem commitRooms_liveRooms (s : State) : (commitRooms s).keep.liveRooms =
    (roomsMoving s).foldl (fun t e => tblSet (none : Owner) t e.1 e.2.2) s.keep.liveRooms := by
  rw [commitRooms_keep]
  rfl

theorem liveRooms_stays (h : RoomStays s r) : tblGet (none : Owner) (commitRooms s).keep.liveRooms r = roomOwner s r := by
  rw [commitRooms_liveRooms]
  refine tblGet_foldl_other _ _ ?_
  rintro ⟨i, a, b⟩ he rfl
  exact (mem_roomsMoving.1 he).2.2.2.2 h

theorem liveRooms_moves (hr : r < 1024) (h : ¬ RoomStays s r) :
    tblGet (none : Owner) (commitRooms s).keep.liveRooms r = roomShadow s r := by
  rw [commitRooms_liveRooms]
  by_cases hne : roomOwner s r = roomShadow s r
  · rw [← hne]
    refine tblGet_foldl_other _ _ ?_
    rintro ⟨i, a, b⟩ he rfl
    obtain ⟨-, ha, hb, hab, -⟩ := mem_roomsMoving.1 he
    exact hab (ha.trans (hne.trans hb.symm))
  · exact tblGet_foldl_mem _ _ (roomsMoving_ascending s) (mem_roomsMoving.2 ⟨hr, rfl, rfl, hne, h⟩)

theorem commitRooms_reject (s : State) : (commitRooms s).keep.reject = lastRoom (roomsStaying s).getLast? s.keep.reject := by
  rw [commitRooms_keep]
  rfl

/-- The room that KEEP_MAP_REJECT names is the last one that stays. -/
theorem commitRooms_rejects (h : ∃ r, r < 1024 ∧ roomOwner s r ≠ roomShadow s r ∧ RoomStays s r) :
    ((commitRooms s).head pgKeep).irqStatus = (s.head pgKeep).irqStatus ||| 4#32 ∧ ∃ r, (commitRooms s).keep.reject = some r ∧
      r < 1024 ∧ roomOwner s r ≠ roomShadow s r ∧ RoomStays s r ∧
      ∀ q, r < q → q < 1024 → ¬ (roomOwner s q ≠ roomShadow s q ∧ RoomStays s q) := by
  obtain ⟨r, hr, hne, hs⟩ := h
  have hmem : (r, roomOwner s r, roomShadow s r) ∈ roomsStaying s := mem_roomsStaying.2 ⟨hr, rfl, rfl, hne, hs⟩
  obtain ⟨l, ⟨i, a, b⟩, hl⟩ := (roomsStaying s).eq_nil_or_concat.resolve_left (List.ne_nil_of_mem hmem)
  have hlast : (i, a, b) ∈ roomsStaying s := by simp [hl]
  obtain ⟨hi, rfl, rfl, hne', hs'⟩ := mem_roomsStaying.1 hlast
  refine ⟨commitRooms_irqStatus (List.isEmpty_eq_false_iff.2 (List.ne_nil_of_mem hmem)), i, ?_, hi, hne', hs', ?_⟩
  · rw [commitRooms_reject, hl, List.concat_eq_append, List.getLast?_concat]
    rfl
  · rintro q hq hq' ⟨hneq, hsq⟩
    have hasc := roomsStaying_ascending s
    have hmq : (q, roomOwner s q, roomShadow s q) ∈ roomsStaying s := mem_roomsStaying.2 ⟨hq', rfl, rfl, hneq, hsq⟩
    rw [hl, List.concat_eq_append] at hasc hmq
    rcases List.mem_append.1 hmq with hm | hm
    · exact Nat.lt_asymm hq ((List.pairwise_append.1 hasc).2.2 _ hm _ (List.mem_singleton_self _))
    · exact hq.ne' (congrArg Prod.fst (List.mem_singleton.1 hm))

theorem commitRooms_reject_stands (h : ∀ r, r < 1024 → ¬ (roomOwner s r ≠ roomShadow s r ∧ RoomStays s r)) :
    (commitRooms s).keep.reject = s.keep.reject := by
  have hnil : roomsStaying s = [] := by
    refine List.eq_nil_iff_forall_not_mem.2 ?_
    rintro ⟨r, a, b⟩ he
    obtain ⟨hr, rfl, rfl, hne, hs⟩ := mem_roomsStaying.1 he
    exact h r hr ⟨hne, hs⟩
  rw [commitRooms_reject, hnil]
  rfl

end Rooms

/-! ## KEEP_MAP_COMMIT -/

theorem exec_keepMapCommit_idle {s : State} (h : (s.head pgKeep).commit = false ∨ filling s = true) :
    exec .keepMapCommit s = .next s := by
  refine congrArg Host.Outcome.next (if_pos ?_)
  simpa using h

/-- The state past a commit of the maps. -/
def pastMapCommit (s : State) : State := raise (shadowDone (commitTc (commitRooms s)) pgKeep) pgKeep 1

theorem exec_keepMapCommit_due {s : State} (hc : (s.head pgKeep).commit = true) (hf : filling s = false) :
    exec .keepMapCommit s = .next (pastMapCommit s) := by
  refine congrArg Host.Outcome.next (if_neg ?_)
  simp [hc, hf]

theorem pastMapCommit_frame (s : State) : (pastMapCommit s).keep = (commitTc (commitRooms s)).keep ∧
    (pastMapCommit s).towers = (commitTc (commitRooms s)).towers ∧ (pastMapCommit s).vault.mem = s.vault.mem ∧
    (pastMapCommit s).host = s.host ∧ (pastMapCommit s).dome = s.dome := by
  simp [pastMapCommit, shadowDone]

theorem pastMapCommit_rooms (s : State) : (pastMapCommit s).keep.liveRooms = (commitRooms s).keep.liveRooms ∧
    (pastMapCommit s).keep.reject = (commitRooms s).keep.reject ∧ (pastMapCommit s).keep.lines = (commitRooms s).keep.lines := by
  rw [(pastMapCommit_frame s).1]
  exact commitTc_rooms _

theorem pastMapCommit_irqStatus (s : State) :
    ((pastMapCommit s).head pgKeep).irqStatus = ((commitRooms s).head pgKeep).irqStatus ||| 2#32 := by
  unfold pastMapCommit
  rw [raise_irqStatus, shadowDone_irqStatus, commitTc_head, Nat.pow_one]

theorem mem_pastMapCommit_lines {s : State} {e : Nat × KeepLine} :
    e ∈ (pastMapCommit s).keep.lines ↔ e ∈ s.keep.lines ∧ (¬ resizedPart s (keyPart e.1) = true ∨ e.2.st = .pinned) := by
  have hlines : (commitRooms s).keep.lines = s.keep.lines.filter (fun e => !(resizedPart s (keyPart e.1) && e.2.st != .pinned)) := by
    rw [commitRooms_keep]
    rfl
  rw [(pastMapCommit_rooms s).2.2, hlines, List.mem_filter]
  simp

theorem tcChanges_commitRooms (s : State) : tcChanges (commitRooms s) = tcChanges s := by
  unfold tcChanges
  rw [commitRooms_keep]
  rfl

theorem pastMapCommit_liveTc (s : State) {i : Nat} (hi : i < 256) :
    tblGet (none : Owner) (pastMapCommit s).keep.liveTc i = ownerOf (tblGet 0 s.keep.tc i) := by
  rw [(pastMapCommit_frame s).1, commitTc_keep, tcChanges_commitRooms, commitRooms_keep]
  unfold tcChanges
  exact tblGet_mapChanges hi

theorem tcChanges_any {s : State} {i : Nat} : (tcChanges s).any (fun x => x.1 == i) = true ↔
    i < 256 ∧ tblGet (none : Owner) s.keep.liveTc i ≠ ownerOf (tblGet 0 s.keep.tc i) := by
  simp only [tcChanges, List.any_eq_true, beq_iff_eq]
  constructor
  · rintro ⟨⟨j, a, b⟩, hx, rfl⟩
    obtain ⟨hj, rfl, rfl, hne⟩ := mem_mapChanges.1 hx
    exact ⟨hj, hne⟩
  · rintro ⟨hi, hne⟩
    exact ⟨_, mem_mapChanges.2 ⟨hi, rfl, rfl, hne⟩, rfl⟩

theorem mem_pastMapCommit_cache {s : State} {t : Nat} (ht : t < s.towers.length) {e : Nat × CacheEnt} :
    e ∈ ((pastMapCommit s).tower t).cache ↔ e ∈ (s.tower t).cache ∧
      ¬ (e.1 < 256 ∧ tblGet (none : Owner) s.keep.liveTc e.1 ≠ ownerOf (tblGet 0 s.keep.tc e.1)) := by
  rw [State.tower_of_towers_eq (pastMapCommit_frame s).2.1, commitTc_cache (by simpa using ht), tcChanges_commitRooms,
    State.tower_of_towers_eq (commitRooms_frame s).1, List.mem_filter, ← tcChanges_any, Bool.not_eq_true', Bool.not_eq_true]

/-- Settles O56: the rooms are those of the laws above, and a commit of the tower caches' map moves every entry. -/
theorem roomsMoveUnlessRefused : Obligations.RoomsMoveUnlessRefused := by
  unfold Obligations.RoomsMoveUnlessRefused
  intro s _ _ _
  refine ⟨exec_keepMapCommit_idle, fun hc hf => ⟨pastMapCommit s, exec_keepMapCommit_due hc hf, ?_⟩⟩
  obtain ⟨-, -, hmem, hhost, hdome⟩ := pastMapCommit_frame s
  obtain ⟨hrooms, hreject, -⟩ := pastMapCommit_rooms s
  refine ⟨?rooms, fun i hi => pastMapCommit_liveTc s hi, fun t ht => ⟨fun e he => ((mem_pastMapCommit_cache ht).1 he).1,
    fun e he => (mem_pastMapCommit_cache ht).trans (and_iff_right he)⟩, hmem, hhost, hdome⟩
  rw [hrooms, hreject]
  refine ⟨fun r hr => ⟨liveRooms_stays, liveRooms_moves hr⟩, fun e he => (mem_pastMapCommit_lines.1 he).1, fun e he => ?lines,
    fun h => ?refused, commitRooms_reject_stands⟩
  case lines => exact mem_pastMapCommit_lines.trans ((and_iff_right he).trans (or_congr_left (not_congr resizedPart_iff)))
  case refused =>
    obtain ⟨hirq, hlast⟩ := commitRooms_rejects h
    refine ⟨?_, hlast⟩
    rw [pastMapCommit_irqStatus, hirq]
    simp

end Sys2Proof.Machine

/-! SUPPORT. The journal's order (07 R236 to R240, R255): what groups that are given up, a batch that fails, and a detachment leave of the
vault and of the root slots; then one law for each fate of BATCH_CLOSE, JOURNAL_WRITTEN and HOME_APPLIED, and for the actions of
VAULT_CTRL. -/

namespace Sys2Proof.Machine

/-! ## Groups that are given up -/

/-- The vault but for the groups gathered and what they take back: the descriptors, and a rekey that has not begun. -/
def Vault.settled (v : Vault) : Vault := { v with descs := [], groups := [], rekey := none }

/-- The Dome stands, and the vault but for what groups take back. -/
def Settled (s r : State) : Prop := r.dome = s.dome ∧ r.vault.settled = s.vault.settled

theorem Settled.refl (s : State) : Settled s s := ⟨rfl, rfl⟩

theorem Settled.trans {s r q : State} (h : Settled s r) (g : Settled r q) : Settled s q := ⟨g.1.trans h.1, g.2.trans h.2⟩

theorem Settled.fields {s r : State} (h : Settled s r) : r.vault.st = s.vault.st ∧ r.vault.mem = s.vault.mem ∧
    r.vault.writing = s.vault.writing ∧ r.vault.batch = s.vault.batch ∧ r.vault.retries = s.vault.retries ∧
    r.vault.awaiting = s.vault.awaiting ∧ r.vault.acks = s.vault.acks := by
  have hf {α : Type} (f : Vault → α) : f r.vault.settled = f s.vault.settled := congrArg f h.2
  exact ⟨hf Vault.st, hf Vault.mem, hf Vault.writing, hf Vault.batch, hf Vault.retries, hf Vault.awaiting, hf Vault.acks⟩

theorem settled_foldl {α : Type} {f : State → α → State} (hf : ∀ s x, Settled s (f s x)) (l : List α) (s : State) :
    Settled s (l.foldl f s) :=
  List.foldlRecOn (motive := Settled s) l f (Settled.refl s) fun r h x _ => h.trans (hf r x)

theorem undoDesc_settled (s : State) (u : Nat × Bytes × Bytes) : Settled s (undoDesc s u) := by
  unfold undoDesc refreshDesc
  dsimp only
  split <;> exact ⟨rfl, rfl⟩

theorem undoBind_settled (s : State) (u : Nat × Option Nat × Option Nat) : Settled s (undoBind s u) := by
  unfold undoBind
  dsimp only
  split <;> exact ⟨rfl, rfl⟩

theorem dropGroups_settled (s : State) (gs : List Group) : Settled s (dropGroups s gs) := by
  have h (f g) : Settled s ((gs.reverse.flatMap (·.unbind)).foldl undoBind ((gs.reverse.flatMap (·.undo)).foldl undoDesc
      (tcDrop (dropLines s f) g))) :=
    ((show Settled s (tcDrop (dropLines s f) g) from ⟨rfl, rfl⟩).trans (settled_foldl undoDesc_settled _ _)).trans
      (settled_foldl undoBind_settled _ _)
  unfold dropGroups
  dsimp only
  split
  · exact (h _ _).trans ⟨rfl, rfl⟩
  · exact h _ _

theorem commitFailed_settled (st : Nat) (s : State) (t c : Nat) : Settled s (commitFailed s st t c) := by
  unfold commitFailed
  dsimp only
  split
  · exact ⟨by simp, by simp⟩
  · exact .refl s

theorem failGroups_settled (s : State) (gs : List Group) (st : Nat) : Settled s (failGroups s gs st) :=
  (dropGroups_settled s gs).trans (settled_foldl (fun a g => commitFailed_settled st a g.at_.1 g.at_.2) gs _)

/-! ## A commit step -/

theorem commitDone_frame (s : State) (t c n : Nat) : (commitDone s t c n).vault = s.vault ∧ (commitDone s t c n).dome = s.dome := by
  unfold commitDone
  dsimp only
  split
  · split <;> simp [State.setCtx]
  · exact ⟨rfl, rfl⟩

theorem commitsDone_frame (s : State) (gs : List Group) :
    (gs.foldl (fun a g => commitDone a g.at_.1 g.at_.2 g.lines.length) s).vault = s.vault ∧
    (gs.foldl (fun a g => commitDone a g.at_.1 g.at_.2 g.lines.length) s).dome = s.dome :=
  List.foldlRecOn (motive := fun (a : State) => a.vault = s.vault ∧ a.dome = s.dome) gs _ ⟨rfl, rfl⟩ fun a h _ _ =>
    ⟨(commitDone_frame a _ _ _).1.trans h.1, (commitDone_frame a _ _ _).2.trans h.2⟩

@[simp] theorem sealReady_frame (s : State) : (sealReady s).vault = s.vault ∧ (sealReady s).dome = s.dome := by
  unfold sealReady
  split
  · exact ⟨rfl, rfl⟩
  · exact List.foldlRecOn (motive := fun (a : State) => a.vault = s.vault ∧ a.dome = s.dome) _ _ ⟨rfl, rfl⟩ fun a h x _ => by simpa using h

/-- A detachment that is complete changes the state of the vault, its action and its groups. -/
theorem detachCheck_frame (s : State) : (detachCheck s).dome = s.dome ∧ (detachCheck s).vault.mem = s.vault.mem ∧
    (detachCheck s).vault.writing = s.vault.writing ∧ (detachCheck s).vault.batch = s.vault.batch ∧
    (detachCheck s).vault.retries = s.vault.retries := by
  unfold detachCheck
  split
  · have h := failGroups_settled (s.setVault { s.vault with st := 1, busy := 0, result := 0, hold := false, groups := [] })
      s.vault.groups stVaultUnreach
    simp only [raise_frame]
    obtain ⟨-, hm, hw, hb, hr, -⟩ := h.fields
    exact ⟨h.1, hm, hw, hb, hr⟩
  · exact ⟨rfl, rfl, rfl, rfl, rfl⟩

/-- A batch in step 1 that fails is being journalled no longer, and leaves the memory, the durable batch and the root slots. -/
theorem failBatch_frame (s : State) (b : Batch) (st : Nat) : (failBatch s b st).dome = s.dome ∧
    (failBatch s b st).vault.mem = s.vault.mem ∧ (failBatch s b st).vault.writing = none ∧
    (failBatch s b st).vault.batch = s.vault.batch := by
  have h := failGroups_settled (s.setVault { s.vault with writing := none }) b.groups st
  obtain ⟨-, hm', hw', hb', -⟩ := h.fields
  obtain ⟨hd, hm, hw, hb, -⟩ := detachCheck_frame (failGroups (s.setVault { s.vault with writing := none }) b.groups st)
  simp only [failBatch, sealReady_frame]
  exact ⟨hd.trans h.1, hm.trans hm', hw.trans hw', hb.trans hb'⟩

/-! ## The root slots (07 R239) -/

theorem committed_congr {s r : State} (h : r.dome = s.dome) : committed r = committed s := by
  rw [committed, committed, h]

theorem pendingSlot_congr {s r : State} (h : r.dome = s.dome) : pendingSlot r = pendingSlot s := by
  rw [pendingSlot, pendingSlot, h]

theorem pendingSlot_setPendingSlot (s : State) (r : RootSlot) : pendingSlot (setPendingSlot s r) = r := by
  unfold pendingSlot setPendingSlot
  cases s.dome.sel <;> rfl

theorem committed_setPendingSlot (s : State) (r : RootSlot) : committed (setPendingSlot s r) = committed s := by
  unfold committed setPendingSlot
  cases s.dome.sel <;> rfl

/-! ## BATCH_CLOSE (07 R236 to R239) -/

section Close

variable {s : State}

theorem exec_batchClose_idle (h : s.vault.writing.isSome = true ∨ s.vault.groups = [] ∨ s.vault.st ≠ 3 ∨ batchesHeld s = true) :
    exec .batchClose s = .next s :=
  if_pos (by simpa only [List.isEmpty_iff] using h)

/-- What the open batch gathers. -/
def openBatch (s : State) : Gathered := gather s 256 (baseImage s) s.vault.groups

/-- Others hold or write lines of a page that the open batch re-enciphers. -/
def batchWaits (s : State) : Bool :=
  (openBatch s).image.pages.any (fun pg => pageBusyBut s pg (lockSpan s pg) (s.vault.groups.flatMap groupKeys))

/-- A vault that can close its open batch. -/
structure Closes (s : State) : Prop where
  writing : s.vault.writing = none
  groups : s.vault.groups ≠ []
  st : s.vault.st = 3
  held : batchesHeld s = false

theorem exec_batchClose_waits (h : Closes s) (hw : batchWaits s = true) :
    exec .batchClose s = .next (s.setVault { s.vault with asked := (openBatch s).image.pages }) := by
  refine (if_neg ?_).trans (if_pos hw)
  simp [h.writing, h.groups, h.st, h.held]

/-- The slot of the open batch, its tag left open (07 R238, R239). -/
def batchSlot (s : State) (tag : Bytes) : RootSlot :=
  { (openBatch s).image.slot with
    valid := true, epoch := (baseImage s).slot.epoch + 1, seq := (baseImage s).slot.seq + 1
    off := journalNext (baseImage s).slot (openBatch s).image.chg.length, n := (openBatch s).image.chg.length, tag := tag }

/-- The batch that closes. -/
def closedBatch (s : State) (tag : Bytes) : Batch :=
  { groups := (openBatch s).ok, changed := (openBatch s).image.chg, slot := batchSlot s tag, pages := (openBatch s).image.pages }

/-- The state in which the batch's reads are checked. -/
def closing (s : State) (tag : Bytes) : State :=
  s.setVault { s.vault with groups := (openBatch s).rest, asked := [], writing := some (closedBatch s tag) }

/-- The Keep lines of the open batch. -/
def batchKeeps (s : State) : List (Nat × Nat) := ((openBatch s).ok.flatMap groupKeys).map (fun k => (keyPart k, keyIdx k))

/-- The state past the check of the batch's reads, in the Keep and in the memory. -/
def batchRead (s : State) (tag : Bytes) : State :=
  (windowMove (engineKeep (closing s tag) false (batchKeeps s)).1 false (batchReads s (openBatch s).image)).1

theorem batchRead_frame (s : State) (tag : Bytes) : (batchRead s tag).vault = (closing s tag).vault ∧ (batchRead s tag).dome = s.dome ∧
    (batchRead s tag).keep = s.keep := by
  simp [batchRead, closing, State.setVault]

theorem exec_batchClose_closes (h : Closes s) (hw : batchWaits s = false) (hbad : (openBatch s).bad = []) (hok : (openBatch s).ok ≠ [])
    (hk : (journalKeys s (openBatch s).image.slot).isSome = true) : ∃ tag, exec .batchClose s = .next
      (if (engineKeep s false (batchKeeps s)).2 && (windowCheck s false (batchReads s (openBatch s).image)).2 then batchRead s tag
        else failBatch (batchRead s tag) (closedBatch s tag) stVaultUnreach) := by
  obtain ⟨⟨k1, k2, mac⟩, hk⟩ := Option.isSome_iff_exists.1 hk
  have he : (openBatch s).ok.isEmpty = false := by simpa using hok
  let body := journalBody k1 k2 ((baseImage s).slot.seq + 1) (openBatch s).image.chg
  let tag := (journalHead mac (baseImage s).slot.root (openBatch s).image.chg.length ((baseImage s).slot.seq + 1)
    ((baseImage s).slot.epoch + 1) body).2
  refine ⟨tag, ?_⟩
  have hfst : ¬ (s.vault.writing.isSome = true ∨ s.vault.groups.isEmpty = true ∨ s.vault.st ≠ 3 ∨ batchesHeld s = true) := by
    simp [h.writing, h.groups, h.st, h.held]
  refine (if_neg hfst).trans ((if_neg (ne_true_of_eq_false hw)).trans ?_)
  rw [openBatch] at hk he hbad
  simp only [hk, he, hbad]
  have hwr : (batchRead s tag).vault.writing = some (closedBatch s tag) := congrArg Vault.writing (batchRead_frame s tag).1
  rw [← engineKeep_congr (s := s) (r := closing s tag) rfl rfl rfl, ← windowCheck_congr (s := s)
    (r := (engineKeep (closing s tag) false (batchKeeps s)).1) (by simp [closing, State.setVault]) (by simp [closing, State.setVault])
    (by simp [closing, State.setVault])]
  refine congrArg Host.Outcome.next ?_
  simp only [List.foldl_nil]
  split
  · next b hb =>
    obtain rfl : b = closedBatch s tag := Option.some.inj (hb.symm.trans hwr)
    rfl
  · next hb => exact absurd (hwr.symm.trans hb) (Option.some_ne_none _)

end Close

/-! ## JOURNAL_WRITTEN (07 R239, R240) -/

section Journal

variable {s : State} {b : Batch} {failed : Bool}

/-- Every access of a commit step is allowed: the lines that it writes, then the root slot. -/
def stepAllowed (s : State) (ws : List Nat) : Bool := (writeCheck s ws).2 && (rootAccess (writeCheck s ws).1 true).2

@[simp] theorem logVaultError_frame (s : State) : (logVaultError s).vault = s.vault ∧ (logVaultError s).dome = s.dome ∧
    (logVaultError s).keep = s.keep ∧ (logVaultError s).towers = s.towers ∧ (logVaultError s).jobs = s.jobs := by
  simp [logVaultError, logAer]

theorem exec_journalWritten_idle (h : s.vault.writing = none ∨ s.vault.batch.isSome = true) :
    exec (.journalWritten failed) s = .next s := by
  change execJournalWritten failed s = .next s
  unfold execJournalWritten
  split
  · next hw hb => simp [hw, hb] at h
  · rfl

/-- A step one of whose accesses fails, or is refused, as the engine finds it. -/
theorem stepFails {ws : List Nat} (h : failed = true ∨ stepAllowed s ws = false) : (failed || !((writeCheck s ws).2 &&
    (if (failed || !(writeCheck s ws).2) = true then ((writeCheck s ws).1, (writeCheck s ws).2)
      else rootAccess (writeCheck s ws).1 true).2)) = true := by
  rw [stepAllowed] at h
  cases failed with
  | true => rfl
  | false => cases hx : (writeCheck s ws).2 <;> simp_all

theorem exec_journalWritten_fails (hw : s.vault.writing = some b) (hb : s.vault.batch = none)
    (h : failed = true ∨ stepAllowed s ((journalLines s b).map (·.1)) = false) :
    ∃ r, exec (.journalWritten failed) s = .next (failBatch r b stVaultUnreach) ∧ r.vault.mem = s.vault.mem ∧ r.dome = s.dome := by
  change ∃ r, execJournalWritten failed s = _ ∧ _
  unfold execJournalWritten
  simp only [hw, hb]
  refine ⟨_, if_pos (stepFails h), ?_, ?_⟩ <;> split <;> split <;> simp

theorem exec_journalWritten_done (hw : s.vault.writing = some b) (hb : s.vault.batch = none)
    (h : stepAllowed s ((journalLines s b).map (·.1)) = true) : ∃ r, exec (.journalWritten false) s = .next r ∧
    r.vault.batch = some b ∧ r.vault.writing = none ∧ r.dome = (setPendingSlot s b.slot).dome := by
  change ∃ r, execJournalWritten false s = _ ∧ _
  unfold execJournalWritten
  rw [stepAllowed, Bool.and_eq_true] at h
  obtain ⟨hx, hy⟩ := h
  simp only [hw, hb, hx, hy, Bool.false_or, Bool.not_true, Bool.and_self, Bool.false_eq_true, if_false]
  refine ⟨_, rfl, ?_⟩
  rw [(commitsDone_frame _ _).1, (commitsDone_frame _ _).2]
  refine ⟨rfl, rfl, ?_⟩
  simp [commitStep, moveLines, setPendingSlot, putMem, State.setVault, State.setLinesTbl]

end Journal

/-! ## HOME_APPLIED and APPLY_RETRY (07 R239, R240) -/

section Home

variable {s : State} {b : Batch}

theorem committed_commitHome (s : State) (b : Batch) : committed (commitHome s b) = pendingSlot s := by
  rw [commitHome, committed_setPendingSlot]
  unfold committed pendingSlot putMem State.setVault
  cases s.dome.sel <;> rfl

theorem pendingSlot_commitHome (s : State) (b : Batch) : (pendingSlot (commitHome s b)).valid = false := by
  rw [commitHome, pendingSlot_setPendingSlot]

theorem applyHome_frame (s : State) (b : Batch) : (applyHome s b).dome = (commitHome s b).dome ∧ (applyHome s b).vault.batch = none ∧
    (applyHome s b).vault.retries = s.vault.retries := by
  obtain ⟨hd, -, -, hb, hr⟩ := detachCheck_frame (moveLines (commitStep (commitHome s b)) b.groups .durable .clean)
  simp only [applyHome, sealReady_frame]
  exact ⟨hd, hb, hr⟩

theorem tryHome_fails {failed : Bool} (h : failed = true ∨ stepAllowed s (b.changed.map (·.1)) = false) :
    ∃ r : State, tryHome s b failed = r.setVault { r.vault with batch := some { b with failed := true, retry := 0 } } ∧ r.dome = s.dome ∧
      r.vault = s.vault := by
  simp only [tryHome]
  refine ⟨_, if_pos (stepFails h), ?_, ?_⟩ <;> split <;> split <;> simp

theorem tryHome_done (h : stepAllowed s (b.changed.map (·.1)) = true) :
    ∃ r, tryHome s b false = applyHome r b ∧ r.dome = s.dome ∧ r.vault = s.vault := by
  rw [stepAllowed, Bool.and_eq_true] at h
  obtain ⟨hx, hy⟩ := h
  exact ⟨(rootAccess (writeCheck s (b.changed.map (·.1))).1 true).1, by simp [tryHome, hx, hy], by simp, by simp⟩

theorem tryHome_retries (s : State) (b : Batch) (failed : Bool) : (tryHome s b failed).vault.retries = s.vault.retries := by
  by_cases h : failed = true ∨ stepAllowed s (b.changed.map (·.1)) = false
  · obtain ⟨r, hr, -, hv⟩ := tryHome_fails h
    rw [hr]
    exact (congrArg Vault.retries hv : r.vault.retries = s.vault.retries)
  · obtain ⟨hf, ha⟩ := not_or.1 h
    obtain ⟨r, hr, -, hv⟩ := tryHome_done (eq_true_of_ne_false ha)
    rw [eq_false_of_ne_true hf, hr, (applyHome_frame r b).2.2, hv]

end Home

/-! ## The actions of VAULT_CTRL (07 R255) -/

section Control

variable {s : State}

theorem exec_vaultCreate_busy (hp : pageShut s pgVault = false) (h : s.vault.st ≠ 0) : exec .vaultCreate s = .next (ctrlResult s 1) :=
  (if_neg (ne_true_of_eq_false hp)).trans (if_pos h)

theorem exec_vaultCreate_geometry (hp : pageShut s pgVault = false) (h : s.vault.st = 0) (hg : geometryOk s = false) :
    exec .vaultCreate s = .next (ctrlResult s 2) :=
  (if_neg (ne_true_of_eq_false hp)).trans ((if_neg (not_not.2 h)).trans (if_pos (by rw [hg]; rfl)))

/-- The slot of a new vault: its VAULT_ID is a free value, and its root is zero. -/
def newSlot (s : State) (d id : Bytes) : RootSlot :=
  { valid := true, vaultId := id, p := s.vault.p, j := s.vault.j, set0 := { dmkId := dmkId d }, root := zeros 64 }

theorem exec_vaultCreate_keyed (hp : pageShut s pgVault = false) (h : s.vault.st = 0) (hg : geometryOk s = true) {d : Bytes}
    (hd : s.dome.cur = some d) : ∃ r : State, r.vault = s.vault ∧ exec .vaultCreate s = .next
      (if !(rootAccess s true).2 then ctrlResult (rootAccess s true).1 4 else ctrlResult (r.setVault { r.vault with
        st := 3, journalLost := false, nextReady := false, rekey := none, mem := [], meta_ := [], descs := [] }) 0) ∧
      ∃ id, r.dome.slots = (newSlot s d id, {}) ∧ r.dome.sel = false := by
  change ∃ r : State, _ ∧ execVaultCreate s = _ ∧ _
  unfold execVaultCreate
  rw [if_neg (ne_true_of_eq_false hp), if_neg (not_not.2 h), if_neg (by simp [hg]), hd]
  refine ⟨_, ?_, rfl, _, rfl, rfl⟩
  exact (rootAccess_frame s true).1

theorem exec_vaultAttach_state (hp : pageShut s pgVault = false) (h : s.vault.st ≠ 1) : exec .vaultAttach s = .next (ctrlResult s 1) :=
  (if_neg (ne_true_of_eq_false hp)).trans (if_pos h)

theorem exec_vaultAttach_begins (hp : pageShut s pgVault = false) (h : s.vault.st = 1) (hg : geometryOk s = true)
    (hpp : s.vault.p = (committed s).p) (hj : s.vault.j = (committed s).j) (hd : (dmkById s (committed s).curSet.dmkId).isSome = true) :
    exec .vaultAttach s = .next (s.setVault { s.vault with st := 2, busy := 1 }) :=
  (if_neg (ne_true_of_eq_false hp)).trans ((if_neg (not_not.2 h)).trans ((if_neg (by simp [hg, ← hpp, ← hj])).trans
    (if_neg (by simpa [Option.isSome_iff_ne_none] using hd))))

theorem exec_vaultDetach_state (hp : pageShut s pgVault = false) (h : (s.vault.st ≠ 3 ∧ s.vault.st ≠ 4) ∨ s.vault.busy ≠ 0) :
    exec .vaultDetach s = .next (ctrlResult s 1) :=
  (if_neg (ne_true_of_eq_false hp)).trans (if_pos h)

theorem exec_vaultDetach_begins (hp : pageShut s pgVault = false) (h : s.vault.st = 3 ∨ s.vault.st = 4) (hb : s.vault.busy = 0) :
    exec .vaultDetach s = .next (detachCheck (s.setVault { s.vault with busy := 2, hold := true })) :=
  (if_neg (ne_true_of_eq_false hp)).trans (if_neg (by rintro (⟨h3, h4⟩ | hne) <;> simp_all))

/-- A detachment with nothing in flight is complete at once. -/
theorem detachCheck_st (hb : s.vault.busy = 2) (hw : s.vault.writing = none) (hd : s.vault.batch = none) :
    (detachCheck s).vault.st = 1 := by
  rw [detachCheck, if_pos ⟨hb, by simp [hw], by simp [hd]⟩]
  simp only [raise_frame]
  exact (failGroups_settled _ _ _).fields.1

theorem attachFails_busy (s : State) : (attachFails s).vault.busy = 0 := by simp [attachFails, ctrlResult, State.setVault]

theorem exec_ctrlDone_attach (mem : List (Nat × Bytes)) (h : s.vault.busy = 1) :
    ∃ r, exec (.ctrlDone mem) s = .next r ∧ r.vault.busy = 0 := by
  change ∃ r, execCtrlDone mem s = _ ∧ _
  unfold execCtrlDone
  simp only [h]
  refine ⟨_, rfl, ?_⟩
  split
  · exact attachFails_busy _
  · split
    · exact attachFails_busy _
    · simp [ctrlResult, State.setVault]

end Control

/-- Settles O57: each command's fates are those of the laws above. -/
theorem batchesCommitInJournalOrder : Obligations.BatchesCommitInJournalOrder := by
  unfold Obligations.BatchesCommitInJournalOrder
  intro s
  refine ⟨exec_batchClose_idle, fun hw hg hs hh => ?close, fun failed b hw hb => ?journal, fun h failed => exec_journalWritten_idle h,
    fun failed b hb => ?home, fun hp => ?control, fun mem h => ?idle, fun mem h => exec_ctrlDone_attach mem h⟩
  case close =>
    have hc : Closes s := ⟨hw, hg, hs, hh⟩
    intro g own
    have hwaits : (∀ pg ∈ g.image.pages, pageBusyBut s pg (lockSpan s pg) own = false) → batchWaits s = false := fun h =>
      List.any_eq_false.2 fun pg hpg => ne_true_of_eq_false (h pg hpg)
    refine ⟨fun h => exec_batchClose_waits hc (List.any_eq_true.2 h), fun hf hbad hok hk hr hv => ?_, fun hf hbad hok hk hr => ?_⟩
    · obtain ⟨tag, hx⟩ := exec_batchClose_closes hc (hwaits hf) hbad hok hk
      obtain ⟨hvault, hdome, hkeep⟩ := batchRead_frame s tag
      refine ⟨batchRead s tag, closedBatch s tag, hx.trans (congrArg Host.Outcome.next (if_pos (Bool.and_eq_true_iff.2 ⟨hr, hv⟩))), ?_⟩
      rw [hvault]
      exact ⟨rfl, rfl, rfl, rfl, rfl, rfl, rfl, hdome, hkeep⟩
    · obtain ⟨tag, hx⟩ := exec_batchClose_closes hc (hwaits hf) hbad hok hk
      obtain ⟨hd, -, hwr, -⟩ := failBatch_frame (batchRead s tag) (closedBatch s tag) stVaultUnreach
      exact ⟨_, hx.trans (congrArg Host.Outcome.next (if_neg (ne_true_of_eq_false hr))), hwr,
        committed_congr (hd.trans (batchRead_frame s tag).2.1)⟩
  case journal =>
    intro x w
    refine ⟨fun h => ?_, fun hf h => ?_⟩
    · obtain ⟨r, hx, hm, hd⟩ := exec_journalWritten_fails hw hb h
      obtain ⟨hd', hm', hwr, -⟩ := failBatch_frame r b stVaultUnreach
      exact ⟨_, hx, hwr, committed_congr (hd'.trans hd), pendingSlot_congr (hd'.trans hd), hm'.trans hm⟩
    · subst hf
      obtain ⟨r, hx, hbt, hwr, hd⟩ := exec_journalWritten_done hw hb h
      exact ⟨r, hx, hbt, hwr, (pendingSlot_congr hd).trans (pendingSlot_setPendingSlot _ _),
        (committed_congr hd).trans (committed_setPendingSlot _ _)⟩
  case home =>
    have hrun (f : Bool) (hf : b.failed = false) : exec (.homeApplied f) s = .next (tryHome s b f) := by
      change execHomeApplied f s = _
      simp [execHomeApplied, hb, hf]
    have hretry : exec (.applyRetry failed) s = if b.failed = true ∧ b.retry ≥ 2 ^ 20 then
        .next (tryHome (raise (s.setVault { s.vault with retries := satAdd 32 s.vault.retries 1 }) pgVault 6) b failed) else .next s := by
      change execApplyRetry failed s = _
      simp only [execApplyRetry, hb]
    intro x w
    refine ⟨fun hf h => ?_, fun hf hf' h => ?_, fun h => hretry.trans (if_neg h), fun hf h => ⟨_, hretry.trans (if_pos ⟨hf, h⟩), ?_⟩⟩
    · obtain ⟨r, hx, hd, hv⟩ := tryHome_fails (b := b) h
      exact ⟨_, hrun failed hf, by rw [hx]; exact hd, by rw [hx]; rfl⟩
    · subst hf'
      obtain ⟨r, hx, hd, hv⟩ := tryHome_done (b := b) h
      obtain ⟨hdome, hbatch, -⟩ := applyHome_frame r b
      refine ⟨_, hrun false hf, ?_⟩
      rw [hx, committed_congr hdome, pendingSlot_congr hdome, committed_commitHome]
      exact ⟨hbatch, pendingSlot_congr hd, pendingSlot_commitHome r b⟩
    · rw [tryHome_retries]
      simp [State.setVault]
  case control =>
    refine ⟨exec_vaultCreate_busy hp, exec_vaultCreate_geometry hp, fun h hg hd ha => ?refused, fun h hg hd ha => ?created,
      exec_vaultAttach_state hp, exec_vaultAttach_begins hp, exec_vaultDetach_state hp, fun h hb hw hbt hg =>
      ⟨_, exec_vaultDetach_begins hp h hb, detachCheck_st rfl hw hbt⟩⟩
    case refused =>
      obtain ⟨d, hd⟩ := Option.isSome_iff_exists.1 hd
      obtain ⟨r, -, hx, -⟩ := exec_vaultCreate_keyed hp h hg hd
      exact hx.trans (congrArg Host.Outcome.next (if_pos (by rw [ha]; rfl)))
    case created =>
      obtain ⟨d, hd⟩ := Option.isSome_iff_exists.1 hd
      obtain ⟨r, hv, hx, id, hslots, hsel⟩ := exec_vaultCreate_keyed hp h hg hd
      refine ⟨_, hx.trans (congrArg Host.Outcome.next (if_neg (by rw [ha]; exact Bool.false_ne_true))), ?_⟩
      simp [ctrlResult, State.setVault, committed, hslots, hsel, newSlot]
  case idle =>
    change execCtrlDone mem s = _
    simp only [execCtrlDone, h]

end Sys2Proof.Machine

/-! SUPPORT. Witnesses (07 R246, R247): the slot that a record takes, what the answer of a witness changes, and the mirror; from these
follows the statement about the witness slots. -/

namespace Sys2Proof.Machine

/-! ## The slots of a witness (07 R247) -/

theorem leVal_lt (b : Bytes) : leVal b < 256 ^ b.length := by
  induction b with
  | nil => exact Nat.one_pos
  | cons x b ih =>
    have hx : x.toNat < 256 := x.isLt
    rw [leVal, List.length_cons, Nat.pow_succ]
    omega

theorem leAt_lt (b : Bytes) (off len : Nat) : leAt b off len < 256 ^ len :=
  (leVal_lt _).trans_le (Nat.pow_le_pow_right (by decide) (List.length_take_le ..))

section Slots

variable {l : List Bytes} {b : Bytes}

theorem findIdx_none (h : ∀ x ∈ l, x.take 8 ≠ b.take 8) : l.findIdx? (fun x => x.take 8 == b.take 8) = none :=
  List.findIdx?_eq_none_iff.2 fun x hx => beq_eq_false_iff_ne.2 (h x hx)

theorem storeWitness_free (h : ∀ x ∈ l, x.take 8 ≠ b.take 8) (hl : l.length < 64) : storeWitness l b = l ++ [b] := by
  rw [storeWitness, findIdx_none h]
  exact if_pos hl

/-- A record that no slot names takes the slot with the oldest Reel second where none is free. -/
theorem storeWitness_full (h : ∀ x ∈ l, x.take 8 ≠ b.take 8) (hl : l.length = 64) : ∃ i, i < 64 ∧ storeWitness l b = l.set i b ∧
    ∀ j, j < 64 → leAt (l.getD i []) 10 6 ≤ leAt (l.getD j []) 10 6 := by
  cases hb : bestBy (fun i => 2 ^ 48 - leAt (l.getD i []) 10 6) (List.range l.length) with
  | none => simpa [hl] using eq_nil_of_bestBy_none hb
  | some i =>
    obtain ⟨p, r, hr, hp, hq⟩ := bestBy_split hb
    have hmem (j : Nat) : j < 64 ↔ j ∈ p ∨ j = i ∨ j ∈ r := by
      rw [← hl, ← List.mem_range, hr, List.mem_append, List.mem_cons]
    refine ⟨i, (hmem i).2 (.inr (.inl rfl)), ?_, fun j hj => ?_⟩
    · rw [storeWitness, findIdx_none h]
      simp only [hl, hl ▸ hb, lt_irrefl, if_false]
    · have hi : leAt (l.getD i []) 10 6 < 2 ^ 48 := leAt_lt _ _ _
      have hle : 2 ^ 48 - leAt (l.getD j []) 10 6 ≤ 2 ^ 48 - leAt (l.getD i []) 10 6 := by
        rcases (hmem j).1 hj with hj | rfl | hj
        · exact (hp j hj).le
        · exact le_rfl
        · exact hq j hj
      omega

/-- A record of a VAULT_ID that a slot holds is newer than it: by EPOCH, where its own owner may repeat one. -/
def witnessNewer (x b : Bytes) : Prop := if leAt x 8 2 = leAt b 8 2 then leAt x 16 8 ≤ leAt b 16 8 else leAt x 16 8 < leAt b 16 8

theorem storeWitness_held {i : Nat} (h : i < l.length) (hi : l[i].take 8 = b.take 8) (hf : ∀ j, (g : j < i) → l[j].take 8 ≠ b.take 8) :
    (witnessNewer l[i] b → storeWitness l b = l.set i b) ∧ (¬ witnessNewer l[i] b → storeWitness l b = l) := by
  have hfind : l.findIdx? (fun x => x.take 8 == b.take 8) = some i :=
    List.findIdx?_eq_some_iff_getElem.2 ⟨h, beq_iff_eq.2 hi, fun j hj => by simpa using hf j hj⟩
  have hget : l.getD i [] = l[i] := List.getD_eq_getElem _ _ h
  unfold witnessNewer storeWitness
  simp only [hfind, hget]
  split <;> simp +contextual

end Slots

/-! ## A record arrives (07 R247; 13 R384) -/

section Record

theorem storeWitness_length (l : List Bytes) (b : Bytes) : l.length ≤ (storeWitness l b).length ∧ (storeWitness l b).length ≤ l.length + 1 := by
  unfold storeWitness
  dsimp only
  split
  · split <;> split <;> simp
  · split
    · simp
    · split <;> simp

/-- The slot that the write of a record is checked for is one of those that the record can take. -/
theorem writtenSlot_le {l : List Bytes} {b : Bytes} {i : Nat}
    (h : (List.range (storeWitness l b).length).find? (fun i => (storeWitness l b)[i]? != l[i]?) = some i) : i ≤ l.length := by
  have hi := List.mem_range.1 (List.mem_of_find?_eq_some h)
  have hl := (storeWitness_length l b).2
  omega

/-- Where no slot changes, the slots stand. -/
theorem storeWitness_same {l : List Bytes} {b : Bytes}
    (h : (List.range (storeWitness l b).length).find? (fun i => (storeWitness l b)[i]? != l[i]?) = none) : storeWitness l b = l := by
  refine List.ext_getElem? fun i => ?_
  by_cases hi : i < (storeWitness l b).length
  · simpa using List.find?_eq_none.1 h i (List.mem_range.2 hi)
  · have hl := (storeWitness_length l b).1
    rw [List.getElem?_eq_none (by omega), List.getElem?_eq_none (by omega)]

variable {s : State} {b : Bytes}

theorem writeWitness_allowed (h : ∀ i, i ≤ s.dome.witness.length → intRefusal s 5 true (domeWitness + 64 * i) = none) :
    writeWitness s b = { s with dome := { s.dome with witness := storeWitness s.dome.witness b } } := by
  unfold writeWitness
  dsimp only
  split
  · rfl
  · next i hi => rw [intCheck_ok, h i (writtenSlot_le hi), Option.isNone_none, if_pos rfl]

theorem writeWitness_refused (h : ∀ i, i ≤ s.dome.witness.length → intRefusal s 5 true (domeWitness + 64 * i) ≠ none) :
    (writeWitness s b).dome = s.dome := by
  unfold writeWitness
  dsimp only
  split
  · next hi => rw [storeWitness_same hi]
  · next i hi =>
    rw [intCheck_ok, if_neg (by simpa using h i (writtenSlot_le hi))]
    simp

end Record

/-! ## A witness answers, and the mirror (07 R246, R247) -/

theorem shortMirror_frame (s : State) : (shortMirror s).dome = s.dome ∧ (shortMirror s).reel = s.reel ∧
    (shortMirror s).vault = { s.vault with short := true, shorts := satAdd 16 s.vault.shorts 1 } := by
  simp [shortMirror]

/-- What the end of a mirror leaves: all but its counts of short mirrors. -/
theorem mirrorSettle_frame (s : State) : (mirrorSettle s).dome = s.dome ∧ (mirrorSettle s).reel = s.reel ∧
    (mirrorSettle s).vault.st = s.vault.st ∧ (mirrorSettle s).vault.awaiting = s.vault.awaiting ∧
    (mirrorSettle s).vault.acks = s.vault.acks := by
  unfold mirrorSettle
  split
  · exact ⟨rfl, rfl, rfl, rfl, rfl⟩
  · split
    · obtain ⟨hd, hr, hv⟩ := shortMirror_frame s
      rw [hd, hr, hv]
      exact ⟨rfl, rfl, rfl, rfl, rfl⟩
    · exact ⟨rfl, rfl, rfl, rfl, rfl⟩

theorem witnessAnswer_frame (got : Bool) (s : State) (w : Nat) : (witnessAnswer got s w).dome = s.dome ∧
    (witnessAnswer got s w).reel = s.reel ∧ (witnessAnswer got s w).vault.st = s.vault.st := by
  unfold witnessAnswer
  dsimp only
  split
  · exact ⟨rfl, rfl, rfl⟩
  · split
    · exact ⟨rfl, rfl, rfl⟩
    · exact ⟨(mirrorSettle_frame _).1, (mirrorSettle_frame _).2.1, (mirrorSettle_frame _).2.2.1⟩

theorem witnessAnswer_awaited {s : State} {w : Nat} (h : w ∈ s.vault.awaiting) (hf : w ∉ s.vault.fences) :
    (witnessAnswer true s w).vault.awaiting = s.vault.awaiting.erase w ∧ (witnessAnswer true s w).vault.acks = min 2 (s.vault.acks + 1) := by
  unfold witnessAnswer
  dsimp only
  rw [if_neg (by simpa using hf), if_neg (by simpa using h), if_pos rfl]
  exact (mirrorSettle_frame _).2.2.2

@[simp] theorem sealWaiters_frame (s : State) : (sealWaiters s).vault = s.vault ∧ (sealWaiters s).dome = s.dome := by
  unfold sealWaiters
  split
  · exact ⟨rfl, rfl⟩
  · exact List.foldlRecOn (motive := fun (a : State) => a.vault = s.vault ∧ a.dome = s.dome) _ _ ⟨rfl, rfl⟩ fun a h x _ => by simpa using h

/-- A vault that is fenced keeps what its mirror awaits. -/
theorem fenceVault_frame (s : State) : (fenceVault s).vault.st = 4 ∧ (fenceVault s).vault.awaiting = s.vault.awaiting ∧
    (fenceVault s).vault.acks = s.vault.acks := by
  unfold fenceVault
  simp only [raise_frame]
  obtain ⟨hst, -, -, -, -, haw, hac⟩ := (failGroups_settled (s.setVault { s.vault with st := 4, groups := [], writing := none, asked := [] })
    (((s.vault.writing.map (·.groups)).getD []) ++ s.vault.groups) stVaultUnreach).fields
  exact ⟨hst, haw, hac⟩

/-- The answer fences the vault: it names another owner, or an EPOCH above this device's own. -/
abbrev Fences (s : State) (owner epoch : Nat) : Prop := s.vault.st = 3 ∧ (owner ≠ s.reel.addr ∨ epoch > (committed s).epoch)

theorem takeWitnessAck_eq (src owner epoch : Nat) (s : State) : takeWitnessAck src owner epoch s = sealWaiters
    (if Fences s owner epoch then fenceVault (witnessAnswer true s src) else witnessAnswer true s src) := by
  obtain ⟨hd, hr, hs⟩ := witnessAnswer_frame true s src
  rw [takeWitnessAck, hs, hr, committed_congr hd]

theorem takeWitnessAck_st (src owner epoch : Nat) (s : State) :
    (takeWitnessAck src owner epoch s).vault.st = if Fences s owner epoch then 4 else s.vault.st := by
  rw [takeWitnessAck_eq, (sealWaiters_frame _).1]
  split
  · exact (fenceVault_frame _).1
  · exact (witnessAnswer_frame true s src).2.2

theorem takeWitnessAck_awaited {src owner epoch : Nat} {s : State} (h : src ∈ s.vault.awaiting) (hf : src ∉ s.vault.fences) :
    (takeWitnessAck src owner epoch s).vault.awaiting = s.vault.awaiting.erase src ∧
    (takeWitnessAck src owner epoch s).vault.acks = min 2 (s.vault.acks + 1) := by
  rw [takeWitnessAck_eq, (sealWaiters_frame _).1]
  split
  · rw [(fenceVault_frame _).2.1, (fenceVault_frame _).2.2]
    exact witnessAnswer_awaited h hf
  · exact witnessAnswer_awaited h hf

/-- A mirror that begins while answers of the last one are missing was short; with every witness in reach it stays so until they answer. -/
theorem mirror_short {s : State} (h : s.vault.awaiting ≠ []) (hw : downstream s ≠ []) (hp : ∀ w ∈ downstream s, (portTo s w).isSome = true) :
    (mirror s).vault.short = true := by
  have hnone : (downstream s).filter (fun w => (portTo s w).isNone) = [] := by
    refine List.filter_eq_nil_iff.2 fun w hm => ?_
    rw [← Option.not_isSome, hp w hm]
    exact Bool.false_ne_true
  have hsend (rec_ : Bytes) (r : State) : ((downstream s).foldl (fun a w => sendTo a 0 0x06 w rec_) r).vault = r.vault :=
    List.foldlRecOn (motive := fun (a : State) => a.vault = r.vault) _ _ rfl fun a h w _ => (sendTo_sameUnits a 0 0x06 w rec_).vault.trans h
  unfold mirror
  dsimp only
  rw [hnone, List.foldl_nil, (sealWaiters_frame _).1, if_neg (by simpa using hw), hsend, if_neg (by simpa using h)]
  exact congrArg Vault.short (shortMirror_frame s).2.2

/-- Settles O58: the slots, the write of a record, its answer and the mirror are those of the laws above. -/
theorem witnessSlotsFenceOlderOwners : Obligations.WitnessSlotsFenceOlderOwners := by
  unfold Obligations.WitnessSlotsFenceOlderOwners
  refine ⟨fun l b => ⟨storeWitness_free, storeWitness_full, fun i h hi hf => ?slots⟩, fun s h record => ?arrives,
    fun s s1 h record hh hd => ?stored, fun s s1 h owner epoch hh hd => ⟨_, rfl, ?answered⟩, fun s => mirror_short⟩
  case slots =>
    obtain ⟨hnew, hold⟩ := storeWitness_held h hi hf
    refine ⟨fun ho he => hnew ?_, fun ho he => hnew ?_, fun ho he => hold ?_, fun ho he => hold ?_⟩
    · rwa [witnessNewer, if_pos ho]
    · rwa [witnessNewer, if_neg ho]
    · rw [witnessNewer, if_pos ho]
      exact Nat.not_le.2 he
    · rw [witnessNewer, if_neg ho]
      exact Nat.not_lt.2 he
  case arrives => rfl
  case stored =>
    have hrun : exec (.witnessRec h record) s = .next (takeWitness h.src record s1) :=
      congrArg Host.Outcome.next (receive_here hh hd _ _ _)
    refine ⟨fun ha => ?_, fun hr => ⟨_, hrun, ?_⟩⟩
    · rw [hrun, takeWitness, writeWitness_allowed ha]
    · exact (sendTo_sameUnits _ _ _ _ _).dome.trans (writeWitness_refused hr)
  case answered =>
    rw [receive_here hh hd, takeWitnessAck_st]
    exact ⟨fun hf => if_pos hf, fun hf => if_neg hf, takeWitnessAck_awaited⟩

end Sys2Proof.Machine

/-! SUPPORT. The vault's jobs (07 R242 to R244, R248, R249): one law for each fate of a job's step, of PAGE_LOCK, of VAULT_SEAL_ROOT and of
VAULT_ADOPT; from these follows the statement about the vault's jobs. -/

namespace Sys2Proof.Machine

/-! ## The work of a context -/

theorem modWork_work {s : State} {t c : Nat} (h : s.ctx t c ≠ {}) (f : Work → Work) :
    ((modWork s t c f).ctx t c).work = f (s.ctx t c).work := by
  obtain ⟨ht, hc⟩ := State.ctx_exists h
  rw [modWork, State.ctx_setCtx_same _ _ _ _ ht hc]

theorem ctx_ne_of_atFigure {s : State} {t c op : Nat} (h : atFigure s t c op = true) : s.ctx t c ≠ {} := by
  obtain ⟨-, -, -, ⟨k, hk⟩, -⟩ := atFigure_call h
  intro he
  rw [he] at hk
  cases hk

/-! ## VAULT_REKEY (07 R243) -/

section Rekey

variable {s : State} {t c : Nat}

/-- The target of a rekey. -/
abbrev rekeyTarget (s : State) (t c : Nat) : Nat := par (workDesc s t c) 64

/-- What a rekey refuses. -/
abbrev RekeyRefused (s : State) (t c : Nat) : Prop :=
  s.vault.st ≠ 3 ∨ rekeyRuns s t c = true ∨ s.vault.rekey.any (· != rekeyTarget s t c) = true ∨
    (rekeyTarget s t c = 1 ∧ s.dome.next = none)

/-- The walk of a rekey begins: its pages are those of the geometry. -/
def rekeyWalk (s r : State) (t c : Nat) : State :=
  modWork r t c (fun w => { w with phase := 1, total := geoP (committed s).p / 64, vals := [0, 0] })

/-- The key set that a rekey adds. -/
def rekeySet (s : State) (t c : Nat) : KeySet :=
  if rekeyTarget s t c = 1 then { dmkId := (s.dome.next.map dmkId).getD [] }
  else { dmkId := (s.dome.cur.map dmkId).getD [], gen := (baseImage s).slot.curSet.gen + 1 }

theorem rekeyStep_first (h : (s.ctx t c).work.phase = 0) : rekeyStep t c s =
    if RekeyRefused s t c then finishCall s t c stBadParam 39 0 []
    else if s.vault.rekey = some (rekeyTarget s t c) then setNeeds (rekeyWalk s s t c) t c [.page]
    else passGroup (modWork (s.setVault { s.vault with rekey := some (rekeyTarget s t c) }) t c (fun w => { w with phase := 9 })) t c
      { sets := .add (rekeySet s t c) } [] (goOn, 39, 0, []) := by
  simp only [rekeyStep, h, RekeyRefused, Option.isNone_iff_eq_none]
  rfl

theorem rekeyStep_added (h : (s.ctx t c).work.phase = 9) : rekeyStep t c s = setNeeds (rekeyWalk s
    (s.setVault { s.vault with nextReady := s.vault.nextReady && rekeyTarget s t c == 1 }) t c) t c [.page] := by
  simp only [rekeyStep, h]
  rfl

theorem rekeyStep_walked (h : (s.ctx t c).work.phase = 1) : rekeyStep t c s =
    passGroup (modWork s t c (fun w => { w with phase := 2 })) t c { sets := .drop } [] (goOn, 39, 0, []) := by
  simp only [rekeyStep, h]

theorem rekeyStep_dropped (h : (s.ctx t c).work.phase = 2) : rekeyStep t c s =
    finishFree (s.setVault { s.vault with rekey := none, nextReady := rekeyTarget s t c == 1 }) t c stOk
      (leBytes 8 (workVal s t c 0) ++ leBytes 8 (workVal s t c 1)) := by
  simp only [rekeyStep, h]

theorem rekeyWalk_total {r : State} (h : r.ctx t c ≠ {}) : ((rekeyWalk s r t c).ctx t c).work.total = geoP (committed s).p / 64 := by
  rw [rekeyWalk, modWork_work h]

end Rekey

/-! ## VAULT_SCRUB (07 R244) -/

section Scrub

variable {s : State} {t c : Nat}

/-- A scrub's range is empty or goes beyond P. -/
abbrev BadRange (s : State) (t c : Nat) : Prop := leAt (workDesc s t c) 72 8 = 0 ∨
  leAt (workDesc s t c) 64 8 + leAt (workDesc s t c) 72 8 > geoP (committed s).p / 64

/-- The walk of a scrub begins: its pages are those of its range. -/
def scrubWalk (s : State) (t c : Nat) : State :=
  modWork s t c (fun w => { w with phase := 1, total := leAt (workDesc s t c) 72 8, vals := [0, 0, 2 ^ 64 - 1] })

theorem scrubStep_first (h : (s.ctx t c).work.phase = 0) : scrubStep t c s =
    if s.vault.st ≠ 3 then finishCall s t c stVaultUnreach 39 0 []
    else if BadRange s t c then finishCall s t c stBadParam 39 0 []
    else setNeeds (scrubWalk s t c) t c [.page] := by
  simp only [scrubStep, h, scrubWalk]

theorem scrubWalk_total (h : s.ctx t c ≠ {}) : ((scrubWalk s t c).ctx t c).work.total = leAt (workDesc s t c) 72 8 := by
  rw [scrubWalk, modWork_work h]

theorem scrubStep_walked (h : (s.ctx t c).work.phase ≠ 0) : scrubStep t c s = finishFree s t c stOk
    (leBytes 8 (workVal s t c 0) ++ leBytes 4 (workVal s t c 1) ++ leBytes 8 (workVal s t c 2)) := by
  unfold scrubStep
  dsimp only
  split
  · contradiction
  · rfl

end Scrub

/-! ## PAGE_LOCK (07 R242) -/

section Lock

variable {s : State} {t c : Nat} {mem : List (Nat × Bytes)} {failed : Bool}

/-- The read of the pages that a lock takes, and whether it was allowed. -/
def lockedRead (s : State) (t c : Nat) (mem : List (Nat × Bytes)) : State × Bool :=
  windowMove (putMem s mem) false (pageReads s (baseImage s).slot (lockFirst s t c) (lockSpan s (lockFirst s t c)))

theorem exec_pageLock_busy (hb : pageBusy s (lockFirst s t c) (lockSpan s (lockFirst s t c)) = true) :
    exec (.pageLock t c mem failed) s = .next s := if_pos (.inr hb)

variable (hn : firstNeed s t c = some .page) (hs : s.vault.st = 3)
  (hb : pageBusy s (lockFirst s t c) (lockSpan s (lockFirst s t c)) = false)
include hn hs hb

theorem exec_pageLock_fails (h : failed = true ∨ (lockedRead s t c mem).2 = false) : exec (.pageLock t c mem failed) s =
    .next (finishFree (if failed then logVaultError (lockedRead s t c mem).1 else (lockedRead s t c mem).1) t c stVaultUnreach []) := by
  have hbad : (failed || !(lockedRead s t c mem).2) = true := by simpa using h
  exact (if_neg (by simp [hn, hb])).trans ((if_neg (not_not.2 hs)).trans (if_pos hbad))

theorem exec_pageLock_scrubs (h : (lockedRead s t c mem).2 = true) (ho : opOf (workDesc s t c) = 0x0A02) :
    exec (.pageLock t c mem false) s = .next (scrubPage t c (lockedRead s t c mem).1) := by
  have hok : ¬ (false || !(lockedRead s t c mem).2) = true := by simp [h]
  refine (if_neg (by simp [hn, hb])).trans ((if_neg (not_not.2 hs)).trans ((if_neg hok).trans ?_))
  simp only [ho]
  rfl

end Lock

section ScrubPage

variable {s : State} {t c : Nat}

/-- The page that a scrub works on. -/
abbrev scrubAt (s : State) (t c : Nat) : Nat := leAt (workDesc s t c) 64 8 + (s.ctx t c).work.progress

/-- A page that fails is counted, and the scrub goes on. -/
theorem scrubPage_fails (hx : s.ctx t c ≠ {}) (h : openPage s (baseImage s) (scrubAt s t c) = none) : ∃ r, scrubPage t c s = pageDone r t c 1 ∧
    (r.ctx t c).work.progress = (s.ctx t c).work.progress ∧ r.vault.integCount = satAdd 32 s.vault.integCount 1 := by
  have hctx (w : Nat) : (noteIntegrity s w).ctx t c = s.ctx t c := State.ctx_congr (by simp [noteIntegrity, State.setVault]) t c
  simp only [scrubPage, h]
  refine ⟨_, rfl, ?_, ?_⟩
  · rw [modWork_work (by rwa [hctx]), hctx]
    dsimp only [bumpVal]
    split <;> rfl
  · simp [modWork, State.setCtx, noteIntegrity, State.setVault]

theorem scrubPage_verifies {ls : List Bytes} (h : openPage s (baseImage s) (scrubAt s t c) = some ls) : scrubPage t c s =
    if par (workDesc s t c) 80 = 1 ∧
        readCtr s (baseImage s).slot (imageView s (baseImage s)) (64 * scrubAt s t c) ≠ some (zeros 64)
    then passPages s t c { first := scrubAt s t c } (bumpVal 0 1) else pageDone (modWork s t c (bumpVal 0 1)) t c 1 := by
  simp only [scrubPage, h]
  refine if_congr ?_ rfl rfl
  simp

end ScrubPage

/-! ## VAULT_SEAL_ROOT (07 R248) -/

section Seal

variable {s : State} {t c : Nat}

theorem exec_vaultSealRoot_at (h : atFigure s t c 0x0A03 = true) (ho : par (workDesc s t c) 64 = 0) :
    exec (.vaultSealRoot t c .none) s = .next (sealRoot false t c (pastYield s t c)) :=
  congrArg Host.Outcome.next ((if_pos (beq_iff_eq.2 ho)).trans (runFigure_at h _))

theorem exec_vaultSealRelease_at (h : atFigure s t c 0x0A03 = true) (ho : par (workDesc s t c) 64 = 1) :
    exec (.vaultSealRelease t c .none) s = .next (sealRoot true t c (pastYield s t c)) :=
  congrArg Host.Outcome.next ((if_pos (beq_iff_eq.2 ho)).trans (runFigure_at h _))

theorem sealRoot_answered (release : Bool) (h : (s.ctx t c).work.phase = 1) : sealRoot release t c s =
    finishCall (if release then releaseVault s else s) t c stOk 99 0 (leBytes 8 (workVal s t c 0) ++ leBytes 1 s.vault.acks) := if_pos h

theorem sealRoot_seals (h : (s.ctx t c).work.phase = 0) (hs : s.vault.st = 3) : sealRoot false t c s = sealStep false t c s :=
  (if_neg (by rw [h]; decide)).trans ((if_neg (not_not.2 hs)).trans (if_neg (by simp)))

/-- The seal goes to its line and to the output; whether the output took it. -/
def sealWritten (s : State) (t c : Nat) : State × Bool :=
  writeOut (writeSeal s (if timeKnown s then reelSecond s % 2 else 0) (sealBytes s false)) t c (sealBytes s false)

/-- The seal is mirrored. -/
def sealMirrored (s : State) (t c : Nat) : State :=
  mirror (modWork (sealWritten s t c).1 t c (fun w => { w with phase := 1, vals := [(committed s).epoch] }))

theorem sealStep_written (h : (sealWritten s t c).2 = true) : sealStep false t c s =
    if (sealMirrored s t c).vault.awaiting = [] then sealMirrored s t c else setNeeds (sealMirrored s t c) t c [.reel] := by
  rw [sealWritten] at h
  unfold sealStep sealMirrored sealWritten
  dsimp only
  rw [if_neg (by simp [h])]
  simp only [List.isEmpty_iff]

theorem sealRoot_waits (h : (s.ctx t c).work.phase = 0) (hs : s.vault.st = 3) (hq : vaultQuiet s = false) :
    sealRoot true t c s = setNeeds (modWork s t c (fun w => { w with phase := 2 })) t c [.commit] :=
  (if_neg (by rw [h]; decide)).trans ((if_neg (not_not.2 hs)).trans (if_pos (by simp [hq])))

/-- The vault that is released is in NONE, and neither of its slots is VALID. -/
theorem releaseVault_frame (s : State) : (releaseVault s).vault.st = 0 ∧ (committed (releaseVault s)).valid = false ∧
    (pendingSlot (releaseVault s)).valid = false := by
  have h := failGroups_settled ({ s with dome := { s.dome with slots := ({}, {}), sel := false } }.setVault { s.vault with
    st := 0, hold := false, groups := [], rekey := none, nextReady := false, meta_ := [], descs := [] }) s.vault.groups stVaultUnreach
  unfold releaseVault
  dsimp only
  refine ⟨h.fields.1, ?_, ?_⟩
  · rw [committed_congr h.1]
    rfl
  · rw [pendingSlot_congr h.1]
    rfl

end Seal

/-! ## VAULT_ADOPT (07 R249) -/

section Adopt

/-- The Dome stands, and the state of the vault. -/
def SameStanding (s r : State) : Prop := r.dome = s.dome ∧ r.vault.st = s.vault.st

theorem SameStanding.trans {s r q : State} (h : SameStanding s r) (g : SameStanding r q) : SameStanding s q :=
  ⟨g.1.trans h.1, g.2.trans h.2⟩

theorem sameStanding_foldl {α : Type} {f : State → α → State} (hf : ∀ s x, SameStanding s (f s x)) (l : List α) (s : State) :
    SameStanding s (l.foldl f s) :=
  List.foldlRecOn (motive := SameStanding s) l f ⟨rfl, rfl⟩ fun r h x _ => h.trans (hf r x)

theorem noteIntegrity_standing (s : State) (w : Nat) : SameStanding s (noteIntegrity s w) := by
  simp [SameStanding, noteIntegrity, State.setVault]

/-- `takeDesc` for any way of loading a descriptor: what it leaves does not rest on the descriptor. -/
def takeDescBy (load : State → RootSlot → Nat → Bytes × Option Nat) (s : State) (r : RootSlot) (p : Nat) (q : State) : State :=
  let x := load q r p
  let s1 := setDesc s p x.1
  match x.2 with
  | some w => noteIntegrity s1 w
  | none => s1

theorem takeDesc_eq : takeDesc = takeDescBy loadDesc := rfl

theorem takeDescBy_standing (load : State → RootSlot → Nat → Bytes × Option Nat) (s q : State) (r : RootSlot) (p : Nat) :
    SameStanding s (takeDescBy load s r p q) := by
  unfold takeDescBy
  dsimp only
  split
  · exact SameStanding.trans (r := setDesc s p _) ⟨rfl, rfl⟩ (noteIntegrity_standing _ _)
  · exact ⟨rfl, rfl⟩

theorem takeDesc_standing (s q : State) (r : RootSlot) (p : Nat) : SameStanding s (takeDesc s r p q) := by
  rw [takeDesc_eq]
  exact takeDescBy_standing loadDesc s q r p

/-- The descriptors of partitions are taken over one after another. -/
def takeDescs (s : State) (r : RootSlot) (q : State) (l : List Nat) : State :=
  l.foldl (fun a p => if p = 0 then a else takeDesc a r p q) s

theorem takeDescs_standing (s : State) (r : RootSlot) (q : State) (l : List Nat) : SameStanding s (takeDescs s r q l) := by
  refine sameStanding_foldl (fun a p => ?_) _ _
  split
  · exact ⟨rfl, rfl⟩
  · exact takeDesc_standing a q r p

/-- A vault that comes online is ONLINE, its slots as they were. -/
theorem comeOnline_frame (s : State) : (comeOnline s).dome = s.dome ∧ (comeOnline s).vault.st = 3 := by
  have hdescs (v : Vault) (q q' : State) (r : RootSlot) (l : List Nat) : SameStanding (s.setVault v)
      (takeDescs (takeDesc (s.setVault v) r 0 q') r q l) := (takeDesc_standing _ _ _ _).trans (takeDescs_standing _ _ _ _)
  have heq (r : RootSlot) (a q : State) (l : List Nat) : l.foldl (fun a p => if p = 0 then a else takeDesc a r p q) a = takeDescs a r q l := rfl
  unfold comeOnline
  simp only [heq]
  generalize List.range 1024 = l
  split
  · exact hdescs _ _ _ _ _
  · exact (hdescs _ _ _ _ _).trans (noteIntegrity_standing _ _)

theorem tryOnline_eq (s : State) : tryOnline s =
    if (windowMove s false (onlineReads s (committed s))).2 then (comeOnline (windowMove s false (onlineReads s (committed s))).1, true)
    else ((windowMove s false (onlineReads s (committed s))).1, false) := by
  unfold tryOnline
  generalize windowMove s false (onlineReads s (committed s)) = x
  rfl

theorem tryOnline_frame {s : State} (h : (tryOnline s).2 = true) : (tryOnline s).1.dome = s.dome ∧ (tryOnline s).1.vault.st = 3 := by
  rw [tryOnline_eq] at h ⊢
  have hd := (windowMove_frame s false (onlineReads s (committed s))).2.1
  generalize windowMove s false (onlineReads s (committed s)) = x at h hd ⊢
  split at h
  · next hx =>
    simp only [if_pos hx]
    exact ⟨(comeOnline_frame x.1).1.trans hd, (comeOnline_frame x.1).2⟩
  · cases h

theorem mirror_standing (s : State) : SameStanding s (mirror s) := by
  have hsend (rec_ : Bytes) (a : State) (w : Nat) : SameStanding a (sendTo a 0 0x06 w rec_) :=
    ⟨(sendTo_sameUnits a 0 0x06 w rec_).dome, congrArg Vault.st (sendTo_sameUnits a 0 0x06 w rec_).vault⟩
  have hanswer (a : State) (w : Nat) : SameStanding a (witnessAnswer false a w) :=
    ⟨(witnessAnswer_frame false a w).1, (witnessAnswer_frame false a w).2.2⟩
  have hshort : SameStanding s (if s.vault.awaiting.isEmpty then s else shortMirror s) := by
    split
    · exact ⟨rfl, rfl⟩
    · rw [SameStanding, (shortMirror_frame s).2.2]
      exact ⟨(shortMirror_frame s).1, rfl⟩
  have hsettle (b : Bool) (a : State) : SameStanding a (if b then mirrorSettle a else a) := by
    split
    · exact ⟨(mirrorSettle_frame a).1, (mirrorSettle_frame a).2.2.1⟩
    · exact ⟨rfl, rfl⟩
  have hseal (a : State) : SameStanding a (sealWaiters a) := ⟨(sealWaiters_frame a).2, congrArg Vault.st (sealWaiters_frame a).1⟩
  unfold mirror
  dsimp only
  refine ((((hshort.trans ?_).trans (sameStanding_foldl (hsend _) _ _)).trans (hsettle _ _)).trans (sameStanding_foldl hanswer _ _)).trans
    (hseal _)
  exact ⟨rfl, rfl⟩

variable {s : State} {t c : Nat} {seals : List Bytes} {answers : List (Option Bytes)} {failed : Bool}

/-- The state in which the adopted root is the COMMITTED one. -/
def adoptedRoot (s : State) (r : RootSlot) : State :=
  let s1 := { s with dome := { s.dome with slots := (r, {}), sel := false } }
  s1.setVault { s1.vault with journalLost := false }

/-- The adopted vault is ONLINE past its mirror, and the adopted root stands. -/
theorem mirror_adopted {q : State} {r : RootSlot} (hup : (tryOnline (adoptedRoot q r)).2 = true) :
    committed (mirror ((tryOnline (adoptedRoot q r)).1.setVault { (tryOnline (adoptedRoot q r)).1.vault with fences := [] })) = r ∧
    (mirror ((tryOnline (adoptedRoot q r)).1.setVault { (tryOnline (adoptedRoot q r)).1.vault with fences := [] })).vault.st = 3 := by
  obtain ⟨hdome, hst⟩ := tryOnline_frame hup
  generalize tryOnline (adoptedRoot q r) = o at hdome hst ⊢
  obtain ⟨hmd, hms⟩ := mirror_standing (o.1.setVault { o.1.vault with fences := [] })
  refine ⟨?_, hms.trans hst⟩
  rw [committed_congr (hmd.trans hdome)]
  rfl

/-- The roll-forward of an adoption from a slot. -/
def adoptRoll (s : State) (r : RootSlot) : State × RootSlot × Nat × Bool := rollForward (s.vault.mem.length + 1) s r 0

theorem exec_vaultAdopt_at (h : atFigure s t c 0x0A04 = true) (mem : List (Nat × Bytes)) :
    exec (.vaultAdopt t c .none seals answers mem failed) s = .next (adopt seals answers failed t c (putMem (pastYield s t c) mem)) :=
  congrArg Host.Outcome.next (runFigure_at h _)

/-- What adoption needs: no vault, a geometry that the windows cover, and a CURRENT DMK. -/
abbrev Adoptable (s : State) : Prop := s.vault.st = 0 ∧ geometryOk s = true ∧ s.dome.cur.isSome = true

theorem not_adoptable_iff : (s.vault.st ≠ 0 ∨ (!geometryOk s) = true ∨ s.dome.cur.isNone = true) ↔ ¬ Adoptable s := by
  rw [Adoptable, not_and_or, not_and_or, Bool.not_eq_true', Bool.not_eq_true, ← Option.not_isSome, Bool.not_eq_true', Bool.not_eq_true]

theorem adopt_unready (h : ¬ Adoptable s) : adopt seals answers failed t c s = finishCall s t c stBadParam 39 0 [] := by
  unfold adopt
  exact if_pos (not_adoptable_iff.2 h)

/-- The reads of an adoption, and whether they were allowed. -/
def adoptRead (s : State) : State × Bool := windowMove s false (adoptReads s)

theorem adopt_unread (h : Adoptable s) (hf : failed = true ∨ (adoptRead s).2 = false) : adopt seals answers failed t c s =
    finishFree (if failed then logVaultError (adoptRead s).1 else (adoptRead s).1) t c stVaultUnreach [] := by
  have hbad : (failed || !(adoptRead s).2) = true := by simpa using hf
  unfold adopt
  exact (if_neg (mt not_adoptable_iff.1 (not_not.2 h))).trans (if_pos hbad)

variable (h : Adoptable s) (hy : (adoptRead s).2 = true) (hform : formOf (workDesc (adoptRead s).1 t c) = 2)
include h hy hform

theorem adopt_unsealed (hs : sealSlot (adoptRead s).1 (inputOf (adoptRead s).1 t c) = none) :
    adopt seals answers false t c s = finishFree (adoptRead s).1 t c stIntegrity [] := by
  have hready := mt not_adoptable_iff.1 (not_not.2 h)
  unfold adopt
  rw [adoptRead] at hy hform hs ⊢
  generalize windowMove s false (adoptReads s) = y at hy hform hs ⊢
  dsimp only
  rw [if_neg hready, if_neg (by simp [hy]), if_pos hform]
  simp [hs, bestBy]

/-- A seal that names no witnesses, of the vault's geometry: the adoption rolls forward from it. -/
theorem adopt_sealed {r : RootSlot} (hs : sealSlot (adoptRead s).1 (inputOf (adoptRead s).1 t c) = some r)
    (hp : r.p = (adoptRead s).1.vault.p) (hj : r.j = (adoptRead s).1.vault.j) (hw : byteAt (inputOf (adoptRead s).1 t c) 35 = 0) :
    adopt seals answers false t c s =
      let f := adoptRoll (adoptRead s).1 r
      let g := rootAccess f.1 true
      let o := tryOnline (adoptedRoot g.1 f.2.1)
      if !(f.2.2.2 && g.2) then finishFree g.1 t c stVaultUnreach []
      else if !o.2 then finishFree (o.1.setVault { o.1.vault with st := 1 }) t c stVaultUnreach []
      else finishFree (mirror (o.1.setVault { o.1.vault with fences := [] })) t c stOk (leBytes 8 f.2.1.epoch ++ leBytes 4 f.2.2.1) := by
  have hready := mt not_adoptable_iff.1 (not_not.2 h)
  unfold adopt adoptRoll adoptedRoot
  rw [adoptRead] at hy hform hs hp hj hw ⊢
  generalize windowMove s false (adoptReads s) = y at hy hform hs hp hj hw ⊢
  dsimp only
  rw [if_neg hready, if_neg (by simp [hy]), if_pos hform]
  simp only [List.filterMap_cons, List.filterMap_nil, hs, Option.map_some, bestBy]
  rw [if_neg (by simp [hp, hj]), hw]
  simp only [List.take_zero, List.length_nil, List.range_zero, List.any_nil, Bool.false_eq_true, if_false, List.foldl_nil]

/-- The fates of an adoption that rolls forward: a refused write, or a vault that is ONLINE under the adopted root. -/
theorem adopt_sealed_fates {r : RootSlot} (hs : sealSlot (adoptRead s).1 (inputOf (adoptRead s).1 t c) = some r)
    (hp : r.p = (adoptRead s).1.vault.p) (hj : r.j = (adoptRead s).1.vault.j) (hw : byteAt (inputOf (adoptRead s).1 t c) 35 = 0)
    {run : Host.Outcome State Fault Refusal} (hrun : run = .next (adopt seals answers false t c s)) :
    let f := adoptRoll (adoptRead s).1 r
    let g := rootAccess f.1 true
    ((f.2.2.2 && g.2) = false → run = .next (finishFree g.1 t c stVaultUnreach [])) ∧
    ((f.2.2.2 && g.2) = true → (tryOnline (adoptedRoot g.1 f.2.1)).2 = true → ∃ s1, run =
      .next (finishFree s1 t c stOk (leBytes 8 f.2.1.epoch ++ leBytes 4 f.2.2.1)) ∧ committed s1 = f.2.1 ∧ s1.vault.st = 3) := by
  have hroll := adopt_sealed (seals := seals) (answers := answers) h hy hform hs hp hj hw
  generalize adoptRoll (adoptRead s).1 r = f at hroll ⊢
  dsimp only at hroll ⊢
  generalize rootAccess f.1 true = g at hroll ⊢
  rw [hroll] at hrun
  refine ⟨fun hok => ?_, fun hok hup => ⟨_, ?_, mirror_adopted hup⟩⟩
  · rw [hrun, hok, Bool.not_false, if_pos rfl]
  · rw [hrun, hok, hup, Bool.not_true, if_neg Bool.false_ne_true, if_neg Bool.false_ne_true]

end Adopt

/-- Settles O59: each job's fates are the branches of its step, as the laws above say. -/
theorem vaultJobsComplete : Obligations.VaultJobsComplete := by
  unfold Obligations.VaultJobsComplete
  intro s₀ t c _ _ s d x tgt bad pages
  have hctx : s.ctx t c = s₀.ctx t c := pastYield_ctx s₀ t c t c
  have hd : d = workDesc s₀ t c := pastYield_workDesc s₀ t c t c
  refine ⟨fun ha => ?rekey, fun ha => ?scrub, fun mem failed hn hs => ?lock, fun ha hs => ?sealing, fun seals answers mem failed ha => ?adopt⟩
  case rekey =>
    have hrun : exec (.vaultRekey t c .none) s₀ = .next (rekeyStep t c s) := congrArg Host.Outcome.next (runFigure_at ha _)
    have hx : s.ctx t c ≠ {} := hctx ▸ ctx_ne_of_atFigure ha
    rw [hrun]
    refine ⟨fun h0 hr => ?refused, fun h0 hs hr hk hnext => ?resumed, fun h0 hs hr hk hnext => ?begins, fun h9 => ?added,
      fun h1 => ⟨_, congrArg Host.Outcome.next (rekeyStep_walked h1)⟩, fun h2 => congrArg Host.Outcome.next (rekeyStep_dropped h2)⟩
    case refused => rw [rekeyStep_first h0, if_pos hr]
    case resumed =>
      have hok : ¬ RekeyRefused s t c := by
        rintro (h | h | h | h)
        · exact h hs
        · exact ne_true_of_eq_false hr h
        · simp [hk, tgt, d] at h
        · exact hnext h
      exact ⟨rekeyWalk s s t c, by rw [rekeyStep_first h0, if_neg hok, if_pos hk], rekeyWalk_total hx⟩
    case begins =>
      have hok : ¬ RekeyRefused s t c := by
        rintro (h | h | h | h)
        · exact h hs
        · exact ne_true_of_eq_false hr h
        · simp [hk] at h
        · exact hnext h
      refine ⟨_, rekeySet s t c, by rw [rekeyStep_first h0, if_neg hok, if_neg (by simp [hk])], rfl, fun h1 => ?_, fun h1 => ?_⟩
      · obtain ⟨n, hn⟩ := Option.ne_none_iff_exists'.1 fun h => hnext ⟨h1, h⟩
        rw [rekeySet, if_pos h1, hn]
        exact ⟨rfl, rfl⟩
      · rw [rekeySet, if_neg h1]
    case added =>
      refine ⟨_, congrArg Host.Outcome.next (rekeyStep_added h9), rekeyWalk_total hx, fun h0 => ?_⟩
      change (s.vault.nextReady && tgt == 1) = false
      simp [h0]
  case scrub =>
    have hrun : exec (.vaultScrub t c .none) s₀ = .next (scrubStep t c s) := congrArg Host.Outcome.next (runFigure_at ha _)
    have hx : s.ctx t c ≠ {} := hctx ▸ ctx_ne_of_atFigure ha
    rw [hrun]
    refine ⟨fun h0 hs hr => ?range, fun h0 hs => ?offline, fun h0 hs hr => ⟨scrubWalk s t c, ?begins, ?total⟩,
      fun h => congrArg Host.Outcome.next (scrubStep_walked h)⟩
    case range => rw [scrubStep_first h0, if_neg (not_not.2 hs), if_pos hr]
    case offline => rw [scrubStep_first h0, if_pos hs]
    case begins => rw [scrubStep_first h0, if_neg (not_not.2 hs), if_neg hr]
    case total => exact scrubWalk_total hx
  case lock =>
    intro pg n run y
    refine ⟨fun hb => exec_pageLock_busy hb, fun hb hf => exec_pageLock_fails hn hs hb hf, fun hb hf hy ho hp => ?fails,
      fun ls hb hf hy ho => ?verifies⟩
    case fails =>
      have hx : y.1.ctx t c ≠ {} := by
        rw [State.ctx_congr (windowMove_frame _ _ _).2.2.2.2.1 t c]
        intro he
        have hnone : firstNeed s₀ t c = none := by rw [firstNeed, show s₀.ctx t c = {} from he]; rfl
        rw [hn] at hnone
        cases hnone
      obtain ⟨r, hr, hw, hi⟩ := scrubPage_fails hx hp
      refine ⟨r, ?_, hw, hi⟩
      subst hf
      exact (exec_pageLock_scrubs hn hs hb hy ho).trans (congrArg Host.Outcome.next hr)
    case verifies =>
      intro at_ hp
      subst hf
      exact (exec_pageLock_scrubs hn hs hb hy ho).trans (congrArg Host.Outcome.next (scrubPage_verifies hp))
  case sealing =>
    refine ⟨fun h0 hph => ?seals, fun h0 hph => ?answered, fun h1 hph hq => ?waits, fun h1 hph => ⟨releaseVault s, ?released,
      releaseVault_frame s⟩⟩
    case seals =>
      intro b s2 s3 hok
      rw [exec_vaultSealRoot_at ha (hd ▸ h0), sealRoot_seals hph hs, sealStep_written hok]
      rfl
    case answered => rw [exec_vaultSealRoot_at ha (hd ▸ h0), sealRoot_answered false hph, if_neg Bool.false_ne_true]
    case waits => rw [exec_vaultSealRelease_at ha (hd ▸ h1), sealRoot_waits hph hs hq]
    case released => rw [exec_vaultSealRelease_at ha (hd ▸ h1), sealRoot_answered true hph, if_pos rfl]
  case adopt =>
    intro run a y ready
    have hrun : run = .next (adopt seals answers failed t c a) := exec_vaultAdopt_at ha mem
    refine ⟨fun h => ?unready, fun h hf => ?unread, fun h hf hy hform hs => ?unsealed, fun r h hf hy hform hs hp hj hw => ?sealed⟩
    case unready => rw [hrun, adopt_unready h]
    case unread => exact hrun.trans (congrArg Host.Outcome.next (adopt_unread h hf))
    case unsealed =>
      subst hf
      exact hrun.trans (congrArg Host.Outcome.next (adopt_unsealed h hy hform hs))
    case sealed =>
      subst hf
      exact adopt_sealed_fates h hy hform hs hp hj hw hrun

end Sys2Proof.Machine

/-! SUPPORT. PARTITION_HANDOFF with its four messages (07 R251, R252): one law for each fate of the source's call and of each message;
from these follows the statement about partition handoff. -/

namespace Sys2Proof.Machine

/-! ## The source (07 R251) -/

section Source

variable {s : State} {t c : Nat}

theorem exec_partitionHandoff_at (h : atFigure s t c 0x0A05 = true) :
    exec (.partitionHandoff t c .none) s = .next (handoffStep t c (pastYield s t c)) :=
  congrArg Host.Outcome.next (runFigure_at h _)

/-- The partition of a PARTITION_HANDOFF. -/
abbrev handoffPart (s : State) (t c : Nat) : Nat := leAt (workDesc s t c) 66 2

/-- The device that is to take it. -/
abbrev handoffDest (s : State) (t c : Nat) : Nat := leAt (workDesc s t c) 64 2

/-- A partition that no handoff moves: 0, one that is FREE or lost, or one that is bound. -/
abbrev Unmovable (s : State) (p : Nat) : Prop :=
  p = 0 ∨ 1023 < p ∨ pstate s p = 0 ∨ 2 < pstate s p ∨ (tblGet none s.bind p).isSome = true

theorem handoffStep_first (h : (s.ctx t c).work.phase = 0) : handoffStep t c s =
    if Unmovable s (handoffPart s t c) then finishCall s t c stBadParam 39 0 []
    else if s.vault.st ≠ 3 then finishCall s t c stVaultUnreach 39 0 []
    else if (portTo s (handoffDest s t c)).isNone then finishCall s t c stReelUnreach 39 0 []
    else if (s.ctx t c).work.drawn.length < 8 then setNeeds s t c [.draw 8]
    else setNeeds (sendTo (modWork s t c (fun w => { w with phase := 1, keep := w.drawn.take 8, vals := [0] })) 0 0x09
      (handoffDest s t c) (queryBytes s (handoffPart s t c) ((s.ctx t c).work.drawn.take 8))) t c [.reel] := by
  simp only [handoffStep, h]

theorem handoffStep_walked (h : (s.ctx t c).work.phase = 2) : handoffStep t c s =
    writeDesc s t c (handoffPart s t c) ((descOf s (handoffPart s t c)).set 1 2) [] (goOn, 39, 0, [])
      (fun a => modWork a t c (fun w => { w with phase := 3 })) := by
  simp only [handoffStep, h]

theorem handoffStep_moved {k : Bytes} (h : (s.ctx t c).work.phase = 3)
    (hk : handoffKey s (handoffPart s t c) (s.ctx t c).work.keep = some k) : handoffStep t c s =
    let m := gcmEnc (aesC k) (List.replicate 12 0xFF) [] (fit 256 (descOf s (handoffPart s t c)))
    finishFree (forgetPart (sendTo s 2 0x21 (handoffDest s t c) (m.1 ++ m.2)) (handoffPart s t c)) t c stOk
      (leBytes 8 (workVal s t c 0)) := by
  simp only [handoffStep, h, hk]

end Source

/-! ## The destination (07 R251, R252) -/

section Destination

variable {s : State} {src p : Nat} {nonce k : Bytes}

/-- What the destination confirms of a PEER_QUERY. -/
abbrev Confirms (s : State) (b : Bytes) : Prop :=
  s.vault.st = 3 ∧ s.dome.cur.map dmkId = some (sub b 10 2) ∧ 1 ≤ leAt b 0 2 ∧ leAt b 0 2 ≤ 1023 ∧ pstate s (leAt b 0 2) = 0 ∧
    payLine s (leAt b 0 2) 0 + leAt b 12 6 ≤ geoP (committed s).p

/-- The destination's check is what it confirms. -/
theorem takeQuery_eq (b : Bytes) : takeQuery src b s = if Confirms s b then
      sendTo (s.setReel { s.reel with inbound := some (src, leAt b 0 2, sub b 2 8) }) 3 0x35 src ([0, 1] ++ zeros 8)
    else sendTo s 3 0x35 src ([0, 0] ++ zeros 8) := by
  have hok : (s.vault.st == 3 && some (sub b 10 2) == s.dome.cur.map dmkId && decide (1 ≤ leAt b 0 2) && decide (leAt b 0 2 ≤ 1023) &&
      pstate s (leAt b 0 2) == 0 && decide (payLine s (leAt b 0 2) 0 + leAt b 12 6 ≤ geoP (committed s).p)) = decide (Confirms s b) := by
    simp only [Confirms, Bool.decide_and, beq_eq_decide, eq_comm (a := some (sub b 10 2)), Bool.and_assoc]
  by_cases h : Confirms s b
  · rw [takeQuery, hok, decide_eq_true h, if_pos h]
    rfl
  · rw [takeQuery, hok, decide_eq_false h, if_neg h]
    rfl

section Reply

variable {t c : Nat} (hc : handoffCtx s src = some (t, c))
include hc

theorem takeReply_confirmed {b : Bytes} (h0 : byteAt b 0 = 0) (hn : firstNeed s t c = some .reel) (h1 : byteAt b 1 = 1) :
    takeReply src b s = popNeed s t c := by
  simp [takeReply, hc, h0, hn, h1]

theorem takeReply_refused {b : Bytes} (h0 : byteAt b 0 = 0) (hn : firstNeed s t c = some .reel) (h1 : byteAt b 1 ≠ 1) :
    takeReply src b s = finishFree s t c stReelUnreach [] := by
  simp [takeReply, hc, h0, hn, h1]

theorem takeReply_failed {b : Bytes} (h0 : byteAt b 0 ≠ 0) (hh : (s.ctx t c).held = none) :
    takeReply src b s = finishFree s t c stIntegrity [] := by
  simp [takeReply, hc, h0, hh]

/-- A call whose descriptor commits ends INTEGRITY once the commit has ended. -/
theorem takeReply_failed_held {b : Bytes} (h0 : byteAt b 0 ≠ 0) (hh : (s.ctx t c).held ≠ none) (ht : t < s.towers.length)
    (hl : c < (s.tower t).ctxs.length) : (((takeReply src b s).ctx t c).held.map (·.1)) = some stIntegrity := by
  obtain ⟨x, hx⟩ := Option.ne_none_iff_exists'.1 hh
  simp only [takeReply, hc, if_neg h0, hx]
  exact congrArg (fun y : Ctx => y.held.map (·.1)) (State.ctx_setCtx_same s.takeFree.1 _ _ _ ht hl)

end Reply

section Inbound

variable (hi : s.reel.inbound = some (src, p, nonce)) (hk : handoffKey s p nonce = some k)
include hi hk

theorem inboundKey_of_inbound : inboundKey s src = some (p, k) := by
  simp [inboundKey, hi, Option.filter, hk]

/-- The form and the tag of a HANDOFF_PAGE hold. -/
abbrev PageHolds (k b : Bytes) : Prop :=
  b.length = 2080 ∧ byteAt b 8 < 2 ∧ zeroIn b 9 16 = true ∧
    gcmTag (aesC k) (beBytes 8 (leAt b 0 8) ++ beBytes 4 (byteAt b 8)) (b.take 16) (sub b 16 2048) = b.drop 2064

theorem takePage_eq (b : Bytes) : takePage src b s = if PageHolds k b then engineGroup s
      { lines := (chunks 64 (gcmCtr (aesC k) (beBytes 8 (leAt b 0 8) ++ beBytes 4 (byteAt b 8)) (sub b 16 2048))).zipIdx.map
          (fun e => (p, 64 * leAt b 0 8 + 32 * byteAt b 8 + e.2, e.1)) }
    else rejectInbound s src (leAt b 0 8) := by
  have hok : (b.length == 2080 && decide (byteAt b 8 < 2) && zeroIn b 9 16 &&
      gcmTag (aesC k) (beBytes 8 (leAt b 0 8) ++ beBytes 4 (byteAt b 8)) (b.take 16) (sub b 16 2048) == b.drop 2064) =
      decide (PageHolds k b) := by
    simp only [PageHolds, Bool.decide_and, beq_eq_decide, Bool.and_assoc, Bool.decide_eq_true]
  simp only [takePage, inboundKey_of_inbound hi hk, hok, Bool.not_eq_true', decide_eq_false_iff_not, ite_not]

/-- The form and the tag of a HANDOFF_DESC hold. -/
abbrev DescHolds (k b : Bytes) : Prop := b.length = 272 ∧ gcmTag (aesC k) (List.replicate 12 0xFF) [] (b.take 256) = b.drop 256

/-- The descriptor that a HANDOFF_DESC brings: ACTIVE, with BIND_TF 0xFFFF. -/
abbrev inDesc (k b : Bytes) : Bytes := patch ((gcmCtr (aesC k) (List.replicate 12 0xFF) (b.take 256)).set 1 1) 4 [0xFF, 0xFF]

theorem takeInDesc_holds {b : Bytes} (h : DescHolds k b) {l : List (Nat × Nat × Bytes) × List KeepCopy}
    (hl : descLines s p (inDesc k b) = some l) : takeInDesc src b s =
    (engineGroup (setDesc s p (inDesc k b)) { lines := l.1, undo := [(p, descOf s p, inDesc k b)] }).setReel
      { s.reel with inbound := none } := by
  simp only [takeInDesc, inboundKey_of_inbound hi hk, hl]
  exact if_neg (not_or.2 ⟨not_not.2 h.1, not_not.2 h.2⟩)

theorem takeInDesc_fails {b : Bytes} (h : ¬ DescHolds k b) : takeInDesc src b s = rejectInbound s src 0 := by
  simp only [takeInDesc, inboundKey_of_inbound hi hk]
  exact if_pos (not_and_or.1 h)

end Inbound

end Destination

/-- Settles O60: the source's fates are the branches of its step, and each message for this device has the effect of its law. -/
theorem handoffMovesAPartitionOnce : Obligations.HandoffMovesAPartitionOnce := by
  unfold Obligations.HandoffMovesAPartitionOnce
  refine ⟨fun s₀ t c ha => ?source, fun s s1 h b hd => ?messages⟩
  case source =>
    intro s d p w run bad
    have hrun : run = .next (handoffStep t c s) := exec_partitionHandoff_at ha
    refine ⟨fun h0 hb => ?bad, fun h0 hb hv => ?offline, fun h0 hb hv hp => ?absent, fun h0 hb hv hp => ⟨fun hn => ?draws, fun hn => ⟨_, rfl, ?queries⟩⟩,
      fun h2 => ?walked, fun k h3 hk => ?moved⟩
    case bad => rw [hrun, handoffStep_first h0, if_pos hb]
    case offline => rw [hrun, handoffStep_first h0, if_neg hb, if_pos hv]
    case absent => rw [hrun, handoffStep_first h0, if_neg hb, if_neg (not_not.2 hv), if_pos (Option.isNone_iff_eq_none.2 hp)]
    case draws =>
      rw [hrun, handoffStep_first h0, if_neg hb, if_neg (not_not.2 hv), if_neg (by simpa [Option.isSome_iff_ne_none] using hp), if_pos hn]
    case queries =>
      rw [hrun, handoffStep_first h0, if_neg hb, if_neg (not_not.2 hv), if_neg (by simpa [Option.isSome_iff_ne_none] using hp),
        if_neg (Nat.not_lt.2 hn)]
    case walked => rw [hrun, handoffStep_walked h2]
    case moved => rw [hrun, handoffStep_moved h3 hk]
  case messages =>
    intro src
    refine ⟨fun hh => ⟨fun hok => ?confirms, fun hok => ?refuses⟩, fun t c hh hc => ⟨fun h0 hn h1 => ?confirmed, fun h0 hn h1 => ?refused,
      fun h0 hl => ?failed, fun h0 hl ht hx => ⟨_, rfl, ?held⟩⟩, fun p nonce k hh hi hk => ⟨⟨fun hg => ?page, fun hg => ?badPage⟩,
      ⟨fun hg l hl => ⟨_, rfl, ?desc⟩, fun hg => ?badDesc⟩⟩⟩
    case confirms => exact congrArg Host.Outcome.next ((receive_here hh hd _ _ _).trans ((takeQuery_eq b).trans (if_pos hok)))
    case refuses => exact congrArg Host.Outcome.next ((receive_here hh hd _ _ _).trans ((takeQuery_eq b).trans (if_neg hok)))
    case confirmed => exact congrArg Host.Outcome.next ((receive_here hh hd _ _ _).trans (takeReply_confirmed hc h0 hn h1))
    case refused => exact congrArg Host.Outcome.next ((receive_here hh hd _ _ _).trans (takeReply_refused hc h0 hn h1))
    case failed => exact congrArg Host.Outcome.next ((receive_here hh hd _ _ _).trans (takeReply_failed hc h0 hl))
    case held => rw [receive_here hh hd, takeReply_failed_held hc h0 hl ht hx]
    case page => exact congrArg Host.Outcome.next ((receive_here hh hd _ _ _).trans ((takePage_eq hi hk b).trans (if_pos hg)))
    case badPage => exact congrArg Host.Outcome.next ((receive_here hh hd _ _ _).trans ((takePage_eq hi hk b).trans (if_neg hg)))
    case desc =>
      rw [receive_here hh hd, takeInDesc_holds hi hk hg hl]
      exact ⟨rfl, rfl, rfl⟩
    case badDesc => exact congrArg Host.Outcome.next ((receive_here hh hd _ _ _).trans (takeInDesc_fails hi hk hg))

end Sys2Proof.Machine

/-! SUPPORT. What the towers share of lanes and random bytes (08): a lane that fails, the grants and the save of lanes, draws, the noise
sources with their seeds, the DRBGs, and RANDOM; one law for each fate of a command, from which the five statements follow. -/

namespace Sys2Proof.Machine

/-! ## A lane that fails its residue check (08 R260) -/

/-- A fault that the context cannot meet is not reported for its call. -/
theorem runFigure_unfit {s : State} {t c : Nat} {x : FigFault} (h : faultFits s t c x = false) (op : Nat) (f : State → State) :
    runFigure s t c op x f = s := by simp [runFigure, h]

theorem pastYield_lanes (s : State) (t c u : Nat) (hash : Bool) :
    ((pastYield s t c).tower u).lanes hash = (s.tower u).lanes hash := by
  dsimp only [pastYield]
  split
  · exact State.part_setTower (·.lanes hash) (by rfl) u
  · rfl

theorem spireSpent_lanes (s : State) (t c u : Nat) (hash : Bool) :
    ((spireSpent s t c).tower u).lanes hash = (s.tower u).lanes hash := by
  dsimp only [spireSpent]
  split
  · rfl
  · exact (State.part_setTower (·.lanes hash) (by rfl) u).trans (State.part_setTower (·.lanes hash) (by rfl) u)

section LaneFault

variable {s : State} {t c i : Nat} {hash : Bool} {l : Lane} (hl : ((s.tower t).lanes hash)[i]? = some l)
include hl

theorem faultFits_lane : faultFits s t c (.lane hash i) = (l.owner == some c) := by simp [faultFits, hl]

theorem runFigure_lane {op : Nat} (ha : atFigure s t c op = true) (ho : l.owner = some c) (f : State → State) :
    runFigure s t c op (.lane hash i) f = laneFault (spireSpent (pastYield s t c) t c) t c hash i := by
  simp [runFigure, ha, faultFits_lane hl, ho, withFault]

theorem laneFault_held (ho : l.owner = some c) : laneFault s t c hash i =
    let s1 := modLane s t hash i (fun x => { x with faulty := true })
    let s2 := raise (s1.setTower t { s1.tower t with laneFaults := satAdd 32 (s1.tower t).laneFaults 1 }) (pgTower t) 1
    retireIdle (deviceFault s2 t c) t hash := by
  simp only [laneFault, hl]
  exact if_neg (not_not.2 ho)

end LaneFault

/-- Settles O27: the fault fits the holder of the lane only, and a fault that fits is the law of a lane's fault, past the yield. -/
theorem laneFaultLeavesNoEffect : Obligations.LaneFaultLeavesNoEffect := by
  unfold Obligations.LaneFaultLeavesNoEffect
  intro s₀ t c op i hash l f ha hl s
  refine ⟨fun ho => ?_, fun ho => runFigure_unfit ((faultFits_lane hl).trans (beq_eq_false_iff_ne.2 ho)) op f⟩
  have hs : ((s.tower t).lanes hash)[i]? = some l := by rw [spireSpent_lanes, pastYield_lanes, hl]
  exact (runFigure_lane hl ha ho f).trans (laneFault_held hs ho)

/-! ## LANE_GRANT (08 R256, R257; 10 R307) -/

section Grant

variable {s : State} {t c k cfg : Nat} {hash : Bool}

theorem laneDecide_nobody (t : Nat) (hash : Bool) (n : Nat) (s : State) : laneDecide t hash n s [] = (s, []) := by
  cases n <;> rfl

theorem laneDecide_single (ha : laneAsk s t hash c = some (k, cfg)) (hk : k ≤ (freeLanes s t hash).length) (n : Nat) :
    laneDecide t hash (n + 1) s [c] = (grantLanes s t hash c cfg ((freeLanes s t hash).take k), [c]) := by
  simp [laneDecide, bestBy, ha, hk, laneDecide_nobody]

theorem laneDecide_short (ha : laneAsk s t hash c = some (k, cfg)) (hk : (freeLanes s t hash).length < k) (n : Nat) :
    laneDecide t hash (n + 1) s [c] = (s, []) := by
  simp [laneDecide, bestBy, ha, Nat.not_le.2 hk]

theorem exec_laneGrant_none {r : State} (hd : laneDecide t hash 8 s (laneWaiters s t hash) = (r, [])) (ends : List Nat) :
    exec (.laneGrant t hash none ends) s = .next (markLanes r t hash ends) := by
  change execLaneGrant t hash none s ends = _
  simp [execLaneGrant, hd]

theorem exec_laneGrant_some {r : State} (hd : laneDecide t hash 8 s (laneWaiters s t hash) = (r, [c])) (ends : List Nat) :
    exec (.laneGrant t hash none ends) s =
      .next (unstall (markLanes (settleChunk r t c) t hash ends) (fun u n => u == t && n.isLanes hash)) := by
  change execLaneGrant t hash none s ends = _
  simp [execLaneGrant, hd]

end Grant

/-! ## LANE_SAVE (08 R269, R270) -/

/-- The lane as the save of another lane leaves it: marked, where the same context holds it. -/
def Lane.markFor (c : Nat) (m : Lane) : Lane := if m.owner = some c then { m with marked := true } else m

/-- The holder past the save of its lane `l`. -/
def Ctx.pastSave (x : Ctx) (hash : Bool) (l : Lane) : Ctx :=
  { x with
    saved := x.saved ++ [{ hash := hash, config := l.config, regs := l.regs.toSave }]
    needs := savedNeeds x hash l.config, st := .waiting, saving := true
    waits := if x.st == .waiting then x.waits else x.waits + 2
    stall := 0, age := if x.saved.isEmpty then x.laneAge else x.age }

/-- The lanes and the count of preemptions past the save of a lane of context `c`. -/
def Tower.pastSave (w : Tower) (c : Nat) (first : Bool) : Tower :=
  { w with
    clanes := w.clanes.map (Lane.markFor c), hlanes := w.hlanes.map (Lane.markFor c)
    lanePreempts := if first then satAdd 32 w.lanePreempts 1 else w.lanePreempts }

/-- The state past the save of lane `i`, before idle faulty lanes retire. -/
def saveLane (s : State) (t : Nat) (hash : Bool) (i c : Nat) (l : Lane) : State :=
  let s1 := modLane s t hash i Lane.free
  (s1.setTower t ((s1.tower t).pastSave c (s.ctx t c).saved.isEmpty)).setCtx t c ((s.ctx t c).pastSave hash l)

section Save

variable {s : State} {t c i : Nat} {hash : Bool} {l : Lane}

theorem exec_laneSave_marked (hl : ((s.tower t).lanes hash)[i]? = some l) (ho : l.owner = some c) (hm : l.marked = true) :
    exec (.laneSave t hash i false) s = .next (retireIdle (saveLane s t hash i c l) t hash) := by
  change execLaneSave t hash i false s = _
  simp only [execLaneSave, hl, ho, hm]
  rfl

theorem Lane.markFor_marked {m : Lane} (h : (m.markFor c).owner = some c) : (m.markFor c).marked = true := by
  unfold Lane.markFor at h ⊢
  split
  case isTrue => rfl
  case isFalse hn => exact absurd (by rwa [if_neg hn] at h) hn

theorem Lane.markFor_faulty (m : Lane) : (m.markFor c).faulty = m.faulty := by
  unfold Lane.markFor
  split <;> rfl

theorem Lane.markFor_free (m : Lane) : m.free.markFor c = m.free := if_neg (by simp [Lane.free])

theorem Tower.pastSave_lanes (w : Tower) (first : Bool) (h : Bool) : (w.pastSave c first).lanes h = (w.lanes h).map (Lane.markFor c) := by
  cases h <;> rfl

theorem lanes_modLane_same (ht : t < s.towers.length) (f : Lane → Lane) :
    ((modLane s t hash i f).tower t).lanes hash = ((s.tower t).lanes hash).modify i f := by
  rw [modLane, State.tower_setTower_same _ _ _ ht]
  cases hash <;> rfl

theorem modLane_towers_length (s : State) (t : Nat) (hash : Bool) (i : Nat) (f : Lane → Lane) :
    (modLane s t hash i f).towers.length = s.towers.length := by simp [modLane]

theorem modLane_ctxs (s : State) (t : Nat) (hash : Bool) (i : Nat) (f : Lane → Lane) (u : Nat) :
    ((modLane s t hash i f).tower u).ctxs = (s.tower u).ctxs :=
  State.part_setTower Tower.ctxs (by cases hash <;> rfl) u

theorem saveLane_lanes (ht : t < s.towers.length) (h : Bool) : ((saveLane s t hash i c l).tower t).lanes h =
    (((modLane s t hash i Lane.free).tower t).lanes h).map (Lane.markFor c) := by
  refine (State.part_setTower (·.lanes h) (by rfl) t).trans ?_
  rw [State.tower_setTower_same _ _ _ (by rwa [modLane_towers_length]), Tower.pastSave_lanes]

theorem saveLane_ctx (ht : t < s.towers.length) (hc : c < (s.tower t).ctxs.length) :
    (saveLane s t hash i c l).ctx t c = (s.ctx t c).pastSave hash l := by
  have ht' : t < (modLane s t hash i Lane.free).towers.length := by rwa [modLane_towers_length]
  refine State.ctx_setCtx_same _ _ _ _ (by simpa using ht') ?_
  rw [State.tower_setTower_same _ _ _ ht']
  exact lt_of_lt_of_eq hc (congrArg List.length (modLane_ctxs s t hash i Lane.free t)).symm

theorem saveLane_frees (ht : t < s.towers.length) (hl : ((s.tower t).lanes hash)[i]? = some l) :
    (((saveLane s t hash i c l).tower t).lanes hash)[i]? = some l.free := by
  simp [saveLane_lanes ht, lanes_modLane_same ht, hl, Lane.markFor_free]

theorem saveLane_marks (ht : t < s.towers.length) {m : Lane} {h : Bool} (hm : m ∈ ((saveLane s t hash i c l).tower t).lanes h)
    (ho : m.owner = some c) : m.marked = true := by
  rw [saveLane_lanes ht] at hm
  obtain ⟨x, -, rfl⟩ := List.mem_map.1 hm
  exact Lane.markFor_marked ho

/-- No lane becomes faulty by a save. -/
theorem saveLane_sound (ht : t < s.towers.length) (hf : ∀ m ∈ (s.tower t).lanes hash, m.faulty = false) :
    ∀ m ∈ ((saveLane s t hash i c l).tower t).lanes hash, m.faulty = false := by
  rw [saveLane_lanes ht, lanes_modLane_same ht, List.forall_mem_map]
  intro m hm
  rw [Lane.markFor_faulty]
  obtain ⟨j, hj, rfl⟩ := List.getElem_of_mem hm
  have hold := hf _ (List.getElem_mem (by simpa using hj : j < _))
  rw [List.getElem_modify]
  split <;> exact hold

/-- Where no lane of the kind is faulty, none retires. -/
theorem retireIdle_sound (h : ∀ m ∈ (s.tower t).lanes hash, m.faulty = false) : retireIdle s t hash = s := by
  have hn : ((s.tower t).lanes hash).zipIdx.filter (fun p => p.1.faulty && p.1.role != 2 && p.1.owner.isNone) = [] :=
    List.filter_eq_nil_iff.2 fun p hp => by simp [h p.1 (List.fst_mem_of_mem_zipIdx hp)]
  simp [retireIdle, hn]

end Save

/-- Settles O26: a grant by the arbiter's decision on the one that waits, and a save by what it leaves of the lanes and of the holder. -/
theorem laneGrantAndSave : Obligations.LaneGrantAndSave := by
  unfold Obligations.LaneGrantAndSave
  refine ⟨fun s t c k cfg hash hw ha ends => ⟨fun hk => ?granted, fun hk => ?short⟩, fun s t c i hash l hl ho hm ht hc hf => ?saved⟩
  case granted => exact exec_laneGrant_some (hw ▸ laneDecide_single ha hk 7) ends
  case short => exact exec_laneGrant_none (hw ▸ laneDecide_short ha hk 7) ends
  case saved =>
    have hx : (saveLane s t hash i c l).ctx t c = (s.ctx t c).pastSave hash l := saveLane_ctx ht hc
    have hrun : exec (.laneSave t hash i false) s = .next (saveLane s t hash i c l) :=
      (exec_laneSave_marked hl ho hm).trans (congrArg Host.Outcome.next (retireIdle_sound (saveLane_sound ht hf)))
    refine ⟨_, hrun, ?_, fun m hmem hmo => ?_, ?_, ?_, ?_, ?_, ?_, ?_, rfl, rfl, rfl, rfl⟩
    · rw [saveLane_frees ht hl]
      rfl
    · rcases List.mem_append.1 hmem with hmem | hmem
      · exact saveLane_marks (h := false) ht hmem hmo
      · exact saveLane_marks (h := true) ht hmem hmo
    all_goals simp only [hx, Ctx.pastSave]
    · by_cases hst : (s.ctx t c).st = .waiting <;> simp [hst]
    · simp only [List.isEmpty_iff]

/-! ## DRBG_DRAW (08 R277) -/

/-- In an ascending list, every other entry is of lower value than the one that `bestBy` takes, or comes after it. -/
theorem bestBy_before {f : Nat → Nat} {l : List Nat} {x y : Nat} (hl : l.Pairwise (· < ·)) (h : bestBy f l = some x) (hy : y ∈ l)
    (hn : y ≠ x) : f y < f x ∨ (f y = f x ∧ x < y) := by
  obtain ⟨p, r, rfl, hp, hr⟩ := bestBy_split h
  rcases List.mem_append.1 hy with hy | hy
  · exact .inl (hp y hy)
  · have hy := (List.mem_cons.1 hy).resolve_left hn
    have hlt : x < y := List.rel_of_pairwise_cons (List.pairwise_append.1 hl).2.1 hy
    exact (hr y hy).lt_or_eq.imp_right (⟨·, hlt⟩)

theorem ctxRank_eq {s : State} {t c : Nat} (hc : ctxCls s t c ≤ 3) (ha : (s.ctx t c).age < 2 ^ 64) :
    ctxRank s t c = (3 - ctxCls s t c) * 2 ^ 64 + (s.ctx t c).age := by
  rw [ctxRank, Nat.min_eq_right hc, Nat.min_eq_left (Nat.le_sub_one_of_lt ha)]

section Draw

variable {s : State} {t c n : Nat}

theorem drawTurn_ranks_first (ht : drawTurn s t = some c) {e : Nat} (he : e < 8) (hd : drawLen s t e ≠ none) (hn : e ≠ c) :
    ctxRank s t e < ctxRank s t c ∨ (ctxRank s t e = ctxRank s t c ∧ c < e) :=
  bestBy_before (List.pairwise_lt_range.filter _) ht
    (List.mem_filter.2 ⟨List.mem_range.2 he, Option.isSome_iff_ne_none.2 hd⟩) hn

/-- The buffer past a draw of its first `n` bytes, which the draw is counted for and its context has drawn. -/
def drawServed (s : State) (t c n : Nat) : State :=
  let s1 := s.setTower t { s.tower t with buf := (s.tower t).buf.drop n, draws := satAdd 32 (s.tower t).draws 1 }
  let x := s1.ctx t c
  s1.setCtx t c { x with work := { x.work with drawn := x.work.drawn ++ (s.tower t).buf.take n } }

theorem execDrbgDraw_turn (ht : drawTurn s t = some c) (hd : drawLen s t c = some n) : execDrbgDraw t s =
    if n ≤ (s.tower t).buf.length then .next (unstall (popNeed (drawServed s t c n) t c) (fun u m => u == t && m.isDraw))
    else if starved s t then .next (rngUnavailable s t c) else .next s := by
  simp only [execDrbgDraw, ht, hd]
  rfl

end Draw

/-- Settles O28: the three fates of the draw whose turn it is, and the order of ranks read off the rank. -/
theorem drawsAreServedWholeInRankOrder : Obligations.DrawsAreServedWholeInRankOrder := by
  unfold Obligations.DrawsAreServedWholeInRankOrder
  intro s t c n ht hd
  have hrun : exec (.drbgDraw t) s = _ := execDrbgDraw_turn ht hd
  refine ⟨fun hn => ?served, fun e he hde hc hce ha hae hne => ?ranked, fun hn hs => ?starved, fun hn hs => ?waits⟩
  case served => rw [hrun, if_pos hn, drawServed]
  case ranked =>
    have hr := drawTurn_ranks_first ht he hde hne
    rw [ctxRank_eq hc ha, ctxRank_eq hce hae] at hr
    omega
  case starved => rw [hrun, if_neg (Nat.not_le.2 hn), if_pos hs]
  case waits => rw [hrun, if_neg (Nat.not_le.2 hn), if_neg (Bool.eq_false_iff.1 hs)]

/-! ## Which DRBGs become STARVED (08 R277) -/

theorem starved_serving {s : State} (h : s.rng.st = 1) (i : Nat) : starved s i = false := by simp [starved, h]

/-- Where no DRBG becomes STARVED, nothing follows. -/
theorem starveCheck_none {old s : State} (h : ∀ i, starved s i = true → starved old i = true) : starveCheck old s = s := by
  refine List.foldlRecOn (motive := (· = s)) _ _ rfl fun a ha i _ => ?_
  rw [if_neg (by simpa using h i), ha]

/-- Unless DRBG 17 becomes STARVED, only interrupts follow: no call ends. -/
theorem starveCheck_towers {old s : State} (h : starved s 17 = true → starved old 17 = true) : (starveCheck old s).towers = s.towers := by
  refine List.foldlRecOn (motive := fun (a : State) => a.towers = s.towers) _ _ rfl fun a ha i _ => ?_
  split
  case isFalse => exact ha
  case isTrue hi =>
    have hne : i ≠ 17 := by
      rintro rfl
      simp only [Bool.and_eq_true, Bool.not_eq_true'] at hi
      simp [h hi.1] at hi
    simpa [hne] using ha

theorem inst_setInst_other (s : State) {i j : Nat} (x : Drbg) (h : j ≠ i) : inst (setInst s i x) j = inst s j := by
  simp [inst, setInst, State.setRng, List.getD_eq_getElem?_getD, Ne.symm h]

theorem starved_setInst_other (s : State) {i j : Nat} (x : Drbg) (h : j ≠ i) : starved (setInst s i x) j = starved s j := by
  rw [starved, inst_setInst_other s x h]
  rfl

/-! ## NOISE_WINDOW of a source in service (08 R272 to R274) -/

theorem fit_of_length {n : Nat} {b : Bytes} (h : b.length = n) : fit n b = b := by simp [fit, ← h]

/-- The roles of the sources, in their order. -/
def srcRoles (s : State) : List Nat := s.rng.srcs.map NoiseSrc.role

theorem healthy_eq (s : State) : healthy s = (srcRoles s).count 1 := by
  rw [healthy, srcRoles, List.count, List.countP_map, List.countP_eq_length_filter]
  rfl

theorem any_role_eq (s : State) (k : Nat) : s.rng.srcs.any (fun x => x.role == k) = (srcRoles s).any (· == k) := by
  simp [srcRoles, Function.comp_def]

theorem rngState_serving {s : State} (hs : s.rng.st = 1) (hh : 2 ≤ healthy s) : rngState s = s := by
  simp [rngState, hs, Nat.not_lt.2 hh]

/-- A change of the RNG that leaves the sources' roles leaves SUP_DEGRADED. -/
theorem supDegraded_setRng {s : State} {r : Rng} (h : r.srcs.map NoiseSrc.role = srcRoles s) : supDegraded (s.setRng r) = supDegraded s := by
  have hr : srcRoles (s.setRng r) = srcRoles s := h
  have hn : healthy (s.setRng r) = healthy s := by rw [healthy_eq, hr, healthy_eq]
  have ha : (s.setRng r).rng.srcs.any (fun x => x.role == 0) = s.rng.srcs.any (fun x => x.role == 0) := by
    rw [any_role_eq, hr, any_role_eq]
  rw [healthy, healthy] at hn
  simp only [supDegraded, hn, ha]
  rfl

theorem degradeCheck_same {s : State} (h : supDegraded s = s.sup.degradedSeen) : degradeCheck s = s := if_pos h

section Noise

variable {s : State} {i : Nat} {x : NoiseSrc} {w : Bytes}

/-- A source past a window that passed both tests. -/
def NoiseSrc.passed (x : NoiseSrc) : NoiseSrc :=
  { x with role := 1, recent := (true :: x.recent).take 64, windows := satAdd 32 x.windows 1 }

theorem NoiseSrc.passed_inService (hr : x.role = 1) :
    x.passed = { x with recent := (true :: x.recent).take 64, windows := satAdd 32 x.windows 1 } := by
  cases x
  cases hr
  rfl

/-- The RNG past a window of source `i` that passed both tests. -/
def rngOffered (s : State) (i : Nat) (x : NoiseSrc) (w : Bytes) : Rng :=
  { s.rng with windows := s.rng.windows ++ [(i, w)], srcs := s.rng.srcs.set i x.passed }

theorem noiseTested_passes (hx : s.rng.srcs[i]? = some x) (hr : repOk (samplesOf w) = true) (hp : propOk (samplesOf w) = true) :
    noiseTested s i w = s.setRng (rngOffered s i x w) := by
  simp only [noiseTested, List.getD_eq_getElem?_getD, hx, hr, hp]
  rfl

theorem rngOffered_roles (hx : s.rng.srcs[i]? = some x) (hr : x.role = 1) (w : Bytes) :
    (rngOffered s i x w).srcs.map NoiseSrc.role = srcRoles s := by
  have he : x.passed.role = (s.rng.srcs.map NoiseSrc.role)[i]'(by simpa using (List.getElem?_eq_some_iff.1 hx).1) := by
    simp [(List.getElem?_eq_some_iff.1 hx).2, hr, NoiseSrc.passed]
  rw [rngOffered, List.map_set, he, List.set_getElem_self, srcRoles]

/-- In SERVING, a window that passes leaves the RNG's state, the DRBGs and DEGRADED as they are. -/
theorem exec_noiseWindow_passes (hx : s.rng.srcs[i]? = some x) (hr : x.role = 1) (hl : s.lcs.st < 5) (hs : s.rng.st = 1)
    (hw : w.length = 128) (hh : 2 ≤ healthy s) (hd : s.sup.degradedSeen = supDegraded s) (h1 : repOk (samplesOf w) = true)
    (h2 : propOk (samplesOf w) = true) : exec (.noiseWindow i w) s = .next (s.setRng (rngOffered s i x w)) := by
  have hroles := rngOffered_roles hx hr w
  have hst : (s.setRng (rngOffered s i x w)).rng.st = 1 := hs
  have hh' : healthy (s.setRng (rngOffered s i x w)) = healthy s := by
    rw [healthy_eq, show srcRoles (s.setRng (rngOffered s i x w)) = srcRoles s from hroles, healthy_eq]
  change execNoiseWindow i w s = _
  simp only [execNoiseWindow, hx, if_pos (And.intro (Or.inl hr) hl), fit_of_length hw, noiseTested_passes hx h1 h2]
  rw [rngState_serving hst (hh'.symm ▸ hh), starveCheck_none fun j hj => absurd hj (by simp [starved_serving hst]),
    degradeCheck_same ((supDegraded_setRng hroles).trans hd.symm)]

end Noise

/-! ## Seeds and the DRBGs (08 R275 to R278) -/

section Instances

variable {s : State} {i : Nat} {a b : Bytes}

theorem exec_seedReady_digests {r : List (Nat × Bytes)} (hs : s.rng.st = 1) (hp : s.rng.pool.length < 4)
    (hw : windowPair s.rng.windows = some (a, b, r)) : exec .seedReady s = .next (s.setRng { s.rng with
      windows := r, pool := s.rng.pool ++ [sha3_256 (a ++ b)], seeds := (s.rng.seeds + 1) % 2 ^ 64 }) := by
  change execSeedReady s = _
  rw [execSeedReady, if_neg (by omega), hw]

theorem exec_drbgInstantiate_seeded {r : List Bytes} (hp : s.rng.pool = a :: b :: r) (hu : (inst s i).st = 0) (ht : seedTurn s = some i) :
    exec (.drbgInstantiate i) s = .next (spareSettle (starveCheck s (s.setRng { s.rng with
      pool := r, insts := s.rng.insts.set i { drbgInit (inst s i) a (b.take 16) (personal s i) with st := 1, reqs := 0 } }))) := by
  change execDrbgInstantiate i s = _
  simp only [execDrbgInstantiate, hp, if_pos (And.intro hu ht), setInst, State.setRng]

theorem exec_drbgReseed_seeded {r : List Bytes} (hp : s.rng.pool = a :: r) (hd : (inst s i).st = 2) (hb : (inst s i).busy = 0)
    (ht : seedTurn s = some i) : exec (.drbgReseed i) s =
      .next (starveCheck s (s.setRng { s.rng with
        pool := r, insts := s.rng.insts.set i { inst s i with busy := 2, left := 56, seed := a } })) := by
  change execDrbgReseed i s = _
  simp only [execDrbgReseed, hp, if_pos (And.intro hd (And.intro hb ht)), setInst, State.setRng]

theorem exec_drbgGenerate_starts (hi : i < 17) (hs : (inst s i).st = 1) (hb : (inst s i).busy = 0) (hl : (s.tower i).buf.length ≤ 192) :
    exec (.drbgGenerate i) s = .next (setInst s i { inst s i with busy := 1, left := 56, reqs := (inst s i).reqs + 1 }) :=
  if_pos ⟨hi, hs, hb, hl⟩

/-- A tower's DRBG past its 64-byte request, with the bytes in the buffer. -/
def generated (s : State) (i : Nat) : State :=
  (setInst s i (reseedDue s { (drbgGen (inst s i) 64).1 with busy := 0 })).setTower i
    { s.tower i with buf := (s.tower i).buf ++ (drbgGen (inst s i) 64).2 }

theorem exec_drbgRequestDone_generated (hb : (inst s i).busy = 1) (hl : (inst s i).left = 0) :
    exec (.drbgRequestDone i) s = .next (starveCheck s (generated s i)) := by
  change execDrbgRequestDone i s = _
  rw [execDrbgRequestDone, if_neg (by simp [hb, hl]), if_neg (by simp [hb])]
  rfl

theorem exec_drbgRequestDone_reseeded (hi : i < 17) (hb : (inst s i).busy = 2) (hl : (inst s i).left = 0) :
    exec (.drbgRequestDone i) s = .next (setInst s i { drbgUpdate (inst s i) (drbgDf (inst s i).seed) with
      st := 1, reqs := 0, busy := 0, seed := [], reseeds := satAdd 32 (inst s i).reseeds 1 }) := by
  change execDrbgRequestDone i s = _
  rw [execDrbgRequestDone, if_neg (by simp [hb, hl]), if_pos hb]
  exact congrArg Host.Outcome.next (if_neg hi.ne)

theorem generated_starved_17 (hi : i < 17) : starved (generated s i) 17 = starved s 17 := starved_setInst_other s _ (by omega)

theorem generated_buf (ht : i < s.towers.length) : ((generated s i).tower i).buf = (s.tower i).buf ++ (drbgGen (inst s i) 64).2 := by
  rw [generated, State.tower_setTower_same _ _ _ (by exact ht)]

end Instances

/-- Settles O29: each command by its law; the bytes of a request stay in the buffer, since a tower's DRBG that becomes STARVED ends
no call. -/
theorem noiseSourcesAndSeeds : Obligations.NoiseSourcesAndSeeds := by
  unfold Obligations.NoiseSourcesAndSeeds
  refine ⟨fun s i w x hx hr hl hs hw hh hd _ hrep hprop _ => ?window, fun s a b r hs hp hw => exec_seedReady_digests hs hp hw,
    fun s i a b r hp hu ht => exec_drbgInstantiate_seeded hp hu ht, fun s i a r hp hd hb ht => exec_drbgReseed_seeded hp hd hb ht,
    fun s i hi hs hb hl => exec_drbgGenerate_starts hi hs hb hl,
    fun s i hi hb hl ht => ⟨_, exec_drbgRequestDone_generated hb hl, ?buffer⟩,
    fun s i hi hb hl => exec_drbgRequestDone_reseeded hi hb hl⟩
  case window =>
    rw [exec_noiseWindow_passes hx hr hl hs hw hh hd (decide_eq_true hrep) (decide_eq_true hprop), rngOffered,
      NoiseSrc.passed_inService hr]
    rfl
  case buffer =>
    have ht17 : starved (generated s i) 17 = true → starved s 17 = true := fun h => (generated_starved_17 hi).symm.trans h
    rw [State.tower_of_towers_eq (starveCheck_towers ht17), generated_buf ht]

/-! ## RANDOM (08 R279) -/

theorem exec_randomCall_at {s : State} {t c : Nat} (h : atFigure s t c 0x0901 = true) :
    exec (.randomCall t c .none) s = .next (randomFig t c (pastYield s t c)) :=
  congrArg Host.Outcome.next (runFigure_at h _)

/-- The state past the request that RANDOM makes of DRBG 17. -/
def randomAsked (s : State) (t c : Nat) : State :=
  starveCheck s (setInst s 17 (reseedDue s { (drbgGen (inst s 17) (randomN (workDesc s t c))).1 with reqs := (inst s 17).reqs + 1 }))

/-- The bytes that DRBG 17 gives to RANDOM. -/
def randomBytes (s : State) (t c : Nat) : Bytes := (drbgGen (inst s 17) (randomN (workDesc s t c))).2

section Random

variable {s : State} {t c : Nat}

theorem randomFig_starved (h : starved s 17 = true) : randomFig t c s = rngUnavailable s t c := if_pos h

theorem randomFig_waits (h : starved s 17 = false) (hw : randomEarlier s t c = true ∨ (inst s 17).st ≠ 1) :
    randomFig t c s = setNeeds s t c [.draw17 (randomN (workDesc s t c))] := by
  rw [randomFig, if_neg (Bool.eq_false_iff.1 h), if_pos (by simpa using hw)]

theorem not_randomHeld (he : randomEarlier s t c = false) (hs : (inst s 17).st = 1) :
    (randomEarlier s t c || (inst s 17).st != 1) = false := by simp [he, hs]

section Serves

variable (h : starved s 17 = false) (he : randomEarlier s t c = false) (hs : (inst s 17).st = 1)
include h he hs

theorem randomFig_inline (hf : formOf (workDesc s t c) ≠ 2) : randomFig t c s =
    release17 (finishCall (randomAsked s t c) t c stOk (35 + 8 * ceilDiv (randomN (workDesc s t c)) 16) 0 (randomBytes s t c)) := by
  simp only [randomFig, randomAsked, randomBytes, h, not_randomHeld he hs, if_neg hf, Bool.false_eq_true, if_false]

theorem randomFig_list (hf : formOf (workDesc s t c) = 2) (hw : (writeOut (randomAsked s t c) t c (randomBytes s t c)).2 = true) :
    randomFig t c s = release17 (finishCall (writeOut (randomAsked s t c) t c (randomBytes s t c)).1 t c stOk
      (34 + 8 * ceilDiv (randomN (workDesc s t c)) 16) 0 []) := by
  simp only [randomAsked, randomBytes] at hw ⊢
  simp only [randomFig, h, not_randomHeld he hs, if_pos hf, hw, Bool.false_eq_true, if_false, if_true]

end Serves

end Random

/-- Settles O30: the command is its figure past the yield, and each clause the law of one fate of the figure. -/
theorem randomIsOneRequestOfInstance17 : Obligations.RandomIsOneRequestOfInstance17 := by
  unfold Obligations.RandomIsOneRequestOfInstance17
  intro s₀ t c ha s n x g s1
  rw [exec_randomCall_at ha]
  refine ⟨fun h => ?starved, fun h hw => ?waits, fun h he hs => ⟨fun hf => ?inline, fun hf hw => ?list⟩⟩
  case starved => exact congrArg Host.Outcome.next (randomFig_starved h)
  case waits => exact congrArg Host.Outcome.next (randomFig_waits h hw)
  case inline => exact congrArg Host.Outcome.next (randomFig_inline h he hs hf)
  case list => exact congrArg Host.Outcome.next (randomFig_list h he hs hf hw)

end Sys2Proof.Machine

/-! SUPPORT. The units that towers and calls share (09, 10): what a chunk of call data changes. -/

namespace Sys2Proof.Machine

/-! ## CHUNK_READ, and what the lanes of the call take up (08 R269) -/

/-- The descriptor of a MAC_GENERATE by CBC over a stream of 32 bytes. -/
def macStream : Bytes := patch (patch (patch (leBytes 2 0x0401 ++ zeros 126) 2 [2]) 56 [32]) 64 [1]

/-- The read of the call's first 16 bytes, issued whole. -/
def macChunk : DmaReq := { what := .chunk, granted := 1, len := 16 }

/-- Context 0 of tower 0 waits for that chunk of the call and holds lane 0. -/
def macWaits : State :=
  let w := ({} : State).tower 0
  { (({} : State).setTower 0 { w with
      ctxs := w.ctxs.set 0 { st := .waiting, call := some { desc := macStream }, needs := [.chunk] }
      clanes := w.clanes.set 0 { owner := some 0 } }) with hif := { dma := [macChunk] } }

/-- The bytes that cipher lane 0 of tower 0 has worked through, after a command that completes. -/
def laneCountAfter : Out → Option Nat
  | .next s => ((s.tower 0).clanes[0]?).map (·.regs.count)
  | _ => none

/-- Refutes O4: a chunk that arrives is worked through by the lanes of its call, whose registers take up its 16 bytes (08 R269), and the clause
of CHUNK_READ on a chunk with more to come leaves every lane as it was. -/
theorem not_sharedUnitsServeAndBreakStalls : ¬ Obligations.SharedUnitsServeAndBreakStalls := by
  unfold Obligations.SharedUnitsServeAndBreakStalls
  rintro ⟨-, -, -, hreads, -⟩
  obtain ⟨-, -, -, -, -, -, -, hchunk, -⟩ := hreads macWaits 0 0 (.data (zeros 16))
  have hmore := (hchunk macChunk (zeros 16) (by decide +kernel) rfl rfl (by decide +kernel)).2 (by decide +kernel) (by decide +kernel)
  have hcount : some 16 = some 0 := by
    calc some 16 = laneCountAfter (exec (.chunkRead 0 0 (.data (zeros 16)) .none) macWaits) := by decide +kernel
      _ = _ := congrArg laneCountAfter hmore
      _ = some 0 := by decide +kernel
  exact absurd hcount (by decide)

end Sys2Proof.Machine

/-! SUPPORT. Loading a curve (09): the check units, and the branches of CURVE_LOAD. -/

namespace Sys2Proof.Machine

/-! ## The check units of CURVE_LOAD (09 R296) -/

/-- The bisection finds the root that its interval holds. -/
theorem isqrtAux_eq_sqrt {n : Nat} (k : Nat) {r : Nat} (hl : r * r ≤ n) (hh : n < (r + 2 ^ k) * (r + 2 ^ k)) :
    isqrtAux n k r = Nat.sqrt n := by
  induction k generalizing r with
  | zero => exact Nat.eq_sqrt.2 ⟨hl, hh⟩
  | succ k ih =>
    rw [isqrtAux]
    split
    · next h => exact ih h (by rw [Nat.add_assoc, ← Nat.two_mul, ← Nat.pow_succ']; exact hh)
    · next h => exact ih hl (Nat.not_le.1 h)

/-- h·n lies within p + 1 ± 2√p, over the integers. -/
theorem hasseOk_iff {v : Curve} (hp : v.p < 2 ^ 521) : hasseOk v = true ↔
    ((v.h * v.n : Nat) - (v.p + 1 : Nat) : Int) * ((v.h * v.n : Nat) - (v.p + 1 : Nat) : Int) ≤ 4 * (v.p : Int) := by
  have hroot : isqrtAux (4 * v.p) 300 0 = Nat.sqrt (4 * v.p) := isqrtAux_eq_sqrt 300 (Nat.zero_le _) (by omega)
  generalize hd : ((v.h * v.n : Nat) - (v.p + 1 : Nat) : Int) = d
  have habs : d * d ≤ 4 * (v.p : Int) ↔ d.natAbs ≤ Nat.sqrt (4 * v.p) := by
    rw [Nat.le_sqrt, ← Int.natAbs_mul_self]
    omega
  rw [habs, hasseOk, hroot]
  simp only [Bool.and_eq_true, decide_eq_true_eq]
  omega

/-- The powers of p modulo n one by one, and whether none of them has been 1. -/
theorem embed_powers (p n k : Nat) :
    (List.range k).foldl (fun (a : Nat × Bool) _ => (a.1 * p % n, a.2 && a.1 * p % n != 1)) (1 % n, true) =
      (p ^ k % n, (List.range k).all (fun j => p ^ (j + 1) % n != 1)) := by
  induction k with
  | zero => rfl
  | succ k ih =>
    have hpow : p ^ k % n * p % n = p ^ (k + 1) % n := by rw [Nat.mod_mul_mod, ← Nat.pow_succ]
    rw [List.range_succ, List.foldl_append, ih, List.foldl_cons, List.foldl_nil, hpow, List.all_append, List.all_cons, List.all_nil,
      Bool.and_true]

theorem embedOk_iff (v : Curve) : embedOk v = true ↔ ∀ k, 1 ≤ k → k ≤ 20 → v.p ^ k % v.n ≠ 1 := by
  rw [embedOk, embed_powers]
  simp only [List.all_eq_true, List.mem_range, bne_iff_ne]
  refine ⟨fun h k h1 h20 => ?_, fun h j hj => h (j + 1) (by omega) (by omega)⟩
  obtain ⟨j, rfl⟩ := Nat.exists_eq_add_of_le' h1
  exact h j (by omega)

section UnitOk

variable (v : Curve) (fb : Nat) (r : Bytes)

theorem unitOk_size : unitOk v fb 0 r = true ↔ 192 ≤ bitLen v.p ∧ bitLen v.p ≤ 521 ∧ bitLen v.p ≤ 8 * fb := by
  simp [unitOk, unitCause, and_assoc]

theorem unitOk_primeField {u : Nat} (h1 : 1 ≤ u) (h40 : u ≤ 40) : unitOk v fb u r = mrPrime v.p [beVal r % (v.p - 3) + 2] := by
  have hu : unitCause u = 2 := by rw [unitCause, if_neg (by omega), if_pos h40]
  rw [unitOk, hu]
  rfl

theorem unitOk_coefficients : unitOk v fb 41 r = true ↔ v.a < v.p ∧ v.b < v.p := by simp [unitOk, unitCause]

theorem unitOk_discriminant : unitOk v fb 42 r = true ↔ (4 * v.a ^ 3 + 27 * v.b ^ 2) % v.p ≠ 0 := by
  have hcube : 4 * v.a * v.a * v.a + 27 * v.b * v.b = 4 * v.a ^ 3 + 27 * v.b ^ 2 := by ring
  simp [unitOk, unitCause, hcube]

theorem unitOk_basePoint : unitOk v fb 43 r = true ↔ onCurve v v.gx v.gy = true := Iff.rfl

theorem unitOk_cofactor : unitOk v fb 44 r = true ↔ 1 ≤ v.h ∧ v.h ≤ 4 ∧ v.n ≠ v.p := by simp [unitOk, unitCause, and_assoc]

theorem unitOk_primeOrder {u : Nat} (h45 : 45 ≤ u) (h84 : u ≤ 84) : unitOk v fb u r = mrPrime v.n [beVal r % (v.n - 3) + 2] := by
  have hu : unitCause u = 7 := by rw [unitCause, if_neg (by omega), if_neg (by omega), if_neg (by omega), if_pos h84]
  rw [unitOk, hu]
  rfl

theorem unitOk_baseOrder : unitOk v fb 86 r = true ↔ ecMul v v.n (ecG v) = none := Option.isNone_iff_eq_none

end UnitOk

/-! ## CURVE_LOAD (09 R295, R296) -/

section CurveLoad

variable {s : State} {t c : Nat}

/-- The curve of the call's input. -/
def loadedCurve (s : State) (t c : Nat) : Curve := inputCurve (par (workDesc s t c) 65) (inputOf s t c)

/-- The unit that PROGRESS names is a Miller-Rabin round whose base has not been drawn whole. -/
def BaseMissing (s : State) (t c : Nat) : Prop :=
  (unitCause (s.ctx t c).work.progress = 2 ∨ unitCause (s.ctx t c).work.progress = 7) ∧
    (s.ctx t c).work.drawn.length < par (workDesc s t c) 65

/-- The commands of the unit, and their operands. -/
def unitCommands (s : State) (t c : Nat) : List SpStep × List (Nat × Nat) :=
  curveUnit (loadedCurve s t c) (s.ctx t c).work.progress (s.ctx t c).work.drawn

/-- The state past the next part of the unit's commands. -/
def unitRan (s : State) (t c : Nat) : State :=
  if (unitCommands s t c).1 = [] then s else (spPart (unitCommands s t c).1 true false t c (loadHalf s t c (unitCommands s t c).2)).1

/-- The state past the unit's further time. -/
def unitSpent (s : State) (t c : Nat) : State :=
  spireSpend { unitRan s t c with free := (unitRan s t c).free + 1 } t c (Config.freeValue (unitRan s t c).free % 2 ^ 32)

/-- The verdict on the unit. -/
def unitPasses (s : State) (t c : Nat) : Bool :=
  unitOk (loadedCurve s t c) (par (workDesc s t c) 65) (s.ctx t c).work.progress (s.ctx t c).work.drawn

/-- PROGRESS has moved to the next unit. -/
def unitPassed (s : State) (t c : Nat) : State :=
  modWork (unitSpent s t c) t c (fun w => { w with progress := (s.ctx t c).work.progress + 1, pc := 0, bits := 0, drawn := [] })

theorem exec_curveLoad_at (h : atFigure s t c 0x0809 = true) : exec (.curveLoad t c .none) s = .next (curveLoad t c (pastYield s t c)) :=
  congrArg Host.Outcome.next (runFigure_at h _)

theorem curveLoad_full (h : curveSlot s (workDesc s t c) = none) : curveLoad t c s =
    finishCall { s with free := s.free + 1 } t c stCapacity (Config.freeValue s.free % 2 ^ 32) 0 [5] := by
  simp only [curveLoad, h]

variable {slot : Nat} (hs : curveSlot s (workDesc s t c) = some slot)
include hs

theorem curveLoad_draws (h : BaseMissing s t c) : curveLoad t c s =
    setNeeds s t c (drawNeeds (par (workDesc s t c) 65 - (s.ctx t c).work.drawn.length)) := by
  simp only [curveLoad, hs]
  exact if_pos (by simpa [BaseMissing] using h)

/-- With its base drawn, the unit runs a part; past its last one it rejects the curve, gives way to the next unit, or loads the curve. -/
theorem curveLoad_runs (h : ¬ BaseMissing s t c) : curveLoad t c s =
    if ((unitRan s t c).ctx t c).work.pc < (unitCommands s t c).1.length then unitRan s t c
    else
      let n := ((unitSpent s t c).ctx t c).work.sp
      let s3 := freeHalf (unitSpent s t c) t c
      let u := (s.ctx t c).work.progress
      if unitPasses s t c = false then finishCall (raise { s3 with curves := { s3.curves with reject := some (unitCause u, slot) } } pgCurves 2)
        t c stCurveRejected (38 + n + 15) n []
      else if u + 1 < 88 then
        if unitCause (u + 1) = 2 ∨ unitCause (u + 1) = 7 then setNeeds (unitPassed s t c) t c (drawNeeds (par (workDesc s t c) 65))
        else unitPassed s t c
      else finishCall (raise { s3 with curves := { s3.curves with
          slots := tblSet none s3.curves.slots slot (some (loadedCurve s t c)) } } pgCurves 1)
        t c stOk (38 + n + 15) n [] := by
  simp only [curveLoad, hs]
  rw [if_neg (by simpa [BaseMissing] using h)]
  simp only [List.isEmpty_iff, Bool.or_eq_true, beq_iff_eq, Bool.not_eq_true']
  rfl

end CurveLoad

/-- Settles O3: each unit's verdict by its law, and each fate of the call as a branch of `curveLoad_runs`. -/
theorem curveChecksRunInOrder : Obligations.CurveChecksRunInOrder := by
  unfold Obligations.CurveChecksRunInOrder
  refine ⟨by decide, fun v fb r => ⟨unitOk_size v fb r, unitOk_coefficients v fb r, unitOk_discriminant v fb r, unitOk_basePoint v fb r,
    unitOk_cofactor v fb r, fun u => unitOk_primeField v fb r, fun u => unitOk_primeOrder v fb r, hasseOk_iff, unitOk_baseOrder v fb r,
    embedOk_iff v⟩, ?calls⟩
  case calls =>
    intro s₀ t c ha s run d x u fb v short pr s1 s2 n s3
    have hrun : run = .next (curveLoad t c s) := exec_curveLoad_at ha
    refine ⟨fun hs => hrun.trans (congrArg _ (curveLoad_full hs)), fun slot hs => ?_⟩
    have hfate (h : ¬ short) := hrun.trans (congrArg _ (curveLoad_runs hs h))
    refine ⟨fun h => hrun.trans (congrArg _ (curveLoad_draws hs h)), fun h hpc => ?yields, fun h hpc hok => ?rejects, fun h hpc hok => ?passes⟩
    case yields => exact (hfate h).trans (congrArg _ (if_pos hpc))
    case rejects => exact (hfate h).trans (congrArg _ ((if_neg (Nat.not_lt.2 hpc)).trans (if_pos hok)))
    case passes =>
      have hpast := (hfate h).trans (congrArg _ ((if_neg (Nat.not_lt.2 hpc)).trans (if_neg (ne_false_of_eq_true hok))))
      exact ⟨fun hu => hpast.trans (congrArg _ (if_pos hu)), fun hu => hpast.trans (congrArg _ (if_neg (Nat.not_lt.2 hu)))⟩

end Sys2Proof.Machine

/-! SUPPORT. The Spire's memory (09): what a command leaves, gives and takes, and lists of commands alone. -/

namespace Sys2Proof.Machine

/-! ## Command words (09 R284) -/

theorem fieldOf_eq (v lo n : Nat) : fieldOf v lo n = v / 2 ^ lo % 2 ^ n := by rw [fieldOf, Nat.shiftRight_eq_div_pow]

theorem SpCmd.ofWord_word {c : SpCmd} (hop : c.op < 32) (hd : c.d < 64) (ha : c.a < 64) (hb : c.b < 64) (hn : c.n < 64)
    (hp : c.pset < 8) : SpCmd.ofWord c.word = c := by
  have hw : c.word.toNat = c.op + 2 ^ 5 * c.d + 2 ^ 11 * c.a + 2 ^ 17 * c.b + 2 ^ 23 * c.n + 2 ^ 29 * c.pset := by
    rw [SpCmd.word, BitVec.toNat_ofNat]
    omega
  obtain ⟨op, d, a, b, n, pset⟩ := c
  simp only [SpCmd.ofWord, fieldOf_eq, hw, SpCmd.mk.injEq]
  dsimp only at *
  omega

/-! ## What a command leaves alone (09 R285) -/

/-- Memory `y` is `x` but for its slots and the flag. -/
def Spire.SameBook (x y : Spire) : Prop := y = { x with slots := y.slots, flag := y.flag }

theorem Spire.SameBook.refl (x : Spire) : x.SameBook x := rfl

theorem Spire.SameBook.trans {x y z : Spire} (h : x.SameBook y) (g : y.SameBook z) : x.SameBook z := by
  rw [Spire.SameBook] at h g ⊢
  rw [g, h]

theorem Spire.sameBook_flag (x : Spire) (b : Bool) : x.SameBook { x with flag := b } := rfl

theorem Spire.sameBook_put (x : Spire) (i l v : Nat) : x.SameBook (x.put i l v) := rfl

theorem Spire.sameBook_putWide (x : Spire) (i l v : Nat) : x.SameBook (x.putWide i l v) := by
  unfold Spire.putWide
  generalize List.range _ = js
  induction js generalizing x with
  | nil => rfl
  | cons j js ih => exact (x.sameBook_put _ _ _).trans (ih _)

theorem Spire.sameBook_putPoly (x : Spire) (p i : Nat) (f : Poly) : x.SameBook (x.putPoly p i f) := x.sameBook_putWide _ _ _

theorem Spire.sameBook_putSmall (x : Spire) (w i : Nat) (f : Poly) : x.SameBook (x.putSmall w i f) := rfl

theorem Spire.sameBook_coef (x : Spire) (c : SpCmd) : x.SameBook (x.coef c) := by
  simp only [Spire.coef]
  split
  · exact x.sameBook_putPoly _ _ _
  · rfl
  · rfl
  · exact x.sameBook_putPoly _ _ _
  · exact (x.sameBook_putSmall _ _ _).trans (Spire.sameBook_putPoly _ _ _ _)
  · rfl
  · split <;> rfl
  · exact (x.sameBook_putSmall _ _ _).trans (Spire.sameBook_putPoly _ _ _ _)

/-- A command's operation touches the slots and the flag only. -/
theorem Spire.sameBook_exec (x : Spire) (c : SpCmd) : x.SameBook (x.exec c) := by
  simp only [Spire.exec]
  split <;> try rfl
  case h_12 => split <;> rfl
  case h_18 => exact x.sameBook_coef c
  all_goals exact x.sameBook_putPoly _ _ _

/-! ## The result of a command that is not refused (09 R285, R287) -/

/-- Memory `x` with a command's time counted as busy. -/
def Spire.spent (x : Spire) (c : SpCmd) : Spire := { x with busy := (x.busy + x.time c (x.more c)) % 2 ^ 64, cmd := 0 }

theorem Spire.run_refused {x : Spire} {c : SpCmd} (h : x.refuses c = true) :
    x.run c 0 = ({ x.spent c with refusals := satAdd 32 x.refusals 1 }, true) := by simp [Spire.run, h, Spire.spent]

theorem Spire.run_accepted {x : Spire} {c : SpCmd} (h : x.refuses c = false) : x.run c 0 = ((x.spent c).exec c, false) := by
  simp [Spire.run, h, Spire.spent]

theorem Spire.run_busy {x : Spire} {c : SpCmd} (h : x.refuses c = false) :
    (x.run c 0).1.busy = (x.busy + x.time c (x.more c)) % 2 ^ 64 := by
  rw [Spire.run_accepted h, (x.spent c).sameBook_exec c]
  rfl

theorem Spire.run_refusals {x : Spire} {c : SpCmd} (h : x.refuses c = false) : (x.run c 0).1.refusals = x.refusals := by
  rw [Spire.run_accepted h, (x.spent c).sameBook_exec c]
  rfl

theorem Spire.run_half1 (x : Spire) (c : SpCmd) : (x.run c 0).1.half1 = x.half1 := by
  cases h : x.refuses c
  · rw [Spire.run_accepted h, (x.spent c).sameBook_exec c]
    rfl
  · rw [Spire.run_refused h]
    rfl

theorem Spire.slot_put (x : Spire) (i l v j : Nat) :
    (x.put i l v).slot j = if j = i then { len := l, val := v % 2 ^ 4096 } else x.slot j := by
  split
  · subst_vars
    exact tblGet_set_same _ _ _ _
  · exact tblGet_set_other _ _ _ _ _ ‹_›

/-- What the modular commands MADD to MEXPP, by their OP, give for operands `a` and `b` and modulus `n`. -/
def modResult (op a b n : Nat) : Nat :=
  match op with
  | 1 => (a + b) % n
  | 2 => (a % n + n - b % n) % n
  | 3 => a * b % n
  | 4 => a % n
  | 5 => (modInv a n).getD 0
  | _ => modPow a b n

theorem Spire.exec_modular (x : Spire) {c : SpCmd} (h1 : 1 ≤ c.op) (h7 : c.op ≤ 7) : x.exec c =
    x.put c.d (x.slot c.n).len (modResult c.op (x.slot c.a).val (x.slot c.b).val (x.slot c.n).val) := by
  obtain ⟨op, d, a, b, n, pset⟩ := c
  dsimp only at h1 h7
  interval_cases op <;> rfl

theorem Spire.slot_run_modular {x : Spire} {c : SpCmd} (h : x.refuses c = false) (h1 : 1 ≤ c.op) (h7 : c.op ≤ 7) (j : Nat) :
    (x.run c 0).1.slot j = if j = c.d
      then ⟨(x.slot c.n).len, modResult c.op (x.slot c.a).val (x.slot c.b).val (x.slot c.n).val % 2 ^ 4096⟩ else x.slot j := by
  rw [Spire.run_accepted h, (x.spent c).exec_modular h1 h7, Spire.slot_put]
  rfl

theorem Spire.refuses_mexp_iff {x : Spire} {c : SpCmd} (h : c.op = 6) : x.refuses c = true ↔
    (x.slot c.a).val < 2 ∨ (x.slot c.n).val ≤ (x.slot c.a).val ∨ (x.slot c.b).val < 2 ∨ (x.slot c.n).val % 2 = 0 ∨
      bitOf (x.slot c.n).val ((x.slot c.n).len - 1) = false := by
  have hb (v : Nat) : v ≤ 1 ↔ v < 2 := by omega
  simp only [Spire.refuses, h, Bool.or_eq_true, decide_eq_true_eq, beq_iff_eq, Bool.not_eq_true', ge_iff_le, hb, or_assoc]

theorem Spire.refuses_minv_iff {x : Spire} {c : SpCmd} (h : c.op = 5) : x.refuses c = true ↔
    (x.slot c.a).val = 0 ∨ Nat.gcd (x.slot c.a).val (x.slot c.n).val ≠ 1 := by simp [Spire.refuses, h]

theorem Spire.refuses_mexpp_long {x : Spire} {c : SpCmd} (h : c.op = 7) (hl : 64 < (x.slot c.b).len + ones (x.slot c.b).val) :
    x.refuses c = true := by
  rw [ones] at hl
  simp [Spire.refuses, h, hl]

theorem Spire.accepts {x : Spire} {c : SpCmd} (h : c.op = 1 ∨ c.op = 2 ∨ c.op = 3 ∨ c.op = 4 ∨ c.op = 8 ∨ c.op = 28) :
    x.refuses c = false := by
  obtain h | h | h | h | h | h := h <;> simp [Spire.refuses, h]

theorem Spire.run_mcmp {x : Spire} {c : SpCmd} (h : c.op = 8) : (x.run c 0).1.slots = x.slots ∧
    (x.run c 0).1.flag = decide ((x.slot c.a).val = (x.slot c.b).val) ∧ (x.run c 0).1.busy = (x.busy + spA (x.slot c.n).len) % 2 ^ 64 := by
  have ha : x.refuses c = false := Spire.accepts (by simp [h])
  refine ⟨?_, ?_, ?_⟩
  · rw [Spire.run_accepted ha]
    simp [Spire.exec, h, Spire.spent]
  · rw [Spire.run_accepted ha]
    simp only [Spire.exec, h]
    rfl
  · rw [Spire.run_busy ha]
    simp [Spire.time, h]

theorem Spire.run_pscmp {x : Spire} {c : SpCmd} (h : c.op = 28) : let g := decide ((x.wide c.a).val = (x.wide c.b).val)
    (x.run c 0).1.flag = g ∧ (x.run c 0).1.slot c.d =
      { x.slot (if g then c.d else c.d + 1) with val := (x.slot (if g then c.d else c.d + 1)).val % 2 ^ 4096 } := by
  intro g
  rw [Spire.run_accepted (Spire.accepts (by simp [h]))]
  simp only [Spire.exec, h]
  exact ⟨rfl, tblGet_set_same _ _ _ _⟩

/-- Times of the modular commands over `l` bits, with a second operand of `e` bits and value `b` (09 R285). -/
def modTime (op l e b : Nat) : Nat :=
  match op with
  | 1 => spA l
  | 2 => spA l
  | 3 => spM l
  | 4 => 2 * spM l
  | 5 => spI l
  | 6 => spExp l e
  | _ => spExpP l e (ones b)

theorem Spire.time_modular (x : Spire) {c : SpCmd} (h1 : 1 ≤ c.op) (h7 : c.op ≤ 7) (more : Nat) :
    x.time c more = modTime c.op (x.slot c.n).len (x.slot c.b).len (x.slot c.b).val := by
  obtain ⟨op, d, a, b, n, pset⟩ := c
  dsimp only at h1 h7
  interval_cases op <;> rfl

/-- Operands, as named, of a command that is not refused: the destination and the time. -/
theorem Spire.run_modular {x : Spire} {c : SpCmd} {op : Nat} (hop : c.op = op) (h : x.refuses c = false) (h1 : 1 ≤ op) (h7 : op ≤ 7) :
    (x.run c 0).1.slot c.d =
      { len := (x.slot c.n).len, val := modResult op (x.slot c.a).val (x.slot c.b).val (x.slot c.n).val % 2 ^ 4096 } ∧
    (x.run c 0).1.busy = (x.busy + modTime op (x.slot c.n).len (x.slot c.b).len (x.slot c.b).val) % 2 ^ 64 := by
  subst hop
  rw [Spire.slot_run_modular h h1 h7, if_pos rfl, Spire.run_busy h, Spire.time_modular x h1 h7]
  exact ⟨rfl, rfl⟩

/-- The commands of R285 to R287, as the statement about the Spire gives them. -/
theorem Spire.run_laws (x : Spire) (c : SpCmd) :
    let y := (x.run c 0).1
    let a := (x.slot c.a).val
    let b := (x.slot c.b).val
    let n := (x.slot c.n).val
    let l := (x.slot c.n).len
    let e := (x.slot c.b).len
    let gives := fun (v time : Nat) => y.slot c.d = { len := l, val := v % 2 ^ 4096 } ∧ y.busy = (x.busy + time) % 2 ^ 64
    (x.refuses c = true → (x.run c 0).2 = true ∧ y.slots = x.slots ∧ y.flag = x.flag ∧ y.refusals = satAdd 32 x.refusals 1) ∧
    (x.refuses c = false → (x.run c 0).2 = false ∧ y.refusals = x.refusals) ∧
    (c.op = 1 → gives ((a + b) % n) (spA l)) ∧ (c.op = 2 → gives ((a % n + n - b % n) % n) (spA l)) ∧
    (c.op = 3 → gives (a * b % n) (spM l)) ∧ (c.op = 4 → gives (a % n) (2 * spM l)) ∧
    (c.op = 5 → (a = 0 ∨ Nat.gcd a n ≠ 1 → x.refuses c = true) ∧ (a ≠ 0 → Nat.gcd a n = 1 → gives ((modInv a n).getD 0) (spI l))) ∧
    (c.op = 6 → 2 ≤ a → a < n → 2 ≤ b → n % 2 = 1 → bitOf n (l - 1) = true → gives (modPow a b n) (spExp l e)) ∧
    (c.op = 6 → (a < 2 ∨ n ≤ a ∨ b < 2 ∨ n % 2 = 0 ∨ bitOf n (l - 1) = false) → x.refuses c = true) ∧
    (c.op = 7 → 64 < e + ones b → x.refuses c = true) ∧
    (c.op = 7 → x.refuses c = false → gives (modPow a b n) (spExpP l e (ones b))) ∧
    (c.op = 8 → y.slots = x.slots ∧ y.flag = decide (a = b) ∧ y.busy = (x.busy + spA l) % 2 ^ 64) ∧
    (c.op = 28 → let g := decide ((x.wide c.a).val = (x.wide c.b).val)
      y.flag = g ∧ y.slot c.d = { x.slot (if g then c.d else c.d + 1) with val := (x.slot (if g then c.d else c.d + 1)).val % 2 ^ 4096 }) := by
  intro y a b n l e gives
  refine ⟨fun h => ?refused, fun h => ⟨by rw [Spire.run_accepted h], Spire.run_refusals h⟩,
    fun h => Spire.run_modular h (Spire.accepts (by simp [h])) (by decide) (by decide),
    fun h => Spire.run_modular h (Spire.accepts (by simp [h])) (by decide) (by decide),
    fun h => Spire.run_modular h (Spire.accepts (by simp [h])) (by decide) (by decide),
    fun h => Spire.run_modular h (Spire.accepts (by simp [h])) (by decide) (by decide),
    fun h => ⟨(Spire.refuses_minv_iff h).2, fun ha hg => Spire.run_modular h ?minv (by decide) (by decide)⟩,
    fun h ha han hb hn hl => Spire.run_modular h ?mexp (by decide) (by decide), fun h => (Spire.refuses_mexp_iff h).2,
    Spire.refuses_mexpp_long, fun h hr => Spire.run_modular h hr (by decide) (by decide), Spire.run_mcmp, Spire.run_pscmp⟩
  case refused =>
    have hr := Spire.run_refused h
    exact ⟨congrArg (·.2) hr, congrArg (·.1.slots) hr, congrArg (·.1.flag) hr, congrArg (·.1.refusals) hr⟩
  case minv =>
    refine Bool.eq_false_iff.2 fun hr => ?_
    obtain h0 | h1 := (Spire.refuses_minv_iff h).1 hr
    · exact ha h0
    · exact h1 hg
  case mexp =>
    refine Bool.eq_false_iff.2 fun hr => ?_
    obtain h' | h' | h' | h' | h' := (Spire.refuses_mexp_iff h).1 hr
    · exact Nat.not_lt.2 ha h'
    · exact Nat.not_le.2 han h'
    · exact Nat.not_lt.2 hb h'
    · exact Nat.zero_ne_one (h'.symm.trans hn)
    · exact Bool.false_ne_true (h'.symm.trans hl)

/-! ## Commands without operands of their own, one after another (09 R282) -/

/-- A step list of commands alone. -/
def bareSteps (l : List SpCmd) : List SpStep := l.map (fun c => { cmd := c })

/-- The commands `l`, in the half from slot `b`, run on memory `x` in `n` cycles, none refused, and leave memory `y`. -/
inductive Spire.Runs (b : Nat) : Spire → List SpCmd → Nat → Spire → Prop
  | nil (x : Spire) : Spire.Runs b x [] 0 x
  | cons {x y : Spire} {c : SpCmd} {l : List SpCmd} {n : Nat} (ha : x.refuses (c.at_ b) = false)
      (hr : Spire.Runs b (x.run (c.at_ b) 0).1 l n y) : Spire.Runs b x (c :: l) (x.time (c.at_ b) (x.more (c.at_ b)) + n) y

/-- The Spire's memory is `y`, and the context's work has gone on by `f`. -/
def spireStep (s : State) (t c : Nat) (y : Spire) (f : Work → Work) : State :=
  modWork (s.setTower t { s.tower t with spire := y }) t c f

section SpireStep

variable {s : State} {t c : Nat} {k : Call} (hk : (s.ctx t c).call = some k) (y : Spire) (f : Work → Work)
include hk

theorem spireStep_ctx : (spireStep s t c y f).ctx t c = { s.ctx t c with work := f (s.ctx t c).work } := by
  obtain ⟨ht, hc⟩ := ctx_call_exists hk
  have hctxs (i : Nat) : ((s.setTower t { s.tower t with spire := y }).tower i).ctxs = (s.tower i).ctxs :=
    State.part_setTower (·.ctxs) (by rfl) i
  have hctx : (s.setTower t { s.tower t with spire := y }).ctx t c = s.ctx t c := by rw [State.ctx, hctxs, State.ctx]
  rw [spireStep, modWork, hctx, State.ctx_setCtx_same _ _ _ _ (by simpa [State.setTower] using ht) (by rwa [hctxs])]

theorem spireStep_spire : ((spireStep s t c y f).tower t).spire = y := by
  obtain ⟨ht, -⟩ := ctx_call_exists hk
  rw [spireStep, modWork, State.setCtx, State.part_setTower (·.spire) (by rfl), State.tower_setTower_same _ _ _ ht]

end SpireStep

section SpRun

variable {t c : Nat} {k : Call}

/-- Outside a job, the next part of a list of commands alone is its next command, whole. -/
theorem spPart_bare {s : State} {l : List SpCmd} {cmd : SpCmd} (hp : l[(s.ctx t c).work.pc]? = some cmd) (hb : (s.ctx t c).work.bits = 0) :
    let x := (s.tower t).spire
    let e := cmd.at_ (x.base c)
    ∃ f : Work → Work, spPart (bareSteps l) false true t c s = (spireStep s t c (x.run e 0).1 f, (x.run e 0).2) ∧
      ∀ w, (f w).pc = w.pc + 1 ∧ (f w).bits = 0 ∧ (f w).sp = w.sp + x.time e (x.more e) := by
  intro x e
  have hstep : (bareSteps l).getD (s.ctx t c).work.pc { cmd := {} } = { cmd := cmd } := by simp [bareSteps, hp]
  refine ⟨fun a => { a with
    pc := a.pc + 1, bits := 0, sp := a.sp + x.time e (x.more e), buf := (s.ctx t c).work.buf, progress := a.progress + x.bits e },
    ?_, fun w => ⟨rfl, rfl, rfl⟩⟩
  simp only [spPart, hstep, hb, if_true]
  rfl

/-- Commands alone, outside a job, run one after another until one refuses. -/
theorem spRun_bare (l : List SpCmd) {pre : List SpCmd} {s : State} (hk : (s.ctx t c).call = some k)
    (hb : (s.ctx t c).work.bits = 0) (hpc : (s.ctx t c).work.pc = pre.length) :
    let z := spRun (bareSteps (pre ++ l)) false true t c l.length s
    z.2 = false → (z.1.ctx t c).work.pc = pre.length + l.length ∧
      ∃ n, Spire.Runs ((s.tower t).spire.base c) (s.tower t).spire l n (z.1.tower t).spire ∧
        (z.1.ctx t c).work.sp = (s.ctx t c).work.sp + n := by
  induction l generalizing pre s with
  | nil => exact fun _ => ⟨hpc, 0, .nil _, rfl⟩
  | cons cmd l ih =>
    obtain ⟨f, hpart, hf⟩ := spPart_bare (s := s) (t := t) (c := c) (l := pre ++ cmd :: l) (cmd := cmd) (by simp [hpc]) hb
    obtain ⟨hfpc, hfb, hfsp⟩ := hf (s.ctx t c).work
    rw [List.length_cons, spRun]
    simp only [hpart]
    cases hr : (s.tower t).spire.refuses (cmd.at_ ((s.tower t).spire.base c)) with
    | true => simp [Spire.run_refused hr]
    | false =>
      have hctx := spireStep_ctx hk ((s.tower t).spire.run (cmd.at_ ((s.tower t).spire.base c)) 0).1 f
      have hsp := spireStep_spire hk ((s.tower t).spire.run (cmd.at_ ((s.tower t).spire.base c)) 0).1 f
      have hbase : (((s.tower t).spire.run (cmd.at_ ((s.tower t).spire.base c)) 0).1).base c = (s.tower t).spire.base c := by
        rw [Spire.base, Spire.run_half1, Spire.base]
      have hrest := ih (pre := pre ++ [cmd]) (s := spireStep s t c ((s.tower t).spire.run (cmd.at_ ((s.tower t).spire.base c)) 0).1 f)
        (by rw [hctx]; exact hk) (by rw [hctx]; exact hfb) (by rw [hctx, List.length_append]; exact hfpc.trans (by rw [hpc]; rfl))
      rw [hsp, hbase, hctx, hfsp, List.append_assoc] at hrest
      have hgo : (((s.tower t).spire.run (cmd.at_ ((s.tower t).spire.base c)) 0).2 = true) = False := by simp [Spire.run_accepted hr]
      simp only [hgo, if_false]
      intro hz
      obtain ⟨hpc', n, hruns, hn⟩ := hrest hz
      refine ⟨by simpa [Nat.add_assoc, Nat.add_comm 1] using hpc', _, .cons hr hruns, ?_⟩
      rw [← Nat.add_assoc]
      exact hn

end SpRun

end Sys2Proof.Machine

/-! SUPPORT. The RSA operation by the secret exponents (09): its ten commands on the slots of a half. -/

namespace Sys2Proof.Machine

/-! ## The slots of a half (09 R282, R284) -/

/-- Slot `i` of the half that begins at slot `b`. -/
def Spire.view (x : Spire) (b i : Nat) : SpSlot := x.slot (b + i)

theorem Spire.slot_add (x : Spire) (b i : Nat) : x.slot (i + b) = x.view b i := by rw [Spire.view, Nat.add_comm]

theorem Spire.view_putAll (l : List (Nat × Nat)) (x : Spire) (b : Nat) {i : Nat} (hi : i < l.length) :
    (x.putAll b l).view b i = ⟨l[i].1, l[i].2 % 2 ^ 4096⟩ := by
  have hbelow (r : List (Nat × Nat)) : ∀ (z : Spire) (k j : Nat), j < k → (z.putAll k r).slot j = z.slot j := by
    induction r with
    | nil => exact fun _ _ _ _ => rfl
    | cons e r ih => exact fun z k j h => (ih _ _ _ (by omega)).trans (by rw [Spire.slot_put, if_neg (by omega)])
  induction l generalizing x b i with
  | nil => exact absurd hi (Nat.not_lt_zero _)
  | cons e l ih =>
    cases i with
    | zero => exact (hbelow l _ _ _ (by omega)).trans ((Spire.slot_put ..).trans (if_pos rfl))
    | succ i =>
      have h := ih (x.put b e.1 e.2) (b + 1) (i := i) (by simpa using hi)
      rw [Spire.view, Nat.add_assoc, Nat.add_comm 1] at h
      exact h

section Modular

variable {x y : Spire} {b n : Nat} {c : SpCmd} {l : List SpCmd}

/-- The fields of a modular command by slots of a half. -/
theorem SpCmd.at_modular (h1 : 1 ≤ c.op) (h7 : c.op ≤ 7) (b : Nat) : c.at_ b =
    { c with d := c.d + b, a := c.a + b, b := if c.op = 4 ∨ c.op = 5 then c.b else c.b + b, n := c.n + b } := by
  obtain ⟨op, d, a, b', n, pset⟩ := c
  dsimp only at h1 h7
  interval_cases op <;> rfl

theorem modResult_unary {op : Nat} (h : op = 4 ∨ op = 5) (a b b' n : Nat) : modResult op a b n = modResult op a b' n := by
  obtain rfl | rfl := h <;> rfl

theorem modTime_unary {op : Nat} (h : op = 4 ∨ op = 5) (l e e' b b' : Nat) : modTime op l e b = modTime op l e' b' := by
  obtain rfl | rfl := h <;> rfl

theorem Spire.view_run_modular (h : x.refuses (c.at_ b) = false) (h1 : 1 ≤ c.op) (h7 : c.op ≤ 7) :
    (x.run (c.at_ b) 0).1.view b = Function.update (x.view b) c.d
      ⟨(x.view b c.n).len, modResult c.op (x.view b c.a).val (x.view b c.b).val (x.view b c.n).val % 2 ^ 4096⟩ := by
  have hat := SpCmd.at_modular h1 h7 b
  have hop : (c.at_ b).op = c.op := by rw [hat]
  funext i
  have hi : b + i = c.d + b ↔ i = c.d := by omega
  rw [Spire.view, Spire.slot_run_modular h (hop ▸ h1) (hop ▸ h7), Function.update_apply, hop, hat]
  refine if_congr hi ?_ rfl
  simp only [Spire.slot_add]
  split
  · next hu => rw [modResult_unary hu]
  · rw [Spire.slot_add]

theorem Spire.time_modular_at (h1 : 1 ≤ c.op) (h7 : c.op ≤ 7) (more : Nat) :
    x.time (c.at_ b) more = modTime c.op (x.view b c.n).len (x.view b c.b).len (x.view b c.b).val := by
  have hat := SpCmd.at_modular h1 h7 b
  have hop : (c.at_ b).op = c.op := by rw [hat]
  rw [Spire.time_modular x (hop ▸ h1) (hop ▸ h7), hop, hat]
  simp only [Spire.slot_add]
  split
  · next hu => rw [modTime_unary hu]
  · rw [Spire.slot_add]

theorem Spire.Runs.accepts (h : Spire.Runs b x (c :: l) n y) : x.refuses (c.at_ b) = false := by
  cases h
  assumption

/-- The next command of a run, where it is a modular one with operands `u` and `v` and modulus `w`, and its result fits a slot. -/
theorem Spire.Runs.modular (h : Spire.Runs b x (c :: l) n y) (h1 : 1 ≤ c.op) (h7 : c.op ≤ 7) {f : Nat → SpSlot} (hf : x.view b = f)
    (u v w : SpSlot) (hu : f c.a = u) (hv : f c.b = v) (hw : f c.n = w) {r : Nat} (hr : modResult c.op u.val v.val w.val = r)
    (hlt : r < 2 ^ 4096) : ∃ x' n', x'.view b = Function.update f c.d ⟨w.len, r⟩ ∧ n = modTime c.op w.len v.len v.val + n' ∧
      Spire.Runs b x' l n' y := by
  subst hf hu hv hw hr
  cases h with
  | cons ha hr =>
    refine ⟨_, _, ?_, congrArg (· + _) (Spire.time_modular_at h1 h7 _), hr⟩
    rw [Spire.view_run_modular ha h1 h7, Nat.mod_eq_of_lt hlt]

/-- An exponentiation that is not refused has an odd modulus of at least 3. -/
theorem Spire.mexp_modulus (h : x.refuses (c.at_ b) = false) (h6 : c.op = 6) : 2 < (x.view b c.n).val := by
  have hat := SpCmd.at_modular (c := c) (by omega) (by omega) b
  have hn := mt (Spire.refuses_mexp_iff (x := x) (c := c.at_ b) (by rw [hat, h6])).2 (by rw [h]; exact Bool.false_ne_true)
  simp only [hat, Spire.slot_add] at hn
  omega

theorem Spire.Runs.mcmp (h : Spire.Runs b x [c] n y) (h8 : c.op = 8) : y.view b = x.view b ∧ n = spA (x.view b c.n).len ∧
    y.flag = decide ((x.view b c.a).val = (x.view b c.b).val) := by
  have hat : c.at_ b = { c with a := c.a + b, b := c.b + b, n := c.n + b } := by
    obtain ⟨op, d, a, b', n, pset⟩ := c
    subst h8
    rfl
  cases h with
  | cons ha hr =>
    cases hr
    obtain ⟨hslots, hflag, -⟩ := Spire.run_mcmp (x := x) (c := c.at_ b) (by rw [hat, h8])
    refine ⟨?_, ?_, ?_⟩
    · funext i
      rw [Spire.view, Spire.slot, hslots]
      rfl
    · simp [Spire.time, hat, h8, Spire.slot_add]
    · rw [hflag, hat]
      simp only [Spire.slot_add]

end Modular

/-! ## The operation by the secret exponents of RSA (09 R293) -/

theorem modPow_lt (b e : Nat) {m : Nat} (hm : 0 < m) : modPow b e m < m := by
  have hfold (l : List Bool) : ∀ a, a < m → l.foldl (fun a x => if x then a * a % m * b % m else a * a % m) a < m := by
    induction l with
    | nil => exact fun _ h => h
    | cons x l ih => exact fun a _ => ih _ (by dsimp only; split <;> exact Nat.mod_lt _ hm)
  exact hfold _ _ (Nat.mod_lt _ hm)

theorem invAux_snd_lt {n : Nat} (hn : 0 < n) (k r0 r1 t0 t1 : Nat) (h0 : t0 < n) (h1 : t1 < n) : (invAux n k r0 r1 t0 t1).2 < n := by
  induction k generalizing r0 r1 t0 t1 with
  | zero => exact h0
  | succ k ih =>
    rw [invAux]
    split
    · exact h0
    · exact ih _ _ _ _ h1 (Nat.mod_lt _ hn)

theorem modInv_getD_lt (a : Nat) {n : Nat} (hn : 0 < n) : (modInv a n).getD 0 < n := by
  rw [modInv]
  dsimp only
  split
  · exact invAux_snd_lt hn _ _ _ _ _ hn (Nat.mod_lt _ hn)
  · exact hn

theorem beVal_lt (l : Bytes) : beVal l < 256 ^ l.length := by
  have hfold (l : Bytes) : ∀ a k, a < 256 ^ k → l.foldl (fun a b => a * 256 + b.toNat) a < 256 ^ (k + l.length) := by
    induction l with
    | nil => exact fun _ _ h => h
    | cons b l ih =>
      intro a k h
      have hb := b.isLt
      have := ih (a * 256 + b.toNat) (k + 1) (by rw [Nat.pow_succ]; omega)
      rwa [Nat.add_assoc, Nat.add_comm 1] at this
  exact Nat.zero_add l.length ▸ hfold l 0 0 Nat.one_pos

theorem beAt_lt (l : Bytes) (off len : Nat) : beAt l off len < 256 ^ len :=
  (beVal_lt _).trans_le (Nat.pow_le_pow_right (by decide) (by rw [sub_length]; exact Nat.min_le_left _ _))

/-- The commands of the operation by the secret exponents. -/
def rsaCmds : List SpCmd :=
  [{ op := 4, d := 8, a := 0, n := 1 }, { op := 4, d := 9, a := 0, n := 2 }, { op := 6, d := 8, a := 8, b := 3, n := 1 },
    { op := 6, d := 9, a := 9, b := 4, n := 2 }, { op := 2, d := 10, a := 8, b := 9, n := 1 }, { op := 3, d := 10, a := 10, b := 5, n := 1 },
    { op := 3, d := 11, a := 10, b := 2, n := 6 }, { op := 1, d := 11, a := 11, b := 9, n := 6 }, { op := 7, d := 12, a := 11, b := 7, n := 6 },
    { op := 8, d := 0, a := 12, b := 0, n := 6 }]

theorem rsaProg_bare : rsaProg = bareSteps rsaCmds := rfl

/-- Declared lengths and contents of the operands of the operation by the secret exponents over `x`. -/
structure RsaLoaded (f : Nat → SpSlot) (m x p q dp dq qi : Nat) : Prop where
  input : f 0 = ⟨m, x % 2 ^ 4096⟩
  prime1 : f 1 = ⟨m / 2, p % 2 ^ 4096⟩
  prime2 : f 2 = ⟨m / 2, q % 2 ^ 4096⟩
  exponent1 : f 3 = ⟨m / 2, dp % 2 ^ 4096⟩
  exponent2 : f 4 = ⟨m / 2, dq % 2 ^ 4096⟩
  inverse : f 5 = ⟨m / 2, qi % 2 ^ 4096⟩
  modulus : f 6 = ⟨m, p * q % 2 ^ 4096⟩
  exponent : f 7 = ⟨17, 65537⟩

section PrivateOperation

variable {x y : Spire} {b n m v p q dp dq qi : Nat} {f : Nat → SpSlot}

/-- The first four commands leave the two powers in slots 8 and 9. -/
theorem rsaCmds_powers (hx : x.view b = f) (hf : RsaLoaded f m v p q dp dq qi) (hv : v < 2 ^ 4096) (hp : p < 2 ^ 4096) (hq : q < 2 ^ 4096)
    (hdp : 2 < p → dp < p) (hdq : 2 < q → dq < q) {l : List SpCmd} (h : Spire.Runs b x (rsaCmds.take 4 ++ l) n y) :
    2 < p ∧ 2 < q ∧ ∃ x' n' g, x'.view b = g ∧ (∀ i, i < 8 → g i = f i) ∧ g 8 = ⟨m / 2, modPow (v % p) dp p⟩ ∧
      g 9 = ⟨m / 2, modPow (v % q) dq q⟩ ∧ n = 4 * spM (m / 2) + 2 * spExp (m / 2) (m / 2) + n' ∧ Spire.Runs b x' l n' y := by
  obtain ⟨h0, h1, h2, h3, h4, -, -, -⟩ := hf
  rw [Nat.mod_eq_of_lt hv] at h0
  rw [Nat.mod_eq_of_lt hp] at h1
  rw [Nat.mod_eq_of_lt hq] at h2
  obtain ⟨x1, n1, hx1, hn1, h⟩ := h.modular (by decide) (by decide) hx ⟨m, v⟩ ⟨m, v⟩ ⟨m / 2, p⟩ h0 h0 h1 (r := v % p) rfl
    ((Nat.mod_le _ _).trans_lt hv)
  obtain ⟨x2, n2, hx2, hn2, h⟩ := h.modular (by decide) (by decide) hx1 ⟨m, v⟩ ⟨m, v⟩ ⟨m / 2, q⟩ (by simpa) (by simpa) (by simpa)
    (r := v % q) rfl ((Nat.mod_le _ _).trans_lt hv)
  have hp3 : 2 < p := by simpa [hx2, Function.update_apply, h1] using Spire.mexp_modulus h.accepts rfl
  rw [Nat.mod_eq_of_lt ((hdp hp3).trans hp)] at h3
  obtain ⟨x3, n3, hx3, hn3, h⟩ := h.modular (by decide) (by decide) hx2 ⟨m / 2, v % p⟩ ⟨m / 2, dp⟩ ⟨m / 2, p⟩ (by simp) (by simpa)
    (by simpa) (r := modPow (v % p) dp p) rfl ((modPow_lt _ _ (Nat.zero_lt_of_lt hp3)).trans hp)
  have hq3 : 2 < q := by simpa [hx3, Function.update_apply, h2] using Spire.mexp_modulus h.accepts rfl
  rw [Nat.mod_eq_of_lt ((hdq hq3).trans hq)] at h4
  obtain ⟨x4, n4, hx4, hn4, h⟩ := h.modular (by decide) (by decide) hx3 ⟨m / 2, v % q⟩ ⟨m / 2, dq⟩ ⟨m / 2, q⟩ (by simp) (by simpa)
    (by simpa) (r := modPow (v % q) dq q) rfl ((modPow_lt _ _ (Nat.zero_lt_of_lt hq3)).trans hq)
  refine ⟨hp3, hq3, x4, n4, _, hx4, fun i hi => ?_, by simp, by simp, ?_, h⟩
  · simp [Nat.ne_of_lt hi, Nat.ne_of_lt (Nat.lt_succ_of_lt hi)]
  · rw [hn1, hn2, hn3, hn4]
    simp only [modTime]
    ring

/-- The last six commands combine the two powers, and check the result by the public exponent. -/
theorem rsaCmds_combine (hx : x.view b = f) (hf : RsaLoaded f m v p q dp dq qi) (hv : v < 2 ^ 4096) (hp : p < 2 ^ 4096) (hq : q < 2 ^ 4096)
    (hpq : p * q < 2 ^ 4096) (hqi : qi < p) (hq0 : 0 < q) {u w : Nat} (hu : u < p) (h8 : f 8 = ⟨m / 2, u⟩) (h9 : f 9 = ⟨m / 2, w⟩)
    (h : Spire.Runs b x (rsaCmds.drop 4) n y) :
    let r := (w + q * ((u + p - w % p) % p * qi % p)) % (p * q)
    n = spA (m / 2) + spM (m / 2) + spM m + 2 * spA m + spExpP m 17 2 ∧ (y.view b 11).val = r ∧
      (y.flag = true ↔ modPow r 65537 (p * q) = v) := by
  intro r
  have hp0 : 0 < p := Nat.zero_lt_of_lt hu
  have hpq0 : 0 < p * q := Nat.mul_pos hp0 hq0
  obtain ⟨h0, h1, h2, -, -, h5, h6, h7⟩ := hf
  rw [Nat.mod_eq_of_lt hv] at h0
  rw [Nat.mod_eq_of_lt hp] at h1
  rw [Nat.mod_eq_of_lt hq] at h2
  rw [Nat.mod_eq_of_lt (hqi.trans hp)] at h5
  rw [Nat.mod_eq_of_lt hpq] at h6
  obtain ⟨x5, n5, hx5, hn5, h⟩ := h.modular (by decide) (by decide) hx ⟨m / 2, u⟩ ⟨m / 2, w⟩ ⟨m / 2, p⟩ h8 h9 h1
    (r := (u + p - w % p) % p) (by rw [← Nat.mod_eq_of_lt hu]; simp [modResult]) ((Nat.mod_lt _ hp0).trans hp)
  obtain ⟨x6, n6, hx6, hn6, h⟩ := h.modular (by decide) (by decide) hx5 ⟨m / 2, (u + p - w % p) % p⟩ ⟨m / 2, qi⟩ ⟨m / 2, p⟩ (by simp)
    (by simpa) (by simpa) (r := (u + p - w % p) % p * qi % p) rfl ((Nat.mod_lt _ hp0).trans hp)
  obtain ⟨x7, n7, hx7, hn7, h⟩ := h.modular (by decide) (by decide) hx6 ⟨m / 2, (u + p - w % p) % p * qi % p⟩ ⟨m / 2, q⟩
    ⟨m, p * q⟩ (by simp) (by simpa) (by simpa) (r := (u + p - w % p) % p * qi % p * q % (p * q)) rfl ((Nat.mod_lt _ hpq0).trans hpq)
  obtain ⟨x8, n8, hx8, hn8, h⟩ := h.modular (by decide) (by decide) hx7 ⟨m, (u + p - w % p) % p * qi % p * q % (p * q)⟩ ⟨m / 2, w⟩
    ⟨m, p * q⟩ (by simp) (by simpa) (by simpa) (r := r) (by simp [modResult, r, Nat.add_comm, Nat.mul_comm]) ((Nat.mod_lt _ hpq0).trans hpq)
  obtain ⟨x9, n9, hx9, hn9, h⟩ := h.modular (by decide) (by decide) hx8 ⟨m, r⟩ ⟨17, 65537⟩ ⟨m, p * q⟩ (by simp) (by simpa)
    (by simpa) (r := modPow r 65537 (p * q)) rfl ((modPow_lt _ _ hpq0).trans hpq)
  obtain ⟨hy, hn, hflag⟩ := h.mcmp rfl
  have hones : ones 65537 = 2 := by decide
  refine ⟨?_, ?_, ?_⟩
  · rw [hn5, hn6, hn7, hn8, hn9, hn]
    simp only [modTime, hones]
    simp [hx9, h6]
    ring
  · simp [hy, hx9]
  · simp [hflag, hx9, h0]

/-- The operation by the secret exponents: its cycles, the result of the CRT, and the check by the public exponent (R293). -/
theorem rsaCmds_result (hf : RsaLoaded (x.view b) m v p q dp dq qi) (hv : v < 2 ^ 4096) (hp : p < 2 ^ 4096) (hq : q < 2 ^ 4096)
    (hpq : p * q < 2 ^ 4096) (hdp : 2 < p → dp < p) (hdq : 2 < q → dq < q) (hqi : 0 < p → qi < p) (h : Spire.Runs b x rsaCmds n y) :
    let u := modPow (v % p) dp p
    let w := modPow (v % q) dq q
    n = rsaPrivCycles m 17 2 ∧ (y.view b 11).val = (w + q * ((u + p - w % p) % p * qi % p)) % (p * q) ∧
      (y.flag = true ↔ modPow (y.view b 11).val 65537 (p * q) = v) := by
  intro u w
  obtain ⟨hp3, hq3, x', n', g, hx', hg, h8, h9, rfl, hrest⟩ := rsaCmds_powers rfl hf hv hp hq hdp hdq (l := rsaCmds.drop 4) h
  have hp0 : 0 < p := Nat.zero_lt_of_lt hp3
  have hload : RsaLoaded g m v p q dp dq qi := by
    obtain ⟨h0, h1, h2, h3, h4, h5, h6, h7⟩ := hf
    constructor <;> rw [hg _ (by decide)] <;> assumption
  obtain ⟨rfl, hr, hflag⟩ := rsaCmds_combine hx' hload hv hp hq hpq (hqi hp0) (Nat.zero_lt_of_lt hq3) (modPow_lt _ _ hp0) h8 h9 hrest
  refine ⟨?_, hr, hr ▸ hflag⟩
  rw [rsaPrivCycles]
  ring

end PrivateOperation

end Sys2Proof.Machine

/-! SUPPORT. The RSA operation by the secret exponents (09): the operands of a key, and the run of its commands in a call. -/

namespace Sys2Proof.Machine

/-! ## The operation by the secret exponents in a call that is not a job (09 R293) -/

section RsaFigure

variable {s : State} {t c : Nat}

/-- The state past the commands of the operation by the secret exponents over `x`, and whether one of them refused. -/
def rsaRan (s : State) (t c : Nat) (k : KeyRec) (x : Nat) : State × Bool :=
  spRun rsaProg false true t c 10 (loadHalf s t c (rsaOperands k x))

theorem loadHalf_first (hpc : (s.ctx t c).work.pc = 0) (hb : (s.ctx t c).work.bits = 0) (ops : List (Nat × Nat)) :
    loadHalf s t c ops = spireStep s t c (((s.tower t).spire.clearHalf ((s.tower t).spire.base c)).putAll ((s.tower t).spire.base c) ops)
      (fun a => { a with half := [], ops := ops.length }) := by
  simp [loadHalf, hpc, hb, spireStep]

theorem Spire.Runs.half1 {b n : Nat} {l : List SpCmd} {x y : Spire} (h : Spire.Runs b x l n y) : y.half1 = x.half1 := by
  induction h with
  | nil => rfl
  | cons _ _ ih => exact ih.trans (Spire.run_half1 _ _)

theorem Spire.putAll_half1 (l : List (Nat × Nat)) (x : Spire) (i : Nat) : (x.putAll i l).half1 = x.half1 := by
  induction l generalizing x i with
  | nil => rfl
  | cons e l ih => exact ih _ _

theorem two_pow_le {e k : Nat} (h : e ≤ k) : 2 ^ e ≤ 2 ^ k := Nat.pow_le_pow_right Nat.two_pos h

theorem rsaOperands_loaded (k : KeyRec) (v : Nat) (x : Spire) (b : Nat) :
    let p := (rsaPrimes k).1
    let q := (rsaPrimes k).2
    let d := (modInv rsaE ((p - 1) * (q - 1))).getD 0
    RsaLoaded ((x.putAll b (rsaOperands k v)).view b) (rsaBits k) v p q (d % (p - 1)) (d % (q - 1)) ((modInv q p).getD 0) := by
  intro p q d
  have hslot (i : Nat) (hi : i < (rsaOperands k v).length) := Spire.view_putAll (rsaOperands k v) x b hi
  have hlen : (rsaOperands k v).length = 8 := rfl
  have he : 65537 % 2 ^ 4096 = 65537 := Nat.mod_eq_of_lt ((by decide : 65537 < 2 ^ 17).trans_le (two_pow_le (k := 4096) (by decide)))
  exact ⟨hslot 0 (by simp [hlen]), hslot 1 (by simp [hlen]), hslot 2 (by simp [hlen]), hslot 3 (by simp [hlen]), hslot 4 (by simp [hlen]),
    hslot 5 (by simp [hlen]), hslot 6 (by simp [hlen]), (hslot 7 (by simp [hlen])).trans (congrArg (SpSlot.mk 17) he)⟩

theorem rsaPrimes_lt {k : KeyRec} (hm : rsaBits k ≤ 4096) :
    (rsaPrimes k).1 < 2 ^ 4096 ∧ (rsaPrimes k).2 < 2 ^ 4096 ∧ (rsaPrimes k).1 * (rsaPrimes k).2 < 2 ^ 4096 := by
  have hbytes : 256 ^ (rsaBits k / 16) = 2 ^ (8 * (rsaBits k / 16)) := by rw [Nat.pow_mul]
  have hp : (rsaPrimes k).1 < 2 ^ (8 * (rsaBits k / 16)) := hbytes ▸ beAt_lt _ _ _
  have hq : (rsaPrimes k).2 < 2 ^ (8 * (rsaBits k / 16)) := hbytes ▸ beAt_lt _ _ _
  have hpq : (rsaPrimes k).1 * (rsaPrimes k).2 < 2 ^ (8 * (rsaBits k / 16) + 8 * (rsaBits k / 16)) := by
    rw [Nat.pow_add]
    exact Nat.mul_lt_mul'' hp hq
  exact ⟨hp.trans_le (two_pow_le (k := 4096) (by omega)), hq.trans_le (two_pow_le (k := 4096) (by omega)),
    hpq.trans_le (two_pow_le (k := 4096) (by omega))⟩

theorem rsaRan_bare (s : State) (t c : Nat) (r : KeyRec) (x : Nat) : rsaRan s t c r x =
    spRun (bareSteps ([] ++ rsaCmds)) false true t c rsaCmds.length (loadHalf s t c (rsaOperands r x)) := rfl

variable {k : Call} (hk : (s.ctx t c).call = some k) (hpc : (s.ctx t c).work.pc = 0) (hb : (s.ctx t c).work.bits = 0) (r : KeyRec) (x : Nat)
include hk hpc hb

/-- Commands none of which refuses have all run. -/
theorem rsaRan_runs (h : (rsaRan s t c r x).2 = false) : (((rsaRan s t c r x).1).ctx t c).work.pc = 10 ∧
    ∃ (y : Spire) (n : Nat), y.base c = (s.tower t).spire.base c ∧ Spire.Runs (y.base c) (y.putAll (y.base c) (rsaOperands r x)) rsaCmds n
      ((rsaRan s t c r x).1.tower t).spire ∧ ((rsaRan s t c r x).1.ctx t c).work.sp = (s.ctx t c).work.sp + n := by
  have hload := loadHalf_first hpc hb (rsaOperands r x)
  have hctx := spireStep_ctx hk (((s.tower t).spire.clearHalf ((s.tower t).spire.base c)).putAll ((s.tower t).spire.base c) (rsaOperands r x))
    (fun a => { a with half := [], ops := (rsaOperands r x).length })
  have hsp := spireStep_spire hk (((s.tower t).spire.clearHalf ((s.tower t).spire.base c)).putAll ((s.tower t).spire.base c) (rsaOperands r x))
    (fun a => { a with half := [], ops := (rsaOperands r x).length })
  rw [← hload] at hctx hsp
  rw [rsaRan_bare] at h ⊢
  obtain ⟨hpc', n, hruns, hn⟩ := spRun_bare (k := k) rsaCmds (pre := []) (by rw [hctx]; exact hk) (by rw [hctx]; exact hb)
    (by rw [hctx]; exact hpc) h
  refine ⟨hpc', (s.tower t).spire.clearHalf ((s.tower t).spire.base c), n, rfl, ?_, hn.trans (by rw [hctx])⟩
  rw [hsp, Spire.base, Spire.putAll_half1] at hruns
  exact hruns

/-- The result of the operation by the secret exponents, its cycles and its check (R293). -/
theorem rsaRan_result (h : (rsaRan s t c r x).2 = false) (hm : rsaBits r ≤ 4096) (hx : x < 2 ^ 4096) (hsp : (s.ctx t c).work.sp = 0) :
    let p := (rsaPrimes r).1
    let q := (rsaPrimes r).2
    let d := (modInv rsaE ((p - 1) * (q - 1))).getD 0
    let u := modPow (x % p) (d % (p - 1)) p
    let v := modPow (x % q) (d % (q - 1)) q
    let y := ((rsaRan s t c r x).1.tower t).spire
    ((rsaRan s t c r x).1.ctx t c).work.sp = rsaPrivCycles (rsaBits r) 17 2 ∧
      (y.slot (y.base c + 11)).val = (v + q * ((u + p - v % p) % p * ((modInv q p).getD 0) % p)) % (p * q) ∧
      (y.flag = true ↔ modPow (y.slot (y.base c + 11)).val rsaE (p * q) = x) := by
  intro p q d u v y
  obtain ⟨-, z, n, -, hruns, hn⟩ := rsaRan_runs hk hpc hb r x h
  obtain ⟨hp, hq, hpq⟩ := rsaPrimes_lt hm
  have hexp {a : Nat} (ha : 2 < a) (e : Nat) : e % (a - 1) < a := (Nat.mod_lt _ (by omega)).trans_le (Nat.sub_le _ _)
  have hbase : y.base c = z.base c := by
    rw [Spire.base, hruns.half1, Spire.putAll_half1, Spire.base]
  rw [hn, hsp, Nat.zero_add, hbase]
  exact rsaCmds_result (rsaOperands_loaded r x z _) hx hp hq hpq (fun h2 => hexp h2 _) (fun h2 => hexp h2 _)
    (fun h0 => modInv_getD_lt _ h0) hruns

end RsaFigure
end Sys2Proof.Machine

/-! SUPPORT. The polynomial step lists (09): their cycles. -/

namespace Sys2Proof.Machine

/-! ## Cycles of the polynomial step lists (09 R285, R294) -/

/-- Cycles of a step's command, without blocks beyond the fixed ones. -/
def SpStep.cycles (p : SpStep) : Nat := ({} : Spire).time p.cmd 0

/-- Cycles of a product of two polynomials. -/
def mulCycles (pset : Nat) : Nat := if pset = 1 then 776 else 264

/-- Cycles of a transform. -/
def nttCycles (pset : Nat) : Nat := if pset = 1 then 1800 else 2056

/-- Cycles of the sampling of a matrix entry. -/
def samCycles (pset : Nat) : Nat := if pset = 1 then 408 else 268

section StepCycles

variable (p : Nat) (ins : List Nat) (out v w : Nat) (b : Unit → Bytes)

@[simp] theorem SpStep.cycles_ntt : (spPoly p 0x10 ins out).cycles = nttCycles p := rfl
@[simp] theorem SpStep.cycles_intt : (spPoly p 0x11 ins out).cycles = nttCycles p := rfl
@[simp] theorem SpStep.cycles_mul : (spPoly p 0x12 ins out).cycles = mulCycles p := rfl
@[simp] theorem SpStep.cycles_add : (spPoly p 0x13 ins out).cycles = 136 := rfl
@[simp] theorem SpStep.cycles_sub : (spPoly p 0x14 ins out).cycles = 136 := rfl
@[simp] theorem SpStep.cycles_sam (j i : Nat) : (spSam p out b j i).cycles = samCycles p := rfl
@[simp] theorem SpStep.cycles_cbd : (spBytes p 0x17 out b).cycles = 160 := rfl
@[simp] theorem SpStep.cycles_mask : (spBytes p 0x19 out b).cycles = 256 := rfl
@[simp] theorem SpStep.cycles_ball : (spBytes p 0x1A out b).cycles = 184 := rfl
@[simp] theorem SpStep.cycles_secret (g : Unit → List (Nat × Nat × Nat)) :
    { spBytes p 0x18 out b with given := g }.cycles = 208 := rfl
@[simp] theorem SpStep.cycles_coef (tr : Nat) : (spCoef p tr v out w).cycles = 136 := rfl
@[simp] theorem SpStep.cycles_coefOf (tr : Nat) : (spCoefOf p tr out b).cycles = 136 := rfl
@[simp] theorem SpStep.cycles_split (tr lo : Nat) : (spSplit tr v out lo).cycles = 136 := rfl
@[simp] theorem SpStep.cycles_norm (bound : Nat) : (spNorm v bound).cycles = 136 := rfl
@[simp] theorem SpStep.cycles_hint : (spHint v w out).cycles = 136 := rfl

end StepCycles

@[simp] theorem polyCycles_nil : polyCycles [] = 0 := rfl

@[simp] theorem polyCycles_cons (p : SpStep) (l : List SpStep) : polyCycles (p :: l) = p.cycles + polyCycles l := rfl

@[simp] theorem polyCycles_append (l r : List SpStep) : polyCycles (l ++ r) = polyCycles l + polyCycles r := by
  rw [polyCycles, List.map_append, List.sum_append]
  rfl

@[simp] theorem polyCycles_map {α : Type} (f : α → SpStep) (l : List α) : polyCycles (l.map f) = (l.map (fun a => (f a).cycles)).sum := by
  rw [polyCycles, List.map_map]
  rfl

@[simp] theorem polyCycles_flatMap {α : Type} (f : α → List SpStep) (l : List α) :
    polyCycles (l.flatMap f) = (l.map (fun a => polyCycles (f a))).sum := by
  induction l with
  | nil => rfl
  | cons a l ih => simp [ih]

/-- The blocks of a message of `n` bytes take 24 cycles each. -/
@[simp] theorem polyCycles_spHash (p rate n : Nat) (x : Byte) (b : Unit → Bytes) : polyCycles (spHash p rate n x b) = 24 * (n / rate + 1) := by
  rw [spHash, polyCycles_map]
  exact (congrArg List.sum (List.map_const' ..)).trans (by simp [Nat.mul_comm])

@[simp] theorem polyCycles_spDot (p acc : Nat) (l : List (Nat × Nat)) :
    polyCycles (spDot p acc l) = if l.length = 0 then 0 else mulCycles p + (l.length - 1) * (mulCycles p + 136) := by
  cases l with
  | nil => rfl
  | cons x r => simp [spDot]

/-- The two figures of R294 for key generation by ML-KEM. -/
theorem polyCycles_kemGen (r : Bytes) : polyCycles (kemGenProg 0x20 r) = 24696 ∧ polyCycles (kemGenProg 0x21 r) = 38200 := by
  simp [kemGenProg, kemSet, mulCycles, nttCycles, samCycles]

/-- The two figures of R294 for key generation by ML-DSA. -/
theorem polyCycles_dsaGen (r : Bytes) : polyCycles (dsaGenProg 0x22 r) = 49272 ∧ polyCycles (dsaGenProg 0x23 r) = 77176 := by
  simp [dsaGenProg, dsaMatrixProg, dsaRowProg, dsaSet, mulCycles, nttCycles, samCycles]

/-- μ is the hash of 66 bytes and the message: the first 69 bytes of the message fill no further block. -/
theorem muBlocks (n : Nat) : (66 + n) / 136 = ceilDiv (n - 69) 136 := by
  rw [ceilDiv]
  omega

/-- What a signature by ML-DSA begins with: fixed cycles, and the further blocks of the message. -/
theorem polyCycles_dsaSetup (sk m r : Bytes) :
    polyCycles (dsaSetupProg 0x22 sk m r) = 45352 + 24 * ceilDiv (m.length - 69) 136 ∧
    polyCycles (dsaSetupProg 0x23 sk m r) = 65472 + 24 * ceilDiv (m.length - 69) 136 := by
  constructor
  · simp [dsaSetupProg, dsaMatrixProg, dsaSet, nttCycles, samCycles, muBlocks]
    omega
  · simp [dsaSetupProg, dsaMatrixProg, dsaSet, nttCycles, samCycles, muBlocks]
    omega

/-- An attempt of a signature by ML-DSA. -/
theorem polyCycles_dsaTry (sk m r : Bytes) (n : Nat) :
    polyCycles (dsaTryProg 0x22 sk m r n) = 84816 ∧ polyCycles (dsaTryProg 0x23 sk m r n) = 120368 := by
  simp -implicitDefEqProofs [dsaTryProg, dsaRowProg, dsaSet, mulCycles, nttCycles]

end Sys2Proof.Machine

/-! SUPPORT. The public-key figures (09): one law for each fate of a call. -/

namespace Sys2Proof.Machine

section RsaFates

variable {s : State} {t c : Nat} (hj : isJobCtx s t c = false) (h before x : Nat) (r : KeyRec) (f : State → Nat → Nat → State)
include hj

theorem rsaFigure_refused (h2 : (rsaRan s t c r x).2 = true) : rsaFigure s t c h before r x f =
    finishCall (rsaRan s t c r x).1 t c stRefusedInput (38 + before + ((rsaRan s t c r x).1.ctx t c).work.sp + 13)
      ((rsaRan s t c r x).1.ctx t c).work.sp [] := by
  rw [rsaRan] at *
  simp only [rsaFigure, hj, Bool.false_eq_true, if_false, h2, if_true]
  rfl

/-- Where no command refuses, the check by the public exponent decides. -/
theorem rsaFigure_ran (h2 : (rsaRan s t c r x).2 = false) (hpc : ((rsaRan s t c r x).1.ctx t c).work.pc = 10) :
    let y := ((rsaRan s t c r x).1.tower t).spire
    let n := ((rsaRan s t c r x).1.ctx t c).work.sp
    let s1 := freeHalf (rsaRan s t c r x).1 t c
    rsaFigure s t c h before r x f = if y.flag then f s1 n (y.slot (y.base c + 11)).val
      else finishCall (countSpireFault s1 t) t c stDeviceFault (38 + h + n + 15) n [] := by
  rw [rsaRan] at *
  simp only [rsaFigure, hj, Bool.false_eq_true, if_false, h2, hpc, Nat.lt_irrefl]
  rfl

/-- The ends of an operation by the secret exponents outside a job: a refused operand, a failed check, or the result, which `f` puts out. -/
theorem rsaFigure_fates {k : Call} (hk : (s.ctx t c).call = some k) (hpc : (s.ctx t c).work.pc = 0) (hb : (s.ctx t c).work.bits = 0) :
    let z := rsaRan s t c r x
    let y := (z.1.tower t).spire
    let n := (z.1.ctx t c).work.sp
    (z.2 = true → rsaFigure s t c h before r x f = finishCall z.1 t c stRefusedInput (38 + before + n + 13) n []) ∧
    (z.2 = false → y.flag = false → rsaFigure s t c h before r x f =
      finishCall (countSpireFault (freeHalf z.1 t c) t) t c stDeviceFault (38 + h + n + 15) n []) ∧
    (z.2 = false → y.flag = true → rsaFigure s t c h before r x f = f (freeHalf z.1 t c) n (y.slot (y.base c + 11)).val) := by
  have hrefused := rsaFigure_refused hj h before x r f
  have hran (hok : (rsaRan s t c r x).2 = false) := rsaFigure_ran hj h before x r f hok (rsaRan_runs hk hpc hb r x hok).1
  generalize rsaRan s t c r x = z at *
  exact ⟨hrefused, fun hok hf => (hran hok).trans (if_neg (ne_true_of_eq_false hf)), fun hok hf => (hran hok).trans (if_pos hf)⟩

end RsaFates

/-! ## The public-key figures (09 R290 to R294) -/

section Figures

variable {s : State} {t c : Nat}

theorem exec_pkSign_at (h : atFigure s t c 0x0801 = true) : exec (.pkSign t c .none) s = .next (pkSign t c (pastYield s t c)) :=
  congrArg Host.Outcome.next (runFigure_at h _)

theorem exec_pkVerify_at (h : atFigure s t c 0x0802 = true) : exec (.pkVerify t c .none) s = .next (pkVerify t c (pastYield s t c)) :=
  congrArg Host.Outcome.next (runFigure_at h _)

theorem exec_pkDecrypt_at (h : atFigure s t c 0x0803 = true) : exec (.pkDecrypt t c .none) s = .next (pkDecrypt t c (pastYield s t c)) :=
  congrArg Host.Outcome.next (runFigure_at h _)

theorem exec_pkAgree_at (h : atFigure s t c 0x0804 = true) : exec (.pkAgree t c .none) s = .next (pkAgree t c (pastYield s t c)) :=
  congrArg Host.Outcome.next (runFigure_at h _)

theorem exec_pkKeygen_at (h : atFigure s t c 0x0805 = true) : exec (.pkKeygen t c .none) s = .next (pkKeygen t c (pastYield s t c)) :=
  congrArg Host.Outcome.next (runFigure_at h _)

theorem exec_pqKemDecaps_at (h : atFigure s t c 0x0806 = true) : exec (.pqKemDecaps t c .none) s = .next (pqDecaps t c (pastYield s t c)) :=
  congrArg Host.Outcome.next (runFigure_at h _)

theorem exec_pqSign_at (h : atFigure s t c 0x0807 = true) : exec (.pqSign t c .none) s = .next (pqSign t c (pastYield s t c)) :=
  congrArg Host.Outcome.next (runFigure_at h _)

theorem exec_pqVerify_at (h : atFigure s t c 0x0808 = true) : exec (.pqVerify t c .none) s = .next (pqVerify t c (pastYield s t c)) :=
  congrArg Host.Outcome.next (runFigure_at h _)

theorem call_of_atFigure {op : Nat} (h : atFigure s t c op = true) : ∃ k, ((pastYield s t c).ctx t c).call = some k := by
  obtain ⟨-, -, -, hcall, -⟩ := atFigure_call h
  rwa [pastYield_ctx]

/-- Where the steps refuse an operand is a free choice among `k` commands of `a` cycles each. -/
theorem spireRefuseOpen_refused (s : State) (t c : Nat) (prog : List SpStep) (ops : List (Nat × Nat)) (n k a : Nat) :
    ∃ m, m ≤ n + k * a ∧ spireRefuseOpen s t c prog ops n k a =
      finishCall (spCall { s with free := s.free + 1 } t c prog ops m true) t c stRefusedInput (38 + m + 13) m [] :=
  ⟨n + Config.freeValue s.free % (k + 1) * a,
    Nat.add_le_add_left (Nat.mul_le_mul_right a (Nat.le_of_lt_succ (Nat.mod_lt _ (Nat.succ_pos k)))) n, rfl⟩

theorem spireEndOut_eq (s : State) (t c h n : Nat) (x res : Bytes) : spireEndOut s t c h n x res =
    let a := writeOut s t c x
    if a.2 then finishCall a.1 t c stOk (38 + h + n + 15) n res else a.1 := by
  rw [spireEndOut]
  rfl

section EllipticCurve

/-- What an ECDSA verification by the call's key comes to on the call's input. -/
def verifyEnd (s : State) (t c : Nat) (e : Curve) : EcdsaEnd :=
  let sg := (inputOf s t c).drop (hashLen (par (workDesc s t c) 65))
  ecdsaRun e ((decPoint e (keyOf s t c 0).material).getD (0, 0)) ((inputOf s t c).take (hashLen (par (workDesc s t c) 65)))
    (beVal (sg.take e.nb)) (beVal (sg.drop e.nb))

/-- The operands of that verification. -/
def verifyOps (s : State) (t c : Nat) (e : Curve) : List (Nat × Nat) :=
  let sg := (inputOf s t c).drop (hashLen (par (workDesc s t c) 65))
  ecVerifyOps e ((decPoint e (keyOf s t c 0).material).getD (0, 0)) ((inputOf s t c).take (hashLen (par (workDesc s t c) 65)))
    (beVal (sg.take e.nb)) (beVal (sg.drop e.nb))

/-- The operands of the call's agreement. -/
def agreeOps (s : State) (t c : Nat) (e : Curve) : List (Nat × Nat) :=
  ecDhOps e (beVal (keyOf s t c 0).material) (rawPoint e (inputOf s t c))

/-- The key that an agreement on the point with coordinate `x` derives (08 R262). -/
def agreedKey (s : State) (t c : Nat) (e : Curve) (x : Nat) : Bytes :=
  let d := workDesc s t c
  kdf108 (aesC (kdf108 (aesC (zeros 32)) (ascii "AGRX") (beBytes e.fb x) 256)) (ascii "AGRE") (sub d 97 (par d 96) ++ sub d 64 10)
    (if (attrRec d).alg = 6 then 256 else 8 * algBytes (attrRec d).alg)

variable {e : Curve} (hc : keyCurve s (keyOf s t c 0) = some e)
include hc

theorem pkSign_ec (ha : (keyOf s t c 0).alg ≠ 0x18) :
    let d := beVal (keyOf s t c 0).material
    let k := drawnScalar e (drawnOf s t c)
    let g := ecdsaSign e d k (inputOf s t c)
    g.1 ≠ 0 → g.2 ≠ 0 → pkSign t c s = spireEndOut (spCall s t c ecSignProg (ecSignOps e d k (inputOf s t c)) (ecSignCycles e) false) t c 0
      (ecSignCycles e) (beBytes e.nb g.1 ++ beBytes e.nb g.2) [] := by
  intro d k g hr hs
  simp only [pkSign, if_neg ha, hc]
  exact if_neg (not_or.2 ⟨hr, hs⟩)

theorem pkVerify_verdict (ha : (keyOf s t c 0).alg ≠ 0x18) {ok : Bool} (h : verifyEnd s t c e = .verdict ok) : pkVerify t c s =
    spireEnd (spCall s t c (ecVerifyProg e) (verifyOps s t c e) (ecVerifyCycles e) false) t c 0 (ecVerifyCycles e)
      (if ok then stOk else stVerifyFail) [] := by
  rw [verifyEnd] at h
  simp only [pkVerify, if_neg ha, hc, h]
  rfl

/-- A verification without a verdict meets the point at infinity, in its ladder or in its last addition, and a command refuses it. -/
theorem pkVerify_refused (ha : (keyOf s t c 0).alg ≠ 0x18) (h : ∀ ok, verifyEnd s t c e ≠ .verdict ok) : ∃ n, n ≤ ecVerifyCycles e ∧
    pkVerify t c s = finishCall (spCall { s with free := s.free + 1 } t c (ecVerifyProg e) (verifyOps s t c e) n true) t c stRefusedInput
      (38 + n + 13) n [] := by
  have hopen (n : Nat) (hn : n + 7 * spA (bitLen e.p) ≤ ecVerifyCycles e) (hrun : pkVerify t c s =
      spireRefuseOpen s t c (ecVerifyProg e) (verifyOps s t c e) n 7 (spA (bitLen e.p))) : ∃ m, m ≤ ecVerifyCycles e ∧ pkVerify t c s =
      finishCall (spCall { s with free := s.free + 1 } t c (ecVerifyProg e) (verifyOps s t c e) m true) t c stRefusedInput (38 + m + 13) m [] := by
    obtain ⟨m, hm, hm'⟩ := spireRefuseOpen_refused s t c (ecVerifyProg e) (verifyOps s t c e) n 7 (spA (bitLen e.p))
    exact ⟨m, hm.trans hn, hrun.trans hm'⟩
  cases hg : verifyEnd s t c e with
  | verdict ok => exact absurd hg (h ok)
  | ladder =>
    refine hopen (spI (bitLen e.p) + 2 * spM (bitLen e.p) + 242 * (bitLen e.n + 1)) (by rw [ecVerifyCycles]; omega) ?_
    rw [verifyEnd] at hg
    simp only [pkVerify, if_neg ha, hc, hg]
    rfl
  | affine =>
    refine hopen (spI (bitLen e.p) + 2 * spM (bitLen e.p) + 242 * (bitLen e.n + 1) + spI (bitLen e.p) + 2 * spM (bitLen e.p))
      (by rw [ecVerifyCycles]; omega) ?_
    rw [verifyEnd] at hg
    simp only [pkVerify, if_neg ha, hc, hg]
    rfl

theorem pkAgree_offCurve (h : decPoint e (inputOf s t c) = none) : pkAgree t c s =
    finishCall (spCall s t c ecDhProg (agreeOps s t c e) (4 * spM (bitLen e.p)) true) t c stRefusedInput
      (38 + 4 * spM (bitLen e.p) + 13) (4 * spM (bitLen e.p)) [] := by
  simp only [pkAgree, hc, h]
  rfl

variable {q : Nat × Nat} (hq : decPoint e (inputOf s t c) = some q)
include hq

theorem pkAgree_infinity (h : ecMul e (e.h * beVal (keyOf s t c 0).material) (some q) = none) : ∃ n, n ≤ ecDhCycles e ∧ pkAgree t c s =
    finishCall (spCall { s with free := s.free + 1 } t c ecDhProg (agreeOps s t c e) n true) t c stRefusedInput (38 + n + 13) n [] := by
  obtain ⟨m, hm, hm'⟩ := spireRefuseOpen_refused s t c ecDhProg (agreeOps s t c e) (ecDhCycles e - spA (bitLen e.p)) 1 (spA (bitLen e.p))
  refine ⟨m, hm.trans (by rw [ecDhCycles]; omega), ?_⟩
  rw [← hm']
  simp only [pkAgree, hc, hq, h]
  rfl

theorem pkAgree_agrees {x y : Nat} (h : ecMul e (e.h * beVal (keyOf s t c 0).material) (some q) = some (x, y)) :
    pkAgree t c s = spireCreate s t c ecDhProg (agreeOps s t c e) (ecDhCycles e) 40 (agreedKey s t c e x) := by
  simp only [pkAgree, hc, hq, h]
  rfl

end EllipticCurve

theorem pkKeygen_ec {e : Curve} (h : par (workDesc s t c) 64 < 0x18)
    (he : curveOf s (par (workDesc s t c) 64) (par (workDesc s t c) 98) = some e) :
    let seed := (drawnOf s t c).take (scalarDraw e)
    pkKeygen t c s = keygenPlace s t c (ecGenProg e) (ecGenOps e (beVal seed % 2 ^ (bitLen e.n + 64))) (ecGenCycles e) (ecGenCycles e)
      (beBytes e.nb (drawnScalar e seed)) (ecPublic e (drawnScalar e seed))
      (if par (workDesc s t c) 64 = 0x13 then [BitVec.ofNat 8 (par (workDesc s t c) 98)] else []) := by
  have hrsa : ¬ par (workDesc s t c) 64 = 0x18 := by omega
  have hpq : ¬ par (workDesc s t c) 64 ≥ 0x20 := by omega
  simp only [pkKeygen, if_neg hrsa, if_neg hpq, he]

section Rsa

/-- The message that an operation by the secret exponents takes for a signature: the call's digest, encoded. -/
def signInput (s : State) (t c : Nat) : Nat :=
  let d := workDesc s t c
  let m := rsaBits (keyOf s t c 0)
  beVal (if par d 64 = 2 then emsaPkcs1 (m / 8) (hashLen (par d 65)) (inputOf s t c)
    else emsaPss (hashFn (par d 65)) (hashLen (par d 65)) m (inputOf s t c) ((drawnOf s t c).take (hashLen (par d 65))))

/-- H of a signature by RSA. -/
def signHash (s : State) (t c : Nat) : Nat := rsaH (par (workDesc s t c) 64) (par (workDesc s t c) 65) (rsaBits (keyOf s t c 0) / 8)

/-- H of a decryption by RSA. -/
def decryptHash (s : State) (t c : Nat) : Nat := hashWork (par (workDesc s t c) 65) (rsaBits (keyOf s t c 0) / 8)

/-- The message that the result `y` of a decryption encodes. -/
def decoded (s : State) (t c y : Nat) : Option Bytes :=
  oaepDecode (hashFn (par (workDesc s t c) 65)) (hashLen (par (workDesc s t c) 65)) (beBytes (rsaBits (keyOf s t c 0) / 8) y)

/-- The end of a decryption with result `y`. -/
def decryptEnd (s : State) (t c : Nat) (a : State) (n y : Nat) : State :=
  match decoded s t c y with
  | none => spireEnd a t c (decryptHash s t c) n stVerifyFail []
  | some msg => spireEndOut a t c (decryptHash s t c) n msg (leBytes 2 msg.length)

theorem decryptEnd_none {a : State} {n y : Nat} (h : decoded s t c y = none) :
    decryptEnd s t c a n y = finishCall a t c stVerifyFail (38 + decryptHash s t c + n + 15) n [] := by
  rw [decryptEnd, h]
  rfl

theorem decryptEnd_some {a : State} {n y : Nat} {v : Bytes} (h : decoded s t c y = some v) :
    decryptEnd s t c a n y = spireEndOut a t c (decryptHash s t c) n v (leBytes 2 v.length) := by rw [decryptEnd, h]

/-- The end of an operation by the secret exponents with result `y`, in a decryption (`dec`) or a signature of `h` hash cycles. -/
def rsaEnd (s : State) (t c : Nat) (dec : Bool) (h : Nat) (a : State) (n y : Nat) : State :=
  if dec then decryptEnd s t c a n y else spireEndOut a t c h n (beBytes (rsaBits (keyOf s t c 0) / 8) y) []

theorem pkSign_rsa (ha : (keyOf s t c 0).alg = 0x18) : pkSign t c s =
    rsaFigure s t c (signHash s t c) (signHash s t c) (keyOf s t c 0) (signInput s t c)
      (rsaEnd s t c false (signHash s t c)) := if_pos ha

theorem pkDecrypt_rsa : pkDecrypt t c s =
    rsaFigure s t c (decryptHash s t c) 0 (keyOf s t c 0) (beVal (inputOf s t c))
      (rsaEnd s t c true (decryptHash s t c)) := rfl

/-- Half the bits of the key that PK_KEYGEN is to make: the bits of a candidate. -/
def candidateBits (s : State) (t c : Nat) : Nat := leAt (workDesc s t c) 96 2 / 2

/-- The state past the next commands of a Miller-Rabin round over the candidate. -/
def roundRan (s : State) (t c : Nat) : State :=
  let cand := (s.ctx t c).work.vals.getD 1 0
  (spPart mrProg true false t c
    (loadHalf s t c (mrOps (candidateBits s t c) cand (beVal (drawnOf s t c) % (cand - 3) + 2)))).1

/-- The candidate fails, and the next is drawn. -/
def candidateFailed (s : State) (t c : Nat) (a : State) : State :=
  askDraw a t c (candidateBits s t c / 8) (fun y => { y with
    phase := 0, pc := 0, progress := y.progress + 1, vals := [(s.ctx t c).work.vals.getD 0 0] })

theorem pkKeygen_rsa (ha : par (workDesc s t c) 64 = 0x18) (hp : (s.ctx t c).work.phase ≤ 40) : pkKeygen t c s = rsaCandidate t c s :=
  (if_pos ha).trans (if_neg (by omega))

theorem rsaCandidate_draws (h : (drawnOf s t c).length < candidateBits s t c / 8) : rsaCandidate t c s =
    setNeeds s t c (drawNeeds (candidateBits s t c / 8 - (drawnOf s t c).length)) := if_pos h

variable (hd : candidateBits s t c / 8 ≤ (drawnOf s t c).length)
include hd

/-- A fresh candidate has the two high bits set, and fails where it is even. -/
theorem rsaCandidate_fresh (h : (s.ctx t c).work.phase = 0) :
    let tb := candidateBits s t c
    let cand := beVal ((drawnOf s t c).take (tb / 8)) % 2 ^ (tb - 2) + 3 * 2 ^ (tb - 2)
    rsaCandidate t c s = if cand % 2 = 0 then candidateFailed s t c (spireSpend s t c 256)
      else askDraw (spireSpend s t c 256) t c (tb / 8) (fun y => { y with phase := 1, pc := 0, vals := [(s.ctx t c).work.vals.getD 0 0, cand] }) :=
  (if_neg (Nat.not_lt.2 hd)).trans (if_pos h)

section Round

variable (h : 1 ≤ (s.ctx t c).work.phase)
include h

/-- A round whose commands have not all run stops at the yield point. -/
theorem rsaCandidate_yields (hpc : ((roundRan s t c).ctx t c).work.pc = 0) : rsaCandidate t c s = roundRan s t c := by
  simp only [roundRan, drawnOf, candidateBits] at *
  simp only [rsaCandidate, if_neg (Nat.not_lt.2 hd), if_neg (Nat.one_le_iff_ne_zero.1 h), hpc, if_true]

variable (hpc : ((roundRan s t c).ctx t c).work.pc ≠ 0)
include hpc

theorem rsaCandidate_roundFails (hr : mrRound ((s.ctx t c).work.vals.getD 1 0)
    (beVal (drawnOf s t c) % ((s.ctx t c).work.vals.getD 1 0 - 3) + 2) = false) :
    rsaCandidate t c s = candidateFailed s t c (roundRan s t c) := by
  simp only [roundRan, drawnOf, candidateBits, candidateFailed] at *
  simp only [rsaCandidate, if_neg (Nat.not_lt.2 hd), if_neg (Nat.one_le_iff_ne_zero.1 h), if_neg hpc, hr, Bool.not_false, if_true]

theorem rsaCandidate_roundPasses (hr : mrRound ((s.ctx t c).work.vals.getD 1 0)
    (beVal (drawnOf s t c) % ((s.ctx t c).work.vals.getD 1 0 - 3) + 2) = true) (h40 : (s.ctx t c).work.phase < 40) :
    rsaCandidate t c s = askDraw (roundRan s t c) t c (candidateBits s t c / 8) (fun y => { y with phase := y.phase + 1, pc := 0 }) := by
  simp only [roundRan, drawnOf, candidateBits] at *
  simp only [rsaCandidate, if_neg (Nat.not_lt.2 hd), if_neg (Nat.one_le_iff_ne_zero.1 h), if_neg hpc, hr, Bool.not_true, Bool.false_eq_true,
    if_false, if_pos h40]

end Round

end Rsa

section PostQuantum

theorem pkKeygen_pq (h : 0x20 ≤ par (workDesc s t c) 64) (h' : par (workDesc s t c) 64 ≤ 0x23) :
    let a := par (workDesc s t c) 64
    let x := (drawnOf s t c).take (if a < 0x22 then 64 else 32)
    let p := if a < 0x22 then kemKeyPair a (x.take 32) (x.drop 32) else dsaKeyPair a x
    let n := if a = 0x20 then 24696 + 80 * kemExtra a (sub p.2 1152 32)
      else if a = 0x21 then 38200 + 80 * kemExtra a (sub p.2 1536 32)
      else (if a = 0x22 then 49272 else 77176) + 80 * (dsaExtra a (p.2.take 32) + dsaExtraSecret a x)
    pkKeygen t c s = keygenPlace s t c
      (if a ≥ 0x22 then dsaGenProg a ((drawnOf s t c).take 32) else kemGenProg a ((drawnOf s t c).take 32)) [] n n p.1 p.2 [] := by
  have hkind : ¬ par (workDesc s t c) 64 = 0x18 := by omega
  simp only [pkKeygen, if_neg hkind, if_pos h]
  generalize par (workDesc s t c) 64 = a at *
  interval_cases a <;> rfl

theorem pqDecaps_key (h : (keyOf s t c 0).alg = 0x20 ∨ (keyOf s t c 0).alg = 0x21) :
    let k := keyOf s t c 0
    pqDecaps t c s = spireCreate s t c (kemDecapsProg k.alg k.material (inputOf s t c)) []
      (if k.alg = 0x20 then 40859 + 80 * kemExtra 0x20 (sub k.material 2304 32) else 58274 + 80 * kemExtra 0x21 (sub k.material 3072 32)) 0
      (kemDecaps k.alg k.material (inputOf s t c)) := by
  intro k
  have hcycles : pqDecapsCycles k.alg k.material =
      if k.alg = 0x20 then 40859 + 80 * kemExtra 0x20 (sub k.material 2304 32) else 58274 + 80 * kemExtra 0x21 (sub k.material 3072 32) := by
    obtain h | h := h <;> rw [pqDecapsCycles, h] <;> rfl
  rw [← hcycles]
  rfl

/-- The steps that a signature begins with. -/
def signSetup (s : State) (t c : Nat) : List SpStep :=
  dsaSetupProg (keyOf s t c 0).alg (keyOf s t c 0).material (inputOf s t c) (drawnOf s t c)

/-- The setup, and the steps of the attempt that PROGRESS counts to. -/
def signProg (s : State) (t c : Nat) : List SpStep :=
  signSetup s t c ++
    dsaTryProg (keyOf s t c 0).alg (keyOf s t c 0).material (inputOf s t c) (drawnOf s t c) ((s.ctx t c).work.progress + 1)

/-- The signature that this attempt gives, if it is not rejected. -/
def attempt (s : State) (t c : Nat) : Option Bytes :=
  dsaAttempt (keyOf s t c 0).alg (keyOf s t c 0).material (inputOf s t c) (drawnOf s t c) ((s.ctx t c).work.progress + 1)

/-- The state past the next part of the attempt. -/
def signRan (s : State) (t c : Nat) : State := (spPart (signProg s t c) true false t c (loadHalf s t c [])).1

theorem pqSign_fails (h : 1024 ≤ (s.ctx t c).work.progress) : pqSign t c s =
    spireEnd (freeHalf s t c) t c 0 (s.ctx t c).work.sp stDeviceFault [] := if_pos (Nat.lt_succ_of_le h)

section Attempt

variable (h : (s.ctx t c).work.progress < 1024)
include h

theorem pqSign_yields (hpc : ((signRan s t c).ctx t c).work.pc < (signProg s t c).length) : pqSign t c s = signRan s t c := by
  have hfirst : ¬ (s.ctx t c).work.progress + 1 > 1024 := by omega
  simp only [signRan, signProg, signSetup] at *
  simp only [pqSign, if_neg hfirst, if_pos hpc]

variable (hpc : (signProg s t c).length ≤ ((signRan s t c).ctx t c).work.pc)
include hpc

theorem pqSign_signs {g : Bytes} (hg : attempt s t c = some g) : pqSign t c s =
    spireEndOut (freeHalf (signRan s t c) t c) t c 0 ((signRan s t c).ctx t c).work.sp g [] := by
  have hfirst : ¬ (s.ctx t c).work.progress + 1 > 1024 := by omega
  simp only [signRan, signProg, signSetup, attempt] at *
  simp only [pqSign, if_neg hfirst, if_neg (Nat.not_lt.2 hpc), hg]

theorem pqSign_rejects (hg : attempt s t c = none) : pqSign t c s =
    modWork (signRan s t c) t c (fun a => { a with progress := (s.ctx t c).work.progress + 1, pc := (signSetup s t c).length }) := by
  have hfirst : ¬ (s.ctx t c).work.progress + 1 > 1024 := by omega
  simp only [signRan, signProg, signSetup, attempt] at *
  simp only [pqSign, if_neg hfirst, if_neg (Nat.not_lt.2 hpc), hg]

end Attempt

theorem pqVerify_verdict (h : (keyOf s t c 0).alg = 0x22 ∨ (keyOf s t c 0).alg = 0x23) :
    let k := keyOf s t c 0
    let b := inputOf s t c
    let l := if k.alg = 0x22 then 3309 else 4627
    let n := (if k.alg = 0x22 then 63993 else 96025) + 24 * ceilDiv (b.length - l - 69) 136 +
          80 * (dsaExtra k.alg (k.material.take 32) + dsaExtraBall k.alg (b.take (if k.alg = 0x22 then 48 else 64)))
    pqVerify t c s = spireEnd (spCall s t c (dsaVerifyProg k.alg k.material (b.drop l) (b.take l)) [] n false) t c 0 n
      (if dsaVerify k.alg k.material (b.drop l) (b.take l) then stOk else stVerifyFail) [] := by
  intro k b l n
  have hl : sigLen s k = l := by
    obtain h | h := h <;> simp only [sigLen, l, k, h] <;> rfl
  have hn : pqVerifyCycles k.alg k.material (b.drop l) (b.take l) = n := by
    have hch : (b.take l).take (dsaSet k.alg).ch = b.take (if k.alg = 0x22 then 48 else 64) := by
      rw [List.take_take]
      obtain h | h := h <;> simp only [l, k, h] <;> rfl
    rw [pqVerifyCycles, hch, pqExtra, List.length_drop]
  rw [← hn, ← hl]
  rfl

end PostQuantum

end Figures
end Sys2Proof.Machine

/-! SUPPORT. The Spire's commands and the public-key figures (09): the statement. -/

namespace Sys2Proof.Machine

/-- Settles O2: the commands by `Spire.run_laws`, the step lists by their cycles, and each figure by its law past the yield. -/
theorem spireFiguresRunTheirFullTime : Obligations.SpireFiguresRunTheirFullTime := by
  unfold Obligations.SpireFiguresRunTheirFullTime
  refine ⟨by decide +kernel, by decide +kernel, by decide +kernel, by decide +kernel, by decide +kernel, by decide +kernel,
    fun c => SpCmd.ofWord_word, Spire.run_laws, fun sk m r n => ?cycles, ?figures⟩
  case cycles =>
    obtain ⟨hkem, hkem'⟩ := polyCycles_kemGen r
    obtain ⟨hgen, hgen'⟩ := polyCycles_dsaGen r
    obtain ⟨hsetup, hsetup'⟩ := polyCycles_dsaSetup sk m r
    obtain ⟨htry, htry'⟩ := polyCycles_dsaTry sk m r n
    exact ⟨hkem, hkem', hgen, hgen', hsetup, htry, hsetup', htry'⟩
  case figures =>
    intro s₀ t c s d k b r w out ends refused ran verdict
    refine ⟨fun e he hk => ⟨fun ha => ?sign, fun ha => ?verify, fun ha => ?agree⟩, fun hk hj => ?rsa, fun ha e h10 h18 he => ?curveKey,
      fun ha h18 hw => ?rsaKey, fun ha h20 h23 => ?pqKey, fun ha hk => ?decaps, fun ha => ?pqSign, fun ha hk => ?pqVerify⟩
    case sign =>
      intro g hr hs
      exact (exec_pkSign_at ha).trans (congrArg Host.Outcome.next ((pkSign_ec he hk hr hs).trans (spireEndOut_eq ..)))
    case verify =>
      intro hl sg q g ops
      rw [exec_pkVerify_at ha]
      refine ⟨fun ok hg => congrArg Host.Outcome.next (pkVerify_verdict he hk hg), fun hg => ?_⟩
      obtain ⟨n, hn, hrun⟩ := pkVerify_refused he hk hg
      exact ⟨n, hn, congrArg Host.Outcome.next hrun⟩
    case agree =>
      intro ops
      rw [exec_pkAgree_at ha]
      refine ⟨fun hq => congrArg Host.Outcome.next (pkAgree_offCurve he hq), fun q hq hm => ?_,
        fun q x y hq hm => congrArg Host.Outcome.next (pkAgree_agrees he hq hm)⟩
      obtain ⟨n, hn, hrun⟩ := pkAgree_infinity he hq hm
      exact ⟨n, hn, congrArg Host.Outcome.next hrun⟩
    case rsa =>
      intro m p q hl dec x z n z1 y yv h msg run hat hpc hb
      obtain ⟨call, hcall⟩ : ∃ call, (s.ctx t c).call = some call := hat.elim call_of_atFigure call_of_atFigure
      have hrun : run = .next (rsaFigure s t c h (if dec then 0 else h) k x (rsaEnd s t c (atFigure s₀ t c 0x0803) h)) := by
        by_cases hd : atFigure s₀ t c 0x0803 = true
        · simp only [run, h, x, dec, hd, if_true]
          exact (exec_pkDecrypt_at hd).trans (congrArg Host.Outcome.next pkDecrypt_rsa)
        · simp only [run, h, x, dec, hd, Bool.false_eq_true, if_false]
          exact (exec_pkSign_at (hat.resolve_left hd)).trans (congrArg Host.Outcome.next (pkSign_rsa hk))
      -- From here the run of the commands is opaque: no unification is to evaluate it.
      have hz : z = rsaRan s t c k x := rfl
      have hresult := rsaRan_result hcall hpc hb k x
      have hfates := rsaFigure_fates hj h (if dec then 0 else h) x k (rsaEnd s t c (atFigure s₀ t c 0x0803) h) hcall hpc hb
      rw [← hz] at hresult hfates
      clear_value z
      obtain ⟨hrefused, hfault, hends⟩ := hfates
      refine ⟨fun hbad => hrun.trans (congrArg Host.Outcome.next (hrefused hbad)),
        fun hok hf => hrun.trans (congrArg Host.Outcome.next (hfault hok hf)), fun hok hf hd => ?signs, fun hok hf hd hm => ?fails,
        fun v hok hf hd hm => ?decrypts, hresult⟩
      case signs => exact hrun.trans (congrArg Host.Outcome.next ((hends hok hf).trans ((if_neg hd).trans (spireEndOut_eq ..))))
      case fails =>
        rw [hrun, hends hok hf]
        simp only [h, if_pos hd]
        exact congrArg Host.Outcome.next ((if_pos hd).trans (decryptEnd_none hm))
      case decrypts =>
        rw [hrun, hends hok hf]
        simp only [h, if_pos hd]
        exact congrArg Host.Outcome.next ((if_pos hd).trans ((decryptEnd_some hm).trans (spireEndOut_eq ..)))
    case curveKey => exact (exec_pkKeygen_at ha).trans (congrArg Host.Outcome.next (pkKeygen_ec h18 he))
    case rsaKey =>
      intro run tb p goes failed
      have hrun : run = .next (rsaCandidate t c s) := (exec_pkKeygen_at ha).trans (congrArg Host.Outcome.next (pkKeygen_rsa h18 hw))
      refine ⟨fun h => hrun.trans (congrArg Host.Outcome.next (rsaCandidate_draws h)), fun hd h0 => ?fresh, fun hd h1 => ?round⟩
      case fresh =>
        intro cand s1
        have hfresh := hrun.trans (congrArg Host.Outcome.next (rsaCandidate_fresh hd h0))
        exact ⟨fun hc => hfresh.trans (congrArg Host.Outcome.next (if_pos hc)),
          fun hc => hfresh.trans (congrArg Host.Outcome.next (if_neg (fun h => Nat.zero_ne_one (h.symm.trans hc))))⟩
      case round =>
        intro cand base s1
        -- As above, and in `pqSign` below: the run of the commands is opaque.
        have hran : s1 = roundRan s t c := rfl
        clear_value s1
        rw [hran]
        exact ⟨fun hpc => hrun.trans (congrArg Host.Outcome.next (rsaCandidate_yields hd h1 hpc)),
          fun hpc hr => hrun.trans (congrArg Host.Outcome.next (rsaCandidate_roundFails hd h1 hpc hr)),
          fun hpc hr h40 => hrun.trans (congrArg Host.Outcome.next (rsaCandidate_roundPasses hd h1 hpc hr h40))⟩
    case pqKey => exact (exec_pkKeygen_at ha).trans (congrArg Host.Outcome.next (pkKeygen_pq h20 h23))
    case decaps => exact (exec_pqKemDecaps_at ha).trans (congrArg Host.Outcome.next (pqDecaps_key hk))
    case pqSign =>
      intro n setup prog s1
      have hran : s1 = signRan s t c := rfl
      have hprog : prog = signProg s t c := rfl
      clear_value s1 prog
      rw [hran, hprog]
      intro w1
      have hrun {a : State} (h : pqSign t c s = a) : exec (.pqSign t c .none) s₀ = .next a := (exec_pqSign_at ha).trans (congrArg _ h)
      refine ⟨fun h => hrun (pqSign_fails h), fun h hpc => hrun (pqSign_yields h hpc), fun h hpc => ?_⟩
      cases hg : dsaAttempt k.alg k.material b r n with
      | some g => exact hrun ((pqSign_signs h hpc hg).trans (spireEndOut_eq ..))
      | none => exact hrun (pqSign_rejects h hpc hg)
    case pqVerify => exact (exec_pqVerify_at ha).trans (congrArg Host.Outcome.next (pqVerify_verdict hk))

end Sys2Proof.Machine

/-! SUPPORT. The Caller (10): the head that a dispatch takes, and the end of a call for which a fault is reported, by the kind of the fault;
from these the two statements follow. -/

namespace Sys2Proof.Machine

/-! ## The greatest entry of a list -/

section BestBy

variable {α : Type} {f : α → Nat} {l : List α} {x : α} (h : bestBy f l = some x)
include h

theorem bestBy_mem : x ∈ l := by
  obtain ⟨p, r, rfl, -, -⟩ := bestBy_split h
  simp

theorem bestBy_greatest {y : α} (hy : y ∈ l) : f y ≤ f x := by
  obtain ⟨p, r, rfl, hbefore, hafter⟩ := bestBy_split h
  rcases List.mem_append.1 hy with hy | hy
  · exact (hbefore y hy).le
  · rcases List.mem_cons.1 hy with rfl | hy
    · exact le_rfl
    · exact hafter y hy

end BestBy

/-! ## The head that a dispatch takes (10 R305) -/

theorem mem_heads {s : State} {r : Nat} {k : Call} : (r, k) ∈ heads s ↔
    (∃ i q, s.caller.queues[i]? = some (k :: q) ∧ r = 2 * i) ∨ (∃ q, s.caller.jobQ = k :: q ∧ r = 2 * k.cls + 1) := by
  refine List.mem_append.trans (or_congr ⟨fun h => ?inQueue, fun h => ?ofQueue⟩ ?jobs)
  case inQueue =>
    obtain ⟨⟨l, i⟩, hl, he⟩ := List.mem_filterMap.1 h
    obtain ⟨k', hk, he⟩ := Option.map_eq_some_iff.1 he
    obtain ⟨rfl, rfl⟩ := Prod.mk.inj he
    obtain ⟨q, rfl⟩ := List.head?_eq_some_iff.1 hk
    exact ⟨i, q, List.mem_zipIdx_iff_getElem?.1 hl, rfl⟩
  case ofQueue =>
    obtain ⟨i, q, hl, rfl⟩ := h
    exact List.mem_filterMap.2 ⟨(k :: q, i), List.mem_zipIdx_iff_getElem?.2 hl, rfl⟩
  case jobs =>
    simp only [Option.mem_toList, Option.map_eq_some_iff, List.head?_eq_some_iff, Prod.mk.injEq]
    exact ⟨fun ⟨_, ⟨q, hq⟩, hr, hk⟩ => ⟨q, hk ▸ hq, hk ▸ hr.symm⟩, fun ⟨q, hq, hr⟩ => ⟨k, ⟨q, hq⟩, hr.symm, rfl⟩⟩

/-- The heads that some in-service tower is free for (10 R305). -/
def placeableHeads (s : State) : List (Nat × Call) := (heads s).filter (fun h => !(towersFor s h.2).isEmpty)

/-- The starvation count has reached LIMIT (10 R305). -/
def AtLimit (s : State) : Prop := s.caller.limit ≠ 0 ∧ s.caller.limit ≤ s.caller.starve

theorem chooseHead_none {s : State} (h : placeableHeads s = []) : chooseHead s = none := by
  rw [placeableHeads] at h
  simp [chooseHead, h, bestBy]

section ChooseHead

variable {s : State} {k : Call} {n : Nat} {served : Bool} (h : chooseHead s = some (k, n, served))
include h

/-- At LIMIT, the placeable head of the earliest cycle 0 is taken. -/
theorem chooseHead_atLimit (hl : AtLimit s) : n = 0 ∧ served = true ∧ ∃ r, (r, k) ∈ placeableHeads s ∧
    ∀ g ∈ placeableHeads s, g.2.seq < 2 ^ 80 → k.seq ≤ g.2.seq := by
  obtain ⟨⟨r, j⟩, hbest, he⟩ := Option.map_eq_some_iff.1 ((if_pos hl).symm.trans h)
  obtain ⟨rfl, rfl, rfl⟩ : j = k ∧ 0 = n ∧ true = served := by simpa using he
  refine ⟨rfl, rfl, r, bestBy_mem hbest, fun g hg hs => ?_⟩
  have hmax : 2 ^ 80 - g.2.seq ≤ 2 ^ 80 - j.seq := bestBy_greatest hbest hg
  omega

/-- Below LIMIT, the placeable head of the first rank is taken. -/
theorem chooseHead_belowLimit (hl : ¬ AtLimit s) : served = false ∧ ∃ r, (r, k) ∈ placeableHeads s ∧
    (∀ g ∈ placeableHeads s, g.1 < 100 → r ≤ g.1) ∧
    n = if (placeableHeads s).any (fun g => decide (r < g.1)) then s.caller.starve + 1 else 0 := by
  obtain ⟨⟨r, j⟩, hbest, he⟩ := Option.map_eq_some_iff.1 ((if_neg hl).symm.trans h)
  obtain ⟨rfl, hn, rfl⟩ := by simpa only [Prod.mk.injEq] using he
  refine ⟨rfl, r, bestBy_mem hbest, fun g hg hr => ?_, hn.symm⟩
  have hmax : 100 - g.1 ≤ 100 - r := bestBy_greatest hbest hg
  omega

end ChooseHead

/-- Settles O23: what the heads are, and the laws of the choice at LIMIT and below it. -/
theorem dispatchFollowsClassOrder : Obligations.DispatchFollowsClassOrder := by
  unfold Obligations.DispatchFollowsClassOrder
  intro s hs
  refine ⟨fun r k => mem_heads, fun k => rfl, chooseHead_none,
    fun k n served h => ⟨?placeable, fun hl => ?atLimit, chooseHead_belowLimit h⟩⟩
  case placeable =>
    by_cases hl : AtLimit s
    · obtain ⟨-, -, r, hr, -⟩ := chooseHead_atLimit h hl
      exact ⟨r, hr⟩
    · obtain ⟨-, r, hr, -⟩ := chooseHead_belowLimit h hl
      exact ⟨r, hr⟩
  case atLimit =>
    obtain ⟨hn, hserved, -, -, hfirst⟩ := chooseHead_atLimit h hl
    exact ⟨hn, hserved, hfirst⟩

/-! ## A call's end leaves the Spire's retirement (09 R299) -/

theorem bookKeys_spire (s : State) (t c st u : Nat) : ((bookKeys s t c st).tower u).spire = (s.tower u).spire :=
  bookKeys_keeps (P := fun a => (a.tower u).spire = (s.tower u).spire) t c st rfl
    fun _ _ h => (State.part_setTower Tower.spire (by rfl) u).trans h

theorem endCtx_retired (s : State) (t c u : Nat) (st : CtxState) :
    ((endCtx s t c st).tower u).spire.retired = (s.tower u).spire.retired := by
  rw [State.tower_of_towers_eq (endCtx_towers s t c st)]
  exact State.part_setTower (·.spire.retired) (by rfl) u

theorem handoff_tower (s : State) (k : Call) (b : Bytes) (u : Nat) : (handoff s k b).tower u = s.tower u :=
  State.tower_of_towers_eq (by simp) u

theorem chargeOutcome_tower (s : State) (x : Ctx) (k : Call) (st path sp u : Nat) : (chargeOutcome s x k st path sp).tower u = s.tower u :=
  State.tower_of_towers_eq (by simp) u

theorem zeroOut_tower (s : State) (t c fn u : Nat) (w : Work) : (zeroOut s t c fn w).tower u = s.tower u :=
  State.tower_of_towers_eq (by simp) u

theorem finishCore_retired (s : State) (t c st table sp u : Nat) (r : Bytes) :
    ((finishCore s t c st table sp r).tower u).spire.retired = (s.tower u).spire.retired := by
  simp only [finishCore]
  split
  · rfl
  · rw [endCtx_retired, handoff_tower, chargeOutcome_tower, bookKeys_spire]
    split
    · rfl
    · rw [zeroOut_tower]

theorem finishWaiter_retired (s : State) (w : Option (Nat × Nat)) (st u : Nat) :
    ((finishWaiter s w st).tower u).spire.retired = (s.tower u).spire.retired := by
  cases w with
  | none => rfl
  | some w => exact finishCore_retired ..

theorem jobEnded_retired (s : State) (j : Option Job) (u : Nat) :
    ((jobEnded s j).tower u).spire.retired = (s.tower u).spire.retired := by
  cases j with
  | none => rfl
  | some j => exact (finishWaiter_retired ..).trans (finishWaiter_retired ..)

theorem deviceFault_retired (s : State) (t c u : Nat) :
    ((deviceFault s t c).tower u).spire.retired = (s.tower u).spire.retired := by
  rw [deviceFault_eq]
  exact (jobEnded_retired ..).trans (finishCore_retired ..)

/-- A drain is noted in the supervisor and the Caller only: the role of a tower is not the tower's own. -/
theorem drainTower_towers (s : State) (t : Nat) : (drainTower s t).towers = s.towers := by
  unfold drainTower setRole
  dsimp only
  (repeat' split) <;> simp

/-- A Spire that retires takes no further grants. -/
theorem retireSpire_retired {s : State} {t : Nat} (ht : t < s.towers.length) : ((retireSpire s t).tower t).spire.retired = true := by
  have hmark : ((markSpire s t).tower t).spire.retired = true := by rw [markSpire, State.tower_setTower_same _ _ _ ht]
  simp only [retireSpire]
  rw [State.tower_of_towers_eq (drainTower_towers _ _)]
  split
  · rw [deviceFault_retired, hmark]
  · exact hmark

/-! ## A fault reported for a figure's call (10 R317; 13 R384) -/

/-- Context `c` holds a part of the Spire of a tower. -/
def Tower.spireHolds (w : Tower) (c : Nat) : Bool := w.spire.half0 == some c || w.spire.half1 == some c || w.spire.resident == some c

theorem holdsSpire_eq (s : State) (t c : Nat) : holdsSpire s t c = (s.tower t).spireHolds c := rfl

theorem pastYield_holdsSpire (s : State) (t c : Nat) : holdsSpire (pastYield s t c) t c = holdsSpire s t c := by
  rw [holdsSpire_eq, holdsSpire_eq]
  dsimp only [pastYield]
  split
  · exact State.part_setTower (·.spireHolds c) (by rfl) t
  · rfl

theorem spireSpent_holdsSpire (s : State) (t c : Nat) : holdsSpire (spireSpent s t c) t c = holdsSpire s t c := by
  rw [holdsSpire_eq, holdsSpire_eq]
  dsimp only [spireSpent]
  split
  · rfl
  · exact (State.part_setTower (·.spireHolds c) (by rfl) t).trans (State.part_setTower (·.spireHolds c) (by rfl) t)

/-- The cycles of the faulted figure count in the work of its context, and in nothing else of it. -/
theorem spireSpent_grant (s : State) (t c : Nat) : ((spireSpent s t c).ctx t c).grant = (s.ctx t c).grant := by
  dsimp only [spireSpent]
  split
  · rfl
  · exact (State.part_setCtx Ctx.grant (by rfl) t c).trans
      (State.part_setTower (fun w => (w.ctxs.getD c {}).grant) (by rfl) t)

section Faults

variable {s₀ : State} {t c op : Nat} (ha : atFigure s₀ t c op = true) (f : State → State)
include ha

/-- A fault that the context can meet is reported for its call, past the yield that a job owed. -/
theorem runFigure_fits {x : FigFault} (hx : faultFits s₀ t c x = true) :
    runFigure s₀ t c op x f = withFault (pastYield s₀ t c) t c x f := by simp [runFigure, ha, hx]

theorem runFigure_ecc : runFigure s₀ t c op .ecc f = deviceFault (countUncorr (spireSpent (pastYield s₀ t c) t c)) t c :=
  runFigure_fits ha f rfl

theorem runFigure_spire (hh : holdsSpire s₀ t c = true) : runFigure s₀ t c op .spire f =
    retireSpire (deviceFault (countSpireFault (spireSpent (pastYield s₀ t c) t c) t) t c) t := by
  have hs : holdsSpire (spireSpent (pastYield s₀ t c) t c) t c = true := by rw [spireSpent_holdsSpire, pastYield_holdsSpire, hh]
  refine (runFigure_fits ha f (x := .spire) hh).trans ?_
  simp [withFault, spireFault, hs]

theorem runFigure_keepWrite (hg : (s₀.ctx t c).grant ≠ []) : runFigure s₀ t c op .keepWrite f =
    (let s := spireSpent (pastYield s₀ t c) t c
     deviceFault (dropLines s (fun k _ => (s.ctx t c).grant.contains k)) t c) := by
  have hs : ((spireSpent (pastYield s₀ t c) t c).ctx t c).grant ≠ [] := by rwa [spireSpent_grant, pastYield_ctx]
  refine (runFigure_fits ha f (by simpa [faultFits] using hg)).trans ?_
  simp [withFault, keepWriteFault, hs]

theorem runFigure_access (w ok : Bool) (a : Nat) :
    runFigure s₀ t c op (.access w a ok) f = ctxAccess (pastYield s₀ t c) t c w a ok f := runFigure_fits ha f rfl

end Faults

section Access

variable {s : State} {t c : Nat} {k : Call} (hk : (s.ctx t c).call = some k) (w : Bool) (a : Nat) (f : State → State)
include hk

/-- An access that the context's own check or the target refuses: its violation, of kind 4 where only the target refuses it. -/
theorem ctxAccess_refused {ok : Bool} (h : (ctxRefusal s k (workDesc s t c) w a).isSome = true ∨ ok = false) :
    ctxAccess s t c w a ok f = suspectTower (abortCall (logViolation s 2 ((ctxRefusal s k (workDesc s t c) w a).getD 4) w false
      (t + 32 * c) (a % 2 ^ 32) (a / 2 ^ 32)) t c .frozen) t := by
  simp only [ctxAccess, hk]
  cases hr : ctxRefusal s k (workDesc s t c) w a with
  | some v => rfl
  | none =>
    obtain rfl : ok = false := h.resolve_left (by simp [hr])
    rfl

theorem ctxAccess_allowed (h : ctxRefusal s k (workDesc s t c) w a = none) : ctxAccess s t c w a true f = f s := by
  simp [ctxAccess, hk, h]

end Access

/-- Settles O21: one law for each fault that the context can meet; the others, and those away from its figure, are not reported. -/
theorem figureFaultsEndCallsUntouched : Obligations.FigureFaultsEndCallsUntouched := by
  unfold Obligations.FigureFaultsEndCallsUntouched
  intro s₀ t c op f s
  refine ⟨fun ha => ⟨_, (runFigure_ecc ha f).trans (deviceFault_eq ..)⟩, fun ha hh => runFigure_spire ha f hh,
    fun a ht => retireSpire_retired ht, fun ha hg => ?keepWrite, fun k w ok a ha hk => ?access,
    fun hh => runFigure_unfit (x := .spire) hh op f, fun hg => runFigure_unfit (by simp [faultFits, hg]) op f,
    fun x ha => runFigure_away ha x f⟩
  case keepWrite => exact runFigure_keepWrite ha f hg
  case access =>
    intro p why kind
    have hk' : (p.ctx t c).call = some k := by rw [pastYield_ctx, hk]
    rw [runFigure_access ha]
    refine ⟨fun h => ctxAccess_refused hk' w a f h, fun h hok => ?_⟩
    subst hok
    exact ctxAccess_allowed hk' w a f h

end Sys2Proof.Machine

/-! SUPPORT. What every command keeps. `Kept` is what a step owes the fuses, the queue and the invariant; `Calm` is the stronger thing that
almost every operation does: fuses, queue, READY, the phase of the Turn pins and the index of the Dome's log stand as they are. The parts
that follow prove it of each operation, file by file of the model and in its order; `exec_kept` then says it of every command and
`tick_calm` of the tick. -/

namespace Sys2Proof.Machine

/-- What a step may do to the fuses, to the queue and to what the invariant speaks of. -/
structure Kept (s t : State) : Prop where
  fuse : fusesKept s.fuse t.fuse
  pending : t.pending = s.pending
  inv : Inv s → Inv t

theorem bytesKept_refl (a : Bytes) : bytesKept a a := ⟨rfl, fun _ => BitVec.and_self⟩

theorem and_kept {w : Nat} {a b c : BitVec w} (h : a &&& b = a) (g : b &&& c = b) : a &&& c = a := by
  rw [← h, BitVec.and_assoc, g]

theorem bytesKept_trans {a b c : Bytes} (h : bytesKept a b) (g : bytesKept b c) : bytesKept a c :=
  ⟨g.1.trans h.1, fun i => and_kept (h.2 i) (g.2 i)⟩

theorem fusesKept_refl (a : Fuse) : fusesKept a a :=
  ⟨⟨rfl, fun _ => BitVec.and_self⟩, ⟨rfl, fun _ => bytesKept_refl _⟩, bytesKept_refl _, ⟨[], (List.append_nil _).symm⟩, id, rfl, rfl, rfl⟩

theorem fusesKept_trans {a b c : Fuse} (h : fusesKept a b) (g : fusesKept b c) : fusesKept a c := by
  obtain ⟨⟨hr, hr'⟩, ⟨hp, hp'⟩, ho, ⟨l, hs⟩, hl, hn, hg, hu⟩ := h
  obtain ⟨⟨gr, gr'⟩, ⟨gp, gp'⟩, go, ⟨m, gs⟩, gl, gn, gg, gu⟩ := g
  exact ⟨⟨gr.trans hr, fun i => and_kept (hr' i) (gr' i)⟩, ⟨gp.trans hp, fun i => bytesKept_trans (hp' i) (gp' i)⟩, bytesKept_trans ho go,
    ⟨l ++ m, by rw [gs, hs, List.append_assoc]⟩, gl ∘ hl, gn.trans hn, gg.trans hg, gu.trans hu⟩

/-- What an operation of the calls, the towers and the engines does to what the invariant speaks of: fuses, queue, READY, the phase of the
Turn pins and the index of the Dome's log stand, and the rest keeps its form. -/
structure Calm (s t : State) : Prop where
  fuse : t.fuse = s.fuse
  pending : t.pending = s.pending
  ready : t.dev.ready = s.dev.ready
  phase : t.dev.tnPhase = s.dev.tnPhase
  logNext : t.dome.logNext = s.dome.logNext
  host : Memory.wf s.host = true → Memory.wf t.host = true
  heads : tblWf ({} : Head) s.heads = true → tblWf ({} : Head) t.heads = true
  log : s.sup.log.length ≤ 16 → t.sup.log.length ≤ 16

/-- A command that is answered, calmly. -/
def Calms (s₀ : State) (o : Out) : Prop := ∃ t, o = .next t ∧ Calm s₀ t

namespace Calm

variable {s₀ s t : State}

theorem refl (s : State) : Calm s s := ⟨rfl, rfl, rfl, rfl, rfl, id, id, id⟩

theorem trans (h : Calm s₀ s) (g : Calm s t) : Calm s₀ t :=
  ⟨g.fuse.trans h.fuse, g.pending.trans h.pending, g.ready.trans h.ready, g.phase.trans h.phase, g.logNext.trans h.logNext,
    g.host ∘ h.host, g.heads ∘ h.heads, g.log ∘ h.log⟩

theorem kept (h : Calm s t) : Kept s t where
  fuse := h.fuse ▸ fusesKept_refl _
  pending := h.pending
  inv i := ⟨h.host i.host, h.heads i.heads, by rw [h.fuse]; exact i.rows, by rw [h.fuse]; exact i.policy,
    by rw [h.fuse, h.ready]; exact i.ready, by rw [h.fuse, h.phase]; exact i.loaded, h.log i.violations, by rw [h.logNext]; exact i.domeLog⟩

/-- Everything else in the state may change. -/
theorem mk' {c f dv su p l cu dm rn t m ca k v a hi r cv tw j b sm} (h : Calm s₀ s) (hl : su.log = s.sup.log) (hd : dm.logNext = s.dome.logNext)
    (hr : dv.ready = s.dev.ready) (hp : dv.tnPhase = s.dev.tnPhase) :
    Calm s₀ (State.mk c f s.heads dv su p s.fuse l cu dm rn t m ca k v a hi r cv tw j b s.host sm s.pending) :=
  h.trans ⟨rfl, rfl, hr, hp, hd, id, id, fun i => hl ▸ i⟩

theorem calms (h : Calm s₀ s) : Calms s₀ (.next s) := ⟨s, rfl, h⟩

theorem foldl {α : Type} {f : State → α → State} {l : List α} (h : Calm s₀ s) (hf : ∀ a x, Calm s₀ a → Calm s₀ (f a x)) :
   Calm s₀ (l.foldl f s) := List.foldlRecOn (motive := Calm s₀) l f h fun a ha x _ => hf a x ha

theorem ite {p : Prop} [Decidable p] {a b : State} (ha : Calm s₀ a) (hb : Calm s₀ b) : Calm s₀ (if p then a else b) := by
  split <;> assumption

theorem getD {o : Option State} {d : State} (h : Calm s₀ d) (ho : ∀ a, o = some a → Calm s₀ a) : Calm s₀ (o.getD d) := by
  cases o with
  | none => exact h
  | some a => exact ho a rfl

theorem foldl_fst {α β : Type} {f : State × β → α → State × β} {l : List α} {p : State × β} (h : Calm s₀ p.1)
    (hf : ∀ a x, Calm s₀ a.1 → Calm s₀ (f a x).1) : Calm s₀ (l.foldl f p).1 :=
  List.foldlRecOn (motive := fun a : State × β => Calm s₀ a.1) l f h fun a ha x _ => hf a x ha

end Calm

theorem Calms.ite {s₀ : State} {p : Prop} [Decidable p] {a b : Out} (ha : Calms s₀ a) (hb : Calms s₀ b) : Calms s₀ (if p then a else b) := by
  split <;> assumption

/-- A command that is answered, with what its answer owes the fuses, the queue and the invariant. -/
def Answers (s₀ : State) (o : Out) : Prop := ∃ t, o = .next t ∧ Kept s₀ t

theorem Calms.answers {s₀ : State} {o : Out} (h : Calms s₀ o) : Answers s₀ o := by
  obtain ⟨t, ht, hc⟩ := h
  exact ⟨t, ht, hc.kept⟩

namespace Kept

variable {s₀ s t : State}

theorem answers (h : Kept s₀ s) : Answers s₀ (.next s) := ⟨s, rfl, h⟩

theorem trans (h : Kept s₀ s) (g : Kept s t) : Kept s₀ t :=
  ⟨fusesKept_trans h.fuse g.fuse, g.pending.trans h.pending, g.inv ∘ h.inv⟩

theorem refl (s : State) : Kept s s := (Calm.refl s).kept

theorem calm (h : Kept s₀ s) (g : Calm s t) : Kept s₀ t := h.trans g.kept

theorem ite {p : Prop} [Decidable p] {a b : State} (ha : Kept s₀ a) (hb : Kept s₀ b) : Kept s₀ (if p then a else b) := by
  split <;> assumption

theorem fuses {f : Fuse} (h : Kept s₀ s) (hf : fusesKept s.fuse f) (hl : f.loaded = s.fuse.loaded) : Kept s₀ { s with fuse := f } := by
  obtain ⟨⟨hr, -⟩, ⟨hp, -⟩, -⟩ := id hf
  exact h.trans ⟨hf, rfl, fun i => ⟨i.host, i.heads, hr.trans i.rows, hp.trans i.policy, by simpa [hl] using i.ready,
    by simpa [hl] using i.loaded, i.violations, i.domeLog⟩⟩

end Kept

/-! ## A burn only sets bits -/

theorem and_or_left_self {w : Nat} (a b : BitVec w) : a &&& (a ||| b) = a := by
  ext i
  simpa using Or.inl

theorem burnBytes_kept (a b : Bytes) : bytesKept a (burnBytes a b) := by
  refine ⟨by simp [burnBytes], fun i => ?_⟩
  by_cases h : i < a.length
  · simp [burnBytes, h, and_or_left_self]
  · simp [burnBytes, h]

theorem rows_set_kept (l : List Word) (i : Nat) (w : Word) :
    (l.set i (l.getD i 0 ||| w)).length = l.length ∧ ∀ j, l.getD j 0 &&& (l.set i (l.getD i 0 ||| w)).getD j 0 = l.getD j 0 := by
  refine ⟨List.length_set, fun j => ?_⟩
  rcases eq_or_ne i j with rfl | h
  · by_cases hl : i < l.length <;> simp [hl, and_or_left_self]
  · simp [h]

theorem policy_set_kept (l : List Bytes) (i : Nat) (b : Bytes) :
    (l.set i (burnBytes (l.getD i []) b)).length = l.length ∧ ∀ j, bytesKept (l.getD j []) ((l.set i (burnBytes (l.getD i []) b)).getD j []) := by
  refine ⟨List.length_set, fun j => ?_⟩
  rcases eq_or_ne i j with rfl | h
  · by_cases hl : i < l.length
    · simpa [hl] using burnBytes_kept _ b
    · simpa [hl] using bytesKept_refl _
  · simpa [h] using bytesKept_refl _

variable {s₀ s : State}

end Sys2Proof.Machine

/-! SUPPORT. The operations of Ops keep what they must. -/

namespace Sys2Proof.Machine
variable {s₀ s : State}

theorem State.setHead_calm {p : Nat} {h : Head} (hs : Calm s₀ s) : Calm s₀ (s.setHead p h) :=
  hs.trans ⟨rfl, rfl, rfl, rfl, rfl, id, fun i => tblWf_set _ _ _ _ i, id⟩

theorem State.setTf_calm {n : Nat} {t : Tf} (hs : Calm s₀ s) : Calm s₀ (State.setTf s n t) := hs.mk' rfl rfl rfl rfl

theorem State.setQp_calm {fn q : Nat} {x : Qp} (hs : Calm s₀ s) : Calm s₀ (State.setQp s fn q x) := hs.mk' rfl rfl rfl rfl

theorem State.setTower_calm {t : Nat} {x : Tower} (hs : Calm s₀ s) : Calm s₀ (State.setTower s t x) := hs.mk' rfl rfl rfl rfl

theorem State.setCtx_calm {t c : Nat} {x : Ctx} (hs : Calm s₀ s) : Calm s₀ (State.setCtx s t c x) := State.setTower_calm hs

theorem countFixed_calm {n : Nat} (hs : Calm s₀ s) : Calm s₀ (countFixed s n) := .ite hs (hs.mk' rfl rfl rfl rfl)

theorem countUncorr_calm (hs : Calm s₀ s) : Calm s₀ (countUncorr s) := hs.mk' rfl rfl rfl rfl

theorem State.takeFree_calm (hs : Calm s₀ s) : Calm s₀ (State.takeFree s).1 := hs.mk' rfl rfl rfl rfl

theorem State.takeBytes_calm {n : Nat} (hs : Calm s₀ s) : Calm s₀ (State.takeBytes s n).1 := hs.mk' rfl rfl rfl rfl

theorem State.setMsix_calm {fn : Nat} {m : Msix} (hs : Calm s₀ s) : Calm s₀ (State.setMsix s fn m) :=
  .ite (hs.mk' rfl rfl rfl rfl) (State.setTf_calm hs)

theorem signal_calm {fn v : Nat} (hs : Calm s₀ s) : Calm s₀ (signal s fn v) := .ite hs (.ite (State.setMsix_calm hs) (hs.mk' rfl rfl rfl rfl))

theorem putHead_calm {p : Nat} {h : Head} (hs : Calm s₀ s) : Calm s₀ (putHead s p h) := by
  unfold putHead
  grind [State.setHead_calm, signal_calm]

theorem raise_calm {p bit : Nat} (hs : Calm s₀ s) : Calm s₀ (raise s p bit) := putHead_calm hs

theorem alertCause_calm {bit : Nat} (hs : Calm s₀ s) : Calm s₀ (alertCause s bit) := hs.mk' rfl rfl rfl rfl

theorem recordWerr_calm {p : Nat} (hs : Calm s₀ s) : Calm s₀ (recordWerr s p) := putHead_calm hs

theorem recordTfWerr_calm {n : Nat} (hs : Calm s₀ s) : Calm s₀ (recordTfWerr s n) := recordWerr_calm (hs.mk' rfl rfl rfl rfl)

theorem signalAll_calm (hs : Calm s₀ s) : Calm s₀ (signalAll s) := hs.foldl fun _ _ => signal_calm

theorem degradeCheck_calm (hs : Calm s₀ s) : Calm s₀ (degradeCheck s) :=
  .ite hs (.ite (raise_calm (hs.mk' rfl rfl rfl rfl)) (signalAll_calm (raise_calm (hs.mk' rfl rfl rfl rfl))))

theorem logAer_calm {fn bit : Nat} (hs : Calm s₀ s) : Calm s₀ (logAer s fn bit) := hs.mk' rfl rfl rfl rfl

theorem logAns_calm {fn : Nat} {ans : ReadAns} (hs : Calm s₀ s) : Calm s₀ (logAns s fn ans) := by
  unfold logAns
  grind [logAer_calm]

theorem logVaultError_calm (hs : Calm s₀ s) : Calm s₀ (logVaultError s) := logAer_calm (hs.mk' rfl rfl rfl rfl)

theorem logViolation_calm {init kind : Nat} {write host : Bool} {source d1 d2 : Nat} (hs : Calm s₀ s) :
    Calm s₀ (logViolation s init kind write host source d1 d2) := by
  unfold logViolation
  dsimp only
  split
  · exact raise_calm (hs.trans ⟨rfl, rfl, rfl, rfl, rfl, id, id, fun i => by simp; omega⟩)
  · exact raise_calm (raise_calm (hs.mk' rfl rfl rfl rfl))

theorem withdrawTf_calm {n : Nat} (hs : Calm s₀ s) : Calm s₀ (withdrawTf s n) := hs.foldl fun _ _ => State.setQp_calm

theorem freezeTf_calm {n : Nat} (hs : Calm s₀ s) : Calm s₀ (freezeTf s n) := withdrawTf_calm (State.setTf_calm hs)

theorem hostViolation_calm {fn kind : Nat} {write : Bool} {addr : Nat} (hs : Calm s₀ s) : Calm s₀ (hostViolation s fn kind write addr) :=
  .ite (logViolation_calm hs) (freezeTf_calm (logViolation_calm hs))

theorem hostCheck_calm {fn : Nat} {write : Bool} {addr : Nat} (hs : Calm s₀ s) : Calm s₀ (hostCheck s fn write addr).1 := by
  unfold hostCheck
  grind [hostViolation_calm]

theorem markDirty_calm {fn addr : Nat} (hs : Calm s₀ s) : Calm s₀ (markDirty s fn addr) :=
  .ite hs (.ite (.ite hs (State.setTf_calm hs)) (State.setTf_calm hs))

theorem putHost_calm {addr : Nat} {b : Bytes} (hs : Calm s₀ s) : Calm s₀ (putHost s addr b) :=
  hs.trans ⟨rfl, rfl, rfl, rfl, rfl, fun i => tblWf_setRun _ _ _ _ i, id, id⟩

theorem writePieces_calm {fn : Nat} {l : List (Nat × Nat)} {b : Bytes} (hs : Calm s₀ s) : Calm s₀ (writePieces fn s l b).1 := by
  induction l generalizing s b with
  | nil => exact hs
  | cons x r ih =>
    simp only [writePieces]
    split
    · exact ih (markDirty_calm (putHost_calm (hostCheck_calm hs)))
    · exact hostCheck_calm hs

theorem hostWrite_calm {fn addr : Nat} {b : Bytes} (hs : Calm s₀ s) : Calm s₀ (hostWrite s fn addr b).1 := by
  unfold hostWrite
  grind [writePieces_calm]

theorem intCheck_calm {init : Nat} {write : Bool} {source addr : Nat} (hs : Calm s₀ s) : Calm s₀ (intCheck s init write source addr).1 := by
  unfold intCheck
  grind [logViolation_calm]

theorem rootAccess_calm {write : Bool} (hs : Calm s₀ s) : Calm s₀ (rootAccess s write).1 := intCheck_calm hs

theorem domeAccess_calm {addr : Nat} (hs : Calm s₀ s) : Calm s₀ (domeAccess s addr).1 := intCheck_calm hs

theorem qpError_calm {fn q cause : Nat} (hs : Calm s₀ s) : Calm s₀ (qpError s fn q cause) :=
  .ite hs (.ite (raise_calm (State.setQp_calm hs)) (signal_calm (State.setQp_calm hs)))

theorem callDone_calm {k : Call} (hs : Calm s₀ s) : Calm s₀ (callDone s k) := State.setQp_calm hs

theorem queueReset_calm {fn q : Nat} (hs : Calm s₀ s) : Calm s₀ (queueReset s fn q) := (State.setQp_calm hs).mk' rfl rfl rfl rfl

theorem qpEnable_calm {fn q : Nat} (hs : Calm s₀ s) : Calm s₀ (qpEnable s fn q) := State.setQp_calm hs

theorem doReset_calm {fn q : Nat} {enable cfg : Bool} (hs : Calm s₀ s) : Calm s₀ (doReset s fn q enable cfg) :=
  .ite (qpEnable_calm (.ite (State.setQp_calm (queueReset_calm hs)) (queueReset_calm hs)))
    (.ite (State.setQp_calm (queueReset_calm hs)) (queueReset_calm hs))

theorem askReset_calm {fn q : Nat} {enable cfg : Bool} (hs : Calm s₀ s) : Calm s₀ (askReset s fn q enable cfg) :=
  .ite (State.setQp_calm hs) (doReset_calm hs)

theorem freeUnits_calm {t c : Nat} (hs : Calm s₀ s) : Calm s₀ (freeUnits s t c) := State.setTower_calm hs

theorem State.setCus_calm {x : Cus} (hs : Calm s₀ s) : Calm s₀ (State.setCus s x) := hs.mk' rfl rfl rfl rfl

theorem setActive_calm {port : Nat} {on : Bool} (hs : Calm s₀ s) : Calm s₀ (setActive s port on) := .ite hs (State.setCus_calm hs)

theorem cardsOff_calm (hs : Calm s₀ s) : Calm s₀ (cardsOff s) := setActive_calm (setActive_calm hs)

theorem leaveCard_calm {t c : Nat} (hs : Calm s₀ s) : Calm s₀ (leaveCard s t c) := .ite (setActive_calm hs) hs

theorem endCtx_calm {t c : Nat} {st : CtxState} (hs : Calm s₀ s) : Calm s₀ (endCtx s t c st) :=
  (State.setTower_calm (leaveCard_calm hs)).mk' rfl rfl rfl rfl

theorem handoff_calm {k : Call} {b : Bytes} (hs : Calm s₀ s) : Calm s₀ (handoff s k b) := .ite (callDone_calm hs) (hs.mk' rfl rfl rfl rfl)

theorem charge_calm {fn i n : Nat} (hs : Calm s₀ s) : Calm s₀ (charge s fn i n) := .ite hs (hs.mk' rfl rfl rfl rfl)

theorem chargeOutcome_calm {x : Ctx} {k : Call} {status path spire : Nat} (hs : Calm s₀ s) : Calm s₀ (chargeOutcome s x k status path spire) :=
  charge_calm (.ite (charge_calm (charge_calm (charge_calm (charge_calm (charge_calm hs)))))
    (charge_calm (charge_calm (charge_calm (charge_calm hs)))))

theorem writeSlices_calm {fn : Nat} {l : List (Nat × Nat)} {b : Bytes} (hs : Calm s₀ s) : Calm s₀ (writeSlices fn s l b).1 := by
  induction l generalizing s b with
  | nil => exact hs
  | cons x r ih =>
    simp only [writeSlices]
    split
    · exact hostWrite_calm hs
    · exact ih (hostWrite_calm hs)

theorem zeroPiece_calm {fn : Nat} {p : Nat × Nat} (hs : Calm s₀ s) : Calm s₀ (zeroPiece fn s p) := by
  unfold zeroPiece
  grind [hostCheck_calm, markDirty_calm, putHost_calm]

theorem zeroOutput_calm {fn : Nat} {w : Work} (hs : Calm s₀ s) : Calm s₀ (zeroOutput s fn w) := hs.foldl fun _ _ => zeroPiece_calm

theorem askOut_calm {t c n : Nat} (hs : Calm s₀ s) : Calm s₀ (askOut s t c n) := hs.mk' rfl rfl rfl rfl

theorem zeroOut_calm {t c fn : Nat} {w : Work} (hs : Calm s₀ s) : Calm s₀ (zeroOut s t c fn w) := askOut_calm (zeroOutput_calm hs)

theorem bookKey_calm {t h : Nat} (hs : Calm s₀ s) : Calm s₀ (bookKey t h s) := (State.setTower_calm hs).mk' rfl rfl rfl rfl

theorem bookKeys_calm {t c status : Nat} (hs : Calm s₀ s) : Calm s₀ (bookKeys s t c status) := .ite hs (hs.foldl fun _ _ => bookKey_calm)

theorem finishCore_calm {t c status table spire : Nat} {results : Bytes} (hs : Calm s₀ s) :
    Calm s₀ (finishCore s t c status table spire results) := by
  unfold finishCore
  grind [endCtx_calm, handoff_calm, chargeOutcome_calm, zeroOut_calm, bookKeys_calm]

theorem finishWaiter_calm {w : Option (Nat × Nat)} {status : Nat} (hs : Calm s₀ s) : Calm s₀ (finishWaiter s w status) := by
  unfold finishWaiter
  grind [finishCore_calm]

theorem dropJob_calm {j : Job} (hs : Calm s₀ s) : Calm s₀ (dropJob s j) := hs.mk' rfl rfl rfl rfl

theorem jobEnded_calm {job : Option Job} (hs : Calm s₀ s) : Calm s₀ (jobEnded s job) := by
  unfold jobEnded
  grind [finishWaiter_calm, dropJob_calm]

theorem finishCall_calm {t c status table spire : Nat} {results : Bytes} (hs : Calm s₀ s) : Calm s₀ (finishCall s t c status table spire results) :=
  jobEnded_calm (finishCore_calm hs)

theorem finishUnkeyed_calm {t c status table : Nat} {results : Bytes} (hs : Calm s₀ s) : Calm s₀ (finishUnkeyed s t c status table results) := by
  unfold finishUnkeyed
  grind [finishCore_calm, dropJob_calm, jobEnded_calm, finishCall_calm]

theorem abortCall_calm {t c : Nat} {st : CtxState} (hs : Calm s₀ s) : Calm s₀ (abortCall s t c st) := by
  unfold abortCall
  grind [callDone_calm, endCtx_calm, jobEnded_calm]

theorem dataError_calm {t c cause : Nat} (hs : Calm s₀ s) : Calm s₀ (dataError s t c cause) := by
  unfold dataError
  grind [qpError_calm, zeroOut_calm, abortCall_calm]

theorem refusedAccess_calm {t c cause : Nat} (hs : Calm s₀ s) : Calm s₀ (refusedAccess s t c cause) := by
  unfold refusedAccess
  grind [abortCall_calm, dataError_calm]

theorem writeOut_calm {t c : Nat} {b : Bytes} (hs : Calm s₀ s) : Calm s₀ (writeOut s t c b).1 := by
  unfold writeOut
  grind [State.setCtx_calm, writeSlices_calm, askOut_calm, refusedAccess_calm]

theorem armDma_calm {t c : Nat} (hs : Calm s₀ s) : Calm s₀ (armDma s t c) := by
  unfold armDma
  grind [Calm.mk']

theorem popNeed_calm {t c : Nat} (hs : Calm s₀ s) : Calm s₀ (popNeed s t c) := armDma_calm (State.setCtx_calm hs)

theorem dropNeed_calm {t c : Nat} {n : Need} (hs : Calm s₀ s) : Calm s₀ (dropNeed s t c n) := .ite (popNeed_calm hs) (State.setCtx_calm hs)

theorem setNeeds_calm {t c : Nat} {n : List Need} (hs : Calm s₀ s) : Calm s₀ (setNeeds s t c n) := armDma_calm (State.setCtx_calm hs)

theorem unstall_calm {p : Nat → Need → Bool} (hs : Calm s₀ s) : Calm s₀ (unstall s p) := hs.mk' rfl rfl rfl rfl

end Sys2Proof.Machine

/-! SUPPORT. The operations of Arbiters keep what they must. -/

namespace Sys2Proof.Machine
variable {s₀ s : State}

theorem shadowDone_calm {p : Nat} (hs : Calm s₀ s) : Calm s₀ (shadowDone s p) := putHead_calm hs

theorem commitArb_calm (hs : Calm s₀ s) : Calm s₀ (commitArb s) := .ite hs (raise_calm (shadowDone_calm (hs.mk' rfl rfl rfl rfl)))

theorem queueRound_calm {fn q : Nat} (hs : Calm s₀ s) : Calm s₀ (queueRound s fn q) :=
  (Calm.ite ((State.setQp_calm (hs.foldl fun _ _ => State.setQp_calm)).mk' rfl rfl rfl rfl)
    (State.setTf_calm (State.setQp_calm (hs.foldl fun _ _ => State.setQp_calm)))).mk' rfl rfl rfl rfl

end Sys2Proof.Machine

/-! SUPPORT. The operations of Keep keep what they must. -/

namespace Sys2Proof.Machine
variable {s₀ s : State}

theorem setDesc_calm {p : Nat} {d : Bytes} (hs : Calm s₀ s) : Calm s₀ (setDesc s p d) := hs.mk' rfl rfl rfl rfl

theorem State.setLinesTbl_calm {l : Tbl KeepLine} (hs : Calm s₀ s) : Calm s₀ (State.setLinesTbl s l) := hs.mk' rfl rfl rfl rfl

theorem putLine_calm {p cls idx : Nat} {d : Bytes} {st : LineState} {first : Option Nat} (hs : Calm s₀ s) :
    Calm s₀ (putLine s p cls idx d st first) :=
  hs.mk' rfl rfl rfl rfl

theorem installLine_calm {p cls idx : Nat} {d : Bytes} {st : LineState} {first : Option Nat} {s₁ : State} (hs : Calm s₀ s)
    (hr : installLine s p cls idx d st first = some s₁) :
    Calm s₀ s₁ := by
  unfold installLine at hr
  grind [State.setLinesTbl_calm, putLine_calm]

theorem installLines_calm {cls : Nat} {st : LineState} {l : List KeepCopy} {s₁ : State} (hs : Calm s₀ s) (hr : installLines cls st s l = some s₁) :
    Calm s₀ s₁ := by
  induction l generalizing s with
  | nil => exact Option.some.inj hr ▸ hs
  | cons x r ih => grind [installLines, installLine_calm]

theorem carryKey_calm {cls : Nat} {l : List KeepCopy} {x : KeepCopy} (hs : Calm s₀ s) : Calm s₀ (carryKey cls l s x) :=
  .ite hs (.ite hs (State.setLinesTbl_calm hs))

theorem installAll_calm {cls : Nat} {st : LineState} {l : List KeepCopy} {s₁ : State} (hs : Calm s₀ s) (hr : installAll cls st s l = some s₁) :
    Calm s₀ s₁ := by
  obtain ⟨a, ha, rfl⟩ := Option.map_eq_some_iff.1 hr
  exact (installLines_calm hs ha).foldl fun _ _ => carryKey_calm

theorem engineKeep_calm {write : Bool} {ks : List (Nat × Nat)} (hs : Calm s₀ s) : Calm s₀ (engineKeep s write ks).1 := by
  unfold engineKeep; grind [intCheck_calm, Calm.foldl_fst]

theorem dropLines_calm {f : Nat → KeepLine → Bool} (hs : Calm s₀ s) : Calm s₀ (dropLines s f) := State.setLinesTbl_calm hs

theorem touchRun_calm {p cls idx n : Nat} (hs : Calm s₀ s) : Calm s₀ (touchRun s p cls idx n) := by
  unfold touchRun
  grind [putLine_calm, Calm.foldl]

theorem tcInstall_calm {t p cls idx : Nat} {k : KeyRec} (hs : Calm s₀ s) : Calm s₀ (tcInstall s t p cls idx k) := by
  unfold tcInstall
  grind [State.setTower_calm, Calm.mk']

theorem tcDrop_calm {f : Nat → CacheEnt → Bool} (hs : Calm s₀ s) : Calm s₀ (tcDrop s f) := hs.mk' rfl rfl rfl rfl

theorem tcEvict_calm {t p cls idx : Nat} (hs : Calm s₀ s) : Calm s₀ (tcEvict s t p cls idx) := State.setTower_calm hs

theorem loseKey_calm {p cls idx : Nat} (hs : Calm s₀ s) : Calm s₀ (loseKey s p cls idx) := hs.foldl fun _ _ h => .ite h (State.setCtx_calm h)

theorem forgetKey_calm {p cls idx n : Nat} (hs : Calm s₀ s) : Calm s₀ (forgetKey s p cls idx n) := loseKey_calm (tcDrop_calm (dropLines_calm hs))

theorem forgetPart_calm {p : Nat} (hs : Calm s₀ s) : Calm s₀ (forgetPart s p) := tcDrop_calm (dropLines_calm hs)

theorem clearKeys_calm (hs : Calm s₀ s) : Calm s₀ (clearKeys s) := (tcDrop_calm (State.setLinesTbl_calm hs)).mk' rfl rfl rfl rfl

end Sys2Proof.Machine

/-! SUPPORT. The operations of Vault keep what they must. -/

namespace Sys2Proof.Machine
variable {s₀ s : State}

theorem setPendingSlot_calm {r : RootSlot} (hs : Calm s₀ s) : Calm s₀ (setPendingSlot s r) := hs.mk' rfl rfl rfl rfl

theorem windowCheck_calm {write : Bool} {ws : List Nat} (hs : Calm s₀ s) : Calm s₀ (windowCheck s write ws).1 := by
  unfold windowCheck; grind [hostCheck_calm, Calm.foldl_fst]

theorem windowMove_calm {write : Bool} {ws : List Nat} (hs : Calm s₀ s) : Calm s₀ (windowMove s write ws).1 := by
  unfold windowMove
  grind [windowCheck_calm, Calm.mk']

theorem putMem_calm {l : Tbl Bytes} (hs : Calm s₀ s) : Calm s₀ (putMem s l) := hs.mk' rfl rfl rfl rfl

theorem commitDone_calm {t c lines : Nat} (hs : Calm s₀ s) : Calm s₀ (commitDone s t c lines) := by
  unfold commitDone
  grind [State.setCtx_calm, finishCall_calm, popNeed_calm]

theorem commitFailed_calm {status t c : Nat} (hs : Calm s₀ s) : Calm s₀ (commitFailed s status t c) := by
  unfold commitFailed
  grind [finishCall_calm]

theorem moveLines_calm {gs : List Group} {a b : LineState} (hs : Calm s₀ s) : Calm s₀ (moveLines s gs a b) := State.setLinesTbl_calm hs

theorem refreshDesc_calm {p : Nat} (hs : Calm s₀ s) : Calm s₀ (refreshDesc s p) := by
  unfold refreshDesc
  grind [State.setLinesTbl_calm]

theorem undoDesc_calm {u : Nat × Bytes × Bytes} (hs : Calm s₀ s) : Calm s₀ (undoDesc s u) := refreshDesc_calm ((setDesc_calm hs).mk' rfl rfl rfl rfl)

theorem undoBind_calm {u : Nat × Option Nat × Option Nat} (hs : Calm s₀ s) : Calm s₀ (undoBind s u) :=
  .ite ((hs.mk' rfl rfl rfl rfl).mk' rfl rfl rfl rfl) (hs.mk' rfl rfl rfl rfl)

theorem dropGroups_calm {gs : List Group} (hs : Calm s₀ s) : Calm s₀ (dropGroups s gs) := by
  unfold dropGroups
  grind [dropLines_calm, tcDrop_calm, undoDesc_calm, undoBind_calm, Calm.mk', Calm.foldl]

theorem failGroups_calm {gs : List Group} {status : Nat} (hs : Calm s₀ s) : Calm s₀ (failGroups s gs status) :=
  (dropGroups_calm hs).foldl fun _ _ => commitFailed_calm

theorem sealReady_calm (hs : Calm s₀ s) : Calm s₀ (sealReady s) := .ite hs (hs.foldl fun _ _ => popNeed_calm)

theorem finalStep_calm {t c : Nat} {ks : List Nat} {f : State → State} (hs : Calm s₀ s) (hf : ∀ y0, Calm s₀ y0 → Calm s₀ (f y0)) :
    Calm s₀ (finalStep s t c ks f) := by
  unfold finalStep
  grind [freeUnits_calm, setNeeds_calm]

theorem passGroup_calm {t c : Nat} {g : Group} {clear : List KeepCopy} {held : Nat × Nat × Nat × Bytes} (hs : Calm s₀ s) :
    Calm s₀ (passGroup s t c g clear held) := by
  have h : Calm s₀ ((installAll 1 .writing s clear).getD s) := by
    cases h : installAll 1 .writing s clear with
    | none => exact hs
    | some a => exact installAll_calm hs h
  exact State.setCtx_calm (freeUnits_calm (h.mk' rfl rfl rfl rfl))

theorem dropMeta_calm {r : RootSlot} {pg : Nat} (hs : Calm s₀ s) : Calm s₀ (dropMeta s r pg) := hs.mk' rfl rfl rfl rfl

theorem dropPages_calm {r : RootSlot} {pg n : Nat} (hs : Calm s₀ s) : Calm s₀ (dropPages s r pg n) :=
  (tcDrop_calm (dropLines_calm hs)).foldl fun _ _ => dropMeta_calm

theorem State.setVault_calm {v : Vault} (hs : Calm s₀ s) : Calm s₀ (State.setVault s v) := hs.mk' rfl rfl rfl rfl

theorem detachCheck_calm (hs : Calm s₀ s) : Calm s₀ (detachCheck s) := .ite (raise_calm (failGroups_calm (State.setVault_calm hs))) hs

theorem failBatch_calm {b : Batch} {status : Nat} (hs : Calm s₀ s) : Calm s₀ (failBatch s b status) :=
  sealReady_calm (detachCheck_calm (failGroups_calm (State.setVault_calm hs)))

theorem writeCheck_calm {ws : List Nat} (hs : Calm s₀ s) : Calm s₀ (writeCheck s ws).1 := by
  unfold writeCheck
  grind [windowMove_calm]

end Sys2Proof.Machine

/-! SUPPORT. The operations of FigBase keep what they must. -/

namespace Sys2Proof.Machine
variable {s₀ s : State}

theorem noteRetire_calm {kind tower lane reason row : Nat} {fuse : Option Nat} (hs : Calm s₀ s) :
    Calm s₀ (noteRetire s kind tower lane reason row fuse) :=
  raise_calm (hs.mk' rfl rfl rfl rfl)

theorem setRole_calm {t r : Nat} (hs : Calm s₀ s) : Calm s₀ (setRole s t r) := hs.mk' rfl rfl rfl rfl

theorem drainTower_calm {t : Nat} (hs : Calm s₀ s) : Calm s₀ (drainTower s t) := by
  unfold drainTower
  grind [raise_calm, alertCause_calm, degradeCheck_calm, setRole_calm, Calm.mk']

theorem spareEnters_calm {d k : Nat} (hs : Calm s₀ s) : Calm s₀ (spareEnters s d k) :=
  degradeCheck_calm (raise_calm ((setRole_calm hs).mk' rfl rfl rfl rfl))

theorem spareSettle_calm (hs : Calm s₀ s) : Calm s₀ (spareSettle s) := by
  unfold spareSettle
  grind [spareEnters_calm]

theorem modLane_calm {t : Nat} {hash : Bool} {i : Nat} {f : Lane → Lane} (hs : Calm s₀ s) : Calm s₀ (modLane s t hash i f) := State.setTower_calm hs

theorem markLane_calm {t : Nat} {hash : Bool} {i reason : Nat} (hs : Calm s₀ s) : Calm s₀ (markLane s t hash i reason) := by
  unfold markLane
  grind [noteRetire_calm, modLane_calm]

theorem retireLane_calm {t : Nat} {hash : Bool} {i reason : Nat} (hs : Calm s₀ s) : Calm s₀ (retireLane s t hash i reason) :=
  degradeCheck_calm (.ite (drainTower_calm (markLane_calm hs)) (markLane_calm hs))

theorem retireIdle_calm {t : Nat} {hash : Bool} (hs : Calm s₀ s) : Calm s₀ (retireIdle s t hash) := hs.foldl fun _ _ => retireLane_calm

theorem deviceFault_calm {t c : Nat} (hs : Calm s₀ s) : Calm s₀ (deviceFault s t c) := by
  unfold deviceFault
  grind [State.takeFree_calm, finishCall_calm]

theorem laneFault_calm {t c : Nat} {hash : Bool} {i : Nat} (hs : Calm s₀ s) : Calm s₀ (laneFault s t c hash i) := by
  unfold laneFault
  grind [State.setTower_calm, raise_calm, modLane_calm, retireIdle_calm, deviceFault_calm]

theorem markSpire_calm {t : Nat} (hs : Calm s₀ s) : Calm s₀ (markSpire s t) := State.setTower_calm hs

theorem retireSpire_calm {t : Nat} (hs : Calm s₀ s) : Calm s₀ (retireSpire s t) := by
  unfold retireSpire
  grind [drainTower_calm, deviceFault_calm, markSpire_calm]

theorem countSpireFault_calm {t : Nat} (hs : Calm s₀ s) : Calm s₀ (countSpireFault s t) := raise_calm (State.setTower_calm hs)

theorem spireFault_calm {t c : Nat} (hs : Calm s₀ s) : Calm s₀ (spireFault s t c) :=
  .ite hs (retireSpire_calm (deviceFault_calm (countSpireFault_calm hs)))

theorem eccFault_calm {t c : Nat} (hs : Calm s₀ s) : Calm s₀ (eccFault s t c) := deviceFault_calm (countUncorr_calm hs)

theorem keepWriteFault_calm {t c : Nat} (hs : Calm s₀ s) : Calm s₀ (keepWriteFault s t c) := .ite hs (deviceFault_calm (dropLines_calm hs))

theorem suspectTower_calm {t : Nat} (hs : Calm s₀ s) : Calm s₀ (suspectTower s t) := hs.mk' rfl rfl rfl rfl

theorem ctxAccess_calm {t c : Nat} {write : Bool} {addr : Nat} {target : Bool} {f : State → State} (hs : Calm s₀ s)
    (hf : ∀ y0, Calm s₀ y0 → Calm s₀ (f y0)) :
    Calm s₀ (ctxAccess s t c write addr target f) := by
  unfold ctxAccess
  grind [logViolation_calm, abortCall_calm, suspectTower_calm]

theorem modWork_calm {t c : Nat} {f : Work → Work} (hs : Calm s₀ s) : Calm s₀ (modWork s t c f) := State.setCtx_calm hs

theorem spireSpent_calm {t c : Nat} (hs : Calm s₀ s) : Calm s₀ (spireSpent s t c) :=
  .ite hs (modWork_calm ((State.setTower_calm hs).mk' rfl rfl rfl rfl))

theorem withFault_calm {t c : Nat} {fault : FigFault} {f : State → State} (hs : Calm s₀ s) (hf : ∀ y0, Calm s₀ y0 → Calm s₀ (f y0)) :
    Calm s₀ (withFault s t c fault f) := by
  unfold withFault
  grind [countFixed_calm, laneFault_calm, spireFault_calm, eccFault_calm, keepWriteFault_calm, ctxAccess_calm, spireSpent_calm]

theorem pastYield_calm {t c : Nat} (hs : Calm s₀ s) : Calm s₀ (pastYield s t c) := .ite (State.setTower_calm hs) hs

theorem runFigure_calm {t c op : Nat} {fault : FigFault} {f : State → State} (hs : Calm s₀ s) (hf : ∀ y0, Calm s₀ y0 → Calm s₀ (f y0)) :
    Calm s₀ (runFigure s t c op fault f) := by
  unfold runFigure
  grind [withFault_calm, pastYield_calm]

end Sys2Proof.Machine

/-! SUPPORT. The operations of Rng keep what they must. -/

namespace Sys2Proof.Machine
variable {s₀ s : State}

theorem State.setRng_calm {r : Rng} (hs : Calm s₀ s) : Calm s₀ (State.setRng s r) := hs.mk' rfl rfl rfl rfl

theorem setSrc_calm {i : Nat} {x : NoiseSrc} (hs : Calm s₀ s) : Calm s₀ (setSrc s i x) := State.setRng_calm hs

theorem setInst_calm {i : Nat} {x : Drbg} (hs : Calm s₀ s) : Calm s₀ (setInst s i x) := State.setRng_calm hs

theorem rngUnavailable_calm {t c : Nat} (hs : Calm s₀ s) : Calm s₀ (rngUnavailable s t c) := by
  unfold rngUnavailable
  grind [State.takeFree_calm, finishCall_calm, Calm.mk']

theorem starveCheck_calm {old : State} (hs : Calm s₀ s) : Calm s₀ (starveCheck old s) := by
  unfold starveCheck
  grind [raise_calm, rngUnavailable_calm, Calm.foldl]

theorem rngState_calm (hs : Calm s₀ s) : Calm s₀ (rngState s) :=
  .ite (.ite hs (.ite (State.setRng_calm hs) (raise_calm (State.setRng_calm hs))))
    (.ite (raise_calm (State.setRng_calm hs)) (.ite (raise_calm (State.setRng_calm hs)) hs))

theorem retireSource_calm {i : Nat} {startup : Bool} (hs : Calm s₀ s) : Calm s₀ (retireSource s i startup) := by
  unfold retireSource
  grind [raise_calm, setSrc_calm]

theorem noiseTested_calm {i : Nat} {w : Bytes} (hs : Calm s₀ s) : Calm s₀ (noiseTested s i w) :=
  .ite (State.setRng_calm (setSrc_calm hs)) (.ite (retireSource_calm (setSrc_calm hs)) (.ite (retireSource_calm (setSrc_calm hs)) (setSrc_calm hs)))

theorem execNoiseWindow_calm {src : Nat} {samples : Bytes} (hs : Calm s₀ s) : Calms s₀ (execNoiseWindow src samples s) := by
  unfold execNoiseWindow
  grind [degradeCheck_calm, starveCheck_calm, rngState_calm, noiseTested_calm, Calm.calms]

theorem execSeedReady_calm (hs : Calm s₀ s) : Calms s₀ (execSeedReady s) := by
  unfold execSeedReady
  grind [State.setRng_calm, Calm.calms]

theorem execDrbgInstantiate_calm {i : Nat} (hs : Calm s₀ s) : Calms s₀ (execDrbgInstantiate i s) := by
  unfold execDrbgInstantiate
  grind [spareSettle_calm, State.setRng_calm, setInst_calm, starveCheck_calm, Calm.calms]

theorem startDrbgs_calm (hs : Calm s₀ s) : Calm s₀ (startDrbgs s) := by
  unfold startDrbgs
  grind [State.takeBytes_calm, State.setRng_calm, setInst_calm, Calm.foldl]

theorem execDrbgReseed_calm {i : Nat} (hs : Calm s₀ s) : Calms s₀ (execDrbgReseed i s) := by
  unfold execDrbgReseed
  grind [State.setRng_calm, setInst_calm, starveCheck_calm, Calm.calms]

theorem execDrbgGenerate_calm {i : Nat} (hs : Calm s₀ s) : Calms s₀ (execDrbgGenerate i s) := .ite ((setInst_calm hs).calms) hs.calms

theorem release17_calm (hs : Calm s₀ s) : Calm s₀ (release17 s) := .ite hs (unstall_calm (hs.foldl fun _ _ => popNeed_calm))

theorem execDrbgRequestDone_calm {i : Nat} (hs : Calm s₀ s) : Calms s₀ (execDrbgRequestDone i s) := by
  unfold execDrbgRequestDone
  grind [State.setTower_calm, setInst_calm, starveCheck_calm, release17_calm, Calm.calms]

theorem execDrbgDraw_calm {tower : Nat} (hs : Calm s₀ s) : Calms s₀ (execDrbgDraw tower s) := by
  unfold execDrbgDraw
  grind [State.setTower_calm, State.setCtx_calm, popNeed_calm, unstall_calm, rngUnavailable_calm, Calm.calms]

theorem randomFig_calm {t c : Nat} (hs : Calm s₀ s) : Calm s₀ (randomFig t c s) := by
  unfold randomFig
  grind [finishCall_calm, writeOut_calm, setNeeds_calm, setInst_calm, rngUnavailable_calm, starveCheck_calm, release17_calm]

theorem execRandomCall_calm {tower ctx : Nat} {fault : FigFault} (hs : Calm s₀ s) : Calms s₀ (execRandomCall tower ctx fault s) := by
  unfold execRandomCall
  grind [runFigure_calm, randomFig_calm, Calm.calms]

end Sys2Proof.Machine

/-! SUPPORT. The operations of Grants keep what they must. -/

namespace Sys2Proof.Machine
variable {s₀ s : State}

theorem setArbAge_calm {t c i v : Nat} (hs : Calm s₀ s) : Calm s₀ (setArbAge s t c i v) := State.setCtx_calm hs

theorem keepDecide_calm {l : List (Nat × Nat)} {blocked : List Nat} (hs : Calm s₀ s) : Calm s₀ (keepDecide s l blocked).1 := by
  induction l generalizing s blocked with
  | nil => exact hs
  | cons x r ih =>
    simp only [keepDecide]
    split
    · exact ih hs
    · split
      · exact ih (popNeed_calm (State.setCtx_calm hs))
      · exact ih hs

theorem execKeepGrant_calm {fault : optParam (Option (Nat × Nat)) none} (hs : Calm s₀ s) : Calms s₀ (execKeepGrant s fault) := by
  unfold execKeepGrant
  dsimp only
  (repeat' split) <;> grind [unstall_calm, commitArb_calm, eccFault_calm, setArbAge_calm, keepDecide_calm, Calm.mk', Calm.foldl, Calm.calms]

theorem execGrantRevoke_calm {tower ctx : Nat} (hs : Calm s₀ s) : Calms s₀ (execGrantRevoke tower ctx s) :=
  .ite hs.calms ((deviceFault_calm (raise_calm (hs.mk' rfl rfl rfl rfl))).calms)

theorem grantLanes_calm {t : Nat} {hash : Bool} {c cfg : Nat} {ls : List Nat} (hs : Calm s₀ s) : Calm s₀ (grantLanes s t hash c cfg ls) :=
  popNeed_calm (State.setCtx_calm (hs.foldl fun _ _ => modLane_calm))

theorem laneDecide_calm {t : Nat} {hash : Bool} {n : Nat} {l : List Nat} (hs : Calm s₀ s) : Calm s₀ (laneDecide t hash n s l).1 := by
  induction n generalizing s l with
  | zero => exact hs
  | succ n ih => grind [laneDecide, grantLanes_calm]

theorem markLanes_calm {t : Nat} {hash : Bool} {ends : List Nat} (hs : Calm s₀ s) : Calm s₀ (markLanes s t hash ends) :=
  (hs.foldl fun _ _ => modLane_calm).mk' rfl rfl rfl rfl

theorem execLaneSave_calm {tower : Nat} {hash : Bool} {i : Nat} {fault : Bool} (hs : Calm s₀ s) : Calms s₀ (execLaneSave tower hash i fault s) := by
  unfold execLaneSave
  dsimp only
  (repeat' split) <;> grind [State.setTower_calm, State.setCtx_calm, modLane_calm, retireIdle_calm, laneFault_calm, Calm.calms]

theorem giveHalf_calm {t c : Nat} (hs : Calm s₀ s) : Calm s₀ (giveHalf s t c) := .ite (popNeed_calm (State.setTower_calm hs)) (State.setTower_calm hs)

theorem spireSettle_calm {t : Nat} (hs : Calm s₀ s) : Calm s₀ (spireSettle s t) := by
  unfold spireSettle
  grind [popNeed_calm, deviceFault_calm]

theorem execSpireGrant_calm {tower : Nat} {fault : Bool} (hs : Calm s₀ s) : Calms s₀ (execSpireGrant tower fault s) := by
  have h : Calm s₀ (spireSettle (commitArb s) tower) := spireSettle_calm (commitArb_calm hs)
  have aged {l : List Nat} {f : Nat → Nat} : Calm s₀ (List.foldl (fun b d => setArbAge b tower d 1 (f d)) (spireSettle (commitArb s) tower) l) :=
    h.foldl fun _ _ => setArbAge_calm
  unfold execSpireGrant
  dsimp only
  split
  · exact (h.foldl fun _ _ => deviceFault_calm).calms
  split
  · exact h.calms
  split
  · exact h.calms
  split
  · exact (retireSpire_calm (deviceFault_calm (countSpireFault_calm ((State.setTower_calm aged).mk' rfl rfl rfl rfl)))).calms
  · exact (unstall_calm (giveHalf_calm (setArbAge_calm (aged.mk' rfl rfl rfl rfl)))).calms

theorem yieldJob_calm {t r : Nat} (hs : Calm s₀ s) : Calm s₀ (yieldJob s t r) := State.setCtx_calm hs

theorem execSpireSwitch_calm {tower : Nat} {fault : Bool} (hs : Calm s₀ s) : Calms s₀ (execSpireSwitch tower fault s) := by
  have h : Calm s₀ (spireSettle s tower) := spireSettle_calm hs
  unfold execSpireSwitch
  dsimp only
  split
  · exact h.calms
  split
  · split
    · exact h.calms
    split
    · exact (deviceFault_calm h).calms
    · exact (popNeed_calm (State.setCtx_calm (State.setTower_calm h))).calms
  split
  · exact h.calms
  split
  · exact h.calms
  split
  · exact (deviceFault_calm h).calms
  · exact (popNeed_calm (State.setCtx_calm (yieldJob_calm (State.setTower_calm h)))).calms

theorem setDmaAge_calm {k v : Nat} (hs : Calm s₀ s) : Calm s₀ (setDmaAge s k v) := by
  unfold setDmaAge
  grind [setArbAge_calm, Calm.mk']

theorem askFill_calm {t c : Nat} {n : Need} (hs : Calm s₀ s) : Calm s₀ (askFill s t c n) := (State.setCtx_calm hs).mk' rfl rfl rfl rfl

theorem grantFill_calm (hs : Calm s₀ s) : Calm s₀ (grantFill s) := by
  unfold grantFill
  grind [askFill_calm, Calm.mk']

theorem grantCpl_calm (hs : Calm s₀ s) : Calm s₀ (grantCpl s) := .ite (hs.mk' rfl rfl rfl rfl) (hs.mk' rfl rfl rfl rfl)

theorem grantDesc_calm (hs : Calm s₀ s) : Calm s₀ (grantDesc s) := by
  unfold grantDesc
  grind [State.setQp_calm, hostCheck_calm, qpError_calm, Calm.mk']

theorem grantRead_calm {t c : Nat} (hs : Calm s₀ s) : Calm s₀ (grantRead s t c) := by
  unfold grantRead
  grind [hostCheck_calm, refusedAccess_calm, Calm.mk']

theorem grantData_calm {t c : Nat} (hs : Calm s₀ s) : Calm s₀ (grantData s t c) := .ite (hs.mk' rfl rfl rfl rfl) (grantRead_calm hs)

theorem grantDma_calm {k : Nat} {fault : Bool} (hs : Calm s₀ s) : Calm s₀ (grantDma s k fault) := by
  unfold grantDma
  grind [unstall_calm, eccFault_calm, grantFill_calm, grantCpl_calm, grantDesc_calm, grantData_calm]

theorem execDmaGrant_calm {fault : optParam Bool false} (hs : Calm s₀ s) : Calms s₀ (execDmaGrant s fault) := by
  unfold execDmaGrant
  dsimp only
  (repeat' split) <;> grind [commitArb_calm, setDmaAge_calm, grantDma_calm, Calm.mk', Calm.foldl, Calm.calms]

theorem noteStall_calm {t c n : Nat} (hs : Calm s₀ s) : Calm s₀ (noteStall s t c n) := raise_calm (hs.mk' rfl rfl rfl rfl)

theorem breakCall_calm {t c : Nat} (hs : Calm s₀ s) : Calm s₀ (breakCall s t c) := by
  unfold breakCall
  grind [State.takeFree_calm, finishCall_calm, noteStall_calm]

theorem breakCommit_calm {t c : Nat} (hs : Calm s₀ s) : Calm s₀ (breakCommit s t c) := by
  unfold breakCommit
  grind [failGroups_calm, failBatch_calm, noteStall_calm, Calm.mk']

theorem execStallBreak_calm (hs : Calm s₀ s) : Calms s₀ (execStallBreak s) := by
  unfold execStallBreak
  grind [breakCall_calm, breakCommit_calm, Calm.calms]

end Sys2Proof.Machine

/-! SUPPORT. The operations of ReelOps keep what they must. -/

namespace Sys2Proof.Machine
variable {s₀ s : State}

theorem State.setReel_calm {r : Reel} (hs : Calm s₀ s) : Calm s₀ (State.setReel s r) := hs.mk' rfl rfl rfl rfl

theorem setPort_calm {down : Bool} {p : Port} (hs : Calm s₀ s) : Calm s₀ (setPort s down p) := State.setReel_calm hs

theorem freeBuffer_calm {m : Msg} (hs : Calm s₀ s) : Calm s₀ (freeBuffer s m) := by
  unfold freeBuffer
  grind [setPort_calm]

theorem reelRound_calm {down : Bool} (hs : Calm s₀ s) : Calm s₀ (reelRound s down) := by
  unfold reelRound
  grind [commitArb_calm, setPort_calm, freeBuffer_calm, Calm.mk']

theorem reelPump_calm {down : Bool} {n : Nat} (hs : Calm s₀ s) : Calm s₀ (reelPump down n s) := by
  induction n generalizing s with
  | zero => exact hs
  | succ n ih => grind [reelPump, reelRound_calm]

theorem putOn_calm {down : Bool} {m : Msg} (hs : Calm s₀ s) : Calm s₀ (putOn s down m) := .ite hs (reelPump_calm (setPort_calm hs))

theorem sendTo_calm {cls typ dst : Nat} {payload : Bytes} (hs : Calm s₀ s) : Calm s₀ (sendTo s cls typ dst payload) := by
  unfold sendTo
  grind [putOn_calm]

theorem broadcast_calm {typ : Nat} {payload : Bytes} (hs : Calm s₀ s) : Calm s₀ (broadcast s typ payload) :=
  hs.foldl fun _ _ h => .ite (putOn_calm h) h

theorem relay_calm {typ src : Nat} {payload : Bytes} {came : optParam (Option (Bool × Nat × Bool)) none} (hs : Calm s₀ s) :
    Calm s₀ (relay s typ src payload came) :=
  hs.foldl fun _ _ h => .ite (putOn_calm h) h

theorem hop_calm {down : Bool} {cls seq : Nat} {high keep : optParam Bool false} (hs : Calm s₀ s) : Calm s₀ (hop s down cls seq high keep).1 := by
  unfold hop
  grind [setPort_calm]

theorem hears_calm {h : Hdr} {cls : Nat} (hs : Calm s₀ s) : Calm s₀ (hears s h cls).1 := by
  unfold hears
  grind [hop_calm]

theorem heard_calm {h : Hdr} {cls : Nat} {s₁ : State} (hs : Calm s₀ s) (hr : heard s h cls = some s₁) : Calm s₀ s₁ := by
  unfold heard at hr
  grind [hears_calm]

theorem forward_calm {h : Hdr} {cls typ : Nat} {payload : Bytes} (hs : Calm s₀ s) : Calm s₀ (forward s h cls typ payload) := by
  unfold forward
  grind [putOn_calm]

theorem receive_calm {h : Hdr} {cls typ : Nat} {payload : Bytes} {f : State → State} (hs : Calm s₀ s) (hf : ∀ y0, Calm s₀ y0 → Calm s₀ (f y0)) :
    Calm s₀ (receive s h cls typ payload f) := by
  unfold receive
  grind [relay_calm, hears_calm, heard_calm, forward_calm]

theorem creditCheck_calm (hs : Calm s₀ s) : Calm s₀ (creditCheck s) := hs.foldl fun _ _ => popNeed_calm

theorem execLinkAck_calm {down : Bool} {cls seq : Nat} {credits : List Nat} (hs : Calm s₀ s) : Calms s₀ (execLinkAck down cls seq credits s) :=
  .ite hs.calms ((creditCheck_calm (reelPump_calm (setPort_calm hs))).calms)

theorem ringBroken_calm {up : Nat} (hs : Calm s₀ s) : Calm s₀ (ringBroken s up) := .ite hs (raise_calm (State.setReel_calm hs))

theorem shortMirror_calm (hs : Calm s₀ s) : Calm s₀ (shortMirror s) := raise_calm (hs.mk' rfl rfl rfl rfl)

theorem mirrorSettle_calm (hs : Calm s₀ s) : Calm s₀ (mirrorSettle s) := .ite hs (.ite (shortMirror_calm hs) (hs.mk' rfl rfl rfl rfl))

theorem witnessAnswer_calm {got : Bool} {w : Nat} (hs : Calm s₀ s) : Calm s₀ (witnessAnswer got s w) :=
  .ite (hs.mk' rfl rfl rfl rfl) (.ite hs (mirrorSettle_calm (hs.mk' rfl rfl rfl rfl)))

theorem sealWaiters_calm (hs : Calm s₀ s) : Calm s₀ (sealWaiters s) := .ite hs (hs.foldl fun _ _ => popNeed_calm)

theorem lostWitness_calm {l : List (Nat × Nat × Msg)} (hs : Calm s₀ s) : Calm s₀ (lostWitness s l) :=
  sealWaiters_calm (hs.foldl fun _ _ => witnessAnswer_calm)

theorem noteBreak_calm {at_ : Nat} (hs : Calm s₀ s) : Calm s₀ (noteBreak s at_) := .ite (ringBroken_calm hs) (.ite hs (State.setReel_calm hs))

theorem noteMend_calm {at_ : Nat} (hs : Calm s₀ s) : Calm s₀ (noteMend s at_) := .ite (State.setReel_calm hs) (State.setReel_calm hs)

theorem linkDown_calm {down : Bool} (hs : Calm s₀ s) : Calm s₀ (linkDown s down) := by
  have h {q p l} : Calm s₀ (lostWitness (raise (setPort (setPort s down p) (!down) q) pgReel 2) l) :=
    lostWitness_calm (raise_calm (setPort_calm (setPort_calm hs)))
  unfold linkDown
  dsimp only
  split
  · exact hs
  · exact creditCheck_calm (.ite h (noteBreak_calm (putOn_calm h)))

theorem execReelLinkDown_calm {down : Bool} (hs : Calm s₀ s) : Calms s₀ (execReelLinkDown down s) := (linkDown_calm hs).calms

theorem execBreakNotice_calm {addr : Nat} {h : Hdr} (hs : Calm s₀ s) : Calms s₀ (execBreakNotice addr s h) := by
  refine Calm.calms (.ite hs ?_)
  split
  · exact hears_calm hs
  · next hr => exact relay_calm (heard_calm (noteBreak_calm hs) hr)

theorem failedAttempt_calm {down : Bool} (hs : Calm s₀ s) : Calm s₀ (failedAttempt s down) := .ite (linkDown_calm hs) (setPort_calm hs)

theorem execRetransmitTimeout_calm {down : Bool} {cls : Nat} (hs : Calm s₀ s) : Calms s₀ (execRetransmitTimeout down cls s) :=
  (Calm.ite (failedAttempt_calm hs) hs).calms

theorem execLinkNak_calm {down : Bool} {cls seq : Nat} (hs : Calm s₀ s) : Calms s₀ (execLinkNak down cls seq s) :=
  (Calm.ite (failedAttempt_calm hs) hs).calms

theorem execReelPortDrop_calm {down badCrc : Bool} {cls seq : optParam Nat 0} (hs : Calm s₀ s) : Calms s₀ (execReelPortDrop down badCrc s cls seq) :=
  (Calm.ite (setPort_calm hs) hs).calms

theorem laneLost_calm {down dead : Bool} (hs : Calm s₀ s) : Calm s₀ (laneLost s down dead) :=
  .ite (linkDown_calm (degradeCheck_calm (raise_calm hs))) (degradeCheck_calm (raise_calm hs))

theorem execReelLaneRetire_calm {down : Bool} {lane : Nat} (hs : Calm s₀ s) : Calms s₀ (execReelLaneRetire down lane s) :=
  .ite hs.calms ((laneLost_calm (putOn_calm (setPort_calm hs))).calms)

theorem execLaneSwap_calm {down : Bool} {lane : Nat} {seq : optParam Nat 0} (hs : Calm s₀ s) : Calms s₀ (execLaneSwap down lane s seq) := by
  unfold execLaneSwap
  grind [setPort_calm, hop_calm, laneLost_calm, Calm.calms]

theorem echoOne_calm {down : Bool} {rt : Nat} (hs : Calm s₀ s) : Calm s₀ (echoOne s down rt) :=
  .ite (setPort_calm hs) (.ite (linkDown_calm (setPort_calm hs)) (setPort_calm hs))

theorem execDelayEcho_calm {down : Bool} {roundTrip : Nat} (hs : Calm s₀ s) : Calms s₀ (execDelayEcho down roundTrip s) :=
  (Calm.ite (echoOne_calm hs) hs).calms

theorem cloneLost_calm (hs : Calm s₀ s) : Calm s₀ (cloneLost s) := (hs.foldl fun _ _ h => finishCall_calm (h.mk' rfl rfl rfl rfl)).mk' rfl rfl rfl rfl

theorem promenadeClear_calm (hs : Calm s₀ s) : Calm s₀ (promenadeClear s) := creditCheck_calm (cloneLost_calm (State.setReel_calm hs))

theorem setTopology_calm {n topo : Nat} {brk : Option Nat} (hs : Calm s₀ s) : Calm s₀ (setTopology s n topo brk) := raise_calm (State.setReel_calm hs)

theorem promenadeDone_calm {n : Nat} {closed : Bool} (hs : Calm s₀ s) : Calm s₀ (promenadeDone s n closed) :=
  broadcast_calm (setTopology_calm (State.setReel_calm hs))

theorem promenadeStart_calm (hs : Calm s₀ s) : Calm s₀ (promenadeStart s) :=
  .ite (putOn_calm (State.setReel_calm (promenadeClear_calm hs))) (promenadeDone_calm (State.setReel_calm (promenadeClear_calm hs)))

theorem execReelCtrlPromenade_calm (hs : Calm s₀ s) : Calms s₀ (execReelCtrlPromenade s) :=
  (Calm.ite (promenadeStart_calm hs) (recordWerr_calm hs)).calms

theorem sendEnd_calm {n : Nat} (hs : Calm s₀ s) : Calm s₀ (sendEnd s n) := putOn_calm hs

theorem promenadeForward_calm {addr d : Nat} (hs : Calm s₀ s) : Calm s₀ (promenadeForward s addr d) := .ite (putOn_calm hs) (sendEnd_calm hs)

theorem takeAddress_calm {addr d : Nat} (hs : Calm s₀ s) : Calm s₀ (takeAddress s addr d) := (State.setReel_calm hs).mk' rfl rfl rfl rfl

theorem execPromenade_calm {addr d : Nat} {echoes : List Nat} {seq : optParam Nat 0} (hs : Calm s₀ s) :
    Calms s₀ (execPromenade addr d echoes s seq) := by
  unfold execPromenade
  grind [State.setReel_calm, setPort_calm, hop_calm, echoOne_calm, promenadeClear_calm, promenadeDone_calm, sendEnd_calm, promenadeForward_calm,
    takeAddress_calm, Calm.foldl, Calm.calms]

theorem execPromenadeEnd_calm {n : Nat} {seq : optParam Nat 0} (hs : Calm s₀ s) : Calms s₀ (execPromenadeEnd n s seq) := by
  unfold execPromenadeEnd
  grind [State.setReel_calm, hop_calm, promenadeDone_calm, sendEnd_calm, Calm.calms]

theorem execTopology_calm {n topo brk seq src : Nat} (hs : Calm s₀ s) : Calms s₀ (execTopology n topo brk s seq src) := by
  refine Calm.calms (.ite (.ite hs ?_) (.ite hs ?_))
  · split
    · exact hears_calm hs
    · next hr => exact relay_calm (heard_calm (noteMend_calm hs) hr)
  · split
    · exact hears_calm hs
    · next hr => exact relay_calm (heard_calm (setTopology_calm hs) hr)

theorem linkMended_calm {down : Bool} (hs : Calm s₀ s) : Calm s₀ (linkMended s down) :=
  .ite hs (.ite (noteMend_calm hs) (broadcast_calm (noteMend_calm hs)))

theorem execReelLinkUp_calm {down : Bool} (hs : Calm s₀ s) : Calms s₀ (execReelLinkUp down s) := by
  unfold execReelLinkUp
  grind [raise_calm, setPort_calm, reelPump_calm, creditCheck_calm, promenadeStart_calm, linkMended_calm, Calm.calms]

theorem takeWord_calm {src : Nat} {value : Word} (hs : Calm s₀ s) : Calm s₀ (takeWord src value s) := by
  unfold takeWord
  grind [raise_calm, State.setReel_calm]

theorem execReelWord_calm {h : Hdr} {value : Word} (hs : Calm s₀ s) : Calms s₀ (execReelWord h value s) := by
  unfold execReelWord
  grind [receive_calm, takeWord_calm, Calm.calms]

theorem reelSend_calm {t c : Nat} (hs : Calm s₀ s) : Calm s₀ (reelSend t c s) :=
  .ite (finishCall_calm hs) (.ite (setNeeds_calm hs) (finishCall_calm (sendTo_calm hs)))

theorem execReelSend_calm {tower ctx : Nat} {fault : FigFault} (hs : Calm s₀ s) : Calms s₀ (execReelSend tower ctx fault s) := by
  unfold execReelSend
  grind [runFigure_calm, reelSend_calm, Calm.calms]

theorem snapFinish_calm (hs : Calm s₀ s) : Calm s₀ (snapFinish s) := raise_calm (State.setReel_calm hs)

theorem takeSet_calm {lead bell captured : Nat} (hs : Calm s₀ s) : Calm s₀ (takeSet s lead bell captured) :=
  .ite hs (.ite (snapFinish_calm (State.setReel_calm hs)) (State.setReel_calm hs))

theorem reportSet_calm {bell : Nat} (hs : Calm s₀ s) : Calm s₀ (reportSet s bell) := by
  unfold reportSet
  grind [State.setReel_calm, sendTo_calm, takeSet_calm, Calm.foldl]

theorem takeAnswer_calm {src bell ans : Nat} (hs : Calm s₀ s) : Calm s₀ (takeAnswer s src bell ans) := by
  unfold takeAnswer
  grind [State.setReel_calm, reportSet_calm]

theorem answerOrder_calm {bell ans : Nat} (hs : Calm s₀ s) : Calm s₀ (answerOrder s bell ans) := .ite (takeAnswer_calm hs) (sendTo_calm hs)

theorem beginGather_calm {bell issuer : Nat} (hs : Calm s₀ s) : Calm s₀ (beginGather s bell issuer) := by
  unfold beginGather
  grind [State.setReel_calm]

theorem takeOrder_calm {bell issuer : Nat} (hs : Calm s₀ s) : Calm s₀ (takeOrder s bell issuer) := by
  unfold takeOrder
  grind [State.setReel_calm, answerOrder_calm, beginGather_calm]

theorem execSnapOrder_calm {bell issuer : Nat} {h : optParam Hdr { }} (hs : Calm s₀ s) : Calms s₀ (execSnapOrder bell issuer s h) := by
  unfold execSnapOrder
  grind [receive_calm, takeOrder_calm, Calm.calms]

theorem execSnapAck_calm {h : Hdr} {bell ans : Nat} (hs : Calm s₀ s) : Calms s₀ (execSnapAck h bell ans s) := by
  unfold execSnapAck
  grind [receive_calm, takeAnswer_calm, Calm.calms]

theorem execSetAck_calm {h : Hdr} {bell captured missed : Nat} (hs : Calm s₀ s) : Calms s₀ (execSetAck h bell captured missed s) := by
  unfold execSetAck
  grind [receive_calm, takeSet_calm, Calm.calms]

theorem execSetGatherTimeout_calm {bell : Nat} (hs : Calm s₀ s) : Calms s₀ (execSetGatherTimeout bell s) := (Calm.ite (reportSet_calm hs) hs).calms

theorem execSnapDoneTimeout_calm (hs : Calm s₀ s) : Calms s₀ (execSnapDoneTimeout s) := (Calm.ite (snapFinish_calm hs) hs).calms

theorem reelSnapshot_calm {t c : Nat} (hs : Calm s₀ s) : Calm s₀ (reelSnapshot t c s) :=
  .ite (setNeeds_calm hs) (finishCall_calm (broadcast_calm (takeOrder_calm (State.setReel_calm hs))))

theorem execReelSnapshot_calm {tower ctx : Nat} {fault : FigFault} (hs : Calm s₀ s) : Calms s₀ (execReelSnapshot tower ctx fault s) := by
  unfold execReelSnapshot
  grind [runFigure_calm, reelSnapshot_calm, Calm.calms]

end Sys2Proof.Machine

/-! SUPPORT. The operations of Create keep what they must. -/

namespace Sys2Proof.Machine
variable {s₀ s : State}

theorem advanceCursor_calm {n : NewRec} {idx : Nat} (hs : Calm s₀ s) : Calm s₀ (advanceCursor s n idx) :=
  .ite hs (.ite (setDesc_calm hs) (hs.mk' rfl rfl rfl rfl))

theorem releaseLanes_calm {t c : Nat} (hs : Calm s₀ s) : Calm s₀ (releaseLanes s t c) := retireIdle_calm (retireIdle_calm (State.setTower_calm hs))

theorem stepBack_calm {t c : Nat} {n : List Need} (hs : Calm s₀ s) : Calm s₀ (stepBack s t c n) := by
  unfold stepBack
  grind [State.setCtx_calm, freeUnits_calm, setNeeds_calm, releaseLanes_calm]

theorem askAgain_calm {t c : Nat} {n : List Need} (hs : Calm s₀ s) : Calm s₀ (askAgain s t c n) := by
  unfold askAgain
  grind [State.setCtx_calm, stepBack_calm]

theorem withLines_calm {t c p idx n : Nat} {f : State → State} (hs : Calm s₀ s) (hf : ∀ y0, Calm s₀ y0 → Calm s₀ (f y0)) :
    Calm s₀ (withLines s t c p idx n f) := by
  unfold withLines
  grind [stepBack_calm, Calm.mk', Calm.foldl]

theorem holdLane_calm {t c : Nat} {r : LaneRegs} (hs : Calm s₀ s) : Calm s₀ (holdLane s t c r) := by
  unfold holdLane
  grind [State.setTower_calm]

theorem placeRecord_calm {t c : Nat} {n : NewRec} {idx table spire : Nat} {more : List (Nat × Nat × Bytes)} {moreClear : List KeepCopy}
    {res : Nat → KeyRec → Bytes} (hs : Calm s₀ s) :
    Calm s₀ (placeRecord s t c n idx table spire more moreClear res) := by
  have ha : Calm s₀ (advanceCursor s n idx) := advanceCursor_calm hs
  unfold placeRecord
  dsimp only
  split
  · split
    · exact .ite (finishCall_calm hs) (finalStep_calm hs fun _ _ => passGroup_calm ha)
    · exact finishCall_calm hs
  · exact finalStep_calm hs fun _ _ => finishCall_calm (ha.getD fun _ => installAll_calm ha)

theorem createRecord_calm {t c : Nat} {n : NewRec} {table spire : Nat} {more : List (Nat × Nat × Bytes)} {moreClear : List KeepCopy}
    {res : Nat → KeyRec → Bytes} (hs : Calm s₀ s) :
    Calm s₀ (createRecord s t c n table spire more moreClear res) := by
  unfold createRecord
  grind [finishCall_calm, setNeeds_calm, modWork_calm, askAgain_calm, withLines_calm, placeRecord_calm]

theorem rewriteRecord_calm {t c p idx : Nat} {k : KeyRec} {held : Nat × Nat × Nat × Bytes} {f : State → State} (hs : Calm s₀ s)
    (hf : ∀ y0, Calm s₀ y0 → Calm s₀ (f y0)) :
    Calm s₀ (rewriteRecord s t c p idx k held f) := by
  unfold rewriteRecord
  grind [finishCall_calm, finalStep_calm, passGroup_calm]

theorem writeDesc_calm {t c p : Nat} {d : Bytes} {unbind : List (Nat × Option Nat × Option Nat)} {held : Nat × Nat × Nat × Bytes}
    {f : State → State} (hs : Calm s₀ s) (hf : ∀ y0, Calm s₀ y0 → Calm s₀ (f y0)) :
    Calm s₀ (writeDesc s t c p d unbind held f) := by
  unfold writeDesc
  grind [finishCall_calm, setDesc_calm, finalStep_calm, passGroup_calm]

end Sys2Proof.Machine

/-! SUPPORT. The operations of Spire keep what they must. -/

namespace Sys2Proof.Machine
variable {s₀ s : State}

theorem loadHalf_calm {t c : Nat} {ops : List (Nat × Nat)} (hs : Calm s₀ s) : Calm s₀ (loadHalf s t c ops) :=
  .ite hs (modWork_calm (State.setTower_calm hs))

theorem spPart_calm {prog : List SpStep} {job count : Bool} {t c : Nat} (hs : Calm s₀ s) : Calm s₀ (spPart prog job count t c s).1 := by
  unfold spPart
  grind [State.setTower_calm, modWork_calm]

theorem spRun_calm {prog : List SpStep} {job count : Bool} {t c n : Nat} (hs : Calm s₀ s) : Calm s₀ (spRun prog job count t c n s).1 := by
  induction n generalizing s with
  | zero => exact hs
  | succ n ih => grind [spRun, spPart_calm]

theorem spCall_calm {t c : Nat} {prog : List SpStep} {ops : List (Nat × Nat)} {n : Nat} {refused : Bool} (hs : Calm s₀ s) :
    Calm s₀ (spCall s t c prog ops n refused) :=
  State.setTower_calm hs

theorem freeHalf_calm {t c : Nat} (hs : Calm s₀ s) : Calm s₀ (freeHalf s t c) := State.setTower_calm hs

end Sys2Proof.Machine

/-! SUPPORT. The operations of SpireFam keep what they must. -/

namespace Sys2Proof.Machine
variable {s₀ s : State}

theorem spireSpend_calm {t c n : Nat} (hs : Calm s₀ s) : Calm s₀ (spireSpend s t c n) := by
  unfold spireSpend
  grind [State.setTower_calm, modWork_calm]

theorem spireOnce_calm {t c : Nat} {prog : List SpStep} {ops : List (Nat × Nat)} {n : Nat} (hs : Calm s₀ s) : Calm s₀ (spireOnce s t c prog ops n) :=
  .ite hs (modWork_calm (spCall_calm hs))

theorem spireEnd_calm {t c h n status : Nat} {res : Bytes} (hs : Calm s₀ s) : Calm s₀ (spireEnd s t c h n status res) := finishCall_calm hs

theorem spireEndOut_calm {t c h n : Nat} {out res : Bytes} (hs : Calm s₀ s) : Calm s₀ (spireEndOut s t c h n out res) := by
  unfold spireEndOut
  grind [writeOut_calm, spireEnd_calm]

theorem spireRefused_calm {t c h n : Nat} (hs : Calm s₀ s) : Calm s₀ (spireRefused s t c h n) := finishCall_calm hs

theorem spireRefuseOpen_calm {t c : Nat} {prog : List SpStep} {ops : List (Nat × Nat)} {n k a : Nat} (hs : Calm s₀ s) :
    Calm s₀ (spireRefuseOpen s t c prog ops n k a) :=
  spireRefused_calm (spCall_calm (hs.mk' rfl rfl rfl rfl))

theorem rsaFigure_calm {t c h hBefore : Nat} {k : KeyRec} {x : Nat} {f : State → Nat → Nat → State} (hs : Calm s₀ s)
    (hf : ∀ y0 y1 y2, Calm s₀ y0 → Calm s₀ (f y0 y1 y2)) :
    Calm s₀ (rsaFigure s t c h hBefore k x f) := by
  unfold rsaFigure
  grind [countSpireFault_calm, loadHalf_calm, spRun_calm, freeHalf_calm, spireEnd_calm, spireRefused_calm]

theorem pkSign_calm {t c : Nat} (hs : Calm s₀ s) : Calm s₀ (pkSign t c s) := by
  unfold pkSign
  grind [finishCall_calm, spCall_calm, spireEndOut_calm, rsaFigure_calm]

theorem pkVerify_calm {t c : Nat} (hs : Calm s₀ s) : Calm s₀ (pkVerify t c s) := by
  unfold pkVerify
  grind [finishCall_calm, loadHalf_calm, spRun_calm, spCall_calm, freeHalf_calm, spireEnd_calm, spireRefused_calm, spireRefuseOpen_calm]

theorem pkDecrypt_calm {t c : Nat} (hs : Calm s₀ s) : Calm s₀ (pkDecrypt t c s) := by
  unfold pkDecrypt
  grind [spireEnd_calm, spireEndOut_calm, rsaFigure_calm]

theorem spireCreate_calm {t c : Nat} {prog : List SpStep} {ops : List (Nat × Nat)} {n dv : Nat} {m : Bytes} (hs : Calm s₀ s) :
    Calm s₀ (spireCreate s t c prog ops n dv m) :=
  createRecord_calm (spireOnce_calm hs)

theorem pkAgree_calm {t c : Nat} (hs : Calm s₀ s) : Calm s₀ (pkAgree t c s) := by
  unfold pkAgree
  grind [finishCall_calm, spCall_calm, spireRefused_calm, spireRefuseOpen_calm, spireCreate_calm]

theorem keygenPlace_calm {t c : Nat} {prog : List SpStep} {ops : List (Nat × Nat)} {n left : Nat} {priv pub ext : Bytes} (hs : Calm s₀ s) :
    Calm s₀ (keygenPlace s t c prog ops n left priv pub ext) := by
  unfold keygenPlace
  grind [writeOut_calm, createRecord_calm, spireOnce_calm]

theorem askDraw_calm {t c n : Nat} {f : Work → Work} (hs : Calm s₀ s) : Calm s₀ (askDraw s t c n f) := setNeeds_calm (modWork_calm hs)

theorem rsaPlace_calm {t c : Nat} (hs : Calm s₀ s) : Calm s₀ (rsaPlace t c s) := keygenPlace_calm hs

theorem rsaCandidate_calm {t c : Nat} (hs : Calm s₀ s) : Calm s₀ (rsaCandidate t c s) := by
  unfold rsaCandidate
  grind [setNeeds_calm, modWork_calm, loadHalf_calm, spPart_calm, spireSpend_calm, askDraw_calm, rsaPlace_calm]

theorem pkKeygen_calm {t c : Nat} (hs : Calm s₀ s) : Calm s₀ (pkKeygen t c s) := by
  unfold pkKeygen
  grind [finishCall_calm, keygenPlace_calm, rsaPlace_calm, rsaCandidate_calm]

theorem pqDecaps_calm {t c : Nat} (hs : Calm s₀ s) : Calm s₀ (pqDecaps t c s) := spireCreate_calm hs

theorem pqSign_calm {t c : Nat} (hs : Calm s₀ s) : Calm s₀ (pqSign t c s) := by
  unfold pqSign
  grind [modWork_calm, loadHalf_calm, spPart_calm, freeHalf_calm, spireEnd_calm, spireEndOut_calm]

theorem pqVerify_calm {t c : Nat} (hs : Calm s₀ s) : Calm s₀ (pqVerify t c s) := spireEnd_calm (spCall_calm hs)

theorem curveLoad_calm {t c : Nat} (hs : Calm s₀ s) : Calm s₀ (curveLoad t c s) := by
  unfold curveLoad
  dsimp only
  (repeat' split) <;> grind [raise_calm, finishCall_calm, setNeeds_calm, modWork_calm, loadHalf_calm, spPart_calm, freeHalf_calm, spireSpend_calm,
    spireEnd_calm, Calm.mk']

theorem execPkSign_calm {tower ctx : Nat} {fault : FigFault} (hs : Calm s₀ s) : Calms s₀ (execPkSign tower ctx fault s) := by
  unfold execPkSign
  grind [runFigure_calm, pkSign_calm, Calm.calms]

theorem execPkVerify_calm {tower ctx : Nat} {fault : FigFault} (hs : Calm s₀ s) : Calms s₀ (execPkVerify tower ctx fault s) := by
  unfold execPkVerify
  grind [runFigure_calm, pkVerify_calm, Calm.calms]

theorem execPkDecrypt_calm {tower ctx : Nat} {fault : FigFault} (hs : Calm s₀ s) : Calms s₀ (execPkDecrypt tower ctx fault s) := by
  unfold execPkDecrypt
  grind [runFigure_calm, pkDecrypt_calm, Calm.calms]

theorem execPkAgree_calm {tower ctx : Nat} {fault : FigFault} (hs : Calm s₀ s) : Calms s₀ (execPkAgree tower ctx fault s) := by
  unfold execPkAgree
  grind [runFigure_calm, pkAgree_calm, Calm.calms]

theorem execPkKeygen_calm {tower ctx : Nat} {fault : FigFault} (hs : Calm s₀ s) : Calms s₀ (execPkKeygen tower ctx fault s) := by
  unfold execPkKeygen
  grind [runFigure_calm, pkKeygen_calm, Calm.calms]

theorem execPqKemDecaps_calm {tower ctx : Nat} {fault : FigFault} (hs : Calm s₀ s) : Calms s₀ (execPqKemDecaps tower ctx fault s) := by
  unfold execPqKemDecaps
  grind [runFigure_calm, pqDecaps_calm, Calm.calms]

theorem execPqSign_calm {tower ctx : Nat} {fault : FigFault} (hs : Calm s₀ s) : Calms s₀ (execPqSign tower ctx fault s) := by
  unfold execPqSign
  grind [runFigure_calm, pqSign_calm, Calm.calms]

theorem execPqVerify_calm {tower ctx : Nat} {fault : FigFault} (hs : Calm s₀ s) : Calms s₀ (execPqVerify tower ctx fault s) := by
  unfold execPqVerify
  grind [runFigure_calm, pqVerify_calm, Calm.calms]

theorem execCurveLoad_calm {tower ctx : Nat} {fault : FigFault} (hs : Calm s₀ s) : Calms s₀ (execCurveLoad tower ctx fault s) := by
  unfold execCurveLoad
  grind [runFigure_calm, curveLoad_calm, Calm.calms]

end Sys2Proof.Machine

/-! SUPPORT. The operations of Metering keep what they must. -/

namespace Sys2Proof.Machine
variable {s₀ s : State}

theorem State.setMtr_calm {m : Mtr} (hs : Calm s₀ s) : Calm s₀ (State.setMtr s m) := hs.mk' rfl rfl rfl rfl

theorem State.setLedger_calm {l : Ledger} (hs : Calm s₀ s) : Calm s₀ (State.setLedger s l) := hs.mk' rfl rfl rfl rfl

theorem State.putLedger_calm {l : Ledger} (hs : Calm s₀ s) : Calm s₀ (State.putLedger s l) :=
  .ite (State.setLedger_calm hs) (State.setLedger_calm (hs.foldl fun _ _ => domeAccess_calm))

theorem lateEvent_calm (hs : Calm s₀ s) : Calm s₀ (lateEvent s) := raise_calm (hs.mk' rfl rfl rfl rfl)

theorem execTariffArm_calm (hs : Calm s₀ s) : Calms s₀ (execTariffArm s) := (Calm.ite hs (.ite (recordWerr_calm hs) (State.putLedger_calm hs))).calms

theorem execTariffCancel_calm (hs : Calm s₀ s) : Calms s₀ (execTariffCancel s) :=
  (Calm.ite hs (.ite (recordWerr_calm hs) (State.putLedger_calm hs))).calms

theorem applySwitch_calm {sec : Nat} (hs : Calm s₀ s) : Calm s₀ (applySwitch s sec) := by
  unfold applySwitch
  grind [raise_calm, State.setMtr_calm, State.putLedger_calm, lateEvent_calm]

theorem execTariffSwitch_calm (hs : Calm s₀ s) : Calms s₀ (execTariffSwitch s) := (Calm.ite (applySwitch_calm hs) hs).calms

theorem foldSecond_calm {sec : Nat} (hs : Calm s₀ s) : Calm s₀ (foldSecond s sec) := State.setMtr_calm (State.putLedger_calm hs)

theorem closeInterval_calm {len more : Nat} (hs : Calm s₀ s) : Calm s₀ (closeInterval s len more) :=
  raise_calm (State.setMtr_calm (State.putLedger_calm hs))

theorem openInterval_calm {sec : Nat} {short : Bool} (hs : Calm s₀ s) : Calm s₀ (openInterval s sec short) :=
  State.setMtr_calm (State.putLedger_calm hs)

theorem commitLen_calm (hs : Calm s₀ s) : Calm s₀ (commitLen s) := .ite (State.setHead_calm (State.putLedger_calm hs)) hs

theorem State.noTrail_calm (hs : Calm s₀ s) : Calm s₀ (State.noTrail s) := State.setMtr_calm hs

theorem recoverLedger_calm {sec : Nat} (hs : Calm s₀ s) : Calm s₀ (recoverLedger s sec) := by
  unfold recoverLedger
  grind [raise_calm, State.setMtr_calm, State.setLedger_calm, closeInterval_calm, State.noTrail_calm]

theorem markLate_calm {late : Bool} (hs : Calm s₀ s) : Calm s₀ (markLate late s) := .ite (State.putLedger_calm hs) hs

theorem mtrSecond_calm {sec : Nat} (hs : Calm s₀ s) : Calm s₀ (mtrSecond s sec) := by
  have hr : Calm s₀ (recoverLedger s sec) := recoverLedger_calm hs
  unfold mtrSecond
  dsimp only
  split
  · exact markLate_calm (openInterval_calm (.ite (commitLen_calm (applySwitch_calm hr)) (applySwitch_calm hr)))
  have hf {m} : Calm s₀ ((foldSecond (recoverLedger s sec) (sec - 1)).setMtr m) := State.setMtr_calm (foldSecond_calm hr)
  split
  · exact applySwitch_calm hf
  have hc {n k m p} : Calm s₀ ((closeInterval ((foldSecond (recoverLedger s sec) (sec - 1)).setMtr m) n k).setMtr p) :=
    State.setMtr_calm (closeInterval_calm hf)
  exact markLate_calm (openInterval_calm (commitLen_calm (applySwitch_calm (.ite hc (lateEvent_calm hc)))))

theorem execIntervalClose_calm (hs : Calm s₀ s) : Calms s₀ (execIntervalClose s) := (Calm.ite (mtrSecond_calm hs) hs).calms

theorem captureNow_calm (hs : Calm s₀ s) : Calm s₀ (captureNow s) := by
  unfold captureNow
  grind [answerOrder_calm, Calm.mk']

theorem execSnapshotCapture_calm (hs : Calm s₀ s) : Calms s₀ (execSnapshotCapture s) := (Calm.ite (captureNow_calm hs) hs).calms

theorem execSnapBankSwap_calm (hs : Calm s₀ s) : Calms s₀ (execSnapBankSwap s) := by
  unfold execSnapBankSwap
  grind [raise_calm, State.setMtr_calm, Calm.calms]

theorem finishSigned_calm {t c : Nat} {body : Bytes} {path : Nat} (hs : Calm s₀ s) : Calm s₀ (finishSigned s t c body path) := by
  unfold finishSigned
  grind [finishCall_calm, writeOut_calm, deviceFault_calm, spCall_calm]

theorem tallyStatement_calm {t c : Nat} (hs : Calm s₀ s) : Calm s₀ (tallyStatement t c s) := finishSigned_calm hs

theorem execTallyStatement_calm {tower ctx : Nat} {fault : FigFault} (hs : Calm s₀ s) : Calms s₀ (execTallyStatement tower ctx fault s) := by
  unfold execTallyStatement
  grind [runFigure_calm, tallyStatement_calm, Calm.calms]

end Sys2Proof.Machine

/-! SUPPORT. The operations of VaultFam keep what they must. -/

namespace Sys2Proof.Machine
variable {s₀ s : State}

theorem noteIntegrity_calm {w : Nat} (hs : Calm s₀ s) : Calm s₀ (noteIntegrity s w) := raise_calm (State.setVault_calm hs)

theorem finishFree_calm {t c status : Nat} {res : Bytes} (hs : Calm s₀ s) : Calm s₀ (finishFree s t c status res) := by
  unfold finishFree
  grind [State.takeFree_calm, finishCall_calm]

theorem failGroup_calm {g : Group} {st : Nat} {w : Option Nat} (hs : Calm s₀ s) : Calm s₀ (failGroup s g st w) := by
  unfold failGroup
  grind [failGroups_calm, noteIntegrity_calm]

theorem execBatchClose_calm (hs : Calm s₀ s) : Calms s₀ (execBatchClose s) := by
  unfold execBatchClose
  grind [engineKeep_calm, windowMove_calm, State.setVault_calm, failBatch_calm, failGroup_calm, Calm.foldl, Calm.calms]

theorem commitStep_calm (hs : Calm s₀ s) : Calm s₀ (commitStep s) := hs.mk' rfl rfl rfl rfl

theorem execJournalWritten_calm {failed : Bool} (hs : Calm s₀ s) : Calms s₀ (execJournalWritten failed s) := by
  unfold execJournalWritten
  split
  · next b _ _ =>
    have hw : Calm s₀ (writeCheck s ((journalLines s b).map (·.1))).1 := writeCheck_calm hs
    generalize hx : writeCheck s ((journalLines s b).map (·.1)) = x at hw
    have hr : Calm s₀ (if failed || !x.2 then (x.1, x.2) else rootAccess x.1 true).1 := by
      split
      · exact hw
      · exact rootAccess_calm hw
    dsimp only
    rw [hx]
    generalize (if failed || !x.2 then (x.1, x.2) else rootAccess x.1 true) = y at hr
    split
    · exact (failBatch_calm (.ite (logVaultError_calm hr) hr)).calms
    · exact Calm.calms ((commitStep_calm (moveLines_calm (State.setVault_calm (setPendingSlot_calm (putMem_calm
        (State.setVault_calm hr)))))).foldl fun _ _ => commitDone_calm)
  · exact hs.calms

theorem commitHome_calm {b : Batch} (hs : Calm s₀ s) : Calm s₀ (commitHome s b) :=
  setPendingSlot_calm ((State.setVault_calm (putMem_calm hs)).mk' rfl rfl rfl rfl)

theorem applyHome_calm {b : Batch} (hs : Calm s₀ s) : Calm s₀ (applyHome s b) :=
  sealReady_calm (detachCheck_calm (moveLines_calm (commitStep_calm (commitHome_calm hs))))

theorem tryHome_calm {b : Batch} {failed : Bool} (hs : Calm s₀ s) : Calm s₀ (tryHome s b failed) := by
  unfold tryHome
  grind [logVaultError_calm, rootAccess_calm, State.setVault_calm, writeCheck_calm, applyHome_calm]

theorem execHomeApplied_calm {failed : Bool} (hs : Calm s₀ s) : Calms s₀ (execHomeApplied failed s) := by
  unfold execHomeApplied
  grind [tryHome_calm, Calm.calms]

theorem execApplyRetry_calm {failed : Bool} (hs : Calm s₀ s) : Calms s₀ (execApplyRetry failed s) := by
  unfold execApplyRetry
  grind [raise_calm, State.setVault_calm, tryHome_calm, Calm.calms]

theorem ctrlResult_calm {r : Nat} (hs : Calm s₀ s) : Calm s₀ (ctrlResult s r) := raise_calm (State.setVault_calm hs)

theorem execVaultCreate_calm (hs : Calm s₀ s) : Calms s₀ (execVaultCreate s) := by
  unfold execVaultCreate
  grind [State.takeBytes_calm, rootAccess_calm, State.setVault_calm, ctrlResult_calm, Calm.mk', Calm.calms]

theorem execVaultAttach_calm (hs : Calm s₀ s) : Calms s₀ (execVaultAttach s) :=
  .ite hs.calms (.ite ((ctrlResult_calm hs).calms)
    (.ite ((ctrlResult_calm hs).calms) (.ite ((ctrlResult_calm hs).calms) ((State.setVault_calm hs).calms))))

theorem execVaultDetach_calm (hs : Calm s₀ s) : Calms s₀ (execVaultDetach s) :=
  .ite hs.calms (.ite ((ctrlResult_calm hs).calms) ((detachCheck_calm (State.setVault_calm hs)).calms))

theorem journalGone_calm (hs : Calm s₀ s) : Calm s₀ (journalGone s) := raise_calm (State.setVault_calm (setPendingSlot_calm hs))

theorem recoverVault_calm (hs : Calm s₀ s) : Calm s₀ (recoverVault s).1 := by
  unfold recoverVault
  grind [rootAccess_calm, setPendingSlot_calm, windowMove_calm, putMem_calm, writeCheck_calm, journalGone_calm, Calm.mk']

theorem takeDesc_calm {r : RootSlot} {p : Nat} {from_ : State} (hs : Calm s₀ s) : Calm s₀ (takeDesc s r p from_) := by
  have h (load : State → RootSlot → Nat → Bytes × Option Nat) : Calm s₀ (takeDescBy load s r p from_) := by
    unfold takeDescBy
    dsimp only
    split
    · exact noteIntegrity_calm (setDesc_calm hs)
    · exact setDesc_calm hs
  exact takeDesc_eq ▸ h loadDesc

theorem comeOnline_calm (hs : Calm s₀ s) : Calm s₀ (comeOnline s) := by
  unfold comeOnline
  grind [State.setVault_calm, noteIntegrity_calm, takeDesc_calm, Calm.foldl]

theorem tryOnline_calm (hs : Calm s₀ s) : Calm s₀ (tryOnline s).1 := by
  unfold tryOnline
  grind [windowMove_calm, comeOnline_calm]

theorem attachFails_calm (hs : Calm s₀ s) : Calm s₀ (attachFails s) := ctrlResult_calm (State.setVault_calm hs)

theorem execCtrlDone_calm {mem : List (Nat × Bytes)} (hs : Calm s₀ s) : Calms s₀ (execCtrlDone mem s) := by
  unfold execCtrlDone
  grind [putMem_calm, State.setVault_calm, detachCheck_calm, ctrlResult_calm, recoverVault_calm, tryOnline_calm, attachFails_calm, Calm.calms]

theorem writeSeal_calm {i : Nat} {b : Bytes} (hs : Calm s₀ s) : Calm s₀ (writeSeal s i b) := by
  unfold writeSeal
  grind [windowMove_calm, State.setVault_calm]

theorem mirror_calm (hs : Calm s₀ s) : Calm s₀ (mirror s) := by
  unfold mirror
  grind [State.setVault_calm, sendTo_calm, shortMirror_calm, mirrorSettle_calm, witnessAnswer_calm, sealWaiters_calm, Calm.foldl]

theorem vaultSecond_calm (hs : Calm s₀ s) : Calm s₀ (vaultSecond s) := .ite hs (mirror_calm (writeSeal_calm hs))

theorem writeWitness_calm {b : Bytes} (hs : Calm s₀ s) : Calm s₀ (writeWitness s b) := by
  unfold writeWitness
  dsimp only
  (repeat' split) <;> grind [intCheck_calm, Calm.mk']

theorem takeWitness_calm {src : Nat} {record : Bytes} (hs : Calm s₀ s) : Calm s₀ (takeWitness src record s) := sendTo_calm (writeWitness_calm hs)

theorem execWitnessRec_calm {h : Hdr} {record : Bytes} (hs : Calm s₀ s) : Calms s₀ (execWitnessRec h record s) := by
  unfold execWitnessRec
  grind [receive_calm, takeWitness_calm, Calm.calms]

theorem fenceVault_calm (hs : Calm s₀ s) : Calm s₀ (fenceVault s) := raise_calm (failGroups_calm (State.setVault_calm hs))

theorem takeWitnessAck_calm {src owner epoch : Nat} (hs : Calm s₀ s) : Calm s₀ (takeWitnessAck src owner epoch s) :=
  sealWaiters_calm (.ite (fenceVault_calm (witnessAnswer_calm hs)) (witnessAnswer_calm hs))

theorem execWitnessAck_calm {h : Hdr} {owner epoch : Nat} (hs : Calm s₀ s) : Calms s₀ (execWitnessAck h owner epoch s) := by
  unfold execWitnessAck
  grind [receive_calm, takeWitnessAck_calm, Calm.calms]

theorem engineGroup_calm {g : Group} (hs : Calm s₀ s) : Calm s₀ (engineGroup s g) := State.setVault_calm hs

theorem rekeyStep_calm {t c : Nat} (hs : Calm s₀ s) : Calm s₀ (rekeyStep t c s) := by
  unfold rekeyStep
  grind [finishCall_calm, setNeeds_calm, passGroup_calm, State.setVault_calm, modWork_calm, finishFree_calm]

theorem scrubStep_calm {t c : Nat} (hs : Calm s₀ s) : Calm s₀ (scrubStep t c s) := by
  unfold scrubStep
  grind [finishCall_calm, setNeeds_calm, modWork_calm, finishFree_calm]

theorem pageDone_calm {t c n : Nat} (hs : Calm s₀ s) : Calm s₀ (pageDone s t c n) := .ite (popNeed_calm (State.setCtx_calm hs)) (State.setCtx_calm hs)

theorem passPages_calm {t c : Nat} {r : PageRun} {f : Work → Work} (hs : Calm s₀ s) : Calm s₀ (passPages s t c r f) := by
  unfold passPages
  grind [State.setCtx_calm, State.takeFree_calm, passGroup_calm, dropPages_calm, modWork_calm]

theorem rekeyPage_calm {t c : Nat} (hs : Calm s₀ s) : Calm s₀ (rekeyPage t c s) := by
  unfold rekeyPage
  grind [noteIntegrity_calm, finishFree_calm, pageDone_calm, passPages_calm]

theorem scrubPage_calm {t c : Nat} (hs : Calm s₀ s) : Calm s₀ (scrubPage t c s) := by
  unfold scrubPage
  grind [modWork_calm, noteIntegrity_calm, pageDone_calm, passPages_calm]

theorem releaseVault_calm (hs : Calm s₀ s) : Calm s₀ (releaseVault s) := failGroups_calm (State.setVault_calm (hs.mk' rfl rfl rfl rfl))

theorem sealStep_calm {release : Bool} {t c : Nat} (hs : Calm s₀ s) : Calm s₀ (sealStep release t c s) := by
  unfold sealStep
  grind [writeOut_calm, setNeeds_calm, modWork_calm, writeSeal_calm, mirror_calm]

theorem sealRoot_calm {release : Bool} {t c : Nat} (hs : Calm s₀ s) : Calm s₀ (sealRoot release t c s) :=
  .ite (finishCall_calm (.ite (releaseVault_calm hs) hs)) (.ite (finishCall_calm hs) (.ite (setNeeds_calm (modWork_calm hs)) (sealStep_calm hs)))

theorem rollForward_calm {n : Nat} {r : RootSlot} {k : Nat} (hs : Calm s₀ s) : Calm s₀ (rollForward n s r k).1 := by
  induction n generalizing s r k with
  | zero => exact hs
  | succ n ih =>
    simp only [rollForward]
    split
    · exact hs
    split
    · exact writeCheck_calm hs
    split
    · exact writeCheck_calm hs
    · exact ih (putMem_calm (writeCheck_calm hs))

theorem adopt_calm {seals : List Bytes} {answers : List (Option Bytes)} {failed : Bool} {t c : Nat} (hs : Calm s₀ s) :
    Calm s₀ (adopt seals answers failed t c s) := by
  have hm : Calm s₀ (windowMove s false (adoptReads s)).1 := windowMove_calm hs
  unfold adopt
  generalize windowMove s false (adoptReads s) = x at hm
  obtain ⟨a, ok⟩ := x
  dsimp -zeta only
  extract_lets d pick cand
  clear_value cand
  refine .ite (finishCall_calm hs) (.ite (finishFree_calm (.ite (logVaultError_calm hm) hm)) ?_)
  cases cand with
  | none => exact finishFree_calm hm
  | some e =>
    obtain ⟨r, b⟩ := e
    dsimp -zeta only
    have hw : Calm s₀ (rootAccess (rollForward (a.vault.mem.length + 1) a r 0).1 true).1 := rootAccess_calm (rollForward_calm hm)
    have hu {v d : _} : Calm s₀ (tryOnline (State.setVault { (rootAccess (rollForward (a.vault.mem.length + 1) a r 0).1 true).1 with
        dome := { (rootAccess (rollForward (a.vault.mem.length + 1) a r 0).1 true).1.dome with slots := d, sel := false } } v)).1 :=
      tryOnline_calm (State.setVault_calm (hw.mk' rfl rfl rfl rfl))
    exact .ite (finishFree_calm hm) (.ite (finishFree_calm hm) (.ite (finishFree_calm hm) (.ite (finishFree_calm hw)
      (.ite (finishFree_calm (State.setVault_calm hu))
        (finishFree_calm (mirror_calm ((State.setVault_calm hu).foldl fun _ _ => sendTo_calm)))))))

theorem handoffStep_calm {t c : Nat} (hs : Calm s₀ s) : Calm s₀ (handoffStep t c s) := by
  unfold handoffStep
  grind [finishCall_calm, setNeeds_calm, forgetPart_calm, modWork_calm, sendTo_calm, writeDesc_calm, finishFree_calm]

theorem handoffPage_calm {t c : Nat} (hs : Calm s₀ s) : Calm s₀ (handoffPage t c s) := by
  unfold handoffPage
  extract_lets d p m i pg
  refine .ite (finishFree_calm hs) ?_
  generalize openPage s m pg = o
  generalize handoffKey s p (s.ctx t c).work.keep = k
  cases o with
  | none => exact finishFree_calm (noteIntegrity_calm hs)
  | some ls =>
    cases k with
    | none => exact finishFree_calm (noteIntegrity_calm hs)
    | some k => exact .ite (pageDone_calm hs) (pageDone_calm (modWork_calm (sendTo_calm (sendTo_calm hs))))

theorem execPageLock_calm {tower ctx : Nat} {mem : List (Nat × Bytes)} {failed : optParam Bool false} (hs : Calm s₀ s) :
    Calms s₀ (execPageLock tower ctx mem s failed) := by
  unfold execPageLock
  grind [logVaultError_calm, windowMove_calm, putMem_calm, finishFree_calm, rekeyPage_calm, scrubPage_calm, handoffPage_calm, Calm.calms]

theorem takeQuery_calm {src : Nat} {payload : Bytes} (hs : Calm s₀ s) : Calm s₀ (takeQuery src payload s) :=
  sendTo_calm (.ite (State.setReel_calm hs) hs)

theorem execPeerQuery_calm {h : Hdr} {payload : Bytes} (hs : Calm s₀ s) : Calms s₀ (execPeerQuery h payload s) := by
  unfold execPeerQuery
  grind [receive_calm, takeQuery_calm, Calm.calms]

theorem takeReply_calm {src : Nat} {payload : Bytes} (hs : Calm s₀ s) : Calm s₀ (takeReply src payload s) := by
  unfold takeReply
  grind [State.setCtx_calm, State.takeFree_calm, popNeed_calm, finishFree_calm]

theorem execPeerReply_calm {h : Hdr} {payload : Bytes} (hs : Calm s₀ s) : Calms s₀ (execPeerReply h payload s) := by
  unfold execPeerReply
  grind [receive_calm, takeReply_calm, Calm.calms]

theorem rejectInbound_calm {src pg : Nat} (hs : Calm s₀ s) : Calm s₀ (rejectInbound s src pg) := sendTo_calm hs

theorem takePage_calm {src : Nat} {payload : Bytes} (hs : Calm s₀ s) : Calm s₀ (takePage src payload s) := by
  unfold takePage
  grind [engineGroup_calm, rejectInbound_calm]

theorem execHandoffPage_calm {h : Hdr} {payload : Bytes} (hs : Calm s₀ s) : Calms s₀ (execHandoffPage h payload s) := by
  unfold execHandoffPage
  grind [receive_calm, takePage_calm, Calm.calms]

theorem takeInDesc_calm {src : Nat} {payload : Bytes} (hs : Calm s₀ s) : Calm s₀ (takeInDesc src payload s) := by
  unfold takeInDesc
  grind [setDesc_calm, State.setReel_calm, engineGroup_calm, rejectInbound_calm]

theorem execHandoffDesc_calm {h : Hdr} {payload : Bytes} (hs : Calm s₀ s) : Calms s₀ (execHandoffDesc h payload s) := by
  unfold execHandoffDesc
  grind [receive_calm, takeInDesc_calm, Calm.calms]

theorem execVaultRekey_calm {tower ctx : Nat} {fault : FigFault} (hs : Calm s₀ s) : Calms s₀ (execVaultRekey tower ctx fault s) := by
  unfold execVaultRekey
  grind [runFigure_calm, rekeyStep_calm, Calm.calms]

theorem execVaultScrub_calm {tower ctx : Nat} {fault : FigFault} (hs : Calm s₀ s) : Calms s₀ (execVaultScrub tower ctx fault s) := by
  unfold execVaultScrub
  grind [runFigure_calm, scrubStep_calm, Calm.calms]

theorem execVaultSealRoot_calm {tower ctx : Nat} {fault : FigFault} (hs : Calm s₀ s) : Calms s₀ (execVaultSealRoot tower ctx fault s) := by
  unfold execVaultSealRoot
  grind [runFigure_calm, sealRoot_calm, Calm.calms]

theorem execVaultSealRelease_calm {tower ctx : Nat} {fault : FigFault} (hs : Calm s₀ s) : Calms s₀ (execVaultSealRelease tower ctx fault s) := by
  unfold execVaultSealRelease
  grind [runFigure_calm, sealRoot_calm, Calm.calms]

theorem execVaultAdopt_calm {tower ctx : Nat} {fault : FigFault} {seals : List Bytes} {answers : List (Option Bytes)}
    {mem : optParam (List (Nat × Bytes)) []} {failed : optParam Bool false} (hs : Calm s₀ s) :
    Calms s₀ (execVaultAdopt tower ctx fault seals answers s mem failed) := by
  unfold execVaultAdopt
  grind [putMem_calm, runFigure_calm, adopt_calm, Calm.calms]

theorem execPartitionHandoff_calm {tower ctx : Nat} {fault : FigFault} (hs : Calm s₀ s) : Calms s₀ (execPartitionHandoff tower ctx fault s) := by
  unfold execPartitionHandoff
  grind [runFigure_calm, handoffStep_calm, Calm.calms]

end Sys2Proof.Machine

/-! SUPPORT. The operations of Custody keep what they must. -/

namespace Sys2Proof.Machine
variable {s₀ s : State}

theorem closeCeremony_calm {how : Nat} (hs : Calm s₀ s) : Calm s₀ (closeCeremony s how) := .ite hs (raise_calm (State.setCus_calm (cardsOff_calm hs)))

theorem modCer_calm {t c : Nat} {f : Ceremony → Ceremony} (hs : Calm s₀ s) : Calm s₀ (modCer s t c f) := State.setCus_calm hs

theorem closeCer_calm {t c how : Nat} (hs : Calm s₀ s) : Calm s₀ (closeCer s t c how) := .ite (State.setCus_calm hs) (closeCeremony_calm hs)

theorem expireCeremony_calm (hs : Calm s₀ s) : Calm s₀ (expireCeremony s) := by
  unfold expireCeremony
  grind [State.setCus_calm, closeCeremony_calm]

theorem execCeremonyWindowExpiry_calm (hs : Calm s₀ s) : Calms s₀ (execCeremonyWindowExpiry s) := (expireCeremony_calm hs).calms

theorem openCeremony_calm {t c : Nat} (hs : Calm s₀ s) : Calm s₀ (openCeremony t c s) := by
  unfold openCeremony
  grind [raise_calm, State.setCus_calm, finishCall_calm, writeOut_calm, spCall_calm, finishFree_calm]

theorem countReject_calm (hs : Calm s₀ s) : Calm s₀ (countReject s) := State.setCus_calm hs

theorem loadTable_calm {t c : Nat} (hs : Calm s₀ s) : Calm s₀ (loadTable t c s) := by
  unfold loadTable
  grind [State.setCus_calm, finishCall_calm, spCall_calm, finishFree_calm, countReject_calm]

theorem authorize_calm {t c : Nat} (hs : Calm s₀ s) : Calm s₀ (authorize s t c) := by
  unfold authorize
  grind [raise_calm, modCer_calm]

theorem rejectAuth_calm {t c : Nat} (hs : Calm s₀ s) : Calm s₀ (rejectAuth s t c) := by
  unfold rejectAuth
  grind [finishFree_calm, modCer_calm, closeCer_calm, countReject_calm]

theorem authDone_calm {t c : Nat} {comp : Bool} (hs : Calm s₀ s) : Calm s₀ (authDone s t c comp) := finishCall_calm hs

theorem acceptAuth_calm {t c slot : Nat} {comp : List Bytes} (hs : Calm s₀ s) : Calm s₀ (acceptAuth s t c slot comp) :=
  authorize_calm (modCer_calm hs)

theorem authVerdict_calm {t c : Nat} (hs : Calm s₀ s) : Calm s₀ (authVerdict s t c) := by
  unfold authVerdict
  grind [finishFree_calm, rejectAuth_calm, authDone_calm, acceptAuth_calm]

theorem authEnd_calm {t c stage : Nat} (hs : Calm s₀ s) : Calm s₀ (authEnd s t c stage) :=
  .ite (setNeeds_calm (modWork_calm (freeUnits_calm hs)))
    (.ite (rejectAuth_calm (modWork_calm (freeUnits_calm hs))) (authVerdict_calm (modWork_calm (freeUnits_calm hs))))

theorem checkAuth_calm {t c : Nat} (hs : Calm s₀ s) : Calm s₀ (checkAuth t c s) := by
  unfold checkAuth
  grind [finishCall_calm, modWork_calm, loadHalf_calm, spPart_calm, authEnd_calm]

theorem askCard_calm {t c port : Nat} (hs : Calm s₀ s) : Calm s₀ (askCard s t c port) := State.setCus_calm (setActive_calm hs)

theorem custodianAuth_calm {t c : Nat} (hs : Calm s₀ s) : Calm s₀ (custodianAuth t c s) := by
  unfold custodianAuth
  grind [finishCall_calm, setNeeds_calm, rejectAuth_calm, authVerdict_calm, checkAuth_calm, askCard_calm]

theorem execCardResponse_calm {tower ctx : Nat} {resp : Bytes} (hs : Calm s₀ s) : Calms s₀ (execCardResponse tower ctx resp s) :=
  .ite hs.calms (.ite ((setNeeds_calm (modWork_calm (setActive_calm hs))).calms) ((authEnd_calm (setActive_calm hs)).calms))

theorem execCardTimeout_calm {tower ctx : Nat} (hs : Calm s₀ s) : Calms s₀ (execCardTimeout tower ctx s) :=
  (Calm.ite (authEnd_calm (setActive_calm hs)) hs).calms

theorem commitDmk_calm {t c : Nat} {cer : Ceremony} (hs : Calm s₀ s) : Calm s₀ (commitDmk t c cer s) := by
  unfold commitDmk
  grind [domeAccess_calm, finishCall_calm, closeCer_calm, Calm.mk', Calm.foldl]

theorem commitPromote_calm {t c : Nat} (hs : Calm s₀ s) : Calm s₀ (commitPromote t c s) := by
  unfold commitPromote
  grind [domeAccess_calm, finishCall_calm, closeCer_calm, Calm.mk']

theorem commitPartition_calm {t c : Nat} {create : Bool} {cer : Ceremony} (hs : Calm s₀ s) : Calm s₀ (commitPartition t c create cer s) := by
  unfold commitPartition
  grind [finishCall_calm, forgetPart_calm, modWork_calm, writeDesc_calm, closeCer_calm, Calm.mk']

theorem withCeremony_calm {t c : Nat} {f : Ceremony → State → State} (hs : Calm s₀ s) (hf : ∀ y0 y1, Calm s₀ y1 → Calm s₀ (f y0 y1)) :
    Calm s₀ (withCeremony t c s f) := by
  unfold withCeremony
  grind [finishCall_calm]

theorem runCer_calm {t c op : Nat} {fault : FigFault} {f : State → State} (hs : Calm s₀ s) (hf : ∀ y0, Calm s₀ y0 → Calm s₀ (f y0)) :
    Calm s₀ (runCer s t c op fault f) := by
  unfold runCer
  grind [setNeeds_calm, runFigure_calm]

theorem cerTurn_calm {t c : Nat} (hs : Calm s₀ s) : Calm s₀ (cerTurn s t c) := by
  unfold cerTurn
  grind [finishCall_calm, popNeed_calm]

theorem lcNote_calm {result target : Nat} (hs : Calm s₀ s) : Calm s₀ (lcNote s result target) :=
  .ite (raise_calm (hs.mk' rfl rfl rfl rfl)) (raise_calm (hs.mk' rfl rfl rfl rfl))

theorem cancelJobs_calm (hs : Calm s₀ s) : Calm s₀ (cancelJobs s) := (hs.foldl fun _ _ => abortCall_calm).mk' rfl rfl rfl rfl

theorem lcBegin_calm {target : Nat} {who : Option (Nat × Nat)} (hs : Calm s₀ s) : Calm s₀ (lcBegin s target who) :=
  (cancelJobs_calm hs).mk' rfl rfl rfl rfl

theorem lcAbort_calm (hs : Calm s₀ s) : Calm s₀ (lcAbort s) := by
  unfold lcAbort
  grind [finishCall_calm, lcNote_calm, Calm.mk']

theorem commitLifeCycle_calm {t c target : Nat} {cer : Ceremony} (hs : Calm s₀ s) : Calm s₀ (commitLifeCycle t c target cer s) := by
  unfold commitLifeCycle
  grind [finishCall_calm, lcNote_calm, lcBegin_calm]

theorem execHoldupOkLow_calm (hs : Calm s₀ s) : Calms s₀ (execHoldupOkLow s) := (lcAbort_calm (hs.mk' rfl rfl rfl rfl)).calms

theorem execLcsRequest_calm {target : Nat} (hs : Calm s₀ s) : Calms s₀ (execLcsRequest target s) := by
  unfold execLcsRequest
  grind [State.takeBytes_calm, recordWerr_calm, Calm.mk', Calm.calms]

theorem execLcsExecute_calm {target : Nat} (hs : Calm s₀ s) : Calms s₀ (execLcsExecute target s) := by
  unfold execLcsExecute
  grind [recordWerr_calm, lcNote_calm, lcBegin_calm, Calm.mk', Calm.calms]

theorem attest_calm {t c : Nat} (hs : Calm s₀ s) : Calm s₀ (attest t c s) := finishSigned_calm hs

theorem runCommit_calm {t c k : Nat} {fault : FigFault} {f : Ceremony → State → State} (hs : Calm s₀ s)
    (hf : ∀ y0 y1, Calm s₀ y1 → Calm s₀ (f y0 y1)) :
    Calm s₀ (runCommit t c k fault f s) := by
  unfold runCommit
  grind [withCeremony_calm, runCer_calm]

theorem execAttest_calm {tower ctx : Nat} {fault : FigFault} (hs : Calm s₀ s) : Calms s₀ (execAttest tower ctx fault s) := by
  unfold execAttest
  grind [runFigure_calm, attest_calm, Calm.calms]

theorem execCeremonyOpen_calm {tower ctx : Nat} {fault : FigFault} (hs : Calm s₀ s) : Calms s₀ (execCeremonyOpen tower ctx fault s) := by
  unfold execCeremonyOpen
  grind [openCeremony_calm, runCer_calm, Calm.calms]

theorem execTableLoad_calm {tower ctx : Nat} {fault : FigFault} (hs : Calm s₀ s) : Calms s₀ (execTableLoad tower ctx fault s) := by
  unfold execTableLoad
  grind [loadTable_calm, runCer_calm, Calm.calms]

theorem execCustodianAuth_calm {tower ctx : Nat} {fault : FigFault} (hs : Calm s₀ s) : Calms s₀ (execCustodianAuth tower ctx fault s) := by
  unfold execCustodianAuth
  grind [custodianAuth_calm, runCer_calm, Calm.calms]

theorem execDmkLoad_calm {tower ctx : Nat} {fault : FigFault} (hs : Calm s₀ s) : Calms s₀ (execDmkLoad tower ctx fault s) := by
  unfold execDmkLoad
  grind [commitDmk_calm, runCommit_calm, Calm.calms]

theorem execDmkPromote_calm {tower ctx : Nat} {fault : FigFault} (hs : Calm s₀ s) : Calms s₀ (execDmkPromote tower ctx fault s) := by
  unfold execDmkPromote
  grind [commitPromote_calm, runCommit_calm, Calm.calms]

theorem execPartitionCreate_calm {tower ctx : Nat} {fault : FigFault} (hs : Calm s₀ s) : Calms s₀ (execPartitionCreate tower ctx fault s) := by
  unfold execPartitionCreate
  grind [commitPartition_calm, runCommit_calm, Calm.calms]

theorem execPartitionDelete_calm {tower ctx : Nat} {fault : FigFault} (hs : Calm s₀ s) : Calms s₀ (execPartitionDelete tower ctx fault s) := by
  unfold execPartitionDelete
  grind [commitPartition_calm, runCommit_calm, Calm.calms]

theorem execCommission_calm {tower ctx : Nat} {fault : FigFault} (hs : Calm s₀ s) : Calms s₀ (execCommission tower ctx fault s) := by
  unfold execCommission
  grind [commitLifeCycle_calm, runCommit_calm, Calm.calms]

theorem execRecommission_calm {tower ctx : Nat} {fault : FigFault} (hs : Calm s₀ s) : Calms s₀ (execRecommission tower ctx fault s) := by
  unfold execRecommission
  grind [commitLifeCycle_calm, runCommit_calm, Calm.calms]

theorem execReturnCer_calm {tower ctx : Nat} {fault : FigFault} (hs : Calm s₀ s) : Calms s₀ (execReturnCer tower ctx fault s) := by
  unfold execReturnCer
  grind [commitLifeCycle_calm, runCommit_calm, Calm.calms]

theorem execScrap_calm {tower ctx : Nat} {fault : FigFault} (hs : Calm s₀ s) : Calms s₀ (execScrap tower ctx fault s) := by
  unfold execScrap
  grind [commitLifeCycle_calm, runCommit_calm, Calm.calms]

theorem ceremonyAbort_calm {t c : Nat} (hs : Calm s₀ s) : Calm s₀ (ceremonyAbort t c s) :=
  .ite (finishCall_calm hs) (finishCall_calm (closeCer_calm hs))

theorem execCeremonyAbort_calm {tower ctx : Nat} {fault : FigFault} (hs : Calm s₀ s) : Calms s₀ (execCeremonyAbort tower ctx fault s) := by
  unfold execCeremonyAbort
  grind [runCer_calm, ceremonyAbort_calm, Calm.calms]

end Sys2Proof.Machine

/-! SUPPORT. The operations of TimeFam keep what they must. -/

namespace Sys2Proof.Machine
variable {s₀ s : State}

theorem State.setTime_calm {x : Time} (hs : Calm s₀ s) : Calm s₀ (State.setTime s x) := hs.mk' rfl rfl rfl rfl

theorem setTimeState_calm {st : Nat} (hs : Calm s₀ s) : Calm s₀ (setTimeState s st) := .ite hs (raise_calm (State.setTime_calm hs))

theorem toHoldover_calm (hs : Calm s₀ s) : Calm s₀ (toHoldover s) := setTimeState_calm (State.setTime_calm hs)

theorem captureAt_calm {k : Nat} (hs : Calm s₀ s) : Calm s₀ (captureAt s k) := by
  unfold captureAt
  grind [lateEvent_calm, captureNow_calm]

theorem expireAt_calm {k : Nat} (hs : Calm s₀ s) : Calm s₀ (expireAt s k) := by
  unfold expireAt
  grind [lateEvent_calm, expireCeremony_calm]

theorem ppsOutOn_calm (hs : Calm s₀ s) : Calm s₀ (ppsOutOn s) := hs.mk' rfl rfl rfl rfl

theorem secondStart_calm {k : Nat} {f : State → State} (hs : Calm s₀ s) (hf : ∀ y0, Calm s₀ y0 → Calm s₀ (f y0)) : Calm s₀ (secondStart s k f) := by
  unfold secondStart
  grind []

theorem switchSkipped_calm {k : Nat} (hs : Calm s₀ s) : Calm s₀ (switchSkipped s k) := applySwitch_calm hs

theorem fireLate_calm {k n : Nat} {l : List (Nat × Nat)} (hs : Calm s₀ s) : Calm s₀ (fireLate k n l s) := by
  induction n generalizing s l with
  | zero => exact hs
  | succ n ih =>
    simp only [fireLate]
    split
    · exact hs
    · exact ih (.ite (captureAt_calm hs) (.ite (switchSkipped_calm hs) (expireAt_calm hs)))

theorem bellEvents_calm {k : Nat} (hs : Calm s₀ s) : Calm s₀ (bellEvents s k) :=
  secondStart_calm (secondStart_calm (expireAt_calm (secondStart_calm (captureAt_calm (fireLate_calm hs)) fun _ => mtrSecond_calm))
    fun _ => vaultSecond_calm) fun _ => ppsOutOn_calm

theorem headFull_calm {k : Nat} (hs : Calm s₀ s) : Calm s₀ (headFull s k) := .ite (broadcast_calm hs) hs

theorem bellOut_calm {k c : Nat} (hs : Calm s₀ s) : Calm s₀ (bellOut s k c) := by
  unfold bellOut
  grind [State.takeFree_calm, setPort_calm, Calm.foldl]

theorem sendBells_calm {k : Nat} (hs : Calm s₀ s) : Calm s₀ (sendBells s k) := .ite (bellOut_calm hs) hs

theorem assertBell_calm {k : Nat} (hs : Calm s₀ s) : Calm s₀ (assertBell s k) :=
  .ite (sendBells_calm (State.setTime_calm (headFull_calm (bellEvents_calm (setTimeState_calm (State.setTime_calm hs))))))
    (headFull_calm (bellEvents_calm (setTimeState_calm (State.setTime_calm hs))))

theorem execBellAssert_calm (hs : Calm s₀ s) : Calms s₀ (execBellAssert s) := by
  unfold execBellAssert
  grind [State.setTime_calm, assertBell_calm, Calm.calms]

theorem takeNumber_calm {m : Nat} (hs : Calm s₀ s) : Calm s₀ (takeNumber s m) := State.setTime_calm hs

theorem execBellBlock_calm {low40 corr : Nat} (hs : Calm s₀ s) : Calms s₀ (execBellBlock low40 corr s) := by
  unfold execBellBlock
  grind [State.setTime_calm, setTimeState_calm, bellOut_calm, takeNumber_calm, Calm.calms]

theorem execBellLoss_calm (hs : Calm s₀ s) : Calms s₀ (execBellLoss s) := (Calm.ite (State.setTime_calm (toHoldover_calm hs)) hs).calms

theorem takeFull_calm {number : Nat} (hs : Calm s₀ s) : Calm s₀ (takeFull number s) :=
  .ite (State.setTime_calm hs) (.ite hs (State.setTime_calm (setTimeState_calm hs)))

theorem execTimeFull_calm {number headState : Nat} {seq : optParam Nat 0} (hs : Calm s₀ s) : Calms s₀ (execTimeFull number headState s seq) := by
  unfold execTimeFull
  grind [receive_calm, takeFull_calm, Calm.calms]

theorem leaveHoldover_calm {phase : Word} (hs : Calm s₀ s) : Calm s₀ (leaveHoldover s phase) :=
  .ite (setTimeState_calm hs) (.ite (setTimeState_calm hs) (.ite (State.setTime_calm (setTimeState_calm hs)) (setTimeState_calm hs)))

theorem acceptEdge_calm {phase : Word} (hs : Calm s₀ s) : Calm s₀ (acceptEdge s phase) := by
  unfold acceptEdge
  grind [State.setTime_calm, setTimeState_calm, assertBell_calm, leaveHoldover_calm]

theorem execPpsEdge_calm {gap : Nat} {phase : Word} {low high : optParam Nat 1000} (hs : Calm s₀ s) : Calms s₀ (execPpsEdge gap phase s low high) :=
  .ite hs.calms (.ite ((acceptEdge_calm hs).calms) (.ite ((raise_calm (State.setTime_calm hs)).calms) hs.calms))

theorem execPpsWindowMissed_calm (hs : Calm s₀ s) : Calms s₀ (execPpsWindowMissed s) :=
  .ite hs.calms ((Calm.ite (toHoldover_calm (State.setTime_calm hs)) (State.setTime_calm hs)).calms)

theorem execTodFrame_calm {frame0 : Bytes} {afterMs : Nat} {raw : optParam (List (List Bool)) []} (hs : Calm s₀ s) :
    Calms s₀ (execTodFrame frame0 afterMs s raw) :=
  .ite hs.calms (.ite ((State.setTime_calm hs).calms)
    (.ite ((State.setTime_calm hs).calms) (.ite ((State.setTime_calm hs).calms) ((raise_calm (State.setTime_calm hs)).calms))))

theorem execTimeSet_calm (hs : Calm s₀ s) : Calms s₀ (execTimeSet s) :=
  .ite ((recordWerr_calm hs).calms) (.ite ((State.setTime_calm hs).calms) (.ite ((recordWerr_calm hs).calms) ((State.setTime_calm hs).calms)))

theorem execPpsOutEnd_calm (hs : Calm s₀ s) : Calms s₀ (execPpsOutEnd s) := by
  unfold execPpsOutEnd
  grind [Calm.mk', Calm.calms]

theorem execTodTx_calm (hs : Calm s₀ s) : Calms s₀ (execTodTx s) := by
  unfold execTodTx
  grind [State.takeFree_calm, Calm.mk', Calm.calms]

end Sys2Proof.Machine

/-! SUPPORT. The operations of CloneFam keep what they must. -/

namespace Sys2Proof.Machine
variable {s₀ s : State}

theorem clonePart_calm {t c : Nat} {prog : List SpStep} {ops : List (Nat × Nat)} {f : State → State} (hs : Calm s₀ s)
    (hf : ∀ y0, Calm s₀ y0 → Calm s₀ (f y0)) :
    Calm s₀ (clonePart s t c prog ops f) := by
  unfold clonePart
  grind [modWork_calm, loadHalf_calm, spPart_calm, finishFree_calm]

theorem cloneHelloStep_calm {t c : Nat} {cer : Ceremony} (hs : Calm s₀ s) : Calm s₀ (cloneHelloStep t c cer s) := by
  unfold cloneHelloStep
  grind [freeUnits_calm, setNeeds_calm, deviceFault_calm, modWork_calm, sendTo_calm, clonePart_calm]

theorem cloneReplyStep_calm {t c : Nat} {cer : Ceremony} (hs : Calm s₀ s) : Calm s₀ (cloneReplyStep t c cer s) := by
  unfold cloneReplyStep
  grind [modWork_calm, finishFree_calm, clonePart_calm]

theorem cloneKeyStep_calm {t c : Nat} {cer : Ceremony} (hs : Calm s₀ s) : Calm s₀ (cloneKeyStep t c cer s) := by
  unfold cloneKeyStep
  grind [freeUnits_calm, setNeeds_calm, modWork_calm, sendTo_calm, finishFree_calm, clonePart_calm]

theorem cloneDoneStep_calm {t c : Nat} (hs : Calm s₀ s) : Calm s₀ (cloneDoneStep t c s) :=
  .ite (finishFree_calm hs) (.ite (finishFree_calm hs) (finishFree_calm (closeCer_calm hs)))

theorem cloneStep_calm {t c : Nat} (hs : Calm s₀ s) : Calm s₀ (cloneStep t c s) := by
  unfold cloneStep
  grind [finishCall_calm, finishFree_calm, cloneHelloStep_calm, cloneReplyStep_calm, cloneKeyStep_calm, cloneDoneStep_calm]

theorem execReelCloneDomain_calm {tower ctx : Nat} {fault : FigFault} (hs : Calm s₀ s) : Calms s₀ (execReelCloneDomain tower ctx fault s) := by
  unfold execReelCloneDomain
  grind [runFigure_calm, cloneStep_calm, Calm.calms]

theorem takeHello_calm {src : Nat} {payload : Bytes} (hs : Calm s₀ s) : Calm s₀ (takeHello src payload s) := by
  unfold takeHello
  grind [State.takeBytes_calm, State.setReel_calm, sendTo_calm]

theorem execCloneHello_calm {h : Hdr} {payload : Bytes} (hs : Calm s₀ s) : Calms s₀ (execCloneHello h payload s) := by
  unfold execCloneHello
  grind [receive_calm, takeHello_calm, Calm.calms]

theorem takeCloneKey_calm {src : Nat} {payload : Bytes} (hs : Calm s₀ s) : Calm s₀ (takeCloneKey src payload s) := by
  unfold takeCloneKey
  split
  · exact hs
  have h {r : Reel} : Calm s₀ (s.setReel r) := State.setReel_calm hs
  dsimp only
  split
  · exact sendTo_calm h
  split
  · exact sendTo_calm h
  split
  · exact sendTo_calm h
  · exact sendTo_calm (closeCeremony_calm ((intCheck_calm h).mk' rfl rfl rfl rfl))

theorem execCloneKey_calm {h : Hdr} {payload : Bytes} (hs : Calm s₀ s) : Calms s₀ (execCloneKey h payload s) := by
  unfold execCloneKey
  grind [receive_calm, takeCloneKey_calm, Calm.calms]

theorem takeCloneReply_calm {src : Nat} {payload : Bytes} (hs : Calm s₀ s) : Calm s₀ (takeCloneReply src payload s) := by
  unfold takeCloneReply
  grind [popNeed_calm, modWork_calm, Calm.mk']

theorem execCloneReply_calm {h : Hdr} {payload : Bytes} (hs : Calm s₀ s) : Calms s₀ (execCloneReply h payload s) := by
  unfold execCloneReply
  grind [receive_calm, takeCloneReply_calm, Calm.calms]

theorem takeCloneDone_calm {src : Nat} {payload : Bytes} (hs : Calm s₀ s) : Calm s₀ (takeCloneDone src payload s) := by
  unfold takeCloneDone
  grind [popNeed_calm, modWork_calm]

theorem execCloneDone_calm {h : Hdr} {payload : Bytes} (hs : Calm s₀ s) : Calms s₀ (execCloneDone h payload s) := by
  unfold execCloneDone
  grind [receive_calm, takeCloneDone_calm, Calm.calms]

theorem execCloneSessionExpiry_calm (hs : Calm s₀ s) : Calms s₀ (execCloneSessionExpiry s) := (Calm.ite (State.setReel_calm hs) hs).calms

theorem execReelReplyTimeout_calm {tower ctx : Nat} (hs : Calm s₀ s) : Calms s₀ (execReelReplyTimeout tower ctx s) :=
  .ite hs.calms (.ite ((sealWaiters_calm (hs.foldl fun _ _ => witnessAnswer_calm)).calms) ((finishFree_calm hs).calms))

end Sys2Proof.Machine

/-! SUPPORT. The operations of HostFam keep what they must. -/

namespace Sys2Proof.Machine
variable {s₀ s : State}

theorem qpWerr_calm {fn : Nat} (hs : Calm s₀ s) : Calm s₀ (qpWerr s fn) := .ite (recordWerr_calm hs) (recordTfWerr_calm hs)

theorem execQpSqTailDb_calm {fn q : Nat} {value : Word} (hs : Calm s₀ s) : Calms s₀ (execQpSqTailDb fn q value s) :=
  (Calm.ite hs (.ite (qpWerr_calm hs) (State.setQp_calm hs))).calms

theorem execQpCqHeadDb_calm {fn q : Nat} {value : Word} (hs : Calm s₀ s) : Calms s₀ (execQpCqHeadDb fn q value s) :=
  (Calm.ite hs (.ite (qpWerr_calm hs) (.ite (State.setQp_calm hs) (qpError_calm hs)))).calms

theorem qpCtrlWrite_calm {fn q : Nat} {reset enable : Bool} (hs : Calm s₀ s) : Calm s₀ (qpCtrlWrite s fn q reset enable) :=
  .ite (askReset_calm hs) (.ite (.ite hs (qpEnable_calm hs)) (.ite (askReset_calm hs) hs))

theorem execQpEnable_calm {fn q : Nat} (hs : Calm s₀ s) : Calms s₀ (execQpEnable fn q s) := (Calm.ite hs (qpCtrlWrite_calm hs)).calms

theorem execQueueReset_calm {fn q : Nat} {reset enable : Bool} (hs : Calm s₀ s) : Calms s₀ (execQueueReset fn q reset enable s) :=
  (Calm.ite hs (qpCtrlWrite_calm hs)).calms

theorem execHeldQueueReset_calm {fn q : Nat} (hs : Calm s₀ s) : Calms s₀ (execHeldQueueReset fn q s) := by
  unfold execHeldQueueReset
  grind [doReset_calm, Calm.calms]

theorem execDescFetch_calm {fn q : Nat} (hs : Calm s₀ s) : Calms s₀ (execDescFetch fn q s) := (Calm.ite hs (State.setQp_calm hs)).calms

theorem execDescReadDone_calm {fn q first : Nat} {ans : ReadAns} (hs : Calm s₀ s) : Calms s₀ (execDescReadDone fn q first ans s) := by
  unfold execDescReadDone
  grind [State.setQp_calm, logAns_calm, qpError_calm, Calm.mk', Calm.calms]

theorem signalQp_calm {fn q : Nat} (hs : Calm s₀ s) : Calm s₀ (signalQp s fn q) := signal_calm (State.setQp_calm hs)

theorem execCompletionWrite_calm {fn q : Nat} (hs : Calm s₀ s) : Calms s₀ (execCompletionWrite fn q s) := by
  unfold execCompletionWrite
  grind [State.setQp_calm, hostWrite_calm, qpError_calm, signalQp_calm, Calm.mk', Calm.calms]

theorem execCoalTimerExpiry_calm {fn q : Nat} (hs : Calm s₀ s) : Calms s₀ (execCoalTimerExpiry fn q s) := (Calm.ite (signalQp_calm hs) hs).calms

theorem execMboxToMf_calm {tf : Nat} {value : Word} (hs : Calm s₀ s) : Calms s₀ (execMboxToMf tf value s) :=
  (Calm.ite hs (.ite (State.setTf_calm hs) (raise_calm (State.setTf_calm hs)))).calms

theorem execChFromMf_calm {tf : Nat} {value : Word} (hs : Calm s₀ s) : Calms s₀ (execChFromMf tf value s) :=
  (Calm.ite hs (.ite (State.setTf_calm hs) (signal_calm (State.setTf_calm hs)))).calms

theorem tfCommand_calm {tf : Nat} {f : State} (hs : Calm s₀ s) (hf : Calm s₀ f) : Calm s₀ (tfCommand s tf f) := by
  unfold tfCommand
  grind [recordWerr_calm]

theorem stopTf_calm {tf : Nat} (hs : Calm s₀ s) : Calm s₀ (stopTf s tf) := withdrawTf_calm (State.setTf_calm hs)

theorem execTfStop_calm {tf : Nat} (hs : Calm s₀ s) : Calms s₀ (execTfStop tf s) := by
  unfold execTfStop
  grind [tfCommand_calm, stopTf_calm, Calm.calms]

theorem execTfStopClear_calm {tf : Nat} (hs : Calm s₀ s) : Calms s₀ (execTfStopClear tf s) := by
  unfold execTfStopClear
  grind [State.setTf_calm, tfCommand_calm, Calm.calms]

theorem execTfQuiesced_calm {tf : Nat} (hs : Calm s₀ s) : Calms s₀ (execTfQuiesced tf s) := (Calm.ite (raise_calm (State.setTf_calm hs)) hs).calms

theorem endSession_calm {n : Nat} (hs : Calm s₀ s) : Calm s₀ (endSession s n) := by
  unfold endSession
  grind [dropLines_calm, tcDrop_calm]

theorem resetTf_calm {n : Nat} (hs : Calm s₀ s) : Calm s₀ (resetTf s n) := by
  unfold resetTf
  grind [State.setTf_calm, State.setQp_calm, askReset_calm, endSession_calm, Calm.mk', Calm.foldl]

theorem execTfReset_calm {tf : Nat} (hs : Calm s₀ s) : Calms s₀ (execTfReset tf s) := (Calm.ite (resetTf_calm hs) hs).calms

theorem execTfResetDone_calm {tf : Nat} (hs : Calm s₀ s) : Calms s₀ (execTfResetDone tf s) := (Calm.ite (raise_calm (State.setTf_calm hs)) hs).calms

theorem killCalls_calm {p : Nat → Bool} (hs : Calm s₀ s) : Calm s₀ (killCalls s p) := hs.mk' rfl rfl rfl rfl

theorem ceaseTf_calm {n : Nat} (hs : Calm s₀ s) : Calm s₀ (ceaseTf s n) := by
  unfold ceaseTf
  grind [State.setTf_calm, State.setQp_calm, queueReset_calm, endSession_calm, Calm.mk', Calm.foldl]

theorem ceaseFrom_calm {num : Nat} (hs : Calm s₀ s) : Calm s₀ (ceaseFrom s num) :=
  (killCalls_calm (hs.foldl fun _ _ => ceaseTf_calm)).mk' rfl rfl rfl rfl

theorem execTfCease_calm {num : Nat} (hs : Calm s₀ s) : Calms s₀ (execTfCease num s) := (Calm.ite (ceaseFrom_calm hs) hs).calms

theorem execVfEnable_calm {num : Nat} (hs : Calm s₀ s) : Calms s₀ (execVfEnable num s) := (Calm.ite (hs.mk' rfl rfl rfl rfl) hs).calms

theorem execDirtyHarvest_calm {tf : Nat} (hs : Calm s₀ s) : Calms s₀ (execDirtyHarvest tf s) := by
  unfold execDirtyHarvest
  grind [State.setTf_calm, tfCommand_calm, Calm.calms]

theorem flushMarks_calm {base : Nat} {pages_ : List Nat} (hs : Calm s₀ s) : Calm s₀ (flushMarks s base pages_) := hs.foldl fun _ _ => hostWrite_calm

theorem execHarvestDone_calm {tf : Nat} (hs : Calm s₀ s) : Calms s₀ (execHarvestDone tf s) := by
  unfold execHarvestDone
  grind [State.setTf_calm, raise_calm, flushMarks_calm, Calm.calms]

theorem qctxCommand_calm {cmd : Nat} (hs : Calm s₀ s) : Calm s₀ (qctxCommand s cmd) :=
  .ite hs (.ite (recordWerr_calm hs) (.ite hs (hs.mk' rfl rfl rfl rfl)))

theorem execQctxSave_calm (hs : Calm s₀ s) : Calms s₀ (execQctxSave s) := (qctxCommand_calm hs).calms

theorem execQctxRestore_calm (hs : Calm s₀ s) : Calms s₀ (execQctxRestore s) := (qctxCommand_calm hs).calms

theorem execQctxCommandDone_calm (hs : Calm s₀ s) : Calms s₀ (execQctxCommandDone s) := by
  unfold execQctxCommandDone
  grind [State.setQp_calm, Calm.mk', Calm.calms]

theorem execLinkChange_calm {speed width : Nat} {reversed : Bool} (hs : Calm s₀ s) : Calms s₀ (execLinkChange speed width reversed s) := by
  unfold execLinkChange
  grind [raise_calm, Calm.mk', Calm.calms]

end Sys2Proof.Machine

/-! SUPPORT. The operations of PinFam keep what they must. -/

namespace Sys2Proof.Machine
variable {s₀ s : State}

theorem pinFail_calm {t c table : Nat} (hs : Calm s₀ s) : Calm s₀ (pinFail s t c table) := finishCall_calm hs

theorem askPad_calm {t c n path : Nat} (hs : Calm s₀ s) : Calm s₀ (askPad s t c n path) := setNeeds_calm (State.setCtx_calm hs)

theorem reconfigure_calm {t c alg : Nat} {key : Bytes} (hs : Calm s₀ s) : Calm s₀ (reconfigure s t c alg key) := State.setTower_calm hs

theorem pinTranslate_calm {t c : Nat} (hs : Calm s₀ s) : Calm s₀ (pinTranslate t c s) :=
  .ite (pinFail_calm hs) (.ite (askPad_calm (.ite hs (reconfigure_calm hs))) (finishCall_calm hs))

theorem pinSingle_calm {t c : Nat} {f : List Nat → State} (hs : Calm s₀ s) (hf : ∀ y0, Calm s₀ (f y0)) : Calm s₀ (pinSingle s t c f) := by
  unfold pinSingle
  grind [pinFail_calm]

theorem pinVerifyOffset_calm {t c : Nat} (hs : Calm s₀ s) : Calm s₀ (pinVerifyOffset t c s) := by
  unfold pinVerifyOffset
  grind [finishCall_calm, pinSingle_calm]

theorem pinGenerateOffset_calm {t c : Nat} (hs : Calm s₀ s) : Calm s₀ (pinGenerateOffset t c s) := by
  unfold pinGenerateOffset
  grind [finishCall_calm, pinSingle_calm]

theorem pinVerifyPvv_calm {t c : Nat} (hs : Calm s₀ s) : Calm s₀ (pinVerifyPvv t c s) := by
  rw [pinVerifyPvv]
  exact pinSingle_calm hs fun _ => finishCall_calm hs

theorem pinGeneratePvv_calm {t c : Nat} (hs : Calm s₀ s) : Calm s₀ (pinGeneratePvv t c s) := by
  unfold pinGeneratePvv
  grind [finishCall_calm, pinSingle_calm]

theorem pinChange_calm {t c : Nat} (hs : Calm s₀ s) : Calm s₀ (pinChange t c s) :=
  .ite (pinFail_calm hs) (.ite (pinFail_calm hs) (.ite (finishCall_calm hs) (finishCall_calm hs)))

theorem pinFromDukpt_calm {t c : Nat} (hs : Calm s₀ s) : Calm s₀ (pinFromDukpt t c s) :=
  .ite (askPad_calm hs) (.ite (pinFail_calm hs) (finishCall_calm hs))

theorem dukptDeriveInitial_calm {t c : Nat} (hs : Calm s₀ s) : Calm s₀ (dukptDeriveInitial t c s) := createRecord_calm hs

theorem dukptDataDecrypt_calm {t c : Nat} (hs : Calm s₀ s) : Calm s₀ (dukptDataDecrypt t c s) := by
  unfold dukptDataDecrypt
  grind [finishCall_calm, writeOut_calm]

theorem dukptMacVerify_calm {t c : Nat} (hs : Calm s₀ s) : Calm s₀ (dukptMacVerify t c s) := finishCall_calm hs

theorem execPinTranslate_calm {tower ctx : Nat} {fault : FigFault} (hs : Calm s₀ s) : Calms s₀ (execPinTranslate tower ctx fault s) := by
  unfold execPinTranslate
  grind [runFigure_calm, pinTranslate_calm, Calm.calms]

theorem execPinVerifyOffset_calm {tower ctx : Nat} {fault : FigFault} (hs : Calm s₀ s) : Calms s₀ (execPinVerifyOffset tower ctx fault s) := by
  unfold execPinVerifyOffset
  grind [runFigure_calm, pinVerifyOffset_calm, Calm.calms]

theorem execPinVerifyPvv_calm {tower ctx : Nat} {fault : FigFault} (hs : Calm s₀ s) : Calms s₀ (execPinVerifyPvv tower ctx fault s) := by
  unfold execPinVerifyPvv
  grind [runFigure_calm, pinVerifyPvv_calm, Calm.calms]

theorem execPinGenerateOffset_calm {tower ctx : Nat} {fault : FigFault} (hs : Calm s₀ s) : Calms s₀ (execPinGenerateOffset tower ctx fault s) := by
  unfold execPinGenerateOffset
  grind [runFigure_calm, pinGenerateOffset_calm, Calm.calms]

theorem execPinGeneratePvv_calm {tower ctx : Nat} {fault : FigFault} (hs : Calm s₀ s) : Calms s₀ (execPinGeneratePvv tower ctx fault s) := by
  unfold execPinGeneratePvv
  grind [runFigure_calm, pinGeneratePvv_calm, Calm.calms]

theorem execPinChange_calm {tower ctx : Nat} {fault : FigFault} (hs : Calm s₀ s) : Calms s₀ (execPinChange tower ctx fault s) := by
  unfold execPinChange
  grind [runFigure_calm, pinChange_calm, Calm.calms]

theorem execPinFromDukpt_calm {tower ctx : Nat} {fault : FigFault} (hs : Calm s₀ s) : Calms s₀ (execPinFromDukpt tower ctx fault s) := by
  unfold execPinFromDukpt
  grind [runFigure_calm, pinFromDukpt_calm, Calm.calms]

theorem execDukptDeriveInitial_calm {tower ctx : Nat} {fault : FigFault} (hs : Calm s₀ s) : Calms s₀ (execDukptDeriveInitial tower ctx fault s) := by
  unfold execDukptDeriveInitial
  grind [runFigure_calm, dukptDeriveInitial_calm, Calm.calms]

theorem execDukptDataDecrypt_calm {tower ctx : Nat} {fault : FigFault} (hs : Calm s₀ s) : Calms s₀ (execDukptDataDecrypt tower ctx fault s) := by
  unfold execDukptDataDecrypt
  grind [runFigure_calm, dukptDataDecrypt_calm, Calm.calms]

theorem execDukptMacVerify_calm {tower ctx : Nat} {fault : FigFault} (hs : Calm s₀ s) : Calms s₀ (execDukptMacVerify tower ctx fault s) := by
  unfold execDukptMacVerify
  grind [runFigure_calm, dukptMacVerify_calm, Calm.calms]

end Sys2Proof.Machine

/-! SUPPORT. The operations of CardFam keep what they must. -/

namespace Sys2Proof.Machine
variable {s₀ s : State}

theorem cvvGenerate_calm {t c : Nat} (hs : Calm s₀ s) : Calm s₀ (cvvGenerate t c s) := finishCall_calm hs

theorem verdict_calm {t c : Nat} {ok : Bool} {table : Nat} (hs : Calm s₀ s) : Calm s₀ (verdict s t c ok table) := finishCall_calm hs

theorem cvvVerify_calm {t c : Nat} (hs : Calm s₀ s) : Calm s₀ (cvvVerify t c s) := verdict_calm hs

theorem dcvvVerify_calm {t c : Nat} (hs : Calm s₀ s) : Calm s₀ (dcvvVerify t c s) := verdict_calm hs

theorem arqcVerify_calm {t c : Nat} (hs : Calm s₀ s) : Calm s₀ (arqcVerify t c s) := finishCall_calm hs

theorem scriptMac_calm {t c : Nat} (hs : Calm s₀ s) : Calm s₀ (scriptMac t c s) := finishCall_calm hs

theorem macGenerate_calm {t c : Nat} (hs : Calm s₀ s) : Calm s₀ (macGenerate t c s) := finishCall_calm hs

theorem macVerify_calm {t c : Nat} (hs : Calm s₀ s) : Calm s₀ (macVerify t c s) := verdict_calm hs

theorem writeSoFar_calm {t c : Nat} (hs : Calm s₀ s) : Calm s₀ (writeSoFar s t c).1 := writeOut_calm hs

theorem noteLanes_calm {t c : Nat} (hs : Calm s₀ s) : Calm s₀ (noteLanes s t c) := State.setTower_calm hs

theorem countInCaches_calm {k : KeyRec} {p cls idx : Nat} (hs : Calm s₀ s) : Calm s₀ (countInCaches k p cls idx s) := hs.mk' rfl rfl rfl rfl

theorem aeadFinal_calm {t c table : Nat} (hs : Calm s₀ s) : Calm s₀ (aeadFinal s t c table) := by
  have body {a : State} {cls p idx st : Nat} {k : KeyRec} {l : List KeepCopy} {r : Bytes} (ha : Calm s₀ a) :
      Calm s₀ (finishCall ((installAll cls .pinned (countInCaches k p cls idx a) l).getD (countInCaches k p cls idx a)) t c st table 0 r) :=
    finishCall_calm ((countInCaches_calm ha).getD fun _ => installAll_calm (countInCaches_calm ha))
  unfold aeadFinal
  dsimp only
  split
  · refine withLines_calm hs fun a ha => ?_
    split
    · exact finishCall_calm ha
    · exact .ite (finishCall_calm ha) (.ite (finishCall_calm ha) (rewriteRecord_calm ha fun _ => countInCaches_calm))
  · split
    · exact finishCall_calm hs
    · exact .ite (finishCall_calm hs) (.ite (finishCall_calm hs) (body hs))

theorem dataFigure_calm {t c : Nat} (hs : Calm s₀ s) : Calm s₀ (dataFigure t c s) := by
  unfold dataFigure
  grind [State.setCtx_calm, finishCall_calm, stepBack_calm, writeSoFar_calm, aeadFinal_calm]

theorem tokNext_calm {t c : Nat} {vals : List Nat} {needs : List Need} (hs : Calm s₀ s) : Calm s₀ (tokNext s t c vals needs) := by
  unfold tokNext
  grind [State.setCtx_calm, stepBack_calm]

theorem tokenizeEnd_calm {t c : Nat} {v : TokView} (hs : Calm s₀ s) : Calm s₀ (tokenizeEnd s t c v) := by
  unfold tokenizeEnd
  grind [finishCall_calm, finalStep_calm, passGroup_calm]

theorem tokenRetireEnd_calm {t c : Nat} {v : TokView} (hs : Calm s₀ s) : Calm s₀ (tokenRetireEnd s t c v) := by
  unfold tokenRetireEnd
  grind [finishCall_calm, finalStep_calm, passGroup_calm]

theorem detokenizeEnd_calm {t c : Nat} {v : TokView} (hs : Calm s₀ s) : Calm s₀ (detokenizeEnd s t c v) :=
  .ite (finishCall_calm hs) (finishCall_calm hs)

theorem withWindow_calm {t c p : Nat} {ls : List Nat} {f : State → State} (hs : Calm s₀ s) (hf : ∀ y0, Calm s₀ y0 → Calm s₀ (f y0)) :
    Calm s₀ (withWindow s t c p ls f) := by
  unfold withWindow
  grind [stepBack_calm]

theorem tokenSecond_calm {t c : Nat} {v : TokView} (hs : Calm s₀ s) : Calm s₀ (tokenSecond t c v s) := by
  unfold tokenSecond
  grind [State.setCtx_calm, tokNext_calm]

theorem tokenFigure_calm {t c : Nat} (hs : Calm s₀ s) : Calm s₀ (tokenFigure t c s) := by
  unfold tokenFigure
  dsimp only
  (repeat' split) <;> grind [tokNext_calm, tokenizeEnd_calm, tokenRetireEnd_calm, detokenizeEnd_calm, withWindow_calm, tokenSecond_calm]

theorem execCvvGenerate_calm {tower ctx : Nat} {fault : FigFault} (hs : Calm s₀ s) : Calms s₀ (execCvvGenerate tower ctx fault s) := by
  unfold execCvvGenerate
  grind [runFigure_calm, cvvGenerate_calm, Calm.calms]

theorem execCvvVerify_calm {tower ctx : Nat} {fault : FigFault} (hs : Calm s₀ s) : Calms s₀ (execCvvVerify tower ctx fault s) := by
  unfold execCvvVerify
  grind [runFigure_calm, cvvVerify_calm, Calm.calms]

theorem execDcvvVerify_calm {tower ctx : Nat} {fault : FigFault} (hs : Calm s₀ s) : Calms s₀ (execDcvvVerify tower ctx fault s) := by
  unfold execDcvvVerify
  grind [runFigure_calm, dcvvVerify_calm, Calm.calms]

theorem execArqcVerify_calm {tower ctx : Nat} {fault : FigFault} (hs : Calm s₀ s) : Calms s₀ (execArqcVerify tower ctx fault s) := by
  unfold execArqcVerify
  grind [runFigure_calm, arqcVerify_calm, Calm.calms]

theorem execScriptMac_calm {tower ctx : Nat} {fault : FigFault} (hs : Calm s₀ s) : Calms s₀ (execScriptMac tower ctx fault s) := by
  unfold execScriptMac
  grind [runFigure_calm, scriptMac_calm, Calm.calms]

theorem execMacGenerate_calm {tower ctx : Nat} {fault : FigFault} (hs : Calm s₀ s) : Calms s₀ (execMacGenerate tower ctx fault s) := by
  unfold execMacGenerate
  grind [runFigure_calm, macGenerate_calm, Calm.calms]

theorem execMacVerify_calm {tower ctx : Nat} {fault : FigFault} (hs : Calm s₀ s) : Calms s₀ (execMacVerify tower ctx fault s) := by
  unfold execMacVerify
  grind [runFigure_calm, macVerify_calm, Calm.calms]

theorem execDataEncrypt_calm {tower ctx : Nat} {fault : FigFault} (hs : Calm s₀ s) : Calms s₀ (execDataEncrypt tower ctx fault s) := by
  unfold execDataEncrypt
  grind [runFigure_calm, dataFigure_calm, Calm.calms]

theorem execDataDecrypt_calm {tower ctx : Nat} {fault : FigFault} (hs : Calm s₀ s) : Calms s₀ (execDataDecrypt tower ctx fault s) := by
  unfold execDataDecrypt
  grind [runFigure_calm, dataFigure_calm, Calm.calms]

theorem execDataTranslate_calm {tower ctx : Nat} {fault : FigFault} (hs : Calm s₀ s) : Calms s₀ (execDataTranslate tower ctx fault s) := by
  unfold execDataTranslate
  grind [runFigure_calm, dataFigure_calm, Calm.calms]

theorem execTokenize_calm {tower ctx : Nat} {fault : FigFault} (hs : Calm s₀ s) : Calms s₀ (execTokenize tower ctx fault s) := by
  unfold execTokenize
  grind [runFigure_calm, tokenFigure_calm, Calm.calms]

theorem execDetokenize_calm {tower ctx : Nat} {fault : FigFault} (hs : Calm s₀ s) : Calms s₀ (execDetokenize tower ctx fault s) := by
  unfold execDetokenize
  grind [runFigure_calm, tokenFigure_calm, Calm.calms]

theorem execTokenRetire_calm {tower ctx : Nat} {fault : FigFault} (hs : Calm s₀ s) : Calms s₀ (execTokenRetire tower ctx fault s) := by
  unfold execTokenRetire
  grind [runFigure_calm, tokenFigure_calm, Calm.calms]

end Sys2Proof.Machine

/-! SUPPORT. The operations of KeyFam keep what they must. -/

namespace Sys2Proof.Machine
variable {s₀ s : State}

theorem keyGenerate_calm {t c : Nat} (hs : Calm s₀ s) : Calm s₀ (keyGenerate t c s) := createRecord_calm hs

theorem keyDerive_calm {t c : Nat} (hs : Calm s₀ s) : Calm s₀ (keyDerive t c s) := createRecord_calm (holdLane_calm hs)

theorem keyImportBlock_calm {t c : Nat} (hs : Calm s₀ s) : Calm s₀ (keyImportBlock t c s) := by
  unfold keyImportBlock
  grind [State.takeFree_calm, finishCall_calm, createRecord_calm]

theorem keyExportBlock_calm {t c : Nat} (hs : Calm s₀ s) : Calm s₀ (keyExportBlock t c s) := by
  unfold keyExportBlock
  grind [State.takeBytes_calm, finishCall_calm, writeOut_calm]

theorem keyDestroy_calm {t c : Nat} (hs : Calm s₀ s) : Calm s₀ (keyDestroy t c s) := by
  unfold keyDestroy
  grind [finishCall_calm, putLine_calm, forgetKey_calm, finalStep_calm, passGroup_calm, withLines_calm]

theorem keyAttributes_calm {t c : Nat} (hs : Calm s₀ s) : Calm s₀ (keyAttributes t c s) := finishCall_calm hs

theorem keyCheckValue_calm {t c : Nat} (hs : Calm s₀ s) : Calm s₀ (keyCheckValue t c s) := .ite (finishCall_calm hs) (finishCall_calm hs)

theorem keyImportPk_calm {t c : Nat} (hs : Calm s₀ s) : Calm s₀ (keyImportPk t c s) := by
  unfold keyImportPk
  grind [finishCall_calm, createRecord_calm, spCall_calm, spireOnce_calm]

theorem bindingImport_calm {t c : Nat} (hs : Calm s₀ s) : Calm s₀ (bindingImport t c s) := by
  unfold bindingImport
  dsimp only
  (repeat' split) <;> grind [finishCall_calm, writeDesc_calm, spireOnce_calm, Calm.mk']

theorem partitionUnbind_calm {t c : Nat} (hs : Calm s₀ s) : Calm s₀ (partitionUnbind t c s) :=
  .ite (finishCall_calm (hs.mk' rfl rfl rfl rfl)) (finishCall_calm hs)

theorem rotateSchedule_calm {t c : Nat} (hs : Calm s₀ s) : Calm s₀ (rotateSchedule t c s) := by
  unfold rotateSchedule
  grind [finishCall_calm, tcDrop_calm, withLines_calm, createRecord_calm]

theorem rotateCancel_calm {t c : Nat} (hs : Calm s₀ s) : Calm s₀ (rotateCancel t c s) := by
  unfold rotateCancel
  refine withLines_calm hs fun a ha => ?_
  split
  · refine .ite (finishCall_calm ha) (withLines_calm ha fun b hb => ?_)
    dsimp only
    split
    · exact finishCall_calm hb
    · exact .ite (finishCall_calm hb) (finalStep_calm hb fun d hd => passGroup_calm (.ite (tcDrop_calm hd) (forgetKey_calm (tcDrop_calm hd))))
  · exact finishCall_calm ha

theorem execKeyGenerate_calm {tower ctx : Nat} {fault : FigFault} (hs : Calm s₀ s) : Calms s₀ (execKeyGenerate tower ctx fault s) := by
  unfold execKeyGenerate
  grind [runFigure_calm, keyGenerate_calm, Calm.calms]

theorem execKeyImportBlock_calm {tower ctx : Nat} {fault : FigFault} (hs : Calm s₀ s) : Calms s₀ (execKeyImportBlock tower ctx fault s) := by
  unfold execKeyImportBlock
  grind [runFigure_calm, keyImportBlock_calm, Calm.calms]

theorem execKeyExportBlock_calm {tower ctx : Nat} {fault : FigFault} (hs : Calm s₀ s) : Calms s₀ (execKeyExportBlock tower ctx fault s) := by
  unfold execKeyExportBlock
  grind [runFigure_calm, keyExportBlock_calm, Calm.calms]

theorem execKeyDerive_calm {tower ctx : Nat} {fault : FigFault} (hs : Calm s₀ s) : Calms s₀ (execKeyDerive tower ctx fault s) := by
  unfold execKeyDerive
  grind [runFigure_calm, keyDerive_calm, Calm.calms]

theorem execKeyDestroy_calm {tower ctx : Nat} {fault : FigFault} (hs : Calm s₀ s) : Calms s₀ (execKeyDestroy tower ctx fault s) := by
  unfold execKeyDestroy
  grind [runFigure_calm, keyDestroy_calm, Calm.calms]

theorem execKeyAttributes_calm {tower ctx : Nat} {fault : FigFault} (hs : Calm s₀ s) : Calms s₀ (execKeyAttributes tower ctx fault s) := by
  unfold execKeyAttributes
  grind [runFigure_calm, keyAttributes_calm, Calm.calms]

theorem execKeyCheckValue_calm {tower ctx : Nat} {fault : FigFault} (hs : Calm s₀ s) : Calms s₀ (execKeyCheckValue tower ctx fault s) := by
  unfold execKeyCheckValue
  grind [runFigure_calm, keyCheckValue_calm, Calm.calms]

theorem execKeyImportPk_calm {tower ctx : Nat} {fault : FigFault} (hs : Calm s₀ s) : Calms s₀ (execKeyImportPk tower ctx fault s) := by
  unfold execKeyImportPk
  grind [runFigure_calm, keyImportPk_calm, Calm.calms]

theorem execBindingRecordImport_calm {tower ctx : Nat} {fault : FigFault} (hs : Calm s₀ s) :
    Calms s₀ (execBindingRecordImport tower ctx fault s) := by
  unfold execBindingRecordImport
  grind [runFigure_calm, bindingImport_calm, Calm.calms]

theorem execPartitionUnbind_calm {tower ctx : Nat} {fault : FigFault} (hs : Calm s₀ s) : Calms s₀ (execPartitionUnbind tower ctx fault s) := by
  unfold execPartitionUnbind
  grind [runFigure_calm, partitionUnbind_calm, Calm.calms]

theorem execKeyRotateSchedule_calm {tower ctx : Nat} {fault : FigFault} (hs : Calm s₀ s) : Calms s₀ (execKeyRotateSchedule tower ctx fault s) := by
  unfold execKeyRotateSchedule
  grind [runFigure_calm, rotateSchedule_calm, Calm.calms]

theorem execRotateCancel_calm {tower ctx : Nat} {fault : FigFault} (hs : Calm s₀ s) : Calms s₀ (execRotateCancel tower ctx fault s) := by
  unfold execRotateCancel
  grind [runFigure_calm, rotateCancel_calm, Calm.calms]

end Sys2Proof.Machine

/-! SUPPORT. The operations of Calls keep what they must. -/

namespace Sys2Proof.Machine
variable {s₀ s : State}

theorem spoof_calm {fn kind : Nat} {d : Bytes} (hs : Calm s₀ s) : Calm s₀ (spoof s fn kind d) :=
  .ite (logViolation_calm hs) (freezeTf_calm (logViolation_calm hs))

theorem rejectCall_calm {k : Call} {status : Nat} {results : Bytes} (hs : Calm s₀ s) : Calm s₀ (rejectCall s k status results) :=
  handoff_calm (charge_calm hs)

theorem chargeAdmitted_calm {k : Call} (hs : Calm s₀ s) : Calm s₀ (chargeAdmitted s k) := .ite (hs.mk' rfl rfl rfl rfl) (charge_calm (charge_calm hs))

theorem enqueue_calm {k : Call} (hs : Calm s₀ s) : Calm s₀ (enqueue s k) := .ite (hs.mk' rfl rfl rfl rfl) (hs.mk' rfl rfl rfl rfl)

theorem admitCall_calm {fn q : Nat} {d : Bytes} (hs : Calm s₀ s) : Calm s₀ (admitCall s fn q d) := by
  unfold admitCall
  grind [State.setQp_calm, spoof_calm, rejectCall_calm, chargeAdmitted_calm, enqueue_calm, Calm.mk']

theorem execAdmission_calm (hs : Calm s₀ s) : Calms s₀ (execAdmission s) := by
  unfold execAdmission
  dsimp only
  (repeat' split) <;> grind [State.setQp_calm, commitArb_calm, queueRound_calm, admitCall_calm, Calm.calms]

theorem claimJob_calm {t c : Nat} {k : Call} (hs : Calm s₀ s) : Calm s₀ (claimJob s t c k).1 := by
  unfold claimJob
  grind [Calm.mk']

theorem listDone_calm {t c : Nat} {f : State → State} (hs : Calm s₀ s) (hf : ∀ y0, Calm s₀ y0 → Calm s₀ (f y0)) : Calm s₀ (listDone s t c f) := by
  unfold listDone
  grind [State.setCtx_calm, finishUnkeyed_calm, modWork_calm]

theorem noteKeyRefusal_calm {t st : Nat} (hs : Calm s₀ s) : Calm s₀ (noteKeyRefusal s t st) := .ite hs (State.setTower_calm hs)

theorem listMeanwhile_calm {t c : Nat} (hs : Calm s₀ s) : Calm s₀ (listMeanwhile s t c) :=
  .ite hs (grantRead_calm (armDma_calm (State.setCtx_calm hs)))

theorem keysPassed_calm {t c : Nat} {k : Call} {ks : List KeyRec} (hs : Calm s₀ s) : Calm s₀ (keysPassed s t c k ks) := by
  unfold keysPassed
  grind [State.setCtx_calm, finishCall_calm, finishUnkeyed_calm, setNeeds_calm, modWork_calm, listDone_calm, noteKeyRefusal_calm, listMeanwhile_calm]

theorem keyFailed_calm {t c st : Nat} (hs : Calm s₀ s) : Calm s₀ (keyFailed s t c st) := finishUnkeyed_calm (listMeanwhile_calm hs)

theorem finishKeys_calm {t c : Nat} (hs : Calm s₀ s) : Calm s₀ (finishKeys s t c) := by
  unfold finishKeys
  grind [keysPassed_calm, keyFailed_calm]

theorem setSlot_calm {t c i : Nat} {k : Option KeyRec} {err : Nat} (hs : Calm s₀ s) : Calm s₀ (setSlot s t c i k err) := State.setCtx_calm hs

theorem slotKey_calm {t c i : Nat} (hs : Calm s₀ s) : Calm s₀ (slotKey s t c i).1 := by
  unfold slotKey
  grind [State.setCtx_calm, touchRun_calm, tcInstall_calm, setSlot_calm, Calm.mk']

theorem fetchKeys_calm {t c : Nat} (hs : Calm s₀ s) : Calm s₀ (fetchKeys s t c) := by
  unfold fetchKeys
  dsimp only
  split
  · exact hs
  split
  · exact keyFailed_calm hs
  have h {x : Ctx} {l : List Nat} : Calm s₀ (l.foldl (fun (a : State × List Need) i =>
      ((slotKey a.1 t c i).1, a.2 ++ (slotKey a.1 t c i).2)) (s.setCtx t c x, [])).1 :=
    Calm.foldl_fst (State.setCtx_calm hs) fun _ _ => slotKey_calm
  exact .ite (finishKeys_calm h) (setNeeds_calm h)

theorem keysNext_calm {t c : Nat} (hs : Calm s₀ s) : Calm s₀ (keysNext s t c) := by
  unfold keysNext
  grind [finishKeys_calm]

theorem slotMoves_calm {t c : Nat} {m : Need} {n : List Need} (hs : Calm s₀ s) : Calm s₀ (slotMoves s t c m n) :=
  .ite (keysNext_calm (dropNeed_calm hs)) (setNeeds_calm hs)

theorem lineFreed_calm {t c : Nat} (hs : Calm s₀ s) : Calm s₀ (lineFreed s t c) := by
  unfold lineFreed
  grind [slotKey_calm, slotMoves_calm]

theorem placeClaim_calm {t c : Nat} {k : Call} (hs : Calm s₀ s) : Calm s₀ (placeClaim s t c k) := by
  unfold placeClaim
  grind [State.setCtx_calm, claimJob_calm]

theorem claimSpace_calm {t c : Nat} {k : Call} (hs : Calm s₀ s) : Calm s₀ (claimSpace s t c k) :=
  .ite hs (.ite (State.setCtx_calm hs) (State.setCtx_calm hs))

theorem placeClaims_calm {t c : Nat} {k : Call} (hs : Calm s₀ s) : Calm s₀ (placeClaims s t c k) :=
  .ite (placeClaim_calm hs) (.ite (claimSpace_calm hs) hs)

theorem startCall_calm {t c : Nat} (hs : Calm s₀ s) : Calm s₀ (startCall s t c) := by
  unfold startCall
  grind [finishCall_calm, fetchKeys_calm, placeClaims_calm]

theorem placeCall_calm {k : Call} {t c : Nat} (hs : Calm s₀ s) : Calm s₀ (placeCall s k t c) := (State.setTower_calm hs).mk' rfl rfl rfl rfl

theorem cacheErrors_calm {t c : Nat} {bad : List Nat} {fixed : Nat} (hs : Calm s₀ s) : Calm s₀ (cacheErrors s t c bad fixed) := by
  unfold cacheErrors
  grind [countFixed_calm, countUncorr_calm, tcEvict_calm, Calm.foldl]

theorem execDispatch_calm {bad : List Nat} {fixed : Nat} (hs : Calm s₀ s) : Calms s₀ (execDispatch bad fixed s) := by
  unfold execDispatch
  dsimp only
  (repeat' split) <;> grind [startCall_calm, placeCall_calm, cacheErrors_calm, Calm.mk', Calm.calms]

theorem readAnswered_calm {r : DmaReq} (hs : Calm s₀ s) : Calm s₀ (readAnswered s r) := hs.mk' rfl rfl rfl rfl

theorem withRead_calm {t c : Nat} {what : DmaFor} {ans : ReadAns} {f : Bytes → State → State} (hs : Calm s₀ s)
    (hf : ∀ y0 y1, Calm s₀ y1 → Calm s₀ (f y0 y1)) :
    Calm s₀ (withRead s t c what ans f) := by
  unfold withRead
  grind [logAns_calm, dataError_calm, readAnswered_calm]

theorem execListRead_calm {tower ctx : Nat} {ans : ReadAns} (hs : Calm s₀ s) : Calms s₀ (execListRead tower ctx ans s) := by
  unfold execListRead
  grind [State.setCtx_calm, armDma_calm, popNeed_calm, modWork_calm, listDone_calm, withRead_calm, Calm.calms]

theorem execBlobRead_calm {tower ctx : Nat} {ans : ReadAns} (hs : Calm s₀ s) : Calms s₀ (execBlobRead tower ctx ans s) := by
  unfold execBlobRead
  grind [popNeed_calm, modWork_calm, withRead_calm, Calm.calms]

theorem chunkOutput_calm {t c : Nat} (hs : Calm s₀ s) : Calm s₀ (chunkOutput s t c).1 := by
  unfold chunkOutput
  grind [writeOut_calm, writeSoFar_calm]

theorem jobPassed_calm {t c n : Nat} (hs : Calm s₀ s) : Calm s₀ (jobPassed s t c n) := hs.mk' rfl rfl rfl rfl

theorem chunkDone_calm {t c : Nat} (hs : Calm s₀ s) : Calm s₀ (chunkDone s t c) := by
  unfold chunkDone
  grind [State.setCtx_calm, armDma_calm, popNeed_calm, noteLanes_calm, chunkOutput_calm, jobPassed_calm]

theorem execChunkRead_calm {tower ctx : Nat} {ans : ReadAns} {fault : optParam FigFault FigFault.none} (hs : Calm s₀ s) :
    Calms s₀ (execChunkRead tower ctx ans s fault) := by
  unfold execChunkRead
  grind [modWork_calm, withFault_calm, withRead_calm, chunkDone_calm, Calm.calms]

theorem settleChunk_calm {t c : Nat} (hs : Calm s₀ s) : Calm s₀ (settleChunk s t c) := by
  unfold settleChunk
  grind [noteLanes_calm, chunkOutput_calm, jobPassed_calm]

theorem execLaneGrant_calm {tower : Nat} {hash : Bool} {fault : Option Nat} {ends : optParam (List Nat) []} (hs : Calm s₀ s) :
    Calms s₀ (execLaneGrant tower hash fault s ends) := by
  unfold execLaneGrant
  dsimp only
  (repeat' split) <;> grind [unstall_calm, laneFault_calm, laneDecide_calm, markLanes_calm, settleChunk_calm, Calm.foldl, Calm.calms]

theorem cacheMeta_calm {p : Nat} {ws : List Nat} (hs : Calm s₀ s) : Calm s₀ (cacheMeta s p ws) :=
  hs.foldl fun _ _ h => .ite h (.ite h (State.setVault_calm h))

theorem fetchLines_calm {p idx n : Nat} {failed : Bool} (hs : Calm s₀ s) : Calm s₀ (fetchLines s p idx n failed).1 := by
  unfold fetchLines
  grind [windowCheck_calm, cacheMeta_calm]

theorem fetchRecord_calm {p idx : Nat} {failed : Bool} (hs : Calm s₀ s) : Calm s₀ (fetchRecord s p idx failed).1 := by
  unfold fetchRecord
  grind [fetchLines_calm]

theorem fetchRaw_calm {p idx : Nat} {failed : Bool} (hs : Calm s₀ s) : Calm s₀ (fetchRaw s p idx failed).1 := by
  unfold fetchRaw
  grind [fetchLines_calm]

theorem noteFill_calm {t c n : Nat} (hs : Calm s₀ s) : Calm s₀ (noteFill s t c n) := (State.setCtx_calm hs).mk' rfl rfl rfl rfl

theorem noteBad_calm {st w : Nat} (hs : Calm s₀ s) : Calm s₀ (noteBad s st w) := .ite (noteIntegrity_calm hs) hs

theorem clearReady_calm {t c : Nat} {m : Need} (hs : Calm s₀ s) : Calm s₀ (clearReady s t c m) := State.setCtx_calm hs

theorem slotFilled_calm {t c i : Nat} {k : Option KeyRec} {err : Nat} (hs : Calm s₀ s) : Calm s₀ (slotFilled s t c i k err) :=
  keysNext_calm (dropNeed_calm (State.setCtx_calm (setSlot_calm hs)))

theorem dropFilled_calm {t c p n : Nat} (hs : Calm s₀ s) : Calm s₀ (dropFilled t c p n s) := by
  induction n generalizing s with
  | zero => exact hs
  | succ n ih => grind [dropFilled, popNeed_calm]

theorem filledBy_calm {t c p : Nat} {m : Need} {f : Fetch} (hs : Calm s₀ s) : Calm s₀ (filledBy s t c p m f) := by
  unfold filledBy
  grind [tcInstall_calm, noteFill_calm, clearReady_calm, slotFilled_calm, dropFilled_calm]

theorem refusedFill_calm {t c : Nat} {x1 : Need} (hs : Calm s₀ s) : Calm s₀ (refusedFill s t c x1) := by
  unfold refusedFill
  grind [finishFree_calm, slotFilled_calm]

theorem settleOne_calm {t c : Nat} {e : Need × Fetch} (hs : Calm s₀ s) : Calm s₀ (settleOne t c s e) := by
  have clear {a : State} {m : Need} (ha : Calm s₀ a) : Calm s₀ (clearReady a t c m) := clearReady_calm ha
  have place {ok : Bool} {w : Bool} {ks : List (Nat × Nat)} {l : List KeepCopy} {p : Nat} {m : Need} {f : Fetch} : Calm s₀ (if ok then
      ((installAll 1 .clean (engineKeep s w ks).1 l).map (fun a => filledBy a t c p m f)).getD (engineKeep s w ks).1
      else refusedFill (clearReady (engineKeep s w ks).1 t c m) t c m) := by
    have hk : Calm s₀ (engineKeep s w ks).1 := engineKeep_calm hs
    refine .ite (hk.getD fun a ha => ?_) (refusedFill_calm (clear hk))
    obtain ⟨b, hb, rfl⟩ := Option.map_eq_some_iff.1 ha
    exact filledBy_calm (installAll_calm hk hb)
  unfold settleOne
  dsimp only
  refine .ite hs (.ite (clear hs) ?_)
  split
  · exact .ite (slotMoves_calm (clear (slotKey_calm hs))) (.ite (clear hs) place)
  · exact .ite (dropFilled_calm (clear hs)) (.ite (clear hs) place)
  · exact clear hs

theorem settleFill_calm {t c : Nat} (hs : Calm s₀ s) : Calm s₀ (settleFill s t c) := hs.foldl fun _ _ => settleOne_calm

theorem takeFetch_calm {t c : Nat} {m : Need} {f : Fetch} (hs : Calm s₀ s) : Calm s₀ (takeFetch s t c m f) := settleOne_calm (State.setCtx_calm hs)

theorem fillSlot_calm {t c i : Nat} {failed : Bool} (hs : Calm s₀ s) : Calm s₀ (fillSlot s t c i failed) := by
  unfold fillSlot
  grind [slotKey_calm, slotMoves_calm, fetchRecord_calm, noteBad_calm, slotFilled_calm, takeFetch_calm]

theorem fetchOther_calm {t c idx : Nat} {failed : Bool} (hs : Calm s₀ s) : Calm s₀ (fetchOther s t c idx failed).1 := by
  unfold fetchOther
  grind [fetchRecord_calm, fetchRaw_calm]

theorem fillOther_calm {t c idx : Nat} {failed : Bool} (hs : Calm s₀ s) : Calm s₀ (fillOther s t c idx failed) := by
  unfold fillOther
  grind [finishFree_calm, noteBad_calm, dropFilled_calm, takeFetch_calm, fetchOther_calm]

theorem doFill_calm {t c : Nat} {m : Need} {failed : Bool} (hs : Calm s₀ s) : Calm s₀ (doFill s t c m failed) := by
  unfold doFill
  grind [fillSlot_calm, fillOther_calm]

theorem takeAsked_calm {t c : Nat} (hs : Calm s₀ s) : Calm s₀ (takeAsked s t c).1 := State.setCtx_calm hs

theorem fillUnmade_calm {t c : Nat} {failed : Bool} (hs : Calm s₀ s) : Calm s₀ (fillUnmade s t c failed) := by
  unfold fillUnmade
  grind [doFill_calm]

theorem execVaultFill_calm {tower ctx : Nat} {mem : List (Nat × Bytes)} {failed : Bool} (hs : Calm s₀ s) :
    Calms s₀ (execVaultFill tower ctx mem failed s) := by
  unfold execVaultFill
  dsimp only
  (repeat' split) <;> grind [logVaultError_calm, unstall_calm, putMem_calm, doFill_calm, takeAsked_calm, fillUnmade_calm, Calm.mk', Calm.calms]

theorem echo_calm {t c : Nat} (hs : Calm s₀ s) : Calm s₀ (echo t c s) := finishCall_calm hs

theorem execEcho_calm {tower ctx : Nat} {fault : FigFault} (hs : Calm s₀ s) : Calms s₀ (execEcho tower ctx fault s) := by
  unfold execEcho
  grind [runFigure_calm, echo_calm, Calm.calms]

end Sys2Proof.Machine

/-! SUPPORT. The operations of JobFam keep what they must. -/

namespace Sys2Proof.Machine
variable {s₀ s : State}

theorem modJob_calm {t c : Nat} {f : Job → Job} (hs : Calm s₀ s) : Calm s₀ (modJob s t c f) := hs.mk' rfl rfl rfl rfl

theorem suspendJob_calm {t c : Nat} {j : Job} (hs : Calm s₀ s) : Calm s₀ (suspendJob s t c j) :=
  finishWaiter_calm (modJob_calm (finishCore_calm (hs.mk' rfl rfl rfl rfl)))

theorem execJobSuspension_calm {tower ctx : Nat} (hs : Calm s₀ s) : Calms s₀ (execJobSuspension tower ctx s) := by
  unfold execJobSuspension
  grind [suspendJob_calm, Calm.calms]

theorem execJobCancellation_calm {tower ctx : Nat} (hs : Calm s₀ s) : Calms s₀ (execJobCancellation tower ctx s) := by
  unfold execJobCancellation
  split
  · exact hs.calms
  split
  · exact hs.calms
  · exact (finishWaiter_calm (jobEnded_calm (finishCore_calm ((modJob_calm hs).mk' rfl rfl rfl rfl)))).calms

theorem jobDone_calm {t c status : Nat} {r : Bytes} (hs : Calm s₀ s) : Calm s₀ (jobDone s t c status r) := finishCall_calm hs

theorem onJob_calm {own : Bool} {t c : Nat} {f : Job → State → State} (hs : Calm s₀ s) (hf : ∀ y0 y1, Calm s₀ y1 → Calm s₀ (f y0 y1)) :
    Calm s₀ (onJob own t c f s) := by
  unfold onJob
  grind [jobDone_calm]

theorem jobSuspend_calm {t c : Nat} {j : Job} (hs : Calm s₀ s) : Calm s₀ (jobSuspend t c j s) :=
  .ite (jobDone_calm hs) (setNeeds_calm (modJob_calm hs))

theorem jobCancel_calm {t c : Nat} {j : Job} (hs : Calm s₀ s) : Calm s₀ (jobCancel t c j s) :=
  .ite (jobDone_calm (dropJob_calm hs)) (setNeeds_calm (modJob_calm hs))

theorem jobResume_calm {t c : Nat} {j : Job} (hs : Calm s₀ s) : Calm s₀ (jobResume t c j s) :=
  .ite (jobDone_calm hs) (fetchKeys_calm (State.setCtx_calm (hs.mk' rfl rfl rfl rfl)))

theorem jobQuery_calm {t c : Nat} {j : Job} (hs : Calm s₀ s) : Calm s₀ (jobQuery t c j s) := jobDone_calm hs

theorem execJobSuspend_calm {tower ctx : Nat} {fault : FigFault} (hs : Calm s₀ s) : Calms s₀ (execJobSuspend tower ctx fault s) := by
  unfold execJobSuspend
  grind [runFigure_calm, onJob_calm, jobSuspend_calm, Calm.calms]

theorem execJobResume_calm {tower ctx : Nat} {fault : FigFault} (hs : Calm s₀ s) : Calms s₀ (execJobResume tower ctx fault s) := by
  unfold execJobResume
  grind [runFigure_calm, onJob_calm, jobResume_calm, Calm.calms]

theorem execJobCancel_calm {tower ctx : Nat} {fault : FigFault} (hs : Calm s₀ s) : Calms s₀ (execJobCancel tower ctx fault s) := by
  unfold execJobCancel
  grind [runFigure_calm, onJob_calm, jobCancel_calm, Calm.calms]

theorem execJobQuery_calm {tower ctx : Nat} {fault : FigFault} (hs : Calm s₀ s) : Calms s₀ (execJobQuery tower ctx fault s) := by
  unfold execJobQuery
  grind [runFigure_calm, onJob_calm, jobQuery_calm, Calm.calms]

end Sys2Proof.Machine

/-! SUPPORT. The operations of StartUp keep what they must. -/

namespace Sys2Proof.Machine
variable {s₀ s : State}

theorem warmHead_calm {p : Nat} (hs : Calm s₀ s) : Calm s₀ (warmHead s p) := State.setHead_calm hs

theorem settleBatch_calm (hs : Calm s₀ s) : Calm s₀ (settleBatch s) := by
  unfold settleBatch
  grind [writeCheck_calm, commitHome_calm]

theorem dropTransition_calm (hs : Calm s₀ s) : Calm s₀ (dropTransition s) := hs.mk' rfl rfl rfl rfl

theorem warmReset_kept {cause : Nat} (hs : Kept s₀ s) : Kept s₀ (warmReset s cause) := by
  have h : Calm s (settleBatch (dropTransition (cardsOff (closeCeremony s 5)))) :=
    settleBatch_calm (dropTransition_calm (cardsOff_calm (closeCeremony_calm (.refl s))))
  refine (hs.calm h).trans ((Kept.calm ?_ (warmHead_calm (.refl _))).calm ((Calm.refl _).foldl fun _ _ => warmHead_calm))
  exact ⟨fusesKept_refl _, rfl, fun i => ⟨i.host, i.heads, i.rows, i.policy, nofun, i.loaded, i.violations, i.domeLog⟩⟩

theorem execWarmReset_kept (hs : Kept s₀ s) : Answers s₀ (execWarmReset s) := (Kept.ite (warmReset_kept hs) hs).answers

theorem execMfFlr_kept {perst : Bool} (hs : Kept s₀ s) : Answers s₀ (execMfFlr perst s) := by
  have h : Kept s₀ (if s.dev.ready then warmReset s 3 else s) := .ite (warmReset_kept hs) hs
  unfold execMfFlr
  refine Kept.answers (.ite ?_ h)
  exact h.calm ((Calm.refl _).mk' rfl rfl rfl rfl)

theorem coldReset_kept (hs : Kept s₀ s) : Kept s₀ (coldReset s) := by
  refine hs.trans (Kept.calm (s := { coldReset s with heads := [] }) ?_ ?_)
  · exact ⟨fusesKept_refl _, rfl, fun i => ⟨i.host, rfl, i.rows, i.policy, nofun, nofun, Nat.zero_le _, i.domeLog⟩⟩
  · exact ⟨rfl, rfl, rfl, rfl, rfl, id, fun i => tblWf_set _ _ _ _ i, id⟩

theorem execColdReset_kept {_pwrgood : Bool} {cut : Option (Bool × Nat)} (hs : Kept s₀ s) : Answers s₀ (execColdReset _pwrgood s cut) := by
  refine (coldReset_kept ?_).answers
  split
  · exact hs.calm (State.setLedger_calm (.refl s))
  · exact hs

theorem clearKeyArea_calm (hs : Calm s₀ s) : Calm s₀ (clearKeyArea s) := hs.mk' rfl rfl rfl rfl

theorem execStrapSample_kept {tn : BitVec 24} (hs : Kept s₀ s) : Answers s₀ (execStrapSample tn s) := by
  unfold execStrapSample
  split
  · exact hs.answers
  · next h =>
    refine Kept.answers (hs.trans ⟨fusesKept_refl _, rfl, fun i => ?_⟩)
    refine ⟨i.host, i.heads, i.rows, i.policy, i.ready, fun hl => ?_, i.violations, i.domeLog⟩
    have := i.loaded hl
    omega

theorem execFuseLoad_kept (hs : Kept s₀ s) : Answers s₀ (execFuseLoad s) := by
  have h : Calm s (if fuseState s = 6 then clearKeyArea s else s) := .ite (clearKeyArea_calm (.refl s)) (.refl s)
  unfold execFuseLoad
  split
  · exact hs.answers
  refine Kept.answers (hs.trans ⟨?_, h.pending, fun i => ?_⟩)
  · exact ⟨⟨rfl, fun _ => BitVec.and_self⟩, ⟨rfl, fun _ => bytesKept_refl _⟩, bytesKept_refl _, ⟨[], (List.append_nil _).symm⟩,
      id, rfl, rfl, rfl⟩
  · refine ⟨h.host i.host, h.heads i.heads, i.rows, i.policy, fun _ => rfl, fun _ => ?_, i.violations, ?_⟩
    · dsimp only
      split <;> decide
    · exact lt_of_eq_of_lt h.logNext i.domeLog

theorem enterSpare_calm {t : Nat} {hash : Bool} (hs : Calm s₀ s) : Calm s₀ (enterSpare s t hash) := by
  unfold enterSpare
  grind [modLane_calm]

theorem startLaneFail_calm {x : Nat × Bool × Nat} (hs : Calm s₀ s) : Calm s₀ (startLaneFail s x) := by
  unfold startLaneFail
  grind [markLane_calm, enterSpare_calm]

theorem startTower_calm {t : Nat} (hs : Calm s₀ s) : Calm s₀ (startTower s t) :=
  .ite hs (.ite (noteRetire_calm (setRole_calm hs)) (drainTower_calm hs))

theorem startTowers_calm (hs : Calm s₀ s) : Calm s₀ (startTowers s) := hs.foldl fun _ _ => startTower_calm

theorem startSource_calm {bad : List Nat} {i : Nat} (hs : Calm s₀ s) : Calm s₀ (startSource bad s i) := by
  unfold startSource
  grind [State.takeFree_calm, State.takeBytes_calm, State.setRng_calm, setSrc_calm, retireSource_calm]

theorem lateTamper_calm (hs : Calm s₀ s) : Calm s₀ (lateTamper s) := .ite (alertCause_calm (raise_calm (hs.mk' rfl rfl rfl rfl))) hs

theorem execDeviceReady_kept {lanes : List (Nat × Bool × Nat)} {spires sources : List Nat} {core : Bool} {us : Nat} (hs : Kept s₀ s) :
    Answers s₀ (execDeviceReady lanes spires sources core us s) := by
  unfold execDeviceReady
  split
  · exact hs.answers
  next hl =>
  extract_lets dead s1 s2 s3 bits dev s4
  have h1 : Calm s s1 := .ite (.refl s) ((Calm.refl s).foldl fun _ _ => startLaneFail_calm)
  have h2 : Calm s s2 := .ite h1 (startTowers_calm (h1.foldl fun _ _ => markSpire_calm))
  have h3 : Calm s s3 := .ite h2 (startDrbgs_calm (starveCheck_calm (rngState_calm (h2.foldl fun _ _ => startSource_calm))))
  have hr : Kept s3 s4 := by
    refine ⟨fusesKept_refl _, rfl, fun i => ⟨i.host, i.heads, i.rows, i.policy, fun _ => ?_, i.loaded, i.violations, i.domeLog⟩⟩
    have hl : s.fuse.loaded = true := by
      rw [not_or] at hl
      simpa using hl.1
    exact (congrArg Fuse.loaded h3.fuse).trans hl
  exact Kept.answers (((hs.calm h3).trans hr).calm (degradeCheck_calm (lateTamper_calm (raise_calm (.refl _)))))

theorem clearDomeRam_calm (hs : Calm s₀ s) : Calm s₀ (clearDomeRam s) := (clearKeyArea_calm hs).mk' rfl rfl rfl rfl

theorem dropVault_calm (hs : Calm s₀ s) : Calm s₀ (dropVault s) := State.setVault_calm (dropGroups_calm (State.setVault_calm hs))

theorem setPolicy_kept {i : Nat} {b : Bytes} (hs : Kept s₀ s) : Kept s₀ (setPolicy s i b) :=
  hs.fuses ⟨⟨rfl, fun _ => BitVec.and_self⟩, policy_set_kept _ _ _, bytesKept_refl _, ⟨[], (List.append_nil _).symm⟩, id, rfl, rfl, rfl⟩ rfl

theorem setRow_kept {i : Nat} {w : Word} (hs : Kept s₀ s) : Kept s₀ (setRow s i w) :=
  hs.fuses ⟨rows_set_kept _ _ _, ⟨rfl, fun _ => bytesKept_refl _⟩, bytesKept_refl _, ⟨[], (List.append_nil _).symm⟩, id, rfl, rfl, rfl⟩ rfl

theorem becomeLost_kept {who : Option (Nat × Nat)} (hs : Kept s₀ s) : Kept s₀ (becomeLost s who) := by
  have h {a : State} (ha : Calm s a) : Calm s (clearKeys (dropVault (clearKeyArea (closeCeremony a 5)))) :=
    clearKeys_calm (dropVault_calm (clearKeyArea_calm (closeCeremony_calm ha)))
  have hl (a : State) : Kept a { a with fuse := { a.fuse with lost := true }, lcs := { a.lcs with st := 6, transition := none } } := by
    refine Kept.calm (s := { a with fuse := { a.fuse with lost := true } }) ?_ ((Calm.refl _).mk' rfl rfl rfl rfl)
    exact (Kept.refl a).fuses ⟨⟨rfl, fun _ => BitVec.and_self⟩, ⟨rfl, fun _ => bytesKept_refl _⟩, bytesKept_refl _,
      ⟨[], (List.append_nil _).symm⟩, fun _ => rfl, rfl, rfl, rfl⟩ rfl
  cases who with
  | none => exact (hs.calm (h (.refl s))).trans (hl _)
  | some x => exact (hs.calm (h (abortCall_calm (.refl s)))).trans (hl _)

theorem burnPolicy_kept {how : StepBurn} (hs : Kept s₀ s) : Kept s₀ (burnPolicy s how).1 := by
  have h : Kept s₀ (domeAccess s fuseArray).1 := hs.calm (domeAccess_calm (.refl s))
  unfold burnPolicy
  generalize domeAccess s fuseArray = x at h
  obtain ⟨a, ok⟩ := x
  dsimp only
  split
  · exact h
  split
  · exact h
  next i _ =>
  have hv (b : Bytes) : Kept s₀ (setPolicy a i b) := setPolicy_kept h
  generalize blankPolicy (setPolicy a i (List.replicate 49 0xFF)) = o
  cases how with
  | ok => exact hv _
  | cut bits => exact hv _
  | retry => cases o with
    | none => exact hv _
    | some j => exact setPolicy_kept (hv _)
  | cutAgain bits => cases o with
    | none => exact hv _
    | some j => exact setPolicy_kept (hv _)
  | lost => cases o with
    | none => exact hv _
    | some j => exact setPolicy_kept ((hv _).calm ((Calm.refl _).mk' rfl rfl rfl rfl))

theorem burnRow_kept {target : Nat} {how : StepBurn} {x : State × BurnEnd} (hs : Kept s₀ s) (hr : burnRow s target how = some x) : Kept s₀ x.1 := by
  have h : Kept s₀ (domeAccess s fuseArray).1 := hs.calm (domeAccess_calm (.refl s))
  unfold burnRow at hr
  generalize domeAccess s fuseArray = y at h hr
  obtain ⟨a, ok⟩ := y
  have hv {i : Nat} {w : Word} : Kept s₀ (setRow a i w) := setRow_kept h
  cases ok with
  | false => exact Option.some.inj hr ▸ h
  | true =>
    simp only [Bool.not_true, Bool.false_eq_true, if_false] at hr
    cases how with
    | ok => exact Option.some.inj hr ▸ hv
    | cut b => grind [setRow_kept]
    | retry => grind [setRow_kept]
    | cutAgain b => grind [setRow_kept]
    | lost =>
      dsimp only at hr
      split at hr
      · exact Option.some.inj hr ▸ hv
      · exact Option.some.inj hr ▸ setRow_kept (hv.calm ((Calm.refl _).mk' rfl rfl rfl rfl))

theorem newCanary_calm (hs : Calm s₀ s) : Calm s₀ (newCanary s) := by
  unfold newCanary
  grind [State.takeFree_calm, Calm.mk']

theorem enterState_kept {target : Nat} (hs : Kept s₀ s) : Kept s₀ (enterState s target) := by
  unfold enterState
  extract_lets s1 s2 s3
  have h : Calm s s1 :=
    newCanary_calm (clearKeys_calm (dropVault_calm (.ite (clearDomeRam_calm (.refl s)) (clearKeyArea_calm (.refl s)))))
  have h2 : Calm s s2 := closeCeremony_calm h
  exact warmReset_kept (hs.calm (lcNote_calm (h2.mk' rfl rfl rfl rfl)))

theorem execLifecycleTransition_kept {burn : BurnResult} (hs : Kept s₀ s) : Answers s₀ (execLifecycleTransition burn s) := by
  unfold execLifecycleTransition
  split
  · exact hs.answers
  next target who _ =>
  split
  · exact (hs.calm (lcAbort_calm (.refl s))).answers
  split
  · exact hs.answers
  have h0 : Kept s₀ (if s.lcs.st = 1 ∧ target = 2 then { s with fuse := { s.fuse with owner := burnBytes s.fuse.owner s.lcs.owner } } else s) :=
    .ite (hs.fuses ⟨⟨rfl, fun _ => BitVec.and_self⟩, ⟨rfl, fun _ => bytesKept_refl _⟩, burnBytes_kept _ _,
      ⟨[], (List.append_nil _).symm⟩, id, rfl, rfl, rfl⟩ rfl) hs
  generalize (if s.lcs.st = 1 ∧ target = 2 then { s with fuse := { s.fuse with owner := burnBytes s.fuse.owner s.lcs.owner } } else s) = a at h0
  have hp : Kept s₀ (if s.lcs.st == 2 && target == 3 then burnPolicy a burn.block else (a, .done)).1 := by
    split
    · exact burnPolicy_kept h0
    · exact h0
  dsimp only
  generalize (if s.lcs.st == 2 && target == 3 then burnPolicy a burn.block else (a, .done)) = p at hp
  refine Kept.answers ?_
  split
  · exact coldReset_kept hp
  · exact becomeLost_kept hp
  split
  · exact hs
  · next hr => exact enterState_kept (burnRow_kept hp hr)
  · next hr => exact becomeLost_kept (burnRow_kept hp hr)
  · next hr => exact coldReset_kept (burnRow_kept hp hr)

theorem execVddAonLoss_calm {vbat : Nat} (hs : Calm s₀ s) : Calms s₀ (execVddAonLoss vbat s) := by
  unfold execVddAonLoss
  grind [Calm.mk', Calm.calms]

theorem execDomePowerUp_kept {lost : Bool} (hs : Kept s₀ s) : Answers s₀ (execDomePowerUp lost s) := by
  have h : Kept s₀ { s with dome := { s.dome with onMain := true } } := hs.calm ((Calm.refl _).mk' rfl rfl rfl rfl)
  unfold execDomePowerUp
  split
  · exact hs.answers
  refine (Kept.ite ?_ h).answers
  exact (h.calm (clearDomeRam_calm (.refl _))).trans
    ⟨fusesKept_refl _, rfl, fun i => ⟨i.host, i.heads, i.rows, i.policy, i.ready, i.loaded, i.violations, Nat.zero_lt_succ _⟩⟩

end Sys2Proof.Machine

/-! SUPPORT. The operations of DomeFam keep what they must. -/

namespace Sys2Proof.Machine
variable {s₀ s : State}

theorem faultQueued_calm {k : Call} (hs : Calm s₀ s) : Calm s₀ (faultQueued s k) := by
  unfold faultQueued
  grind [State.takeFree_calm, handoff_calm, charge_calm]

theorem faultAll_calm (hs : Calm s₀ s) : Calm s₀ (faultAll s) :=
  ((hs.mk' rfl rfl rfl rfl).foldl fun _ _ h => .ite (deviceFault_calm h) h).foldl fun _ _ => faultQueued_calm

theorem dropCeremonyTransition_calm (hs : Calm s₀ s) : Calm s₀ (dropCeremonyTransition s) := by
  unfold dropCeremonyTransition
  grind [dropTransition_calm]

theorem tamperOnMain_calm (hs : Calm s₀ s) : Calm s₀ (tamperOnMain s) :=
  alertCause_calm (raise_calm ((clearKeys_calm ((faultAll_calm (dropVault_calm (dropCeremonyTransition_calm (closeCeremony_calm hs)))).mk'
    rfl rfl rfl rfl)).mk' rfl rfl rfl rfl))

theorem tamperInDome_kept {c : BitVec 15} {temp : BitVec 8} {vbat : Nat} (hs : Kept s₀ s) : Kept s₀ (tamperInDome s c temp vbat) :=
  (hs.calm (domeAccess_calm (clearKeyArea_calm (.refl s)))).trans
    ⟨fusesKept_refl _, rfl, fun i => ⟨i.host, i.heads, i.rows, i.policy, i.ready, i.loaded, i.violations, Nat.mod_lt _ (by decide)⟩⟩

theorem execTamperEvent_kept {cause : BitVec 15} {temp : BitVec 8} {vbat : Nat} (hs : Kept s₀ s) :
    Answers s₀ (execTamperEvent cause temp vbat s) := by
  have h {c : BitVec 15} : Kept s₀ (tamperInDome s c temp vbat) := tamperInDome_kept hs
  unfold execTamperEvent
  dsimp only
  split
  · exact hs.answers
  · exact (Kept.ite (h.calm (tamperOnMain_calm (.refl _))) h).answers

theorem execTamperToggle_calm {cause : BitVec 15} (hs : Calm s₀ s) : Calms s₀ (execTamperToggle cause s) := by
  unfold execTamperToggle
  grind [Calm.mk', Calm.calms]

theorem execEraseDone_calm (hs : Calm s₀ s) : Calms s₀ (execEraseDone s) := by
  unfold execEraseDone
  grind [Calm.mk', Calm.calms]

theorem execKeepEraseDone_calm (hs : Calm s₀ s) : Calms s₀ (execKeepEraseDone s) := (hs.mk' rfl rfl rfl rfl).calms

theorem execBattLow_calm {vbat : Nat} (hs : Calm s₀ s) : Calms s₀ (execBattLow vbat s) := by
  unfold execBattLow
  grind [raise_calm, alertCause_calm, Calm.mk', Calm.calms]

theorem execDomeAck_calm {value : Word} {live : BitVec 15} (hs : Calm s₀ s) : Calms s₀ (execDomeAck value live s) := by
  unfold execDomeAck
  grind [recordWerr_calm, newCanary_calm, Calm.mk', Calm.calms]

end Sys2Proof.Machine

/-! SUPPORT. The operations of PowerFam keep what they must. -/

namespace Sys2Proof.Machine
variable {s₀ s : State}

theorem State.setPwr_calm {p : Pwr} (hs : Calm s₀ s) : Calm s₀ (State.setPwr s p) := hs.mk' rfl rfl rfl rfl

theorem execDroop_calm {mv : Nat} (hs : Calm s₀ s) : Calms s₀ (execDroop mv s) :=
  .ite hs.calms (.ite ((lcAbort_calm (State.setPwr_calm hs)).calms) ((lcAbort_calm (raise_calm (State.setPwr_calm (State.setPwr_calm hs)))).calms))

theorem execDroopRecovery_calm {mv : Nat} (hs : Calm s₀ s) : Calms s₀ (execDroopRecovery mv s) := (Calm.ite (State.setPwr_calm hs) hs).calms

theorem execBrownout_kept {mv : Nat} (hs : Kept s₀ s) : Answers s₀ (execBrownout mv s) := by
  have h {p : Pwr} : Kept s₀ (lcAbort (s.setPwr p)) := hs.calm (lcAbort_calm (State.setPwr_calm (.refl s)))
  unfold execBrownout
  split
  · exact hs.answers
  · exact (Kept.ite (warmReset_kept h) h).answers

theorem enterStopping_calm (hs : Calm s₀ s) : Calm s₀ (enterStopping s) := alertCause_calm (raise_calm (State.setPwr_calm hs))

theorem thermalStep_calm {hot : ℤ} (hs : Calm s₀ s) : Calm s₀ (thermalStep s hot) :=
  .ite hs (.ite (enterStopping_calm hs) (.ite (alertCause_calm (raise_calm (State.setPwr_calm hs))) (.ite (State.setPwr_calm hs) hs)))

theorem execThermalReading_calm {temps : List (BitVec 8)} (hs : Calm s₀ s) : Calms s₀ (execThermalReading temps s) :=
  .ite hs.calms ((thermalStep_calm (State.setPwr_calm hs)).calms)

theorem execThrottleUpdate_calm (hs : Calm s₀ s) : Calms s₀ (execThrottleUpdate s) := (Calm.ite (State.setPwr_calm hs) hs).calms

theorem thermalOff_calm (hs : Calm s₀ s) : Calm s₀ (thermalOff s) := State.setPwr_calm (.ite (detachCheck_calm (State.setVault_calm hs)) hs)

theorem execThermalStopped_calm (hs : Calm s₀ s) : Calms s₀ (execThermalStopped s) := (Calm.ite (thermalOff_calm hs) hs).calms

theorem execThermalStopTimeout_calm (hs : Calm s₀ s) : Calms s₀ (execThermalStopTimeout s) := by
  have h {v : Vault} {l : List Group} : Calm s₀ (dropGroups (s.setVault v) l) := dropGroups_calm (State.setVault_calm hs)
  unfold execThermalStopTimeout
  split
  · exact hs.calms
  · exact (thermalOff_calm ((h.mk' rfl rfl rfl rfl).foldl fun _ _ => abortCall_calm)).calms

theorem startSpareTest_calm (hs : Calm s₀ s) : Calm s₀ (startSpareTest s) := hs.mk' rfl rfl rfl rfl

theorem startTest_calm {part : TestPart} (hs : Calm s₀ s) : Calm s₀ (startTest s part) := by
  unfold startTest
  grind [State.setTower_calm, modLane_calm, startSpareTest_calm]

theorem execSelfTestStart_calm {part : TestPart} (hs : Calm s₀ s) : Calms s₀ (execSelfTestStart part s) := (Calm.ite hs (startTest_calm hs)).calms

theorem suspectTests_calm (hs : Calm s₀ s) : Calm s₀ (suspectTests s) := .ite hs (hs.foldl fun _ _ => startTest_calm)

theorem execSpareTowerTest_calm (hs : Calm s₀ s) : Calms s₀ (execSpareTowerTest s) := (Calm.ite (startSpareTest_calm hs) hs).calms

theorem countTest_calm {pass : Bool} (hs : Calm s₀ s) : Calm s₀ (countTest s pass) := hs.mk' rfl rfl rfl rfl

theorem spareFails_calm {k : Nat} (hs : Calm s₀ s) : Calm s₀ (spareFails s k) := by
  unfold spareFails
  grind [raise_calm, degradeCheck_calm, noteRetire_calm, setRole_calm, Calm.mk']

theorem spareReadied_calm {k : Nat} (hs : Calm s₀ s) : Calm s₀ (spareReadied s k) := spareSettle_calm (hs.mk' rfl rfl rfl rfl)

theorem spareTested_calm {k : Nat} {pass : Bool} (hs : Calm s₀ s) : Calm s₀ (spareTested s k pass) := by
  unfold spareTested
  grind [countTest_calm, spareFails_calm, spareReadied_calm, Calm.mk']

theorem dropTest_calm {x1 : TestPart} (hs : Calm s₀ s) : Calm s₀ (dropTest s x1) := by
  unfold dropTest
  grind [State.setTower_calm, modLane_calm]

theorem execSelfTestDone_calm {part : TestPart} {pass : Bool} (hs : Calm s₀ s) : Calms s₀ (execSelfTestDone part pass s) := by
  have h : Calm s₀ { s with sup := { s.sup with owed := s.sup.owed.filter (· != part) } } := hs.mk' rfl rfl rfl rfl
  unfold execSelfTestDone
  dsimp only
  split
  · exact (dropTest_calm hs).calms
  refine Calm.calms ?_
  cases part with
  | lane t hash i =>
    dsimp only
    split
    · exact hs
    · have hm {f : Lane → Lane} := countTest_calm (pass := pass) (modLane_calm (t := t) (hash := hash) (i := i) (f := f) h)
      exact .ite hs (.ite (retireLane_calm hm) (.ite (degradeCheck_calm (enterSpare_calm hm)) hm))
  | spire t =>
    have hm {w : Tower} := countTest_calm (pass := pass) (State.setTower_calm (t := t) (x := w) h)
    exact .ite hs (.ite hm (retireSpire_calm hm))
  | spareTower t => exact .ite (spareTested_calm h) h

theorem execTowerDrained_calm {tower : Nat} (hs : Calm s₀ s) : Calms s₀ (execTowerDrained tower s) := by
  unfold execTowerDrained
  grind [degradeCheck_calm, noteRetire_calm, setRole_calm, startSpareTest_calm, Calm.calms]

theorem execSparingFuseBurn_kept {copyLost : Bool} (hs : Kept s₀ s) : Answers s₀ (execSparingFuseBurn copyLost s) := by
  unfold execSparingFuseBurn
  split
  · split
    · refine Kept.answers (hs.trans ⟨?_, rfl, fun i => ?_⟩)
      · exact ⟨⟨rfl, fun _ => BitVec.and_self⟩, ⟨rfl, fun _ => bytesKept_refl _⟩, bytesKept_refl _, ⟨_, rfl⟩, id, rfl, rfl, rfl⟩
      · exact ⟨i.host, i.heads, i.rows, i.policy, i.ready, i.loaded, i.violations, i.domeLog⟩
    · exact hs.answers
  · exact hs.answers

theorem lineError_calm {key : Nat} (hs : Calm s₀ s) : Calm s₀ (lineError s key) := by
  unfold lineError
  grind [putLine_calm, dropLines_calm, forgetKey_calm]

theorem leaveRow_calm {e : Nat × KeepLine} (hs : Calm s₀ s) : Calm s₀ (leaveRow s e) := by
  unfold leaveRow
  refine .ite (dropLines_calm hs) ?_
  split
  · next hr => exact installLine_calm (dropLines_calm hs) hr
  · exact dropLines_calm (lineError_calm hs)

theorem disableRow_calm {row : Nat} (hs : Calm s₀ s) : Calm s₀ (disableRow s row) := by
  unfold disableRow
  grind [noteRetire_calm, leaveRow_calm, Calm.mk', Calm.foldl]

theorem repairRow_calm {row : Nat} (hs : Calm s₀ s) : Calm s₀ (repairRow s row) :=
  .ite (noteRetire_calm ((hs.mk' rfl rfl rfl rfl).mk' rfl rfl rfl rfl)) (disableRow_calm (hs.mk' rfl rfl rfl rfl))

theorem lockRow_calm {row : Nat} (hs : Calm s₀ s) : Calm s₀ (lockRow s row) :=
  .ite (.ite hs (hs.mk' rfl rfl rfl rfl)) (degradeCheck_calm (repairRow_calm (hs.mk' rfl rfl rfl rfl)))

theorem settleRows_calm (hs : Calm s₀ s) : Calm s₀ (settleRows s) := hs.foldl fun _ _ => lockRow_calm

theorem execKeepRowRepair_calm {row : Nat} {uncorrectable : Bool} {line : Option Nat} (hs : Calm s₀ s) :
    Calms s₀ (execKeepRowRepair row uncorrectable line s) := by
  unfold execKeepRowRepair
  grind [countUncorr_calm, lineError_calm, lockRow_calm, Calm.mk', Calm.calms]

theorem cardPulled_calm {port : Nat} (hs : Calm s₀ s) : Calm s₀ (cardPulled s port) := by
  unfold cardPulled
  grind [setActive_calm, authEnd_calm]

theorem inputChanged_calm {i : Nat} {low : Bool} (hs : Calm s₀ s) : Calm s₀ (inputChanged s i low) :=
  .ite (.ite (alertCause_calm (raise_calm hs)) (raise_calm hs)) (.ite (raise_calm hs) (raise_calm hs))

theorem sampleInput_calm {i : Nat} {low : Bool} (hs : Calm s₀ s) : Calm s₀ (sampleInput s i low) := by
  unfold sampleInput
  grind [cardPulled_calm, inputChanged_calm, Calm.mk']

theorem execInputSample_calm {levels : BitVec 4} (hs : Calm s₀ s) : Calms s₀ (execInputSample levels s) :=
  .ite hs.calms ((hs.foldl fun _ _ h => .ite h (sampleInput_calm h)).calms)

theorem blockRead_calm {code : Nat} {b : Bytes} (hs : Calm s₀ s) : Calm s₀ (blockRead s code b) := .ite hs (hs.mk' rfl rfl rfl rfl)

theorem smbNack_calm (hs : Calm s₀ s) : Calm s₀ (smbNack s) := .ite hs (hs.mk' rfl rfl rfl rfl)

theorem smbTransfer_calm {code : Nat} {extra : Bytes} (hs : Calm s₀ s) : Calm s₀ (smbTransfer s code extra) := by
  unfold smbTransfer
  grind [blockRead_calm, smbNack_calm, Calm.mk']

theorem execSmbTemps_calm (hs : Calm s₀ s) : Calms s₀ (execSmbTemps s) := (smbTransfer_calm hs).calms

theorem execSmbVolts_calm (hs : Calm s₀ s) : Calms s₀ (execSmbVolts s) := (smbTransfer_calm hs).calms

theorem execSmbIdent_calm (hs : Calm s₀ s) : Calms s₀ (execSmbIdent s) := (smbTransfer_calm hs).calms

theorem execSmbCounts_calm (hs : Calm s₀ s) : Calms s₀ (execSmbCounts s) := (smbTransfer_calm hs).calms

theorem execSmbAlert_calm (hs : Calm s₀ s) : Calms s₀ (execSmbAlert s) := (smbTransfer_calm hs).calms

theorem execSmbStatus_calm {code : optParam Nat 1} {extra : optParam Bytes []} (hs : Calm s₀ s) : Calms s₀ (execSmbStatus s code extra) :=
  (smbTransfer_calm hs).calms

theorem execSmbAlertResponse_calm (hs : Calm s₀ s) : Calms s₀ (execSmbAlertResponse s) := (Calm.ite hs (hs.mk' rfl rfl rfl rfl)).calms

end Sys2Proof.Machine

/-! SUPPORT. The operations of Pages keep what they must. -/

namespace Sys2Proof.Machine
variable {s₀ s : State}

theorem setLatch_calm {fn a : Nat} {l : Option (Nat × Word)} (hs : Calm s₀ s) : Calm s₀ (setLatch s fn a l) :=
  .ite (State.setHead_calm hs) (State.setTf_calm hs)

theorem putRead_calm {v : Nat} (hs : Calm s₀ s) : Calm s₀ (putRead s v) := hs.mk' rfl rfl rfl rfl

theorem portRead_calm {fn a width : Nat} (hs : Calm s₀ s) : Calm s₀ (portRead s fn a width) := by
  unfold portRead
  grind [setLatch_calm, putRead_calm]

theorem mfIngress_calm {write : Bool} {a : Nat} (hs : Calm s₀ s) : Calm s₀ (mfIngress s write a).1 := by
  unfold mfIngress
  grind [intCheck_calm]

theorem regRead_calm {fn a width : Nat} (hs : Calm s₀ s) : Calm s₀ (regRead s fn a width) := by
  unfold regRead
  grind [putRead_calm, portRead_calm, mfIngress_calm]

theorem execLowHalfRead_calm {fn off width : Nat} (hs : Calm s₀ s) : Calms s₀ (execLowHalfRead fn off width s) := (regRead_calm hs).calms

end Sys2Proof.Machine

/-! SUPPORT. The operations of Registers keep what they must. -/

namespace Sys2Proof.Machine
variable {s₀ s : State}

theorem stOf_calm {o : Out} (ho : Calms s₀ o) : Calm s₀ (stOf s o) := by
  obtain ⟨t, rfl, h⟩ := ho
  exact h

theorem eq_of_unlessLocked {α : Type} [DecidableEq α] {p group : Nat} {old new : α} {f s₁ : State} (hr : unlessLocked s p group old new f = some s₁) :
    s₁ = f := by
  grind [unlessLocked]

theorem writeHead_calm {p off v : Nat} (hs : Calm s₀ s) : Calm s₀ (writeHead s p off v) := by
  unfold writeHead
  grind [putHead_calm, Calm.mk']

theorem release_calm {fn v : Nat} (hs : Calm s₀ s) : Calm s₀ (release s fn v) := .ite hs ((State.setMsix_calm hs).mk' rfl rfl rfl rfl)

theorem writeMsix_calm {fn w v : Nat} (hs : Calm s₀ s) : Calm s₀ (writeMsix s fn w v) := release_calm (State.setMsix_calm hs)

theorem setMrrs_calm {v : Nat} (hs : Calm s₀ s) : Calm s₀ (setMrrs s v) := .ite (hs.mk' rfl rfl rfl rfl) hs

theorem writeMsixCfg_calm {fn a v : Nat} (hs : Calm s₀ s) : Calm s₀ (writeMsixCfg s fn a v) :=
  .ite ((State.setMsix_calm hs).foldl fun _ _ => release_calm) (.ite (setMrrs_calm hs) (.ite (writeMsix_calm hs) hs))

theorem writeDev_kept {off v : Nat} {s₁ : State} (hs : Kept s₀ s) (hr : writeDev s off v = some s₁) : Kept s₀ s₁ := by
  unfold writeDev at hr
  split at hr
  · exact Option.some.inj hr ▸ .ite (.ite (warmReset_kept hs) hs) hs
  · exact eq_of_unlessLocked hr ▸ hs.calm ((Calm.refl _).mk' rfl rfl rfl rfl)
  · exact Option.some.inj hr ▸ hs

theorem violPop_calm {v : Nat} (hs : Calm s₀ s) : Calm s₀ (violPop s v) := by
  refine .ite (hs.trans ⟨rfl, rfl, rfl, rfl, rfl, id, id, fun h => ?_⟩) hs
  simp only [List.length_drop]
  omega

theorem ctxUnfreeze_calm {v : Nat} {s₁ : State} (hs : Calm s₀ s) (hr : ctxUnfreeze s v = some s₁) : Calm s₀ s₁ := by
  unfold ctxUnfreeze at hr
  grind [State.setCtx_calm]

theorem writeSup_calm {off v : Nat} {s₁ : State} (hs : Calm s₀ s) (hr : writeSup s off v = some s₁) : Calm s₀ s₁ := by
  unfold writeSup at hr
  grind [eq_of_unlessLocked, violPop_calm, ctxUnfreeze_calm, Calm.mk']

theorem writePwr_calm {off v : Nat} {s₁ : State} (hs : Calm s₀ s) (hr : writePwr s off v = some s₁) : Calm s₀ s₁ := by
  unfold writePwr at hr
  grind [Calm.mk']

theorem writeLcs_calm {off v : Nat} {s₁ : State} (hs : Calm s₀ s) (hr : writeLcs s off v = some s₁) : Calm s₀ s₁ := by
  unfold writeLcs at hr
  grind [execLcsRequest_calm, execLcsExecute_calm, stOf_calm, Calm.mk']

theorem writeDome_calm {off v : Nat} {s₁ : State} (hs : Calm s₀ s) (hr : writeDome s off v = some s₁) : Calm s₀ s₁ := by
  unfold writeDome at hr
  grind [execDomeAck_calm, stOf_calm, eq_of_unlessLocked, Calm.mk']

theorem writeFuse_kept {off v : Nat} {s₁ : State} (hs : Kept s₀ s) (hr : writeFuse s off v = some s₁) : Kept s₀ s₁ := by
  unfold writeFuse at hr
  split at hr
  · split at hr
    · exact absurd hr (Option.some_ne_none _).symm
    · exact Option.some.inj hr ▸ hs.fuses ⟨⟨rfl, fun _ => BitVec.and_self⟩, ⟨rfl, fun _ => bytesKept_refl _⟩, bytesKept_refl _,
        ⟨[], (List.append_nil _).symm⟩, id, rfl, rfl, rfl⟩ rfl
  · exact Option.some.inj hr ▸ hs

theorem writeCurves_calm {off v : Nat} {s₁ : State} (hs : Calm s₀ s) (hr : writeCurves s off v = some s₁) : Calm s₀ s₁ := by
  unfold writeCurves at hr
  grind [Calm.mk']

theorem srcWrite_calm {v : BitVec 4} (hs : Calm s₀ s) : Calm s₀ (srcWrite s v) := hs.mk' rfl rfl rfl rfl

theorem writeTime_calm {off v : Nat} {s₁ : State} (hs : Calm s₀ s) (hr : writeTime s off v = some s₁) : Calm s₀ s₁ := by
  unfold writeTime at hr
  grind [State.setTime_calm, execTimeSet_calm, stOf_calm, eq_of_unlessLocked, srcWrite_calm]

theorem portEnable_calm {down on : Bool} (hs : Calm s₀ s) : Calm s₀ (portEnable s down on) :=
  .ite hs (.ite (.ite (setPort_calm (State.setReel_calm hs)) (State.setReel_calm hs)) (State.setReel_calm (linkDown_calm hs)))

theorem writeReel_calm {off v : Nat} {s₁ : State} (hs : Calm s₀ s) (hr : writeReel s off v = some s₁) : Calm s₀ s₁ := by
  unfold writeReel at hr
  grind [execReelCtrlPromenade_calm, stOf_calm, portEnable_calm]

theorem writeRng_calm {off v : Nat} {s₁ : State} (hs : Calm s₀ s) (hr : writeRng s off v = some s₁) : Calm s₀ s₁ := by
  unfold writeRng at hr
  grind [Calm.mk']

theorem eq_of_tariffWrite {α : Type} [DecidableEq α] {old new : α} {f s₁ : State} (hr : tariffWrite s old new f = some s₁) : s₁ = f := by
  grind [tariffWrite, eq_of_unlessLocked]

theorem writeMtr_calm {off v : Nat} {s₁ : State} (hs : Calm s₀ s) (hr : writeMtr s off v = some s₁) : Calm s₀ s₁ := by
  unfold writeMtr at hr
  grind [State.putLedger_calm, execTariffArm_calm, execTariffCancel_calm, stOf_calm, eq_of_unlessLocked, eq_of_tariffWrite, Calm.mk']

theorem setArbiter_calm {a : Nat} {x : Arbiter} (hs : Calm s₀ s) : Calm s₀ (setArbiter s a x) := hs.mk' rfl rfl rfl rfl

theorem writeArb_calm {off v : Nat} {s₁ : State} (hs : Calm s₀ s) (hr : writeArb s off v = some s₁) : Calm s₀ s₁ := by
  unfold writeArb at hr
  grind [eq_of_unlessLocked, setArbiter_calm]

theorem writeCaller_calm {off v : Nat} {s₁ : State} (hs : Calm s₀ s) (hr : writeCaller s off v = some s₁) : Calm s₀ s₁ := by
  unfold writeCaller at hr
  grind [eq_of_unlessLocked, Calm.mk']

theorem writeKeep_calm {off v : Nat} {s₁ : State} (hs : Calm s₀ s) (hr : writeKeep s off v = some s₁) : Calm s₀ s₁ := by
  unfold writeKeep at hr
  grind [eq_of_unlessLocked, Calm.mk']

theorem winWrite_calm {w : Nat × Nat} {s₁ : State} (hs : Calm s₀ s) (hr : winWrite s w = some s₁) : Calm s₀ s₁ := by
  unfold winWrite at hr
  grind [eq_of_unlessLocked, Calm.mk']

theorem vaultCtrl_calm {v : Nat} {s₁ : State} (hs : Calm s₀ s) (hr : vaultCtrl s v = some s₁) : Calm s₀ s₁ := by
  unfold vaultCtrl at hr
  grind [execVaultCreate_calm, execVaultAttach_calm, execVaultDetach_calm, stOf_calm]

theorem writeVault_calm {off v : Nat} {s₁ : State} (hs : Calm s₀ s) (hr : writeVault s off v = some s₁) : Calm s₀ s₁ := by
  unfold writeVault at hr
  grind [eq_of_unlessLocked, winWrite_calm, vaultCtrl_calm, Calm.mk']

theorem writeAcu_calm {off v : Nat} {s₁ : State} (hs : Calm s₀ s) (hr : writeAcu s off v = some s₁) : Calm s₀ s₁ := by
  unfold writeAcu at hr
  grind [Calm.mk', Option.map_eq_some_iff, Option.bind_eq_some_iff]

theorem writeAcuHost_calm {o v : Nat} {s₁ : State} (hs : Calm s₀ s) (hr : writeAcuHost s o v = some s₁) : Calm s₀ s₁ := by
  unfold writeAcuHost at hr
  grind [Calm.mk', Option.map_eq_some_iff, Option.bind_eq_some_iff]

theorem writeQp_calm {fn q off v : Nat} {s₁ : State} (hs : Calm s₀ s) (hr : writeQp s fn q off v = some s₁) : Calm s₀ s₁ := by
  unfold writeQp at hr
  grind [State.setQp_calm, qpCtrlWrite_calm, Option.map_eq_some_iff, Option.bind_eq_some_iff]

theorem writeDoorbell_calm {fn o v : Nat} (hs : Calm s₀ s) : Calm s₀ (writeDoorbell s fn o v) := by
  unfold writeDoorbell
  grind [execQpSqTailDb_calm, execQpCqHeadDb_calm, stOf_calm]

theorem tfCtrlWrite_calm {v : Nat} {s₁ : State} (hs : Calm s₀ s) (hr : tfCtrlWrite s v = some s₁) : Calm s₀ s₁ := by
  unfold tfCtrlWrite at hr
  grind [State.setTf_calm, execTfStop_calm, execTfStopClear_calm, resetTf_calm, stOf_calm]

theorem dirtyWrite_calm {f : Tf → Tf} {s₁ : State} (hs : Calm s₀ s) (hr : dirtyWrite s f = some s₁) : Calm s₀ s₁ := by
  unfold dirtyWrite at hr
  grind [State.setTf_calm]

theorem writeSelTf_calm {off v : Nat} {s₁ : State} (hs : Calm s₀ s) (hr : writeSelTf s off v = some s₁) : Calm s₀ s₁ := by
  unfold writeSelTf at hr
  grind [State.setTf_calm, execDirtyHarvest_calm, stOf_calm, tfCtrlWrite_calm, dirtyWrite_calm]

theorem writeHif_calm {off v : Nat} {s₁ : State} (hs : Calm s₀ s) (hr : writeHif s off v = some s₁) : Calm s₀ s₁ := by
  unfold writeHif at hr
  grind [writeQp_calm, writeDoorbell_calm, writeSelTf_calm, Calm.mk']

theorem writeQctx_calm {off v : Nat} {s₁ : State} (hs : Calm s₀ s) (hr : writeQctx s off v = some s₁) : Calm s₀ s₁ := by
  unfold writeQctx at hr
  grind [qctxCommand_calm, Calm.mk']

theorem writeReelMbox_calm {o v : Nat} (hs : Calm s₀ s) : Calm s₀ (writeReelMbox s o v) := .ite (State.setReel_calm hs) hs

theorem writeMboxChan_calm {o v : Nat} (hs : Calm s₀ s) : Calm s₀ (writeMboxChan s o v) := by
  unfold writeMboxChan
  grind [State.setTf_calm, execChFromMf_calm, stOf_calm]

theorem writeArray_calm {a v : Nat} {s₁ : State} (hs : Calm s₀ s) (hr : writeArray s a v = some s₁) : Calm s₀ s₁ := by
  unfold writeArray at hr
  grind [writeAcuHost_calm, writeReelMbox_calm, writeMboxChan_calm]

theorem writeBlock_kept {p off v : Nat} {s₁ : State} (hs : Kept s₀ s) (hr : writeBlock s p off v = some s₁) : Kept s₀ s₁ := by
  have hc := Calm.refl s
  unfold writeBlock at hr
  split at hr
  · exact Option.some.inj hr ▸ hs.calm (writeHead_calm hc)
  split at hr
  · exact writeDev_kept hs hr
  · exact hs.calm (writeSup_calm hc hr)
  · exact hs.calm (writePwr_calm hc hr)
  · exact hs.calm (writeLcs_calm hc hr)
  · exact hs.calm (writeDome_calm hc hr)
  · exact hs.calm (writeRng_calm hc hr)
  · exact hs.calm (writeTime_calm hc hr)
  · exact hs.calm (writeMtr_calm hc hr)
  · exact hs.calm (writeArb_calm hc hr)
  · exact hs.calm (writeCaller_calm hc hr)
  · exact hs.calm (writeKeep_calm hc hr)
  · exact hs.calm (writeVault_calm hc hr)
  · exact hs.calm (writeAcu_calm hc hr)
  · exact hs.calm (writeHif_calm hc hr)
  · exact hs.calm (writeQctx_calm hc hr)
  · exact hs.calm (writeReel_calm hc hr)
  · exact writeFuse_kept hs hr
  · exact hs.calm (writeCurves_calm hc hr)
  · exact Option.some.inj hr ▸ hs

theorem writeMf_kept {a v : Nat} {s₁ : State} (hs : Kept s₀ s) (hr : writeMf s a v = some s₁) : Kept s₀ s₁ := by
  unfold writeMf at hr
  split at hr
  · exact writeBlock_kept hs hr
  · exact hs.calm (writeArray_calm (.refl s) hr)

theorem accessWrite_induct {P : State → Prop} {wr : State → Nat → Nat → Option State} {fn a width v : Nat} {s₁ : State}
    (hw : ∀ a b o x, P a → wr a o x = some b → P b) (hs : P s) (hr : accessWrite wr s fn a width v = some s₁) : P s₁ := by
  unfold accessWrite at hr
  split at hr
  · exact hw _ _ _ _ hs hr
  split at hr
  · obtain ⟨b, hb, hr⟩ := Option.bind_eq_some_iff.1 hr
    exact hw _ _ _ _ (hw _ _ _ _ hs hb) hr
  · exact absurd hr (Option.some_ne_none _).symm

theorem mfPortWrite_kept {a width v : Nat} (hs : Kept s₀ s) : Kept s₀ (mfPortWrite s a width v) := by
  unfold mfPortWrite
  refine .ite hs ?_
  split
  · next hr => exact accessWrite_induct (fun _ _ _ _ => writeMf_kept) hs hr
  split
  · exact hs.calm (recordWerr_calm (.refl s))
  · exact hs

theorem mfWrite_kept {a width v : Nat} (hs : Kept s₀ s) : Kept s₀ (mfWrite s a width v) :=
  .ite (mfPortWrite_kept hs) (hs.calm (mfIngress_calm (.refl s)))

theorem writeTfDword_calm {n a v : Nat} {s₁ : State} (hs : Calm s₀ s) (hr : writeTfDword n s a v = some s₁) : Calm s₀ s₁ := by
  unfold writeTfDword at hr
  grind [State.setTf_calm, execMboxToMf_calm, stOf_calm, writeMsix_calm, writeQp_calm, writeDoorbell_calm]

theorem tfWrite_calm {n a width v : Nat} (hs : Calm s₀ s) : Calm s₀ (tfWrite s n a width v) := by
  unfold tfWrite
  refine .ite hs ?_
  split
  · next hr => exact accessWrite_induct (fun _ _ _ _ => writeTfDword_calm) hs hr
  · exact recordTfWerr_calm hs

theorem regWrite_kept {fn a width v : Nat} (hs : Kept s₀ s) : Kept s₀ (regWrite s fn a width v) :=
  .ite (.ite (mfPortWrite_kept hs) hs) (.ite hs (.ite (.ite (hs.calm (writeMsixCfg_calm (.refl s))) hs)
    (.ite (mfWrite_kept hs) (hs.calm (tfWrite_calm (.refl s))))))

theorem execRegisterWrite_kept {fn off width value : Nat} (hs : Kept s₀ s) : Answers s₀ (execRegisterWrite fn off width value s) :=
  (regWrite_kept hs).answers

theorem execAcuEntryWrite_kept {off width value : Nat} (hs : Kept s₀ s) : Answers s₀ (execAcuEntryWrite off width value s) :=
  (Kept.ite (regWrite_kept hs) hs).answers

theorem headWrite_kept {p off : Nat} {v : Word} (hs : Kept s₀ s) : Kept s₀ (headWrite s p off v) := .ite (mfWrite_kept hs) hs

theorem execBlkShadowCommit_kept {page : Nat} {value : Word} (hs : Kept s₀ s) : Answers s₀ (execBlkShadowCommit page value s) :=
  (headWrite_kept hs).answers

theorem execBlkIrqTest_kept {page : Nat} {value : Word} (hs : Kept s₀ s) : Answers s₀ (execBlkIrqTest page value s) :=
  (headWrite_kept hs).answers

theorem execBlkLock_kept {page : Nat} {value : Word} (hs : Kept s₀ s) : Answers s₀ (execBlkLock page value s) :=
  (headWrite_kept hs).answers

theorem execSupCtxUnfreeze_kept {value : Word} (hs : Kept s₀ s) : Answers s₀ (execSupCtxUnfreeze value s) := (mfWrite_kept hs).answers

theorem execSupViolPop_kept {value : Word} (hs : Kept s₀ s) : Answers s₀ (execSupViolPop value s) := (mfWrite_kept hs).answers

theorem execArbCommit_calm (hs : Calm s₀ s) : Calms s₀ (execArbCommit s) := (commitArb_calm hs).calms

theorem commitRooms_calm (hs : Calm s₀ s) : Calm s₀ (commitRooms s) := by
  unfold commitRooms
  grind [raise_calm, dropLines_calm, Calm.mk', Calm.foldl]

theorem commitTc_calm (hs : Calm s₀ s) : Calm s₀ (commitTc s) := (tcDrop_calm hs).mk' rfl rfl rfl rfl

theorem execKeepMapCommit_calm (hs : Calm s₀ s) : Calms s₀ (execKeepMapCommit s) := by
  unfold execKeepMapCommit
  grind [raise_calm, shadowDone_calm, commitRooms_calm, commitTc_calm, Calm.calms]

end Sys2Proof.Machine

/-! SUPPORT. Every command is answered, and keeps what it must. -/

namespace Sys2Proof.Machine
theorem exec_kept (i : Instr) (s : State) : Answers s (exec i s) := by
  cases i with
  | qpSqTailDb => exact (execQpSqTailDb_calm (.refl s)).answers
  | qpCqHeadDb => exact (execQpCqHeadDb_calm (.refl s)).answers
  | qpEnable => exact (execQpEnable_calm (.refl s)).answers
  | queueReset => exact (execQueueReset_calm (.refl s)).answers
  | heldQueueReset => exact (execHeldQueueReset_calm (.refl s)).answers
  | descFetch => exact (execDescFetch_calm (.refl s)).answers
  | descReadDone => exact (execDescReadDone_calm (.refl s)).answers
  | admission => exact (execAdmission_calm (.refl s)).answers
  | dispatch => exact (execDispatch_calm (.refl s)).answers
  | vaultFill => exact (execVaultFill_calm (.refl s)).answers
  | keepGrant => exact (execKeepGrant_calm (.refl s)).answers
  | grantRevoke => exact (execGrantRevoke_calm (.refl s)).answers
  | laneGrant => exact (execLaneGrant_calm (.refl s)).answers
  | laneSave => exact (execLaneSave_calm (.refl s)).answers
  | spireGrant => exact (execSpireGrant_calm (.refl s)).answers
  | spireSwitch => exact (execSpireSwitch_calm (.refl s)).answers
  | dmaGrant => exact (execDmaGrant_calm (.refl s)).answers
  | listRead => exact (execListRead_calm (.refl s)).answers
  | blobRead => exact (execBlobRead_calm (.refl s)).answers
  | chunkRead => exact (execChunkRead_calm (.refl s)).answers
  | drbgDraw => exact (execDrbgDraw_calm (.refl s)).answers
  | completionWrite => exact (execCompletionWrite_calm (.refl s)).answers
  | coalTimerExpiry => exact (execCoalTimerExpiry_calm (.refl s)).answers
  | stallBreak => exact (execStallBreak_calm (.refl s)).answers
  | keepRowRepair => exact (execKeepRowRepair_calm (.refl s)).answers
  | echo => exact (execEcho_calm (.refl s)).answers
  | jobSuspend => exact (execJobSuspend_calm (.refl s)).answers
  | jobSuspension => exact (execJobSuspension_calm (.refl s)).answers
  | jobResume => exact (execJobResume_calm (.refl s)).answers
  | jobCancel => exact (execJobCancel_calm (.refl s)).answers
  | jobCancellation => exact (execJobCancellation_calm (.refl s)).answers
  | jobQuery => exact (execJobQuery_calm (.refl s)).answers
  | pinTranslate => exact (execPinTranslate_calm (.refl s)).answers
  | pinVerifyOffset => exact (execPinVerifyOffset_calm (.refl s)).answers
  | pinVerifyPvv => exact (execPinVerifyPvv_calm (.refl s)).answers
  | pinGenerateOffset => exact (execPinGenerateOffset_calm (.refl s)).answers
  | pinGeneratePvv => exact (execPinGeneratePvv_calm (.refl s)).answers
  | pinChange => exact (execPinChange_calm (.refl s)).answers
  | pinFromDukpt => exact (execPinFromDukpt_calm (.refl s)).answers
  | dukptDeriveInitial => exact (execDukptDeriveInitial_calm (.refl s)).answers
  | dukptDataDecrypt => exact (execDukptDataDecrypt_calm (.refl s)).answers
  | dukptMacVerify => exact (execDukptMacVerify_calm (.refl s)).answers
  | cvvGenerate => exact (execCvvGenerate_calm (.refl s)).answers
  | cvvVerify => exact (execCvvVerify_calm (.refl s)).answers
  | dcvvVerify => exact (execDcvvVerify_calm (.refl s)).answers
  | arqcVerify => exact (execArqcVerify_calm (.refl s)).answers
  | scriptMac => exact (execScriptMac_calm (.refl s)).answers
  | macGenerate => exact (execMacGenerate_calm (.refl s)).answers
  | macVerify => exact (execMacVerify_calm (.refl s)).answers
  | dataEncrypt => exact (execDataEncrypt_calm (.refl s)).answers
  | dataDecrypt => exact (execDataDecrypt_calm (.refl s)).answers
  | dataTranslate => exact (execDataTranslate_calm (.refl s)).answers
  | tokenize => exact (execTokenize_calm (.refl s)).answers
  | detokenize => exact (execDetokenize_calm (.refl s)).answers
  | tokenRetire => exact (execTokenRetire_calm (.refl s)).answers
  | keyGenerate => exact (execKeyGenerate_calm (.refl s)).answers
  | keyImportBlock => exact (execKeyImportBlock_calm (.refl s)).answers
  | keyExportBlock => exact (execKeyExportBlock_calm (.refl s)).answers
  | keyDerive => exact (execKeyDerive_calm (.refl s)).answers
  | keyDestroy => exact (execKeyDestroy_calm (.refl s)).answers
  | keyAttributes => exact (execKeyAttributes_calm (.refl s)).answers
  | keyImportPk => exact (execKeyImportPk_calm (.refl s)).answers
  | bindingRecordImport => exact (execBindingRecordImport_calm (.refl s)).answers
  | partitionUnbind => exact (execPartitionUnbind_calm (.refl s)).answers
  | keyCheckValue => exact (execKeyCheckValue_calm (.refl s)).answers
  | keyRotateSchedule => exact (execKeyRotateSchedule_calm (.refl s)).answers
  | rotateCancel => exact (execRotateCancel_calm (.refl s)).answers
  | pkSign => exact (execPkSign_calm (.refl s)).answers
  | pkVerify => exact (execPkVerify_calm (.refl s)).answers
  | pkDecrypt => exact (execPkDecrypt_calm (.refl s)).answers
  | pkAgree => exact (execPkAgree_calm (.refl s)).answers
  | pkKeygen => exact (execPkKeygen_calm (.refl s)).answers
  | pqKemDecaps => exact (execPqKemDecaps_calm (.refl s)).answers
  | pqSign => exact (execPqSign_calm (.refl s)).answers
  | pqVerify => exact (execPqVerify_calm (.refl s)).answers
  | curveLoad => exact (execCurveLoad_calm (.refl s)).answers
  | randomCall => exact (execRandomCall_calm (.refl s)).answers
  | vaultRekey => exact (execVaultRekey_calm (.refl s)).answers
  | vaultScrub => exact (execVaultScrub_calm (.refl s)).answers
  | vaultSealRoot => exact (execVaultSealRoot_calm (.refl s)).answers
  | vaultSealRelease => exact (execVaultSealRelease_calm (.refl s)).answers
  | vaultAdopt => exact (execVaultAdopt_calm (.refl s)).answers
  | partitionHandoff => exact (execPartitionHandoff_calm (.refl s)).answers
  | attest => exact (execAttest_calm (.refl s)).answers
  | tallyStatement => exact (execTallyStatement_calm (.refl s)).answers
  | ceremonyOpen => exact (execCeremonyOpen_calm (.refl s)).answers
  | tableLoad => exact (execTableLoad_calm (.refl s)).answers
  | custodianAuth => exact (execCustodianAuth_calm (.refl s)).answers
  | cardResponse => exact (execCardResponse_calm (.refl s)).answers
  | cardTimeout => exact (execCardTimeout_calm (.refl s)).answers
  | dmkLoad => exact (execDmkLoad_calm (.refl s)).answers
  | dmkPromote => exact (execDmkPromote_calm (.refl s)).answers
  | partitionCreate => exact (execPartitionCreate_calm (.refl s)).answers
  | partitionDelete => exact (execPartitionDelete_calm (.refl s)).answers
  | commission => exact (execCommission_calm (.refl s)).answers
  | recommission => exact (execRecommission_calm (.refl s)).answers
  | returnCer => exact (execReturnCer_calm (.refl s)).answers
  | scrap => exact (execScrap_calm (.refl s)).answers
  | ceremonyAbort => exact (execCeremonyAbort_calm (.refl s)).answers
  | ceremonyWindowExpiry => exact (execCeremonyWindowExpiry_calm (.refl s)).answers
  | lifecycleTransition => exact execLifecycleTransition_kept (.refl s)
  | lcsRequest => exact (execLcsRequest_calm (.refl s)).answers
  | lcsExecute => exact (execLcsExecute_calm (.refl s)).answers
  | reelCloneDomain => exact (execReelCloneDomain_calm (.refl s)).answers
  | reelSend => exact (execReelSend_calm (.refl s)).answers
  | reelSnapshot => exact (execReelSnapshot_calm (.refl s)).answers
  | batchClose => exact (execBatchClose_calm (.refl s)).answers
  | journalWritten => exact (execJournalWritten_calm (.refl s)).answers
  | homeApplied => exact (execHomeApplied_calm (.refl s)).answers
  | applyRetry => exact (execApplyRetry_calm (.refl s)).answers
  | pageLock => exact (execPageLock_calm (.refl s)).answers
  | vaultCreate => exact (execVaultCreate_calm (.refl s)).answers
  | vaultAttach => exact (execVaultAttach_calm (.refl s)).answers
  | vaultDetach => exact (execVaultDetach_calm (.refl s)).answers
  | keepMapCommit => exact (execKeepMapCommit_calm (.refl s)).answers
  | arbCommit => exact (execArbCommit_calm (.refl s)).answers
  | blkShadowCommit => exact execBlkShadowCommit_kept (.refl s)
  | blkIrqTest => exact execBlkIrqTest_kept (.refl s)
  | blkLock => exact execBlkLock_kept (.refl s)
  | lowHalfRead => exact (execLowHalfRead_calm (.refl s)).answers
  | registerWrite => exact execRegisterWrite_kept (.refl s)
  | acuEntryWrite => exact execAcuEntryWrite_kept (.refl s)
  | mboxToMf => exact (execMboxToMf_calm (.refl s)).answers
  | chFromMf => exact (execChFromMf_calm (.refl s)).answers
  | tfStop => exact (execTfStop_calm (.refl s)).answers
  | tfStopClear => exact (execTfStopClear_calm (.refl s)).answers
  | tfQuiesced => exact (execTfQuiesced_calm (.refl s)).answers
  | tfReset => exact (execTfReset_calm (.refl s)).answers
  | tfResetDone => exact (execTfResetDone_calm (.refl s)).answers
  | tfCease => exact (execTfCease_calm (.refl s)).answers
  | dirtyHarvest => exact (execDirtyHarvest_calm (.refl s)).answers
  | harvestDone => exact (execHarvestDone_calm (.refl s)).answers
  | qctxSave => exact (execQctxSave_calm (.refl s)).answers
  | qctxRestore => exact (execQctxRestore_calm (.refl s)).answers
  | linkChange => exact (execLinkChange_calm (.refl s)).answers
  | mfFlr => exact execMfFlr_kept (.refl s)
  | warmReset => exact execWarmReset_kept (.refl s)
  | coldReset pw cut => exact @execColdReset_kept s s pw cut (.refl s)
  | strapSample => exact execStrapSample_kept (.refl s)
  | fuseLoad => exact execFuseLoad_kept (.refl s)
  | deviceReady => exact execDeviceReady_kept (.refl s)
  | domePowerUp => exact execDomePowerUp_kept (.refl s)
  | tamperEvent => exact execTamperEvent_kept (.refl s)
  | tamperToggle => exact (execTamperToggle_calm (.refl s)).answers
  | eraseDone => exact (execEraseDone_calm (.refl s)).answers
  | keepEraseDone => exact (execKeepEraseDone_calm (.refl s)).answers
  | battLow => exact (execBattLow_calm (.refl s)).answers
  | domeAck => exact (execDomeAck_calm (.refl s)).answers
  | droop => exact (execDroop_calm (.refl s)).answers
  | droopRecovery => exact (execDroopRecovery_calm (.refl s)).answers
  | brownout => exact execBrownout_kept (.refl s)
  | thermalReading => exact (execThermalReading_calm (.refl s)).answers
  | throttleUpdate => exact (execThrottleUpdate_calm (.refl s)).answers
  | thermalStopped => exact (execThermalStopped_calm (.refl s)).answers
  | thermalStopTimeout => exact (execThermalStopTimeout_calm (.refl s)).answers
  | selfTestStart => exact (execSelfTestStart_calm (.refl s)).answers
  | selfTestDone => exact (execSelfTestDone_calm (.refl s)).answers
  | spareTowerTest => exact (execSpareTowerTest_calm (.refl s)).answers
  | towerDrained => exact (execTowerDrained_calm (.refl s)).answers
  | sparingFuseBurn => exact execSparingFuseBurn_kept (.refl s)
  | noiseWindow => exact (execNoiseWindow_calm (.refl s)).answers
  | seedReady => exact (execSeedReady_calm (.refl s)).answers
  | drbgInstantiate => exact (execDrbgInstantiate_calm (.refl s)).answers
  | drbgReseed => exact (execDrbgReseed_calm (.refl s)).answers
  | drbgGenerate => exact (execDrbgGenerate_calm (.refl s)).answers
  | drbgRequestDone => exact (execDrbgRequestDone_calm (.refl s)).answers
  | supCtxUnfreeze => exact execSupCtxUnfreeze_kept (.refl s)
  | supViolPop => exact execSupViolPop_kept (.refl s)
  | tariffArm => exact (execTariffArm_calm (.refl s)).answers
  | tariffCancel => exact (execTariffCancel_calm (.refl s)).answers
  | tariffSwitch => exact (execTariffSwitch_calm (.refl s)).answers
  | intervalClose => exact (execIntervalClose_calm (.refl s)).answers
  | snapBankSwap => exact (execSnapBankSwap_calm (.refl s)).answers
  | reelCtrlPromenade => exact (execReelCtrlPromenade_calm (.refl s)).answers
  | promenade => exact (execPromenade_calm (.refl s)).answers
  | promenadeEnd => exact (execPromenadeEnd_calm (.refl s)).answers
  | topology => exact (execTopology_calm (.refl s)).answers
  | delayEcho => exact (execDelayEcho_calm (.refl s)).answers
  | laneSwap => exact (execLaneSwap_calm (.refl s)).answers
  | reelLaneRetire => exact (execReelLaneRetire_calm (.refl s)).answers
  | reelLinkDown => exact (execReelLinkDown_calm (.refl s)).answers
  | reelLinkUp => exact (execReelLinkUp_calm (.refl s)).answers
  | breakNotice => exact (execBreakNotice_calm (.refl s)).answers
  | retransmitTimeout => exact (execRetransmitTimeout_calm (.refl s)).answers
  | linkAck => exact (execLinkAck_calm (.refl s)).answers
  | linkNak => exact (execLinkNak_calm (.refl s)).answers
  | reelWord => exact (execReelWord_calm (.refl s)).answers
  | witnessRec => exact (execWitnessRec_calm (.refl s)).answers
  | witnessAck => exact (execWitnessAck_calm (.refl s)).answers
  | snapOrder => exact (execSnapOrder_calm (.refl s)).answers
  | snapshotCapture => exact (execSnapshotCapture_calm (.refl s)).answers
  | snapAck => exact (execSnapAck_calm (.refl s)).answers
  | setAck => exact (execSetAck_calm (.refl s)).answers
  | setGatherTimeout => exact (execSetGatherTimeout_calm (.refl s)).answers
  | snapDoneTimeout => exact (execSnapDoneTimeout_calm (.refl s)).answers
  | peerQuery => exact (execPeerQuery_calm (.refl s)).answers
  | peerReply => exact (execPeerReply_calm (.refl s)).answers
  | handoffPage => exact (execHandoffPage_calm (.refl s)).answers
  | handoffDesc => exact (execHandoffDesc_calm (.refl s)).answers
  | cloneHello => exact (execCloneHello_calm (.refl s)).answers
  | cloneReply => exact (execCloneReply_calm (.refl s)).answers
  | cloneKey => exact (execCloneKey_calm (.refl s)).answers
  | cloneDone => exact (execCloneDone_calm (.refl s)).answers
  | cloneSessionExpiry => exact (execCloneSessionExpiry_calm (.refl s)).answers
  | reelReplyTimeout => exact (execReelReplyTimeout_calm (.refl s)).answers
  | bellBlock => exact (execBellBlock_calm (.refl s)).answers
  | bellAssert => exact (execBellAssert_calm (.refl s)).answers
  | bellLoss => exact (execBellLoss_calm (.refl s)).answers
  | timeFull => exact (execTimeFull_calm (.refl s)).answers
  | ppsEdge => exact (execPpsEdge_calm (.refl s)).answers
  | ppsWindowMissed => exact (execPpsWindowMissed_calm (.refl s)).answers
  | todFrame => exact (execTodFrame_calm (.refl s)).answers
  | timeSet => exact (execTimeSet_calm (.refl s)).answers
  | ppsOutEnd => exact (execPpsOutEnd_calm (.refl s)).answers
  | todTx => exact (execTodTx_calm (.refl s)).answers
  | inputSample => exact (execInputSample_calm (.refl s)).answers
  | smbStatus => exact (execSmbStatus_calm (.refl s)).answers
  | smbTemps => exact (execSmbTemps_calm (.refl s)).answers
  | smbVolts => exact (execSmbVolts_calm (.refl s)).answers
  | smbIdent => exact (execSmbIdent_calm (.refl s)).answers
  | smbCounts => exact (execSmbCounts_calm (.refl s)).answers
  | smbAlert => exact (execSmbAlert_calm (.refl s)).answers
  | smbAlertResponse => exact (execSmbAlertResponse_calm (.refl s)).answers
  | vddAonLoss => exact (execVddAonLoss_calm (.refl s)).answers
  | holdupOkLow => exact (execHoldupOkLow_calm (.refl s)).answers
  | vfEnable => exact (execVfEnable_calm (.refl s)).answers
  | ctrlDone => exact (execCtrlDone_calm (.refl s)).answers
  | qctxCommandDone => exact (execQctxCommandDone_calm (.refl s)).answers
  | reelPortDrop => exact (execReelPortDrop_calm (.refl s)).answers
end Sys2Proof.Machine

/-! SUPPORT. The operations of Tick keep what they must. -/

namespace Sys2Proof.Machine
variable {s₀ s : State}

theorem tickCounts_calm (hs : Calm s₀ s) : Calm s₀ (tickCounts s) := hs.mk' rfl rfl rfl rfl

theorem wayFound_calm {t c : Nat} (hs : Calm s₀ s) : Calm s₀ (wayFound s t c) := by
  unfold wayFound
  grind [popNeed_calm]

theorem dropClosing_calm (hs : Calm s₀ s) : Calm s₀ (dropClosing s) := .ite hs (State.setCus_calm hs)

theorem tickDue_calm (hs : Calm s₀ s) : Calm s₀ (tickDue s) := dropClosing_calm ((commitArb_calm hs).foldl fun _ _ => spireSettle_calm)

theorem lookAgain_calm {t c : Nat} (hs : Calm s₀ s) : Calm s₀ (lookAgain s t c) := cerTurn_calm (wayFound_calm (settleFill_calm (lineFreed_calm hs)))

theorem tickSensors_calm (hs : Calm s₀ s) : Calm s₀ (tickSensors s) := by
  unfold tickSensors
  grind [State.takeFree_calm, Calm.mk']

theorem tick_calm (hs : Calm s₀ s) : Calm s₀ (tick s) :=
  suspectTests_calm (settleRows_calm (release17_calm ((tickCounts_calm (tickDue_calm (tickSensors_calm hs))).foldl fun _ _ => lookAgain_calm)))

end Sys2Proof.Machine

/-! SUPPORT. The step: what it takes from the queue, what it keeps, and the state after reset. -/

namespace Sys2Proof.Machine

/-- What a step owes the fuses, the queue and the invariant, the command that it takes included. -/
theorem step_answers (s : State) :
    ∃ t, step s = .next t ∧ fusesKept s.fuse t.fuse ∧ t.pending = s.pending.tail ∧ (Inv s → Inv t) := by
  unfold step
  split
  next h =>
    obtain ⟨hf, hp, hi⟩ := (tick_calm (.refl s)).kept
    exact ⟨_, rfl, hf, by simpa [h] using hp, hi⟩
  next c rest h =>
    obtain ⟨t, ht, hf, hp, hi⟩ := exec_kept c { s with pending := rest }
    exact ⟨t, ht, hf, by simpa [h] using hp, fun i => hi ⟨i.host, i.heads, i.rows, i.policy, i.ready, i.loaded, i.violations, i.domeLog⟩⟩

/-- Settles O16: what `exec` and `tick` keep, command by command. -/
theorem everyStepKeepsTheInvariant : Obligations.EveryStepKeepsTheInvariant := by
  unfold Obligations.EveryStepKeepsTheInvariant
  intro s s' hi hs
  obtain ⟨t, ht, -, -, h⟩ := step_answers s
  cases ht.symm.trans hs
  exact h hi

/-- Settles O18, from the same lemma of each command. -/
theorem noStepClearsAFuse : Obligations.NoStepClearsAFuse := by
  unfold Obligations.NoStepClearsAFuse
  intro s s' hs
  obtain ⟨t, ht, hf, hp, -⟩ := step_answers s
  cases ht.symm.trans hs
  exact ⟨hf, hp⟩

/-- A figure's command without a fault, in the two cases of the call that stands or does not stand at it. -/
theorem figure_cases {i : Instr} {t c op : Nat} {f : State → State} (h : exec i s = .next (runFigure s t c op .none f)) :
    (atFigure s t c op = true → exec i s = .next (f (pastYield s t c))) ∧ (atFigure s t c op = false → exec i s = .next s) :=
  ⟨fun ha => by rw [h, runFigure_at ha], fun ha => by rw [h, runFigure_away ha]⟩

/-- Settles O1. -/
theorem stepRunsFrontCommand : Obligations.StepRunsFrontCommand := by
  unfold Obligations.StepRunsFrontCommand
  refine ⟨fun c r s h => by rw [step, h], fun s h => by rw [step, h], fun c s => ?_, fun s t c e he => ?_⟩
  · obtain ⟨t, ht, -⟩ := exec_kept c s
    exact ⟨t, ht⟩
  · exact figure_cases (by fin_cases he <;> rfl)

theorem reset_inv : Inv State.reset where
  host := rfl
  heads := rfl
  rows := rfl
  policy := rfl
  ready := nofun
  loaded := nofun
  violations := Nat.zero_le _
  domeLog := by decide

theorem reset_ctx (t c : Nat) : State.reset.ctx t c = {} := by
  have ht : State.reset.tower t = {} := by
    rw [State.tower, List.getD_eq_getElem?_getD]
    exact List.getElem?_getD_replicate_default_eq ({} : Tower) 17 t
  rw [State.ctx, ht]
  rw [List.getD_eq_getElem?_getD]
  exact List.getElem?_getD_replicate_default_eq ({} : Ctx) 8 c

/-- Settles O17: each field of the reset state is a constant. -/
theorem resetMeetsTheInvariant : Obligations.ResetMeetsTheInvariant := by
  unfold Obligations.ResetMeetsTheInvariant
  refine ⟨reset_inv, rfl, rfl, rfl, rfl, rfl, rfl, rfl, fun t c => ?_, rfl⟩
  simp [reset_ctx]
end Sys2Proof.Machine

/-! SUPPORT. Host pieces and internal accesses, judged by the lowest matching entry (13 R373 to R390). -/

namespace Sys2Proof.Machine
variable {s : State}

/-! ### The lowest matching entry -/

theorem find?_table_of_lowest {α : Type} {f : Nat → α} {p : α → Bool} {n e : Nat} (he : e < n) (hp : p (f e) = true)
    (hlow : ∀ j, j < e → p (f j) = false) : ((List.range n).map f).find? p = some (f e) := by
  rw [List.find?_map, List.find?_range_eq_some.mpr ⟨hp, List.mem_range.mpr he, fun j hj => by simpa using hlow j hj⟩]
  rfl

theorem find?_table_of_none {α : Type} {f : Nat → α} {p : α → Bool} {n : Nat} (h : ∀ e, e < n → p (f e) = false) :
    ((List.range n).map f).find? p = none := by
  simpa [List.find?_eq_none] using h

theorem isMf_eq (fn : Nat) : isMf fn = decide (fn = 0xFFFF) := rfl

theorem hostRefusal_of_lowest {fn a e : Nat} {w : Bool} (he : e < 8) (hm : (regionH s fn e).matches a = true)
    (hlow : ∀ j, j < e → (regionH s fn j).matches a = false) :
    hostRefusal s fn w a = if (if w then (regionH s fn e).wr else (regionH s fn e).rd) then none else some 1 := by
  rw [hostRefusal, find?_table_of_lowest he hm hlow]

theorem hostRefusal_of_none {fn a : Nat} {w : Bool} (h : ∀ e, e < 8 → (regionH s fn e).matches a = false) :
    hostRefusal s fn w a = if fn = 0xFFFF then none else some 0 := by
  rw [hostRefusal, find?_table_of_none h]
  simp [isMf_eq]

theorem regionH_matches_iff (r : RegionH) (a : Nat) : r.matches a = true ↔ (r.valid = true ∧ r.base ≤ a ∧ a < r.base + 2 ^ (15 + r.size) ∧
    Nat.testBit r.subDis ((a - r.base) / 2 ^ (12 + r.size)) = false) := by
  simp [RegionH.matches, bitOf, and_assoc]

/-! ### The cut at 4 KiB boundaries -/

/-- The bytes of a list of pieces that stands at `addr` are in order and cover `len` bytes, none across a boundary of 4 KiB. -/
def Covers (addr len : Nat) (l : List (Nat × Nat)) : Prop :=
  (l.map (·.2)).sum = len ∧ (∀ p ∈ l, 0 < p.2 ∧ p.1 / 4096 = (p.1 + p.2 - 1) / 4096 ∧ addr ≤ p.1 ∧ p.1 + p.2 ≤ addr + len) ∧
  (∀ p ∈ l.head?, p.1 = addr) ∧ l.IsChain (fun p q => p.1 + p.2 = q.1)

theorem covers_cons {addr len n : Nat} {l : List (Nat × Nat)} (hn : 0 < n) (hle : n ≤ len) (hb : addr % 4096 + n ≤ 4096)
    (h : Covers (addr + n) (len - n) l) : Covers addr len ((addr, n) :: l) := by
  obtain ⟨hsum, hall, hhead, hchain⟩ := h
  refine ⟨by simp [hsum]; omega, ?_, by simp, ?_⟩
  · intro p hp
    rcases List.mem_cons.mp hp with rfl | hp
    · dsimp only
      omega
    · obtain ⟨h1, h2, h3, h4⟩ := hall p hp
      exact ⟨h1, h2, by omega, by omega⟩
  · cases l with
    | nil => exact .singleton _
    | cons q r => exact .cons_cons (hhead q rfl).symm hchain

theorem piecesAux_covers (fuel : Nat) : ∀ addr len : Nat, len = 0 ∨ addr % 4096 + len ≤ 4096 * fuel → Covers addr len (piecesAux fuel addr len) := by
  induction fuel with
  | zero =>
    intro addr len h
    obtain rfl : len = 0 := by omega
    exact ⟨rfl, nofun, nofun, .nil⟩
  | succ fuel ih =>
    intro addr len h
    rw [piecesAux]
    split
    next h0 => exact h0 ▸ ⟨rfl, nofun, nofun, .nil⟩
    next h0 =>
      have hn : 0 < min len (4096 - addr % 4096) := by omega
      exact covers_cons hn (Nat.min_le_left ..) (by omega) (ih _ _ (by omega))

theorem pieces_covers (addr len : Nat) : Covers addr len (pieces addr len) := piecesAux_covers _ _ _ (by omega)

/-! ### A refusal is logged, and freezes the TF -/

theorem signal_mf_tfs (s : State) (v : Nat) : (signal s mfNum v).hif.tfs = s.hif.tfs := by
  unfold signal
  dsimp only
  (repeat' split) <;> rfl

theorem putHead_tfs (s : State) (p : Nat) (h : Head) : (putHead s p h).hif.tfs = s.hif.tfs := by
  unfold putHead
  dsimp only
  split
  · rfl
  · split
    · exact signal_mf_tfs _ _
    · rfl

theorem raise_tfs (s : State) (p b : Nat) : (raise s p b).hif.tfs = s.hif.tfs := putHead_tfs _ _ _

theorem logViolation_tfs (s : State) (i k : Nat) (w ho : Bool) (src a b : Nat) : (logViolation s i k w ho src a b).hif.tfs = s.hif.tfs := by
  unfold logViolation
  dsimp only
  split <;> simp [raise_tfs]

theorem withdrawTf_tfs (s : State) (n : Nat) : (withdrawTf s n).hif.tfs = s.hif.tfs :=
  List.foldlRecOn (motive := fun a : State => a.hif.tfs = s.hif.tfs) _ _ rfl fun _ h _ _ => h

theorem freezeTf_tf (s : State) (n : Nat) : (freezeTf s n).tf n = { s.tf n with frozen := true } := by
  rw [freezeTf, State.tf, withdrawTf_tfs]
  exact State.tf_setTf_same ..

theorem hostCheck_refused {fn a k : Nat} {w : Bool} (h : hostRefusal s fn w a = some k) : hostCheck s fn w a = (hostViolation s fn k w a, false) := by
  rw [hostCheck, h]

theorem logViolation_sup (s : State) (i k : Nat) (w ho : Bool) (src a b : Nat) :
    (logViolation s i k w ho src a b).sup = { s.sup with
      total := satAdd 32 s.sup.total 1
      log := if s.sup.log.length < 16 then s.sup.log ++ [[BitVec.ofNat 32 (i + 16 * k + 256 * flag w + 512 * flag ho + 65536 * src),
        BitVec.ofNat 32 a, BitVec.ofNat 32 b, BitVec.ofNat 32 (bellLow s)]] else s.sup.log
      lost := if s.sup.log.length < 16 then s.sup.lost else satAdd 32 s.sup.lost 1 } := by
  unfold logViolation
  dsimp only
  split <;> simp [raise_frame]

theorem hostViolation_sup (s : State) (fn k : Nat) (w : Bool) (a : Nat) :
    (hostViolation s fn k w a).sup = (logViolation s 4 k w true fn (a % 2 ^ 32) (a / 2 ^ 32)).sup := by
  unfold hostViolation
  dsimp only
  split <;> simp

theorem hostViolation_tf {fn : Nat} (hf : fn ≠ 0xFFFF) (s : State) (k : Nat) (w : Bool) (a : Nat) :
    (hostViolation s fn k w a).tf fn = { s.tf fn with frozen := true } := by
  rw [hostViolation, if_neg (by simpa [isMf_eq] using hf), freezeTf_tf, State.tf, State.tf, logViolation_tfs]

/-! ### Internal accesses -/

theorem intRefusal_unmapped {i a : Nat} {w : Bool} (h : targetOf a = none) : intRefusal s i w a = some 5 := by rw [intRefusal, h]

theorem intRefusal_notAllowed {i a : Nat} {w : Bool} {t : Target} (h : targetOf a = some t) (hm : defaultMap i a t = false) :
    intRefusal s i w a = some 0 := by
  rw [intRefusal, h]
  simp [hm]

theorem intRefusal_of_none {i a : Nat} {w : Bool} {t : Target} (h : targetOf a = some t) (hm : defaultMap i a t = true)
    (hn : ∀ e, e < 16 → (tblGet ({} : RegionI) s.acu.int e).matches i a = false) : intRefusal s i w a = none := by
  have hf : ((List.range 16).map (tblGet ({} : RegionI) s.acu.int)).find? (fun r => r.matches i a) = none := find?_table_of_none hn
  rw [intRefusal, h]
  simp only [hm, hf]
  rfl

theorem intRefusal_of_lowest {i a e : Nat} {w : Bool} {t : Target} (h : targetOf a = some t) (hm : defaultMap i a t = true) (he : e < 16)
    (hp : (tblGet ({} : RegionI) s.acu.int e).matches i a = true) (hlow : ∀ j, j < e → (tblGet ({} : RegionI) s.acu.int j).matches i a = false) :
    intRefusal s i w a =
      if (if w then (tblGet ({} : RegionI) s.acu.int e).wr else (tblGet ({} : RegionI) s.acu.int e).rd) then none else some 1 := by
  have hf : ((List.range 16).map (tblGet ({} : RegionI) s.acu.int)).find? (fun r => r.matches i a) = some (tblGet {} s.acu.int e) :=
    find?_table_of_lowest he hp hlow
  rw [intRefusal, h]
  simp only [hm, hf]
  rfl

/-! ### The example of R387 -/

theorem example_region_matches (r : RegionH) (hr : r = { base := 0x1234000000, size := 11, subDis := 0x80, rd := true, wr := true, valid := true }) :
    r.matches 0x12377FF800 = true ∧ r.matches 0x1237800000 = false := by
  subst hr
  decide

/-- Settles O10. -/
theorem regionsJudgeEachAccess : Obligations.RegionsJudgeEachAccess := by
  unfold Obligations.RegionsJudgeEachAccess
  refine ⟨fun addr len => ?_, regionH_matches_iff, fun s fn a w => ⟨fun e he hm hl => hostRefusal_of_lowest he hm hl, hostRefusal_of_none,
    fun h => by rw [hostCheck, h], fun k hk => ?_⟩, fun s h0 hrest => ?_, fun s i a w => ⟨intRefusal_unmapped, fun t => intRefusal_notAllowed,
    fun t h hm => ⟨intRefusal_of_none h hm, fun e he hp hl => intRefusal_of_lowest h hm he hp hl⟩⟩⟩
  · obtain ⟨hsum, hall, -, hchain⟩ := pieces_covers addr len
    refine ⟨hsum, hall, fun i hi => ?_⟩
    have h := List.isChain_iff_getElem.mp hchain i hi
    rwa [List.getD_eq_getElem _ _ hi, List.getD_eq_getElem _ _ (by omega)]
  · rw [hostCheck_refused hk]
    refine ⟨rfl, ?_, by simp, by simp, fun hl => ?_, fun hl => ?_, fun hf _ => ?_⟩
    · simp [hostViolation_sup, logViolation_sup]
    · simp [hostViolation_sup, logViolation_sup, hl, flag]
    · simp [hostViolation_sup, logViolation_sup, Nat.not_lt.mpr hl]
    · rw [hostViolation_tf hf]
      exact ⟨rfl, rfl⟩
  · obtain ⟨hm, hn⟩ := example_region_matches _ h0
    have hnone : ∀ e, e < 8 → (regionH s 9 e).matches 0x1237800000 = false := by
      intro e he
      rcases Nat.eq_zero_or_pos e with rfl | hp
      · exact hn
      · simp [RegionH.matches, hrest e hp he]
    have hr : hostRefusal s 9 false 0x1237800000 = some 0 := hostRefusal_of_none hnone
    refine ⟨by decide, ?_, hr, fun hl => ?_⟩
    · rw [hostRefusal_of_lowest (by decide) hm nofun, h0]
      rfl
    · rw [hostCheck_refused hr, hostViolation_sup, logViolation_sup, hl]
      rfl
end Sys2Proof.Machine

/-! SUPPORT. What the end of a call leaves: the Dome, the vault, the ceremony and every context that was idle. -/

namespace Sys2Proof.Machine
variable {s r q : State}

/-! ## What the ends of calls leave -/

/-- Calls may end between the two states and none begins; the Dome, the vault and the ceremony stand. -/
structure EndsCalls (s r : State) : Prop where
  dome : r.dome = s.dome
  vault : r.vault = s.vault
  cer : r.cus.cer = s.cus.cer
  idle : ∀ u i, (s.ctx u i).call = none → (r.ctx u i).call = none

namespace EndsCalls

theorem refl (s : State) : EndsCalls s s := ⟨rfl, rfl, rfl, fun _ _ => id⟩

theorem trans (h : EndsCalls s r) (g : EndsCalls r q) : EndsCalls s q :=
  ⟨g.dome.trans h.dome, g.vault.trans h.vault, g.cer.trans h.cer, fun u i => g.idle u i ∘ h.idle u i⟩

theorem of_frame (hd : r.dome = s.dome) (hv : r.vault = s.vault) (hc : r.cus = s.cus) (ht : r.towers = s.towers) : EndsCalls s r :=
  ⟨hd, hv, by rw [hc], fun u i h => by rwa [State.ctx_congr ht]⟩

theorem foldl {α : Type} {f : State → α → State} (hf : ∀ a x, EndsCalls a (f a x)) (l : List α) (s : State) : EndsCalls s (l.foldl f s) :=
  List.foldlRecOn (motive := EndsCalls s) l f (refl s) fun _ h x _ => h.trans (hf _ x)

end EndsCalls

theorem setActive_cer (s : State) (p : Nat) (on : Bool) : (setActive s p on).cus.cer = s.cus.cer := by
  unfold setActive
  dsimp only
  (repeat' split) <;> rfl

theorem leaveCard_cer (s : State) (t c : Nat) : (leaveCard s t c).cus.cer = s.cus.cer := by
  unfold leaveCard
  split
  · exact setActive_cer ..
  · rfl

theorem endCtx_cer (s : State) (t c : Nat) (st : CtxState) : (endCtx s t c st).cus.cer = s.cus.cer := leaveCard_cer s t c

theorem Tower.ended_call (w : Tower) (c : Nat) (st : CtxState) (i : Nat) (h : i = c ∨ (w.ctxs.getD i {}).call = none) :
    ((w.ended c st).ctxs.getD i {}).call = none := by
  rw [Tower.ended, List.getD_eq_getElem?_getD, List.getElem?_set]
  split
  · split <;> rfl
  next hne =>
    rw [← List.getD_eq_getElem?_getD]
    exact h.resolve_left (Ne.symm hne)

theorem tower_setTower_cases (s : State) (t : Nat) (x : Tower) (u : Nat) :
    (s.setTower t x).tower u = s.tower u ∨ (u = t ∧ (s.setTower t x).tower u = x) := by
  by_cases hu : u = t
  · subst hu
    by_cases ht : u < s.towers.length
    · exact .inr ⟨rfl, State.tower_setTower_same _ _ _ ht⟩
    · exact .inl (State.tower_of_towers_eq (by rw [State.setTower_towers, List.set_eq_of_length_le (by omega)]) u)
  · exact .inl (State.tower_setTower_other _ _ _ _ hu)

/-- A tower that is written with no call begun begins none. -/
theorem setTower_idle {t : Nat} {x : Tower} (h : ∀ i, (s.ctx t i).call = none → (x.ctxs.getD i {}).call = none) (u i : Nat)
    (hi : (s.ctx u i).call = none) : ((s.setTower t x).ctx u i).call = none := by
  rcases tower_setTower_cases s t x u with hu | ⟨rfl, hu⟩
  · rwa [State.ctx, hu]
  · rw [State.ctx, hu]
    exact h i hi

theorem endCtx_idle (s : State) (t c : Nat) (st : CtxState) (u i : Nat) (h : (s.ctx u i).call = none) :
    ((endCtx s t c st).ctx u i).call = none := by
  rw [State.ctx_congr (endCtx_towers s t c st)]
  exact setTower_idle (fun j hj => Tower.ended_call _ _ _ _ (.inr hj)) u i h

theorem endCtx_call (s : State) (t c : Nat) (st : CtxState) : ((endCtx s t c st).ctx t c).call = none := by
  cases hk : (s.ctx t c).call with
  | none => exact endCtx_idle s t c st t c hk
  | some k =>
    rw [State.ctx, endCtx_tower_same c st (ctx_call_exists hk).1]
    exact Tower.ended_call _ _ _ _ (.inl rfl)

theorem endCtx_endsCalls (s : State) (t c : Nat) (st : CtxState) : EndsCalls s (endCtx s t c st) :=
  ⟨by simp, by simp, endCtx_cer .., fun u i h => endCtx_idle _ _ _ _ _ _ h⟩

theorem bookKey_endsCalls (s : State) (t h : Nat) : EndsCalls s (bookKey t h s) :=
  ⟨rfl, rfl, rfl, setTower_idle fun _ h => h⟩

theorem bookKeys_endsCalls (s : State) (t c st : Nat) : EndsCalls s (bookKeys s t c st) :=
  bookKeys_keeps (P := EndsCalls s) t c st (.refl s) fun _ _ h => h.trans (bookKey_endsCalls ..)
theorem finishCore_endsCalls (s : State) (t c st table sp : Nat) (r : Bytes) : EndsCalls s (finishCore s t c st table sp r) := by
  simp only [finishCore]
  split
  · exact .refl s
  next k _ =>
    have hz : EndsCalls s (if st = stOk ∨ st = stSuspended then s else zeroOut s t c k.fn (s.ctx t c).work) := by
      split
      · exact .refl s
      · exact .of_frame (by simp) (by simp) (by simp) (by simp)
    have ho (a : State) (x : Ctx) (path spire : Nat) (b : Bytes) : EndsCalls a (handoff (chargeOutcome a x k st path spire) k b) :=
      .of_frame (by simp) (by simp) (by simp) (by simp)
    exact ((hz.trans (bookKeys_endsCalls ..)).trans (ho ..)).trans (endCtx_endsCalls ..)

theorem finishCore_call (s : State) (t c st table sp : Nat) (r : Bytes) : ((finishCore s t c st table sp r).ctx t c).call = none := by
  simp only [finishCore]
  split
  · assumption
  · exact endCtx_call ..

theorem finishWaiter_endsCalls (s : State) (w : Option (Nat × Nat)) (st : Nat) : EndsCalls s (finishWaiter s w st) := by
  cases w with
  | none => exact .refl s
  | some w => exact finishCore_endsCalls ..

theorem jobEnded_endsCalls (s : State) (j : Option Job) : EndsCalls s (jobEnded s j) := by
  cases j with
  | none => exact .refl s
  | some j =>
    have hd : EndsCalls s (dropJob s j) := .of_frame rfl rfl rfl rfl
    exact (hd.trans (finishWaiter_endsCalls ..)).trans (finishWaiter_endsCalls ..)

theorem finishCall_endsCalls (s : State) (t c st table sp : Nat) (r : Bytes) : EndsCalls s (finishCall s t c st table sp r) :=
  (finishCore_endsCalls ..).trans (jobEnded_endsCalls ..)

theorem finishCall_call (s : State) (t c st table sp : Nat) (r : Bytes) : ((finishCall s t c st table sp r).ctx t c).call = none :=
  (jobEnded_endsCalls ..).idle _ _ (finishCore_call ..)

theorem deviceFault_endsCalls (s : State) (t c : Nat) : EndsCalls s (deviceFault s t c) :=
  (show EndsCalls s s.takeFree.1 from .of_frame rfl rfl rfl rfl).trans (finishCall_endsCalls ..)

theorem deviceFault_call (s : State) (t c : Nat) : ((deviceFault s t c).ctx t c).call = none := finishCall_call ..

/-- An operation that ends the call of each context of a list leaves them all without a call. -/
theorem foldl_ends {f : State → Nat × Nat → State} (hf : ∀ a x, EndsCalls a (f a x)) (he : ∀ a x, ((f a x).ctx x.1 x.2).call = none)
    (l : List (Nat × Nat)) (s : State) {x : Nat × Nat} (hx : x ∈ l) : ((l.foldl f s).ctx x.1 x.2).call = none := by
  induction l generalizing s with
  | nil => nomatch hx
  | cons y r ih =>
    rcases List.mem_cons.mp hx with rfl | hx
    · exact (EndsCalls.foldl hf r _).idle _ _ (he ..)
    · exact ih _ hx

theorem mem_allCtx {t c : Nat} (ht : t < 17) (hc : c < 8) : (t, c) ∈ allCtx := by
  simp [allCtx, ctxIds, ht, hc]
end Sys2Proof.Machine

/-! SUPPORT. The tamper response, in the Dome and on main power (15 R421 to R427). -/

namespace Sys2Proof.Machine
variable {s r q : State}

theorem dropGroups_cus (s : State) (gs : List Group) : (dropGroups s gs).cus = s.cus := by
  have hd (a : State) (u : Nat × Bytes × Bytes) : (undoDesc a u).cus = a.cus := by
    unfold undoDesc refreshDesc
    dsimp only
    split <;> rfl
  have hb (a : State) (u : Nat × Option Nat × Option Nat) : (undoBind a u).cus = a.cus := by
    unfold undoBind
    dsimp only
    split <;> rfl
  have hf {α : Type} {f : State → α → State} (h : ∀ a x, (f a x).cus = a.cus) (l : List α) (a : State) : (l.foldl f a).cus = a.cus :=
    List.foldlRecOn (motive := fun b : State => b.cus = a.cus) l f rfl fun b e x _ => (h b x).trans e
  unfold dropGroups
  dsimp only
  split <;> exact (hf hb _ _).trans (hf hd _ _)

theorem dropVault_dome (s : State) : (dropVault s).dome = s.dome := (dropGroups_settled _ _).1

theorem dropVault_cus (s : State) : (dropVault s).cus = s.cus := dropGroups_cus _ _

theorem closeCeremony_cer (s : State) (how : Nat) : (closeCeremony s how).cus.cer = none := by
  unfold closeCeremony
  split
  · simpa using ‹s.cus.cer.isNone = true›
  · simp

theorem closeCeremony_dome (s : State) (how : Nat) : (closeCeremony s how).dome = s.dome := by
  unfold closeCeremony cardsOff
  split <;> simp

/-! ### The response on main power -/

theorem faultQueued_endsCalls (s : State) (k : Call) : EndsCalls s (faultQueued s k) := by
  unfold faultQueued
  exact .of_frame (by simp) (by simp) (by simp) (by simp)

/-- The end of the call of one context, where it has one. -/
def faultCtx (a : State) (x : Nat × Nat) : State := if (a.ctx x.1 x.2).call.isSome then deviceFault a x.1 x.2 else a

theorem faultCtx_endsCalls (s : State) (x : Nat × Nat) : EndsCalls s (faultCtx s x) := by
  unfold faultCtx
  split
  · exact deviceFault_endsCalls ..
  · exact .refl s

theorem faultCtx_call (s : State) (x : Nat × Nat) : ((faultCtx s x).ctx x.1 x.2).call = none := by
  unfold faultCtx
  split
  · exact deviceFault_call ..
  · simpa using ‹¬ (s.ctx x.1 x.2).call.isSome = true›

/-- What `faultAll` clears of the Caller before it ends the calls of the contexts. -/
def dequeued (s : State) : State := { s with
  caller := { s.caller with queues := [[], [], [], []], jobQ := [] }
  jobs := s.jobs.map (fun (j : Job) => { j with suspendBy := none, cancelBy := none }) }

theorem faultAll_eq (s : State) :
    faultAll s = (s.caller.queues.flatten ++ s.caller.jobQ).foldl faultQueued (allCtx.foldl faultCtx (dequeued s)) := rfl

theorem faultAll_endsCalls (s : State) : EndsCalls s (faultAll s) := by
  rw [faultAll_eq]
  exact ((show EndsCalls s (dequeued s) from .of_frame rfl rfl rfl rfl).trans (.foldl faultCtx_endsCalls _ _)).trans
    (.foldl faultQueued_endsCalls _ _)

theorem faultAll_call (s : State) {t c : Nat} (ht : t < 17) (hc : c < 8) : ((faultAll s).ctx t c).call = none := by
  rw [faultAll_eq]
  have h := foldl_ends faultCtx_endsCalls faultCtx_call allCtx (dequeued s) (mem_allCtx ht hc)
  exact (EndsCalls.foldl faultQueued_endsCalls _ _).idle _ _ h

theorem tcDrop_tower (s : State) (f : Nat → CacheEnt → Bool) (t : Nat) :
    (tcDrop s f).tower t = { s.tower t with cache := (s.tower t).cache.filter (fun e => !f e.1 e.2) } := by
  unfold State.tower tcDrop
  simp only [List.getD_eq_getElem?_getD, List.getElem?_map]
  cases s.towers[t]? <;> rfl

theorem tcDrop_ctx (s : State) (f : Nat → CacheEnt → Bool) (u i : Nat) : (tcDrop s f).ctx u i = s.ctx u i := by
  rw [State.ctx, tcDrop_tower]
  rfl

theorem clearKeys_ctx (s : State) (u i : Nat) : (clearKeys s).ctx u i = s.ctx u i := tcDrop_ctx (s.setLinesTbl []) (fun _ _ => true) u i

theorem clearKeys_endsCalls (s : State) : EndsCalls s (clearKeys s) :=
  ⟨rfl, rfl, rfl, fun u i h => by rwa [clearKeys_ctx]⟩

/-- The response before the calls end: no ceremony, no vault. -/
def tamperClosed (s : State) : State := dropVault (dropCeremonyTransition (closeCeremony s 5))

theorem tamperClosed_dome (s : State) : (tamperClosed s).dome = s.dome := by
  have h : (dropCeremonyTransition (closeCeremony s 5)).dome = (closeCeremony s 5).dome := by
    unfold dropCeremonyTransition
    split <;> rfl
  rw [tamperClosed, dropVault_dome, h, closeCeremony_dome]

theorem tamperClosed_cer (s : State) : (tamperClosed s).cus.cer = none := by
  have h : (dropCeremonyTransition (closeCeremony s 5)).cus = (closeCeremony s 5).cus := by
    unfold dropCeremonyTransition
    split <;> rfl
  rw [tamperClosed, dropVault_cus, h, closeCeremony_cer]

/-- The response after the calls have ended. -/
def tamperCleared (s : State) : State :=
  let s1 := clearKeys { s with jobs := [] }
  alertCause (raise { s1 with keep := { s1.keep with erasing := true } } pgDome 1) 0

theorem tamperCleared_endsCalls (s : State) : EndsCalls s (tamperCleared s) := by
  have h1 : EndsCalls s { s with jobs := [] } := .of_frame rfl rfl rfl rfl
  have h2 (a : State) : EndsCalls a (alertCause (raise { a with keep := { a.keep with erasing := true } } pgDome 1) 0) :=
    .of_frame (by simp) (by simp) (by simp) (by simp)
  exact (h1.trans (clearKeys_endsCalls _)).trans (h2 _)

theorem tamperCleared_keep (s : State) :
    (tamperCleared s).jobs = [] ∧ (tamperCleared s).keep.lines = [] ∧ (tamperCleared s).keep.erasing = true := by
  unfold tamperCleared clearKeys tcDrop
  simp

theorem tamperOnMain_ends (s : State) : EndsCalls (tamperClosed s) (tamperOnMain s) := (faultAll_endsCalls _).trans (tamperCleared_endsCalls _)

theorem tamperOnMain_dome (s : State) : (tamperOnMain s).dome = s.dome := (tamperOnMain_ends s).dome.trans (tamperClosed_dome s)

theorem tamperOnMain_call (s : State) {t c : Nat} (ht : t < 17) (hc : c < 8) : ((tamperOnMain s).ctx t c).call = none :=
  (tamperCleared_endsCalls _).idle _ _ (faultAll_call _ ht hc)

/-! ### The event in the Dome -/

theorem domeAccess_ok (s : State) (a : Nat) : (domeAccess s a).2 = (intRefusal s 6 true a).isNone := intCheck_ok ..

/-- The entry that an event writes. -/
def tamperEntry (s : State) (c : BitVec 15) (temp : BitVec 8) (vbat : Nat) : TamperEnt :=
  { event := satAdd 32 s.dome.count 1, cause := c, onBattery := !s.dome.onMain, cleared := s.dome.onMain
    bell := if s.dome.onMain ∧ timeKnown s then s.time.bell else 0, temp := temp, vbat := vbat % 2 ^ 16, toggles := 0 }

theorem tamperInDome_dome (s : State) (c : BitVec 15) (temp : BitVec 8) (vbat : Nat) : (tamperInDome s c temp vbat).dome = { s.dome with
    dik := none, cur := none, next := none, slots := ({}, {}), sel := false, tampered := true, acked := false, erasing := true
    cause := s.dome.cause ||| c, live := s.dome.live ||| c, count := satAdd 32 s.dome.count 1, vbat := vbat % 4096
    log := if intRefusal s 6 true (domeLog + 64 * s.dome.logNext) = none then tblInsert s.dome.log s.dome.logNext (tamperEntry s c temp vbat)
      else s.dome.log
    logNext := (s.dome.logNext + 1) % 32, unhandled := s.dome.unhandled || !s.dome.onMain } := by
  have h : (domeAccess (clearKeyArea s) (domeLog + 64 * s.dome.logNext)).2 = true ↔ intRefusal s 6 true (domeLog + 64 * s.dome.logNext) = none := by
    rw [domeAccess_ok, intRefusal_congr (s := s) (by rfl), Option.isNone_iff_eq_none]
  simp only [← h]
  rfl

theorem tamperInDome_frame (s : State) (c : BitVec 15) (temp : BitVec 8) (vbat : Nat) :
    (tamperInDome s c temp vbat).keep = s.keep ∧ (tamperInDome s c temp vbat).vault = s.vault ∧ (tamperInDome s c temp vbat).towers = s.towers := by
  unfold tamperInDome domeAccess
  simp [clearKeyArea]

theorem tblGet_of_ok {α : Type} {d : α} {l : Tbl α} {k : Nat} {v : α} {p : Prop} [Decidable p] (h : p) :
    tblGet d (if p then tblInsert l k v else l) k = v := by
  rw [if_pos h, tblGet_insert_same]

/-- The sensors by bit: the pairs and switches as enabled, VBAT low on battery only, three on main power only, and five always. -/
theorem sensorMask_bits (d : Dome) :
    (d.onMain = true → (sensorMask d).getLsbD 8 = false ∧ (sensorMask d).getLsbD 10 = true ∧
      (sensorMask d).getLsbD 11 = true ∧ (sensorMask d).getLsbD 14 = true) ∧
    (d.onMain = false → (sensorMask d).getLsbD 8 = true ∧ (sensorMask d).getLsbD 10 = false ∧ (sensorMask d).getLsbD 11 = false ∧
      (sensorMask d).getLsbD 14 = false) ∧
    (∀ i, i < 6 → (sensorMask d).getLsbD (2 + i) = d.sensorEn.getLsbD i) ∧
    (∀ i ∈ ([0, 1, 9, 12, 13] : List Nat), (sensorMask d).getLsbD i = true) := by
  unfold sensorMask
  generalize d.onMain = m
  generalize d.sensorEn = e
  revert m e
  decide

theorem tamperEntry_eq (s : State) (c : BitVec 15) (temp : BitVec 8) (vbat : Nat) : tamperEntry s c temp vbat = {
    event := satAdd 32 s.dome.count 1, cause := c, onBattery := !s.dome.onMain, cleared := s.dome.onMain
    bell := if s.dome.onMain = true ∧ s.time.st ≠ 0 then s.time.bell else 0, temp := temp, vbat := vbat % 2 ^ 16, toggles := 0 } := by
  simp [tamperEntry, timeKnown]

/-- The Dome after an event, part by part. -/
theorem tamperInDome_clauses (s : State) (c : BitVec 15) (temp : BitVec 8) (vbat : Nat) : let d := (tamperInDome s c temp vbat).dome
    d.tampered = true ∧ d.acked = false ∧ d.erasing = true ∧ d.cause = s.dome.cause ||| c ∧ d.count = satAdd 32 s.dome.count 1 ∧
    d.dik = none ∧ d.cur = none ∧ d.next = none ∧ d.slots = ({}, {}) ∧ d.ledger = s.dome.ledger ∧ d.witness = s.dome.witness ∧
    d.logNext = (s.dome.logNext + 1) % 32 ∧ (intRefusal s 6 true (domeLog + 64 * s.dome.logNext) ≠ none → d.log = s.dome.log) ∧
    (intRefusal s 6 true (domeLog + 64 * s.dome.logNext) = none → tblGet ({} : TamperEnt) d.log s.dome.logNext = {
      event := satAdd 32 s.dome.count 1, cause := c, onBattery := !s.dome.onMain, cleared := s.dome.onMain
      bell := if s.dome.onMain = true ∧ s.time.st ≠ 0 then s.time.bell else 0, temp := temp, vbat := vbat % 2 ^ 16, toggles := 0 }) := by
  intro d
  have hd : d = _ := tamperInDome_dome s c temp vbat
  rw [hd, ← tamperEntry_eq]
  exact ⟨rfl, rfl, rfl, rfl, rfl, rfl, rfl, rfl, rfl, rfl, rfl, rfl, fun h => if_neg h, fun h => tblGet_of_ok h⟩

theorem tamperInDome_unhandled (c : BitVec 15) (temp : BitVec 8) (vbat : Nat) (h : s.dome.onMain = false) :
    (tamperInDome s c temp vbat).dome.unhandled = true := by
  rw [tamperInDome_dome]
  simp [h]

/-- What the response leaves on main power. -/
theorem tamperOnMain_clauses (s : State) : (tamperOnMain s).jobs = [] ∧ (tamperOnMain s).keep.lines = [] ∧ (tamperOnMain s).keep.erasing = true ∧
    (tamperOnMain s).vault.st = 0 ∧ (tamperOnMain s).cus.cer = none ∧ ∀ t i, t < 17 → i < 8 → ((tamperOnMain s).ctx t i).call = none := by
  obtain ⟨hj, hl, hk⟩ := tamperCleared_keep (faultAll (tamperClosed s))
  have hends := tamperOnMain_ends s
  exact ⟨hj, hl, hk, congrArg Vault.st hends.vault, hends.cer.trans (tamperClosed_cer _), fun t i ht hi => tamperOnMain_call _ ht hi⟩

/-- Settles O13: the event in the Dome, and on main power the ends of the calls, leave each part as it is said. -/
theorem tamperErasesAndIsLogged : Obligations.TamperErasesAndIsLogged := by
  unfold Obligations.TamperErasesAndIsLogged
  refine ⟨fun s c temp mv => ⟨fun h => ?none_, fun h0 ho => ?event, fun h => ?shut, fun ht ha => ?toggle⟩, ?mask, fun s => ⟨rfl, rfl⟩, ?batt,
    ?ack, ?power⟩
  case none_ =>
    have h' : c &&& sensorMask s.dome = 0 ∨ eventOpen s.dome = true := h.imp_right fun ⟨ht, ha⟩ => by simp [eventOpen, ht, ha]
    exact if_pos h'
  case event =>
    have hn : ¬ (c &&& sensorMask s.dome = 0 ∨ eventOpen s.dome = true) := by
      rintro (h | h)
      · exact h0 h
      · rcases ho with ho | ho <;> simp [eventOpen, ho] at h
    refine ⟨_, if_neg hn, ?_⟩
    have hdome : (if s.dome.onMain = true then tamperOnMain (tamperInDome s (c &&& sensorMask s.dome) temp mv)
        else tamperInDome s (c &&& sensorMask s.dome) temp mv).dome = (tamperInDome s (c &&& sensorMask s.dome) temp mv).dome := by
      split
      · exact tamperOnMain_dome _
      · rfl
    obtain ⟨h1, h2, h3, h4, h5, h6, h7, h8, h9, h10, h11, h12, h13, h14⟩ := tamperInDome_clauses s (c &&& sensorMask s.dome) temp mv
    rw [hdome]
    refine ⟨h1, h2, h3, h4, h5, h6, h7, h8, h9, h10, h11, h12, h13, h14, fun hm => ?_, fun hm => ?_⟩
    · rw [if_pos hm]
      exact tamperOnMain_clauses _
    · rw [if_neg (by simp [hm])]
      exact ⟨tamperInDome_unhandled _ _ _ hm, tamperInDome_frame ..⟩
  case shut =>
    have h' : (!eventOpen s.dome) = true := by simpa [eventOpen, imp_iff_not_or] using h
    exact if_pos h'
  case toggle =>
    have h' : ¬ (!eventOpen s.dome) = true := by simp [eventOpen, ht, ha]
    exact ⟨_, if_neg h', rfl, rfl, rfl, rfl, rfl⟩
  case mask => exact fun d => sensorMask_bits d
  case batt =>
    refine fun s mv => ⟨fun h => if_pos h, fun h => ⟨_, if_neg (by omega), ?_⟩⟩
    split <;> simp
  case ack =>
    intro s v live
    simp only [exec, execDomeAck]
    split <;> rfl
  case power =>
    refine fun s mv lost => ⟨fun h => ⟨if_pos h, congrArg Host.Outcome.next (if_pos h)⟩,
      fun h => ⟨congrArg Host.Outcome.next (if_neg (by simp [h])), if_neg (by simp [h]), ?_⟩⟩
    exact ⟨_, if_neg (by simp [h]), rfl, rfl, rfl, rfl, rfl, rfl, rfl, rfl, rfl, rfl, rfl, rfl, rfl, rfl, rfl⟩
end Sys2Proof.Machine

/-! SUPPORT. Droop, thermal limits, self-test, retirement and Keep rows (15 R429 to R437). -/

namespace Sys2Proof.Machine
variable {s : State}

/-! ## Droop and thermal limits (15 R429 to R432) -/

theorem lcAbort_none (h : s.lcs.transition = none) : lcAbort s = s := by rw [lcAbort, h]

theorem exec_droop_low {mv : Nat} (hm : mv < 700) (ht : s.lcs.transition = none) : ∃ s', exec (.droop mv) s = .next s' ∧ s'.pwr = { s.pwr with
    vcore := mv, supplyOk := false, droop := true, droopCount := if s.pwr.droop then s.pwr.droopCount else satAdd 32 s.pwr.droopCount 1 } ∧
    s'.towers = s.towers ∧ s'.keep = s.keep ∧ s'.dome = s.dome := by
  have he : exec (.droop mv) s = (if s.pwr.droop then .next (lcAbort (s.setPwr { s.pwr with vcore := mv, supplyOk := false }))
      else .next (lcAbort (raise (s.setPwr { s.pwr with
        vcore := mv, supplyOk := false, droop := true, droopCount := satAdd 32 s.pwr.droopCount 1 }) pgPwr 1))) :=
    if_neg (Nat.not_le.mpr hm)
  rw [he]
  cases hd : s.pwr.droop with
  | true => exact ⟨_, rfl, by rw [lcAbort_none (by simpa [State.setPwr] using ht)]; simp [State.setPwr, hd], by simp [lcAbort_none, State.setPwr, ht]⟩
  | false => exact ⟨_, rfl, by rw [lcAbort_none (by simpa [State.setPwr] using ht)]; simp [State.setPwr], by simp [lcAbort_none, State.setPwr, ht]⟩

theorem argmax_le {f : Nat → Int} (n : Nat) : ∀ i, i < n → f i ≤ f ((List.range n).foldl (fun a j => if f j > f a then j else a) 0) := by
  induction n with
  | zero => nofun
  | succ n ih =>
    intro i hi
    rw [List.range_succ, List.foldl_append, List.foldl_cons, List.foldl_nil]
    rcases Nat.lt_succ_iff_lt_or_eq.mp hi with h | rfl
    · have := ih i h
      split <;> omega
    · split <;> omega

theorem reading_le_hottest (l : List (BitVec 8)) : ∀ i, i < 18 → reading l i ≤ reading l (hottest l) := argmax_le 18

theorem thermalStep_pwr (s : State) (hot : Int) : (thermalStep s hot).pwr.tj = s.pwr.tj ∧ (thermalStep s hot).pwr.tjPeak = s.pwr.tjPeak ∧
    (thermalStep s hot).pwr.thermal = (if 2 ≤ s.pwr.thermal then s.pwr.thermal else if 115 ≤ hot then 2
      else if s.pwr.thermal = 0 ∧ 105 ≤ hot then 1 else if s.pwr.thermal = 1 ∧ hot < 102 then 0 else s.pwr.thermal) := by
  unfold thermalStep enterStopping
  simp only [ge_iff_le]
  (repeat' split) <;> simp [State.setPwr]

theorem exec_thermalReading {l : List (BitVec 8)} (hl : l.length = 18) : exec (.thermalReading l) s = .next (thermalStep (s.setPwr { s.pwr with
    tj := l
    tjPeak := if s.pwr.tjPeak.all (fun p => decide (reading l (hottest l) > p.1.toInt)) then some
      (l.getD (hottest l) 0, hottest l) else s.pwr.tjPeak })
      (reading l (hottest l))) := if_neg (by simp [hl])

/-! ### The mask of the throttled towers -/

/-- The number whose bits are the members of a set of the first `n` numbers. -/
theorem maskOf_testBit (p : Nat → Bool) (n : Nat) :
    let v := ((List.range n).filter p).foldl (fun a i => a + 2 ^ i) 0
    v < 2 ^ n ∧ ∀ t, t < n → v.testBit t = p t := by
  induction n with
  | zero => exact ⟨Nat.one_pos, nofun⟩
  | succ n ih =>
    obtain ⟨hlt, hbit⟩ := ih
    simp only [List.range_succ, List.filter_append, List.foldl_append]
    cases hp : p n with
    | false =>
      simp only [List.filter_singleton, hp, cond_false, List.foldl_nil]
      refine ⟨by omega, fun t ht => ?_⟩
      rcases Nat.lt_succ_iff_lt_or_eq.mp ht with h | rfl
      · exact hbit t h
      · rw [hp, Nat.testBit_lt_two_pow hlt]
    | true =>
      simp only [List.filter_singleton, hp, cond_true, List.foldl_cons, List.foldl_nil]
      refine ⟨by omega, fun t ht => ?_⟩
      rw [Nat.add_comm]
      rcases Nat.lt_succ_iff_lt_or_eq.mp ht with h | rfl
      · rw [Nat.testBit_two_pow_add_gt h]
        exact hbit t h
      · rw [Nat.testBit_two_pow_add_eq, Nat.testBit_lt_two_pow hlt, hp]
        rfl

theorem exec_throttleUpdate (h : s.pwr.thermal = 1) : ∃ s', exec .throttleUpdate s = .next s' ∧ ∀ t, t < 17 →
    (s'.pwr.throttled.getLsbD t = true ↔ (s.sup.roles.getD t 2 = 1 ∧ reading s.pwr.tj (hottest s.pwr.tj) - 3 ≤ reading s.pwr.tj t)) := by
  refine ⟨_, congrArg Host.Outcome.next (if_pos h), fun t ht => ?_⟩
  have hb := (maskOf_testBit (fun t => decide (reading s.pwr.tj (hottest s.pwr.tj) - 3 ≤ reading s.pwr.tj t) && s.sup.roles.getD t 2 == 1) 17).2 t ht
  simp only [State.setPwr, throttledSet, inService, List.filter_filter, ge_iff_le, BitVec.getLsbD_ofNat, hb]
  simp [ht, and_comm]

/-! ## The stop (15 R432) -/

theorem thermalOff_st (h : s.vault.writing = none) (hb : s.vault.batch = none) (hs : s.vault.st = 3 ∨ s.vault.st = 4) :
    (thermalOff s).vault.st = 1 := by
  simp only [thermalOff, if_pos hs]
  exact detachCheck_st (s := s.setVault { s.vault with busy := 2, hold := true }) rfl h hb

theorem thermalIdle_iff (s : State) :
    (allCtx.all (fun x => (s.ctx x.1 x.2).call.isNone) && s.vault.writing.isNone && s.vault.batch.isNone) = true ↔
      (∀ t i, t < 17 → i < 8 → (s.ctx t i).call = none) ∧ s.vault.writing = none ∧ s.vault.batch = none := by
  have h : allCtx.all (fun x => (s.ctx x.1 x.2).call.isNone) = true ↔ ∀ t i, t < 17 → i < 8 → (s.ctx t i).call = none := by
    rw [List.all_eq_true]
    refine ⟨fun h t i ht hi => by simpa using h _ (mem_allCtx ht hi), fun h x hx => ?_⟩
    obtain ⟨t, ht, c, hc, rfl⟩ : ∃ t < 17, ∃ c < 8, (t, c) = x := by simpa [allCtx, ctxIds] using hx
    simpa using h t c ht hc
  simp only [Bool.and_eq_true, h, Option.isNone_iff_eq_none, and_assoc]

theorem exec_thermalStopped_idle (h : (∀ t i, t < 17 → i < 8 → (s.ctx t i).call = none) ∧ s.vault.writing = none ∧ s.vault.batch = none)
    (h2 : s.pwr.thermal = 2) : exec .thermalStopped s = .next (thermalOff s) :=
  congrArg Host.Outcome.next (if_pos ⟨h2, (thermalIdle_iff s).mpr h⟩)

theorem exec_thermalStopped_not (h : ¬ (s.pwr.thermal = 2 ∧ (∀ t i, t < 17 → i < 8 → (s.ctx t i).call = none) ∧
    s.vault.writing = none ∧ s.vault.batch = none)) : exec .thermalStopped s = .next s :=
  congrArg Host.Outcome.next (if_neg fun hc => h ⟨hc.1, (thermalIdle_iff s).mp hc.2⟩)

/-! ## Self-test (15 R433) -/

theorem State.setTower_self (s : State) (t : Nat) : s.setTower t (s.tower t) = s := by
  have h : s.towers.set t (s.tower t) = s.towers := by
    by_cases ht : t < s.towers.length
    · rw [State.tower, List.getD_eq_getElem _ _ ht, List.set_getElem_self]
    · exact List.set_eq_of_length_le (by omega)
  rw [State.setTower, h]

theorem setTesting_self {t : Nat} (h : (s.tower t).spire.testing = false) : dropTest s (.spire t) = s := by
  have hw : { s.tower t with spire := { (s.tower t).spire with testing := false } } = s.tower t := by rw [← h]
  simp only [dropTest, hw, State.setTower_self]

/-- What a test's end first writes: the part is owed no test. -/
def unowed (s : State) (p : TestPart) : State := { s with sup := { s.sup with owed := s.sup.owed.filter (· != p) } }

theorem exec_selfTestDone_abandoned {p : TestPart} (h : testAbandoned s p = true) (ok : Bool) :
    exec (.selfTestDone p ok) s = .next (dropTest s p) := if_pos h

theorem exec_selfTestDone_spire {t : Nat} (h : spireWaiters s t = []) (ok : Bool) : exec (.selfTestDone (.spire t) ok) s = .next (
    if !(s.tower t).spire.testing then s
    else
      let s1 := countTest (dropTest (unowed s (.spire t)) (.spire t)) ok
      if ok then s1 else retireSpire s1 t) := if_neg (by simp [testAbandoned, h])

theorem exec_selfTestDone_lane {t i : Nat} {h : Bool} {l : Lane} (hl : ((s.tower t).lanes h)[i]? = some l) (ht : l.testing = true)
    (hw : l.role ≠ 1 ∨ laneWaiters s t h = []) : exec (.selfTestDone (.lane t h i) false) s = .next (
      retireLane (countTest (modLane (unowed s (.lane t h i)) t h i (fun x => { x with testing := false })) false) t h i 1) := by
  have hn : testAbandoned s (.lane t h i) = false := by
    simp only [testAbandoned, hl]
    rcases hw with hw | hw <;> simp [hw]
  have he : (((unowed s (.lane t h i)).tower t).lanes h)[i]? = some l := hl
  refine (if_neg (by simp [hn])).trans ?_
  simp only [unowed] at he
  simp only [he, ht]
  rfl

theorem exec_selfTestDone_untested {t : Nat} (h : (s.tower t).spire.testing = false) (ok : Bool) :
    exec (.selfTestDone (.spire t) ok) s = .next s := by
  by_cases hw : spireWaiters s t = []
  · rw [exec_selfTestDone_spire hw, h]
    rfl
  · rw [exec_selfTestDone_abandoned (by simpa [testAbandoned] using hw), setTesting_self h]

/-! ## What a retirement notes (15 R434 to R437) -/

/-- The supervisor but for what a retirement writes: the roles, the spare that takes a tower's place, and the records. -/
def Sup.unretired (u : Sup) : Sup :=
  { u with lastRetire := 0, pending := [], degradedSeen := 0, roles := [], replacing := none, spareReady := false }

theorem Sup.unretired_fields {u v : Sup} (h : u.unretired = v.unretired) : u.tests = v.tests ∧ u.testFails = v.testFails ∧
    u.eccCorr = v.eccCorr ∧ u.eccUncorr = v.eccUncorr ∧ u.rowsDisabled = v.rowsDisabled := by
  have hf {α : Type} (f : Sup → α) : f u.unretired = f v.unretired := congrArg f h
  exact ⟨hf Sup.tests, hf Sup.testFails, hf Sup.eccCorr, hf Sup.eccUncorr, hf Sup.rowsDisabled⟩

theorem noteRetire_sup (s : State) (kind tower lane reason row : Nat) (fuse : Option Nat) :
    (noteRetire s kind tower lane reason row fuse).sup.unretired = s.sup.unretired := by
  simp [noteRetire, Sup.unretired]

theorem noteRetire_roles (s : State) (kind tower lane reason row : Nat) (fuse : Option Nat) :
    (noteRetire s kind tower lane reason row fuse).sup.roles = s.sup.roles := by
  simp [noteRetire]

theorem noteRetire_parts (s : State) (kind tower lane reason row : Nat) (fuse : Option Nat) :
    (noteRetire s kind tower lane reason row fuse).towers = s.towers ∧ (noteRetire s kind tower lane reason row fuse).keep = s.keep := by
  simp [noteRetire]

theorem degradeCheck_sup (s : State) : (degradeCheck s).sup = { s.sup with degradedSeen := (degradeCheck s).sup.degradedSeen } := by
  unfold degradeCheck
  dsimp only
  (repeat' split) <;> simp

theorem degradeCheck_unretired (s : State) : (degradeCheck s).sup.unretired = s.sup.unretired := by
  rw [degradeCheck_sup]
  rfl

theorem drainTower_unretired (s : State) (t : Nat) : (drainTower s t).sup.unretired = s.sup.unretired := by
  unfold drainTower
  dsimp only
  split
  · rfl
  · rw [degradeCheck_unretired]
    (repeat' split) <;> simp [setRole, Sup.unretired]

theorem retireLane_unretired (s : State) (t : Nat) (h : Bool) (i reason : Nat) : (retireLane s t h i reason).sup.unretired = s.sup.unretired := by
  have hm : (markLane s t h i reason).sup.unretired = s.sup.unretired := noteRetire_sup ..
  unfold retireLane
  dsimp only
  rw [degradeCheck_unretired]
  split
  · rw [drainTower_unretired, hm]
  · exact hm

/-! ### The lanes of a tower -/

theorem modLane_lane {t i : Nat} {h : Bool} {f : Lane → Lane} {l : Lane} (ht : t < s.towers.length) (hl : ((s.tower t).lanes h)[i]? = some l) :
    (((modLane s t h i f).tower t).lanes h)[i]? = some (f l) := by
  rw [modLane, State.tower_setTower_same _ _ _ ht]
  cases h <;> simp_all [Tower.lanes]

theorem retireLane_lane {t i reason : Nat} {h : Bool} {l : Lane} (ht : t < s.towers.length) (hl : ((s.tower t).lanes h)[i]? = some l) :
    (((retireLane s t h i reason).tower t).lanes h)[i]? = some { l with role := 2, faulty := true, testing := false } := by
  have htow : (retireLane s t h i reason).towers = (modLane s t h i (fun l => { l with role := 2, faulty := true, testing := false })).towers := by
    have hm : (markLane s t h i reason).towers = (modLane s t h i (fun l => { l with role := 2, faulty := true, testing := false })).towers :=
      (noteRetire_parts ..).1
    have hg (a : State) : (degradeCheck a).towers = a.towers := by simp
    simp only [retireLane, hg]
    split
    · rw [drainTower_towers, hm]
    · exact hm
  rw [State.tower_of_towers_eq htow]
  exact modLane_lane ht hl

theorem degradeCheck_roles (s : State) : (degradeCheck s).sup.roles = s.sup.roles := by rw [degradeCheck_sup]

theorem exec_towerDrained_not {t : Nat} (h : s.sup.roles.getD t 2 ≠ 3 ∨ ∃ i, i < 8 ∧ (s.ctx t i).st ≠ .free) :
    exec (.towerDrained t) s = .next s := by
  refine if_pos (h.imp_right fun ⟨i, hi, hs⟩ => ?_)
  simpa [ctxIds] using ⟨i, hi, hs⟩

theorem exec_towerDrained {t : Nat} (h : s.sup.roles.getD t 2 = 3) (hf : ∀ i, i < 8 → (s.ctx t i).st = .free) :
    ∃ s', exec (.towerDrained t) s = .next s' ∧ s'.sup.roles = s.sup.roles.set t 2 ∧ s'.towers = s.towers := by
  have hn : ¬ (s.sup.roles.getD t 2 ≠ 3 ∨ (!ctxIds.all (fun c => (s.ctx t c).st == .free)) = true) := by
    simp only [h, ctxIds, ne_eq, not_true, false_or, Bool.not_eq_true', Bool.not_eq_false, List.all_eq_true, List.mem_range, beq_iff_eq]
    exact hf
  refine ⟨_, if_neg hn, ?_, ?_⟩
  · rw [degradeCheck_roles]
    (repeat' split) <;> simp [startSpareTest, noteRetire_roles, setRole]
  · (repeat' split) <;> simp [startSpareTest, noteRetire_parts, setRole]

/-! ## A sparing record's burn, read by majority (15 R437) -/

theorem sparingRecs_append (f : Fuse) (r m : Nat) (hm : m ∈ ([7, 6, 5, 3] : List Nat)) :
    sparingRecs { f with sparing := f.sparing ++ [(r, m)] } = sparingRecs f ++ [r] := by
  have h : ∀ m ∈ ([7, 6, 5, 3] : List Nat), ((List.range 3).filter (bitOf m)).length ≥ 2 := by decide
  simp [sparingRecs, h m hm]

theorem burnedCopies_mem (lost : Bool) (k : Nat) :
    (lost = false → burnedCopies lost k = 7) ∧ (lost = true → burnedCopies lost k ∈ ([6, 5, 3] : List Nat)) := by
  refine ⟨fun h => by simp [burnedCopies, h], fun h => ?_⟩
  have hk : ∀ j, j < 3 → ([6, 5, 3] : List Nat).getD j 6 ∈ ([6, 5, 3] : List Nat) := by decide
  simpa [burnedCopies, h] using hk _ (Nat.mod_lt k (by decide))

theorem exec_sparingFuseBurn {r : Nat} {rest : List Nat} (cl : Bool) (h : s.sup.pending = r :: rest) (hh : s.pwr.holdup = true) :
    ∃ s' m, exec (.sparingFuseBurn cl) s = .next s' ∧
      s'.fuse.sparing = s.fuse.sparing ++ [(r, m)] ∧ (cl = false → m = 7) ∧ (cl = true → m ∈ ([6, 5, 3] : List Nat)) ∧
      sparingRecs s'.fuse = sparingRecs s.fuse ++ [r] ∧ s'.sup.pending = rest ∧ s'.sup.copyLost = (s.sup.copyLost || cl) ∧ s'.keep = s.keep := by
  obtain ⟨h7, h3⟩ := burnedCopies_mem cl (Config.freeValue s.free)
  have hm : burnedCopies cl (Config.freeValue s.free) ∈ ([7, 6, 5, 3] : List Nat) := by
    cases cl with
    | false => exact h7 rfl ▸ List.mem_cons_self
    | true => exact List.mem_cons_of_mem _ (h3 rfl)
  have he : exec (.sparingFuseBurn cl) s = .next { s with
        free := s.free + 1
        fuse := { s.fuse with sparing := s.fuse.sparing ++ [(r, burnedCopies cl (Config.freeValue s.free))] }
        sup := { s.sup with pending := rest, copyLost := s.sup.copyLost || cl } } := by
    simp only [exec, execSparingFuseBurn, h, hh, if_true]
  exact ⟨_, _, he, rfl, h7, h3, sparingRecs_append _ _ _ hm, rfl, rfl, rfl⟩

/-! ## Keep rows (15 R434) -/

theorem rowBusy_congr {s r : State} (hk : r.keep = s.keep) (ht : r.towers = s.towers) (row : Nat) : rowBusy r row = rowBusy s row := by
  have hl : rowLines r row = rowLines s row := by
    unfold rowLines setOf poolSets roomsOf
    simp only [hk]
  simp only [rowBusy, hl, State.ctx_congr ht]

theorem lockRow_busy {row : Nat} (h : rowBusy s row = true) : (lockRow s row).keep = s.keep ∧ row ∈ (lockRow s row).sup.rowsWaiting ∧
    (lockRow s row).sup.rowsDisabled = s.sup.rowsDisabled ∧ (lockRow s row).sup.eccUncorr = s.sup.eccUncorr ∧
    (lockRow s row).sup.eccCorr = s.sup.eccCorr := by
  rw [lockRow, if_pos h]
  split
  · exact ⟨rfl, by simpa using ‹s.sup.rowsWaiting.contains row = true›, rfl, rfl, rfl⟩
  · simp

theorem repairRow_room (row : Nat) (h : s.keep.repaired.length < 64) : (repairRow s row).keep = { s.keep with repaired := s.keep.repaired ++ [row] } ∧
    (repairRow s row).sup.eccUncorr = s.sup.eccUncorr ∧ (repairRow s row).sup.eccCorr = s.sup.eccCorr := by
  have he : repairRow s row = noteRetire { s with
      sup := { s.sup with rowCorr := tblSet 0 s.sup.rowCorr row 0 }, keep := { s.keep with repaired := s.keep.repaired ++ [row] } }
      4 0 0 2 row (some (fuseRow row)) := if_pos h
  obtain ⟨-, -, hc, hu, -⟩ := Sup.unretired_fields (he ▸ noteRetire_sup ..)
  exact ⟨he ▸ (noteRetire_parts ..).2, hu, hc⟩

/-- The lines of a row leave it without a word to the supervisor or the repair rows. -/
def RowsStand (s r : State) : Prop := r.sup = s.sup ∧ r.keep.repaired = s.keep.repaired

theorem RowsStand.trans {s r q : State} (h : RowsStand s r) (g : RowsStand r q) : RowsStand s q := ⟨g.1.trans h.1, g.2.trans h.2⟩

theorem rowsStand_foldl {α : Type} {f : State → α → State} (hf : ∀ a x, RowsStand a (f a x)) (l : List α) (s : State) : RowsStand s (l.foldl f s) :=
  List.foldlRecOn (motive := RowsStand s) l f ⟨rfl, rfl⟩ fun _ h x _ => h.trans (hf _ x)

theorem loseKey_rows (s : State) (p cls idx : Nat) : RowsStand s (loseKey s p cls idx) := by
  refine rowsStand_foldl (fun a x => ?_) allCtx s
  dsimp only
  split <;> exact ⟨rfl, rfl⟩

theorem forgetKey_rows (s : State) (p cls idx n : Nat) : RowsStand s (forgetKey s p cls idx n) :=
  RowsStand.trans (r := tcDrop (dropLines s _) _) ⟨rfl, rfl⟩ (loseKey_rows ..)

theorem putLine_rows (s : State) (p cls idx : Nat) (d : Bytes) (st : LineState) (first : Option Nat) :
    RowsStand s (putLine s p cls idx d st first) := ⟨rfl, rfl⟩

theorem lineError_rows (s : State) (key : Nat) : RowsStand s (lineError s key) := by
  unfold lineError
  dsimp only
  split
  · exact ⟨rfl, rfl⟩
  · split
    · exact ⟨rfl, rfl⟩
    · split
      · exact ⟨rfl, rfl⟩
      · exact (forgetKey_rows ..).trans (putLine_rows ..)
    · exact ⟨rfl, rfl⟩

theorem installLine_rows {p cls idx : Nat} {d : Bytes} {st : LineState} {first : Option Nat} {r : State}
    (h : installLine s p cls idx d st first = some r) : RowsStand s r := by
  unfold installLine at h
  dsimp only at h
  (repeat' split at h) <;> cases h <;> exact ⟨rfl, rfl⟩

theorem leaveRow_rows (s : State) (e : Nat × KeepLine) : RowsStand s (leaveRow s e) := by
  have hg (a : State) : RowsStand a (dropLines a (fun k _ => k == e.1)) := ⟨rfl, rfl⟩
  unfold leaveRow
  dsimp only
  split
  · exact hg s
  · split
    next s1 h => exact (hg s).trans (installLine_rows h)
    next => exact (lineError_rows ..).trans (hg _)

theorem disableRow_rows (s : State) (row : Nat) :
    (disableRow s row).sup.rowsDisabled = s.sup.rowsDisabled ++ [row] ∧ (disableRow s row).keep.repaired = s.keep.repaired := by
  obtain ⟨hs, hk⟩ := rowsStand_foldl leaveRow_rows (rowLines s row)
    (noteRetire { s with sup := { s.sup with rowsDisabled := s.sup.rowsDisabled ++ [row] } } 5 0 0 2 row none)
  obtain ⟨-, -, -, -, hd⟩ := Sup.unretired_fields
    (noteRetire_sup { s with sup := { s.sup with rowsDisabled := s.sup.rowsDisabled ++ [row] } } 5 0 0 2 row none)
  exact ⟨(congrArg Sup.rowsDisabled hs).trans hd, hk.trans (congrArg Keep.repaired (noteRetire_parts ..).2)⟩

theorem lockRow_free {row : Nat} (h : rowBusy s row = false) :
    lockRow s row = degradeCheck (repairRow { s with sup := { s.sup with rowsWaiting := s.sup.rowsWaiting.erase row } } row) :=
  if_neg (by simp [h])

theorem lockRow_room {row : Nat} (h : rowBusy s row = false) (hl : s.keep.repaired.length < 64) :
    (lockRow s row).keep = { s.keep with repaired := s.keep.repaired ++ [row] } ∧ (lockRow s row).sup.eccUncorr = s.sup.eccUncorr ∧
    (lockRow s row).sup.eccCorr = s.sup.eccCorr := by
  have hd (a : State) : (degradeCheck a).keep = a.keep := by simp
  obtain ⟨hk, hu, hc⟩ := repairRow_room (s := { s with sup := { s.sup with rowsWaiting := s.sup.rowsWaiting.erase row } }) row hl
  rw [lockRow_free h, hd, hk, degradeCheck_sup]
  exact ⟨rfl, hu, hc⟩

theorem lockRow_full {row : Nat} (h : rowBusy s row = false) (hl : 64 ≤ s.keep.repaired.length) :
    (lockRow s row).sup.rowsDisabled = s.sup.rowsDisabled ++ [row] ∧ (lockRow s row).keep.repaired = s.keep.repaired := by
  have hd (a : State) : (degradeCheck a).keep = a.keep := by simp
  have hr (a : State) (ha : a.keep = s.keep) (hs : a.sup.rowsDisabled = s.sup.rowsDisabled) :
      (repairRow a row).sup.rowsDisabled = s.sup.rowsDisabled ++ [row] ∧ (repairRow a row).keep.repaired = s.keep.repaired := by
    have he : repairRow a row = disableRow { a with sup := { a.sup with rowCorr := tblSet 0 a.sup.rowCorr row 0 } } row :=
      if_neg (by simp [ha, hl])
    rw [he, ← ha, ← hs]
    exact disableRow_rows _ row
  rw [lockRow_free h, hd, degradeCheck_sup]
  exact hr _ rfl rfl

/-! ### The commands of a Keep row -/

theorem exec_keepRowRepair_not {row : Nat} (h : 16384 ≤ row ∨ row ∈ s.sup.rowsDisabled) (u : Bool) (l : Option Nat) :
    exec (.keepRowRepair row u l) s = .next s := if_pos (h.imp_right fun h => by simpa using h)

theorem exec_keepRowRepair_error {row : Nat} (h : row < 16384) (hd : row ∉ s.sup.rowsDisabled) :
    exec (.keepRowRepair row true none) s = .next (lockRow (countUncorr s) row) := by
  have hn : ¬ (row ≥ 16384 ∨ s.sup.rowsDisabled.contains row = true) := by simp [h, hd]
  exact if_neg hn

/-- One more correction in a row, counted. -/
def rowCorrected (s : State) (row : Nat) : State :=
  { s with sup := { s.sup with eccCorr := satAdd 32 s.sup.eccCorr 1, rowCorr := tblSet 0 s.sup.rowCorr row (tblGet 0 s.sup.rowCorr row + 1) } }

theorem exec_keepRowRepair_corrected {row : Nat} (h : row < 16384) (hd : row ∉ s.sup.rowsDisabled) :
    exec (.keepRowRepair row false none) s =
      .next (if 4 ≤ tblGet 0 s.sup.rowCorr row + 1 then lockRow (rowCorrected s row) row else rowCorrected s row) := by
  have hn : ¬ (row ≥ 16384 ∨ s.sup.rowsDisabled.contains row = true) := by simp [h, hd]
  exact if_neg hn

/-! ## Errors that a figure meets (15 R434) -/

theorem runFigure_corrected {t c op : Nat} (h : atFigure s t c op = true) (f : State → State) :
    runFigure s t c op .corrected f = f { pastYield s t c with
      sup := { (pastYield s t c).sup with eccCorr := satAdd 32 (pastYield s t c).sup.eccCorr 1 } } := by
  simp [runFigure, h, faultFits, withFault, countFixed]

theorem tcLookup_tcEvict {t p cls idx : Nat} (ht : t < s.towers.length) : tcLookup (tcEvict s t p cls idx) t p cls idx = none := by
  rw [tcLookup, tcEvict, State.tower_setTower_same _ _ _ ht]
  simp only [Option.map_eq_none_iff, List.find?_eq_none, List.mem_filter]
  rintro e ⟨-, he⟩ hc
  simp [hc] at he

theorem cacheErrors_one {t c i : Nat} {k : Call} (hk : (s.ctx t c).call = some k) (hi : i ∈ slotsOf (isMf k.fn) (workDesc s t c))
    (hl : tcLookup s t (hPart (handleOf (workDesc s t c) i)) (hCls (handleOf (workDesc s t c) i)) (hIdx (handleOf (workDesc s t c) i)) ≠ none) :
    cacheErrors s t c [i] 0 = countUncorr (tcEvict s t (hPart (handleOf (workDesc s t c) i)) (hCls (handleOf (workDesc s t c) i))
      (hIdx (handleOf (workDesc s t c) i))) := by
  obtain ⟨x, hx⟩ := Option.ne_none_iff_exists'.mp hl
  simp [cacheErrors, hk, countFixed, hi, hx]

end Sys2Proof.Machine

/-! SUPPORT. Sampled inputs and SMBus (16 R458 to R460). -/

namespace Sys2Proof.Machine
variable {s : State}

/-! ## Inputs (16 R458) -/

theorem finishFree_dev (s : State) (t c st : Nat) (r : Bytes) : (finishFree s t c st r).dev = s.dev := by simp [finishFree]

theorem modCer_dev (s : State) (t c : Nat) (f : Ceremony → Ceremony) : (modCer s t c f).dev = s.dev := by
  unfold modCer
  split <;> rfl

theorem closeCer_dev (s : State) (t c how : Nat) : (closeCer s t c how).dev = s.dev := by
  unfold closeCer closeCeremony cardsOff
  (repeat' split) <;> simp

theorem rejectAuth_dev (s : State) (t c : Nat) : (rejectAuth s t c).dev = s.dev := by
  unfold rejectAuth
  dsimp only
  split
  · exact finishFree_dev ..
  · rw [finishFree_dev]
    split
    · rw [closeCer_dev, modCer_dev]
      rfl
    · exact modCer_dev ..

theorem authEnd_pulled_dev (s : State) (t c : Nat) : (authEnd s t c 3).dev = s.dev := by
  have h : (modWork (freeUnits s t c) t c (fun w => { w with vals := [3] })).dev = s.dev := by simp [modWork]
  unfold authEnd
  dsimp only
  split
  · simp [setNeeds, h]
  · rw [if_pos rfl, rejectAuth_dev, h]

theorem cardPulled_dev (s : State) (port : Nat) : (cardPulled s port).dev = s.dev := by
  unfold cardPulled
  split
  · rw [authEnd_pulled_dev]
    simp
  · rfl

theorem inputChanged_dev (s : State) (i : Nat) (low : Bool) : (inputChanged s i low).dev = s.dev := by
  unfold inputChanged
  (repeat' split) <;> simp

/-- What one sample of input `i` makes of the inputs' debouncing. -/
def sampledDev (d : Dev) (i : Nat) (low : Bool) : Dev :=
  if low = d.tnIn.getLsbD i then { d with disagree := d.disagree.set i 0 }
  else if d.disagree.getD i 0 + 1 < 10 then { d with disagree := d.disagree.set i (d.disagree.getD i 0 + 1) }
  else { d with disagree := d.disagree.set i 0, tnIn := d.tnIn ^^^ BitVec.ofNat 4 (2 ^ i) }

theorem sampleInput_dev (s : State) (i : Nat) (low : Bool) : (sampleInput s i low).dev = sampledDev s.dev i low := by
  unfold sampleInput sampledDev
  dsimp only
  (repeat' split) <;> simp_all only [inputChanged_dev, cardPulled_dev]

theorem sampledDev_other (d : Dev) {i j : Nat} (low : Bool) (h : j ≠ i) :
    (sampledDev d j low).tnIn.getLsbD i = d.tnIn.getLsbD i ∧ (sampledDev d j low).disagree.getD i 0 = d.disagree.getD i 0 := by
  have hb : (BitVec.ofNat 4 (2 ^ j)).getLsbD i = false := by
    simp only [BitVec.getLsbD_ofNat, Nat.testBit_two_pow_of_ne h, Bool.and_false]
  unfold sampledDev
  (repeat' split) <;> simp only [BitVec.getLsbD_xor, hb, Bool.xor_false, List.getD_eq_getElem?_getD, List.getElem?_set_ne h, and_self]

theorem sampledDev_same (d : Dev) {i : Nat} (low : Bool) (hi : i < 4) :
    (sampledDev d i low).tnIn.getLsbD i ≠ d.tnIn.getLsbD i ↔ (low ≠ d.tnIn.getLsbD i ∧ 9 ≤ d.disagree.getD i 0) := by
  have hb : (BitVec.ofNat 4 (2 ^ i)).getLsbD i = true := by
    simp only [BitVec.getLsbD_ofNat, Nat.testBit_two_pow_self, hi, decide_true, Bool.and_self]
  unfold sampledDev
  split
  next h => simp [h]
  next h =>
    split
    next h9 =>
      have h' : ¬ 9 ≤ d.disagree.getD i 0 := by omega
      simp only [h', and_false, ne_eq, not_true]
    next h9 =>
      have h' : 9 ≤ d.disagree.getD i 0 := by omega
      simp only [BitVec.getLsbD_xor, hb, Bool.xor_true, h', h, ne_eq, Bool.not_eq_self, not_false_eq_true, and_self]

/-- One input's part of INPUT_SAMPLE; TN4 is no card detect in the TEST phase. -/
def inputStep (phase : Nat) (v : BitVec 4) (a : State) (i : Nat) : State :=
  if i = 2 ∧ phase = 3 then a else sampleInput a i (v.getLsbD i)

theorem inputStep_other {phase i j : Nat} (v : BitVec 4) (h : j ≠ i) (s : State) :
    (inputStep phase v s j).dev.tnIn.getLsbD i = s.dev.tnIn.getLsbD i ∧
    (inputStep phase v s j).dev.disagree.getD i 0 = s.dev.disagree.getD i 0 := by
  unfold inputStep
  split
  · exact ⟨rfl, rfl⟩
  · rw [sampleInput_dev]
    exact sampledDev_other _ _ h

theorem inputSteps_other {phase i : Nat} (v : BitVec 4) (l : List Nat) (hl : ∀ j ∈ l, j ≠ i) (s : State) :
    (l.foldl (inputStep phase v) s).dev.tnIn.getLsbD i = s.dev.tnIn.getLsbD i := by
  induction l generalizing s with
  | nil => rfl
  | cons j r ih =>
    obtain ⟨hj, hr⟩ := List.forall_mem_cons.mp hl
    exact (ih hr _).trans (inputStep_other v hj s).1

theorem inputSteps_same {phase i : Nat} (v : BitVec 4) (hi : i < 4) (h2 : ¬ (i = 2 ∧ phase = 3)) (l : List Nat) (hn : l.Nodup)
    (hm : i ∈ l) (s : State) : (l.foldl (inputStep phase v) s).dev.tnIn.getLsbD i ≠ s.dev.tnIn.getLsbD i ↔
      (v.getLsbD i ≠ s.dev.tnIn.getLsbD i ∧ 9 ≤ s.dev.disagree.getD i 0) := by
  induction l generalizing s with
  | nil => nomatch hm
  | cons j r ih =>
    obtain ⟨hnj, hnr⟩ := List.nodup_cons.mp hn
    rw [List.foldl_cons]
    by_cases h : j = i
    · subst h
      rw [inputSteps_other v r (fun k hk => ne_of_mem_of_not_mem hk hnj), inputStep, if_neg h2, sampleInput_dev]
      exact sampledDev_same _ _ hi
    · obtain ⟨hb, hd⟩ := inputStep_other v h s (phase := phase)
      rw [← hb, ← hd]
      exact ih hnr ((List.mem_cons.mp hm).resolve_left (Ne.symm h)) _

theorem exec_inputSample {v : BitVec 4} (h : 2 ≤ s.dev.tnPhase) :
    exec (.inputSample v) s = .next ((List.range 4).foldl (inputStep s.dev.tnPhase v) s) := if_neg (by omega)

/-! ## SMBus (16 R459, R460) -/

theorem smbNack_code {code : Nat} {x : Bytes} (h : x ≠ [] ∨ code = 0 ∨ 6 < code) : smbTransfer s code x = smbNack s := by
  unfold smbTransfer
  split
  · rfl
  next hx =>
    split
    case h_7 => rfl
    all_goals exact absurd (h.resolve_left hx) (by decide)

theorem smbTransfer_alert (h : s.dev.tnPhase ≠ 0) : (smbTransfer s 6 []).smb =
    { (blockRead s 6 [BitVec.ofNat 8 s.smb.alert.toNat]).smb with alert := 0 } := by
  simp only [smbTransfer, if_neg h]
  rfl

end Sys2Proof.Machine

/-! SUPPORT. What a warm reset settles, clears and leaves (16 R449, R450). -/

namespace Sys2Proof.Machine
variable {s r q : State}

/-! ## What a warm reset leaves (16 R449, R450) -/

/-- What stands through the steps that come before a warm reset: all but what the reset clears, the card ports, and the Dome's slots. -/
structure Sheltered (s r : State) : Prop where
  free : r.free = s.free
  dev : r.dev = s.dev
  fuse : r.fuse = s.fuse
  time : r.time = s.time
  reel : r.reel = s.reel
  curves : r.curves = s.curves
  acu : r.acu = s.acu
  host : r.host = s.host
  pending : r.pending = s.pending
  tally : r.mtr.tally = s.mtr.tally
  table : r.cus.table = s.cus.table
  lcs : r.lcs = s.lcs
  pwr : r.pwr = s.pwr
  ledger : r.dome.ledger = s.dome.ledger
  cur : r.dome.cur = s.dome.cur
  next : r.dome.next = s.dome.next
  witness : r.dome.witness = s.dome.witness
  log : r.dome.log = s.dome.log

theorem Sheltered.trans (h : Sheltered s r) (g : Sheltered r q) : Sheltered s q :=
  ⟨g.free.trans h.free, g.dev.trans h.dev, g.fuse.trans h.fuse, g.time.trans h.time, g.reel.trans h.reel, g.curves.trans h.curves, g.acu.trans h.acu,
    g.host.trans h.host, g.pending.trans h.pending, g.tally.trans h.tally, g.table.trans h.table, g.lcs.trans h.lcs, g.pwr.trans h.pwr,
    g.ledger.trans h.ledger, g.cur.trans h.cur, g.next.trans h.next, g.witness.trans h.witness, g.log.trans h.log⟩

theorem Sheltered.refl (s : State) : Sheltered s s := ⟨rfl, rfl, rfl, rfl, rfl, rfl, rfl, rfl, rfl, rfl, rfl, rfl, rfl, rfl, rfl, rfl, rfl, rfl⟩

theorem setActive_table (s : State) (p : Nat) (on : Bool) : (setActive s p on).cus.table = s.cus.table := by
  unfold setActive
  dsimp only
  (repeat' split) <;> rfl

theorem cardsOff_sheltered (s : State) : Sheltered s (cardsOff s) := by
  constructor <;> simp [cardsOff, setActive_table]

theorem closeCeremony_sheltered (s : State) (how : Nat) : Sheltered s (closeCeremony s how) := by
  unfold closeCeremony
  split
  · exact .refl s
  · exact (cardsOff_sheltered s).trans (by constructor <;> simp)

theorem setPendingSlot_sheltered (s : State) (x : RootSlot) : Sheltered s (setPendingSlot s x) := by
  unfold setPendingSlot
  split <;> exact ⟨rfl, rfl, rfl, rfl, rfl, rfl, rfl, rfl, rfl, rfl, rfl, rfl, rfl, rfl, rfl, rfl, rfl, rfl⟩

theorem commitHome_sheltered (s : State) (b : Batch) : Sheltered s (commitHome s b) := by
  unfold commitHome
  refine Sheltered.trans ?_ (setPendingSlot_sheltered _ _)
  exact ⟨rfl, rfl, rfl, rfl, rfl, rfl, rfl, rfl, rfl, rfl, rfl, rfl, rfl, rfl, rfl, rfl, rfl, rfl⟩

theorem hostCheck_sheltered (s : State) (fn : Nat) (w : Bool) (a : Nat) : Sheltered s (hostCheck s fn w a).1 := by
  constructor <;> simp

theorem windowMove_sheltered (s : State) (w : Bool) (ws : List Nat) : Sheltered s (windowMove s w ws).1 := by
  have hc : Sheltered s (windowCheck s w ws).1 :=
    List.foldlRecOn (motive := fun a : State × Bool => Sheltered s a.1) ws _ (.refl s) fun a h x _ => by
      split
      · exact h
      · split
        · exact h
        · exact h.trans (hostCheck_sheltered ..)
  exact hc.trans ⟨rfl, rfl, rfl, rfl, rfl, rfl, rfl, rfl, rfl, rfl, rfl, rfl, rfl, rfl, rfl, rfl, rfl, rfl⟩

theorem writeCheck_sheltered (s : State) (ws : List Nat) : Sheltered s (writeCheck s ws).1 := by
  unfold writeCheck
  dsimp only
  split
  · exact (windowMove_sheltered ..).trans (windowMove_sheltered ..)
  · exact windowMove_sheltered ..

theorem settleBatch_sheltered (s : State) : Sheltered s (settleBatch s) := by
  unfold settleBatch
  split
  · dsimp only
    split
    · exact (writeCheck_sheltered ..).trans (commitHome_sheltered ..)
    · exact writeCheck_sheltered ..
  · exact .refl s

theorem commitHome_cus (s : State) (b : Batch) : (commitHome s b).cus = s.cus := rfl

theorem settleBatch_cer (s : State) : (settleBatch s).cus.cer = s.cus.cer := by
  have h (a : State) (w : Bool) (ws : List Nat) : (windowMove a w ws).1.cus = a.cus := by
    refine List.foldlRecOn (motive := fun x : State × Bool => x.1.cus = a.cus) ws _ rfl fun x hx y _ => ?_
    split
    · exact hx
    · split
      · exact hx
      · simpa using hx
  have hw (a : State) (ws : List Nat) : (writeCheck a ws).1.cus = a.cus := by
    unfold writeCheck
    dsimp only
    split
    · rw [h, h]
    · exact h ..
  unfold settleBatch
  split
  · dsimp only
    split
    · exact congrArg Cus.cer ((commitHome_cus ..).trans (hw ..))
    · exact congrArg Cus.cer (hw ..)
  · rfl

/-! ### The reset itself -/

/-- What a warm reset settles before it clears. -/
def warmStart (s : State) : State := settleBatch (dropTransition (cardsOff (closeCeremony s 5)))

/-- What a warm reset makes of that, but for the heads of the pages. -/
def warmed (s : State) (cause : Nat) : State := { s with
  free := s.free + 2
  dev := { s.dev with ready := false }
  pwr := { s.pwr with cause := BitVec.ofNat 5 (2 ^ cause) }
  rng := { srcs := s.rng.srcs.map NoiseSrc.warm }
  mtr := s.mtr.warm (locked s pgMtr 0) (locked s pgMtr 1) s.dome.ledger
  caller := s.caller.warm (locked s pgArb 0) (locked s pgCaller 0) s.free
  keep := s.keep.warm (locked s pgKeep 0) (locked s pgKeep 1) (s.free + 1)
  vault := s.vault.warm (locked s pgVault 0) (locked s pgVault 1) s.dome
  acu := s.acu.warm
  hif := s.hif.warm (locked s pgHif 0)
  reel := { s.reel with session := none, inbound := none }
  sup := { s.sup with spareTesting := false }
  towers := s.towers.map Tower.warm
  jobs := []
  bind := []
  cus := { s.cus with closing := none } }

/-- Two states that differ in the heads of their pages only. -/
def OffHeads (s r : State) : Prop := r = { s with heads := r.heads }

theorem warmHead_offHeads (s : State) (p : Nat) : OffHeads s (warmHead s p) := rfl

theorem OffHeads.trans (h : OffHeads s r) (g : OffHeads r q) : OffHeads s q := by
  rw [OffHeads, g, h]

theorem warmHeads_offHeads (l : List Nat) (s : State) : OffHeads s (l.foldl warmHead s) :=
  List.foldlRecOn (motive := OffHeads s) l warmHead rfl fun _ h _ _ => h.trans (warmHead_offHeads _ _)

theorem warmReset_eq (s : State) (cause : Nat) :
    warmReset s cause = corePages.foldl warmHead (warmHead (warmed (warmStart s) cause) pgCurves) := by
  unfold warmReset
  rfl

theorem warmReset_offHeads (s : State) (cause : Nat) : OffHeads (warmed (warmStart s) cause) (warmReset s cause) := by
  rw [warmReset_eq]
  exact (warmHead_offHeads _ _).trans (warmHeads_offHeads _ _)

/-- Every part of the state but the heads is after a warm reset what it was made. -/
theorem warmReset_part {α : Type} (f : State → α) (hf : ∀ a h, f { a with heads := h } = f a) (s : State) (cause : Nat) :
    f (warmReset s cause) = f (warmed (warmStart s) cause) := (congrArg f (warmReset_offHeads s cause)).trans (hf ..)

theorem warmReset_cleared (s : State) (cause : Nat) : (warmReset s cause).dev.ready = false ∧
    (warmReset s cause).pwr.cause = BitVec.ofNat 5 (2 ^ cause) ∧ (warmReset s cause).jobs = [] ∧ (warmReset s cause).bind = [] :=
  ⟨warmReset_part (fun a => a.dev.ready) (fun _ _ => rfl) s cause, warmReset_part (fun a => a.pwr.cause) (fun _ _ => rfl) s cause,
    warmReset_part State.jobs (fun _ _ => rfl) s cause, warmReset_part State.bind (fun _ _ => rfl) s cause⟩

theorem warmStart_sheltered (s : State) :
    Sheltered { s with lcs := { s.lcs with transition := none } } (warmStart s) := by
  have h1 : Sheltered s (cardsOff (closeCeremony s 5)) := (closeCeremony_sheltered s 5).trans (cardsOff_sheltered _)
  have h2 : Sheltered { s with lcs := { s.lcs with transition := none } } (dropTransition (cardsOff (closeCeremony s 5))) :=
    ⟨h1.free, h1.dev, h1.fuse, h1.time, h1.reel, h1.curves, h1.acu, h1.host, h1.pending, h1.tally, h1.table,
      congrArg (fun l : Lcs => { l with transition := none }) h1.lcs, h1.pwr, h1.ledger, h1.cur, h1.next, h1.witness, h1.log⟩
  exact h2.trans (settleBatch_sheltered _)

theorem warmStart_cer (s : State) : (warmStart s).cus.cer = none := by
  have h : (cardsOff (closeCeremony s 5)).cus.cer = (closeCeremony s 5).cus.cer := by simp only [cardsOff, setActive_cer]
  rw [warmStart, settleBatch_cer]
  exact h.trans (closeCeremony_cer s 5)

end Sys2Proof.Machine

/-! SUPPORT. Power, spares and pins: the statement. -/

namespace Sys2Proof.Machine
variable {s : State}

/-! ## Power, thermal limits, self-test and spares, clause by clause -/

theorem exec_brownout {mv : Nat} (h : mv < 620) (hr : s.dev.ready = true) : ∃ s', exec (.brownout mv) s = .next s' ∧ s'.dev.ready = false ∧
    s'.pwr.cause = 2 ∧ s'.jobs = [] ∧ s'.bind = [] := by
  have he : exec (.brownout mv) s = .next (if s.dev.ready then warmReset (lcAbort (s.setPwr { s.pwr with vcore := mv, supplyOk := false })) 1
      else lcAbort (s.setPwr { s.pwr with vcore := mv, supplyOk := false })) := if_neg (by omega)
  rw [if_pos hr] at he
  exact ⟨_, he, warmReset_cleared _ 1⟩

theorem thermal_clause (l : List (BitVec 8)) (hl : l.length = 18) : (∀ i, i < 18 → reading l i ≤ reading l (hottest l)) ∧
    ∃ s', exec (.thermalReading l) s = .next s' ∧ s'.pwr.tj = l ∧
      s'.pwr.thermal = (if 2 ≤ s.pwr.thermal then s.pwr.thermal else if 115 ≤ reading l (hottest l) then 2
        else if s.pwr.thermal = 0 ∧ 105 ≤ reading l (hottest l) then 1
        else if s.pwr.thermal = 1 ∧ reading l (hottest l) < 102 then 0 else s.pwr.thermal) ∧
      s'.pwr.tjPeak = (if ∃ p, s.pwr.tjPeak = some p ∧ reading l (hottest l) ≤ p.1.toInt then s.pwr.tjPeak
        else some (l.getD (hottest l) 0, hottest l)) := by
  obtain ⟨htj, hpeak, hst⟩ := thermalStep_pwr (s.setPwr { s.pwr with
    tj := l
    tjPeak := if s.pwr.tjPeak.all (fun p => decide (reading l (hottest l) > p.1.toInt)) then some
      (l.getD (hottest l) 0, hottest l) else s.pwr.tjPeak })
      (reading l (hottest l))
  refine ⟨reading_le_hottest l, _, exec_thermalReading hl, htj, hst, hpeak.trans ?_⟩
  cases hp : s.pwr.tjPeak with
  | none => simp [State.setPwr]
  | some p =>
    by_cases hlt : reading l (hottest l) ≤ p.1.toInt
    · simp [State.setPwr, hlt, not_lt.mpr hlt]
    · simp [State.setPwr, hlt, not_le.mp hlt]

theorem spareTest_clause {t : Nat} (ht : testsOn s = true) (hd : spareDue s = some t) (hn : s.sup.spareTesting = false) :
    exec (.selfTestStart (.spareTower t)) s = exec .spareTowerTest s ∧
      ∃ s', exec .spareTowerTest s = .next s' ∧ s'.sup.spareTesting = true ∧ s'.sup.spareTimer = 0 := by
  have h1 : exec (.selfTestStart (.spareTower t)) s = .next (startSpareTest s) := by
    simp [exec, execSelfTestStart, startTest, ht, hd, hn]
  have h2 : exec .spareTowerTest s = .next (startSpareTest s) := by
    simp [exec, execSpareTowerTest, ht, hd, hn]
  exact ⟨h1.trans h2.symm, _, h2, rfl, rfl⟩

theorem spireTest_clause {t : Nat} (ht : testsOn s = true) (hc : spireClaimable s t = true) (hl : t < s.towers.length) :
    ∃ s', exec (.selfTestStart (.spire t)) s = .next s' ∧ (s'.tower t).spire = { (s.tower t).spire with testing := true } := by
  have he : exec (.selfTestStart (.spire t)) s = .next (s.setTower t { s.tower t with spire := { (s.tower t).spire with testing := true } }) := by
    simp [exec, execSelfTestStart, startTest, ht, hc]
  exact ⟨_, he, by rw [State.tower_setTower_same _ _ _ hl]⟩

theorem spireAbandoned_clause {t : Nat} (ok : Bool) (hw : spireWaiters s t ≠ []) (hl : t < s.towers.length) :
    ∃ s', exec (.selfTestDone (.spire t) ok) s = .next s' ∧
      (s'.tower t).spire = { (s.tower t).spire with testing := false } ∧ s'.sup = s.sup := by
  refine ⟨_, exec_selfTestDone_abandoned (by simpa [testAbandoned] using hw) ok, ?_, rfl⟩
  rw [dropTest, State.tower_setTower_same _ _ _ hl]

theorem spirePassed_clause {t : Nat} (ht : (s.tower t).spire.testing = true) (hw : spireWaiters s t = []) :
    ∃ s', exec (.selfTestDone (.spire t) true) s = .next s' ∧
      s'.sup.tests = (s.sup.tests + 1) % 2 ^ 64 ∧ s'.sup.testFails = s.sup.testFails := by
  have he := exec_selfTestDone_spire hw true
  rw [ht] at he
  exact ⟨_, he, rfl, rfl⟩

theorem laneFailed_clause {t i : Nat} {h : Bool} {l : Lane} (hl : ((s.tower t).lanes h)[i]? = some l) (ht : l.testing = true)
    (hw : l.role ≠ 1 ∨ laneWaiters s t h = []) (hlen : t < s.towers.length) : ∃ s',
      exec (.selfTestDone (.lane t h i) false) s = .next s' ∧ s'.sup.tests = (s.sup.tests + 1) % 2 ^ 64 ∧
      s'.sup.testFails = satAdd 32 s.sup.testFails 1 ∧ ∃ l', ((s'.tower t).lanes h)[i]? = some l' ∧ l'.role = 2 := by
  have hm := modLane_lane (f := fun x => { x with testing := false }) (s := unowed s (.lane t h i)) hlen hl
  have hlen' : t < (modLane (unowed s (.lane t h i)) t h i (fun x => { x with testing := false })).towers.length := by
    simpa [modLane, unowed] using hlen
  obtain ⟨h1, h2, -⟩ := Sup.unretired_fields (retireLane_unretired
    (countTest (modLane (unowed s (.lane t h i)) t h i (fun x => { x with testing := false })) false) t h i 1)
  exact ⟨_, exec_selfTestDone_lane hl ht hw, h1, h2, _, retireLane_lane hlen' hm, rfl⟩

theorem keepRow_clause {row : Nat} (h : row < 16384) (hd : row ∉ s.sup.rowsDisabled) :
    (tblGet 0 s.sup.rowCorr row < 3 → ∃ s', exec (.keepRowRepair row false none) s = .next s' ∧ s'.sup.eccCorr = satAdd 32 s.sup.eccCorr 1 ∧
      s'.keep = s.keep) ∧
    (rowBusy s row = true → ∃ s', exec (.keepRowRepair row true none) s = .next s' ∧ s'.keep = s.keep ∧ row ∈ s'.sup.rowsWaiting ∧
      s'.sup.rowsDisabled = s.sup.rowsDisabled ∧ s'.sup.eccUncorr = satAdd 32 s.sup.eccUncorr 1) ∧
    (rowBusy s row = false → s.keep.repaired.length < 64 →
      (3 ≤ tblGet 0 s.sup.rowCorr row → ∃ s', exec (.keepRowRepair row false none) s = .next s' ∧
        s'.keep = { s.keep with repaired := s.keep.repaired ++ [row] }) ∧
      ∃ s', exec (.keepRowRepair row true none) s = .next s' ∧ s'.keep = { s.keep with repaired := s.keep.repaired ++ [row] } ∧
        s'.sup.eccUncorr = satAdd 32 s.sup.eccUncorr 1) ∧
    (rowBusy s row = false → 64 ≤ s.keep.repaired.length → ∃ s', exec (.keepRowRepair row true none) s = .next s' ∧
      s'.sup.rowsDisabled = s.sup.rowsDisabled ++ [row] ∧ s'.keep.repaired = s.keep.repaired) := by
  have hb (a : State) (hk : a.keep = s.keep) (ht : a.towers = s.towers) : rowBusy a row = rowBusy s row := rowBusy_congr hk ht row
  have he := exec_keepRowRepair_error h hd
  have hc := exec_keepRowRepair_corrected h hd
  refine ⟨fun hn => ?_, fun hbusy => ?_, fun hfree hroom => ⟨fun hn => ?_, ?_⟩, fun hfree hfull => ?_⟩
  · rw [if_neg (by omega)] at hc
    exact ⟨_, hc, rfl, rfl⟩
  · obtain ⟨hk, hw, hdis, hu, -⟩ := lockRow_busy (s := countUncorr s) ((hb (countUncorr s) rfl rfl).trans hbusy)
    exact ⟨_, he, hk, hw, hdis, hu⟩
  · rw [if_pos (by omega)] at hc
    exact ⟨_, hc, (lockRow_room (s := rowCorrected s row) ((hb (rowCorrected s row) rfl rfl).trans hfree) hroom).1⟩
  · obtain ⟨hk, hu, -⟩ := lockRow_room (s := countUncorr s) ((hb (countUncorr s) rfl rfl).trans hfree) hroom
    exact ⟨_, he, hk, hu⟩
  · exact ⟨_, he, lockRow_full (s := countUncorr s) ((hb (countUncorr s) rfl rfl).trans hfree) hfull⟩

theorem sampled_clause {v : BitVec 4} (h : 2 ≤ s.dev.tnPhase) : ∃ s', exec (.inputSample v) s = .next s' ∧ ∀ i, i < 4 →
    ¬ (i = 2 ∧ s.dev.tnPhase = 3) →
    (s'.dev.tnIn.getLsbD i ≠ s.dev.tnIn.getLsbD i ↔ (v.getLsbD i ≠ s.dev.tnIn.getLsbD i ∧ 9 ≤ s.dev.disagree.getD i 0)) :=
  ⟨_, exec_inputSample h, fun _ hi h2 => inputSteps_same v hi h2 _ List.nodup_range (List.mem_range.mpr hi) s⟩

/-- Settles O14. -/
theorem powerThermalSparesAndPins : Obligations.PowerThermalSparesAndPins := by
  unfold Obligations.PowerThermalSparesAndPins
  refine ⟨fun s mv => ⟨fun h => if_pos h, fun h => if_pos h, exec_droop_low, rfl, exec_brownout⟩, fun s l => ⟨fun h => if_pos h, thermal_clause l⟩,
    fun s => ⟨fun h => congrArg Host.Outcome.next (if_neg h), exec_throttleUpdate⟩, ?stop, ?test,
      fun s t => ⟨exec_towerDrained_not, exec_towerDrained⟩,
    ?burn, fun s row => ⟨exec_keepRowRepair_not, keepRow_clause⟩, fun s t c op f h => runFigure_corrected h f, ?cache,
    fun s v => ⟨fun h => if_pos h, sampled_clause⟩, ?smb⟩
  case stop =>
    refine fun s => ⟨exec_thermalStopped_not, fun h => if_pos h, fun h2 hi => ?_, fun h2 => ?_⟩
    · obtain ⟨hc, hw, hb⟩ := id hi
      exact ⟨_, exec_thermalStopped_idle hi h2, rfl, rfl, fun hs => thermalOff_st hw hb hs⟩
    · exact ⟨_, if_neg (by simp [h2]), rfl, rfl⟩
  case test =>
    refine fun s p => ⟨fun h => ⟨?_, ?_⟩, fun t => spareTest_clause, fun t => spireTest_clause, fun t => exec_selfTestDone_untested,
      fun t ok _ => spireAbandoned_clause ok, fun t => spirePassed_clause, fun t h i l => laneFailed_clause⟩
    · simp [exec, execSelfTestStart, h]
    · simp [exec, execSpareTowerTest, h]
  case burn =>
    refine fun s cl => ⟨fun h => ?_, fun r rest => exec_sparingFuseBurn cl⟩
    simp only [exec, execSparingFuseBurn]
    split
    next hp => rw [if_neg (by simpa [hp] using h)]
    next => rfl
  case cache =>
    intro s t c i k ht hk hi h s' hl
    have he : s' = _ := cacheErrors_one hk hi hl
    rw [he]
    exact ⟨tcLookup_tcEvict ht, rfl, rfl, rfl⟩
  case smb =>
    refine fun s => ⟨fun code x h => congrArg Host.Outcome.next (smbNack_code h), rfl, rfl, rfl, rfl, rfl, fun h => ⟨_, rfl, ?_, ?_⟩, fun h => ?_, ?_⟩
    · rw [smbTransfer_alert h]
    · rw [smbTransfer_alert h]
      rfl
    · exact congrArg Host.Outcome.next (if_pos h)
    · simp [exec, execSmbAlertResponse, smbAlertPin, smbAddr, leBytes]
end Sys2Proof.Machine

/-! SUPPORT. Life-cycle requests and the burns of a transition (14 R394 to R399). -/

namespace Sys2Proof.Machine
variable {s r q : State}

/-! ## Requests (14 R397) -/

theorem lcTarget_iff (g : Nat) : lcTarget g = true ↔ g = 1 ∨ g = 2 ∨ g = 5 := by
  simp [lcTarget, or_assoc]

theorem exec_lcs_notTarget {g : Nat} (h1 : g ≠ 1) (h2 : g ≠ 2) (h5 : g ≠ 5) :
    exec (.lcsRequest g) s = .next (recordWerr s pgLcs) ∧ exec (.lcsExecute g) s = .next (recordWerr s pgLcs) := by
  have h : (!lcTarget g) = true := by
    rw [Bool.not_eq_true', ← Bool.not_eq_true, lcTarget_iff]
    simp [h1, h2, h5]
  exact ⟨if_pos h, if_pos h⟩

theorem exec_lcsRequest {g : Nat} (h : g = 1 ∨ g = 2 ∨ g = 5) : exec (.lcsRequest g) s = .next { s with
    free := s.free + 1, lcs := { s.lcs with challenge := leBytes 32 (Config.freeValue s.free), armed := some g } } :=
  if_neg (by simp [(lcTarget_iff g).mpr h])

/-- A root may order the transition. -/
def rootLegal (s : State) (g : Nat) : Bool := (s.lcs.st == 0 || s.lcs.st == 1 || s.lcs.st == 4) && lcPermits s.lcs.st g

/-- The request is fresh and signed by the root. -/
def rootSigned (s : State) (g : Nat) : Prop := s.lcs.armed = some g ∧ ((s.lcs.st = 1 ∧ g = 2) ∨ allZero s.lcs.owner = true) ∧
  p384Verify (beBytes 97 (Config.romKey (if s.lcs.st = 4 then 1 else 0))) (lcMessage s g) s.lcs.auth = true

theorem exec_lcsExecute {g : Nat} (h : g = 1 ∨ g = 2 ∨ g = 5) (ht : s.lcs.transition = none) :
    let s1 : State := { s with lcs := { s.lcs with armed := none } }
    (rootLegal s g = false → exec (.lcsExecute g) s = .next (lcNote s1 6 g)) ∧
    (rootLegal s g = true → ¬ rootSigned s g → exec (.lcsExecute g) s = .next (lcNote s1 5 g)) ∧
    (rootLegal s g = true → rootSigned s g → exec (.lcsExecute g) s =
      if lcRefusal s g ≠ 0 then .next (lcNote s1 (lcRefusal s g) g) else .next (lcBegin s1 g none)) := by
  intro s1
  have hs : rootSigned s g ↔ ¬ ((!(s.lcs.armed == some g)) = true ∨ (!(s.lcs.st == 1 && g == 2 || allZero s.lcs.owner)) = true ∨
      (!p384Verify (beBytes 97 (Config.romKey (if s.lcs.st = 4 then 1 else 0))) (lcMessage s g) s.lcs.auth) = true) := by
    simp [rootSigned]
    tauto
  have he : exec (.lcsExecute g) s = (if (!rootLegal s g) = true then .next (lcNote s1 6 g)
      else if (!(s.lcs.armed == some g)) = true ∨ (!(s.lcs.st == 1 && g == 2 || allZero s.lcs.owner)) = true ∨
        (!p384Verify (beBytes 97 (Config.romKey (if s.lcs.st = 4 then 1 else 0))) (lcMessage s g) s.lcs.auth) = true then .next (lcNote s1 5 g)
      else if lcRefusal s g ≠ 0 then .next (lcNote s1 (lcRefusal s g) g) else .next (lcBegin s1 g none)) :=
    (if_neg (by simp [(lcTarget_iff g).mpr h])).trans (if_neg (by simp [ht]))
  refine ⟨fun hl => ?_, fun hl hn => ?_, fun hl hg => ?_⟩
  · rw [he, if_pos (by simp [hl])]
  · rw [he, if_neg (by simp [hl]), if_pos (not_not.mp (hs.not.mp hn))]
  · rw [he, if_neg (by simp [hl]), if_neg (hs.mp hg)]

theorem lcBegin_begun (g : Nat) (who : Option (Nat × Nat)) : (lcBegin s g who).lcs = { s.lcs with transition := some (g, who) } ∧
    (lcBegin s g who).jobs = [] ∧ (lcBegin s g who).fuse = s.fuse := by
  have h : (cancelJobs s).lcs = s.lcs ∧ (cancelJobs s).fuse = s.fuse :=
    List.foldlRecOn (motive := fun a : State => a.lcs = s.lcs ∧ a.fuse = s.fuse) _ _ ⟨rfl, rfl⟩ fun a h x _ => by simpa using h
  exact ⟨congrArg (fun l : Lcs => { l with transition := some (g, who) }) h.1, rfl, h.2⟩

/-! ## The rows (14 R394 to R396) -/

theorem fuseState_of_rows {l : List Word} (hl : s.fuse.rows = l) :
    fuseState s = if s.fuse.lost || !(l.foldl scanRow {}).ok then 6 else (l.foldl scanRow {}).st := by
  rw [fuseState, rowScan, hl]

/-! ## A transition that is refused (14 R397, R398) -/

theorem lcNote_lcs (s : State) (res g : Nat) : (lcNote s res g).lcs = { s.lcs with result := res, target := g } := by
  unfold lcNote
  dsimp only
  split <;> simp

theorem lcNote_parts (s : State) (res g : Nat) : (lcNote s res g).fuse = s.fuse ∧ (lcNote s res g).dome = s.dome ∧
    (lcNote s res g).vault = s.vault := by
  unfold lcNote
  dsimp only
  split <;> simp

theorem lcAbort_refused {g : Nat} {who : Option (Nat × Nat)} (ht : s.lcs.transition = some (g, who)) (hr : lcRefusal s g ≠ 0) :
    (lcAbort s).lcs = { s.lcs with transition := none, result := lcRefusal s g, target := g } ∧ (lcAbort s).fuse = s.fuse ∧
    (lcAbort s).dome = s.dome := by
  obtain ⟨hf, hd, -⟩ := lcNote_parts { s with lcs := { s.lcs with transition := none }, vault := { s.vault with hold := false } } (lcRefusal s g) g
  have hl := lcNote_lcs { s with lcs := { s.lcs with transition := none }, vault := { s.vault with hold := false } } (lcRefusal s g) g
  simp only [lcAbort, ht, if_neg hr]
  cases who with
  | none => exact ⟨hl, hf, hd⟩
  | some w => simp [hl, hf, hd]

theorem exec_transition_none (h : s.lcs.transition = none) (b : BurnResult) : exec (.lifecycleTransition b) s = .next s := by
  simp only [exec, execLifecycleTransition, h]

theorem exec_transition_refused {g : Nat} {who : Option (Nat × Nat)} (b : BurnResult) (ht : s.lcs.transition = some (g, who))
    (hr : lcRefusal s g ≠ 0) :
    exec (.lifecycleTransition b) s = .next (lcAbort s) := by
  simp only [exec, execLifecycleTransition, ht, if_pos hr]

theorem exec_transition_waits {g : Nat} {who : Option (Nat × Nat)} (b : BurnResult) (ht : s.lcs.transition = some (g, who)) (hr : lcRefusal s g = 0)
    (hd : lcDrained s who = false) : exec (.lifecycleTransition b) s = .next s := by
  simp [exec, execLifecycleTransition, ht, hr, hd]

/-! ## The burns of a transition (14 R398, R399) -/

/-- The owner digest is burned with the row that enters SEALED from BLANK's successor. -/
def ownerBurned (s : State) (g : Nat) : State :=
  if s.lcs.st = 1 ∧ g = 2 then { s with fuse := { s.fuse with owner := burnBytes s.fuse.owner s.lcs.owner } } else s

/-- The step that burns the policy block: a COMMISSION's only. -/
def policyStep (s : State) (g : Nat) (how : StepBurn) : State × BurnEnd :=
  if (s.lcs.st == 2 && g == 3) = true then burnPolicy (ownerBurned s g) how else (ownerBurned s g, .done)

/-- What a row's burn comes to. -/
def rowStep (s : State) (g : Nat) (who : Option (Nat × Nat)) : Option (State × BurnEnd) → State
  | none => s
  | some (a, .done) => enterState a g
  | some (a, .lost) => becomeLost a who
  | some (a, .cut) => coldReset a

theorem exec_transition {g : Nat} {who : Option (Nat × Nat)} (b : BurnResult) (ht : s.lcs.transition = some (g, who)) (hr : lcRefusal s g = 0)
    (hd : lcDrained s who = true) : exec (.lifecycleTransition b) s = .next (match (policyStep s g b.block).2 with
      | .cut => coldReset (policyStep s g b.block).1
      | .lost => becomeLost (policyStep s g b.block).1 who
      | .done => rowStep s g who (burnRow (policyStep s g b.block).1 g b.row)) := by
  simp only [exec, execLifecycleTransition, ht, hr, hd]
  rfl

/-- The steps before a row's burn leave the rows and the access control as they are. -/
structure RowsReady (s r : State) : Prop where
  rows : r.fuse.rows = s.fuse.rows
  acu : r.acu = s.acu

theorem domeAccess_allowed {a : Nat} (h : intRefusal s 6 true a = none) : domeAccess s a = (s, true) := by
  rw [domeAccess, intCheck, h]

theorem domeAccess_refused {a : Nat} (h : intRefusal s 6 true a ≠ none) : (domeAccess s a).2 = false := by
  simpa [domeAccess_ok, Option.isSome_iff_ne_none] using h

theorem ownerBurned_ready (s : State) (g : Nat) : RowsReady s (ownerBurned s g) := by
  unfold ownerBurned
  split <;> exact ⟨rfl, rfl⟩

theorem ownerBurned_policy (s : State) (g : Nat) : (ownerBurned s g).fuse.policy = s.fuse.policy := by
  unfold ownerBurned
  split <;> rfl

theorem RowsReady.scan (h : RowsReady s r) : rowScan r = rowScan s := by rw [rowScan, rowScan, h.rows]

theorem RowsReady.refusal (h : RowsReady s r) (i a : Nat) (w : Bool) : intRefusal r i w a = intRefusal s i w a := intRefusal_congr h.acu i w a

theorem burnPolicy_allowed {how : StepBurn} {i : Nat} (ha : intRefusal s 6 true fuseArray = none) (hb : blankPolicy s = some i) :
    (how = .ok → (burnPolicy s how).2 = .done ∧ RowsReady s (burnPolicy s how).1) ∧
    (∀ b, how = .cut b → burnPolicy s how = (setPolicy s i (fit 49 b), .cut)) := by
  refine ⟨?_, ?_⟩
  · rintro rfl
    simp only [burnPolicy, domeAccess_allowed ha, hb]
    exact ⟨rfl, rfl, rfl⟩
  · rintro b rfl
    simp only [burnPolicy, domeAccess_allowed ha, hb]
    rfl

theorem lcRefusal_zero {g : Nat} (hr : lcRefusal s g = 0) : (rowScan s).used < 24 ∧ (s.lcs.st = 2 ∧ g = 3 → ∃ i, blankPolicy s = some i) := by
  simp only [lcRefusal] at hr
  split at hr
  · cases hr
  · split at hr
    · cases hr
    next hu =>
      split at hr
      · cases hr
      · split at hr
        · cases hr
        next hb => exact ⟨by omega, fun hc => Option.ne_none_iff_exists'.mp fun hn => hb ⟨hc.1, hc.2, by rw [hn]; rfl⟩⟩

theorem policyStep_ok {g : Nat} (hr : lcRefusal s g = 0) (ha : intRefusal s 6 true fuseArray = none) :
    (policyStep s g .ok).2 = .done ∧ RowsReady s (policyStep s g .ok).1 := by
  have h0 := ownerBurned_ready s g
  unfold policyStep
  split
  next hc =>
    obtain ⟨i, hi⟩ := (lcRefusal_zero hr).2 (by simpa using hc)
    have hb : blankPolicy (ownerBurned s g) = some i := by rw [← hi, blankPolicy, blankPolicy, ownerBurned_policy]
    obtain ⟨h2, h1⟩ := (burnPolicy_allowed (how := .ok) ((h0.refusal ..).trans ha) hb).1 rfl
    exact ⟨h2, h1.rows.trans h0.rows, h1.acu.trans h0.acu⟩
  next => exact ⟨rfl, h0⟩

/-! ### The row's burn -/

theorem burnRow_ok {g : Nat} (ha : intRefusal s 6 true fuseArray = none) :
    burnRow s g .ok = some (setRow s (rowScan s).used (lcRow (lcsCode g) ((rowScan s).seq + 1)), .done) := by
  simp only [burnRow, domeAccess_allowed ha]
  rfl

theorem burnRow_retry {g : Nat} (ha : intRefusal s 6 true fuseArray = none) (hk : (rowScan s).used + 1 < 24) : burnRow s g .retry =
    some (setRow (setRow s (rowScan s).used 0xFFFFFFFF) ((rowScan s).used + 1) (lcRow (lcsCode g) ((rowScan s).seq + 1)), .done) := by
  simp [burnRow, domeAccess_allowed ha, hk]

theorem burnRow_noRow {g : Nat} {how : StepBurn} (ha : intRefusal s 6 true fuseArray = none) (hk : (rowScan s).used + 1 = 24)
    (hh : how = .retry ∨ how = .lost) : burnRow s g how = some (setRow s (rowScan s).used 0xFFFFFFFF, .lost) := by
  rcases hh with rfl | rfl <;> simp [burnRow, domeAccess_allowed ha, hk]

theorem burnRow_cut {g : Nat} {b : Bytes} (ha : intRefusal s 6 true fuseArray = none)
    (hc : (scanRow { rowScan s with blank := false, ok := true } (BitVec.ofNat 32 (leVal b))).ok = false) :
    burnRow s g (.cut b) = some (setRow s (rowScan s).used (BitVec.ofNat 32 (leVal b)), .cut) := by
  simp [burnRow, domeAccess_allowed ha, corruptRow, hc]

/-- A burn that fails twice, and one whose access is refused, ends in LOST. -/
theorem burnRow_lost {g : Nat} {how : StepBurn} (h : how = .lost ∨ (how = .ok ∧ intRefusal s 6 true fuseArray ≠ none)) :
    ∃ a, burnRow s g how = some (a, .lost) := by
  by_cases ha : intRefusal s 6 true fuseArray = none
  · obtain rfl := h.resolve_right fun h => h.2 ha
    simp only [burnRow, domeAccess_allowed ha]
    split
    next hf => nomatch hf
    next => split <;> exact ⟨_, rfl⟩
  · simp [burnRow, domeAccess_refused ha]

/-! ### Where a transition ends -/

theorem newCanary_dome (s : State) : (newCanary s).dome = { s.dome with canary := (newCanary s).dome.canary } := rfl

/-- The state before the warm reset that ends a transition. -/
def entered (s : State) (g : Nat) : State :=
  let s1 := closeCeremony (newCanary (clearKeys (dropVault (if g ≥ 4 then clearDomeRam s else clearKeyArea s)))) 1
  lcNote { s1 with dome := { s1.dome with dik := dikOf s1 g }, lcs := { s1.lcs with st := g, transition := none } } 1 g

theorem enterState_eq (s : State) (g : Nat) : enterState s g = warmReset (entered s g) 4 := rfl

theorem entered_fuse (s : State) (g : Nat) : (entered s g).fuse = s.fuse := by
  have h (a : State) : (closeCeremony (newCanary (clearKeys (dropVault a))) 1).fuse = a.fuse :=
    (closeCeremony_calm (newCanary_calm (clearKeys_calm (dropVault_calm (.refl a))))).fuse
  rw [entered, (lcNote_parts ..).1]
  refine (h _).trans ?_
  split <;> rfl

theorem entered_dome (s : State) (g : Nat) : (entered s g).dome.cur = none ∧ (entered s g).dome.next = none ∧
    (4 ≤ g → (entered s g).dome.ledger = {} ∧ (entered s g).dome.witness = [] ∧ (entered s g).dome.log = []) := by
  have h (a : State) : (closeCeremony (newCanary (clearKeys (dropVault a))) 1).dome =
    { a.dome with canary := (newCanary (clearKeys (dropVault a))).dome.canary } := by
    rw [closeCeremony_dome, newCanary_dome]
    exact congrArg (fun d : Dome => { d with canary := (newCanary (clearKeys (dropVault a))).dome.canary }) (dropVault_dome a)
  rw [entered, (lcNote_parts ..).2.1]
  dsimp only
  rw [h]
  refine ⟨?_, ?_, fun hg => ?_⟩
  · split <;> rfl
  · split <;> rfl
  · rw [if_pos hg]
    exact ⟨rfl, rfl, rfl⟩

theorem entered_lcs (s : State) (g : Nat) : (entered s g).lcs.st = g ∧ (entered s g).lcs.result = 1 := by
  rw [entered, lcNote_lcs]
  exact ⟨rfl, rfl⟩

end Sys2Proof.Machine

/-! SUPPORT. Where a transition ends: the new state, LOST, or a cold reset (14 R398 to R401). -/

namespace Sys2Proof.Machine
variable {s r q : State}

/-- What a warm reset leaves of the life cycle, the fuses and the Dome, and what it clears of the custody and the vault. -/
theorem warmReset_kept_parts (s : State) (cause : Nat) : (warmReset s cause).lcs = { s.lcs with transition := none } ∧
    (warmReset s cause).fuse = s.fuse ∧
    (warmReset s cause).dome.cur = s.dome.cur ∧ (warmReset s cause).dome.next = s.dome.next ∧ (warmReset s cause).dome.ledger = s.dome.ledger ∧
    (warmReset s cause).dome.witness = s.dome.witness ∧ (warmReset s cause).dome.log = s.dome.log ∧ (warmReset s cause).cus.cer = none ∧
    (warmReset s cause).vault.groups = [] := by
  have h := warmStart_sheltered s
  have hd : (warmReset s cause).dome = (warmStart s).dome := warmReset_part State.dome (fun _ _ => rfl) s cause
  rw [hd]
  exact ⟨(warmReset_part State.lcs (fun _ _ => rfl) s cause).trans h.lcs, (warmReset_part State.fuse (fun _ _ => rfl) s cause).trans h.fuse,
    h.cur, h.next, h.ledger, h.witness, h.log, (warmReset_part (fun a => a.cus.cer) (fun _ _ => rfl) s cause).trans (warmStart_cer s),
    warmReset_part (fun a => a.vault.groups) (fun _ _ => rfl) s cause⟩

theorem enterState_clauses (s : State) (g : Nat) : (enterState s g).lcs.st = g ∧ (enterState s g).lcs.result = 1 ∧
    (enterState s g).lcs.transition = none ∧ (enterState s g).fuse = s.fuse ∧ (enterState s g).dome.cur = none ∧ (enterState s g).dome.next = none ∧
    (enterState s g).dev.ready = false ∧ (enterState s g).cus.cer = none ∧ (enterState s g).vault.groups = [] ∧ (enterState s g).pwr.cause = 16 ∧
    (4 ≤ g → (enterState s g).dome.ledger = {} ∧ (enterState s g).dome.witness = [] ∧ (enterState s g).dome.log = []) := by
  obtain ⟨hl, hf, hc, hn, hle, hw, hlog, hcer, hv⟩ := warmReset_kept_parts (entered s g) 4
  obtain ⟨hr, hp, -, -⟩ := warmReset_cleared (entered s g) 4
  obtain ⟨hst, hres⟩ := entered_lcs s g
  obtain ⟨dc, dn, d4⟩ := entered_dome s g
  rw [enterState_eq, hl, hf, hc, hn, hle, hw, hlog]
  exact ⟨hst, hres, rfl, entered_fuse s g, dc, dn, hr, hcer, hv, hp, d4⟩

theorem becomeLost_clauses (s : State) (who : Option (Nat × Nat)) : (becomeLost s who).lcs.st = 6 ∧ (becomeLost s who).fuse =
    { s.fuse with lost := true } ∧
    (becomeLost s who).dome.cur = none ∧ (becomeLost s who).dome.next = none ∧ (becomeLost s who).dome.dik = none := by
  have h (a : State) : (clearKeys (dropVault (clearKeyArea (closeCeremony a 5)))).fuse = a.fuse :=
    (clearKeys_calm (dropVault_calm (clearKeyArea_calm (closeCeremony_calm (.refl a))))).fuse
  have hd (a : State) : (clearKeys (dropVault (clearKeyArea a))).dome = (clearKeyArea a).dome :=
    (clearKeys_endsCalls _).dome.trans (dropVault_dome _)
  unfold becomeLost
  dsimp only
  rw [hd, h]
  cases who with
  | none => exact ⟨rfl, rfl, rfl, rfl, rfl⟩
  | some w =>
    rw [(abortCall_frame s w.1 w.2 .free).2.2.2.2.1]
    exact ⟨rfl, rfl, rfl, rfl, rfl⟩

theorem coldReset_clauses (s : State) : (coldReset s).fuse.rows = s.fuse.rows ∧ (coldReset s).fuse.policy = s.fuse.policy ∧
    (coldReset s).fuse.loaded = false ∧ (coldReset s).dev.ready = false := ⟨rfl, rfl, rfl, rfl⟩

theorem fuseState_lost (h : s.fuse.lost = true) : fuseState s = 6 := by simp [fuseState, h]

/-! ### The transition's clauses -/

/-- A transition whose first step is over. -/
structure Entering (s : State) (g : Nat) (who : Option (Nat × Nat)) : Prop where
  order : s.lcs.transition = some (g, who)
  permitted : lcRefusal s g = 0
  drained : lcDrained s who = true

variable {g : Nat} {who : Option (Nat × Nat)}

/-- The policy step of a burn that says nothing of the block, and the row's burn after it. -/
theorem Entering.exec_row (h : Entering s g who) (ha : intRefusal s 6 true fuseArray = none) (how : StepBurn) : ∃ r, RowsReady s r ∧
    exec (.lifecycleTransition { row := how }) s = .next (rowStep s g who (burnRow r g how)) := by
  obtain ⟨hdone, hready⟩ := policyStep_ok h.permitted ha
  refine ⟨_, hready, (exec_transition _ h.order h.permitted h.drained).trans ?_⟩
  simp only [hdone]

theorem Entering.burned (h : Entering s g who) (ha : intRefusal s 6 true fuseArray = none) :
    ∃ s', exec (.lifecycleTransition {}) s = .next s' ∧ s'.lcs.st = g ∧ s'.lcs.result = 1 ∧ s'.lcs.transition = none ∧
      s'.fuse.rows = s.fuse.rows.set (rowScan s).used (s.fuse.rows.getD (rowScan s).used 0 ||| lcRow (lcsCode g) ((rowScan s).seq + 1)) ∧
      s'.dome.cur = none ∧ s'.dome.next = none ∧ s'.dev.ready = false ∧ s'.cus.cer = none ∧ s'.vault.groups = [] ∧ s'.pwr.cause = 16 ∧
      (4 ≤ g → s'.dome.ledger = {} ∧ s'.dome.witness = [] ∧ s'.dome.log = []) := by
  obtain ⟨r, hr, he⟩ := h.exec_row ha .ok
  rw [burnRow_ok ((hr.refusal ..).trans ha)] at he
  obtain ⟨h1, h2, h3, h4, h5, h6, h7, h8, h9, h10, h11⟩ :=
    enterState_clauses (setRow r (rowScan r).used (lcRow (lcsCode g) ((rowScan r).seq + 1))) g
  refine ⟨_, he, h1, h2, h3, (congrArg Fuse.rows h4).trans ?_, h5, h6, h7, h8, h9, h10, h11⟩
  simp only [setRow, hr.rows, hr.scan]

theorem Entering.repeated (h : Entering s g who) (ha : intRefusal s 6 true fuseArray = none) (hk : (rowScan s).used + 1 < 24) :
    ∃ s', exec (.lifecycleTransition { row := .retry }) s = .next s' ∧ s'.lcs.st = g ∧
      s'.fuse.rows = (s.fuse.rows.set (rowScan s).used (s.fuse.rows.getD (rowScan s).used 0 ||| 0xFFFFFFFF)).set ((rowScan s).used + 1)
        ((s.fuse.rows.set (rowScan s).used (s.fuse.rows.getD (rowScan s).used 0 ||| 0xFFFFFFFF)).getD ((rowScan s).used + 1) 0 |||
          lcRow (lcsCode g) ((rowScan s).seq + 1)) := by
  obtain ⟨r, hr, he⟩ := h.exec_row ha .retry
  rw [burnRow_retry ((hr.refusal ..).trans ha) (by rwa [hr.scan])] at he
  obtain ⟨h1, -, -, h4, -⟩ := enterState_clauses
    (setRow (setRow r (rowScan r).used 0xFFFFFFFF) ((rowScan r).used + 1) (lcRow (lcsCode g) ((rowScan r).seq + 1))) g
  refine ⟨_, he, h1, (congrArg Fuse.rows h4).trans ?_⟩
  simp only [setRow, hr.rows, hr.scan]

theorem Entering.noRow (h : Entering s g who) (ha : intRefusal s 6 true fuseArray = none) (hk : (rowScan s).used + 1 = 24) (how : StepBurn)
    (hh : how = .retry ∨ how = .lost) : ∃ s', exec (.lifecycleTransition { row := how }) s = .next s' ∧ s'.lcs.st = 6 ∧
      s'.fuse.rows = s.fuse.rows.set (rowScan s).used (s.fuse.rows.getD (rowScan s).used 0 ||| 0xFFFFFFFF) := by
  obtain ⟨r, hr, he⟩ := h.exec_row ha how
  rw [burnRow_noRow ((hr.refusal ..).trans ha) (by rwa [hr.scan]) hh] at he
  obtain ⟨h1, h2, -⟩ := becomeLost_clauses (setRow r (rowScan r).used 0xFFFFFFFF) who
  refine ⟨_, he, h1, (congrArg Fuse.rows h2).trans ?_⟩
  simp only [setRow, hr.rows, hr.scan]

theorem Entering.blockCut (h : Entering s g who) (ha : intRefusal s 6 true fuseArray = none) {i : Nat} (b : Bytes) (hc : s.lcs.st = 2 ∧ g = 3)
    (hb : blankPolicy s = some i) : ∃ s', exec (.lifecycleTransition { block := .cut b }) s = .next s' ∧
      s'.fuse.policy = (setPolicy s i (fit 49 b)).fuse.policy ∧ s'.fuse.rows = s.fuse.rows ∧ s'.fuse.loaded = false := by
  have ho : ownerBurned s g = s := if_neg (by omega)
  have hp : policyStep s g (.cut b) = (setPolicy s i (fit 49 b), .cut) := by
    rw [policyStep, if_pos (by simp [hc]), ho]
    exact (burnPolicy_allowed ha hb).2 b rfl
  refine ⟨coldReset (setPolicy s i (fit 49 b)), (exec_transition _ h.order h.permitted h.drained).trans ?_, rfl, rfl, rfl⟩
  simp only [hp]

theorem Entering.rowCut (h : Entering s g who) (ha : intRefusal s 6 true fuseArray = none) (b : Bytes)
    (hc : (scanRow { rowScan s with blank := false, ok := true } (BitVec.ofNat 32 (leVal b))).ok = false) :
    ∃ s', exec (.lifecycleTransition { row := .cut b }) s = .next s' ∧
      s'.fuse.rows = s.fuse.rows.set (rowScan s).used (s.fuse.rows.getD (rowScan s).used 0 ||| BitVec.ofNat 32 (leVal b)) ∧
      s'.dev.ready = false ∧ s'.fuse.loaded = false := by
  obtain ⟨r, hr, he⟩ := h.exec_row ha (.cut b)
  rw [burnRow_cut ((hr.refusal ..).trans ha) (by rwa [hr.scan])] at he
  refine ⟨_, he, ?_, rfl, rfl⟩
  refine (coldReset_clauses _).1.trans ?_
  simp only [setRow, hr.rows, hr.scan]

/-- A state that a lost device is in. -/
theorem becomeLost_lost (a : State) (who : Option (Nat × Nat)) : (becomeLost a who).lcs.st = 6 ∧ (becomeLost a who).fuse.lost = true ∧
    (becomeLost a who).dome.cur = none ∧ (becomeLost a who).dome.next = none ∧ (becomeLost a who).dome.dik = none ∧
      fuseState (becomeLost a who) = 6 := by
  obtain ⟨h1, h2, h3, h4, h5⟩ := becomeLost_clauses a who
  have hl : (becomeLost a who).fuse.lost = true := congrArg Fuse.lost h2
  exact ⟨h1, hl, h3, h4, h5, fuseState_lost hl⟩

theorem burnPolicy_refused {how : StepBurn} (ha : intRefusal s 6 true fuseArray ≠ none) : (burnPolicy s how).2 = .lost := by
  simp [burnPolicy, domeAccess_refused ha]

theorem Entering.lost (h : Entering s g who) (how : StepBurn) (hh : how = .lost ∨ (how = .ok ∧ intRefusal s 6 true fuseArray ≠ none)) :
    ∃ s', exec (.lifecycleTransition { row := how }) s = .next s' ∧
      s'.lcs.st = 6 ∧ s'.fuse.lost = true ∧ s'.dome.cur = none ∧ s'.dome.next = none ∧ s'.dome.dik = none ∧ fuseState s' = 6 := by
  suffices hx : ∃ a, exec (.lifecycleTransition { row := how }) s = .next (becomeLost a who) by
    obtain ⟨a, ha⟩ := hx
    exact ⟨_, ha, becomeLost_lost a who⟩
  by_cases ha : intRefusal s 6 true fuseArray = none
  · obtain ⟨r, hr, he⟩ := h.exec_row ha how
    obtain ⟨a, hb⟩ := burnRow_lost (s := r) (g := g) (how := how) (by rwa [hr.refusal])
    rw [hb] at he
    exact ⟨a, he⟩
  · have h0 := ownerBurned_ready s g
    have he := exec_transition { row := how } h.order h.permitted h.drained
    by_cases hc : (s.lcs.st == 2 && g == 3) = true
    · have hp : (policyStep s g .ok).2 = .lost := by
        rw [policyStep, if_pos hc]
        exact burnPolicy_refused (by rwa [h0.refusal])
      simp only [hp] at he
      exact ⟨_, he⟩
    · have hp : policyStep s g .ok = (ownerBurned s g, .done) := if_neg hc
      obtain ⟨a, hb⟩ := burnRow_lost (s := ownerBurned s g) (g := g) (how := how) (by rwa [h0.refusal])
      simp only [hp, hb] at he
      exact ⟨a, he⟩

end Sys2Proof.Machine

/-! SUPPORT. What a warm reset's commands leave, and the steps of start-up (16 R445 to R449). -/

namespace Sys2Proof.Machine
variable {s r q : State}

/-! ## Warm and cold resets (16 R448, R449) -/

/-- What the two commands of a warm reset leave and clear. -/
structure WarmedFrom (s r : State) : Prop where
  ready : r.dev.ready = false
  jobs : r.jobs = []
  bind : r.bind = []
  lines : r.keep.lines = []
  cer : r.cus.cer = none
  transition : r.lcs.transition = none
  numTf : r.hif.numTf = 0
  cpls : r.hif.cpls = []
  time : r.time = s.time
  fuse : r.fuse = s.fuse
  straps : r.dev.straps = s.dev.straps
  reel : r.reel = { s.reel with session := none, inbound := none }
  ledger : r.dome.ledger = s.dome.ledger
  cur : r.dome.cur = s.dome.cur
  curves : r.curves = s.curves
  tally : r.mtr.tally = s.mtr.tally
  table : r.cus.table = s.cus.table
  host : r.host = s.host
  pending : r.pending = s.pending
  ctx : ∀ t c, t < 17 → (r.ctx t c).st = .free ∧ (r.ctx t c).call = none
  entries : ∀ e, (∃ x, (e, x) ∈ r.acu.tf) → ∃ x, (e, x) ∈ s.acu.tf ∧ x.lock = true

theorem ctx_of_warm (s : State) (t c : Nat) (h : r.towers = s.towers.map Tower.warm) : r.ctx t c = {} := by
  have hx (w : Tower) : w.warm.ctxs.getD c {} = ({} : Ctx) := by
    rw [List.getD_eq_getElem?_getD]
    exact List.getElem?_getD_replicate_default_eq ({} : Ctx) 8 c
  have ht : r.tower t = (s.tower t).warm := by
    simp only [State.tower, h, List.getD_eq_getElem?_getD, List.getElem?_map]
    cases s.towers[t]? <;> rfl
  rw [State.ctx, ht, hx]

theorem warmReset_from (s : State) (cause : Nat) : WarmedFrom s (warmReset s cause) := by
  have h := warmStart_sheltered s
  have hp {α : Type} (f : State → α) (hf : ∀ a h, f { a with heads := h } = f a) := warmReset_part f hf s cause
  have hstraps : (warmStart s).dev.straps = s.dev.straps := congrArg Dev.straps h.dev
  refine {
    ready := hp (fun a => a.dev.ready) fun _ _ => rfl
    jobs := hp State.jobs fun _ _ => rfl
    bind := hp State.bind fun _ _ => rfl
    lines := hp (fun a => a.keep.lines) fun _ _ => rfl
    cer := (hp (fun a => a.cus.cer) fun _ _ => rfl).trans (warmStart_cer s)
    transition := (hp (fun a => a.lcs.transition) fun _ _ => rfl).trans (congrArg Lcs.transition h.lcs)
    numTf := hp (fun a => a.hif.numTf) fun _ _ => rfl
    cpls := hp (fun a => a.hif.cpls) fun _ _ => rfl
    time := (hp State.time fun _ _ => rfl).trans h.time
    fuse := (hp State.fuse fun _ _ => rfl).trans h.fuse
    straps := (hp (fun a => a.dev.straps) fun _ _ => rfl).trans hstraps
    reel := (hp State.reel fun _ _ => rfl).trans (congrArg (fun x : Reel => { x with session := none, inbound := none }) h.reel)
    ledger := (hp (fun a => a.dome.ledger) fun _ _ => rfl).trans h.ledger
    cur := (hp (fun a => a.dome.cur) fun _ _ => rfl).trans h.cur
    curves := (hp State.curves fun _ _ => rfl).trans h.curves
    tally := (hp (fun a => a.mtr.tally) fun _ _ => rfl).trans h.tally
    table := (hp (fun a => a.cus.table) fun _ _ => rfl).trans h.table
    host := (hp State.host fun _ _ => rfl).trans h.host
    pending := (hp State.pending fun _ _ => rfl).trans h.pending
    ctx := fun t c _ => ?ctx
    entries := fun e he => ?entries }
  case ctx =>
    rw [ctx_of_warm (warmStart s) t c (hp State.towers fun _ _ => rfl)]
    exact ⟨rfl, rfl⟩
  case entries =>
    have ha : (warmReset s cause).acu.tf = s.acu.tf.filter (·.2.lock) :=
      (hp (fun a => a.acu.tf) fun _ _ => rfl).trans (congrArg (fun x : Acu => x.warm.tf) h.acu)
    obtain ⟨x, hx⟩ := he
    rw [ha] at hx
    obtain ⟨hm, hl⟩ := List.mem_filter.mp hx
    exact ⟨x, hm, hl⟩

theorem warm_commands (h : s.dev.ready = true) (i : Instr) (hi : i ∈ ([Instr.warmReset, .mfFlr false] : List Instr)) :
    exec i s = .next (warmReset s (if i = .warmReset then 2 else 3)) := by
  simp only [List.mem_cons, List.not_mem_nil, or_false] at hi
  rcases hi with rfl | rfl
  · exact congrArg Host.Outcome.next (if_pos h)
  · simp [exec, execMfFlr, h]

theorem warm_clause (h : s.dev.ready = true) (i : Instr) (hi : i ∈ ([Instr.warmReset, .mfFlr false] : List Instr)) :
    ∃ s', exec i s = .next s' ∧ WarmedFrom s s' ∧ s'.pwr.cause = if i = .warmReset then 4 else 8 := by
  refine ⟨_, warm_commands h i hi, warmReset_from .., ?_⟩
  rw [(warmReset_cleared ..).2.1]
  split <;> rfl

/-! ## Start-up (16 R445, R446) -/

/-- Start-up's steps neither learn nor forget the time. -/
theorem time_foldl {α : Type} {f : State → α → State} (hf : ∀ a x, (f a x).time = a.time) (l : List α) (s : State) : (l.foldl f s).time = s.time :=
  List.foldlRecOn (motive := fun a : State => a.time = s.time) l f rfl fun _ h x _ => (hf _ x).trans h

theorem noteRetire_time (s : State) (kind tower lane reason row : Nat) (fuse : Option Nat) :
    (noteRetire s kind tower lane reason row fuse).time = s.time := by simp [noteRetire]

theorem enterSpare_time (s : State) (t : Nat) (h : Bool) : (enterSpare s t h).time = s.time := by
  unfold enterSpare
  dsimp only
  (repeat' split) <;> rfl

theorem markLane_time (s : State) (t : Nat) (h : Bool) (i reason : Nat) : (markLane s t h i reason).time = s.time := noteRetire_time ..

theorem startLaneFail_time (s : State) (x : Nat × Bool × Nat) : (startLaneFail s x).time = s.time := by
  unfold startLaneFail
  split
  · rfl
  · split
    · rfl
    · rw [enterSpare_time, markLane_time]

theorem drainTower_time (s : State) (t : Nat) : (drainTower s t).time = s.time := by
  unfold drainTower
  dsimp only
  (repeat' split) <;> simp [setRole]

theorem startTower_time (s : State) (t : Nat) : (startTower s t).time = s.time := by
  unfold startTower
  dsimp only
  split
  · rfl
  · split
    · exact noteRetire_time ..
    · exact drainTower_time ..

theorem startSource_time (bad : List Nat) (s : State) (i : Nat) : (startSource bad s i).time = s.time := by
  unfold startSource retireSource setSrc
  dsimp only
  (repeat' split) <;> simp

theorem rngState_time (s : State) : (rngState s).time = s.time := by
  unfold rngState
  dsimp only
  (repeat' split) <;> simp

theorem starveCheck_time (old s : State) : (starveCheck old s).time = s.time := by
  refine time_foldl (fun a i => ?_) _ s
  have hu (b : State) (l : List (Nat × Nat)) : (l.foldl (fun d x => rngUnavailable d x.1 x.2) b).time = b.time :=
    time_foldl (fun d x => by simp [rngUnavailable]) l b
  split
  · dsimp only
    split
    · rw [hu, (raise_frame ..).2.2.2.2.2.2.2.2.2.2.1]
    · simp
  · rfl

theorem startDrbgs_time (s : State) : (startDrbgs s).time = s.time := by
  unfold startDrbgs
  split
  · rfl
  · refine time_foldl (fun a i => ?_) _ s
    rfl

end Sys2Proof.Machine

/-! SUPPORT. The life cycle and the resets: the statement. -/

namespace Sys2Proof.Machine
variable {s : State}

/-- The parts as self-test leaves them, in a device that starts. -/
def selfTested (s : State) (lanes : List (Nat × Bool × Nat)) (spires sources : List Nat) : State :=
  let s1 := (spareFirst s lanes).foldl startLaneFail s
  let s2 := startTowers (spires.foldl markSpire s1)
  startDrbgs (starveCheck s (rngState ((List.range 6).foldl (startSource sources) s2)))

theorem selfTested_time (s : State) (lanes : List (Nat × Bool × Nat)) (spires sources : List Nat) :
    (selfTested s lanes spires sources).time = s.time := by
  have hmark (a : State) (t : Nat) : (markSpire a t).time = a.time := rfl
  have hm (a : State) : (spires.foldl markSpire a).time = a.time := time_foldl hmark _ a
  have ht (a : State) : (startTowers a).time = a.time := time_foldl startTower_time _ a
  rw [selfTested, startDrbgs_time, starveCheck_time, rngState_time, time_foldl (startSource_time sources), ht, hm, time_foldl startLaneFail_time]

theorem selfTested_fuse (s : State) (lanes : List (Nat × Bool × Nat)) (spires sources : List Nat) :
    (selfTested s lanes spires sources).fuse = s.fuse := by
  have h1 : Calm s ((spareFirst s lanes).foldl startLaneFail s) := (Calm.refl s).foldl fun _ _ => startLaneFail_calm
  have h2 : Calm s (spires.foldl markSpire ((spareFirst s lanes).foldl startLaneFail s)) := h1.foldl fun _ _ => markSpire_calm
  have h3 : Calm s ((List.range 6).foldl (startSource sources) (startTowers (spires.foldl markSpire ((spareFirst s lanes).foldl startLaneFail s)))) :=
    (startTowers_calm h2).foldl fun _ _ => startSource_calm
  exact (startDrbgs_calm (starveCheck_calm (rngState_calm h3))).fuse

/-- READY and what DEV_BOOT shows, over the parts as self-test left them. -/
def booted (s s3 : State) (lanes : List (Nat × Bool × Nat)) (spires : List Nat) (core : Bool) (us : Nat) : State :=
  let dead := decide (s.lcs.st ≥ 5)
  let bits := if dead then 0 else selftestBits s3 lanes spires core
  { s3 with dev := { s3.dev with ready := true, selftestFail := core && !dead, selftest := BitVec.ofNat 24 bits, bootUs := min us 65535 } }

theorem exec_deviceReady {lanes : List (Nat × Bool × Nat)} {spires sources : List Nat} {core : Bool} {us : Nat} (hl : s.fuse.loaded = true)
    (hr : s.dev.ready = false) : exec (.deviceReady lanes spires sources core us) s = .next (degradeCheck (lateTamper (raise
      (booted s (if s.lcs.st ≥ 5 then s else selfTested s lanes spires sources) lanes spires core us) pgDev 1))) := by
  have hn : ¬ ((!s.fuse.loaded) = true ∨ s.dev.ready = true) := by simp [hl, hr]
  by_cases hd : s.lcs.st ≥ 5
  · simp only [exec, execDeviceReady, if_neg hn, hd, decide_true, if_true, booted]
  · simp only [exec, execDeviceReady, if_neg hn, hd, decide_false, Bool.false_eq_true, if_false, booted, selfTested]

theorem booted_parts (s s3 : State) (lanes : List (Nat × Bool × Nat)) (spires : List Nat) (core : Bool) (us : Nat) :
    (booted s s3 lanes spires core us).dev.ready = true ∧ (booted s s3 lanes spires core us).dev.bootUs = min us 65535 ∧
    (booted s s3 lanes spires core us).dev.selftestFail = (core && decide (s.lcs.st < 5)) ∧ (booted s s3 lanes spires core us).fuse = s3.fuse ∧
    (booted s s3 lanes spires core us).time = s3.time := by
  refine ⟨rfl, rfl, ?_, rfl, rfl⟩
  simp only [booted, ← decide_not, not_le]

theorem lateTamper_parts (s : State) : (lateTamper s).dev = s.dev ∧ (lateTamper s).fuse = s.fuse ∧ (lateTamper s).time = s.time := by
  unfold lateTamper
  split <;> simp

theorem deviceReady_clause {lanes : List (Nat × Bool × Nat)} {spires sources : List Nat} {core : Bool} {us : Nat} (hl : s.fuse.loaded = true)
    (hr : s.dev.ready = false) : ∃ s', exec (.deviceReady lanes spires sources core us) s = .next s' ∧ s'.dev.ready = true ∧
      s'.dev.bootUs = min us 65535 ∧ s'.dev.selftestFail = (core && decide (s.lcs.st < 5)) ∧ s'.fuse = s.fuse ∧ s'.time = s.time := by
  have hp (a : State) : (degradeCheck (lateTamper (raise a pgDev 1))).dev = a.dev ∧ (degradeCheck (lateTamper (raise a pgDev 1))).fuse = a.fuse ∧
      (degradeCheck (lateTamper (raise a pgDev 1))).time = a.time := by
    simp [lateTamper_parts]
  have hs : (if s.lcs.st ≥ 5 then s else selfTested s lanes spires sources).fuse = s.fuse ∧
      (if s.lcs.st ≥ 5 then s else selfTested s lanes spires sources).time = s.time := by
    split
    · exact ⟨rfl, rfl⟩
    · exact ⟨selfTested_fuse .., selfTested_time ..⟩
  obtain ⟨hr', hb, hf, hfuse, htime⟩ := booted_parts s (if s.lcs.st ≥ 5 then s else selfTested s lanes spires sources) lanes spires core us
  refine ⟨_, exec_deviceReady hl hr, ?_⟩
  obtain ⟨hdev, hfuse', htime'⟩ := hp (booted s (if s.lcs.st ≥ 5 then s else selfTested s lanes spires sources) lanes spires core us)
  rw [hdev, hfuse', htime', hfuse, htime]
  exact ⟨hr', hb, hf, hs.1, hs.2⟩

/-! ## A link change (16 R450) -/

/-- Only the messages and the pending bits of the MF change in the host interface when a head's cause is raised. -/
theorem raise_link (s : State) (p b : Nat) : (raise s p b).hif.speed = s.hif.speed ∧ (raise s p b).hif.width = s.hif.width ∧
    (raise s p b).hif.reversed = s.hif.reversed ∧ (raise s p b).hif.qps = s.hif.qps := by
  have hs (a : State) (v : Nat) : (signal a mfNum v).hif.speed = a.hif.speed ∧ (signal a mfNum v).hif.width = a.hif.width ∧
      (signal a mfNum v).hif.reversed = a.hif.reversed ∧ (signal a mfNum v).hif.qps = a.hif.qps := by
    unfold signal
    dsimp only
    (repeat' split) <;> exact ⟨rfl, rfl, rfl, rfl⟩
  unfold raise putHead
  dsimp only
  split
  · exact ⟨rfl, rfl, rfl, rfl⟩
  · split
    · exact hs _ _
    · exact ⟨rfl, rfl, rfl, rfl⟩

theorem linkChange_clause (s : State) (sp w : Nat) (rev : Bool) :
    let ok := sp ∈ ([0, 3, 4, 5] : List Nat) ∧ (w ∈ ([1, 2, 4, 8] : List Nat) ∨ (sp = 0 ∧ w = 0)) ∧ rev = s.hif.reversed
    (¬ ok → exec (.linkChange sp w rev) s = .next s) ∧
    (ok → ∃ s', exec (.linkChange sp w rev) s = .next s' ∧ s'.hif.speed = sp ∧ s'.hif.width = w ∧ s'.hif.reversed = s.hif.reversed ∧
      s'.hif.qps = s.hif.qps ∧ s'.towers = s.towers) := by
  intro ok
  have hok : ((sp == 0 || sp == 3 || sp == 4 || sp == 5) && (w == 1 || w == 2 || w == 4 || w == 8 || (sp == 0 && w == 0)) &&
      rev == s.hif.reversed) = true ↔ ok := by
    simp [ok, or_assoc, and_assoc]
  refine ⟨fun hn => congrArg Host.Outcome.next (if_pos ?_), fun h => ⟨_, congrArg Host.Outcome.next (if_neg ?_), ?_⟩⟩
  · rw [Bool.not_eq_true', ← Bool.not_eq_true]
    exact mt hok.mp hn
  · rw [Bool.not_eq_true', hok.mpr h]
    nofun
  · split
    · exact ⟨rfl, rfl, rfl, rfl, rfl⟩
    · obtain ⟨h1, h2, h3, h4⟩ := raise_link { s with
        hif := { s.hif with speed := sp, width := w }, dev := { s.dev with perst := s.dev.perst && sp == 0 } } pgHif 5
      exact ⟨h1, h2, h3, h4, by simp⟩

/-! ## The statement, clause by clause -/

theorem lcs_clause (s : State) (g : Nat) :
    (g ≠ 1 → g ≠ 2 → g ≠ 5 → exec (.lcsRequest g) s = .next (recordWerr s pgLcs) ∧ exec (.lcsExecute g) s = .next (recordWerr s pgLcs)) ∧
    (g = 1 ∨ g = 2 ∨ g = 5 →
      exec (.lcsRequest g) s = .next { s with
        free := s.free + 1, lcs := { s.lcs with challenge := leBytes 32 (Config.freeValue s.free), armed := some g } } ∧
      (s.lcs.transition = none →
        let s1 : State := { s with lcs := { s.lcs with armed := none } }
        let legal := (s.lcs.st = 0 ∨ s.lcs.st = 1 ∨ s.lcs.st = 4) ∧ lcPermits s.lcs.st g = true
        let root := beBytes 97 (Config.romKey (if s.lcs.st = 4 then 1 else 0))
        let good := s.lcs.armed = some g ∧ ((s.lcs.st = 1 ∧ g = 2) ∨ allZero s.lcs.owner = true) ∧
          p384Verify root (lcMessage s g) s.lcs.auth = true
        (¬ legal → exec (.lcsExecute g) s = .next (lcNote s1 6 g)) ∧
        (legal → ¬ good → exec (.lcsExecute g) s = .next (lcNote s1 5 g)) ∧
        (legal → good → lcRefusal s g ≠ 0 → exec (.lcsExecute g) s = .next (lcNote s1 (lcRefusal s g) g)) ∧
        (legal → good → lcRefusal s g = 0 → ∃ s', exec (.lcsExecute g) s = .next s' ∧ s'.lcs.transition = some (g, none) ∧
          s'.lcs.armed = none ∧ s'.jobs = [] ∧ s'.fuse = s.fuse))) := by
  refine ⟨exec_lcs_notTarget, fun hg => ⟨exec_lcsRequest hg, fun ht => ?_⟩⟩
  intro s1 legal root good
  have hl : rootLegal s g = true ↔ legal := by simp [rootLegal, legal, or_assoc]
  obtain ⟨h1, h2, h3⟩ := exec_lcsExecute hg ht
  refine ⟨fun hn => h1 (Bool.not_eq_true _ ▸ mt hl.mp hn), fun h hn => h2 (hl.mpr h) hn, fun h hgood hr => ?_, fun h hgood hr => ?_⟩
  · rw [h3 (hl.mpr h) hgood, if_pos hr]
  · obtain ⟨hb, hj, hf⟩ := lcBegin_begun (s := s1) g none
    refine ⟨_, (h3 (hl.mpr h) hgood).trans (if_neg (by simp [hr])), ?_, ?_, hj, hf⟩
    · rw [hb]
    · rw [hb]

theorem transition_clause (s : State) (g : Nat) (who : Option (Nat × Nat)) (b : BurnResult) (ht : s.lcs.transition = some (g, who)) :
    let k := (rowScan s).used
    let row := lcRow (lcsCode g) ((rowScan s).seq + 1)
    (lcRefusal s g ≠ 0 → ∃ s', exec (.lifecycleTransition b) s = .next s' ∧ s'.lcs.transition = none ∧ s'.fuse = s.fuse ∧
      s'.lcs.st = s.lcs.st ∧ s'.lcs.result = lcRefusal s g ∧ s'.dome = s.dome) ∧
    (lcRefusal s g = 0 → lcDrained s who = false → exec (.lifecycleTransition b) s = .next s) ∧
    (lcRefusal s g = 0 → lcDrained s who = true →
      (intRefusal s 6 true fuseArray = none →
        let old := fun (i : Nat) => s.fuse.rows.getD i 0
        let com := s.lcs.st = 2 ∧ g = 3
        (∃ s', exec (.lifecycleTransition {}) s = .next s' ∧ s'.lcs.st = g ∧ s'.lcs.result = 1 ∧ s'.lcs.transition = none ∧
          s'.fuse.rows = s.fuse.rows.set k (old k ||| row) ∧ s'.dome.cur = none ∧ s'.dome.next = none ∧
          s'.dev.ready = false ∧ s'.cus.cer = none ∧ s'.vault.groups = [] ∧ (s'.pwr.cause = 16) ∧
          (4 ≤ g → s'.dome.ledger = {} ∧ s'.dome.witness = [] ∧ s'.dome.log = [])) ∧
        (k + 1 < 24 → ∃ s', exec (.lifecycleTransition { row := .retry }) s = .next s' ∧ s'.lcs.st = g ∧
          s'.fuse.rows = (s.fuse.rows.set k (old k ||| 0xFFFFFFFF)).set (k + 1)
            ((s.fuse.rows.set k (old k ||| 0xFFFFFFFF)).getD (k + 1) 0 ||| row)) ∧
        (k + 1 = 24 → ∀ how, how = .retry ∨ how = .lost → ∃ s', exec (.lifecycleTransition { row := how }) s = .next s' ∧ s'.lcs.st = 6 ∧
          s'.fuse.rows = s.fuse.rows.set k (old k ||| 0xFFFFFFFF)) ∧
        (∀ i b, com → blankPolicy s = some i → ∃ s', exec (.lifecycleTransition { block := .cut b }) s = .next s' ∧
          s'.fuse.policy = (setPolicy s i (fit 49 b)).fuse.policy ∧ s'.fuse.rows = s.fuse.rows ∧ s'.fuse.loaded = false) ∧
        (¬ com → ∀ b, (scanRow { rowScan s with blank := false, ok := true } (BitVec.ofNat 32 (leVal b))).ok = false →
          ∃ s', exec (.lifecycleTransition { row := .cut b }) s = .next s' ∧
          s'.fuse.rows = s.fuse.rows.set k (old k ||| BitVec.ofNat 32 (leVal b)) ∧ s'.dev.ready = false ∧ s'.fuse.loaded = false)) ∧
      (∀ how, how = .lost ∨ (how = .ok ∧ intRefusal s 6 true fuseArray ≠ none) → ∃ s', exec (.lifecycleTransition { row := how }) s = .next s' ∧
        s'.lcs.st = 6 ∧ s'.fuse.lost = true ∧ s'.dome.cur = none ∧ s'.dome.next = none ∧ s'.dome.dik = none ∧ fuseState s' = 6)) := by
  refine ⟨fun hr => ?_, exec_transition_waits b ht, fun hr hd => ⟨fun ha => ?_, (Entering.mk ht hr hd).lost⟩⟩
  · obtain ⟨hl, hf, hdome⟩ := lcAbort_refused ht hr
    exact ⟨_, exec_transition_refused b ht hr, by rw [hl], hf, by rw [hl], by rw [hl], hdome⟩
  · have h : Entering s g who := ⟨ht, hr, hd⟩
    exact ⟨h.burned ha, h.repeated ha, h.noRow ha, fun i b hc hb => h.blockCut ha b hc hb, fun _ => h.rowCut ha⟩

/-- Settles O15. -/
theorem lifeCycleAndResetsKeepTheirOrder : Obligations.LifeCycleAndResetsKeepTheirOrder := by
  unfold Obligations.LifeCycleAndResetsKeepTheirOrder
  refine ⟨by decide, fun s h => ?corrupt, fun s h0 h => ?scan, lcs_clause, fun s b h => exec_transition_none h b, transition_clause,
    fun s h => ?holdup, fun s h => ⟨?absent, ?flr⟩, fun s h i hi => ?warm, fun s p cut => ?cold, fun s tn => ⟨fun h => if_pos h, fun h => ?straps⟩,
    fun s => ⟨fun h => if_pos h, fun hl hp => ?load⟩, fun s l sp so core us => ⟨fun h => if_pos ?early, deviceReady_clause⟩, linkChange_clause⟩
  case corrupt =>
    have hs : (([lcRow 0x3A5C 1, lcRow 0x5CA3 2, 0xA35C0C03, 0x5CA30000] ++ List.replicate 20 0 : List Word).foldl scanRow {}).ok = false := by decide
    rw [fuseState_of_rows h, hs]
    simp
  case scan =>
    have hs : (([lcRow 0x3A5C 1, lcRow 0x5CA3 2, 0xA35C0C03] ++ List.replicate 21 0 : List Word).foldl scanRow {}).ok = true ∧
        (([lcRow 0x3A5C 1, lcRow 0x5CA3 2, 0xA35C0C03] ++ List.replicate 21 0 : List Word).foldl scanRow {}).st = 3 := by decide
    rw [fuseState_of_rows h, h0, hs.1, hs.2]
    rfl
  case holdup => exact congrArg Host.Outcome.next (lcAbort_none h)
  case absent => exact congrArg Host.Outcome.next (if_neg (by simp [h]))
  case flr => simp [exec, execMfFlr, h]
  case warm =>
    obtain ⟨s', he, hw, hc⟩ := warm_clause h i hi
    exact ⟨s', he, hw.ready, hw.jobs, hw.bind, hw.lines, hw.cer, hw.transition, hw.numTf, hw.cpls, hw.time, hw.fuse, hw.straps, hw.reel, hw.ledger,
      hw.cur, hw.curves, hw.tally, hw.table, hw.host, hw.pending, hw.ctx, hw.entries, hc⟩
  case cold =>
    cases cut with
    | none => exact ⟨_, rfl, rfl, rfl, rfl, rfl, rfl, rfl, rfl, rfl, rfl, rfl, rfl, rfl, rfl, rfl, rfl, rfl, rfl, rfl, rfl, rfl, rfl, rfl⟩
    | some x => exact ⟨_, rfl, rfl, rfl, rfl, rfl, rfl, rfl, rfl, rfl, rfl, rfl, rfl, rfl, rfl, rfl, rfl, rfl, rfl, rfl, rfl, rfl, rfl, rfl⟩
  case straps =>
    refine ⟨_, if_neg (by simp [h]), rfl, rfl, rfl, ?_, rfl, ?_⟩
    · simp [fieldOf, Nat.shiftRight_eq_div_pow]
    · simp [fieldOf, beq_eq_decide]
  case load => exact ⟨_, if_neg (by simp [hl, hp]), rfl, rfl, rfl, rfl, rfl⟩
  case early => simpa [or_comm] using h
end Sys2Proof.Machine

/-! SUPPORT. What messages over the Reel leave (11 R328 to R331). -/

namespace Sys2Proof.Machine
variable {s r q : State}

/-! ## Messages over the Reel (11 R328 to R331) -/

/-- What messages over the Reel leave: all that a Bell's events and the head's sources speak of. -/
structure Sent (s r : State) : Prop where
  time : r.time = s.time
  mtr : r.mtr = s.mtr
  dome : r.dome = s.dome
  vault : r.vault = s.vault
  cus : r.cus = s.cus
  dev : r.dev = s.dev
  acu : r.acu = s.acu
  host : r.host = s.host
  role : r.reel.role = s.reel.role
  order : r.reel.order = s.reel.order

namespace Sent

theorem refl (s : State) : Sent s s := ⟨rfl, rfl, rfl, rfl, rfl, rfl, rfl, rfl, rfl, rfl⟩

theorem trans (h : Sent s r) (g : Sent r q) : Sent s q :=
  ⟨g.time.trans h.time, g.mtr.trans h.mtr, g.dome.trans h.dome, g.vault.trans h.vault, g.cus.trans h.cus, g.dev.trans h.dev, g.acu.trans h.acu,
    g.host.trans h.host, g.role.trans h.role, g.order.trans h.order⟩

variable {s₀ : State}

theorem foldl {α : Type} {f : State → α → State} {l : List α} (hs : Sent s₀ s) (hf : ∀ a x, Sent s₀ a → Sent s₀ (f a x)) : Sent s₀ (l.foldl f s) :=
  List.foldlRecOn (motive := Sent s₀) l f hs fun a h x _ => hf a x h

theorem ite {p : Prop} [Decidable p] {a b : State} (ha : Sent s₀ a) (hb : Sent s₀ b) : Sent s₀ (if p then a else b) := by
  split <;> assumption

end Sent

variable {s₀ : State}

theorem raise_sent {p b : Nat} (hs : Sent s₀ s) : Sent s₀ (raise s p b) := hs.trans (by constructor <;> simp)

theorem setReel_sent {x : Reel} (hs : Sent s₀ s) (hr : x.role = s.reel.role) (ho : x.order = s.reel.order) : Sent s₀ (s.setReel x) :=
  hs.trans ⟨rfl, rfl, rfl, rfl, rfl, rfl, rfl, rfl, hr, ho⟩

theorem setPort_sent {down : Bool} {p : Port} (hs : Sent s₀ s) : Sent s₀ (setPort s down p) :=
  setReel_sent hs (by cases down <;> rfl) (by cases down <;> rfl)

theorem commitArb_sent (hs : Sent s₀ s) : Sent s₀ (commitArb s) := by
  unfold commitArb
  exact .ite hs (hs.trans (by constructor <;> simp [shadowDone]))

theorem freeBuffer_sent {m : Msg} (hs : Sent s₀ s) : Sent s₀ (freeBuffer s m) := by
  unfold freeBuffer
  split
  · exact setPort_sent hs
  · exact hs

theorem setCaller_sent {c : Caller} (hs : Sent s₀ s) : Sent s₀ { s with caller := c } :=
  hs.trans ⟨rfl, rfl, rfl, rfl, rfl, rfl, rfl, rfl, rfl, rfl⟩

theorem takeFree_sent (hs : Sent s₀ s) : Sent s₀ s.takeFree.1 := hs.trans ⟨rfl, rfl, rfl, rfl, rfl, rfl, rfl, rfl, rfl, rfl⟩

theorem reelRound_sent {down : Bool} (hs : Sent s₀ s) : Sent s₀ (reelRound s down) := by
  have hc := commitArb_sent hs
  unfold reelRound
  dsimp only
  split
  · exact hc
  · split
    · exact hc
    · exact setCaller_sent (freeBuffer_sent (setPort_sent hc))

theorem reelPump_sent {down : Bool} {n : Nat} (hs : Sent s₀ s) : Sent s₀ (reelPump down n s) := by
  induction n generalizing s with
  | zero => exact hs
  | succ n ih =>
    rw [reelPump]
    exact .ite hs (ih (reelRound_sent hs))

theorem putOn_sent {down : Bool} {m : Msg} (hs : Sent s₀ s) : Sent s₀ (putOn s down m) := .ite hs (reelPump_sent (setPort_sent hs))

theorem sendTo_sent {cls typ dst : Nat} {b : Bytes} (hs : Sent s₀ s) : Sent s₀ (sendTo s cls typ dst b) := by
  unfold sendTo
  split
  · exact putOn_sent hs
  · exact hs

theorem broadcast_sent {typ : Nat} {b : Bytes} (hs : Sent s₀ s) : Sent s₀ (broadcast s typ b) := hs.foldl fun _ _ h => .ite (putOn_sent h) h

theorem relay_sent {typ src : Nat} {b : Bytes} {came : Option (Bool × Nat × Bool)} (hs : Sent s₀ s) : Sent s₀ (relay s typ src b came) :=
  hs.foldl fun _ _ h => .ite (putOn_sent h) h

theorem hop_sent {down : Bool} {cls seq : Nat} {high keep : Bool} (hs : Sent s₀ s) : Sent s₀ (hop s down cls seq high keep).1 := by
  unfold hop
  dsimp only
  split
  · exact hs
  · split
    · split
      · exact hs
      · exact setPort_sent hs
    · exact setPort_sent hs
    · exact hs

theorem hears_sent {h : Hdr} {cls : Nat} (hs : Sent s₀ s) : Sent s₀ (hears s h cls).1 := by
  unfold hears
  split
  · exact hop_sent hs
  · exact hs

theorem heard_sent {s1 : State} {h : Hdr} {cls : Nat} (hh : heard s h cls = some s1) : Sent s s1 := by
  unfold heard at hh
  dsimp only at hh
  split at hh
  · cases hh
    exact hears_sent (.refl s)
  · cases hh

theorem bellOut_sent {k c : Nat} (hs : Sent s₀ s) : Sent s₀ (bellOut s k c) := hs.foldl fun _ _ h => setPort_sent (takeFree_sent h)

end Sys2Proof.Machine

/-! SUPPORT. Metering's steps of a second, captures and a ceremony's window at a Bell (11 R344, R345; 12 R355 to R366). -/

namespace Sys2Proof.Machine
variable {s r q : State}

/-! ## The ledger and the tariff (12 R355 to R366) -/

/-- What metering's steps of a second leave: Reel time but for the count of late events, the Reel, the vault, custody, tallies and captures. -/
structure Metered (s r : State) : Prop where
  time : r.time = { s.time with late := r.time.late }
  reel : r.reel = s.reel
  vault : r.vault = s.vault
  cus : r.cus = s.cus
  dev : r.dev = s.dev
  acu : r.acu = s.acu
  tally : r.mtr.tally = s.mtr.tally
  hidden : r.mtr.hidden = s.mtr.hidden

namespace Metered

theorem refl (s : State) : Metered s s := ⟨rfl, rfl, rfl, rfl, rfl, rfl, rfl, rfl⟩

theorem trans (h : Metered s r) (g : Metered r q) : Metered s q :=
  ⟨by rw [g.time, h.time], g.reel.trans h.reel, g.vault.trans h.vault, g.cus.trans h.cus, g.dev.trans h.dev, g.acu.trans h.acu,
    g.tally.trans h.tally, g.hidden.trans h.hidden⟩

theorem foldl {α : Type} {s₀ : State} {f : State → α → State} {l : List α} (hs : Metered s₀ s) (hf : ∀ a x, Metered s₀ a → Metered s₀ (f a x)) :
    Metered s₀ (l.foldl f s) := List.foldlRecOn (motive := Metered s₀) l f hs fun a h x _ => hf a x h

theorem ite {p : Prop} [Decidable p] {a b : State} (ha : Metered s a) (hb : Metered s b) : Metered s (if p then a else b) := by
  split <;> assumption

end Metered

variable {s₀ : State}

theorem raise_metered {p b : Nat} (hs : Metered s₀ s) : Metered s₀ (raise s p b) :=
  hs.trans (by constructor <;> simp)

theorem setTimeLate_metered {n : Nat} (hs : Metered s₀ s) : Metered s₀ { s with time := { s.time with late := n } } :=
  hs.trans ⟨rfl, rfl, rfl, rfl, rfl, rfl, rfl, rfl⟩

theorem lateEvent_metered (hs : Metered s₀ s) : Metered s₀ (lateEvent s) := raise_metered (setTimeLate_metered hs)

theorem setLedger_metered {l : Ledger} (hs : Metered s₀ s) : Metered s₀ (s.setLedger l) := hs.trans ⟨rfl, rfl, rfl, rfl, rfl, rfl, rfl, rfl⟩

theorem setHead_metered {p : Nat} {h : Head} (hs : Metered s₀ s) : Metered s₀ (s.setHead p h) := hs.trans ⟨rfl, rfl, rfl, rfl, rfl, rfl, rfl, rfl⟩

/-- Metering's own registers may be written, but for tallies and captures. -/
theorem setMtr_metered {m : Mtr} (hs : Metered s₀ s) (ht : m.tally = s.mtr.tally) (hh : m.hidden = s.mtr.hidden) : Metered s₀ (s.setMtr m) :=
  hs.trans ⟨rfl, rfl, rfl, rfl, rfl, rfl, ht, hh⟩

theorem domeAccess_metered {a : Nat} (hs : Metered s₀ s) : Metered s₀ (domeAccess s a).1 :=
  hs.trans (by unfold domeAccess; constructor <;> simp)

theorem putLedger_metered {l : Ledger} (hs : Metered s₀ s) : Metered s₀ (s.putLedger l) :=
  .ite (setLedger_metered hs) (setLedger_metered (hs.foldl fun _ _ => domeAccess_metered))

theorem applySwitch_metered {sec : Nat} (hs : Metered s₀ s) : Metered s₀ (applySwitch s sec) := by
  unfold applySwitch
  split
  · exact hs
  · exact .ite hs (.ite (lateEvent_metered (raise_metered (setMtr_metered (raise_metered (putLedger_metered hs)) rfl rfl)))
      (raise_metered (putLedger_metered hs)))

theorem closeInterval_metered {len more : Nat} (hs : Metered s₀ s) : Metered s₀ (closeInterval s len more) :=
  raise_metered (setMtr_metered (putLedger_metered hs) rfl rfl)

theorem noTrail_metered (hs : Metered s₀ s) : Metered s₀ s.noTrail := setMtr_metered hs rfl rfl

theorem recoverLedger_metered {sec : Nat} (hs : Metered s₀ s) : Metered s₀ (recoverLedger s sec) := by
  have h0 : Metered s₀ (s.setMtr { s.mtr with recovering := false }).noTrail := noTrail_metered (setMtr_metered hs rfl rfl)
  have h1 : Metered s₀ (if switchLate s sec = true then raise (s.setMtr { s.mtr with recovering := false }).noTrail pgMtr 5
      else (s.setMtr { s.mtr with recovering := false }).noTrail) := .ite (raise_metered h0) h0
  exact .ite (noTrail_metered hs) (.ite h1 (raise_metered (setMtr_metered (closeInterval_metered (setLedger_metered h1)) rfl rfl)))

theorem foldSecond_metered {sec : Nat} (hs : Metered s₀ s) : Metered s₀ (foldSecond s sec) := setMtr_metered (putLedger_metered hs) rfl rfl

theorem commitLen_metered (hs : Metered s₀ s) : Metered s₀ (commitLen s) := .ite (setHead_metered (putLedger_metered hs)) hs

theorem markLate_metered {late : Bool} (hs : Metered s₀ s) : Metered s₀ (markLate late s) := .ite (putLedger_metered hs) hs

theorem openInterval_metered {sec : Nat} {short : Bool} (hs : Metered s₀ s) : Metered s₀ (openInterval s sec short) :=
  setMtr_metered (putLedger_metered hs) rfl rfl

theorem mtrSecond_metered {sec : Nat} (hs : Metered s₀ s) : Metered s₀ (mtrSecond s sec) := by
  have h0 := recoverLedger_metered (sec := sec) hs
  unfold mtrSecond
  dsimp only
  split
  · exact markLate_metered (openInterval_metered (.ite (commitLen_metered (applySwitch_metered h0)) (applySwitch_metered h0)))
  · have h1 := setMtr_metered (m := { (foldSecond (recoverLedger s sec) (sec - 1)).mtr with
        lastSecond := some sec
        trail := [(recoverLedger s sec).dome.ledger, (foldSecond (recoverLedger s sec) (sec - 1)).dome.ledger] })
      (foldSecond_metered (sec := sec - 1) h0) rfl rfl
    have h2 {len : Nat} {t : List Ledger} := setMtr_metered (m := { (closeInterval _ len 0).mtr with trail := t })
      (closeInterval_metered (len := len) (more := 0) h1) rfl rfl
    exact .ite (applySwitch_metered h1) (markLate_metered (openInterval_metered (commitLen_metered (applySwitch_metered
      (.ite h2 (lateEvent_metered h2))))))

/-! ### The second that metering is in -/

theorem putLedger_mtr (s : State) (l : Ledger) : (s.putLedger l).mtr = s.mtr := by
  unfold State.putLedger
  dsimp only
  split
  · rfl
  · exact List.foldlRecOn (motive := fun a : State => a.mtr = s.mtr) _ _ rfl fun a h x _ => by simpa [domeAccess] using h

theorem applySwitch_mtr (s : State) (sec : Nat) : (applySwitch s sec).mtr = { s.mtr with lateSwitches := (applySwitch s sec).mtr.lateSwitches } := by
  unfold applySwitch
  split
  · rfl
  · split
    · rfl
    · dsimp only
      split <;> simp [lateEvent, State.setMtr, putLedger_mtr]

theorem markLate_lastSecond (late : Bool) (s : State) : (markLate late s).mtr.lastSecond = s.mtr.lastSecond := by
  unfold markLate
  split
  · rw [putLedger_mtr]
  · rfl

theorem mtrSecond_lastSecond (s : State) (sec : Nat) : (mtrSecond s sec).mtr.lastSecond = some sec := by
  unfold mtrSecond
  dsimp only
  split
  · rw [markLate_lastSecond]
    rfl
  · split
    · rw [applySwitch_mtr]
      rfl
    · rw [markLate_lastSecond]
      rfl

/-! ## Captures, the tariff's switch and a ceremony's window at a Bell (11 R344, R345) -/

/-- What an event of a Bell leaves: Reel time but for the count of late events, the role, access control, the Turn's outputs and the tallies. -/
structure Fires (s r : State) : Prop where
  time : r.time = { s.time with late := r.time.late }
  role : r.reel.role = s.reel.role
  dev : r.dev = s.dev
  acu : r.acu = s.acu
  tally : r.mtr.tally = s.mtr.tally

theorem Fires.refl (s : State) : Fires s s := ⟨rfl, rfl, rfl, rfl, rfl⟩

theorem Fires.trans (h : Fires s r) (g : Fires r q) : Fires s q :=
  ⟨by rw [g.time, h.time], g.role.trans h.role, g.dev.trans h.dev, g.acu.trans h.acu, g.tally.trans h.tally⟩

theorem Metered.fires (h : Metered s r) : Fires s r := ⟨h.time, by rw [h.reel], h.dev, h.acu, h.tally⟩

theorem Sent.fires (h : Sent s r) : Fires s r := ⟨by rw [h.time], h.role, h.dev, h.acu, by rw [h.mtr]⟩

/-! ### The capture -/

theorem takeSet_sent {lead bell captured : Nat} (hs : Sent s₀ s) : Sent s₀ (takeSet s lead bell captured) := by
  have h1 {x : Reel} (hr : x.role = s.reel.role) (ho : x.order = s.reel.order) : Sent s₀ (snapFinish (s.setReel x)) :=
    raise_sent (setReel_sent (setReel_sent hs hr ho) rfl rfl)
  exact .ite hs (.ite (h1 rfl rfl) (setReel_sent hs rfl rfl))

theorem reportSet_sent {bell : Nat} (hs : Sent s₀ s) : Sent s₀ (reportSet s bell) := by
  unfold reportSet
  split
  · exact hs
  · exact Sent.foldl (setReel_sent hs rfl rfl) fun _ _ h => .ite (takeSet_sent h) (sendTo_sent h)

theorem takeAnswer_sent {src bell ans : Nat} (hs : Sent s₀ s) : Sent s₀ (takeAnswer s src bell ans) := by
  have h1 {g} : Sent s₀ (s.setReel { s.reel with gather := g }) := setReel_sent hs rfl rfl
  unfold takeAnswer
  dsimp only
  split
  · exact .ite (reportSet_sent h1) h1
  · exact h1

theorem answerOrder_sent {bell ans : Nat} (hs : Sent s₀ s) : Sent s₀ (answerOrder s bell ans) := .ite (takeAnswer_sent hs) (sendTo_sent hs)

/-- An order's capture: the tallies of this moment stand in the hidden bank. -/
structure Captured (s r : State) (b : Nat) : Prop where
  fires : Fires s r
  order : r.reel.order = none
  mtr : r.mtr = { s.mtr with hidden := some (b, s.mtr.tally) }
  vault : r.vault = s.vault
  dome : r.dome = s.dome
  cus : r.cus = s.cus

theorem captureNow_captured {b : Nat} {l : List Nat} (h : s.reel.order = some (b, l)) : Captured s (captureNow s) b := by
  simp only [captureNow, h]
  have hs := answerOrder_sent (bell := b) (ans := 0)
    (.refl { s with mtr := { s.mtr with hidden := some (b, s.mtr.tally) }, reel := { s.reel with order := none } })
  exact ⟨⟨by rw [hs.time], hs.role, hs.dev, hs.acu, by rw [hs.mtr]⟩, hs.order, hs.mtr, hs.vault, hs.dome, hs.cus⟩

theorem lateEvent_parts (s : State) : Fires s (lateEvent s) ∧ (lateEvent s).reel = s.reel ∧ (lateEvent s).mtr = s.mtr ∧
    (lateEvent s).vault = s.vault ∧
    (lateEvent s).dome = s.dome ∧ (lateEvent s).cus = s.cus := by
  refine ⟨(lateEvent_metered (.refl s)).fires, ?_⟩
  simp [lateEvent]

theorem captureAt_due {k b : Nat} {l : List Nat} (h : s.reel.order = some (b, l)) (hb : b ≤ k) : Captured s (captureAt s k) b := by
  have hc := captureNow_captured h
  simp only [captureAt, h, if_neg (Nat.not_lt.mpr hb)]
  split
  · obtain ⟨hf, hr, hm, hv, hd, hu⟩ := lateEvent_parts (captureNow s)
    exact ⟨hc.fires.trans hf, by rw [hr, hc.order], hm.trans hc.mtr, hv.trans hc.vault, hd.trans hc.dome, hu.trans hc.cus⟩
  · exact hc

theorem captureAt_later {k b : Nat} {l : List Nat} (h : s.reel.order = some (b, l)) (hb : k < b) : captureAt s k = s := by
  simp only [captureAt, h, if_pos hb]

theorem captureAt_none {k : Nat} (h : s.reel.order = none) : captureAt s k = s := by
  simp only [captureAt, h]

theorem captureAt_parts (s : State) (k : Nat) : Fires s (captureAt s k) ∧ (captureAt s k).vault = s.vault ∧ (captureAt s k).dome = s.dome ∧
    (captureAt s k).cus = s.cus ∧ (captureAt s k).mtr = { s.mtr with hidden := (captureAt s k).mtr.hidden } := by
  cases ho : s.reel.order with
  | none =>
    rw [captureAt_none ho]
    exact ⟨.refl s, rfl, rfl, rfl, rfl⟩
  | some x =>
    obtain ⟨b, l⟩ := x
    by_cases hb : b ≤ k
    · have hc := captureAt_due ho hb
      exact ⟨hc.fires, hc.vault, hc.dome, hc.cus, by rw [hc.mtr]⟩
    · rw [captureAt_later ho (by omega)]
      exact ⟨.refl s, rfl, rfl, rfl, rfl⟩

/-! ### A ceremony's window -/

theorem closeCeremony_parts (s : State) (how : Nat) : (closeCeremony s how).time = s.time ∧ (closeCeremony s how).reel = s.reel ∧
    (closeCeremony s how).dev = s.dev ∧ (closeCeremony s how).acu = s.acu ∧ (closeCeremony s how).mtr = s.mtr ∧
      (closeCeremony s how).vault = s.vault := by
  unfold closeCeremony cardsOff
  split <;> simp

/-- A ceremony's window ends, or it stands. -/
theorem expireCeremony_cases (s : State) : expireCeremony s = s ∨
    ∃ x, expireCeremony s = (closeCeremony s 3).setCus { (closeCeremony s 3).cus with closing := x } := by
  unfold expireCeremony
  split
  · exact .inl rfl
  · dsimp only
    split <;> split
    · exact .inr ⟨_, rfl⟩
    · exact .inl rfl
    · exact .inr ⟨_, rfl⟩
    · exact .inl rfl

theorem expireCeremony_parts (s : State) : (expireCeremony s).time = s.time ∧ (expireCeremony s).reel = s.reel ∧ (expireCeremony s).dev = s.dev ∧
    (expireCeremony s).acu = s.acu ∧ (expireCeremony s).mtr = s.mtr ∧ (expireCeremony s).vault = s.vault ∧ (expireCeremony s).dome = s.dome ∧
    ((expireCeremony s).cus.cer = s.cus.cer ∨ (expireCeremony s).cus.cer = none) := by
  rcases expireCeremony_cases s with h | ⟨x, h⟩
  · rw [h]
    exact ⟨rfl, rfl, rfl, rfl, rfl, rfl, rfl, .inl rfl⟩
  · obtain ⟨h1, h2, h3, h4, h5, h6⟩ := closeCeremony_parts s 3
    rw [h]
    exact ⟨h1, h2, h3, h4, h5, h6, closeCeremony_dome s 3, .inr (closeCeremony_cer s 3)⟩

theorem expireCeremony_cer (s : State) : (expireCeremony s).cus.cer = s.cus.cer ∨ (expireCeremony s).cus.cer = none :=
  (expireCeremony_parts s).2.2.2.2.2.2.2

theorem expireCeremony_over {x : Ceremony} {e : Nat} (hx : s.cus.cer = some x) (he : x.expires = some e) (ht : timeKnown s = true)
    (hb : 1024 * e ≤ s.time.bell) : (expireCeremony s).cus.cer = none := by
  simp only [expireCeremony, hx, he, ht, hb, decide_true, Bool.and_self, if_true]
  exact closeCeremony_cer s 3

theorem expireAt_parts (s : State) (k : Nat) : Fires s (expireAt s k) ∧ (expireAt s k).reel = s.reel ∧ (expireAt s k).mtr = s.mtr ∧
    (expireAt s k).vault = s.vault ∧ (expireAt s k).dome = s.dome := by
  obtain ⟨h1, h2, h3, h4, h5, h6, h7, -⟩ := expireCeremony_parts s
  have hf : Fires s (expireCeremony s) := ⟨by rw [h1], by rw [h2], h3, h4, by rw [h5]⟩
  unfold expireAt
  split
  · exact ⟨.refl s, rfl, rfl, rfl, rfl⟩
  · split
    · exact ⟨.refl s, rfl, rfl, rfl, rfl⟩
    · dsimp only
      split
      · obtain ⟨g, gr, gm, gv, gd, -⟩ := lateEvent_parts (expireCeremony s)
        exact ⟨hf.trans g, gr.trans h2, gm.trans h5, gv.trans h6, gd.trans h7⟩
      · exact ⟨hf, h2, h5, h6, h7⟩

theorem expireAt_cer (s : State) (k : Nat) : (expireAt s k).cus.cer = s.cus.cer ∨ (expireAt s k).cus.cer = none := by
  have h := expireCeremony_cer s
  unfold expireAt
  split
  · exact .inl rfl
  · split
    · exact .inl rfl
    · dsimp only
      split
      · rwa [(lateEvent_parts (expireCeremony s)).2.2.2.2.2]
      · exact h

theorem expireAt_over {k e : Nat} {x : Ceremony} (hx : s.cus.cer = some x) (he : x.expires = some e) (ht : timeKnown s = true) (hb : s.time.bell = k)
    (hk : 1024 * e ≤ k) : (expireAt s k).cus.cer = none := by
  have h := expireCeremony_over hx he ht (hb ▸ hk)
  have hbind : s.cus.cer.bind (·.expires) = some e := by rw [hx]; exact he
  simp only [expireAt, hbind, if_neg (Nat.not_lt.mpr hk)]
  split
  · rwa [(lateEvent_parts (expireCeremony s)).2.2.2.2.2]
  · exact h

end Sys2Proof.Machine

/-! SUPPORT. A Bell's events, in their order (11 R344). -/

namespace Sys2Proof.Machine
variable {s r q : State}

/-! ## The vault's work of a second (07 R242, R247) -/

/-- What sealing the vault leaves, of all that a Bell's statement speaks of. -/
structure Mirrored (s r : State) : Prop where
  time : r.time = s.time
  mtr : r.mtr = s.mtr
  cus : r.cus = s.cus
  dev : r.dev = s.dev
  role : r.reel.role = s.reel.role
  order : r.reel.order = s.reel.order

namespace Mirrored

theorem refl (s : State) : Mirrored s s := ⟨rfl, rfl, rfl, rfl, rfl, rfl⟩

theorem trans (h : Mirrored s r) (g : Mirrored r q) : Mirrored s q :=
  ⟨g.time.trans h.time, g.mtr.trans h.mtr, g.cus.trans h.cus, g.dev.trans h.dev, g.role.trans h.role, g.order.trans h.order⟩

variable {s₀ : State}

theorem foldl {α : Type} {f : State → α → State} {l : List α} (hs : Mirrored s₀ s) (hf : ∀ a x, Mirrored s₀ a → Mirrored s₀ (f a x)) :
    Mirrored s₀ (l.foldl f s) := List.foldlRecOn (motive := Mirrored s₀) l f hs fun a h x _ => hf a x h

theorem ite {p : Prop} [Decidable p] {a b : State} (ha : Mirrored s₀ a) (hb : Mirrored s₀ b) : Mirrored s₀ (if p then a else b) := by
  split <;> assumption

end Mirrored

theorem Sent.mirrored (h : Sent s r) : Mirrored s r := ⟨h.time, h.mtr, h.cus, h.dev, h.role, h.order⟩

variable {s₀ : State}

theorem setVault_mirrored {v : Vault} (hs : Mirrored s₀ s) : Mirrored s₀ (s.setVault v) := hs.trans ⟨rfl, rfl, rfl, rfl, rfl, rfl⟩

theorem shortMirror_mirrored (hs : Mirrored s₀ s) : Mirrored s₀ (shortMirror s) := hs.trans (by constructor <;> simp [shortMirror])

theorem mirrorSettle_mirrored (hs : Mirrored s₀ s) : Mirrored s₀ (mirrorSettle s) :=
  .ite hs (.ite (shortMirror_mirrored hs) (setVault_mirrored hs))

theorem witnessAnswer_mirrored {got : Bool} {w : Nat} (hs : Mirrored s₀ s) : Mirrored s₀ (witnessAnswer got s w) :=
  .ite (setVault_mirrored hs) (.ite hs (mirrorSettle_mirrored (setVault_mirrored hs)))

theorem popNeed_mirrored {t c : Nat} (hs : Mirrored s₀ s) : Mirrored s₀ (popNeed s t c) :=
  hs.trans (by constructor <;> simp [popNeed, State.setCtx])

theorem sealWaiters_mirrored (hs : Mirrored s₀ s) : Mirrored s₀ (sealWaiters s) := .ite hs (hs.foldl fun _ _ => popNeed_mirrored)

theorem mirror_mirrored (hs : Mirrored s₀ s) : Mirrored s₀ (mirror s) := by
  have h1 : Mirrored s₀ (if s.vault.awaiting.isEmpty = true then s else shortMirror s) := .ite hs (shortMirror_mirrored hs)
  have h2 {v : Vault} {l : List Nat} {b : Bytes} : Mirrored s₀ (l.foldl (fun a w => sendTo a 0 0x06 w b)
      ((if s.vault.awaiting.isEmpty = true then s else shortMirror s).setVault v)) :=
    (setVault_mirrored h1).foldl fun a _ ha => ha.trans (sendTo_sent (.refl a)).mirrored
  exact sealWaiters_mirrored ((Mirrored.ite (mirrorSettle_mirrored h2) h2).foldl fun _ _ => witnessAnswer_mirrored)

theorem hostCheck_mirrored {fn a : Nat} {w : Bool} (hs : Mirrored s₀ s) : Mirrored s₀ (hostCheck s fn w a).1 := by
  unfold hostCheck
  split
  · exact hs
  · refine hs.trans ?_
    unfold hostViolation
    split <;> constructor <;> simp

theorem windowMove_mirrored {w : Bool} {l : List Nat} (hs : Mirrored s₀ s) : Mirrored s₀ (windowMove s w l).1 := by
  have h : Mirrored s₀ (windowCheck s w l).1 := by
    refine List.foldlRecOn (motive := fun a : State × Bool => Mirrored s₀ a.1) l _ hs fun a ha x _ => ?_
    split
    · exact ha
    · split
      · exact ha
      · exact hostCheck_mirrored ha
  exact h.trans ⟨rfl, rfl, rfl, rfl, rfl, rfl⟩

theorem writeSeal_mirrored {i : Nat} {b : Bytes} (hs : Mirrored s₀ s) : Mirrored s₀ (writeSeal s i b) := by
  have h := windowMove_mirrored (w := true) (l := [i]) hs
  exact .ite (windowMove_mirrored (setVault_mirrored h)) h

theorem vaultSecond_mirrored (hs : Mirrored s₀ s) : Mirrored s₀ (vaultSecond s) := .ite hs (mirror_mirrored (writeSeal_mirrored hs))

/-! ## The late events of a Bell, in their order (11 R344) -/

/-- The event of one kind: an order's capture, a tariff switch or a ceremony's window. -/
def fireOne (k kind : Nat) (s : State) : State := if kind = 1 then captureAt s k else if kind = 2 then switchSkipped s k else expireAt s k

theorem fireLate_succ (k n : Nat) (l : List (Nat × Nat)) (s : State) : fireLate k (n + 1) l s =
    match bestBy (fun x => 2 ^ 80 - (8 * x.1 + x.2)) l with
    | none => s
    | some x => fireLate k n (l.erase x) (fireOne k x.2 s) := rfl

/-- What each late event keeps, all of them keep. -/
theorem fireLate_keeps {P : State → Prop} {k n : Nat} {l : List (Nat × Nat)} (hf : ∀ a, ∀ x ∈ l, P a → P (fireOne k x.2 a)) (hs : P s) :
    P (fireLate k n l s) := by
  induction n generalizing l s with
  | zero => exact hs
  | succ n ih =>
    rw [fireLate_succ]
    split
    · exact hs
    · next y hy => exact ih (fun a x hx => hf a x (List.mem_of_mem_erase hx)) (hf s y (bestBy_mem hy) hs)

/-- A late event that reaches `Q` from `P` does so, where each other event keeps `P` or reaches `Q` as well and none leaves `Q`. -/
theorem fireLate_reaches {P Q : State → Prop} {k n : Nat} {x : Nat × Nat} {l : List (Nat × Nat)} (hx : x ∈ l) (hn : l.length ≤ n)
    (hxQ : ∀ a, P a → Q (fireOne k x.2 a)) (hP : ∀ a, ∀ y ∈ l, P a → P (fireOne k y.2 a) ∨ Q (fireOne k y.2 a))
    (hQ : ∀ a, ∀ y ∈ l, Q a → Q (fireOne k y.2 a)) (hs : P s) : Q (fireLate k n l s) := by
  induction n generalizing l s with
  | zero => rw [List.eq_nil_of_length_eq_zero (Nat.le_zero.mp hn)] at hx; cases hx
  | succ n ih =>
    rw [fireLate_succ]
    split
    · next hb => rw [eq_nil_of_bestBy_none hb] at hx; cases hx
    · next y hy =>
      have hmem := bestBy_mem hy
      have hQ' : ∀ a, ∀ z ∈ l.erase y, Q a → Q (fireOne k z.2 a) := fun a z hz => hQ a z (List.mem_of_mem_erase hz)
      by_cases hxy : y = x
      · subst hxy
        exact fireLate_keeps hQ' (hxQ s hs)
      · rcases hP s y hmem hs with h | h
        · have hl := List.length_erase_of_mem hmem
          exact ih ((List.mem_erase_of_ne (Ne.symm hxy)).mpr hx) (by omega)
            (fun a z hz => hP a z (List.mem_of_mem_erase hz)) hQ' h
        · exact fireLate_keeps hQ' h

theorem switchSkipped_metered {k : Nat} : Metered s (switchSkipped s k) := applySwitch_metered (.refl s)

theorem fireOne_fires (k kind : Nat) (s : State) : Fires s (fireOne k kind s) := by
  unfold fireOne
  split
  · exact (captureAt_parts s k).1
  · split
    · exact switchSkipped_metered.fires
    · exact (expireAt_parts s k).1

theorem fireLate_fires (k n : Nat) (l : List (Nat × Nat)) (s : State) : Fires s (fireLate k n l s) :=
  fireLate_keeps (fun a x _ h => h.trans (fireOne_fires k x.2 a)) (.refl s)

theorem fireOne_vault (k kind : Nat) (s : State) : (fireOne k kind s).vault = s.vault := by
  unfold fireOne
  split
  · exact (captureAt_parts s k).2.1
  · split
    · exact switchSkipped_metered.vault
    · exact (expireAt_parts s k).2.2.2.1

theorem applySwitch_folded (s : State) (sec : Nat) : (applySwitch s sec).mtr.folded = s.mtr.folded := by rw [applySwitch_mtr]

theorem fireOne_folded (k kind : Nat) (s : State) : (fireOne k kind s).mtr.folded = s.mtr.folded := by
  unfold fireOne
  split
  · rw [(captureAt_parts s k).2.2.2.2]
  · split
    · exact applySwitch_folded s _
    · rw [(expireAt_parts s k).2.2.1]

theorem fireOne_cer (k kind : Nat) (s : State) : (fireOne k kind s).cus.cer = s.cus.cer ∨ (fireOne k kind s).cus.cer = none := by
  unfold fireOne
  split
  · rw [(captureAt_parts s k).2.2.2.1]
    exact .inl rfl
  · split
    · exact .inl (by rw [switchSkipped_metered.cus])
    · exact expireAt_cer s k

theorem fireOne_dome {k kind : Nat} (h : kind ≠ 2) (s : State) : (fireOne k kind s).dome = s.dome := by
  unfold fireOne
  split
  · exact (captureAt_parts s k).2.2.1
  · exact (expireAt_parts s k).2.2.2.2

/-- An order stands as it was, with the tallies of the moment, or is captured. -/
def OrderAt (b : Nat) (l : List Nat) (tally : Tbl Nat) (s : State) : Prop :=
  (s.reel.order = some (b, l) ∧ s.mtr.tally = tally) ∨ (s.reel.order = none ∧ s.mtr.hidden = some (b, tally))

theorem orderAt_fireOne {b k kind : Nat} {l : List Nat} {tally : Tbl Nat} (hb : b ≤ k) (h : OrderAt b l tally s) :
    OrderAt b l tally (fireOne k kind s) := by
  have keep {r : State} (hr : r.reel.order = s.reel.order) (ht : r.mtr.tally = s.mtr.tally) (hh : r.mtr.hidden = s.mtr.hidden) :
      OrderAt b l tally r := by
    unfold OrderAt
    rwa [hr, ht, hh]
  unfold fireOne
  split
  · rcases h with ⟨ho, ht⟩ | ⟨ho, hh⟩
    · have hc := captureAt_due ho hb
      exact .inr ⟨hc.order, by rw [hc.mtr, ht]⟩
    · rw [captureAt_none ho]
      exact .inr ⟨ho, hh⟩
  · split
    · have hm := switchSkipped_metered (s := s) (k := k)
      exact keep (by rw [hm.reel]) hm.tally hm.hidden
    · obtain ⟨-, hr, hm, -⟩ := expireAt_parts s k
      exact keep (by rw [hr]) (by rw [hm]) (by rw [hm])

/-- An order whose Bell has not come stands through every other event. -/
theorem order_fireOne {b k kind : Nat} {l : List Nat} (hb : k < b) (h : s.reel.order = some (b, l)) :
    (fireOne k kind s).reel.order = some (b, l) := by
  unfold fireOne
  split
  · rwa [captureAt_later h hb]
  · split
    · rwa [(switchSkipped_metered (s := s) (k := k)).reel]
    · rwa [(expireAt_parts s k).2.1]

/-! ### The tariff switch whose Bell was skipped -/

/-- No switch is armed; the PENDING weights are in force, and `late` switches were late. -/
def Switched (pending : List Nat) (late : Nat) (s : State) : Prop :=
  s.dome.ledger.at_ = none ∧ s.dome.ledger.active = pending ∧ s.mtr.lateSwitches = late

theorem putLedger_allowed {l : Ledger} (h : ∀ o ∈ ledgerPages, ledgerMay s o = true) : s.putLedger l = s.setLedger l := by
  have hno : ledgerPages.filter (fun a => !ledgerMay s a) = [] := List.filter_eq_nil_iff.mpr fun o ho => by simp [h o ho]
  simp [State.putLedger, hno]

theorem applySwitch_late {a sec : Nat} (ha : s.dome.ledger.at_ = some a) (hl : a < sec) (hp : ∀ o ∈ ledgerPages, ledgerMay s o = true) :
    Switched s.dome.ledger.pending (satAdd 32 s.mtr.lateSwitches 1) (applySwitch s sec) := by
  simp only [applySwitch, ha, if_neg (show ¬ a > sec by omega), putLedger_allowed hp, decide_eq_true hl, if_true]
  refine ⟨?_, ?_, ?_⟩ <;> simp [lateEvent, State.setMtr]

theorem applySwitch_none {sec : Nat} (h : s.dome.ledger.at_ = none) : applySwitch s sec = s := by simp only [applySwitch, h]

theorem fireOne_lateSwitches {k kind : Nat} (h : kind ≠ 2) (s : State) : (fireOne k kind s).mtr.lateSwitches = s.mtr.lateSwitches := by
  unfold fireOne
  rw [if_neg h]
  split
  · rw [(captureAt_parts s k).2.2.2.2]
  · rw [(expireAt_parts s k).2.2.1]

theorem switched_fireOne {k kind late : Nat} {p : List Nat} (h : Switched p late s) : Switched p late (fireOne k kind s) := by
  by_cases hk : kind = 2
  · subst hk
    have hs : fireOne k 2 s = s := applySwitch_none h.1
    rwa [hs]
  · unfold Switched
    rwa [fireOne_dome hk, fireOne_lateSwitches hk]

theorem lateDue_length (s : State) (k : Nat) : (lateDue s k).length ≤ 3 := by
  refine (List.length_filter_le _ _).trans ?_
  have h1 : (match s.reel.order with | some (b, _) => [(b, 1)] | none => [] : List (Nat × Nat)).length ≤ 1 := by split <;> simp
  have h2 {x : Option (Nat × Nat)} : x.toList.length ≤ 1 := by cases x <;> simp
  have h3 : (if k % 1024 = 0 ∨ s.mtr.recovering then [] else
      (s.dome.ledger.at_.map (fun a => ((1024 * a, 2) : Nat × Nat))).toList).length ≤ 1 := by
    split
    · simp
    · exact h2
  simp only [List.length_append]
  exact Nat.add_le_add (Nat.add_le_add h1 h3) h2

theorem mem_lateDue_switch {k a : Nat} (hk : k % 1024 ≠ 0) (hr : s.mtr.recovering = false) (ha : s.dome.ledger.at_ = some a) (hl : 1024 * a < k) :
    (1024 * a, 2) ∈ lateDue s k := by
  simp [lateDue, hk, hr, ha, hl]

/-- Where no armed switch has been skipped, none is among the late events. -/
theorem kind_of_mem_lateDue {k : Nat} (h : ∀ a, s.dome.ledger.at_ = some a → s.mtr.recovering = true ∨ k ≤ 1024 * a) {x : Nat × Nat}
    (hx : x ∈ lateDue s k) : x.2 ≠ 2 := by
  intro h2
  simp only [lateDue, List.mem_filter, List.mem_append, decide_eq_true_eq] at hx
  obtain ⟨(hx | hx) | hx, hlt⟩ := hx
  · split at hx
    · rw [List.mem_singleton.mp hx] at h2
      cases h2
    · cases hx
  · split at hx
    · cases hx
    · next hn =>
      obtain ⟨a, ha, rfl⟩ := Option.map_eq_some_iff.mp (Option.mem_toList.mp hx)
      rcases h a ha with hr | hle
      · exact hn (.inr hr)
      · exact absurd hlt (by simpa using hle)
  · obtain ⟨a, ha, rfl⟩ := Option.map_eq_some_iff.mp (Option.mem_toList.mp hx)
    cases h2

theorem fireLate_switched {k a : Nat} (hk : k % 1024 ≠ 0) (hr : s.mtr.recovering = false) (ha : s.dome.ledger.at_ = some a) (hl : 1024 * a < k)
    (hp : ∀ o ∈ ledgerPages, ledgerMay s o = true) :
    Switched s.dome.ledger.pending (satAdd 32 s.mtr.lateSwitches 1) (fireLate k 3 (lateDue s k) s) := by
  have late {r : State} (h : r.dome.ledger = s.dome.ledger ∧ r.mtr.lateSwitches = s.mtr.lateSwitches ∧ r.acu = s.acu) :
      Switched s.dome.ledger.pending (satAdd 32 s.mtr.lateSwitches 1) (fireOne k 2 r) := by
    obtain ⟨hd, hm, hu⟩ := h
    rw [← hd, ← hm]
    refine applySwitch_late (a := a) (by rw [hd]; exact ha) (by omega) fun o ho => ?_
    rw [ledgerMay, intRefusal_congr hu]
    exact hp o ho
  refine fireLate_reaches (P := fun r => r.dome.ledger = s.dome.ledger ∧ r.mtr.lateSwitches = s.mtr.lateSwitches ∧ r.acu = s.acu)
    (mem_lateDue_switch hk hr ha hl) (lateDue_length s k) (fun _ => late) (fun r y _ h => ?_) (fun _ _ _ h => switched_fireOne h) ⟨rfl, rfl, rfl⟩
  by_cases hy : y.2 = 2
  · rw [hy]
    exact .inr (late h)
  · obtain ⟨hd, hm, hu⟩ := h
    exact .inl ⟨by rw [fireOne_dome hy, hd], by rw [fireOne_lateSwitches hy, hm], by rw [(fireOne_fires k y.2 r).acu, hu]⟩

/-! ## The Bell that is due (11 R336, R337) -/

/-- The device as it takes Bell `k`: its count, its state and the delay of the next. -/
def bellTaken (s : State) (k : Nat) : State :=
  setTimeState (s.setTime { s.time with
    bell := k, frac := 0, due := none, expect := if expectsAfter s k then s.time.expect else none, newDelay := none
    delay := s.time.newDelay.getD s.time.delay
    setPending := if s.time.setPending.any (fun v => 1024 * v == k) then none else s.time.setPending }) (stateAtBell s k)

/-- After the events of its Bell: the head's TIME_FULL. -/
def bellFired (s : State) (k : Nat) : State := headFull (bellEvents (bellTaken s k) k) k

theorem assertBell_eq (s : State) (k : Nat) : assertBell s k =
    if isHead (bellFired s k) ∨ (bellFired s k).time.st = 3 then
      sendBells ((bellFired s k).setTime { (bellFired s k).time with due := some (bellAfter (bellFired s k) k) }) (bellAfter (bellFired s k) k)
    else bellFired s k := rfl

theorem setTimeState_time (s : State) (st : Nat) : (setTimeState s st).time = { s.time with st := st } := by
  unfold setTimeState
  split
  · next h => rw [← h]
  · simp

theorem setTimeState_parts (s : State) (st : Nat) : (setTimeState s st).reel = s.reel ∧ (setTimeState s st).mtr = s.mtr ∧
    (setTimeState s st).dome = s.dome ∧ (setTimeState s st).vault = s.vault ∧ (setTimeState s st).cus = s.cus ∧
    (setTimeState s st).dev = s.dev ∧ (setTimeState s st).acu = s.acu ∧ (setTimeState s st).host = s.host := by
  unfold setTimeState
  split
  · exact ⟨rfl, rfl, rfl, rfl, rfl, rfl, rfl, rfl⟩
  · simp

theorem bellTaken_time (s : State) (k : Nat) : (bellTaken s k).time = { s.time with
    bell := k, frac := 0, due := none, expect := if expectsAfter s k then s.time.expect else none, newDelay := none
    delay := s.time.newDelay.getD s.time.delay
    setPending := if s.time.setPending.any (fun v => 1024 * v == k) then none else s.time.setPending, st := stateAtBell s k } :=
  setTimeState_time ..

theorem bellTaken_parts (s : State) (k : Nat) : (bellTaken s k).reel = s.reel ∧ (bellTaken s k).mtr = s.mtr ∧
    (bellTaken s k).dome = s.dome ∧ (bellTaken s k).vault = s.vault ∧ (bellTaken s k).cus = s.cus ∧
    (bellTaken s k).dev = s.dev ∧ (bellTaken s k).acu = s.acu ∧ (bellTaken s k).host = s.host := setTimeState_parts ..

/-! ### The stages of a Bell's events -/

def stageCapture (s : State) (k : Nat) : State := captureAt (fireLate k 3 (lateDue s k) s) k

def stageSecond (s : State) (k : Nat) : State := secondStart (stageCapture s k) k fun a => mtrSecond a (k / 1024)

def stageExpire (s : State) (k : Nat) : State := expireAt (stageSecond s k) k

def stageVault (s : State) (k : Nat) : State := secondStart (stageExpire s k) k vaultSecond

theorem bellEvents_eq (s : State) (k : Nat) : bellEvents s k = secondStart (stageVault s k) k ppsOutOn := rfl

theorem stageCapture_fires (s : State) (k : Nat) : Fires s (stageCapture s k) := (fireLate_fires ..).trans (captureAt_parts ..).1

theorem stageSecond_metered (s : State) (k : Nat) : Metered (stageCapture s k) (stageSecond s k) :=
  .ite (mtrSecond_metered (.refl _)) (.refl _)

theorem stageExpire_fires (s : State) (k : Nat) : Fires s (stageExpire s k) :=
  ((stageCapture_fires s k).trans (stageSecond_metered s k).fires).trans (expireAt_parts ..).1

theorem stageVault_mirrored (s : State) (k : Nat) : Mirrored (stageExpire s k) (stageVault s k) := .ite (vaultSecond_mirrored (.refl _)) (.refl _)

theorem bellEvents_time (s : State) (k : Nat) : (bellEvents s k).time = { s.time with late := (bellEvents s k).time.late } := by
  have h : (bellEvents s k).time = (stageExpire s k).time := by
    rw [bellEvents_eq, ← (stageVault_mirrored s k).time]
    unfold secondStart
    split <;> rfl
  rw [h]
  exact (stageExpire_fires s k).time

theorem bellEvents_parts (s : State) (k : Nat) : (bellEvents s k).reel.role = s.reel.role ∧
    (bellEvents s k).reel.order = (stageCapture s k).reel.order ∧ (bellEvents s k).mtr = (stageSecond s k).mtr ∧
    (bellEvents s k).cus = (stageExpire s k).cus ∧
    (bellEvents s k).dev.ppsOut = (s.dev.ppsOut || (decide (k % 1024 = 0) && s.time.src.getLsbD 2)) := by
  have hv := stageVault_mirrored s k
  have hx := expireAt_parts (stageSecond s k) k
  have hf := stageExpire_fires s k
  have hrole := hv.role.trans hf.role
  have horder : (stageVault s k).reel.order = (stageCapture s k).reel.order := by
    rw [hv.order, stageExpire, hx.2.1, (stageSecond_metered s k).reel]
  have hmtr : (stageVault s k).mtr = (stageSecond s k).mtr := hv.mtr.trans hx.2.2.1
  have hdev := hv.dev.trans hf.dev
  have hsrc : (stageVault s k).time.src = s.time.src := by rw [hv.time, hf.time]
  rw [bellEvents_eq]
  unfold secondStart
  split
  · next hk => exact ⟨hrole, horder, hmtr, hv.cus, by simp [ppsOutOn, hdev, hsrc, hk]⟩
  · next hk => exact ⟨hrole, horder, hmtr, hv.cus, by simp [hdev, hk]⟩

theorem bellEvents_lastSecond {k : Nat} (h : k % 1024 = 0) : (bellEvents s k).mtr.lastSecond = some (k / 1024) := by
  rw [(bellEvents_parts s k).2.2.1, stageSecond, secondStart, if_pos h]
  exact mtrSecond_lastSecond ..

theorem bellEvents_captured {k b : Nat} {l : List Nat} (ho : s.reel.order = some (b, l)) (hb : b ≤ k) :
    (bellEvents s k).reel.order = none ∧ (bellEvents s k).mtr.hidden = some (b, s.mtr.tally) := by
  have h : OrderAt b l s.mtr.tally (fireLate k 3 (lateDue s k) s) :=
    fireLate_keeps (fun _ _ _ => orderAt_fireOne hb) (.inl ⟨ho, rfl⟩)
  have hc : (stageCapture s k).reel.order = none ∧ (stageCapture s k).mtr.hidden = some (b, s.mtr.tally) := by
    rcases h with ⟨ho, ht⟩ | ⟨ho, hh⟩
    · have hc := captureAt_due ho hb
      exact ⟨hc.order, by rw [stageCapture, hc.mtr, ht]⟩
    · rw [stageCapture, captureAt_none ho]
      exact ⟨ho, hh⟩
  obtain ⟨-, horder, hmtr, -⟩ := bellEvents_parts s k
  rw [horder, hmtr, (stageSecond_metered s k).hidden]
  exact hc

theorem bellEvents_order {k b : Nat} {l : List Nat} (ho : s.reel.order = some (b, l)) (hb : k < b) :
    (bellEvents s k).reel.order = some (b, l) := by
  have h : (fireLate k 3 (lateDue s k) s).reel.order = some (b, l) :=
    fireLate_keeps (P := fun a : State => a.reel.order = some (b, l)) (fun _ _ _ => order_fireOne hb) ho
  rw [(bellEvents_parts s k).2.1, stageCapture, captureAt_later h hb]
  exact h

theorem bellEvents_expired {k e : Nat} {x : Ceremony} (hx : s.cus.cer = some x) (he : x.expires = some e) (hk : 1024 * e ≤ k)
    (ht : s.time.st ≠ 0) (hb : s.time.bell = k) : (bellEvents s k).cus.cer = none := by
  have hf : (fireLate k 3 (lateDue s k) s).cus.cer = s.cus.cer ∨ (fireLate k 3 (lateDue s k) s).cus.cer = none :=
    fireLate_keeps (P := fun a : State => a.cus.cer = s.cus.cer ∨ a.cus.cer = none)
      (fun a y _ ha => (fireOne_cer k y.2 a).elim (fun h => by rwa [h]) .inr) (.inl rfl)
  have hs : (stageSecond s k).cus.cer = s.cus.cer ∨ (stageSecond s k).cus.cer = none := by
    rwa [(stageSecond_metered s k).cus, stageCapture, (captureAt_parts ..).2.2.2.1]
  have htime := ((stageCapture_fires s k).trans (stageSecond_metered s k).fires).time
  rw [(bellEvents_parts s k).2.2.2.1, stageExpire]
  rcases hs with h | h
  · exact expireAt_over (h.trans hx) he (by rw [timeKnown, htime]; exact bne_iff_ne.mpr ht) (by rw [htime]; exact hb) hk
  · exact (expireAt_cer (stageSecond s k) k).elim (·.trans h) id

theorem bellEvents_plain {k : Nat} (hk : k % 1024 ≠ 0) : bellEvents s k = expireAt (stageCapture s k) k := by
  simp only [bellEvents_eq, stageVault, stageExpire, stageSecond, secondStart, if_neg hk]

theorem bellEvents_vault {k : Nat} (hk : k % 1024 ≠ 0) : (bellEvents s k).vault = s.vault ∧ (bellEvents s k).mtr.folded = s.mtr.folded := by
  obtain ⟨-, -, hm, hv, -⟩ := expireAt_parts (stageCapture s k) k
  obtain ⟨-, gv, -, -, gm⟩ := captureAt_parts (fireLate k 3 (lateDue s k) s) k
  have hl := fireLate_keeps (P := fun a : State => a.vault = s.vault ∧ a.mtr.folded = s.mtr.folded) (k := k) (n := 3) (l := lateDue s k)
    (fun a y _ ha => ⟨by rw [fireOne_vault, ha.1], by rw [fireOne_folded, ha.2]⟩) ⟨rfl, rfl⟩
  rw [bellEvents_plain hk, hm, hv, stageCapture, gv, gm]
  exact hl

theorem bellEvents_dome_eq {k : Nat} (hk : k % 1024 ≠ 0) : (bellEvents s k).dome = (fireLate k 3 (lateDue s k) s).dome ∧
    (bellEvents s k).mtr.lateSwitches = (fireLate k 3 (lateDue s k) s).mtr.lateSwitches := by
  obtain ⟨-, -, hm, -, hd⟩ := expireAt_parts (stageCapture s k) k
  obtain ⟨-, -, gd, -, gm⟩ := captureAt_parts (fireLate k 3 (lateDue s k) s) k
  rw [bellEvents_plain hk, hm, hd, stageCapture, gd, gm]
  exact ⟨rfl, rfl⟩

theorem bellEvents_dome {k : Nat} (hk : k % 1024 ≠ 0) (h : ∀ a, s.dome.ledger.at_ = some a → s.mtr.recovering = true ∨ k ≤ 1024 * a) :
    (bellEvents s k).dome = s.dome := by
  rw [(bellEvents_dome_eq hk).1]
  exact fireLate_keeps (P := fun a : State => a.dome = s.dome) (fun a y hy ha => (fireOne_dome (kind_of_mem_lateDue h hy) a).trans ha) rfl

theorem bellEvents_switched {k a : Nat} (hk : k % 1024 ≠ 0) (hr : s.mtr.recovering = false) (ha : s.dome.ledger.at_ = some a) (hl : 1024 * a < k)
    (hp : ∀ o ∈ ledgerPages, ledgerMay s o = true) : Switched s.dome.ledger.pending (satAdd 32 s.mtr.lateSwitches 1) (bellEvents s k) := by
  obtain ⟨hd, hm⟩ := bellEvents_dome_eq (s := s) hk
  unfold Switched
  rw [hd, hm]
  exact fireLate_switched hk hr ha hl hp

/-! ### The next Bell -/

theorem headFull_sent {k : Nat} : Sent s (headFull s k) := .ite (broadcast_sent (.refl s)) (.refl s)

theorem sendBells_sent {k : Nat} : Sent s (sendBells s k) := .ite (bellOut_sent (.refl s)) (.refl s)

/-- Of `assertBell`: the state that its events leave, with the next Bell scheduled. -/
theorem assertBell_parts (s : State) (k : Nat) : Sent ((bellEvents (bellTaken s k) k).setTime (assertBell s k).time) (assertBell s k) ∧
    (assertBell s k).time = { (bellEvents (bellTaken s k) k).time with
      due := if isHead s ∨ stateAtBell s k = 3 then some (bellAfter (bellTaken s k) k) else none } := by
  have hf : Sent (bellEvents (bellTaken s k) k) (bellFired s k) := headFull_sent
  have hhead : isHead (bellFired s k) = isHead s := by
    unfold isHead
    rw [hf.role, (bellEvents_parts ..).1, (bellTaken_parts s k).1]
  have htime := bellEvents_time (bellTaken s k) k
  have hst : (bellFired s k).time.st = stateAtBell s k := by
    rw [hf.time, htime, bellTaken_time]
  have hafter : bellAfter (bellFired s k) k = bellAfter (bellTaken s k) k := by
    unfold bellAfter
    rw [hf.time, htime]
  rw [assertBell_eq, hhead, hst, hafter]
  split
  · have hb := sendBells_sent (s := (bellFired s k).setTime { (bellFired s k).time with due := some (bellAfter (bellTaken s k) k) })
      (k := bellAfter (bellTaken s k) k)
    refine ⟨⟨rfl, hb.mtr.trans hf.mtr, hb.dome.trans hf.dome, hb.vault.trans hf.vault, hb.cus.trans hf.cus, hb.dev.trans hf.dev,
      hb.acu.trans hf.acu, hb.host.trans hf.host, hb.role.trans hf.role, hb.order.trans hf.order⟩, ?_⟩
    rw [hb.time, ← hf.time]
    rfl
  · refine ⟨⟨rfl, hf.mtr, hf.dome, hf.vault, hf.cus, hf.dev, hf.acu, hf.host, hf.role, hf.order⟩, ?_⟩
    have hdue : (bellEvents (bellTaken s k) k).time.due = none := by rw [htime, bellTaken_time]
    rw [hf.time, ← hdue]

end Sys2Proof.Machine

/-! SUPPORT. The Bell that is due, and a member's block, loss and TIME_FULL (11 R335 to R342). -/

namespace Sys2Proof.Machine
variable {s r q : State}

/-! ## Numbers (11 R335) -/

/-- The number taken is the nearest to the one expected, of all that have the low 40 bits. -/
theorem extend40_nearest (low e : Nat) : extend40 low e % 2 ^ 40 = low % 2 ^ 40 ∧ ∀ n, n % 2 ^ 40 = low % 2 ^ 40 →
    (extend40 low e - e) + (e - extend40 low e) ≤ (n - e) + (e - n) := by
  unfold extend40
  dsimp only
  refine ⟨?_, fun n hn => ?_⟩
  · split
    · omega
    · split <;> omega
  · split
    · omega
    · split <;> omega

/-! ## BELL_ASSERT -/

theorem stateAtBell_head {k : Nat} (hh : isHead s = true) (hd : s.time.due = some k) :
    stateAtBell s k = if s.time.st = 0 then 2 else s.time.st := by
  simp [stateAtBell, hh, hd]

theorem stateAtBell_member {k : Nat} (hh : isHead s = false) :
    stateAtBell s k = if s.time.st = 3 then 3 else if s.time.st = 4 ∧ expectsAfter s k = true then 4 else 1 := by
  simp [stateAtBell, hh]

theorem expectsAfter_iff {k : Nat} : expectsAfter s k = true ↔ ∃ e, s.time.expect = some e ∧ k < e := by
  simp [expectsAfter, Option.any_eq_true]

theorem stateAtBell_ne_zero (s : State) (k : Nat) : stateAtBell s k ≠ 0 := by
  unfold stateAtBell
  split
  · split
    · split <;> omega
    · assumption
  · split
    · omega
    · split <;> omega

theorem stateAtBell_due {k : Nat} (hd : s.time.due = some k) : stateAtBell s k =
    if isHead s then (if s.time.st = 0 then 2 else s.time.st)
    else if s.time.st = 3 then 3 else if s.time.st = 4 ∧ (∃ e, s.time.expect = some e ∧ k < e) then 4 else 1 := by
  cases hh : isHead s with
  | true => exact stateAtBell_head hh hd
  | false => simp only [stateAtBell_member hh, expectsAfter_iff, Bool.false_eq_true, if_false]

theorem expectKept (x : Option Nat) (k : Nat) :
    (if x.any (fun e => decide (k < e)) then x else none) = x.filter (fun e => decide (k < e)) := by
  cases x <;> rfl

theorem exec_bellAssert {k : Nat} (hd : s.time.due = some k) (h : timeKnown s = true → s.time.bell < k) :
    exec .bellAssert s = .next (assertBell s k) := by
  show execBellAssert s = _
  simp only [execBellAssert, hd]
  exact if_neg fun hn => absurd hn.2 (Nat.not_le.mpr (h hn.1))

/-- What a Bell that is due makes of Reel time. -/
theorem bellAssert_time {k : Nat} : ∃ late, (assertBell s k).time = { s.time with
    bell := k, frac := 0, newDelay := none, delay := s.time.newDelay.getD s.time.delay, late := late
    due := if isHead s ∨ stateAtBell s k = 3 then some (bellAfter (bellTaken s k) k) else none
    expect := if expectsAfter s k then s.time.expect else none
    setPending := if s.time.setPending.any (fun v => 1024 * v == k) then none else s.time.setPending, st := stateAtBell s k } := by
  refine ⟨(bellEvents (bellTaken s k) k).time.late, ?_⟩
  rw [(assertBell_parts s k).2, bellEvents_time, bellTaken_time]

theorem bellAfter_next {k : Nat} (h : s.time.setPending = none) : bellAfter (bellTaken s k) k = k + 1 := by
  simp [bellAfter, bellTaken_time, h]

theorem bellAfter_set {k v : Nat} (h : s.time.setPending = some v) (hv : 1024 * v ≠ k) (hk : (k + 1) % 1024 = 0) :
    bellAfter (bellTaken s k) k = 1024 * v := by
  simp [bellAfter, bellTaken_time, h, hv, hk]

/-! ## BELL, BELL_LOSS and TIME_FULL at a member (11 R340 to R342) -/

theorem extend40_low (low e : Nat) : extend40 (low % 2 ^ 40) e = extend40 low e := by
  simp only [extend40, Nat.mod_mod]

theorem arrivingNumber_eq (t : Time) (low : Nat) : arrivingNumber t (low % 2 ^ 40) = match t.expect with
    | some e => if (low % 2 ^ 40 + 2 ^ 40 - e % 2 ^ 40) % 2 ^ 40 < 2 ^ 39 then e + (low % 2 ^ 40 + 2 ^ 40 - e % 2 ^ 40) % 2 ^ 40
      else extend40 low (t.bell + 1)
    | none => extend40 low (t.bell + 1) := by
  unfold arrivingNumber
  cases t.expect <;> simp only [Option.map, extend40_low]

theorem takeNumber_time (s : State) (m : Nat) : (takeNumber s m).time = { s.time with
    due := if s.time.bell < m then some m else none
    expect := if (∃ e, s.time.expect = some e ∧ e ≤ m) ∧ m ≤ s.time.bell then some (m + 1) else s.time.expect } := by
  simp [takeNumber, Option.any_eq_true]

theorem bellOut_down {low corr : Nat} (hp : portUp s true = true) (ht : s.reel.topo ≠ 3) :
    (bellOut s low corr).reel.dn.bell.map (·.1) = some (low % 2 ^ 40) := by
  simp [bellOut, bellPorts, ht, hp, setPort]

/-- A member that has taken a block: the block sent on, and how far the next Bell leads. -/
def blockPassed (s : State) (low corr : Nat) : State :=
  (bellOut s low corr).setTime { (bellOut s low corr).time with lead := bellPeriod - (bellOut s low corr).time.delay - corr }

theorem blockPassed_time (s : State) (low corr : Nat) :
    (blockPassed s low corr).time = { s.time with lead := 9765625 - s.time.delay - corr } := by
  simp only [blockPassed, State.setTime_time, (bellOut_sent (k := low) (c := corr) (.refl s)).time]
  rfl

theorem execBellBlock_unknown {low corr : Nat} (hh : isHead s = false) (h0 : s.time.st = 0) :
    ∃ t, execBellBlock low corr s = .next ((blockPassed s low corr).setTime t) ∧
      t = if s.time.expect.any (fun e => low % 2 ^ 40 == e % 2 ^ 40) then { (blockPassed s low corr).time with due := s.time.expect }
        else (blockPassed s low corr).time := by
  have hst : (blockPassed s low corr).time.st = 0 := by rw [blockPassed_time, ← h0]
  have hex : (blockPassed s low corr).time.expect = s.time.expect := by rw [blockPassed_time]
  refine ⟨_, ?_, rfl⟩
  show (if isHead s then _ else if (blockPassed s low corr).time.st = 0 then match (blockPassed s low corr).time.expect with
    | none => _
    | some e => _ else _) = _
  rw [hh, if_neg Bool.false_ne_true, if_pos hst, hex]
  cases hx : s.time.expect with
  | none => rfl
  | some e =>
    simp only [Option.any_some, beq_iff_eq]
    split <;> rfl

theorem execBellBlock_known {low corr : Nat} (hh : isHead s = false) (h0 : s.time.st ≠ 0) :
    execBellBlock low corr s = .next (takeNumber (if s.time.st = 3 then setTimeState (blockPassed s low corr) 4 else blockPassed s low corr)
      (arrivingNumber (blockPassed s low corr).time (low % 2 ^ 40))) := by
  have hst : (blockPassed s low corr).time.st = s.time.st := by rw [blockPassed_time]
  rw [← hst] at h0 ⊢
  exact (if_neg (by simp [hh])).trans (if_neg h0)

theorem toHoldover_time (s : State) : (toHoldover s).time = { s.time with st := 3, holdovers := satAdd 32 s.time.holdovers 1 } := setTimeState_time ..

theorem takeFull_time (n : Nat) (s : State) : (takeFull n s).time = if s.time.st = 0 then { s.time with expect := some n }
    else if n = 1024 * (s.time.bell / 1024 + 1) then s.time else { s.time with st := 4, expect := some n } := by
  unfold takeFull nextSecondBell
  split
  · rfl
  · split
    · rfl
    · simp [setTimeState_time]

theorem takeFull_parts (n : Nat) (s : State) : (takeFull n s).vault = s.vault ∧ (takeFull n s).mtr = s.mtr ∧ (takeFull n s).host = s.host := by
  obtain ⟨-, hm, -, hv, -, -, -, hh⟩ := setTimeState_parts s 4
  unfold takeFull
  split
  · exact ⟨rfl, rfl, rfl⟩
  · split
    · exact ⟨rfl, rfl, rfl⟩
    · exact ⟨hv, hm, hh⟩

/-- A broadcast from the head to all is acted on where it is heard, and passed on first. -/
theorem receive_broadcast {h : Hdr} {cls typ : Nat} {p : Bytes} {f : State → State} {s1 : State} (hd : h.dst = 0xFFFF)
    (hh : heard s h cls = some s1) : ∃ s2, receive s h cls typ p f = f s2 ∧ Sent s s2 := by
  have hs := heard_sent hh
  simp only [receive, hh, hd, if_true]
  split
  · exact ⟨s1, rfl, hs⟩
  · exact ⟨_, rfl, relay_sent hs⟩

theorem bellAssert_clause (s : State) (k : Nat) (hd : s.time.due = some k) (hk : timeKnown s = true → s.time.bell < k) :
    ∃ s', exec .bellAssert s = .next s' ∧ s'.time.bell = k ∧ s'.time.frac = 0 ∧
      s'.time.delay = s.time.newDelay.getD s.time.delay ∧
      s'.time.st = (if isHead s then (if s.time.st = 0 then 2 else s.time.st)
        else if s.time.st = 3 then 3 else if s.time.st = 4 ∧ (∃ e, s.time.expect = some e ∧ k < e) then 4 else 1) ∧
      s'.time.expect = s.time.expect.filter (fun e => decide (k < e)) ∧
      (isHead s = false → s.time.st ≠ 3 → s'.time.due = none) ∧
      (isHead s = true → s.time.setPending = none → s'.time.due = some (k + 1)) ∧
      (∀ v, isHead s = true → s.time.setPending = some v → 1024 * v ≠ k → (k + 1) % 1024 = 0 → s'.time.due = some (1024 * v)) ∧
      (k % 1024 = 0 → s'.mtr.lastSecond = some (k / 1024)) ∧
      (k % 1024 ≠ 0 → (∀ a, s.dome.ledger.at_ = some a → s.mtr.recovering = true ∨ k ≤ 1024 * a) →
        s'.vault = s.vault ∧ s'.dome = s.dome ∧ s'.mtr.folded = s.mtr.folded) ∧
      (∀ a, k % 1024 ≠ 0 → s.mtr.recovering = false → s.dome.ledger.at_ = some a → 1024 * a < k → (∀ o ∈ ledgerPages, ledgerMay s o = true) →
        s'.dome.ledger.at_ = none ∧ s'.dome.ledger.active = s.dome.ledger.pending ∧
        s'.mtr.lateSwitches = satAdd 32 s.mtr.lateSwitches 1) ∧
      s'.dev.ppsOut = (s.dev.ppsOut || (decide (k % 1024 = 0) && s.time.src.getLsbD 2)) ∧
      (∀ b l, s.reel.order = some (b, l) → b ≤ k → s'.reel.order = none ∧ s'.mtr.hidden = some (b, s.mtr.tally)) ∧
      (∀ b l, s.reel.order = some (b, l) → k < b → s'.reel.order = some (b, l)) ∧
      (∀ x e, s.cus.cer = some x → x.expires = some e → 1024 * e ≤ k → s'.cus.cer = none) := by
  obtain ⟨late, ht⟩ := bellAssert_time (s := s) (k := k)
  have hs := (assertBell_parts s k).1
  obtain ⟨hr, hm, hdm, hv, hc, hdv, ha, -⟩ := bellTaken_parts s k
  have hmtr := hs.mtr
  have hsrc : (bellTaken s k).time.src = s.time.src := by rw [bellTaken_time]
  refine ⟨assertBell s k, exec_bellAssert hd hk, by rw [ht], by rw [ht], by rw [ht], ?_, ?_, ?_, ?_, ?_, ?_, ?_, ?_, ?_, ?_, ?_, ?_⟩
  · rw [ht]
    exact stateAtBell_due hd
  · rw [ht]
    exact expectKept ..
  · intro hh h3
    rw [ht]
    refine if_neg fun hn => hn.elim (by simp [hh]) fun h => ?_
    rw [stateAtBell_member hh, if_neg h3] at h
    split at h <;> cases h
  · intro hh hp
    rw [ht, ← bellAfter_next hp]
    exact if_pos (.inl hh)
  · intro v hh hp hv hk
    rw [ht, ← bellAfter_set hp hv hk]
    exact if_pos (.inl hh)
  · intro hk
    rw [hs.mtr]
    exact bellEvents_lastSecond hk
  · intro hk hat
    rw [hs.vault, hs.dome, hs.mtr]
    have h1 := bellEvents_vault (s := bellTaken s k) hk
    have h2 := bellEvents_dome (s := bellTaken s k) hk (by rwa [hdm, hm])
    rw [hv, hm] at h1
    rw [hdm] at h2
    exact ⟨h1.1, h2, h1.2⟩
  · intro a hk hrec hat hl hp
    rw [hs.dome, hs.mtr]
    have h := bellEvents_switched (s := bellTaken s k) (a := a) hk (by rwa [hm]) (by rwa [hdm]) hl fun o ho => by
      rw [ledgerMay, intRefusal_congr ha]
      exact hp o ho
    rw [hdm, hm] at h
    exact h
  · rw [hs.dev]
    exact (bellEvents_parts (bellTaken s k) k).2.2.2.2.trans (by rw [hdv, hsrc])
  · intro b l ho hb
    rw [hs.order, hs.mtr]
    have h := bellEvents_captured (s := bellTaken s k) (by rw [hr]; exact ho) hb
    rwa [hm] at h
  · intro b l ho hb
    rw [hs.order]
    exact bellEvents_order (by rw [hr]; exact ho) hb
  · intro x e hx he hke
    rw [hs.cus]
    refine bellEvents_expired (by rw [hc]; exact hx) he hke ?_ (by rw [bellTaken_time])
    rw [bellTaken_time]
    exact stateAtBell_ne_zero s k

theorem bellBlock_clause (s : State) (low corr : Nat) (hh : isHead s = false) :
    let m := match s.time.expect with
      | some e => if (low % 2 ^ 40 + 2 ^ 40 - e % 2 ^ 40) % 2 ^ 40 < 2 ^ 39 then e + (low % 2 ^ 40 + 2 ^ 40 - e % 2 ^ 40) % 2 ^ 40
        else extend40 low (s.time.bell + 1)
      | none => extend40 low (s.time.bell + 1)
    let x := { s.time with lead := 9765625 - s.time.delay - corr }
    ∃ s', exec (.bellBlock low corr) s = .next s' ∧
      (s.time.st = 0 → s'.time = if s.time.expect.any (fun e => low % 2 ^ 40 == e % 2 ^ 40) then { x with due := s.time.expect } else x) ∧
      (s.time.st ≠ 0 → s'.time = { x with
        due := if s.time.bell < m then some m else none
        st := if s.time.st = 3 then 4 else s.time.st
        expect := if (∃ e, s.time.expect = some e ∧ e ≤ m) ∧ m ≤ s.time.bell then some (m + 1) else s.time.expect }) ∧
      (portUp s true = true → s.reel.topo ≠ 3 → s'.reel.dn.bell.map (·.1) = some (low % 2 ^ 40)) := by
  have ht := blockPassed_time s low corr
  by_cases h0 : s.time.st = 0
  · obtain ⟨t, he, rfl⟩ := execBellBlock_unknown (low := low) (corr := corr) hh h0
    refine ⟨_, he, fun _ => ?_, fun h => absurd h0 h, bellOut_down⟩
    rw [State.setTime_time, ht]
  · refine ⟨_, execBellBlock_known hh h0, fun h => absurd h h0, fun _ => ?_, fun hp h3 => ?_⟩
    · have ht2 : (if s.time.st = 3 then setTimeState (blockPassed s low corr) 4 else blockPassed s low corr).time =
          { (blockPassed s low corr).time with st := if s.time.st = 3 then 4 else s.time.st } := by
        split
        · exact setTimeState_time ..
        · rw [ht]
      rw [takeNumber_time, ht2, arrivingNumber_eq, ht]
    · have hr : (if s.time.st = 3 then setTimeState (blockPassed s low corr) 4 else blockPassed s low corr).reel = (bellOut s low corr).reel := by
        split
        · exact (setTimeState_parts (blockPassed s low corr) 4).1
        · rfl
      show Option.map _ (State.reel (if _ then _ else _)).dn.bell = _
      rw [hr]
      exact bellOut_down hp h3

theorem bellLoss_clause (s : State) (hh : isHead s = false) :
    (s.time.st ≠ 1 → s.time.st ≠ 4 → exec .bellLoss s = .next s) ∧
    (s.time.st = 1 ∨ s.time.st = 4 → ∃ s', exec .bellLoss s = .next s' ∧ s'.time = { s.time with
      st := 3, holdovers := satAdd 32 s.time.holdovers 1, due := some (s.time.bell + 1), expect := none }) := by
  refine ⟨fun h1 h4 => congrArg Host.Outcome.next (if_neg fun h => h.2.elim h1 h4),
    fun h => ⟨_, congrArg Host.Outcome.next (if_pos ⟨by simp [hh], h⟩), ?_⟩⟩
  rw [State.setTime_time, toHoldover_time]

theorem timeFull_clause (s s1 : State) (q n h : Nat) (hh : isHead s = false) (h1 : heard s { src := 0, dst := 0xFFFF, seq := q } 0 = some s1) :
    ∃ s', exec (.timeFull n h q) s = .next s' ∧ s'.time = (if s.time.st = 0 then { s.time with expect := some n }
      else if n = 1024 * (s.time.bell / 1024 + 1) then s.time else { s.time with st := 4, expect := some n }) ∧
    s'.vault = s.vault ∧ s'.mtr = s.mtr ∧ s'.host = s.host := by
  obtain ⟨s2, he, hs⟩ := receive_broadcast (typ := 0x0A) (p := leBytes 8 n ++ leBytes 1 h) (f := takeFull n) rfl h1
  obtain ⟨hv, hm, ho⟩ := takeFull_parts n s2
  refine ⟨takeFull n s2, (if_neg (by simp [hh])).trans (congrArg Host.Outcome.next he), ?_, hv.trans hs.vault, hm.trans hs.mtr, ho.trans hs.host⟩
  rw [takeFull_time, hs.time]

/-- Settles O5. Each event of a Bell leaves what the others speak of: Reel time but for the count of late events; the order, the switch and the
ceremony's window are each fired by one event alone, late or on time. -/
theorem bellsRiseAndFireTheirEvents : Obligations.BellsRiseAndFireTheirEvents := by
  refine ⟨extend40_nearest, fun s hd => ?_, fun s k hd ht hb => ?_, bellAssert_clause, fun s low corr q n h hh => ⟨if_pos hh, ?_, if_pos hh⟩,
    bellBlock_clause, bellLoss_clause, fun s q n h hh hn => ?_, timeFull_clause⟩
  · show execBellAssert s = _
    simp only [execBellAssert, hd]
  · show execBellAssert s = _
    simp only [execBellAssert, hd]
    exact if_pos ⟨ht, hb⟩
  · exact congrArg Host.Outcome.next (if_neg fun hn => by simp [hh] at hn)
  · refine (if_neg (by simp [hh])).trans ?_
    simp only [receive, hn]

end Sys2Proof.Machine

/-! SUPPORT. The head's sources of time (11 R338 to R342). -/

namespace Sys2Proof.Machine
variable {s r q : State}

/-! ## Big-endian numbers -/

theorem beVal_append_singleton (l : Bytes) (b : Byte) : beVal (l ++ [b]) = beVal l * 256 + b.toNat := by simp [beVal]

@[simp] theorem beBytes_length (n v : Nat) : (beBytes n v).length = n := by simp [beBytes]

theorem beVal_beBytes (n v : Nat) : beVal (beBytes n v) = v % 256 ^ n := by
  unfold beBytes
  induction n generalizing v with
  | zero => simp [leBytes, beVal, Nat.mod_one]
  | succ n ih =>
    rw [leBytes, List.reverse_cons, beVal_append_singleton, ih, BitVec.toNat_ofNat, pow_succ' 256 n, Nat.mod_mul (a := 256)]
    omega

/-- A number of `n` bytes reads back from where it stands in a message. -/
theorem beAt_beBytes (a c : Bytes) (n v : Nat) : beAt (a ++ beBytes n v ++ c) a.length n = v % 256 ^ n := by
  rw [beAt, sub, List.append_assoc, List.drop_left, List.take_append_of_le_length (by simp), List.take_of_length_le (by simp), beVal_beBytes]

/-! ## The time-of-day frame that is sent (11 R339) -/

/-- Bytes, with their exclusive or behind them, have an exclusive or of 0. -/
theorem foldl_xor_checked (b : Bytes) : (b ++ [b.foldl (fun a x => a ^^^ x) 0]).foldl (fun a x => a ^^^ x) (0 : Byte) = 0 := by
  rw [List.foldl_append]
  simp

theorem todFrameOf_parts (s : State) (f : Nat) : (todFrameOf s f).length = 10 ∧ beAt (todFrameOf s f) 2 6 = (s.time.bell / 1024 + 1) % 2 ^ 48 ∧
    (todFrameOf s f).foldl (fun a x => a ^^^ x) 0 = 0 ∧ (todFrameOf s f).take 2 = [0x54, 0x44] := by
  refine ⟨by simp [todFrameOf], ?_, foldl_xor_checked _, by simp [todFrameOf]⟩
  unfold todFrameOf reelSecond
  simp only [List.append_assoc]
  rw [← List.append_assoc]
  exact beAt_beBytes [0x54, 0x44] _ 6 _

/-! ## The head's PPS edges (11 R338) -/

theorem execPpsEdge_taken {gap : Nat} {ph : Word} (hh : isHead s = true) (hs : s.time.src.getLsbD 0 = true)
    (hg : s.time.edges = 0 ∨ (900000 ≤ gap ∧ gap ≤ 1100000)) : exec (.ppsEdge gap ph) s = .next (acceptEdge s ph) :=
  (if_neg (by simp [hh, hs])).trans (if_pos (by simpa [inWindow] using hg))

/-- The state of a head in HOLDOVER or FREE_RUN after the third edge. -/
theorem leaveHoldover_time (s : State) (ph : Word) : (leaveHoldover s ph).time.phase = s.time.phase ∧
    (leaveHoldover s ph).time.edges = s.time.edges ∧ (leaveHoldover s ph).time.missRun = s.time.missRun ∧
    (leaveHoldover s ph).time.bell = s.time.bell ∧ (leaveHoldover s ph).time.st =
      (if ph.toInt.natAbs < 3 then 1 else if ph.toInt.natAbs ≤ 62500000 then 4 else 1) := by
  unfold leaveHoldover phaseAbs slewLimit
  split
  · simp [setTimeState_time]
  · split
    · simp [setTimeState_time]
    · split <;> simp [setTimeState_time]

theorem acceptEdge_known {ph : Word} (h0 : s.time.st ≠ 0) : (acceptEdge s ph).time.phase = ph ∧
    (acceptEdge s ph).time.edges = s.time.edges + 1 ∧ (acceptEdge s ph).time.missRun = 0 ∧ (acceptEdge s ph).time.bell = s.time.bell ∧
    (acceptEdge s ph).time.st = (if s.time.st = 4 then (if ph.toInt.natAbs < 3 then 1 else 4)
      else if (s.time.st = 2 ∨ s.time.st = 3) ∧ 2 ≤ s.time.edges then
        (if ph.toInt.natAbs < 3 then 1 else if ph.toInt.natAbs ≤ 62500000 then 4 else 1)
      else s.time.st) := by
  unfold acceptEdge phaseAbs
  simp only [if_neg h0]
  by_cases h4 : s.time.st = 4
  · simp only [if_pos h4]
    split
    · simp [setTimeState_time]
    · simp [h4]
  · simp only [if_neg h4]
    by_cases hl : (s.time.st = 2 ∨ s.time.st = 3) ∧ 2 ≤ s.time.edges
    · have hl' : (s.time.st = 2 ∨ s.time.st = 3) ∧ s.time.edges + 1 ≥ 3 := ⟨hl.1, by omega⟩
      simp only [if_pos hl, if_pos hl']
      exact leaveHoldover_time ..
    · have hl' : ¬ ((s.time.st = 2 ∨ s.time.st = 3) ∧ s.time.edges + 1 ≥ 3) := fun h => hl ⟨h.1, by omega⟩
      simp only [if_neg hl, if_neg hl']
      simp

/-- In UNKNOWN an accepted edge takes the second that a SET names, or else the frame's, at once. -/
theorem acceptEdge_first {ph : Word} {v : Nat} (h0 : s.time.st = 0) (hd : s.time.due = none)
    (hv : s.time.setPending.or s.time.todSecond = some v) : (acceptEdge s ph).time.bell = 1024 * v ∧ (acceptEdge s ph).time.st = 1 ∧
    (acceptEdge s ph).time.frac = 0 := by
  have he : acceptEdge s ph = assertBell (s.setTime { s.time with edges := s.time.edges + 1, missRun := 0, todSecond := none }) (1024 * v) := by
    unfold acceptEdge
    simp only [if_pos h0]
    cases hp : s.time.setPending with
    | some w =>
      rw [hp] at hv
      cases hv
      simp only [hd]
    | none =>
      rw [hp] at hv
      simp only [hd, show s.time.todSecond = some v from hv]
  obtain ⟨late, ht⟩ := bellAssert_time (s := s.setTime { s.time with edges := s.time.edges + 1, missRun := 0, todSecond := none }) (k := 1024 * v)
  rw [he, ht]
  refine ⟨rfl, ?_, rfl⟩
  simp [stateAtBell, h0, hd]

/-- Settles O6, by the branches of each source's command; an edge in UNKNOWN is a Bell asserted. -/
theorem headTakesTimeFromItsSources : Obligations.HeadTakesTimeFromItsSources := by
  refine ⟨fun s gap ms ph fr hh => ?_, fun s gap lo hi ph hl => if_pos (by tauto), fun s ms fr raw hr => ?_, fun s gap ph hs => ?_,
    fun s ms fr hs => ?_,
    fun s gap ph hh hs => ⟨fun he hg => ?_, fun he hg => ?_, fun hg => ⟨fun h0 hd => ?_, fun h0 hd v hv => ?_, fun h0 hd hp ht => ?_, fun h0 => ?_⟩⟩,
    fun s hh hs hm => ?_, fun s fr ms hh hs => ⟨fun hok => ?_, fun hok h0 => ?_, fun hok h0 => ?_⟩,
    fun s hh => ⟨fun h0 => ?_, fun h0 hle => ?_, fun h0 hlt => ?_⟩, fun s => rfl, fun s => ⟨fun h => ?_, fun hs h0 => ?_⟩⟩
  case refine_1 => exact ⟨if_pos (by simp [hh]), if_pos (by simp [hh]), if_pos (by simp [hh]), if_pos (by simp [hh])⟩
  case refine_2 =>
    have hr' : raw.isEmpty = false := by simpa using hr
    show execTodFrame fr ms s raw = execTodFrame (todSampled raw) ms s
    simp [execTodFrame, hr']
  case refine_3 => exact ⟨if_pos (.inr (.inl (by rw [hs]; rfl))), if_pos (.inr (.inl (by rw [hs]; rfl)))⟩
  case refine_4 => exact if_pos (.inr (by rw [hs]; rfl))
  case refine_5 =>
    exact (if_neg (by simp [hh, hs])).trans ((if_neg (by simp [inWindow, he]; omega)).trans (if_pos hg))
  case refine_6 =>
    exact (if_neg (by simp [hh, hs])).trans ((if_neg (by simp [inWindow, he]; omega)).trans (if_neg (by omega)))
  case refine_7 =>
    obtain ⟨k, hk⟩ := Option.ne_none_iff_exists'.mp hd
    rw [execPpsEdge_taken hh hs hg]
    simp only [acceptEdge, if_pos h0, hk]
    rfl
  case refine_8 => exact ⟨_, execPpsEdge_taken hh hs hg, acceptEdge_first h0 hd hv⟩
  case refine_9 =>
    rw [execPpsEdge_taken hh hs hg]
    simp only [acceptEdge, if_pos h0, hd, hp, ht]
    rfl
  case refine_10 => exact ⟨_, execPpsEdge_taken hh hs hg, acceptEdge_known h0⟩
  case refine_11 =>
    refine ⟨_, if_neg (by simp [hh, hs]; omega), ?_⟩
    by_cases hc : s.time.missRun + 1 ≥ 2 ∧ (s.time.st = 1 ∨ s.time.st = 4)
    · have hc' : 1 ≤ s.time.missRun ∧ (s.time.st = 1 ∨ s.time.st = 4) := ⟨by omega, hc.2⟩
      rw [if_pos hc, if_pos hc', toHoldover_time]
      exact ⟨rfl, rfl, rfl, rfl, rfl, rfl⟩
    · have hc' : ¬ (1 ≤ s.time.missRun ∧ (s.time.st = 1 ∨ s.time.st = 4)) := fun h => hc ⟨by omega, h.2⟩
      rw [if_neg hc, if_neg hc']
      exact ⟨rfl, rfl, rfl, rfl, rfl, rfl⟩
  case refine_12 => exact (if_neg (by simp [hh, hs])).trans (if_pos (by simp [hok]))
  case refine_13 => exact (if_neg (by simp [hh, hs])).trans ((if_neg (by simp [hok])).trans (if_pos h0))
  case refine_14 =>
    refine (if_neg (by simp [hh, hs])).trans ((if_neg (by simp [hok])).trans ((if_neg h0).trans ?_))
    exact (apply_ite Host.Outcome.next ..).symm
  case refine_15 => exact (if_neg (by simp [hh])).trans (if_pos h0)
  case refine_16 => exact (if_neg (by simp [hh])).trans ((if_neg h0).trans (if_pos hle))
  case refine_17 =>
    refine ⟨_, (if_neg (by simp [hh])).trans ((if_neg h0).trans (if_neg (Nat.not_le.mpr hlt))), rfl, rfl, rfl⟩
  case refine_18 => exact if_pos (by simpa [timeKnown] using h)
  case refine_19 =>
    obtain ⟨hl, hv, hx, ht⟩ := todFrameOf_parts s s.free
    exact ⟨todFrameOf s s.free, hl, hv, hx, ht, if_neg (by simp [hs, timeKnown, h0])⟩

end Sys2Proof.Machine

/-! SUPPORT. The ledger's operations where every write is allowed (12 R355 to R366). -/

namespace Sys2Proof.Machine
variable {s r q : State}

/-! ## Tables by TF -/

theorem tblGet_absent {α : Type} {d : α} {l : Tbl α} {k : Nat} (h : ∀ e ∈ l, e.1 ≠ k) : tblGet d l k = d := by
  induction l with
  | nil => rfl
  | cons e l ih =>
    rw [tblGet, if_neg (h e (List.mem_cons_self ..))]
    exact ih fun x hx => h x (List.mem_cons_of_mem _ hx)

theorem tblGet_mem {α : Type} {d : α} {l : Tbl α} (h : (l.map (·.1)).Nodup) {k : Nat} {v : α} (hm : (k, v) ∈ l) : tblGet d l k = v := by
  induction l with
  | nil => cases hm
  | cons e l ih =>
    rw [List.map_cons, List.nodup_cons] at h
    rcases List.mem_cons.mp hm with rfl | hm
    · exact if_pos rfl
    · rw [tblGet, if_neg fun he : e.1 = k => h.1 (List.mem_map.mpr ⟨_, hm, he.symm⟩)]
      exact ih h.2 hm

/-- A table without its default entries reads as before, where no key stands twice. -/
theorem tblGet_filter_ne {α : Type} [DecidableEq α] {d : α} {l : Tbl α} (h : (l.map (·.1)).Nodup) (k : Nat) :
    tblGet d (l.filter (fun e => e.2 != d)) k = tblGet d l k := by
  induction l with
  | nil => rfl
  | cons e l ih =>
    obtain ⟨j, v⟩ := e
    rw [List.map_cons, List.nodup_cons] at h
    by_cases hv : v = d
    · subst hv
      rw [List.filter_cons_of_neg (by simp), ih h.2, tblGet]
      split
      · next hj =>
        subst hj
        refine tblGet_absent fun e he hk => h.1 (List.mem_map.mpr ⟨e, he, hk⟩)
      · rfl
    · rw [List.filter_cons_of_pos (by simpa using hv), tblGet, tblGet, ih h.2]

theorem tblGet_map {α β : Type} {d : α} {d' : β} {f : α → β} (h : f d = d') (l : Tbl α) (k : Nat) :
    tblGet d' (l.map (fun e => (e.1, f e.2))) k = f (tblGet d l k) := by
  induction l with
  | nil => exact h.symm
  | cons e l ih =>
    simp only [List.map_cons, tblGet, ih]
    split <;> rfl

theorem perTf_keys {α : Type} [DecidableEq α] (d : α) (f : Nat → α) : (perTf d f).map (·.1) = (List.range 1024).filter (fun n => f n != d) := by
  unfold perTf
  rw [List.map_filterMap, ← List.filterMap_eq_filter]
  refine List.filterMap_congr fun n _ => ?_
  by_cases h : f n = d <;> simp [h, Option.guard]

theorem perTf_nodup {α : Type} [DecidableEq α] (d : α) (f : Nat → α) : ((perTf d f).map (·.1)).Nodup := by
  rw [perTf_keys]
  exact List.nodup_range.filter _

theorem tblGet_perTf {α : Type} [DecidableEq α] (d : α) (f : Nat → α) {n : Nat} (hn : n < 1024) : tblGet d (perTf d f) n = f n := by
  by_cases hd : f n = d
  · rw [hd]
    refine tblGet_absent fun e he hk => ?_
    obtain ⟨m, -, hm⟩ := List.mem_filterMap.mp he
    split at hm
    · cases hm
    · next hmd =>
      cases hm
      obtain rfl : m = n := hk
      exact hmd hd
  · exact tblGet_mem (perTf_nodup d f) (List.mem_filterMap.mpr ⟨n, List.mem_range.mpr hn, if_neg hd⟩)

/-! ## The ledger's operations, where every write is allowed (12 R355 to R366) -/

/-- The registers and the words of the ledger may be written. -/
def LedgerOpen (s : State) : Prop := ∀ o ∈ ledgerPages, intRefusal s 6 true (0x20004000 + o) = none

theorem LedgerOpen.congr (h : LedgerOpen s) (ha : r.acu = s.acu) : LedgerOpen r := fun o ho => by
  rw [intRefusal_congr ha]
  exact h o ho

theorem LedgerOpen.putLedger (h : LedgerOpen s) (l : Ledger) : s.putLedger l = s.setLedger l :=
  putLedger_allowed fun o ho => by
    rw [ledgerMay, h o ho]
    rfl

/-- Where the registers refuse it, a write leaves them. -/
theorem putLedger_refused (h : intRefusal s 6 true 0x20004000 ≠ none) (l : Ledger) :
    (s.putLedger l).dome.ledger.at_ = s.dome.ledger.at_ ∧ (s.putLedger l).dome.ledger.active = s.dome.ledger.active ∧
    (s.putLedger l).dome.ledger.commit = s.dome.ledger.commit := by
  have hm : ledgerMay s 0 = false := by
    rw [ledgerMay, Nat.add_zero, Option.isNone_eq_false_iff, Option.isSome_iff_ne_none]
    exact h
  have hno : ledgerPages.filter (fun a => !ledgerMay s a) ≠ [] := fun hn => by
    have := List.filter_eq_nil_iff.mp hn 0 (by decide)
    simp [hm] at this
  unfold State.putLedger
  dsimp only
  split
  · next hc =>
    rcases hc with hc | rfl
    · exact absurd (List.isEmpty_iff.mp hc) hno
    · exact ⟨rfl, rfl, rfl⟩
  · simp [allowedLedger, hm]

/-- What a switch and a new length leave of the ledger. -/
def Repriced (l r : Ledger) : Prop :=
  r = { l with active := r.active, activeId := r.activeId, at_ := r.at_, openFlags := r.openFlags, len := r.len }

theorem Repriced.trans {l r q : Ledger} (h : Repriced l r) (g : Repriced r q) : Repriced l q := by
  unfold Repriced at *
  rw [g, h]

theorem applySwitch_repriced {sec : Nat} (hm : LedgerOpen s) : Repriced s.dome.ledger (applySwitch s sec).dome.ledger := by
  unfold applySwitch
  split
  · rfl
  · split
    · rfl
    · dsimp only
      rw [hm.putLedger]
      split <;> simp [lateEvent, Repriced]

theorem commitLen_repriced (hm : LedgerOpen s) : Repriced s.dome.ledger (commitLen s).dome.ledger := by
  unfold commitLen
  dsimp only
  split
  · rw [hm.putLedger]
    rfl
  · rfl

theorem commitLen_mtr (s : State) : (commitLen s).mtr = s.mtr := by
  unfold commitLen
  dsimp only
  split
  · exact putLedger_mtr ..
  · rfl

theorem markLate_mtr (late : Bool) (s : State) : (markLate late s).mtr = s.mtr := by
  unfold markLate
  split
  · exact putLedger_mtr ..
  · rfl

theorem openInterval_ledger {sec : Nat} {short : Bool} (hm : LedgerOpen s) : (openInterval s sec short).dome.ledger = { s.dome.ledger with
    openStart := sec, openFlags := 4 * flag short, open_ := true, openW := [], begin_ := min s.dome.ledger.begin_ (sec - 1)
    commit := min s.dome.ledger.commit (sec - 1) } := by
  unfold openInterval
  dsimp only
  rw [hm.putLedger]
  rfl

theorem markLate_ledger {late : Bool} (hm : LedgerOpen s) : (markLate late s).dome.ledger =
    { s.dome.ledger with openFlags := if late then s.dome.ledger.openFlags ||| 2 else s.dome.ledger.openFlags } := by
  unfold markLate
  cases late
  · rfl
  · rw [if_pos rfl, hm.putLedger]
    rfl

/-- After an interval has opened at `sec` on a ledger: what has closed stands. -/
structure Reopened (l : Ledger) (m : Mtr) (sec : Nat) (flags : Nat) (r : State) : Prop where
  openStart : r.dome.ledger.openStart = sec
  open_ : r.dome.ledger.open_ = true
  openW : r.dome.ledger.openW = []
  flags : r.dome.ledger.openFlags = flags
  closedStart : r.dome.ledger.closedStart = l.closedStart
  closedLen : r.dome.ledger.closedLen = l.closedLen
  closedFlags : r.dome.ledger.closedFlags = l.closedFlags
  closedCommit : r.dome.ledger.closedCommit = l.closedCommit
  closedW : r.dome.ledger.closedW = l.closedW
  everClosed : r.dome.ledger.everClosed = l.everClosed
  totals : r.mtr.openTot = some []
  recovering : r.mtr.recovering = m.recovering
  lateSwitches : r.mtr.lateSwitches = m.lateSwitches

theorem openInterval_reopened {l : Ledger} {sec : Nat} {short late : Bool} (hm : LedgerOpen s) (hl : Repriced l s.dome.ledger) :
    Reopened l s.mtr sec (if late then 4 * flag short ||| 2 else 4 * flag short) (markLate late (openInterval s sec short)) := by
  have ho := openInterval_ledger (sec := sec) (short := short) hm
  have hk := markLate_ledger (late := late) (hm.congr (openInterval_metered (sec := sec) (short := short) (.refl s)).acu)
  have hr := markLate_mtr late (openInterval s sec short)
  have hmtr : (openInterval s sec short).mtr = { s.mtr with
      openTot := some [], firstId := (s.dome.ledger.activeId, s.mtr.firstId.2), foldId := s.dome.ledger.activeId, folded := s.mtr.tally
      lastSecond := some sec } := by
    unfold openInterval
    simp [State.setMtr, putLedger_mtr]
  rw [ho] at hk
  constructor
  · rw [hk]
  · rw [hk]
  · rw [hk]
  · rw [hk]
  · rw [hk, hl]
  · rw [hk, hl]
  · rw [hk, hl]
  · rw [hk, hl]
  · rw [hk, hl]
  · rw [hk, hl]
  · rw [hr, hmtr]
  · rw [hr, hmtr]
  · rw [hr, hmtr]

/-! ## The fold and the close (12 R361, R362) -/

theorem foldSecond_mtr (s : State) (sec : Nat) : (foldSecond s sec).mtr = { s.mtr with
    folded := s.mtr.tally, openTot := s.mtr.openTot.map (addTotals s), foldId := s.dome.ledger.activeId } := by
  show ({ (s.putLedger _).mtr with folded := _, openTot := _, foldId := _ } : Mtr) = _
  rw [putLedger_mtr]

theorem foldSecond_ledger {sec : Nat} (hm : LedgerOpen s) : (foldSecond s sec).dome.ledger =
    { s.dome.ledger with begin_ := sec, commit := sec, openW := perTf {} (foldWord s sec) } := by
  unfold foldSecond
  dsimp only
  rw [hm.putLedger]
  rfl

theorem foldSecond_word {sec n : Nat} (hm : LedgerOpen s) (hn : n < 1024) :
    tblGet ({} : LedgerWord) (foldSecond s sec).dome.ledger.openW n = foldWord s sec n := by
  have h : (foldSecond s sec).dome.ledger.openW = perTf {} (foldWord s sec) := by rw [foldSecond_ledger hm]
  rw [h, tblGet_perTf _ _ hn]

theorem raise_mtr (s : State) (p b : Nat) : (raise s p b).mtr = s.mtr := by simp

theorem closeInterval_mtr (s : State) (len more : Nat) : (closeInterval s len more).mtr = { s.mtr with
    closedTot := s.mtr.openTot, openTot := none, firstId := (s.mtr.firstId.1, s.mtr.firstId.1), lastId := s.mtr.foldId } := by
  refine (raise_mtr ..).trans ?_
  show ({ (s.putLedger _).mtr with closedTot := _, openTot := _, firstId := _, lastId := _ } : Mtr) = _
  rw [putLedger_mtr]

theorem closeInterval_ledger {len more : Nat} (hm : LedgerOpen s) : (closeInterval s len more).dome.ledger = { s.dome.ledger with
    closedStart := s.dome.ledger.openStart, closedLen := min len (2 ^ 32 - 1), closedFlags := s.dome.ledger.openFlags ||| more
    closedCommit := s.dome.ledger.openStart, open_ := false, everClosed := true
    closedW := (s.dome.ledger.openW.map (fun e => (e.1, { e.2 with par := false }))).filter (fun e => e.2 != {}) } := by
  unfold closeInterval
  dsimp only
  rw [hm.putLedger]
  simp

/-- The words that close are those folded last, without their parity. -/
theorem closeInterval_word {f : Nat → LedgerWord} {n len more : Nat} (hm : LedgerOpen s) (hw : s.dome.ledger.openW = perTf {} f) (hn : n < 1024) :
    tblGet ({} : LedgerWord) (closeInterval s len more).dome.ledger.closedW n = { f n with par := false } := by
  have hk : ((perTf {} f).map (fun e => (e.1, { e.2 with par := false }))).map (·.1) = (perTf {} f).map (·.1) := by
    rw [List.map_map]
    rfl
  have hg := tblGet_map (d := ({} : LedgerWord)) (f := fun w : LedgerWord => { w with par := false }) rfl (perTf {} f) n
  have hn' : (((perTf {} f).map (fun e => (e.1, { e.2 with par := false }))).map (·.1)).Nodup := by
    have h1 := perTf_nodup ({} : LedgerWord) f
    rwa [hk]
  have hf := tblGet_filter_ne (d := ({} : LedgerWord)) hn' n
  have hl : (closeInterval s len more).dome.ledger.closedW =
      ((perTf {} f).map (fun e => (e.1, { e.2 with par := false }))).filter (fun e => e.2 != {}) := by rw [closeInterval_ledger hm, hw]
  rw [hl, hf, hg, tblGet_perTf _ _ hn]

/-! ## The steps of a second (12 R362 to R366) -/

/-- The fold of a second, noted. -/
def secondFolded (s : State) (sec : Nat) : State := (foldSecond s (sec - 1)).setMtr { (foldSecond s (sec - 1)).mtr with
  lastSecond := some sec, trail := [s.dome.ledger, (foldSecond s (sec - 1)).dome.ledger] }

/-- The interval that closes at a second, with its boundary on time or late. -/
def secondClosed (s : State) (sec : Nat) : State :=
  let s2 := closeInterval s (sec - s.dome.ledger.openStart) 0
  let s2 := s2.setMtr { s2.mtr with trail := s2.mtr.trail ++ [s2.dome.ledger] }
  if isBoundary s sec then s2 else lateEvent s2

theorem mtrSecond_fresh {sec : Nat} (h : (recoverLedger s sec).dome.ledger.open_ = false) : mtrSecond s sec =
    let s1 := applySwitch (recoverLedger s sec) sec
    markLate (switchLate (recoverLedger s sec) sec) (openInterval (if isBoundary s1 sec then commitLen s1 else s1) sec true) :=
  if_pos (by simp [h])

theorem mtrSecond_within {sec : Nat} (h : (recoverLedger s sec).dome.ledger.open_ = true)
    (hb : boundaryIn (secondFolded (recoverLedger s sec) sec)
      ((recoverLedger s sec).mtr.lastSecond.getD (recoverLedger s sec).dome.ledger.openStart) sec = false) :
    mtrSecond s sec = applySwitch (secondFolded (recoverLedger s sec) sec) sec := (if_neg (by simp [h])).trans (if_pos (congrArg (!·) hb))

theorem mtrSecond_boundary {sec : Nat} (h : (recoverLedger s sec).dome.ledger.open_ = true)
    (hb : boundaryIn (secondFolded (recoverLedger s sec) sec)
      ((recoverLedger s sec).mtr.lastSecond.getD (recoverLedger s sec).dome.ledger.openStart) sec = true) :
    mtrSecond s sec =
      let s4 := commitLen (applySwitch (secondClosed (secondFolded (recoverLedger s sec) sec) sec) sec)
      markLate (switchLate (recoverLedger s sec) sec)
        (openInterval s4 sec (!isBoundary (secondFolded (recoverLedger s sec) sec) sec || !isBoundary s4 sec)) :=
  (if_neg (by simp [h])).trans (if_neg fun h' => Bool.false_ne_true ((congrArg (!·) hb).symm.trans h'))

end Sys2Proof.Machine

/-! SUPPORT. The stages of a second of an open interval (12 R361, R362). -/

namespace Sys2Proof.Machine
variable {s r q : State}

/-! ## What the ledger's operations leave of heads and of time -/

theorem putLedger_time (s : State) (l : Ledger) : (s.putLedger l).time = s.time := by
  unfold State.putLedger
  dsimp only
  split
  · rfl
  · exact List.foldlRecOn (motive := fun a : State => a.time = s.time) _ _ rfl fun a h x _ => by simpa [domeAccess] using h

theorem raise_commit (s : State) (p b k : Nat) : ((raise s p b).head k).commit = (s.head k).commit := by
  by_cases h : k = p
  · subst h
    rw [raise, putHead_head]
  · refine congrArg Head.commit (?_ : (raise s p b).head k = s.head k)
    unfold raise putHead
    dsimp only
    split
    · exact State.head_setHead_other _ _ _ _ h
    · split
      · rw [State.head, (signal_frame ..).2.2.1]
        exact State.head_setHead_other _ _ _ _ h
      · exact State.head_setHead_other _ _ _ _ h

theorem raise_time (s : State) (p b : Nat) : (raise s p b).time = s.time := by simp

theorem closeInterval_time (s : State) (len more : Nat) : (closeInterval s len more).time = s.time := by
  unfold closeInterval
  simp [putLedger_time]

theorem commitLen_time (s : State) : (commitLen s).time = s.time := by
  unfold commitLen
  dsimp only
  split
  · exact putLedger_time ..
  · rfl

theorem openInterval_time (s : State) (sec : Nat) (short : Bool) : (openInterval s sec short).time = s.time := putLedger_time ..

theorem markLate_time (late : Bool) (s : State) : (markLate late s).time = s.time := by
  unfold markLate
  split
  · exact putLedger_time ..
  · rfl

theorem closeInterval_commit {len more : Nat} (hm : LedgerOpen s) (k : Nat) : ((closeInterval s len more).head k).commit = (s.head k).commit := by
  unfold closeInterval
  dsimp only
  rw [hm.putLedger]
  exact raise_commit ..

/-! ## A second of an open interval -/

theorem secondClosed_ledger (s : State) (sec : Nat) : (secondClosed s sec).dome.ledger =
    (closeInterval s (sec - s.dome.ledger.openStart) 0).dome.ledger := by
  unfold secondClosed
  dsimp only
  split
  · rfl
  · simp [lateEvent]

section Second

variable {sec : Nat} (hm : LedgerOpen s)
include hm

theorem secondFolded_ledger : (secondFolded s sec).dome.ledger =
    { s.dome.ledger with begin_ := sec - 1, commit := sec - 1, openW := perTf {} (foldWord s (sec - 1)) } := foldSecond_ledger hm

theorem secondFolded_open : LedgerOpen (secondFolded s sec) := hm.congr (setMtr_metered (foldSecond_metered (.refl s)) rfl rfl).acu

theorem secondFolded_word {n : Nat} (hn : n < 1024) :
    tblGet ({} : LedgerWord) (secondFolded s sec).dome.ledger.openW n = foldWord s (sec - 1) n := foldSecond_word hm hn

theorem secondFolded_rest : (secondFolded s sec).time = s.time ∧ (secondFolded s sec).mtr.lateSwitches = s.mtr.lateSwitches ∧
    (secondFolded s sec).mtr.recovering = s.mtr.recovering ∧ ((secondFolded s sec).head pgMtr).commit = (s.head pgMtr).commit := by
  have hf := foldSecond_mtr s (sec - 1)
  refine ⟨putLedger_time .., ?_, ?_, ?_⟩
  · show (foldSecond s (sec - 1)).mtr.lateSwitches = _
    rw [hf]
  · show (foldSecond s (sec - 1)).mtr.recovering = _
    rw [hf]
  · show ((s.putLedger _).head pgMtr).commit = _
    rw [hm.putLedger]
    rfl

theorem secondClosed_open : LedgerOpen (secondClosed s sec) := by
  have h : Metered s ((closeInterval s (sec - s.dome.ledger.openStart) 0).setMtr
      { (closeInterval s (sec - s.dome.ledger.openStart) 0).mtr with
        trail := (closeInterval s (sec - s.dome.ledger.openStart) 0).mtr.trail ++
          [(closeInterval s (sec - s.dome.ledger.openStart) 0).dome.ledger] }) :=
    setMtr_metered (closeInterval_metered (.refl s)) rfl rfl
  exact hm.congr (Metered.ite h (lateEvent_metered h)).acu

theorem secondClosed_rest : (secondClosed s sec).mtr.lateSwitches = s.mtr.lateSwitches ∧ (secondClosed s sec).mtr.recovering = s.mtr.recovering ∧
    (secondClosed s sec).time.late = (if isBoundary s sec then s.time.late else satAdd 32 s.time.late 1) ∧
    ((secondClosed s sec).head pgMtr).commit = (s.head pgMtr).commit := by
  have hc := closeInterval_mtr s (sec - s.dome.ledger.openStart) 0
  have ht := closeInterval_time s (sec - s.dome.ledger.openStart) 0
  have hh := closeInterval_commit (len := sec - s.dome.ledger.openStart) (more := 0) hm pgMtr
  unfold secondClosed
  dsimp only
  split
  · refine ⟨?_, ?_, ?_, hh⟩
    · rw [State.setMtr_mtr, hc]
    · rw [State.setMtr_mtr, hc]
    · rw [State.setMtr_time, ht]
  · refine ⟨?_, ?_, ?_, ?_⟩
    · rw [(lateEvent_parts _).2.2.1, State.setMtr_mtr, hc]
    · rw [(lateEvent_parts _).2.2.1, State.setMtr_mtr, hc]
    · unfold lateEvent
      rw [raise_time, State.setMtr_time, ht]
    · unfold lateEvent
      rw [raise_commit]
      exact hh

end Second

theorem recoverLedger_idle {sec : Nat} (h : s.mtr.recovering = false) : recoverLedger s sec = s.noTrail := if_pos (by simp [h])

end Sys2Proof.Machine

/-! SUPPORT. A second with and without a boundary, without an interval and after a cold reset (12 R362 to R366). -/

namespace Sys2Proof.Machine
variable {s r q : State}

/-! ## The clauses of a second (12 R361 to R366) -/

section Clauses

variable {sec x : Nat} (hm : LedgerOpen s) (hr : s.mtr.recovering = false)
include hm hr

section Open

variable (ho : s.dome.ledger.open_ = true) (hx : s.mtr.lastSecond = some x)
include ho hx

/-- A second without a boundary. -/
theorem mtrSecond_eq_within (hb : sec / max 1 s.dome.ledger.len * max 1 s.dome.ledger.len ≤ x) :
    mtrSecond s sec = applySwitch (secondFolded s.noTrail sec) sec := by
  have hi := recoverLedger_idle (sec := sec) hr
  rw [mtrSecond_within (by rw [hi]; exact ho), hi]
  rw [hi, boundaryIn, secondFolded_ledger (s := s.noTrail) hm]
  show decide (s.mtr.lastSecond.getD _ < _) = false
  rw [hx]
  exact decide_eq_false (Nat.not_lt.mpr hb)

/-- A second with a boundary: the interval closes and the next one opens. -/
theorem mtrSecond_eq_boundary (hb : x < sec / max 1 s.dome.ledger.len * max 1 s.dome.ledger.len) :
    mtrSecond s sec =
      let s4 := commitLen (applySwitch (secondClosed (secondFolded s.noTrail sec) sec) sec)
      markLate (switchLate s sec) (openInterval s4 sec (!isBoundary (secondFolded s.noTrail sec) sec || !isBoundary s4 sec)) := by
  have hi := recoverLedger_idle (sec := sec) hr
  rw [mtrSecond_boundary (by rw [hi]; exact ho), hi]
  · rfl
  · rw [hi, boundaryIn, secondFolded_ledger (s := s.noTrail) hm]
    show decide (s.mtr.lastSecond.getD _ < _) = true
    rw [hx]
    exact decide_eq_true hb

theorem mtrSecond_within_clause (ha : s.dome.ledger.at_ = none) (hb : sec / max 1 s.dome.ledger.len * max 1 s.dome.ledger.len ≤ x) :
    (mtrSecond s sec).dome.ledger.openStart = s.dome.ledger.openStart ∧ (mtrSecond s sec).dome.ledger.closedW = s.dome.ledger.closedW ∧
      (mtrSecond s sec).dome.ledger.closedStart = s.dome.ledger.closedStart ∧
      ∀ n, n < 1024 → tblGet ({} : LedgerWord) (mtrSecond s sec).dome.ledger.openW n = foldWord s (sec - 1) n := by
  have hl := secondFolded_ledger (s := s.noTrail) (sec := sec) hm
  have hat : (secondFolded s.noTrail sec).dome.ledger.at_ = none := by
    rw [hl]
    exact ha
  rw [mtrSecond_eq_within hm hr ho hx hb, applySwitch_none hat]
  refine ⟨?_, ?_, ?_, fun n hn => secondFolded_word (s := s.noTrail) hm hn⟩
  · rw [hl]
    rfl
  · rw [hl]
    rfl
  · rw [hl]
    rfl

theorem mtrSecond_boundary_clause (hb : x < sec / max 1 s.dome.ledger.len * max 1 s.dome.ledger.len) :
    (mtrSecond s sec).dome.ledger.openStart = sec ∧ (mtrSecond s sec).dome.ledger.closedStart = s.dome.ledger.openStart ∧
      (mtrSecond s sec).dome.ledger.closedLen = min (sec - s.dome.ledger.openStart) (2 ^ 32 - 1) ∧
      (mtrSecond s sec).dome.ledger.closedFlags = s.dome.ledger.openFlags ∧ (mtrSecond s sec).dome.ledger.everClosed = true ∧
      (mtrSecond s sec).dome.ledger.open_ = true ∧ (mtrSecond s sec).mtr.openTot = some [] ∧
      (∀ n, n < 1024 → tblGet ({} : LedgerWord) (mtrSecond s sec).dome.ledger.closedW n = { foldWord s (sec - 1) n with par := false }) := by
  rw [mtrSecond_eq_boundary hm hr ho hx hb]
  have hf := secondFolded_open (s := s.noTrail) (sec := sec) hm
  have hfl := secondFolded_ledger (s := s.noTrail) (sec := sec) hm
  have hc := secondClosed_open (sec := sec) hf
  have hcl := secondClosed_ledger (secondFolded s.noTrail sec) sec
  have hcl2 := hcl.trans (closeInterval_ledger hf)
  have ha := hc.congr (applySwitch_metered (sec := sec) (.refl _)).acu
  have hrep := (applySwitch_repriced (sec := sec) hc).trans (commitLen_repriced ha)
  have h := openInterval_reopened (sec := sec) (short := !isBoundary (secondFolded s.noTrail sec) sec ||
    !isBoundary (commitLen (applySwitch (secondClosed (secondFolded s.noTrail sec) sec) sec)) sec) (late := switchLate s sec)
    (ha.congr (commitLen_metered (.refl _)).acu) hrep
  refine ⟨h.openStart, ?_, ?_, ?_, ?_, h.open_, h.totals, fun n hn => ?_⟩
  · rw [h.closedStart, hcl2, hfl]
    rfl
  · rw [h.closedLen, hcl2, hfl]
    rfl
  · rw [h.closedFlags, hcl2, hfl, Nat.or_zero]
    rfl
  · rw [h.everClosed, hcl2]
  · rw [h.closedW, hcl, closeInterval_word hf (by rw [hfl]) hn]
    rfl

/-- Where no switch is armed: the second counts no late switch, and the late boundary is a late event. -/
theorem mtrSecond_boundary_unarmed (ha : s.dome.ledger.at_ = none) (hb : x < sec / max 1 s.dome.ledger.len * max 1 s.dome.ledger.len) :
    (mtrSecond s sec).mtr.lateSwitches = s.mtr.lateSwitches ∧
      (mtrSecond s sec).time.late = (if sec % max 1 s.dome.ledger.len = 0 then s.time.late else satAdd 32 s.time.late 1) ∧
      ((s.head pgMtr).commit = false → (mtrSecond s sec).dome.ledger.openFlags = if sec % max 1 s.dome.ledger.len = 0 then 0 else 4) := by
  have hf := secondFolded_open (s := s.noTrail) (sec := sec) hm
  have hfl := secondFolded_ledger (s := s.noTrail) (sec := sec) hm
  have hc := secondClosed_open (sec := sec) hf
  have hcl2 := (secondClosed_ledger (secondFolded s.noTrail sec) sec).trans (closeInterval_ledger hf)
  have hat : (secondClosed (secondFolded s.noTrail sec) sec).dome.ledger.at_ = none := by
    rw [hcl2, hfl]
    exact ha
  obtain ⟨hft, hfs, -, hfc⟩ := secondFolded_rest (s := s.noTrail) (sec := sec) hm
  obtain ⟨hcs, -, hct, hcc⟩ := secondClosed_rest (sec := sec) hf
  have hbd : isBoundary (secondFolded s.noTrail sec) sec = decide (sec % max 1 s.dome.ledger.len = 0) := by
    unfold isBoundary
    rw [hfl]
    rfl
  have hsw : switchLate s sec = false := by
    unfold switchLate
    rw [ha]
    rfl
  rw [mtrSecond_eq_boundary hm hr ho hx hb, applySwitch_none hat, hsw]
  dsimp only
  have h := openInterval_reopened (sec := sec) (short := !isBoundary (secondFolded s.noTrail sec) sec ||
    !isBoundary (commitLen (secondClosed (secondFolded s.noTrail sec) sec)) sec) (late := false)
    (hc.congr (commitLen_metered (.refl _)).acu) (commitLen_repriced hc)
  refine ⟨?_, ?_, fun hcommit => ?_⟩
  · rw [h.lateSwitches, commitLen_mtr, hcs, hfs]
    rfl
  · rw [markLate_time, openInterval_time, commitLen_time, hct, hbd, hft]
    simp only [decide_eq_true_eq]
    rfl
  · have hlen : commitLen (secondClosed (secondFolded s.noTrail sec) sec) = secondClosed (secondFolded s.noTrail sec) sec :=
      if_neg (by rw [hcc, hfc, show (s.noTrail.head pgMtr).commit = false from hcommit]; exact Bool.false_ne_true)
    have hbd2 : isBoundary (secondClosed (secondFolded s.noTrail sec) sec) sec = decide (sec % max 1 s.dome.ledger.len = 0) := by
      unfold isBoundary
      rw [hcl2, hfl]
      rfl
    rw [hlen, hbd, hbd2] at h
    rw [hlen, hbd, hbd2, h.flags]
    by_cases h0 : sec % max 1 s.dome.ledger.len = 0 <;> simp [h0, flag]

end Open

end Clauses

/-- Without an interval, after what a cold reset has left is closed, one opens. -/
theorem mtrSecond_fresh_reopened {sec : Nat} (hm : LedgerOpen (recoverLedger s sec)) (ho : (recoverLedger s sec).dome.ledger.open_ = false) :
    Reopened (recoverLedger s sec).dome.ledger (applySwitch (recoverLedger s sec) sec).mtr sec
      (if switchLate (recoverLedger s sec) sec then 4 * flag true ||| 2 else 4 * flag true) (mtrSecond s sec) := by
  have ha := hm.congr (applySwitch_metered (sec := sec) (.refl (recoverLedger s sec))).acu
  have hrep := applySwitch_repriced (sec := sec) hm
  rw [mtrSecond_fresh ho]
  by_cases hb : isBoundary (applySwitch (recoverLedger s sec) sec) sec = true
  · have h := openInterval_reopened (sec := sec) (short := true) (late := switchLate (recoverLedger s sec) sec)
      (ha.congr (commitLen_metered (.refl _)).acu) (hrep.trans (commitLen_repriced ha))
    rw [commitLen_mtr] at h
    simp only [if_pos hb]
    exact h
  · simp only [if_neg hb]
    exact openInterval_reopened ha hrep

theorem mtrSecond_fresh_clause {sec : Nat} (hm : LedgerOpen s) (hr : s.mtr.recovering = false) (ho : s.dome.ledger.open_ = false) :
    Reopened s.dome.ledger (applySwitch s.noTrail sec).mtr sec (if switchLate s sec then 4 * flag true ||| 2 else 4 * flag true)
      (mtrSecond s sec) := by
  have hi := recoverLedger_idle (sec := sec) hr
  have h := mtrSecond_fresh_reopened (s := s) (sec := sec) (by rw [hi]; exact hm) (by rw [hi]; exact ho)
  rw [hi] at h
  exact h

/-! ## After a cold reset (12 R366) -/

/-- The state in which a cold reset's ledger is closed: RECOVERING has ended, and a skipped switch is flagged. -/
def recoveryBegun (s : State) (sec : Nat) : State :=
  if switchLate s sec then raise (s.setMtr { s.mtr with recovering := false }).noTrail pgMtr 5 else
    (s.setMtr { s.mtr with recovering := false }).noTrail

theorem recoveryBegun_parts (s : State) (sec : Nat) : (recoveryBegun s sec).dome = s.dome ∧ (recoveryBegun s sec).acu = s.acu ∧
    (recoveryBegun s sec).mtr.recovering = false := by
  unfold recoveryBegun
  split <;> simp [State.noTrail, State.setMtr]

/-- The words that stand in the interval that a cold reset cut. -/
def recoveryWords (s : State) (sec : Nat) : State := (recoveryBegun s sec).setLedger { (recoveryBegun s sec).dome.ledger with
  openW := ((recoveryBegun s sec).dome.ledger.openW.map (fun e => (e.1, standing (recoveryBegun s sec).dome.ledger e.2))).filter
    (fun e => e.2 != {}) }

theorem recoverLedger_unclosed {sec : Nat} (hr : s.mtr.recovering = true)
    (hu : s.dome.ledger.open_ = true ∨ s.dome.ledger.closedCommit ≠ s.dome.ledger.closedStart) :
    ∃ t, recoverLedger s sec = raise ((closeInterval (recoveryWords s sec) (s.dome.ledger.begin_ + 1 - s.dome.ledger.openStart) 1).setMtr
      { (closeInterval (recoveryWords s sec) (s.dome.ledger.begin_ + 1 - s.dome.ledger.openStart) 1).mtr with trail := t }) pgMtr 5 := by
  have hl : (recoveryBegun s sec).dome.ledger = s.dome.ledger := by rw [(recoveryBegun_parts s sec).1]
  have hun : unclosed (recoveryBegun s sec).dome.ledger = true := by
    rw [hl]
    simpa [unclosed] using hu
  rw [← hl]
  exact ⟨[(recoveryBegun s sec).dome.ledger, (recoveryBegun s sec).dome.ledger, (closeInterval (recoveryWords s sec)
      ((recoveryBegun s sec).dome.ledger.begin_ + 1 - (recoveryBegun s sec).dome.ledger.openStart) 1).dome.ledger],
    (if_neg (by simp [hr])).trans (if_neg fun h => Bool.false_ne_true ((congrArg (!·) hun).symm.trans h))⟩

/-- After a cold reset the interval that the ledger holds closes INTERRUPTED, and one opens. -/
theorem mtrSecond_recovers {sec : Nat} (hm : LedgerOpen s) (hr : s.mtr.recovering = true)
    (hu : s.dome.ledger.open_ = true ∨ s.dome.ledger.closedCommit ≠ s.dome.ledger.closedStart) :
    (mtrSecond s sec).mtr.recovering = false ∧ (mtrSecond s sec).dome.ledger.closedStart = s.dome.ledger.openStart ∧
    (mtrSecond s sec).dome.ledger.closedCommit = s.dome.ledger.openStart ∧
    (mtrSecond s sec).dome.ledger.closedFlags = s.dome.ledger.openFlags ||| 1 ∧
    (mtrSecond s sec).dome.ledger.closedLen = min (s.dome.ledger.begin_ + 1 - s.dome.ledger.openStart) (2 ^ 32 - 1) ∧
    (mtrSecond s sec).dome.ledger.open_ = true ∧ (mtrSecond s sec).dome.ledger.openStart = sec := by
  obtain ⟨hd, hacu, hrec⟩ := recoveryBegun_parts s sec
  have hw : LedgerOpen (recoveryWords s sec) := hm.congr hacu
  have hwl : (recoveryWords s sec).dome.ledger = { s.dome.ledger with openW := (recoveryWords s sec).dome.ledger.openW } := by
    rw [← hd]
    rfl
  obtain ⟨t, he⟩ := recoverLedger_unclosed (sec := sec) hr hu
  have hl : (recoverLedger s sec).dome.ledger =
      (closeInterval (recoveryWords s sec) (s.dome.ledger.begin_ + 1 - s.dome.ledger.openStart) 1).dome.ledger := by
    rw [he]
    simp
  have hl2 := hl.trans (closeInterval_ledger hw)
  have hmtr : (recoverLedger s sec).mtr.recovering = false := by
    rw [he, raise_mtr, State.setMtr_mtr, closeInterval_mtr]
    exact hrec
  have hopen : LedgerOpen (recoverLedger s sec) := hm.congr (recoverLedger_metered (.refl s)).acu
  have h := mtrSecond_fresh_reopened hopen (by rw [hl2])
  refine ⟨?_, ?_, ?_, ?_, ?_, h.open_, h.openStart⟩
  · rw [h.recovering, applySwitch_mtr]
    exact hmtr
  · rw [h.closedStart, hl2, hwl]
  · rw [h.closedCommit, hl2, hwl]
  · rw [h.closedFlags, hl2, hwl]
  · rw [h.closedLen, hl2]

end Sys2Proof.Machine

/-! SUPPORT. The tariff, snapshots and statements (12 R358, R359, R368, R370). -/

namespace Sys2Proof.Machine
variable {s r q : State}

/-! ## The tariff's switch (12 R358, R359) -/

theorem applySwitch_armed {sec a : Nat} (hm : LedgerOpen s) (ha : s.dome.ledger.at_ = some a) (hs : a ≤ sec) :
    (applySwitch s sec).dome.ledger.active = s.dome.ledger.pending ∧ (applySwitch s sec).dome.ledger.activeId = s.dome.ledger.pendingId ∧
    (applySwitch s sec).dome.ledger.at_ = none ∧ (applySwitch s sec).dome.ledger.pending = s.dome.ledger.pending ∧
    (applySwitch s sec).mtr.lateSwitches = (if a < sec then satAdd 32 s.mtr.lateSwitches 1 else s.mtr.lateSwitches) ∧
    (applySwitch s sec).time.late = if a < sec then satAdd 32 s.time.late 1 else s.time.late := by
  simp only [applySwitch, ha, if_neg (Nat.not_lt.mpr hs), hm.putLedger]
  by_cases hl : a < sec
  · simp [hl, lateEvent]
  · simp [hl]

theorem applySwitch_idle {sec : Nat} (h : ∀ a, s.dome.ledger.at_ = some a → sec < a) : applySwitch s sec = s := by
  cases ha : s.dome.ledger.at_ with
  | none => exact applySwitch_none ha
  | some a => simp only [applySwitch, ha, if_pos (h a ha)]

/-! ## Captures of snapshots (11 R347; 12 R370) -/

theorem captureNow_time {b : Nat} {l : List Nat} (h : s.reel.order = some (b, l)) : (captureNow s).time = s.time := by
  simp only [captureNow, h]
  exact (answerOrder_sent (.refl _)).time

theorem execSnapshotCapture_not (h : s.time.st = 0 ∨ ∀ b is, s.reel.order = some (b, is) → s.time.bell < b) :
    exec .snapshotCapture s = .next s := by
  refine congrArg Host.Outcome.next (if_neg fun hn => ?_)
  obtain ⟨ht, ho⟩ := hn
  obtain ⟨o, ho, hb⟩ := (Option.any_eq_true ..).mp ho
  rcases h with h | h
  · simp [timeKnown, h] at ht
  · exact absurd (h o.1 o.2 ho) (by simpa using hb)

theorem execSnapshotCapture_due {b : Nat} {is : List Nat} (ht : s.time.st ≠ 0) (ho : s.reel.order = some (b, is)) (hb : b ≤ s.time.bell) :
    exec .snapshotCapture s = .next (captureNow s) :=
  congrArg Host.Outcome.next (if_pos ⟨by simpa [timeKnown] using ht, by simp [ho, hb]⟩)

/-! ## Statements (12 R368) -/

theorem finishSigned_none {t c path : Nat} {body : Bytes} (h : dikSign s body (drawnOf s t c) = none) :
    finishSigned s t c body path = deviceFault s t c := by
  simp only [finishSigned, h]

theorem finishSigned_some {t c path : Nat} {body sg : Bytes} (h : dikSign s body (drawnOf s t c) = some sg) :
    finishSigned s t c body path =
      if (writeOut (spCall s t c ecSignProg (dikOps s body (drawnOf s t c)) 94624 false) t c (body ++ sg)).2 then
        finishCall (writeOut (spCall s t c ecSignProg (dikOps s body (drawnOf s t c)) 94624 false) t c (body ++ sg)).1 t c stOk path 94624 []
      else (writeOut (spCall s t c ecSignProg (dikOps s body (drawnOf s t c)) 94624 false) t c (body ++ sg)).1 := by
  simp only [finishSigned, h]

theorem statementBody_length {fn : Nat} {d : Bytes} (h : d.length = 128) : (statementBody s fn d).length = 224 := by
  have hflat {f : Nat → Nat} : ((List.range 16).flatMap (fun i => leBytes 8 (f i))).length = 128 := by
    simp [List.length_flatMap]
  simp [statementBody, hflat, h, ascii, zeros]

theorem setNeeds_work (s : State) (t c : Nat) (n : List Need) : ((setNeeds s t c n).ctx t c).work = (s.ctx t c).work := by
  unfold setNeeds
  rw [armDma_ctx]
  exact State.part_setCtx (x := { s.ctx t c with needs := n, st := _, stall := 0, age := 0 }) Ctx.work rfl t c

/-- A call whose keys have passed, with its statement built. -/
def statementBuilt (s : State) (t c : Nat) (k : Call) : State :=
  modWork (s.setCtx t c { s.ctx t c with keysOk := true }) t c
    fun w => { w with keep := statementOf (s.setCtx t c { s.ctx t c with keysOk := true }) k (workDesc s t c) }

theorem statementBuilt_work {t c : Nat} {k : Call} (ht : t < s.towers.length) (hc : c < (s.tower t).ctxs.length) :
    ((statementBuilt s t c k).ctx t c).work =
      { (s.ctx t c).work with keep := statementOf (s.setCtx t c { s.ctx t c with keysOk := true }) k (workDesc s t c) } := by
  have hw : ((s.setCtx t c { s.ctx t c with keysOk := true }).ctx t c) = { s.ctx t c with keysOk := true } := State.ctx_setCtx_same _ _ _ _ ht hc
  have hne : (s.setCtx t c { s.ctx t c with keysOk := true }).ctx t c ≠ {} := fun h => by
    have hk := congrArg Ctx.keysOk (hw.symm.trans h)
    cases hk
  rw [statementBuilt, modWork_work hne, hw]

/-- Once a statement's keys have passed, its figure's needs stand, with the statement built (12 R369; 14 R415). -/
theorem keysPassed_built {t c : Nat} {k : Call} {ks : List KeyRec} (ht : t < s.towers.length) (hc : c < (s.tower t).ctxs.length)
    (hd : opOf (workDesc s t c) / 256 = 0x0B) (hf : formOf (workDesc s t c) = 2) (hcl : (s.ctx t c).claim = none) (hca : carries s t c = false)
    (hp : paramFault (s.setCtx t c { s.ctx t c with keysOk := true }) k (workDesc s t c) ks = none)
    (hl : listWhole (s.ctx t c).work.listRaw = false) :
    ((keysPassed s t c k ks).ctx t c).work.keep = statementOf (s.setCtx t c { s.ctx t c with keysOk := true }) k (workDesc s t c) := by
  have hw := statementBuilt_work (k := k) ht hc
  have hnot : ¬ (carries s t c = true ∨ (opOf (workDesc s t c) / 256 = 0x0C ∧ commitWaits s t c = true)) := by simp [hca, hd]
  have hgo : keysPassed s t c k ks = setNeeds (statementBuilt s t c k) t c (figureNeeds (statementBuilt s t c k) t c ks (carries s t c)) := by
    unfold keysPassed
    dsimp only
    split
    · next h => rw [hcl] at h; cases h
    · split
      · next h =>
        rw [if_neg hnot] at h
        exact absurd (hp.symm.trans h) nofun
      · rw [if_neg (fun h => by omega : ¬ (formOf (workDesc s t c) = 1 ∧ _)), if_pos hd]
        refine if_neg fun h => ?_
        have hraw : listWhole ((statementBuilt s t c k).ctx t c).work.listRaw = true := h.2.2
        rw [hw] at hraw
        exact absurd (hraw.symm.trans hl) nofun
  rw [hgo, setNeeds_work, hw]

theorem statementOf_tally {k : Call} {d : Bytes} (h : opOf d = 0x0B02) : statementOf s k d = statementBody s k.fn d := by
  rw [statementOf, h, if_neg (by decide), if_pos rfl]

theorem keysPassed_statement {t c : Nat} {k : Call} {ks : List KeyRec} (ht : t < s.towers.length) (hc : c < (s.tower t).ctxs.length)
    (hop : opOf (workDesc s t c) = 0x0B02) (hf : formOf (workDesc s t c) = 2) (hcl : (s.ctx t c).claim = none) (hca : carries s t c = false)
    (hp : paramFault (s.setCtx t c { s.ctx t c with keysOk := true }) k (workDesc s t c) ks = none)
    (hl : listWhole (s.ctx t c).work.listRaw = false) :
    ((keysPassed s t c k ks).ctx t c).work.keep = statementBody s k.fn (workDesc s t c) :=
  (keysPassed_built ht hc (by rw [hop]) hf hcl hca hp hl).trans (statementOf_tally hop)

/-! ## The statement -/

theorem exec_tariffArm_open (h : pageShut s pgMtr = false) : exec .tariffArm s =
    .next (if ((s.head pgMtr).lock.getLsbD 0 = true ∧ s.dome.ledger.at_ = none) ∨ s.time.st = 0 ∨
      s.mtr.at_ ≤ s.time.bell / 1024 then recordWerr s pgMtr
      else s.putLedger { s.dome.ledger with at_ := some s.mtr.at_ }) := by
  refine congrArg Host.Outcome.next ((if_neg (by simp [h])).trans (if_congr ?_ rfl rfl))
  simp only [Option.isNone_iff_eq_none, timeKnown, reelSecond, bne, Bool.not_not, beq_iff_eq]

theorem exec_tariffCancel_open (h : pageShut s pgMtr = false) : exec .tariffCancel s =
    .next (if (s.head pgMtr).lock.getLsbD 0 = true ∧ s.dome.ledger.at_ ≠ none then recordWerr s pgMtr
      else s.putLedger { s.dome.ledger with at_ := none }) := by
  refine congrArg Host.Outcome.next ((if_neg (by simp [h])).trans (if_congr ?_ rfl rfl))
  rw [Option.isSome_iff_ne_none]

theorem exec_tariffSwitch (s : State) : exec .tariffSwitch s = .next (if s.time.st = 0 then s else applySwitch s (s.time.bell / 1024)) := by
  refine congrArg Host.Outcome.next ?_
  by_cases h : s.time.st = 0 <;> simp [timeKnown, reelSecond, h]

theorem exec_intervalClose (s : State) : exec .intervalClose s =
    .next (if s.time.st ≠ 0 ∧ s.time.bell % 1024 = 0 ∧ s.mtr.lastSecond ≠ some (s.time.bell / 1024) then mtrSecond s (s.time.bell / 1024) else s) :=
  congrArg Host.Outcome.next (if_congr (by rw [timeKnown, bne_iff_ne]; rfl) rfl rfl)

theorem exec_snapBankSwap_none (h : s.mtr.hidden = none) : exec .snapBankSwap s = .next s := by
  show execSnapBankSwap s = _
  simp only [execSnapBankSwap, h]

theorem exec_snapBankSwap_some {b : Nat} {t : Tbl Nat} (h : s.mtr.hidden = some (b, t)) : exec .snapBankSwap s =
    .next (raise (s.setMtr { s.mtr with snap := t, snapBell := b, snapSeq := (s.mtr.snapSeq + 1) % 2 ^ 32, hidden := none }) pgMtr 4) := by
  show execSnapBankSwap s = _
  simp only [execSnapBankSwap, h]

/-- Settles O9. Where the ledger may be written each of its operations is an equation on the ledger; a second of an open interval is the fold and,
past a boundary, the close and the opening, of which `Reopened` says what stands. -/
theorem secondsFoldCloseAndReprice : Obligations.SecondsFoldCloseAndReprice := by
  refine ⟨fun s l => ⟨fun hm => LedgerOpen.putLedger hm l, fun h => putLedger_refused h l⟩, fun s sec n hm hn => foldSecond_word hm hn,
    fun s sec => ⟨?_, fun hm => ?_⟩,
    fun s sec x hm hr ho hx => ⟨mtrSecond_lastSecond s sec, mtrSecond_within_clause hm hr ho hx, fun hb => ?_⟩,
    fun s sec hm hr hu => mtrSecond_recovers hm hr hu, fun s sec hm hr ho => ?_,
    fun s sec => ⟨fun a hm ha hs => applySwitch_armed hm ha hs, applySwitch_idle⟩,
    fun s => ⟨fun h => ⟨congrArg Host.Outcome.next (if_pos h), congrArg Host.Outcome.next (if_pos h)⟩,
      fun h => ⟨exec_tariffArm_open h, exec_tariffCancel_open h⟩, exec_tariffSwitch s, exec_intervalClose s, execSnapshotCapture_not,
      fun b is ht ho hb => ?_, exec_snapBankSwap_none, fun b t h => exec_snapBankSwap_some h⟩,
    fun s₀ t c sg ha => ⟨fun h => ?_, fun h => ?_⟩,
    fun s t c k ks ht hc hop hf hcl hca hp hl => ⟨keysPassed_statement ht hc hop hf hcl hca hp hl, fun h => ?_⟩⟩
  case refine_1 => rw [foldSecond_mtr]
  case refine_2 =>
    rw [foldSecond_ledger hm]
    exact ⟨rfl, rfl⟩
  case refine_3 =>
    obtain ⟨h1, h2, h3, h4, h5, h6, h7, h8⟩ := mtrSecond_boundary_clause hm hr ho hx hb
    refine ⟨h1, h2, h3, h4, h5, h6, h7, h8, fun ha => ?_, fun hc ha => (mtrSecond_boundary_unarmed hm hr ho hx ha hb).2.2 hc⟩
    obtain ⟨g1, g2, -⟩ := mtrSecond_boundary_unarmed hm hr ho hx ha hb
    exact ⟨g1, g2⟩
  case refine_4 =>
    have h := mtrSecond_fresh_clause (sec := sec) hm hr ho
    refine ⟨h.open_, h.openStart, h.totals, h.closedW, fun n => ?_, h.flags⟩
    show tblGet ({} : LedgerWord) (mtrSecond s sec).dome.ledger.openW n = {}
    rw [h.openW]
    rfl
  case refine_5 =>
    have h := captureNow_captured ho
    exact ⟨_, execSnapshotCapture_due ht ho hb, h.order, h.mtr, captureNow_time ho⟩
  case refine_6 => exact congrArg Host.Outcome.next ((runFigure_at ha _).trans (finishSigned_some h))
  case refine_7 => exact congrArg Host.Outcome.next ((runFigure_at ha _).trans (finishSigned_none h))
  case refine_8 =>
    rw [keysPassed_statement ht hc hop hf hcl hca hp hl]
    exact statementBody_length h

end Sys2Proof.Machine

/-! SUPPORT. What messages leave of the ports (11 R323 to R331). -/

namespace Sys2Proof.Machine
variable {s r q : State}

/-! ## What messages leave of the ports (11 R323 to R331) -/

/-- What training and Promenade have given a port. -/
structure SameLink (p q : Port) : Prop where
  link : q.link = p.link
  lanes : q.lanes = p.lanes
  rx : q.rx = p.rx
  delay : q.delay = p.delay
  echoes : q.echoes = p.echoes

theorem SameLink.refl (p : Port) : SameLink p p := ⟨rfl, rfl, rfl, rfl, rfl⟩

theorem SameLink.trans {p q x : Port} (h : SameLink p q) (g : SameLink q x) : SameLink p x :=
  ⟨g.link.trans h.link, g.lanes.trans h.lanes, g.rx.trans h.rx, g.delay.trans h.delay, g.echoes.trans h.echoes⟩

/-- What messages on the ports leave: the Reel but for queues, credits and acknowledgements, the vault and Reel time. -/
structure Carried (s r : State) : Prop where
  reel : r.reel = { s.reel with up := r.reel.up, dn := r.reel.dn }
  up : SameLink s.reel.up r.reel.up
  dn : SameLink s.reel.dn r.reel.dn
  vault : r.vault = s.vault
  time : r.time = s.time

namespace Carried

theorem refl (s : State) : Carried s s := ⟨rfl, .refl _, .refl _, rfl, rfl⟩

theorem trans (h : Carried s r) (g : Carried r q) : Carried s q :=
  ⟨by rw [g.reel, h.reel], h.up.trans g.up, h.dn.trans g.dn, g.vault.trans h.vault, g.time.trans h.time⟩

theorem port (h : Carried s r) (d : Bool) : SameLink (portOf s d) (portOf r d) := by
  cases d
  · exact h.up
  · exact h.dn

/-- A state whose Reel, vault and time are as they were. -/
theorem of_eq (h : Carried s r) (hr : q.reel = r.reel) (hv : q.vault = r.vault) (ht : q.time = r.time) : Carried s q :=
  h.trans ⟨by rw [hr], by rw [hr]; exact .refl _, by rw [hr]; exact .refl _, hv, ht⟩

variable {s₀ : State}

theorem foldl {α : Type} {f : State → α → State} {l : List α} (hs : Carried s₀ s) (hf : ∀ a x, Carried s₀ a → Carried s₀ (f a x)) :
    Carried s₀ (l.foldl f s) := List.foldlRecOn (motive := Carried s₀) l f hs fun a h x _ => hf a x h

theorem ite {p : Prop} [Decidable p] {a b : State} (ha : Carried s₀ a) (hb : Carried s₀ b) : Carried s₀ (if p then a else b) := by
  split <;> assumption

end Carried

theorem portOf_setPort (s : State) (d e : Bool) (p : Port) : portOf (setPort s d p) e = if e = d then p else portOf s e := by
  cases d <;> cases e <;> rfl

variable {s₀ : State}

theorem setPort_carried {d : Bool} {p : Port} (hs : Carried s₀ s) (hp : SameLink (portOf s d) p) : Carried s₀ (setPort s d p) := by
  refine hs.trans ?_
  cases d
  · exact ⟨rfl, hp, .refl _, rfl, rfl⟩
  · exact ⟨rfl, .refl _, hp, rfl, rfl⟩

theorem commitArb_carried (hs : Carried s₀ s) : Carried s₀ (commitArb s) := by
  unfold commitArb
  exact .ite hs (hs.of_eq (by simp [shadowDone]) (by simp [shadowDone]) (by simp [shadowDone]))

theorem freeBuffer_carried {m : Msg} (hs : Carried s₀ s) : Carried s₀ (freeBuffer s m) := by
  unfold freeBuffer
  split
  · exact setPort_carried hs ⟨rfl, rfl, rfl, rfl, rfl⟩
  · exact hs

theorem setCaller_carried {c : Caller} (hs : Carried s₀ s) : Carried s₀ { s with caller := c } := hs.trans ⟨rfl, .refl _, .refl _, rfl, rfl⟩

theorem reelRound_carried {d : Bool} (hs : Carried s₀ s) : Carried s₀ (reelRound s d) := by
  have hc := commitArb_carried hs
  unfold reelRound
  dsimp only
  split
  · exact hc
  · split
    · exact hc
    · exact setCaller_carried (freeBuffer_carried (setPort_carried hc ⟨rfl, rfl, rfl, rfl, rfl⟩))

theorem reelPump_carried {d : Bool} {n : Nat} (hs : Carried s₀ s) : Carried s₀ (reelPump d n s) := by
  induction n generalizing s with
  | zero => exact hs
  | succ n ih =>
    rw [reelPump]
    exact .ite hs (ih (reelRound_carried hs))

theorem putOn_carried {d : Bool} {m : Msg} (hs : Carried s₀ s) : Carried s₀ (putOn s d m) :=
  .ite hs (reelPump_carried (setPort_carried hs ⟨rfl, rfl, rfl, rfl, rfl⟩))

theorem broadcast_carried {typ : Nat} {b : Bytes} (hs : Carried s₀ s) : Carried s₀ (broadcast s typ b) :=
    hs.foldl fun _ _ h => .ite (putOn_carried h) h

theorem relay_carried {typ src : Nat} {b : Bytes} {came : Option (Bool × Nat × Bool)} (hs : Carried s₀ s) : Carried s₀ (relay s typ src b came) :=
  hs.foldl fun _ _ h => .ite (putOn_carried h) h

theorem hop_carried {d : Bool} {cls seq : Nat} {high keep : Bool} (hs : Carried s₀ s) : Carried s₀ (hop s d cls seq high keep).1 := by
  unfold hop
  dsimp only
  split
  · exact hs
  · split
    · split
      · exact hs
      · exact setPort_carried hs ⟨rfl, rfl, rfl, rfl, rfl⟩
    · exact setPort_carried hs ⟨rfl, rfl, rfl, rfl, rfl⟩
    · exact hs

theorem hears_carried {h : Hdr} {cls : Nat} (hs : Carried s₀ s) : Carried s₀ (hears s h cls).1 := by
  unfold hears
  split
  · exact hop_carried hs
  · exact hs

theorem heard_carried {s1 : State} {h : Hdr} {cls : Nat} (hh : heard s h cls = some s1) : Carried s s1 := by
  unfold heard at hh
  dsimp only at hh
  split at hh
  · cases hh
    exact hears_carried (.refl s)
  · cases hh

theorem raise_carried {p b : Nat} (hs : Carried s₀ s) : Carried s₀ (raise s p b) := hs.of_eq (by simp) (by simp) (by simp)

theorem popNeed_carried {t c : Nat} (hs : Carried s₀ s) : Carried s₀ (popNeed s t c) :=
  hs.of_eq (by simp [popNeed, State.setCtx]) (by simp) (by simp [popNeed, State.setCtx])

theorem creditCheck_carried (hs : Carried s₀ s) : Carried s₀ (creditCheck s) := hs.foldl fun _ _ => popNeed_carried

theorem degradeCheck_carried (hs : Carried s₀ s) : Carried s₀ (degradeCheck s) := hs.of_eq (by simp) (by simp) (by simp)

theorem cloneLost_carried (hs : Carried s₀ s) : Carried s₀ (cloneLost s) :=
  (hs.foldl fun _ _ h => Carried.of_eq (r := _) h (by simp) (by simp) (by simp)).of_eq rfl rfl rfl

/-! ### What stands on the other port -/

theorem commitArb_reel (s : State) : (commitArb s).reel = s.reel := by
  unfold commitArb
  split <;> simp [shadowDone]

/-- Rounds of one port leave what the other has not had acknowledged. -/
theorem reelRound_unacked (s : State) (d : Bool) : (portOf (reelRound s d) (!d)).unacked = (portOf s (!d)).unacked := by
  have hc : portOf (commitArb s) (!d) = portOf s (!d) := by
    unfold portOf
    rw [commitArb_reel]
  have hf {a : State} {m : Msg} {e : Bool} : (portOf (freeBuffer a m) e).unacked = (portOf a e).unacked := by
    unfold freeBuffer
    split
    · rw [portOf_setPort]
      split
      · next h => subst h; rfl
      · rfl
    · rfl
  rw [← hc]
  unfold reelRound
  dsimp only
  split
  · rfl
  · split
    · rfl
    · refine (hf (e := !d)).trans ?_
      rw [portOf_setPort, if_neg (by cases d <;> decide)]

theorem reelPump_unacked (s : State) (d : Bool) (n : Nat) : (portOf (reelPump d n s) (!d)).unacked = (portOf s (!d)).unacked := by
  induction n generalizing s with
  | zero => rfl
  | succ n ih =>
    rw [reelPump]
    split
    · rfl
    · rw [ih, reelRound_unacked]

theorem putOn_unacked (s : State) (d : Bool) (m : Msg) : (portOf (putOn s d m) (!d)).unacked = (portOf s (!d)).unacked := by
  unfold putOn
  split
  · rfl
  · dsimp only
    rw [reelPump_unacked, portOf_setPort, if_neg (by cases d <;> decide)]

end Sys2Proof.Machine

/-! SUPPORT. Acknowledgements, and a link that goes down (11 R328, R332, R333). -/

namespace Sys2Proof.Machine
variable {s r q : State}

/-! ## Acknowledgements and failed attempts (11 R328, R329) -/

theorem creditCheck_reel (s : State) : (creditCheck s).reel = s.reel :=
  List.foldlRecOn (motive := fun a : State => a.reel = s.reel) _ _ rfl fun a h x _ => by simpa [popNeed, State.setCtx] using h

theorem portOf_congr (h : r.reel = s.reel) (d : Bool) : portOf r d = portOf s d := by rw [portOf, portOf, h]

theorem portOf_setPort_same (s : State) (d : Bool) (p : Port) : portOf (setPort s d p) d = p := by rw [portOf_setPort, if_pos rfl]

theorem execLinkAck_idle {d : Bool} {cls n : Nat} {cr : List Nat} (hu : portUp s d = true) (hq : (portOf s d).queue = []) :
    ∃ s', exec (.linkAck d cls n cr) s = .next s' ∧ portOf s' d = { portOf s d with
      unacked := (portOf s d).unacked.filter (fun e => !(e.1 == cls && e.2.1 == n))
      fails := if (portOf s d).unacked.any (fun e => e.1 == cls && e.2.1 == n) then 0 else (portOf s d).fails
      credits := (List.range 4).map (fun k => min (fullCredits.getD k 0) ((portOf s d).credits.getD k 0 + cr.getD k 0))
      high := (List.range 4).map (fun k => min (fullCredits.getD k 0) ((portOf s d).high.getD k 0 + cr.getD (4 + k) 0)) } := by
  refine ⟨_, if_neg (by simp [hu]), ?_⟩
  rw [portOf_congr (creditCheck_reel _), List.length_eq_zero_iff.mpr hq, reelPump]
  exact portOf_setPort_same ..

theorem failedAttempt_retries {d : Bool} (h : (portOf s d).fails < 15) : failedAttempt s d =
    setPort s d { portOf s d with retries := satAdd 32 (portOf s d).retries 1, fails := (portOf s d).fails + 1 } :=
  if_neg (show ¬ (portOf s d).fails + 1 ≥ 16 by omega)

theorem failedAttempt_down {d : Bool} (h : 15 ≤ (portOf s d).fails) : failedAttempt s d = linkDown s d :=
  if_pos (show (portOf s d).fails + 1 ≥ 16 by omega)

/-! ## A link goes down (11 R332, R333) -/

theorem linkDown_already {d : Bool} (h : (portOf s d).link = 0) : linkDown s d = s := if_pos h

/-- The port whose link has gone down, with the other's messages forgetting the buffers there, and LINK_DOWN raised. -/
def portDropped (s : State) (d : Bool) : State :=
  let s0 := setPort s d { portOf s d with link := 0, unacked := [], held := [0, 0, 0, 0, 0, 0, 0, 0], fails := 0 }
  raise (setPort s0 (!d) ((portOf s0 (!d)).forget d)) pgReel 2

/-- The break's notice, sent away from it. -/
def breakSent (s : State) (d : Bool) : State :=
  putOn (lostWitness (portDropped s d) (portOf s d).unacked) (!d)
    { cls := 0, typ := 0x08, src := s.reel.addr, dst := 0xFFFF, payload := leBytes 2 (linkAt s d) }

theorem linkDown_eq {d : Bool} (h : (portOf s d).link ≠ 0) : linkDown s d =
    creditCheck (if s.reel.topo = 0 then lostWitness (portDropped s d) (portOf s d).unacked else noteBreak (breakSent s d) (linkAt s d)) := if_neg h

theorem portDropped_reel (s : State) (d : Bool) :
    (portDropped s d).reel = { s.reel with up := (portDropped s d).reel.up, dn := (portDropped s d).reel.dn } := by
  cases d <;> simp [portDropped, setPort]

theorem portDropped_same (s : State) (d : Bool) : portOf (portDropped s d) d =
    { portOf s d with link := 0, unacked := [], held := [0, 0, 0, 0, 0, 0, 0, 0], fails := 0 } := by
  cases d <;> simp [portDropped, setPort, portOf]

theorem portDropped_vault (s : State) (d : Bool) : (portDropped s d).vault = s.vault := by simp [portDropped, setPort]

theorem witnessAnswer_reel (got : Bool) (s : State) (w : Nat) : (witnessAnswer got s w).reel = s.reel := (witnessAnswer_frame got s w).2.1

theorem lostWitness_reel (s : State) (l : List (Nat × Nat × Msg)) : (lostWitness s l).reel = s.reel := by
  have h : (((l.filter (fun e => e.2.2.typ == 0x06 && e.2.2.src == s.reel.addr)).map (·.2.2.dst)).foldl (witnessAnswer false) s).reel = s.reel :=
    List.foldlRecOn (motive := fun a : State => a.reel = s.reel) _ _ rfl fun a h x _ => (witnessAnswer_reel false a x).trans h
  unfold lostWitness sealWaiters
  split
  · exact h
  · exact List.foldlRecOn (motive := fun a : State => a.reel = s.reel) _ _ h fun a h x _ => by simpa [popNeed, State.setCtx] using h

/-! ### The break is noted -/

theorem noteBreak_ports (s : State) (a : Nat) : (noteBreak s a).reel = { s.reel with
    topo := (noteBreak s a).reel.topo, brk := (noteBreak s a).reel.brk, cuts := (noteBreak s a).reel.cuts } := by
  unfold noteBreak ringBroken
  split
  · split <;> simp
  · split <;> rfl

theorem noteBreak_ring {a : Nat} (h : s.reel.topo = 2) : (noteBreak s a).reel.topo = 3 ∧ (noteBreak s a).reel.brk = some a := by
  have hn : noteBreak s a = raise (s.setReel { s.reel with topo := 3, brk := some a }) pgReel 3 := (if_pos h).trans (if_neg (by simp [h]))
  simp [hn]

theorem noteBreak_other {a : Nat} (h : s.reel.topo ≠ 2) : (noteBreak s a).reel.topo = s.reel.topo ∧ (noteBreak s a).reel.brk = s.reel.brk := by
  unfold noteBreak
  rw [if_neg h]
  split <;> exact ⟨rfl, rfl⟩

theorem noteBreak_line {a : Nat} (h : s.reel.topo = 1) : a ∈ (noteBreak s a).reel.cuts := by
  unfold noteBreak
  rw [if_neg (by simp [h])]
  split
  · next hc =>
    rcases hc with hc | hc | hc
    · simp [h] at hc
    · simp [h] at hc
    · simpa using hc
  · simp

theorem noteBreak_vault (s : State) (a : Nat) : (noteBreak s a).vault = s.vault := by
  unfold noteBreak ringBroken
  split
  · split <;> simp
  · split <;> rfl

/-! ### Witness records that are lost (07 R247) -/

/-- One witness is awaited, or the mirror has ended short. -/
def AwaitsOr (w : Nat) (s : State) : Prop :=
  s.vault.fences = [] ∧ ((s.vault.awaiting = [w] ∧ s.vault.acks < s.vault.wcount) ∨ (s.vault.awaiting = [] ∧ s.vault.short = true))

theorem witnessAnswer_awaited_lost {w : Nat} (hf : s.vault.fences = []) (ha : s.vault.awaiting = [w]) (hn : s.vault.acks < s.vault.wcount) :
    (witnessAnswer false s w).vault.fences = [] ∧ (witnessAnswer false s w).vault.awaiting = [] ∧ (witnessAnswer false s w).vault.short = true := by
  have he : witnessAnswer false s w = shortMirror { s with vault := { s.vault with awaiting := [] } } := by
    unfold witnessAnswer mirrorSettle
    simp [hf, ha, hn]
  rw [he, (shortMirror_frame _).2.2]
  exact ⟨hf, rfl, rfl⟩

theorem witnessAnswer_other_lost {w : Nat} (hf : s.vault.fences = []) (ha : w ∉ s.vault.awaiting) : witnessAnswer false s w = s := by
  unfold witnessAnswer
  simp [hf, ha]

theorem witnessAnswer_awaitsOr {w x : Nat} (h : AwaitsOr w s) : AwaitsOr w (witnessAnswer false s x) := by
  obtain ⟨hf, ⟨ha, hn⟩ | ⟨ha, hs⟩⟩ := h
  · by_cases hx : x = w
    · subst hx
      obtain ⟨h1, h2, h3⟩ := witnessAnswer_awaited_lost hf ha hn
      exact ⟨h1, .inr ⟨h2, h3⟩⟩
    · rw [witnessAnswer_other_lost hf (by simpa [ha] using hx)]
      exact ⟨hf, .inl ⟨ha, hn⟩⟩
  · rw [witnessAnswer_other_lost hf (by simp [ha])]
    exact ⟨hf, .inr ⟨ha, hs⟩⟩

theorem foldl_witnessAnswer_short {w : Nat} {l : List Nat} (h : AwaitsOr w s) (hw : w ∈ l) :
    (l.foldl (witnessAnswer false) s).vault.short = true := by
  have hend : ∀ (l : List Nat) (a : State), a.vault.fences = [] → a.vault.awaiting = [] → a.vault.short = true →
      (l.foldl (witnessAnswer false) a).vault.short = true := by
    intro l
    induction l with
    | nil => exact fun a _ _ h => h
    | cons x l ih =>
      intro a hf ha hs
      rw [List.foldl_cons, witnessAnswer_other_lost hf (by simp [ha])]
      exact ih a hf ha hs
  induction l generalizing s with
  | nil => cases hw
  | cons x l ih =>
    rw [List.foldl_cons]
    obtain ⟨hf, ⟨ha, hn⟩ | ⟨ha, hs⟩⟩ := h
    · by_cases hx : x = w
      · subst hx
        obtain ⟨h1, h2, h3⟩ := witnessAnswer_awaited_lost hf ha hn
        exact hend l _ h1 h2 h3
      · exact ih (witnessAnswer_awaitsOr ⟨hf, .inl ⟨ha, hn⟩⟩) ((List.mem_cons.mp hw).resolve_left (Ne.symm hx))
    · rw [witnessAnswer_other_lost hf (by simp [ha])]
      exact hend l s hf ha hs

theorem lostWitness_short {w : Nat} {l : List (Nat × Nat × Msg)} (hf : s.vault.fences = []) (ha : s.vault.awaiting = [w])
    (hn : s.vault.acks < s.vault.wcount) (hl : ∃ e ∈ l, e.2.2.typ = 6 ∧ e.2.2.src = s.reel.addr ∧ e.2.2.dst = w) :
    (lostWitness s l).vault.short = true := by
  obtain ⟨e, he, ht, hs, hd⟩ := hl
  have h := foldl_witnessAnswer_short (l := (l.filter (fun e => e.2.2.typ == 0x06 && e.2.2.src == s.reel.addr)).map (·.2.2.dst))
    ⟨hf, .inl ⟨ha, hn⟩⟩ (List.mem_map.mpr ⟨e, List.mem_filter.mpr ⟨he, by simp [ht, hs]⟩, hd⟩)
  unfold lostWitness sealWaiters
  split
  · exact h
  · exact List.foldlRecOn (motive := fun a : State => a.vault.short = true) _ _ h fun a h x _ => by simpa using h

end Sys2Proof.Machine

/-! SUPPORT. A port whose link is down, lanes and the delay of a link (11 R323, R324, R333). -/

namespace Sys2Proof.Machine
variable {s r q : State}

/-- A port whose link has gone down: nothing is left to acknowledge; its lanes and its delay stand. -/
structure PortDown (p q : Port) : Prop where
  link : q.link = 0
  unacked : q.unacked = []
  lanes : q.lanes = p.lanes
  rx : q.rx = p.rx
  delay : q.delay = p.delay
  echoes : q.echoes = p.echoes

/-- The state in which the break is noted, before contexts look for a credit again. -/
def breakNoted (s : State) (d : Bool) : State :=
  if s.reel.topo = 0 then lostWitness (portDropped s d) (portOf s d).unacked else noteBreak (breakSent s d) (linkAt s d)

theorem portOf_noteBreak (s : State) (a : Nat) (d : Bool) : portOf (noteBreak s a) d = portOf s d := by
  unfold portOf
  rw [noteBreak_ports]

theorem lost_port (s : State) (d : Bool) : PortDown (portOf s d) (portOf (lostWitness (portDropped s d) (portOf s d).unacked) d) := by
  rw [portOf_congr (lostWitness_reel _ _), portDropped_same]
  exact ⟨rfl, rfl, rfl, rfl, rfl, rfl⟩

theorem breakSent_carried (s : State) (d : Bool) : Carried (lostWitness (portDropped s d) (portOf s d).unacked) (breakSent s d) :=
  putOn_carried (.refl _)

theorem breakSent_port (s : State) (d : Bool) : PortDown (portOf s d) (portOf (breakSent s d) d) := by
  obtain ⟨hl, hu, hn, hr, hd, he⟩ := lost_port s d
  have hp := (breakSent_carried s d).port d
  have hk : (portOf (breakSent s d) d).unacked = (portOf (lostWitness (portDropped s d) (portOf s d).unacked) d).unacked := by
    have h := putOn_unacked (lostWitness (portDropped s d) (portOf s d).unacked) (!d)
      { cls := 0, typ := 0x08, src := s.reel.addr, dst := 0xFFFF, payload := leBytes 2 (linkAt s d) }
    rwa [Bool.not_not] at h
  exact ⟨hp.link.trans hl, hk.trans hu, hp.lanes.trans hn, hp.rx.trans hr, hp.delay.trans hd, hp.echoes.trans he⟩

theorem breakNoted_port (s : State) (d : Bool) : PortDown (portOf s d) (portOf (breakNoted s d) d) := by
  unfold breakNoted
  split
  · exact lost_port s d
  · rw [portOf_noteBreak]
    exact breakSent_port s d

theorem linkDown_port {d : Bool} (h : (portOf s d).link ≠ 0) : PortDown (portOf s d) (portOf (linkDown s d) d) := by
  rw [linkDown_eq h, portOf_congr (creditCheck_reel _)]
  exact breakNoted_port s d

theorem breakSent_reel (s : State) (d : Bool) : (breakSent s d).reel.topo = s.reel.topo ∧ (breakSent s d).reel.brk = s.reel.brk := by
  rw [(breakSent_carried s d).reel, lostWitness_reel, portDropped_reel]
  exact ⟨rfl, rfl⟩

theorem linkDown_noteBreak {d : Bool} (h : (portOf s d).link ≠ 0) (ht : s.reel.topo ≠ 0) :
    (linkDown s d).reel = (noteBreak (breakSent s d) (linkAt s d)).reel := by
  rw [linkDown_eq h, creditCheck_reel, if_neg ht]

theorem linkDown_line {d : Bool} (h : (portOf s d).link ≠ 0) (ht : s.reel.topo = 1) : linkAt s d ∈ (linkDown s d).reel.cuts := by
  rw [linkDown_noteBreak h (by omega)]
  exact noteBreak_line ((breakSent_reel s d).1.trans ht)

theorem linkDown_ring {d : Bool} (h : (portOf s d).link ≠ 0) (ht : s.reel.topo = 2) :
    (linkDown s d).reel.topo = 3 ∧ (linkDown s d).reel.brk = some (linkAt s d) := by
  rw [linkDown_noteBreak h (by omega)]
  exact noteBreak_ring ((breakSent_reel s d).1.trans ht)

theorem linkDown_otherTopo {d : Bool} (h : (portOf s d).link ≠ 0) (ht : s.reel.topo ≠ 2) :
    (linkDown s d).reel.topo = s.reel.topo ∧ (linkDown s d).reel.brk = s.reel.brk := by
  obtain ⟨h1, h2⟩ := breakSent_reel s d
  by_cases h0 : s.reel.topo = 0
  · rw [linkDown_eq h, creditCheck_reel, if_pos h0, lostWitness_reel, portDropped_reel]
    exact ⟨rfl, rfl⟩
  · obtain ⟨h3, h4⟩ := noteBreak_other (s := breakSent s d) (a := linkAt s d) (by rwa [h1])
    rw [linkDown_noteBreak h h0]
    exact ⟨h3.trans h1, h4.trans h2⟩

theorem linkDown_vault {d : Bool} (h : (portOf s d).link ≠ 0) :
    (linkDown s d).vault = (lostWitness (portDropped s d) (portOf s d).unacked).vault := by
  rw [linkDown_eq h, (creditCheck_carried (.refl _)).vault]
  split
  · rfl
  · rw [noteBreak_vault, (breakSent_carried s d).vault]

theorem linkDown_short {d : Bool} {w : Nat} (h : (portOf s d).link ≠ 0) (ha : s.vault.awaiting = [w]) (hf : s.vault.fences = [])
    (hn : s.vault.acks < s.vault.wcount) (hl : ∃ e ∈ (portOf s d).unacked, e.2.2.typ = 6 ∧ e.2.2.src = s.reel.addr ∧ e.2.2.dst = w) :
    (linkDown s d).vault.short = true := by
  have hv := portDropped_vault s d
  have haddr : (portDropped s d).reel.addr = s.reel.addr := by rw [portDropped_reel]
  rw [linkDown_vault h]
  exact lostWitness_short (by rw [hv]; exact hf) (by rw [hv]; exact ha) (by rw [hv]; exact hn) (by rw [haddr]; exact hl)

/-- No device beyond a cut of the line is reached. -/
theorem portTo_cut {dst x : Nat} (ht : s.reel.topo = 1) (hx : x ∈ s.reel.cuts) (h1 : min s.reel.addr dst ≤ x) (h2 : x < max s.reel.addr dst) :
    portTo s dst = none := by
  have hc : cutOff s.reel s.reel.addr dst = true := by
    simp only [cutOff, lineAt, ht, Bool.and_eq_true, bne_iff_ne, List.any_eq_true, decide_eq_true_eq]
    exact ⟨by decide, x, hx, h1, h2⟩
  unfold portTo
  split
  · exact if_neg (by simp [hc])
  · rfl

/-- A notice of a break that is taken: it is noted, and passed on. -/
theorem execBreakNotice_heard {h : Hdr} {a : Nat} {s1 : State} (hh : heard (noteBreak s a) h 0 = some s1) :
    (s.reel.topo = 1 → a ∈ (relay s1 0x08 h.src (leBytes 2 a) (cameBy s1 h)).reel.cuts) ∧
    (s.reel.topo = 2 → (relay s1 0x08 h.src (leBytes 2 a) (cameBy s1 h)).reel.topo = 3 ∧
      (relay s1 0x08 h.src (leBytes 2 a) (cameBy s1 h)).reel.brk = some a) ∧
    (s.reel.topo ≠ 2 → (relay s1 0x08 h.src (leBytes 2 a) (cameBy s1 h)).reel.topo = s.reel.topo ∧
      (relay s1 0x08 h.src (leBytes 2 a) (cameBy s1 h)).reel.brk = s.reel.brk) := by
  have hr := (relay_carried (typ := 0x08) (src := h.src) (b := leBytes 2 a) (came := cameBy s1 h) (heard_carried hh)).reel
  rw [hr]
  exact ⟨noteBreak_line, noteBreak_ring, noteBreak_other⟩

/-! ## Lanes (11 R323) -/

/-- A lane is lost: the link goes down where none is left, and else stands. -/
theorem laneLost_port {d dead : Bool} : (portOf (laneLost s d dead) d).lanes = (portOf s d).lanes ∧ (portOf (laneLost s d dead) d).rx =
    (portOf s d).rx ∧
    (portOf (laneLost s d dead) d).link = if dead then 0 else (portOf s d).link := by
  have hp := (degradeCheck_carried (raise_carried (p := pgReel) (b := 6) (.refl s))).port d
  unfold laneLost
  dsimp only
  cases dead
  · exact ⟨hp.lanes, hp.rx, hp.link⟩
  · simp only [if_true]
    by_cases h0 : (portOf (degradeCheck (raise s pgReel 6)) d).link = 0
    · rw [linkDown_already h0]
      exact ⟨hp.lanes, hp.rx, h0⟩
    · have hd := linkDown_port h0
      exact ⟨hd.lanes.trans hp.lanes, hd.rx.trans hp.rx, hd.link⟩

theorem swapLane_spare : swapLane [1, 1, 0] 2 = [1, 1, 2] := by decide

theorem swapLane_service {l : Nat} (h : l ≤ 1) : swapLane [1, 1, 0] l = [1, 1, 1].set l 2 := by
  interval_cases l <;> decide

theorem swapLane_last {l : Nat} (h : l ≤ 2) : swapLane ([2, 2, 2].set l 1) l = [2, 2, 2] := by
  interval_cases l <;> decide

theorem lane_in_service {l : Nat} (h : l ≤ 2) : ([2, 2, 2].set l 1).getD l 2 ≠ 2 := by
  interval_cases l <;> decide

theorem service_left {l : Nat} : ([1, 1, 1].set l 2).any (· == 1) = true := by
  rcases l with _ | _ | _ | l <;> rfl

/-- What the other end of a port is told of a lane that this end has retired. -/
def laneNotice (s : State) (d : Bool) (l : Nat) : Msg :=
  { cls := 0, typ := 0x05, src := s.reel.addr, dst := s.reel.addr, payload := [BitVec.ofNat 8 (flag d), BitVec.ofNat 8 l] }

/-- A port whose lanes are as given: the link stands while one is in service. -/
theorem link_kept (b : Bool) (x : Nat) : (if !b then 0 else x) = if b then x else 0 := by cases b <;> rfl

/-- A lane of the receive direction that is retired. -/
theorem execReelLaneRetire_port {d : Bool} {l : Nat} (hl : (portOf s d).rx.getD l 2 ≠ 2) (he : portEnabled s d = true) :
    ∃ s', exec (.reelLaneRetire d l) s = .next s' ∧ (portOf s' d).rx = swapLane (portOf s d).rx l ∧
      (portOf s' d).link = if (swapLane (portOf s d).rx l).any (· == 1) then (portOf s d).link else 0 := by
  have hp := (putOn_carried (d := d) (m := laneNotice s d l)
    (.refl (setPort s d { portOf s d with rx := swapLane (portOf s d).rx l }))).port d
  rw [portOf_setPort_same] at hp
  obtain ⟨-, h2, h3⟩ := laneLost_port (d := d) (dead := !((swapLane (portOf s d).rx l).any (· == 1)))
    (s := putOn (setPort s d { portOf s d with rx := swapLane (portOf s d).rx l }) d (laneNotice s d l))
  refine ⟨_, if_neg fun h => h.elim hl (by simp [he]), h2.trans hp.rx, h3.trans ?_⟩
  rw [hp.link]
  exact link_kept _ _

theorem execLaneSwap_eq (s : State) (d : Bool) (l n : Nat) : exec (.laneSwap d l n) s = .next (
    if (hop s d 0 n).2 = false ∨ (portOf s d).lanes.getD l 2 = 2 then (hop s d 0 n).1
    else laneLost (setPort (hop s d 0 n).1 d { portOf (hop s d 0 n).1 d with lanes := swapLane (portOf s d).lanes l }) d
      (!((swapLane (portOf s d).lanes l).any (· == 1)))) := by
  have hp := ((hop_carried (d := d) (cls := 0) (seq := n) (high := false) (keep := false) (.refl s)).port d).lanes
  show execLaneSwap d l s n = _
  unfold execLaneSwap
  rw [← hp]
  generalize hop s d 0 n = z
  obtain ⟨a, b⟩ := z
  cases b
  · rfl
  · simp only [Bool.true_eq_false, false_or]
    exact (apply_ite Host.Outcome.next ..).symm

/-- A lane of the transmit direction that the other end has retired. -/
theorem execLaneSwap_port {d : Bool} {l n : Nat} (hz : (hop s d 0 n).2 = true) (hl : (portOf s d).lanes.getD l 2 ≠ 2) :
    ∃ s', exec (.laneSwap d l n) s = .next s' ∧ (portOf s' d).lanes = swapLane (portOf s d).lanes l ∧
      (portOf s' d).link = if (swapLane (portOf s d).lanes l).any (· == 1) then (portOf s d).link else 0 := by
  have hp := (hop_carried (d := d) (cls := 0) (seq := n) (high := false) (keep := false) (.refl s)).port d
  obtain ⟨h1, -, h3⟩ := laneLost_port (d := d) (dead := !((swapLane (portOf s d).lanes l).any (· == 1)))
    (s := setPort (hop s d 0 n).1 d { portOf (hop s d 0 n).1 d with lanes := swapLane (portOf s d).lanes l })
  rw [portOf_setPort_same] at h1 h3
  refine ⟨_, (execLaneSwap_eq s d l n).trans (congrArg _ (if_neg fun h => h.elim (fun h => absurd (hz.symm.trans h) nofun) hl)), h1, h3.trans ?_⟩
  dsimp only
  rw [hp.link]
  exact link_kept _ _

/-! ## The delay of a link (11 R324) -/

theorem echoOne_measured {d : Bool} {rt : Nat} (h : (portOf s d).echoes.length = 15) (hl : (portOf s d).link ≠ 0) :
    (portOf (echoOne s d rt) d).delay = min (((portOf s d).echoes ++ [rt]).sum / 32) 65535 ∧ (portOf (echoOne s d rt) d).echoes = [] ∧
    (portOf (echoOne s d rt) d).link = if 6000 < ((portOf s d).echoes ++ [rt]).sum / 32 then 0 else (portOf s d).link := by
  unfold echoOne delayOf
  simp only [if_neg (show ¬ ((portOf s d).echoes ++ [rt]).length < 16 by simp [h])]
  split
  · next hd =>
    have hp := linkDown_port (s := setPort s d { portOf s d with echoes := [], delay := min (((portOf s d).echoes ++ [rt]).sum / 32) 65535 }) (d := d)
      (by rw [portOf_setPort_same]; exact hl)
    rw [portOf_setPort_same] at hp
    exact ⟨hp.delay, hp.echoes, hp.link⟩
  · rw [portOf_setPort_same]
    exact ⟨rfl, rfl, rfl⟩

end Sys2Proof.Machine

/-! SUPPORT. Promenade begins and ends, and a link trains (11 R324 to R326, R332). -/

namespace Sys2Proof.Machine
variable {s r q : State}

/-! ## Promenade begins and ends (11 R324 to R326) -/

/-- What a second Promenade ends, before the clones of this device are told. -/
def promenadeWiped (s : State) : State := s.setReel { s.reel with
  up := { s.reel.up.fresh with queue := [] }, dn := { s.reel.dn.fresh with queue := [] }, mbox := [], order := none, session := none,
    conflict := false }

theorem promenadeClear_carried (s : State) : Carried (promenadeWiped s) (promenadeClear s) := creditCheck_carried (cloneLost_carried (.refl _))

theorem promenadeWiped_port (s : State) (d : Bool) : SameLink (portOf s d) (portOf (promenadeWiped s) d) := by
  cases d <;> exact ⟨rfl, rfl, rfl, rfl, rfl⟩

theorem promenadeClear_port (s : State) (d : Bool) : SameLink (portOf s d) (portOf (promenadeClear s) d) :=
  (promenadeWiped_port s d).trans ((promenadeClear_carried s).port d)

theorem promenadeClear_reel (s : State) : (promenadeClear s).reel = { s.reel with
    mbox := [], order := none, session := none, conflict := false, up := (promenadeClear s).reel.up, dn := (promenadeClear s).reel.dn } :=
  (promenadeClear_carried s).reel

theorem promenadeClear_time (s : State) : (promenadeClear s).time = s.time := (promenadeClear_carried s).time

theorem setTopology_reel (s : State) (n topo : Nat) (brk : Option Nat) : (setTopology s n topo brk).reel =
    { s.reel with addressed := true, count := n, topo := topo, brk := brk, cuts := [] } := by
  simp [setTopology]

theorem setTopology_time (s : State) (n topo : Nat) (brk : Option Nat) : (setTopology s n topo brk).time = s.time := by simp [setTopology]

/-- The topology with which Promenade ends. -/
def endTopology (n : Nat) (closed : Bool) : Nat := if closed = true ∧ (!decide (n > 1000)) = true ∧ min n 1000 ≥ 3 then 2 else 1

/-- The Reel as the head's Promenade leaves it, before TOPOLOGY is broadcast. -/
def promenadeEnded (s : State) (n : Nat) (closed : Bool) : State :=
  setTopology (s.setReel { s.reel with overflow := decide (n > 1000), walking := false }) (min n 1000) (endTopology n closed) none

theorem promenadeDone_carried (s : State) (n : Nat) (closed : Bool) : Carried (promenadeEnded s n closed) (promenadeDone s n closed) :=
  broadcast_carried (.refl _)

theorem promenadeDone_reel (s : State) (n : Nat) (closed : Bool) : (promenadeDone s n closed).reel = { s.reel with
    overflow := decide (n > 1000), walking := false, addressed := true, count := min n 1000, topo := endTopology n closed, brk := none, cuts := []
    up := (promenadeDone s n closed).reel.up, dn := (promenadeDone s n closed).reel.dn } := by
  have h := (promenadeDone_carried s n closed).reel
  rw [promenadeEnded, setTopology_reel] at h
  exact h

theorem promenadeDone_port (s : State) (n : Nat) (closed d : Bool) : SameLink (portOf s d) (portOf (promenadeDone s n closed) d) := by
  have h := (promenadeDone_carried s n closed).port d
  have hp : portOf (promenadeEnded s n closed) d = portOf s d := by
    unfold portOf
    rw [promenadeEnded, setTopology_reel]
    rfl
  rwa [hp] at h

theorem promenadeDone_time (s : State) (n : Nat) (closed : Bool) : (promenadeDone s n closed).time = s.time :=
  (promenadeDone_carried s n closed).time.trans (setTopology_time ..)

theorem endTopology_line (n : Nat) : endTopology n false = 1 := if_neg (by simp)

theorem endTopology_ring (n : Nat) : endTopology n true = if n ≤ 1000 ∧ 3 ≤ n then 2 else 1 := by
  unfold endTopology
  refine if_congr ?_ rfl rfl
  simp only [true_and, Bool.not_eq_true', decide_eq_false_iff_not, ge_iff_le]
  omega

/-- The head as its Promenade begins. -/
def promenadeBegun (s : State) : State := (promenadeClear s).setReel { (promenadeClear s).reel with addr := 0, walking := true }

theorem promenadeStart_eq (s : State) : promenadeStart s = if portUp (promenadeBegun s) true then
    putOn (promenadeBegun s) true { cls := 0, typ := 0x01, src := 0, dst := 1, payload := leBytes 2 1 ++ leBytes 3 0 }
    else promenadeDone (promenadeBegun s) 1 false := rfl

theorem promenadeBegun_reel (s : State) : (promenadeBegun s).reel = { s.reel with
    mbox := [], order := none, session := none, conflict := false, addr := 0, walking := true
    up := (promenadeBegun s).reel.up, dn := (promenadeBegun s).reel.dn } := by
  have h := promenadeClear_reel s
  unfold promenadeBegun
  rw [h]
  rfl

theorem promenadeStart_port (s : State) (d : Bool) : SameLink (portOf s d) (portOf (promenadeStart s) d) := by
  have h : SameLink (portOf s d) (portOf (promenadeBegun s) d) := promenadeClear_port s d
  rw [promenadeStart_eq]
  split
  · exact h.trans ((putOn_carried (.refl _)).port d)
  · exact h.trans (promenadeDone_port ..)

theorem promenadeStart_parts (s : State) : (promenadeStart s).reel.addr = 0 ∧ (promenadeStart s).reel.mbox = [] ∧
    (promenadeStart s).reel.order = none ∧
    (promenadeStart s).reel.session = none ∧ (promenadeStart s).time = s.time := by
  have hr := promenadeBegun_reel s
  have ht : (promenadeBegun s).time = s.time := promenadeClear_time s
  rw [promenadeStart_eq]
  split
  · have hc := putOn_carried (d := true) (m := { cls := 0, typ := 0x01, src := 0, dst := 1, payload := leBytes 2 1 ++ leBytes 3 0 })
      (.refl (promenadeBegun s))
    rw [hc.reel, hc.time, hr, ht]
    exact ⟨rfl, rfl, rfl, rfl, rfl⟩
  · rw [promenadeDone_reel, promenadeDone_time, hr, ht]
    exact ⟨rfl, rfl, rfl, rfl, rfl⟩

theorem promenadeStart_alone (h : portUp s true = false) : (promenadeStart s).reel.count = 1 ∧ (promenadeStart s).reel.topo = 1 ∧
    (promenadeStart s).reel.addressed = true := by
  have hr := promenadeBegun_reel s
  have hu : portUp (promenadeBegun s) true = portUp s true := by
    have hl : (portOf (promenadeBegun s) true).link = (portOf s true).link := (promenadeClear_port s true).link
    unfold portUp portEnabled
    rw [hl, hr]
  rw [promenadeStart_eq, if_neg (by rw [hu, h]; exact Bool.false_ne_true), promenadeDone_reel, endTopology_line]
  exact ⟨rfl, rfl, rfl⟩

/-! ## A link trains (11 R332) -/

theorem noteMend_reel (s : State) (a : Nat) : (noteMend s a).reel = { s.reel with
    topo := (noteMend s a).reel.topo, brk := (noteMend s a).reel.brk, cuts := (noteMend s a).reel.cuts } := by
  unfold noteMend
  dsimp only
  split <;> rfl

theorem noteMend_break {a : Nat} (ht : s.reel.topo = 3) (hb : s.reel.brk = some a) :
    (noteMend s a).reel.topo = (if s.reel.cuts.filter (· != a) = [] then 2 else 3) ∧ (noteMend s a).reel.brk =
      (s.reel.cuts.filter (· != a)).head? := by
  have h : noteMend s a = s.setReel { s.reel with
      topo := if (s.reel.cuts.filter (· != a)).isEmpty then 2 else 3, brk := (s.reel.cuts.filter (· != a)).head?
      cuts := (s.reel.cuts.filter (· != a)).drop 1 } := if_pos ⟨ht, hb⟩
  rw [h]
  exact ⟨if_congr List.isEmpty_iff rfl rfl, rfl⟩

theorem noteMend_line {a : Nat} (ht : s.reel.topo = 1) : (noteMend s a).reel.topo = 1 ∧ (noteMend s a).reel.cuts = s.reel.cuts.filter (· != a) := by
  have h : noteMend s a = s.setReel { s.reel with cuts := s.reel.cuts.filter (· != a) } := if_neg fun h => by omega
  rw [h]
  exact ⟨ht, rfl⟩

theorem linkMended_port (s : State) (d e : Bool) : SameLink (portOf s e) (portOf (linkMended s d) e) := by
  have h : portOf (noteMend s (linkAt s d)) e = portOf s e := by
    unfold portOf
    rw [noteMend_reel]
  unfold linkMended
  dsimp only
  split
  · exact .refl _
  · split
    · rw [h]
      exact .refl _
    · rw [← h]
      exact (broadcast_carried (.refl _)).port e

/-- What a mended link gives, beside a break or a cut that is known. -/
theorem linkMended_carried {d : Bool} (ha : s.reel.addressed = true) (hk : s.reel.brk = some (linkAt s d) ∨ linkAt s d ∈ s.reel.cuts) :
    Carried (noteMend s (linkAt s d)) (linkMended s d) := by
  unfold linkMended
  dsimp only
  rw [if_neg (by simpa [ha, or_iff_not_imp_left] using hk)]
  exact .ite (.refl _) (broadcast_carried (.refl _))

theorem linkMended_break {d : Bool} (ha : s.reel.addressed = true) (ht : s.reel.topo = 3) (hb : s.reel.brk = some (linkAt s d)) :
    (linkMended s d).reel.topo = (if s.reel.cuts.filter (· != linkAt s d) = [] then 2 else 3) ∧
    (linkMended s d).reel.brk = (s.reel.cuts.filter (· != linkAt s d)).head? := by
  rw [(linkMended_carried ha (.inl hb)).reel]
  exact noteMend_break ht hb

theorem linkMended_line {d : Bool} (ha : s.reel.addressed = true) (ht : s.reel.topo = 1) :
    (linkMended s d).reel.topo = 1 ∧ (linkMended s d).reel.cuts = s.reel.cuts.filter (· != linkAt s d) := by
  by_cases hk : s.reel.brk = some (linkAt s d) ∨ linkAt s d ∈ s.reel.cuts
  · rw [(linkMended_carried ha hk).reel]
    exact noteMend_line ht
  · have he : linkMended s d = s := if_pos (by simpa [ha] using hk)
    rw [he]
    refine ⟨ht, (List.filter_eq_self.mpr fun x hx => ?_).symm⟩
    simp only [bne_iff_ne]
    rintro rfl
    exact hk (.inr hx)

/-- A link that has trained, before its messages start again. -/
def linkTrained (s : State) (d : Bool) : State := raise (setPort s d { (portOf s d).fresh with link := 2 }) pgReel 2

theorem linkTrained_port (s : State) (d : Bool) : (portOf (linkTrained s d) d).link = 2 := by
  cases d <;> simp [linkTrained, portOf, setPort]

theorem linkTrained_reel (s : State) (d : Bool) : (linkTrained s d).reel = { s.reel with
    up := (linkTrained s d).reel.up, dn := (linkTrained s d).reel.dn } := by
  cases d <;> simp [linkTrained, setPort]

/-- The messages queued start again. -/
def linkResumed (s : State) (d : Bool) : State := creditCheck (reelPump d (portOf s d).queue.length (linkMended (linkTrained s d) d))

theorem linkResumed_carried (s : State) (d : Bool) : Carried (linkMended (linkTrained s d) d) (linkResumed s d) :=
  creditCheck_carried (reelPump_carried (.refl _))

theorem execReelLinkUp_trains {d : Bool} (he : portEnabled s d = true) (hl : (portOf s d).link ≠ 2) (hr : 1 ∈ (portOf s d).rx)
    (hn : 1 ∈ (portOf s d).lanes) : ∃ s', exec (.reelLinkUp d) s = .next s' ∧ (s' = linkResumed s d ∨
      ((linkResumed s d).reel.topo = 0 ∧ s' = promenadeStart (linkResumed s d))) := by
  have hc : ¬ ((!portEnabled s d) = true ∨ (portOf s d).link = 2 ∨ (!(portOf s d).rx.any (· == 1)) = true ∨
    (!(portOf s d).lanes.any (· == 1)) = true) := by
    simp [he, hl, hr, hn]
  refine ⟨_, if_neg hc, ?_⟩
  split
  · next h => exact .inr ⟨h.2.1, rfl⟩
  · exact .inl rfl

end Sys2Proof.Machine

/-! SUPPORT. PROMENADE, PROMENADE_END and TOPOLOGY arrive (11 R324, R325, R332). -/

namespace Sys2Proof.Machine
variable {s r q : State}

/-! ## PROMENADE (11 R324 to R326) -/

/-- PROMENADE arrives anew: the link is up, and the message has not come before. -/
def Arrives (s : State) (n : Nat) : Prop := portUp s false = true ∧ s.reel.up.place 0 n ≠ 1

theorem execPromenade_old {a d n : Nat} (h : ¬ Arrives s n) : exec (.promenade a d [] n) s = .next (hop s false 0 n).1 := by
  refine if_pos ?_
  unfold Arrives at h
  rw [Bool.not_eq_true']
  by_cases hu : portUp s false = true
  · exact .inr (by_contra fun hp => h ⟨hu, hp⟩)
  · exact .inl (by simpa using hu)

theorem arrives_iff {n : Nat} (h : Arrives s n) : ¬ ((!portUp s false) = true ∨ (portOf s false).place 0 n = 1) := by
  rintro (hu | hp)
  · simp [h.1] at hu
  · exact h.2 hp

/-- A member that takes PROMENADE: what it ends has ended, and the message is acknowledged. -/
def memberTaken (s : State) (n : Nat) : State := (hop (promenadeClear s) false 0 n).1

/-- A member for which no address is left. -/
def memberFull (s : State) (n : Nat) : State := (memberTaken s n).setReel { (memberTaken s n).reel with addressed := false }

/-- A member that has taken its address and its delay. -/
def memberAddressed (s : State) (a d n : Nat) : State := takeAddress (memberTaken s n) a (d + (memberTaken s n).reel.up.delay)

/-- A head that PROMENADE reaches: the message is acknowledged, whatever its SEQ. -/
def headReached (s : State) (n : Nat) : State :=
  (hop (setPort s false { portOf s false with rxSeqs := (portOf s false).rxSeqs.set 0 none }) false 0 n).1

/-- A head that refuses PROMENADE. -/
def headConflict (s : State) (n : Nat) : State := (headReached s n).setReel { (headReached s n).reel with conflict := true }

theorem execPromenade_new {a d n : Nat} (h : Arrives s n) : exec (.promenade a d [] n) s =
    if s.reel.role = 1 then .next (if s.reel.closed ∧ s.reel.walking then promenadeDone (headReached s n) a true else sendEnd (headConflict s n) 0)
    else if a = 0 then .next s
    else .next (if a ≥ 1000 then sendEnd (memberFull s n) 1001
      else promenadeForward (memberAddressed s a d n) a (d + (memberTaken s n).reel.up.delay)) := by
  show execPromenade a d [] s n = _
  unfold execPromenade
  rw [List.foldl_nil, if_neg (arrives_iff h)]
  dsimp only [headConflict, memberFull, memberAddressed, headReached, memberTaken]

theorem memberTaken_carried (s : State) (n : Nat) : Carried (promenadeWiped s) (memberTaken s n) := hop_carried (promenadeClear_carried s)

theorem memberTaken_reel (s : State) (n : Nat) : (memberTaken s n).reel = { s.reel with
    mbox := [], order := none, session := none, conflict := false, up := (memberTaken s n).reel.up, dn := (memberTaken s n).reel.dn } :=
  (memberTaken_carried s n).reel

theorem memberFull_reel (s : State) (n : Nat) : (memberFull s n).reel = { s.reel with
    addressed := false, mbox := [], order := none, session := none, conflict := false, up := (memberFull s n).reel.up,
      dn := (memberFull s n).reel.dn } := by
  unfold memberFull
  rw [memberTaken_reel]
  rfl

theorem memberAddressed_reel (s : State) (a d n : Nat) : (memberAddressed s a d n).reel = { s.reel with
    addr := a, mbox := [], order := none, session := none, conflict := false, up := (memberAddressed s a d n).reel.up,
      dn := (memberAddressed s a d n).reel.dn } := by
  have h : (memberAddressed s a d n).reel = { (memberTaken s n).reel with addr := a } := rfl
  rw [h, memberTaken_reel]

theorem takeAddress_time (s : State) (a d : Nat) : (takeAddress s a d).time =
    if s.reel.addressed then { s.time with newDelay := some d } else { s.time with delay := d } := rfl

theorem memberAddressed_time (s : State) (a d n : Nat) : (memberAddressed s a d n).time =
    if s.reel.addressed then { s.time with newDelay := some (d + s.reel.up.delay) } else { s.time with delay := d + s.reel.up.delay } := by
  have ht : (memberTaken s n).time = s.time := (memberTaken_carried s n).time
  have hd : (memberTaken s n).reel.up.delay = s.reel.up.delay := (memberTaken_carried s n).up.delay
  have ha : (memberTaken s n).reel.addressed = s.reel.addressed := by rw [memberTaken_reel]
  rw [memberAddressed, takeAddress_time, ha, ht, hd]

theorem promenadeForward_carried (s : State) (a d : Nat) : Carried s (promenadeForward s a d) :=
    .ite (putOn_carried (.refl _)) (putOn_carried (.refl _))

theorem sendEnd_carried (s : State) (n : Nat) : Carried s (sendEnd s n) := putOn_carried (.refl _)

theorem headReached_reel (s : State) (n : Nat) : (headReached s n).reel =
    { s.reel with up := (headReached s n).reel.up, dn := (headReached s n).reel.dn } := by
  have h : Carried s (setPort s false { portOf s false with rxSeqs := (portOf s false).rxSeqs.set 0 none }) :=
    setPort_carried (.refl s) ⟨rfl, rfl, rfl, rfl, rfl⟩
  exact (hop_carried (d := false) (cls := 0) (seq := n) (high := false) (keep := false) h).reel

theorem headConflict_reel (s : State) (n : Nat) : (headConflict s n).reel = { s.reel with
    conflict := true, up := (headConflict s n).reel.up, dn := (headConflict s n).reel.dn } := by
  unfold headConflict
  rw [headReached_reel]
  rfl

/-! ## PROMENADE_END -/

/-- PROMENADE_END taken: a count of 0 says that a head has refused PROMENADE. -/
def endHeard (s : State) (n seq : Nat) : State :=
  if n = 0 then (hop s true 0 seq).1.setReel { (hop s true 0 seq).1.reel with conflict := true } else (hop s true 0 seq).1

theorem execPromenadeEnd_eq (s : State) (n seq : Nat) : exec (.promenadeEnd n seq) s = .next (
    if (hop s true 0 seq).2 = false then (hop s true 0 seq).1
    else if s.reel.role = 1 then (if s.reel.walking then promenadeDone (endHeard s n seq) (if n = 0 then s.reel.addr + 1 else n) false
      else (hop s true 0 seq).1)
    else sendEnd (endHeard s n seq) (if n = 0 then s.reel.addr + 1 else n)) := by
  show execPromenadeEnd n s seq = _
  unfold execPromenadeEnd endHeard
  generalize hop s true 0 seq = z
  obtain ⟨a, b⟩ := z
  cases b <;> rfl

theorem endHeard_reel (s : State) (n seq : Nat) : (endHeard s n seq).reel = { s.reel with
    conflict := (endHeard s n seq).reel.conflict, up := (endHeard s n seq).reel.up, dn := (endHeard s n seq).reel.dn } := by
  have h := (hop_carried (d := true) (cls := 0) (seq := seq) (high := false) (keep := false) (.refl s)).reel
  unfold endHeard
  split
  · rw [State.setReel_reel, h]
  · rw [h]

theorem endHeard_conflict (s : State) (seq : Nat) : (endHeard s 0 seq).reel.conflict = true := rfl

theorem endHeard_time (s : State) (n seq : Nat) : (endHeard s n seq).time = s.time := by
  have h := (hop_carried (d := true) (cls := 0) (seq := seq) (high := false) (keep := false) (.refl s)).time
  unfold endHeard
  split <;> exact h

/-! ## TOPOLOGY (11 R324, R332) -/

/-- What TOPOLOGY must say to be taken. -/
def TopologyOk (s : State) (n topo : Nat) : Prop :=
  s.reel.role % 2 ≠ 1 ∧ 0 < s.reel.addr ∧ s.reel.addr < n ∧ n ≤ 1000 ∧ 1 ≤ topo ∧ topo ≤ 3

theorem execTopology_refused {n topo b seq : Nat} (h : ¬ TopologyOk s n topo) : exec (.topology n topo b seq) s = .next s := by
  refine congrArg Host.Outcome.next ((if_neg (by simp)).trans (if_pos ?_))
  unfold TopologyOk at h
  by_contra hn
  exact h (by omega)

theorem execTopology_ok {n topo b seq : Nat} (h : TopologyOk s n topo) : exec (.topology n topo b seq) s =
    .next (match heard (setTopology s n topo (if topo = 3 then some b else none)) { src := 0, dst := 0xFFFF, seq := seq } 0 with
      | none => (hears s { src := 0, dst := 0xFFFF, seq := seq } 0).1
      | some s1 => relay s1 0x03 0 (topoBytes n topo (if topo = 3 then some b else none)) (cameBy s1 { src := 0, dst := 0xFFFF, seq := seq })) := by
  obtain ⟨h1, h2, h3, h4, h5, h6⟩ := h
  exact congrArg Host.Outcome.next ((if_neg (by simp)).trans (if_neg (by omega)))

theorem execTopology_mend {n topo b seq src : Nat} (h0 : src ≠ 0) (hn : n = s.reel.count) : exec (.topology n topo b seq src) s =
    .next (match heard (noteMend s b) { src := src, dst := 0xFFFF, seq := seq } 0 with
      | none => (hears s { src := src, dst := 0xFFFF, seq := seq } 0).1
      | some s1 => relay s1 0x03 src (leBytes 2 n ++ leBytes 1 topo ++ leBytes 2 b) (cameBy s1 { src := src, dst := 0xFFFF, seq := seq })) :=
  congrArg Host.Outcome.next ((if_pos h0).trans (if_neg fun h => h hn))

end Sys2Proof.Machine

/-! SUPPORT. The Reel's links: the statement. -/

namespace Sys2Proof.Machine
variable {s r q : State}

/-! ## The statement -/

theorem linkAck_clause (s : State) (down : Bool) (cls n : Nat) (cr : List Nat) :
    let p := portOf s down
    let hit := p.unacked.any (fun e => e.1 == cls && e.2.1 == n)
    (portUp s down = false → exec (.linkAck down cls n cr) s = .next s ∧ exec (.linkNak down cls n) s = .next s ∧
      exec (.retransmitTimeout down cls) s = .next s) ∧
    (portUp s down = true → p.queue = [] → ∃ s', exec (.linkAck down cls n cr) s = .next s' ∧ portOf s' down = { p with
      unacked := p.unacked.filter (fun e => !(e.1 == cls && e.2.1 == n)), fails := if hit then 0 else p.fails
      credits := (List.range 4).map (fun k => min (fullCredits.getD k 0) (p.credits.getD k 0 + cr.getD k 0))
      high := (List.range 4).map (fun k => min (fullCredits.getD k 0) (p.high.getD k 0 + cr.getD (4 + k) 0)) }) ∧
    (hit = false → exec (.linkNak down cls n) s = .next s) ∧
    (portUp s down = true → hit = true →
      exec (.retransmitTimeout down cls) s = exec (.linkNak down cls n) s ∧
      (p.fails < 15 → exec (.linkNak down cls n) s =
        .next (setPort s down { p with retries := satAdd 32 p.retries 1, fails := p.fails + 1 })) ∧
      (15 ≤ p.fails → exec (.linkNak down cls n) s = exec (.reelLinkDown down) s)) := by
  refine ⟨fun hu => ⟨if_pos (by simp [hu]), ?_, ?_⟩, execLinkAck_idle, fun hh => ?_, fun hu hh => ?_⟩
  · exact congrArg Host.Outcome.next (if_neg (by simp [hu]))
  · exact congrArg Host.Outcome.next (if_neg (by simp [hu]))
  · exact congrArg Host.Outcome.next (if_neg (by rw [hh, Bool.and_false]; exact Bool.false_ne_true))
  · have hn : exec (.linkNak down cls n) s = .next (failedAttempt s down) := congrArg Host.Outcome.next (if_pos (by rw [hu, hh]; rfl))
    have hc : (portOf s down).unacked.any (fun e => e.1 == cls) = true := by
      obtain ⟨e, he, h⟩ := List.any_eq_true.mp hh
      exact List.any_eq_true.mpr ⟨e, he, (Bool.and_eq_true .. ▸ h).1⟩
    have ht : exec (.retransmitTimeout down cls) s = .next (failedAttempt s down) := congrArg Host.Outcome.next (if_pos (by rw [hu, hc]; rfl))
    rw [hn, ht]
    exact ⟨rfl, fun h => congrArg _ (failedAttempt_retries h), fun h => congrArg _ (failedAttempt_down h)⟩

/-- What a link that trains makes of the port and of the Reel's shape. -/
theorem linkUp_clause (s : State) (down : Bool) (he : portEnabled s down = true) (hl : (portOf s down).link ≠ 2) (hr : 1 ∈ (portOf s down).rx)
    (hn : 1 ∈ (portOf s down).lanes) : ∃ s', exec (.reelLinkUp down) s = .next s' ∧ (portOf s' down).link = 2 ∧
      (let x := if down then s.reel.addr else (s.reel.addr + s.reel.count - 1) % s.reel.count
       let rest := s.reel.cuts.filter (· != x)
       (s.reel.addressed = true → s.reel.topo = 3 → s.reel.brk = some x →
         s'.reel.topo = (if rest = [] then 2 else 3) ∧ s'.reel.brk = rest.head?) ∧
       (s.reel.addressed = true → s.reel.topo = 1 → s'.reel.cuts = rest)) := by
  obtain ⟨s', hs, h⟩ := execReelLinkUp_trains he hl hr hn
  have ht := linkTrained_reel s down
  have hx : linkAt (linkTrained s down) down = linkAt s down := by
    unfold linkAt
    rw [ht]
  have hc := linkResumed_carried s down
  have htopo : (linkResumed s down).reel.topo = (linkMended (linkTrained s down) down).reel.topo := by rw [hc.reel]
  have hbrk : (linkResumed s down).reel.brk = (linkMended (linkTrained s down) down).reel.brk := by rw [hc.reel]
  have hcuts : (linkResumed s down).reel.cuts = (linkMended (linkTrained s down) down).reel.cuts := by rw [hc.reel]
  have hport : (portOf (linkResumed s down) down).link = 2 :=
    ((hc.port down).link.trans (linkMended_port _ _ _).link).trans (linkTrained_port s down)
  have hbreak (ha : s.reel.addressed = true) (h3 : s.reel.topo = 3) (hb : s.reel.brk = some (linkAt s down)) :
      (linkResumed s down).reel.topo = (if s.reel.cuts.filter (· != linkAt s down) = [] then 2 else 3) ∧
      (linkResumed s down).reel.brk = (s.reel.cuts.filter (· != linkAt s down)).head? := by
    have h := linkMended_break (s := linkTrained s down) (d := down) (by rw [ht]; exact ha) (by rw [ht]; exact h3) (by rw [hx, ht]; exact hb)
    rw [hx, ht] at h
    exact ⟨htopo.trans h.1, hbrk.trans h.2⟩
  have hline (ha : s.reel.addressed = true) (h1 : s.reel.topo = 1) :
      (linkResumed s down).reel.topo = 1 ∧ (linkResumed s down).reel.cuts = s.reel.cuts.filter (· != linkAt s down) := by
    have h := linkMended_line (s := linkTrained s down) (d := down) (by rw [ht]; exact ha) (by rw [ht]; exact h1)
    rw [hx, ht] at h
    exact ⟨htopo.trans h.1, hcuts.trans h.2⟩
  refine ⟨s', hs, ?_⟩
  rcases h with h | ⟨h0, h⟩
  · rw [h]
    exact ⟨hport, hbreak, fun ha h1 => (hline ha h1).2⟩
  · rw [h]
    refine ⟨(promenadeStart_port _ down).link.trans hport, fun ha h3 hb => ?_, fun ha h1 => ?_⟩
    · rw [(hbreak ha h3 hb).1] at h0
      split at h0 <;> cases h0
    · rw [(hline ha h1).1] at h0
      cases h0

/-- Settles O7. Messages leave the Reel's shape and what training gave each port (`Carried`); a link that goes down is the port dropped, the
break sent on and noted, and a link that trains mends what was noted. -/
theorem reelLinksTrainFailAndPromenade : Obligations.ReelLinksTrainFailAndPromenade := by
  refine ⟨linkAck_clause, fun s d h => congrArg Host.Outcome.next (linkDown_already h),
    fun s d h => ⟨_, rfl, (linkDown_port h).link, (linkDown_port h).unacked, fun w ha hf hn hl => linkDown_short h ha hf hn hl, linkDown_otherTopo h,
      linkDown_line h, linkDown_ring h⟩,
    fun s dst x ht hx h1 h2 => portTo_cut ht hx h1 h2,
    fun s h a => ⟨fun ha => congrArg Host.Outcome.next (if_pos ha), fun ha hn => ?_, fun s1 ha hh => ⟨_, ?_, rfl, execBreakNotice_heard hh⟩⟩,
    fun s d bad cls n => ?_,
    fun s d l => ⟨fun h => if_pos (by simpa using h), fun he hx => ?_, fun he hl hx => ?_, fun he hx hl => ?_⟩,
    fun s d n l => ⟨fun h => (execLaneSwap_eq s d l n).trans (congrArg _ (if_pos h)), fun hz hx => ?_, fun hz hl hx => ?_, fun hz hx hl => ?_⟩,
    fun s d rt => ⟨fun h => ?_, fun he hl hn => ?_, fun he hl hn => ⟨_, congrArg Host.Outcome.next (if_pos ⟨he, hl⟩), echoOne_measured hn hl⟩⟩,
    fun s d => ⟨fun h => if_pos (by simpa [List.any_beq'] using h), fun he hl hr hn => ?_⟩,
    fun s => ⟨fun hr => congrArg Host.Outcome.next (if_neg hr), fun hr => ?_⟩,
    fun s n a d => ⟨execPromenade_old, fun h hr h0 => ?_, fun h hr ha => ?_, fun h hr h0 ha => ?_, fun h hr hw => ?_, fun h hr hc hw => ?_⟩,
    fun s n m => ⟨fun hz => ?_, fun hz hr hw => ?_, fun hz hr hw => ?_, fun hz hr => ?_⟩,
    fun s n m topo b => ⟨execTopology_refused, fun hok hz => ?_, fun hok hz => ?_⟩,
    fun s n m topo b src h0 => ⟨fun hn => congrArg Host.Outcome.next ((if_pos h0).trans (if_pos hn)), fun hn hh => ?_, fun s1 hn hh => ?_⟩⟩
  · exact congrArg Host.Outcome.next ((if_neg (Nat.not_le.mpr ha)).trans (by rw [hn]))
  · exact congrArg Host.Outcome.next ((if_neg (Nat.not_le.mpr ha)).trans (by rw [hh]))
  · cases bad <;> rfl
  · obtain ⟨s', h1, h2, h3⟩ := execReelLaneRetire_port (l := 2) (by rw [hx]; decide) he
    rw [hx, swapLane_spare] at h2 h3
    exact ⟨s', h1, h2, h3⟩
  · obtain ⟨s', h1, h2, h3⟩ := execReelLaneRetire_port (l := l) (by rw [hx]; interval_cases l <;> decide) he
    rw [hx, swapLane_service hl] at h2 h3
    exact ⟨s', h1, h2, h3.trans (if_pos service_left)⟩
  · obtain ⟨s', h1, h2, h3⟩ := execReelLaneRetire_port (l := l) (by rw [hx]; exact lane_in_service hl) he
    rw [hx, swapLane_last hl] at h2 h3
    exact ⟨s', h1, h2, h3⟩
  · obtain ⟨s', h1, h2, h3⟩ := execLaneSwap_port (l := 2) hz (by rw [hx]; decide)
    rw [hx, swapLane_spare] at h2 h3
    exact ⟨s', h1, h2, h3⟩
  · obtain ⟨s', h1, h2, h3⟩ := execLaneSwap_port (l := l) hz (by rw [hx]; interval_cases l <;> decide)
    rw [hx, swapLane_service hl] at h2 h3
    exact ⟨s', h1, h2, h3.trans (if_pos service_left)⟩
  · obtain ⟨s', h1, h2, h3⟩ := execLaneSwap_port (l := l) hz (by rw [hx]; exact lane_in_service hl)
    rw [hx, swapLane_last hl] at h2 h3
    exact ⟨s', h1, h2, h3⟩
  · exact congrArg Host.Outcome.next (if_neg fun hn => h.elim (fun h => by simp [h] at hn) hn.2)
  · exact congrArg Host.Outcome.next ((if_pos ⟨he, hl⟩).trans (if_pos (by simp; omega)))
  · exact linkUp_clause s d he hl hr hn
  · obtain ⟨h1, h2, h3, h4, h5⟩ := promenadeStart_parts s
    exact ⟨_, congrArg Host.Outcome.next (if_pos hr), h1, h2, h3, h4, h5, promenadeStart_alone⟩
  · rw [h0, execPromenade_new h, if_neg hr, if_pos rfl]
  · refine ⟨_, (execPromenade_new h).trans ((if_neg hr).trans ((if_neg (by omega)).trans (congrArg _ (if_pos ha)))), ?_⟩
    rw [(sendEnd_carried _ _).reel, memberFull_reel]
    exact ⟨rfl, rfl, rfl⟩
  · refine ⟨_, (execPromenade_new h).trans ((if_neg hr).trans ((if_neg (by omega)).trans (congrArg _ (if_neg (by omega))))), ?_⟩
    rw [(promenadeForward_carried _ _ _).time, (promenadeForward_carried _ _ _).reel, memberAddressed_reel]
    exact ⟨rfl, rfl, rfl, rfl, memberAddressed_time s a d n⟩
  · refine ⟨_, (execPromenade_new h).trans ((if_pos hr).trans (congrArg _ (if_neg hw))), ?_⟩
    rw [(sendEnd_carried _ _).reel, headConflict_reel]
    exact ⟨rfl, rfl, rfl⟩
  · refine ⟨_, (execPromenade_new h).trans ((if_pos hr).trans (congrArg _ (if_pos ⟨hc, hw⟩))), ?_⟩
    rw [promenadeDone_reel, endTopology_ring]
    exact ⟨rfl, rfl, rfl, rfl⟩
  · rw [execPromenadeEnd_eq, if_pos hz]
  · rw [execPromenadeEnd_eq, if_neg (by simp [hz]), if_pos hr, if_neg (by simp [hw])]
  · refine ⟨_, (execPromenadeEnd_eq s m n).trans (congrArg _ ((if_neg (by simp [hz])).trans ((if_pos hr).trans (if_pos hw)))), ?_⟩
    rw [promenadeDone_reel, endTopology_line]
    refine ⟨rfl, rfl, rfl, rfl, ?_⟩
    rintro rfl
    exact endHeard_conflict s n
  · refine ⟨_, (execPromenadeEnd_eq s m n).trans (congrArg _ ((if_neg (by simp [hz])).trans (if_neg hr))), ?_⟩
    rw [(sendEnd_carried _ _).time, (sendEnd_carried _ _).reel, endHeard_time]
    refine ⟨?_, ?_, rfl, ?_⟩
    · rw [endHeard_reel]
    · rw [endHeard_reel]
    · rintro rfl
      exact endHeard_conflict s n
  · rw [execTopology_ok hok, hz]
  · obtain ⟨s1, hs⟩ := Option.ne_none_iff_exists'.mp hz
    rw [execTopology_ok hok, hs]
    refine ⟨_, rfl, ?_⟩
    rw [(relay_carried (heard_carried hs)).reel, setTopology_reel]
    exact ⟨rfl, rfl, rfl, rfl⟩
  · rw [execTopology_mend h0 hn, hh]
  · rw [execTopology_mend h0 hn, hh]
    refine ⟨_, rfl, rfl, fun ht hb hf => ?_⟩
    obtain ⟨h1, h2⟩ := noteMend_break ht hb
    rw [(relay_carried (heard_carried hh)).reel]
    rw [hf] at h1 h2
    exact ⟨h1, h2⟩

end Sys2Proof.Machine

/-! SUPPORT. Snapshot orders and what a set lead gathers (11 R347, R348). -/

namespace Sys2Proof.Machine
variable {s r q : State}

/-! ## A set lead's gathering (11 R347, R348) -/

theorem raise_reel (s : State) (p b : Nat) : (raise s p b).reel = s.reel := by simp

/-- What gathering answers leaves of the Reel: all but ports, what is gathered and what the issuer has been told. -/
def SetGathered (s r : State) : Prop := r.reel = { s.reel with
  up := r.reel.up, dn := r.reel.dn, gather := r.reel.gather, sets := r.reel.sets, acks := r.reel.acks, gathering := r.reel.gathering
  snapDone := r.reel.snapDone, notCaptured := r.reel.notCaptured }

namespace SetGathered

theorem refl (s : State) : SetGathered s s := rfl

theorem trans (h : SetGathered s r) (g : SetGathered r q) : SetGathered s q := by
  unfold SetGathered at *
  rw [g, h]

variable {s₀ : State}

theorem foldl {α : Type} {f : State → α → State} {l : List α} (hs : SetGathered s₀ s) (hf : ∀ a x, SetGathered s₀ a → SetGathered s₀ (f a x)) :
    SetGathered s₀ (l.foldl f s) := List.foldlRecOn (motive := SetGathered s₀) l f hs fun a h x _ => hf a x h

theorem ite {p : Prop} [Decidable p] {a b : State} (ha : SetGathered s₀ a) (hb : SetGathered s₀ b) : SetGathered s₀ (if p then a else b) := by
  split <;> assumption

end SetGathered

theorem Carried.setGathered (h : Carried s r) : SetGathered s r := by
  unfold SetGathered
  rw [h.reel]

variable {s₀ : State}

theorem sendTo_carried {cls typ dst : Nat} {b : Bytes} (hs : Carried s₀ s) : Carried s₀ (sendTo s cls typ dst b) := by
  unfold sendTo
  split
  · exact putOn_carried hs
  · exact hs

theorem snapFinish_setGathered (hs : SetGathered s₀ s) : SetGathered s₀ (snapFinish s) := hs.trans (by simp [SetGathered, snapFinish])

theorem takeSet_setGathered {lead bell captured : Nat} (hs : SetGathered s₀ s) : SetGathered s₀ (takeSet s lead bell captured) := by
  have h : SetGathered s₀ (s.setReel { s.reel with
      sets := s.reel.sets ++ [lead / 8], acks := s.reel.acks ++ (maskAddrs lead captured).filter (fun a => !s.reel.acks.contains a) }) := hs.trans rfl
  exact .ite hs (.ite (snapFinish_setGathered h) h)

/-- The set's report to its issuers. -/
theorem reportSet_setGathered {bell : Nat} (hs : SetGathered s₀ s) : SetGathered s₀ (reportSet s bell) := by
  unfold reportSet
  split
  · exact hs
  · exact SetGathered.foldl (hs.trans rfl) fun a _ h => .ite (takeSet_setGathered h) (h.trans (sendTo_carried (.refl a)).setGathered)

theorem takeAnswer_setGathered {src bell ans : Nat} (hs : SetGathered s₀ s) : SetGathered s₀ (takeAnswer s src bell ans) := by
  have h {g} : SetGathered s₀ (s.setReel { s.reel with gather := g }) := hs.trans rfl
  unfold takeAnswer
  dsimp only
  split
  · exact .ite (reportSet_setGathered h) h
  · exact h

theorem answerOrder_setGathered {bell ans : Nat} (hs : SetGathered s₀ s) : SetGathered s₀ (answerOrder s bell ans) :=
  .ite (takeAnswer_setGathered hs) (hs.trans (sendTo_carried (.refl s)).setGathered)

theorem beginGather_eq (s : State) (bell i : Nat) :
    beginGather s bell i = s.setReel { s.reel with gather := (beginGather s bell i).reel.gather } := by
  unfold beginGather
  split
  · rfl
  · split <;> rfl

/-! ## Snapshot orders (11 R347) -/

theorem takeOrder_rest (s : State) (b i : Nat) : (takeOrder s b i).time = s.time ∧ (takeOrder s b i).mtr = s.mtr := by
  have hg := beginGather_eq s b i
  have ht : (beginGather s b i).time = s.time := by rw [hg]; rfl
  have hm : (beginGather s b i).mtr = s.mtr := by rw [hg]; rfl
  have ha {x : Reel} {n : Nat} : (answerOrder ((beginGather s b i).setReel x) b n).time = s.time ∧
      (answerOrder ((beginGather s b i).setReel x) b n).mtr = s.mtr := by
    have h := answerOrder_sent (bell := b) (ans := n) (.refl ((beginGather s b i).setReel x))
    exact ⟨h.time.trans ht, h.mtr.trans hm⟩
  unfold takeOrder
  dsimp only
  split
  · exact ha
  · split
    · exact ⟨ht, hm⟩
    · split
      · exact ⟨ht, hm⟩
      · exact ha (x := (beginGather s b i).reel)

theorem takeOrder_late {b i : Nat} (h : timeKnown s = true ∧ b ≤ s.time.bell) :
    (takeOrder s b i).reel.order = s.reel.order ∧ (takeOrder s b i).reel.localLate = true := by
  have he : takeOrder s b i = answerOrder ((beginGather s b i).setReel { (beginGather s b i).reel with localLate := true }) b 1 := if_pos h
  have hg : SetGathered ((beginGather s b i).setReel { (beginGather s b i).reel with localLate := true }) (takeOrder s b i) := by
    rw [he]
    exact answerOrder_setGathered (.refl _)
  have ho : (beginGather s b i).reel.order = s.reel.order := by rw [beginGather_eq]; rfl
  rw [hg]
  exact ⟨ho, rfl⟩

theorem takeOrder_first {b i : Nat} (h : ¬ (timeKnown s = true ∧ b ≤ s.time.bell)) (ho : s.reel.order = none) :
    (takeOrder s b i).reel.order = some (b, [i]) ∧ (takeOrder s b i).reel.snapBell = b := by
  have he : takeOrder s b i = (beginGather s b i).setReel
    { (beginGather s b i).reel with order := some (b, [i]), snapBell := b, localLate := false } := by
    unfold takeOrder
    rw [if_neg h, ho]
  rw [he]
  exact ⟨rfl, rfl⟩

theorem takeOrder_joins {b i : Nat} {l : List Nat} (h : ¬ (timeKnown s = true ∧ b ≤ s.time.bell)) (ho : s.reel.order = some (b, l)) :
    (takeOrder s b i).reel.order = some (b, if i ∈ l then l else l ++ [i]) := by
  have he : takeOrder s b i = (beginGather s b i).setReel
    { (beginGather s b i).reel with order := some (b, if l.contains i then l else l ++ [i]) } := by
    unfold takeOrder
    rw [if_neg h, ho]
    exact if_pos rfl
  rw [he]
  exact congrArg (fun x => some (b, x)) (if_congr List.contains_iff_mem rfl rfl)

theorem takeOrder_busy {b i x : Nat} {l : List Nat} (h : ¬ (timeKnown s = true ∧ b ≤ s.time.bell)) (ho : s.reel.order = some (x, l)) (hx : x ≠ b) :
    (takeOrder s b i).reel.order = s.reel.order := by
  have he : takeOrder s b i = answerOrder (beginGather s b i) b 2 := by
    unfold takeOrder
    rw [if_neg h, ho]
    exact if_neg hx
  have hg : SetGathered (beginGather s b i) (takeOrder s b i) := by
    rw [he]
    exact answerOrder_setGathered (.refl _)
  rw [hg]
  show (beginGather s b i).reel.order = _
  rw [beginGather_eq]
  rfl

/-! ### The answers that an issuer and a set lead take -/

theorem takeSet_refused {lead b n : Nat} (h : s.reel.gathering = false ∨ s.reel.issued ≠ b ∨ lead / 8 ∈ s.reel.sets) : takeSet s lead b n = s := by
  refine if_pos ?_
  rcases h with h | h | h <;> simp [h]

theorem mem_maskAddrs {lead mask a : Nat} (h : a ∈ maskAddrs lead mask) : lead ≤ a ∧ a < lead + 8 := by
  obtain ⟨i, hi, rfl⟩ := List.mem_map.mp h
  have := List.mem_range.mp (List.mem_filter.mp hi).1
  omega

theorem takeSet_taken {lead b n : Nat} (hl : lead % 8 = 0) (hg : s.reel.gathering = true) (hi : s.reel.issued = b) (hs : lead / 8 ∉ s.reel.sets) :
    (takeSet s lead b n).reel.sets = s.reel.sets ++ [lead / 8] ∧
    (takeSet s lead b n).reel.gathering = decide (s.reel.sets.length + 1 < ceilDiv s.reel.count 8) ∧
    ∀ a ∈ (takeSet s lead b n).reel.acks, a ∈ s.reel.acks ∨ (8 * (lead / 8) ≤ a ∧ a < 8 * (lead / 8) + 8) := by
  have hacks : ∀ a ∈ s.reel.acks ++ (maskAddrs lead n).filter (fun a => !s.reel.acks.contains a),
      a ∈ s.reel.acks ∨ (8 * (lead / 8) ≤ a ∧ a < 8 * (lead / 8) + 8) := by
    intro a ha
    rcases List.mem_append.mp ha with ha | ha
    · exact .inl ha
    · have := mem_maskAddrs (List.mem_filter.mp ha).1
      exact .inr (by omega)
  unfold takeSet
  rw [if_neg (by simp [hg, hi, hs])]
  dsimp only
  split
  · next hc =>
    simp only [State.setReel_reel, List.length_append, List.length_singleton] at hc
    simp only [snapFinish, raise_reel, State.setReel_reel]
    exact ⟨trivial, (decide_eq_false (by omega)).symm, hacks⟩
  · next hc =>
    simp only [State.setReel_reel, List.length_append, List.length_singleton] at hc
    exact ⟨rfl, hg.trans (decide_eq_true (by omega)).symm, hacks⟩

/-- After its report a set lead has forgotten the order. -/
theorem reportSet_forgets (s : State) (b : Nat) : ∀ g ∈ (reportSet s b).reel.gather, g.1 ≠ b := by
  have take {a : State} {lead captured : Nat} : (takeSet a lead b captured).reel.gather = a.reel.gather := by
    unfold takeSet
    split
    · rfl
    · dsimp only
      split <;> simp [snapFinish]
  unfold reportSet
  split
  · next h =>
    intro g hg hb
    exact absurd (List.find?_eq_none.mp h g hg) (by simp [hb])
  · have h0 : ∀ g ∈ s.reel.gather.filter (fun g => g.1 != b), g.1 ≠ b := fun g hg => by simpa using (List.mem_filter.mp hg).2
    refine List.foldlRecOn (motive := fun a : State => ∀ g ∈ a.reel.gather, g.1 ≠ b) _ _ h0 fun a h x _ => ?_
    split
    · rwa [take]
    · rwa [(sendTo_carried (.refl a)).reel]

end Sys2Proof.Machine

/-! SUPPORT. The phases of a clone, and its destination (11 R351, R352). -/

namespace Sys2Proof.Machine
variable {s r q : State}

/-! ## A clone's phases leave the Dome and the ceremony (11 R351, R352) -/

/-- The Dome and the ceremony stand. -/
structure KeepsDomain (s r : State) : Prop where
  dome : r.dome = s.dome
  cer : r.cus.cer = s.cus.cer

namespace KeepsDomain

theorem refl (s : State) : KeepsDomain s s := ⟨rfl, rfl⟩

theorem trans (h : KeepsDomain s r) (g : KeepsDomain r q) : KeepsDomain s q := ⟨g.dome.trans h.dome, g.cer.trans h.cer⟩

end KeepsDomain

theorem EndsCalls.keepsDomain (h : EndsCalls s r) : KeepsDomain s r := ⟨h.dome, h.cer⟩

theorem Sent.keepsDomain (h : Sent s r) : KeepsDomain s r := ⟨h.dome, by rw [h.cus]⟩

variable {s₀ : State}

theorem setTower_keepsDomain {t : Nat} {w : Tower} (hs : KeepsDomain s₀ s) : KeepsDomain s₀ (s.setTower t w) := hs.trans ⟨rfl, rfl⟩

theorem modWork_keepsDomain {t c : Nat} {f : Work → Work} (hs : KeepsDomain s₀ s) : KeepsDomain s₀ (modWork s t c f) := hs.trans ⟨rfl, rfl⟩

theorem setNeeds_keepsDomain {t c : Nat} {n : List Need} (hs : KeepsDomain s₀ s) : KeepsDomain s₀ (setNeeds s t c n) :=
  hs.trans ⟨by simp [setNeeds, State.setCtx], by simp [setNeeds, State.setCtx]⟩

theorem finishFree_keepsDomain {t c st : Nat} {b : Bytes} (hs : KeepsDomain s₀ s) : KeepsDomain s₀ (finishFree s t c st b) := by
  have h : KeepsDomain s s.takeFree.1 := ⟨rfl, rfl⟩
  exact hs.trans (h.trans (finishCall_endsCalls s.takeFree.1 t c st _ 0 b).keepsDomain)

theorem deviceFault_keepsDomain {t c : Nat} (hs : KeepsDomain s₀ s) : KeepsDomain s₀ (deviceFault s t c) :=
  hs.trans (deviceFault_endsCalls s t c).keepsDomain

theorem loadHalf_keepsDomain {t c : Nat} {ops : List (Nat × Nat)} (hs : KeepsDomain s₀ s) : KeepsDomain s₀ (loadHalf s t c ops) := by
  unfold loadHalf
  dsimp only
  split
  · exact hs
  · exact modWork_keepsDomain (setTower_keepsDomain hs)

theorem spPart_keepsDomain {prog : List SpStep} {job count : Bool} {t c : Nat} (hs : KeepsDomain s₀ s) :
    KeepsDomain s₀ (spPart prog job count t c s).1 := by
  unfold spPart
  extract_lets w x k p b y cmd
  dsimp only
  split
  · exact hs.trans ⟨rfl, rfl⟩
  · exact hs.trans ⟨rfl, rfl⟩

/-- A phase's commands, and what it does at their end. -/
theorem clonePart_keepsDomain {t c : Nat} {prog : List SpStep} {ops : List (Nat × Nat)} {f : State → State} (hs : KeepsDomain s₀ s)
    (hf : ∀ a, KeepsDomain s₀ a → KeepsDomain s₀ (f a)) : KeepsDomain s₀ (clonePart s t c prog ops f) := by
  have h := spPart_keepsDomain (prog := prog) (job := true) (count := false) (t := t) (c := c)
    (loadHalf_keepsDomain (t := t) (c := c) (ops := ops) hs)
  unfold clonePart
  dsimp only
  split
  · exact finishFree_keepsDomain h
  · split
    · exact h
    · exact hf _ (modWork_keepsDomain h)

theorem cloneHelloStep_keepsDomain {t c : Nat} {cer : Ceremony} : KeepsDomain s (cloneHelloStep t c cer s) := by
  unfold cloneHelloStep
  dsimp only
  split
  · exact deviceFault_keepsDomain (.refl s)
  · refine clonePart_keepsDomain (.refl s) fun a h => setNeeds_keepsDomain ?_
    exact (setTower_keepsDomain (modWork_keepsDomain h)).trans (sendTo_sent (.refl _)).keepsDomain

/-- The first phase, where the checks pass. -/
theorem cloneStep_first {t c : Nat} (hp : (s.ctx t c).work.phase = 0) (hk : cloneParams s ((s.ctx t c).call.getD {}) (workDesc s t c) = none) :
    KeepsDomain s (cloneStep t c s) := by
  have hc : clonePhase s (s.ctx t c).work.phase ((s.ctx t c).call.getD {}) (workDesc s t c) = none := by
    rw [clonePhase, if_pos (.inl hp), hk]
  unfold cloneStep
  rw [if_neg (by rw [hp]; decide), hc]
  cases cerOf s t c with
  | none => exact .refl s
  | some cer =>
    simp only [hp]
    exact cloneHelloStep_keepsDomain

theorem cloneStep_gone {t c : Nat} (hp : (s.ctx t c).work.phase = 9) : cloneStep t c s = finishFree s t c stReelUnreach [] := if_pos hp

theorem cloneStep_refused {t c st : Nat} (hp : (s.ctx t c).work.phase = 0) (hs : (s.ctx t c).work.sp = 0)
    (hk : cloneParams s ((s.ctx t c).call.getD {}) (workDesc s t c) = some st) : cloneStep t c s = finishCall s t c st 39 0 [] := by
  have hc : clonePhase s (s.ctx t c).work.phase ((s.ctx t c).call.getD {}) (workDesc s t c) = some st := by
    rw [clonePhase, if_pos (.inl hp), hk]
  unfold cloneStep
  rw [if_neg (by rw [hp]; decide), hc]
  exact if_pos ⟨hp, hs⟩

/-- The last phase, where CLONE_DONE agrees with what was sent. -/
theorem cloneStep_done {t c : Nat} (hp : (s.ctx t c).work.phase = 3) (hk : cloneCeremony s ((s.ctx t c).call.getD {}) (workDesc s t c) = none)
    (h0 : byteAt (s.ctx t c).work.blob 0 = 0)
    (hv : sub (s.ctx t c).work.blob 2 3 = kcvAes ((cloneDmk s (workDesc s t c)).getD [])) :
    cloneStep t c s = if cerOf s t c = none then s
      else finishFree (closeCer s t c 6) t c stOk (sub (s.ctx t c).work.blob 2 3 ++ sub (s.ctx t c).work.blob 1 1) := by
  have hc : clonePhase s (s.ctx t c).work.phase ((s.ctx t c).call.getD {}) (workDesc s t c) = none := by
    rw [clonePhase, if_neg (by omega), hk]
  unfold cloneStep
  rw [if_neg (by rw [hp]; decide), hc]
  cases cerOf s t c with
  | none => rfl
  | some cer =>
    simp only [hp]
    exact (if_neg (fun h => h h0)).trans (if_neg (fun h => h hv))

/-! ## The destination (11 R352) -/

theorem takeHello_dome (src : Nat) (b : Bytes) (s : State) : (takeHello src b s).dome = s.dome := by
  have hd {a : State} {x : Bytes} : (sendTo a 2 0x23 src x).dome = a.dome := (sendTo_sent (.refl a)).dome
  unfold takeHello
  split
  · rfl
  · split
    · exact hd
    · dsimp only
      split
      · exact hd
      · split
        · exact hd
        · exact hd

theorem receiveCer_congr (h : r.cus = s.cus) : receiveCer r = receiveCer s := by rw [receiveCer, receiveCer, h]

theorem takeCloneKey_none {src : Nat} {b : Bytes} (h : ∀ x, s.reel.session = some x → x.src ≠ src) : takeCloneKey src b s = s := by
  have hf : s.reel.session.filter (fun x => x.src == src) = none := by
    cases hs : s.reel.session with
    | none => rfl
    | some x => simpa [Option.filter] using h x hs
  simp only [takeCloneKey, hf]

/-- The session that the key ends. -/
theorem takeCloneKey_session {src : Nat} {b : Bytes} {x : Session} (hs : s.reel.session = some x) (hx : x.src = src) :
    (takeCloneKey src b s).reel.session = none ∧ (s.dome.cur ≠ none → (takeCloneKey src b s).dome.cur = s.dome.cur) ∧
    (cloneUnwrap s x b = none → (takeCloneKey src b s).dome = s.dome) := by
  have hf : s.reel.session.filter (fun y => y.src == src) = some x := by simp [hs, hx]
  have send {a : State} {y : Bytes} : (sendTo a 2 0x25 src y).dome = a.dome := (sendTo_sent (.refl a)).dome
  have ses {a : State} {y : Bytes} : (sendTo a 2 0x25 src y).reel.session = a.reel.session := by rw [(sendTo_carried (.refl a)).reel]
  unfold takeCloneKey
  rw [hf]
  dsimp only
  split
  · rw [send, ses]
    exact ⟨rfl, fun _ => rfl, fun _ => rfl⟩
  · split
    · rw [send, ses]
      exact ⟨rfl, fun _ => rfl, fun _ => rfl⟩
    · next hu =>
      split
      · rw [send, ses]
        exact ⟨rfl, fun _ => rfl, fun _ => rfl⟩
      · rw [send, ses, closeCeremony_dome, (closeCeremony_parts _ 6).2.1]
        refine ⟨by simp, fun hc => ?_, fun hn => by rw [hu] at hn; cases hn⟩
        have hsome : s.dome.cur.isSome = true := Option.isSome_iff_ne_none.mpr hc
        simp [hsome]

end Sys2Proof.Machine

/-! SUPPORT. Mailbox words, snapshot orders and clones: the statement. -/

namespace Sys2Proof.Machine
variable {s r q : State}

/-! ## Messages that arrive (11 R328, R330) -/

theorem receive_unheard {h : Hdr} {cls typ : Nat} {b : Bytes} {f : State → State} (hh : heard s h cls = none) :
    receive s h cls typ b f = (hears s h cls).1 := by
  simp only [receive, hh]

theorem receive_forwards {h : Hdr} {cls typ : Nat} {b : Bytes} {f : State → State} {s1 : State} (hh : heard s h cls = some s1)
    (ha : h.dst ≠ s1.reel.addr) (hb : h.dst ≠ 0xFFFF) : receive s h cls typ b f = forward s1 h cls typ b := by
  simp only [receive, hh, if_neg ha, if_neg hb]

theorem receive_all {h : Hdr} {cls typ : Nat} {b : Bytes} {f : State → State} {s1 : State} (hh : heard s h cls = some s1)
    (hb : h.dst = 0xFFFF) (ha : s1.reel.addr ≠ 0xFFFF) : receive s h cls typ b f = f (relay s1 typ h.src b (cameBy s1 h)) := by
  simp only [receive, hh, if_neg (fun e : h.dst = s1.reel.addr => ha (e.symm.trans hb)), if_pos hb]

/-- A command that is the arrival of a message. -/
theorem receive_clause {i : Instr} {h : Hdr} {cls typ : Nat} {b : Bytes} {f : State → State} (he : exec i s = .next (receive s h cls typ b f)) :
    (heard s h cls = none → exec i s = .next (hears s h cls).1) ∧
    (∀ s1, heard s h cls = some s1 → h.dst ≠ s1.reel.addr → h.dst ≠ 0xFFFF → exec i s = .next (forward s1 h cls typ b)) :=
  ⟨fun hn => he.trans (congrArg _ (receive_unheard hn)), fun _ hh ha hb => he.trans (congrArg _ (receive_forwards hh ha hb))⟩

/-! ## The source's calls (11 R346, R349, R351) -/

theorem reelSend_unreached {t c : Nat} (h : portTo s (leAt (workDesc s t c) 64 2) = none) : reelSend t c s = finishCall s t c stReelUnreach 39 0 [] :=
  if_pos (Option.isNone_iff_eq_none.mpr h)

theorem reelSend_waits {t c : Nat} (h : portTo s (leAt (workDesc s t c) 64 2) ≠ none) (hc : hasCredit s 1 (leAt (workDesc s t c) 64 2) = false) :
    reelSend t c s = setNeeds s t c [.credit 1] := (if_neg (fun e => h (Option.isNone_iff_eq_none.mp e))).trans (if_pos (by rw [hc]; rfl))

theorem reelSend_sent {t c : Nat} (h : portTo s (leAt (workDesc s t c) 64 2) ≠ none) (hc : hasCredit s 1 (leAt (workDesc s t c) 64 2) = true) :
    reelSend t c s = finishCall (sendTo s 1 0x10 (leAt (workDesc s t c) 64 2) (sub (workDesc s t c) 68 4 ++ zeros 4)) t c stOk 36 0 [] :=
  (if_neg (fun e => h (Option.isNone_iff_eq_none.mp e))).trans (if_neg (by rw [hc]; exact Bool.false_ne_true))

theorem reelSnapshot_waits {t c : Nat} (hc : hasCredit s 0 0xFFFF = false) : reelSnapshot t c s = setNeeds s t c [.credit 0] :=
  if_pos (by rw [hc]; rfl)

theorem reelSnapshot_sent {t c : Nat} (hc : hasCredit s 0 0xFFFF = true) : reelSnapshot t c s = finishCall (broadcast (takeOrder
      (s.setReel { s.reel with gathering := true, snapDone := false, issued := leAt (workDesc s t c) 64 8, acks := [], sets := [] })
      (leAt (workDesc s t c) 64 8) s.reel.addr) 0x07 (leBytes 8 (leAt (workDesc s t c) 64 8) ++ leBytes 2 s.reel.addr)) t c stOk 37 0
    (leBytes 8 (leAt (workDesc s t c) 64 8)) := if_neg (by rw [hc]; exact Bool.false_ne_true)

theorem execReelReplyTimeout_early {t c : Nat} (h : firstNeed s t c ≠ some .reel ∨ (s.ctx t c).age < 2 ^ 30) :
    exec (.reelReplyTimeout t c) s = .next s := if_pos h

theorem execReelReplyTimeout_late {t c : Nat} (hn : firstNeed s t c = some .reel) (ha : 2 ^ 30 ≤ (s.ctx t c).age) :
    exec (.reelReplyTimeout t c) s = .next (if opOf (workDesc s t c) = 0x0A03 then sealWaiters (s.vault.awaiting.foldl (witnessAnswer false) s)
      else finishFree s t c stReelUnreach []) :=
  (if_neg (fun h => h.elim (· hn) (Nat.not_lt.mpr ha))).trans (apply_ite Host.Outcome.next ..).symm

/-! ## The destination's messages -/

theorem takeWord_eq {src : Nat} {v w : Word} {f : Bool} {dr : Nat} (h : tblGet ((0 : Word), false, 0) s.reel.mbox src = (w, f, dr)) :
    takeWord src v s = if f then s.setReel { s.reel with mbox := tblSet ((0 : Word), false, 0) s.reel.mbox src (w, true, satAdd 8 dr 1) }
      else raise (s.setReel { s.reel with mbox := tblSet ((0 : Word), false, 0) s.reel.mbox src (v, true, dr) }) pgReel 1 := by
  simp only [takeWord, h]

theorem takeHello_busy {src : Nat} {b : Bytes} (h : s.reel.session ≠ none) : takeHello src b s = s := if_pos (Option.isSome_iff_ne_none.mpr h)

theorem takeHello_uncalled {src : Nat} {b : Bytes} (h : s.reel.session = none) (hr : receiveCer s = none) :
    takeHello src b s = sendTo s 2 0x23 src [1] := by
  unfold takeHello
  rw [if_neg (by rw [h]; exact Bool.false_ne_true), hr]

theorem takeCloneDone_none {src : Nat} {b : Bytes} (h : cloneCtx s src 3 = none) : takeCloneDone src b s = s := by simp only [takeCloneDone, h]

theorem takeCloneDone_some {src t c : Nat} {b : Bytes} (h : cloneCtx s src 3 = some (t, c)) :
    takeCloneDone src b s = popNeed (modWork s t c (fun w => { w with blob := b })) t c := by simp only [takeCloneDone, h]

theorem takeCloneReply_some {src t c : Nat} {b : Bytes} (h : cloneCtx s src 1 = some (t, c)) :
    takeCloneReply src b s = popNeed (modWork s t c (fun w => { w with blob := b })) t c := by simp only [takeCloneReply, h]

/-! ## The statement -/

theorem source_clause (s₀ : State) (t c : Nat) :
    let s := pastYield s₀ t c
    let d := workDesc s t c
    let dst := leAt d 64 2
    let bell := leAt d 64 8
    let k := (s.ctx t c).call.getD {}
    (atFigure s₀ t c 0x0D02 = true →
      (portTo s dst = none → exec (.reelSend t c .none) s₀ = .next (finishCall s t c stReelUnreach 39 0 [])) ∧
      (portTo s dst ≠ none → hasCredit s 1 dst = false → exec (.reelSend t c .none) s₀ = .next (setNeeds s t c [.credit 1])) ∧
      (portTo s dst ≠ none → hasCredit s 1 dst = true → exec (.reelSend t c .none) s₀ =
        .next (finishCall (sendTo s 1 0x10 dst (sub d 68 4 ++ zeros 4)) t c stOk 36 0 []))) ∧
    (atFigure s₀ t c 0x0D03 = true →
      (hasCredit s 0 0xFFFF = false → exec (.reelSnapshot t c .none) s₀ = .next (setNeeds s t c [.credit 0])) ∧
      (hasCredit s 0 0xFFFF = true →
        let s0 : State := { s with reel := { s.reel with gathering := true, snapDone := false, issued := bell, acks := [], sets := [] } }
        exec (.reelSnapshot t c .none) s₀ = .next (finishCall (broadcast (takeOrder s0 bell s.reel.addr) 0x07
          (leBytes 8 bell ++ leBytes 2 s.reel.addr)) t c stOk 37 0 (leBytes 8 bell)))) ∧
    (atFigure s₀ t c 0x0D01 = true → (s.ctx t c).work.phase = 9 →
      exec (.reelCloneDomain t c .none) s₀ = .next (finishFree s t c stReelUnreach [])) ∧
    (atFigure s₀ t c 0x0D01 = true → (s.ctx t c).work.phase = 0 → (s.ctx t c).work.sp = 0 →
      (∀ st, cloneParams s k d = some st → exec (.reelCloneDomain t c .none) s₀ = .next (finishCall s t c st 39 0 [])) ∧
      (cloneParams s k d = none → ∃ s', exec (.reelCloneDomain t c .none) s₀ = .next s' ∧ s'.dome = s.dome ∧ s'.cus.cer = s.cus.cer)) ∧
    (atFigure s₀ t c 0x0D01 = true → (s.ctx t c).work.phase = 3 → cloneCeremony s k d = none →
      let b := (s.ctx t c).work.blob
      byteAt b 0 = 0 → sub b 2 3 = kcvAes ((cloneDmk s d).getD []) → exec (.reelCloneDomain t c .none) s₀ =
        .next (if cerOf s t c = none then s else finishFree (closeCer s t c 6) t c stOk (sub b 2 3 ++ sub b 1 1))) ∧
    (firstNeed s₀ t c ≠ some .reel ∨ (s₀.ctx t c).age < 2 ^ 30 → exec (.reelReplyTimeout t c) s₀ = .next s₀) ∧
    (firstNeed s₀ t c = some .reel → 2 ^ 30 ≤ (s₀.ctx t c).age → exec (.reelReplyTimeout t c) s₀ =
      .next (if opOf (workDesc s₀ t c) = 0x0A03 then sealWaiters
        (s₀.vault.awaiting.foldl (witnessAnswer false) s₀) else finishFree s₀ t c stReelUnreach [])) := by
  have fig {i : Instr} {op : Nat} {f : State → State} {a : State} (he : exec i s₀ = .next (runFigure s₀ t c op .none f))
      (h : atFigure s₀ t c op = true) (hf : f (pastYield s₀ t c) = a) : exec i s₀ = .next a :=
    he.trans (congrArg _ ((runFigure_at h f).trans hf))
  refine ⟨fun h => ⟨fun hp => fig rfl h (reelSend_unreached hp), fun hp hc => fig rfl h (reelSend_waits hp hc),
    fun hp hc => fig rfl h (reelSend_sent hp hc)⟩,
    fun h => ⟨fun hc => fig rfl h (reelSnapshot_waits hc), fun hc => fig rfl h (reelSnapshot_sent hc)⟩, fun h hp => fig rfl h (cloneStep_gone hp),
    fun h hp hs => ⟨fun st hk => fig rfl h (cloneStep_refused hp hs hk), fun hk => ?_⟩, fun h hp hk h0 hv => fig rfl h (cloneStep_done hp hk h0 hv),
    execReelReplyTimeout_early, execReelReplyTimeout_late⟩
  have hd := cloneStep_first hp hk
  exact ⟨_, fig rfl h rfl, hd.dome, hd.cer⟩

/-- Settles O8. A message that is taken leaves all of the Reel but the port it came by; each answer is then one function of the state in which it
was heard. -/
theorem reelWordsSnapshotsAndClones : Obligations.ReelWordsSnapshotsAndClones := by
  refine ⟨source_clause, fun s b i => ⟨(takeOrder_rest s b i).1, (takeOrder_rest s b i).2, takeOrder_late, fun h => ⟨takeOrder_first h,
      fun l hl => takeOrder_joins h hl, fun x l hl hx => takeOrder_busy h hl hx⟩⟩,
    fun s h b n k i v pl e he => ?_, fun s s1 h b n k v pl => ?_, fun s b => ⟨fun h => ?_, fun ht hb => ?_⟩, fun s => ⟨?_, ?_⟩⟩
  · simp only [List.mem_cons, List.not_mem_nil, or_false] at he
    rcases he with rfl | rfl | rfl | rfl | rfl | rfl | rfl | rfl | rfl | rfl | rfl | rfl | rfl <;> exact receive_clause rfl
  · have here {i : Instr} {cls typ : Nat} {m : Bytes} {f : State → State} {a : State} (he : exec i s = .next (receive s h cls typ m f))
        (hh : heard s h cls = some s1 ∧ h.dst = s1.reel.addr) (hf : f s1 = a) : exec i s = .next a :=
      he.trans (congrArg _ ((receive_here hh.1 hh.2 typ m f).trans hf))
    have reel {cls : Nat} (hh : heard s h cls = some s1) : s1.reel = { s.reel with up := s1.reel.up, dn := s1.reel.dn } := (heard_carried hh).reel
    refine ⟨fun w f dr hh ht => here rfl hh (takeWord_eq ht), fun hh hb ha => congrArg Host.Outcome.next (receive_all hh hb ha),
      fun hh hn => here rfl hh (if_neg ?_), fun hh h8 hl => ⟨_, here rfl hh (if_pos ⟨by simp [isLead, h8], hl⟩), ?_⟩, fun hh hn => here rfl hh ?_,
      fun hh hm h8 hg hi hs => ⟨_, here rfl hh (if_pos ⟨hm, h8⟩), ?_⟩, fun hh hs => here rfl hh (takeHello_busy ?_),
      fun hh hs hr => here rfl hh (takeHello_uncalled ?_ ?_), fun hh hs => ⟨_, here rfl hh rfl, ?_⟩, fun hh hx => here rfl hh (takeCloneKey_none ?_),
      fun x hh hs hx => ⟨_, here rfl hh rfl, ?_⟩, fun hh hn => here rfl hh (takeCloneDone_none hn),
        fun t c hh hc => here rfl hh (takeCloneDone_some hc),
      fun t c hh hc => here rfl hh (takeCloneReply_some hc)⟩
    · rintro ⟨h8, hl⟩
      exact hn.elim (fun h => h (by simpa [isLead] using h8)) fun h => h hl
    · have hs := (heard_sent hh.1).trans (takeAnswer_sent (src := h.src) (bell := b) (ans := n) (.refl s1))
      exact ⟨hs.order, hs.mtr, hs.time⟩
    · split
      · exact takeSet_refused (by rw [reel hh.1]; exact hn)
      · rfl
    · have h := takeSet_taken (s := s1) (lead := h.src) (b := b) (n := n) h8 (by rw [reel hh.1]; exact hg) (by rw [reel hh.1]; exact hi)
        (by rw [reel hh.1]; exact hs)
      have hsets : s1.reel.sets = s.reel.sets := by rw [reel hh.1]
      have hacks : s1.reel.acks = s.reel.acks := by rw [reel hh.1]
      have hcount : s1.reel.count = s.reel.count := by rw [reel hh.1]
      rwa [hsets, hacks, hcount] at h
    · rw [reel hh.1]
      exact hs
    · rw [reel hh.1]
      exact hs
    · rw [receiveCer_congr (heard_sent hh.1).cus]
      exact hr
    · exact (takeHello_dome ..).trans (heard_sent hh.1).dome
    · rw [reel hh.1]
      exact hx
    · have h := takeCloneKey_session (b := pl) (s := s1) (x := x) (by rw [reel hh.1]; exact hs) hx
      rwa [(heard_sent hh.1).dome] at h
  · refine congrArg Host.Outcome.next (if_neg fun hn => ?_)
    rcases h with h | h
    · simp [h] at hn
    · exact Nat.not_lt.mpr hn.2 h
  · exact ⟨_, congrArg Host.Outcome.next (if_pos ⟨ht, hb⟩), reportSet_forgets s b, (reportSet_sent (.refl s)).order⟩
  · rfl
  · rfl

end Sys2Proof.Machine

/-! SUPPORT. What the ends of calls leave of the custody registers; the ceremony of a call (14 R406 to R413). -/

namespace Sys2Proof.Machine
variable {s r q : State}

/-! ## What the ends of calls leave of the custody registers -/

/-- Only the card ports of the custody registers can differ. -/
def KeepsCustody (s r : State) : Prop := ∃ a p, r.cus = { s.cus with active := a, pins := p }

namespace KeepsCustody

theorem of_eq (h : r.cus = s.cus) : KeepsCustody s r := ⟨_, _, h⟩

theorem refl (s : State) : KeepsCustody s s := .of_eq rfl

theorem trans (h : KeepsCustody s r) (g : KeepsCustody r q) : KeepsCustody s q := by
  obtain ⟨_, _, h⟩ := h
  obtain ⟨a, p, g⟩ := g
  exact ⟨a, p, by rw [g, h]⟩

theorem cer (h : KeepsCustody s r) : r.cus.cer = s.cus.cer := by
  obtain ⟨_, _, h⟩ := h
  rw [h]

theorem rejects (h : KeepsCustody s r) : r.cus.rejects = s.cus.rejects := by
  obtain ⟨_, _, h⟩ := h
  rw [h]

theorem lastClose (h : KeepsCustody s r) : r.cus.lastClose = s.cus.lastClose := by
  obtain ⟨_, _, h⟩ := h
  rw [h]

end KeepsCustody

theorem setActive_keepsCustody (s : State) (p : Nat) (on : Bool) : KeepsCustody s (setActive s p on) := by
  unfold setActive
  extract_lets x was l
  by_cases hs : (!on && !was) = true
  · exact .of_eq (congrArg State.cus (if_pos hs))
  · by_cases hp : p = 1
    · exact ⟨_, _, by rw [if_neg hs, if_pos hp]; rfl⟩
    · exact ⟨_, _, by rw [if_neg hs, if_neg hp]; rfl⟩

theorem cardsOff_keepsCustody (s : State) : KeepsCustody s (cardsOff s) :=
  (setActive_keepsCustody ..).trans (setActive_keepsCustody ..)

theorem leaveCard_keepsCustody (s : State) (t c : Nat) : KeepsCustody s (leaveCard s t c) := by
  unfold leaveCard
  split
  · exact setActive_keepsCustody ..
  · exact .refl s

theorem endCtx_keepsCustody (s : State) (t c : Nat) (st : CtxState) : KeepsCustody s (endCtx s t c st) := leaveCard_keepsCustody s t c

theorem bookKeys_keepsCustody (s : State) (t c st : Nat) : KeepsCustody s (bookKeys s t c st) :=
  bookKeys_keeps (P := KeepsCustody s) t c st (.refl s) fun _ _ h => h.trans (.of_eq rfl)

theorem finishCore_keepsCustody (s : State) (t c st table sp : Nat) (b : Bytes) : KeepsCustody s (finishCore s t c st table sp b) := by
  simp only [finishCore]
  split
  · exact .refl s
  next k _ =>
    have hz : KeepsCustody s (if st = stOk ∨ st = stSuspended then s else zeroOut s t c k.fn (s.ctx t c).work) := by
      split
      · exact .refl s
      · exact .of_eq (by simp)
    have ho (a : State) (x : Ctx) (path spire : Nat) (l : Bytes) : KeepsCustody a (handoff (chargeOutcome a x k st path spire) k l) :=
      .of_eq (by simp)
    exact ((hz.trans (bookKeys_keepsCustody ..)).trans (ho ..)).trans (endCtx_keepsCustody ..)

theorem finishWaiter_keepsCustody (s : State) (w : Option (Nat × Nat)) (st : Nat) : KeepsCustody s (finishWaiter s w st) := by
  cases w with
  | none => exact .refl s
  | some w => exact finishCore_keepsCustody ..

theorem jobEnded_keepsCustody (s : State) (j : Option Job) : KeepsCustody s (jobEnded s j) := by
  cases j with
  | none => exact .refl s
  | some j =>
    have hd : KeepsCustody s (dropJob s j) := .of_eq rfl
    exact (hd.trans (finishWaiter_keepsCustody ..)).trans (finishWaiter_keepsCustody ..)

theorem finishCall_keepsCustody (s : State) (t c st table sp : Nat) (b : Bytes) : KeepsCustody s (finishCall s t c st table sp b) :=
  (finishCore_keepsCustody ..).trans (jobEnded_keepsCustody ..)

theorem finishFree_keepsCustody (s : State) (t c st : Nat) (b : Bytes) : KeepsCustody s (finishFree s t c st b) :=
  (show KeepsCustody s s.takeFree.1 from .of_eq rfl).trans (finishCall_keepsCustody ..)

/-! ## The ceremony that a call is judged by (14 R406, R413) -/

theorem closeCeremony_lastClose {how : Nat} {x : Ceremony} (h : s.cus.cer = some x) : (closeCeremony s how).cus.lastClose = how := by
  rw [closeCeremony, if_neg (by simp [h])]
  simp

theorem closeCeremony_rejects (s : State) (how : Nat) : (closeCeremony s how).cus.rejects = s.cus.rejects := by
  unfold closeCeremony
  split
  · rfl
  · simpa using (cardsOff_keepsCustody s).rejects

theorem closeCer_now {t c how : Nat} (h : cerLate s t c = false) : closeCer s t c how = closeCeremony s how := by simp [closeCer, h]

/-- What a call is judged by depends on the contexts, the transition and the ceremonies alone. -/
theorem cerOf_congr {t c : Nat} (ht : r.towers = s.towers) (hl : r.lcs = s.lcs) (hc : r.cus.cer = s.cus.cer) (hg : r.cus.closing = s.cus.closing) :
    cerOf r t c = cerOf s t c := by
  simp only [cerOf, cerFor, cerTaken, State.ctx_congr ht, hl, hc, hg]
  rfl

theorem cerOf_raise (s : State) (t c p b : Nat) : cerOf (raise s p b) t c = cerOf s t c :=
  cerOf_congr (by simp) (by simp) (by simp) (by simp)

theorem cerLate_congr {t c : Nat} (ht : ((r.ctx t c).call.getD {}).seq = ((s.ctx t c).call.getD {}).seq) (hg : r.cus.closing = s.cus.closing) :
    cerLate r t c = cerLate s t c := by
  simp only [cerLate, ht, hg]

theorem cerOf_now {t c : Nat} (h : cerLate s t c = false) :
    cerOf s t c = if cerTaken s ((s.ctx t c).call.getD {}) then none else s.cus.cer := by
  unfold cerLate at h
  unfold cerOf cerFor
  split
  · rfl
  · split
    next y n he =>
      rw [he] at h
      exact if_neg (by simpa using h)
    · rfl

theorem cerOf_late {t c : Nat} (h : cerLate s t c = true) :
    cerOf s t c = if cerTaken s ((s.ctx t c).call.getD {}) then none else s.cus.closing.map Prod.fst := by
  unfold cerLate at h
  unfold cerOf cerFor
  split
  · rfl
  · split
    next y n he =>
      rw [he] at h ⊢
      exact if_pos (by simpa using h)
    next he =>
      rw [he] at h
      simp at h

theorem modCer_now {t c : Nat} {f : Ceremony → Ceremony} (h : cerLate s t c = false) :
    modCer s t c f = s.setCus { s.cus with cer := s.cus.cer.map f } := by simp [modCer, h]

theorem modCer_late {t c : Nat} {f : Ceremony → Ceremony} (h : cerLate s t c = true) :
    modCer s t c f = s.setCus { s.cus with closing := s.cus.closing.map (fun e => (f e.1, e.2)) } := by simp [modCer, h]

theorem cerLate_modCer {t c : Nat} (f : Ceremony → Ceremony) : cerLate (modCer s t c f) t c = cerLate s t c := by
  cases h : cerLate s t c with
  | false => rw [modCer_now h]; exact h
  | true =>
    rw [modCer_late h]
    exact (Option.any_map ..).trans h

/-- A change of the ceremony that a call is judged by is seen by that call. -/
theorem cerOf_modCer {t c : Nat} (f : Ceremony → Ceremony) : cerOf (modCer s t c f) t c = (cerOf s t c).map f := by
  have hl := cerLate_modCer (s := s) (t := t) (c := c) f
  cases h : cerLate s t c with
  | false =>
    rw [h] at hl
    rw [cerOf_now hl, cerOf_now h, modCer_now h, apply_ite (Option.map f)]
    rfl
  | true =>
    rw [h] at hl
    rw [cerOf_late hl, cerOf_late h, modCer_late h, apply_ite (Option.map f)]
    simp only [State.setCus, Option.map_map]
    rfl

/-- The ceremony that R410's condition is judged on. -/
def Authorizes (s : State) (x : Ceremony) : Prop := byteAt (s.cus.table.getD []) 5 ≤ countOf s x false ∧
  byteAt (s.cus.table.getD []) 6 ≤ countOf s x true ∧ (x.typ = 2 → x.comps.length = byteAt x.input 1)

theorem authorize_met {t c : Nat} {x : Ceremony} (h : cerOf s t c = some x) (ha : x.authorized = false) (hq : Authorizes s x) :
    authorize s t c = raise (modCer s t c (fun y => { y with authorized := true })) pgCus 2 := by
  obtain ⟨h1, h2, h3⟩ := hq
  simp only [authorize, h]
  exact if_pos ⟨by simp [ha], h1, h2, Decidable.not_or_of_imp h3⟩

theorem authorize_unmet {t c : Nat} {x : Ceremony} (h : cerOf s t c = some x) (hq : x.authorized = true ∨ ¬ Authorizes s x) :
    authorize s t c = s := by
  simp only [authorize, h]
  refine if_neg fun ⟨ha, h1, h2, h3⟩ => ?_
  exact hq.elim (fun hx => by simp [hx] at ha) fun hn => hn ⟨h1, h2, fun ht => h3.resolve_left (not_not_intro ht)⟩

/-- A ceremony is authorized exactly where both groups reach their numbers and its components are there (14 R410). -/
theorem cerOf_authorize {t c : Nat} {x : Ceremony} (h : cerOf s t c = some x) (ha : x.authorized = false) [Decidable (Authorizes s x)] :
    cerOf (authorize s t c) t c = some { x with authorized := decide (Authorizes s x) } := by
  by_cases hq : Authorizes s x
  · rw [authorize_met h ha hq, cerOf_raise, cerOf_modCer, h, decide_eq_true hq]
    rfl
  · rw [authorize_unmet h (.inr hq), h, decide_eq_false hq, ← ha]

/-- An authorization leaves the open ceremony, or marks it. -/
theorem authorize_cer {t c : Nat} (h : cerLate s t c = false) :
    (authorize s t c).cus.cer = s.cus.cer ∨ (authorize s t c).cus.cer = s.cus.cer.map (fun y => { y with authorized := true }) := by
  unfold authorize
  split
  · exact .inl rfl
  · dsimp only
    split
    · rw [modCer_now h]
      exact .inr (by simp [State.setCus])
    · exact .inl rfl

/-! ## Authentications (14 R409, R412) -/

/-- An AUTH_REJECTED counts, and the third closes the ceremony. -/
structure Rejected (s : State) (x : Ceremony) (r : State) : Prop where
  count : r.cus.rejects = satAdd 32 s.cus.rejects 1
  more : x.rejects < 2 → r.cus.cer = some { x with rejects := x.rejects + 1 }
  last : 2 ≤ x.rejects → r.cus.cer = none ∧ r.cus.lastClose = 4

/-- A rejection counted, with its ceremony's count. -/
def rejectCounted (s : State) (x : Ceremony) : State :=
  s.setCus { s.cus with rejects := satAdd 32 s.cus.rejects 1, cer := some { x with rejects := x.rejects + 1 } }

theorem rejectAuth_eq {t c : Nat} {x : Ceremony} (hc : s.cus.cer = some x) (ho : cerOf s t c = some x) (hl : cerLate s t c = false) :
    rejectAuth s t c = finishFree (if 2 ≤ x.rejects then closeCeremony (rejectCounted s x) 4 else rejectCounted s x) t c stAuthRejected [] := by
  have hl1 : cerLate (countReject s) t c = false := hl
  have hm : modCer (countReject s) t c (fun y => { y with rejects := y.rejects + 1 }) = rejectCounted s x := by
    rw [modCer_now hl1]
    simp only [countReject, State.setCus, hc]
    rfl
  have hl2 : cerLate (rejectCounted s x) t c = false := hl
  simp only [rejectAuth, ho, hm, closeCer_now hl2, ge_iff_le, Nat.reduceLeDiff]

theorem rejectAuth_rejected {t c : Nat} {x : Ceremony} (hc : s.cus.cer = some x) (ho : cerOf s t c = some x) (hl : cerLate s t c = false) :
    Rejected s x (rejectAuth s t c) := by
  rw [rejectAuth_eq hc ho hl]
  refine ⟨(finishFree_keepsCustody ..).rejects.trans ?_, fun h => (finishFree_keepsCustody ..).cer.trans ?_,
    fun h => ⟨(finishFree_keepsCustody ..).cer.trans ?_, (finishFree_keepsCustody ..).lastClose.trans ?_⟩⟩
  · split
    · exact closeCeremony_rejects ..
    · rfl
  · rw [if_neg (by omega)]
    rfl
  · rw [if_pos h]
    exact closeCeremony_cer ..
  · rw [if_pos h]
    exact closeCeremony_lastClose (x := { x with rejects := x.rejects + 1 }) rfl

/-- A slot is counted, with its component where the record brings one. -/
theorem acceptAuth_cer {t c slot : Nat} {l : List Bytes} {x : Ceremony} (hc : s.cus.cer = some x) (hl : cerLate s t c = false) :
    ∃ y, (acceptAuth s t c slot l).cus.cer = some y ∧ y.counted = x.counted ++ [slot] ∧ y.comps = x.comps ++ l ∧
      (x.authorized = true → y.authorized = true) := by
  have hm : (modCer s t c (fun x => { x with counted := x.counted ++ [slot], comps := x.comps ++ l })).cus.cer =
      some { x with counted := x.counted ++ [slot], comps := x.comps ++ l } := by
    rw [modCer_now hl, State.setCus, hc]
    rfl
  have hl1 := (cerLate_modCer (s := s) (t := t) (c := c) (fun x => { x with counted := x.counted ++ [slot], comps := x.comps ++ l })).trans hl
  rcases authorize_cer hl1 with h | h
  · exact ⟨_, h.trans hm, rfl, rfl, id⟩
  · exact ⟨_, h.trans (by rw [hm]; rfl), rfl, rfl, fun _ => rfl⟩

/-- What a counted authentication leaves of the ceremony. -/
def Counts (x : Ceremony) (slot : Nat) (l : List Bytes) (r : State) : Prop :=
  ∃ y, r.cus.cer = some y ∧ y.counted = x.counted ++ [slot] ∧ y.comps = x.comps ++ l ∧ (x.authorized = true → y.authorized = true)

theorem authDone_counts {t c slot : Nat} {l : List Bytes} {x : Ceremony} {comp : Bool} (hc : s.cus.cer = some x) (hl : cerLate s t c = false) :
    Counts x slot l (authDone (acceptAuth s t c slot l) t c comp) := by
  obtain ⟨y, hy, hrest⟩ := acceptAuth_cer (slot := slot) (l := l) hc hl
  exact ⟨y, (finishCall_keepsCustody ..).cer.trans hy, hrest⟩

end Sys2Proof.Machine

/-! SUPPORT. A ceremony call in its turn; CEREMONY_OPEN and TABLE_LOAD (14 R403, R405, R413). -/

namespace Sys2Proof.Machine
variable {s r q s₀ : State} {t c : Nat}

/-! ## A ceremony call in its turn (14 R413) -/

theorem runCer_turn {op : Nat} {f : State → State} (ha : atFigure s₀ t c op = true) (hw : commitWaits (pastYield s₀ t c) t c = false) :
    runCer s₀ t c op .none f = f (pastYield s₀ t c) := by
  rw [runCer, runFigure_at ha]
  exact if_neg (by simp [hw])

theorem runCer_waits {op : Nat} {f : State → State} (ha : atFigure s₀ t c op = true) (hw : commitWaits (pastYield s₀ t c) t c = true) :
    runCer s₀ t c op .none f = setNeeds (pastYield s₀ t c) t c [.turn] := by
  rw [runCer, runFigure_at ha]
  exact if_pos hw

theorem atType_pastYield (s₀ : State) (t c k : Nat) : atType s₀ t c k = decide (par (workDesc (pastYield s₀ t c) t c) 64 = k) := by
  rw [pastYield_workDesc, atType]
  exact Bool.eq_iff_iff.mpr (by simp)

theorem exec_tableLoad (h : par (workDesc (pastYield s₀ t c) t c) 64 = 1) (f : FigFault) :
    exec (.tableLoad t c f) s₀ = .next (runCer s₀ t c 0x0C01 f (loadTable t c)) :=
  congrArg Host.Outcome.next (if_pos (by rw [atType_pastYield, h]; rfl))

theorem exec_tableLoad_other (h : par (workDesc (pastYield s₀ t c) t c) 64 ≠ 1) (f : FigFault) : exec (.tableLoad t c f) s₀ = .next s₀ :=
  congrArg Host.Outcome.next (if_neg (by simpa [atType_pastYield] using h))

theorem exec_ceremonyOpen (h : par (workDesc (pastYield s₀ t c) t c) 64 ≠ 1) (f : FigFault) :
    exec (.ceremonyOpen t c f) s₀ = .next (runCer s₀ t c 0x0C01 f (openCeremony t c)) :=
  congrArg Host.Outcome.next (if_neg (by simpa [atType_pastYield] using h))

theorem exec_ceremonyOpen_table (h : par (workDesc (pastYield s₀ t c) t c) 64 = 1) (f : FigFault) : exec (.ceremonyOpen t c f) s₀ = .next s₀ :=
  congrArg Host.Outcome.next (if_pos (by rw [atType_pastYield, h]; rfl))

theorem runCommit_at {k : Nat} (h : par (workDesc (pastYield s₀ t c) t c) 64 = k) (x : FigFault) (f : Ceremony → State → State) :
    runCommit t c k x f s₀ = runCer s₀ t c 0x0C03 x (fun a => withCeremony t c a f) :=
  if_pos (by simpa [atType_pastYield] using h)

theorem runCommit_other {k : Nat} (h : k ≠ par (workDesc (pastYield s₀ t c) t c) 64) (x : FigFault) (f : Ceremony → State → State) :
    runCommit t c k x f s₀ = s₀ :=
  if_neg (by simpa [atType_pastYield] using Ne.symm h)

theorem opOf_lt (d : Bytes) : opOf d < 0x10000 := (leAt_lt d 0 2).trans_eq (by norm_num)

/-! ## CEREMONY_OPEN and TABLE_LOAD (14 R403, R405) -/

theorem loadTable_refused {st : Nat} (h : cerChecks s t c 0x0C01 = some st) : loadTable t c s = finishCall s t c st 39 0 [] := by
  simp only [loadTable, h]

theorem openCeremony_refused {st : Nat} (h : cerChecks s t c 0x0C01 = some st) : openCeremony t c s = finishCall s t c st 39 0 [] := by
  simp only [openCeremony, h]

/-- The owner's or the policy's check of a table (14 R403). -/
def TableOwned (s : State) (b : Bytes) : Prop :=
  if s.lcs.st = 3 then tabDigest b = policyDigest s
  else if s.lcs.st = 2 ∧ allZero s.fuse.owner = false then
    sha384 (sub b 1568 97) = s.fuse.owner ∧ p384Verify (sub b 1568 97) (b.take 1568) (b.drop 1665) = true
  else allZero (b.drop 1568) = true

theorem tableSigned_eq (s : State) : (s.lcs.st == 2 && !allZero s.fuse.owner) = decide (s.lcs.st = 2 ∧ allZero s.fuse.owner = false) :=
  Bool.eq_iff_iff.mpr (by simp)

theorem tableOwned_iff (s : State) (b : Bytes) : (if s.lcs.st = 3 then tabDigest b == policyDigest s
    else if (s.lcs.st == 2 && !allZero s.fuse.owner) = true then
      sha384 (sub b 1568 97) == s.fuse.owner && p384Verify (sub b 1568 97) (b.take 1568) (b.drop 1665)
    else allZero (b.drop 1568)) = true ↔ TableOwned s b := by
  rw [TableOwned, tableSigned_eq]
  by_cases h3 : s.lcs.st = 3
  · rw [if_pos h3, if_pos h3, beq_iff_eq]
  · by_cases h2 : s.lcs.st = 2 ∧ allZero s.fuse.owner = false
    · rw [if_neg h3, if_neg h3, if_pos h2, if_pos (decide_eq_true h2), Bool.and_eq_true, beq_iff_eq]
    · rw [if_neg h3, if_neg h3, if_neg h2, if_neg (by simpa using h2)]

/-- The keys that a table enrols. -/
def tableKeys (b : Bytes) : Nat := ((List.range 16).filter (fun i => bitOf (tabEnrolled b) i)).length

section
variable (hn : cerChecks s t c 0x0C01 = none)
include hn

theorem loadTable_misshapen (hl : tabLayout (inputOf s t c) = false) : loadTable t c s = finishFree s t c stBadParam [] := by
  simp only [loadTable, hn]
  exact if_pos (by simp [hl])

theorem loadTable_rejected (hl : tabLayout (inputOf s t c) = true) (ho : ¬ TableOwned s (inputOf s t c)) :
    loadTable t c s = finishFree { s with cus := { s.cus with rejects := satAdd 32 s.cus.rejects 1 } } t c stAuthRejected [] := by
  simp only [loadTable, hn]
  refine (if_neg (by simp [hl])).trans (if_pos ?_)
  exact Bool.not_eq_true' _ |>.mpr (Bool.not_eq_true _ |>.mp fun h => ho ((tableOwned_iff ..).mp h))

theorem loadTable_held (hl : tabLayout (inputOf s t c) = true) (ho : TableOwned s (inputOf s t c)) :
    let b := inputOf s t c
    let signed := s.lcs.st = 2 ∧ allZero s.fuse.owner = false
    let n := 72 * tableKeys b + if signed then 94874 else 0
    loadTable t c s = finishCall ((spCall s t c (tableProg b (decide signed)) (p384Ops (sub b 1568 97) (b.take 1568) (b.drop 1665)) n false).setCus
      { s.cus with table := some b }) t c stOk (324 + 72 * tableKeys b + (if signed then 94899 else 0)) n [] := by
  intro b signed n
  have hv : ecVerifyCycles curveP384 = 94874 := by decide
  simp only [loadTable, hn, hv]
  refine (if_neg (by simp [hl])).trans ((if_neg ?_).trans ?_)
  · have h := (tableOwned_iff ..).mpr ho
    simpa only [Bool.not_eq_true, Bool.not_eq_true', Bool.not_eq_false] using h
  · have hp (a : Nat) : 34 + 4 + 273 + 72 * tableKeys b + a + 13 = 324 + 72 * tableKeys b + a := by omega
    simp only [tableSigned_eq, decide_eq_true_eq]
    rw [← hp]
    rfl

/-- The ceremony that CEREMONY_OPEN makes of a call's input and draw (14 R405, R406). -/
def openedCer (s : State) (t c : Nat) : Ceremony :=
  { typ := par (workDesc s t c) 64, ports := par (workDesc s t c) 65, input := inputOf s t c, challenge := (drawnOf s t c).take 32
    pdigest := sha384 (leBytes 1 (par (workDesc s t c) 64) ++ inputOf s t c)
    expires := if s.time.st = 0 then none else some (s.time.bell / 1024 + 300), cyclesLeft := 360000000000
    eph := if par (workDesc s t c) 64 = 2 then drawnScalar curveP384 ((drawnOf s t c).drop 32) else 0 }

theorem openCeremony_misshapen (h : cerInputOk s (par (workDesc s t c) 64) (inputOf s t c) = false) :
    openCeremony t c s = finishFree s t c stBadParam [] := by
  simp only [openCeremony, hn]
  exact if_pos (by simp [h])

theorem openCeremony_opened (h : cerInputOk s (par (workDesc s t c) 64) (inputOf s t c) = true) {k g : Nat} {x : Ceremony} {s1 : State}
    {w : State × Bool} (hk : k = par (workDesc s t c) 64) (hx : x = openedCer s t c) (hg : g = if k = 2 then 93806 else 0)
    (h1 : s1 = if k = 2 then spCall s t c (ecGenProg curveP384) (ecGenOps curveP384 (beVal ((drawnOf s t c).drop 32) % 2 ^ 448)) g false else s)
    (hw : w = writeOut s1 t c (cerHeader s x)) :
    openCeremony t c s = if w.2 then finishCall (raise { w.1 with cus := { w.1.cus with cer := some x } } pgCus 1) t c stOk
      (56 + 21 * ceilDiv ((inputOf s t c).length + 18) 128 + (if k = 2 then 93810 else 0)) g [] else w.1 := by
  have hv : ecGenCycles curveP384 = 93806 := by decide
  have ht : (if timeKnown s then some (reelSecond s + 300) else none) = if s.time.st = 0 then none else some (s.time.bell / 1024 + 300) := by
    simp [timeKnown, reelSecond]
  have hp (a b : Nat) : 34 + 4 + 21 * a + 4 + b + 14 = 56 + 21 * a + b := by omega
  subst hk hg h1
  rw [openedCer] at hx
  simp only [openCeremony, hn, hv, ht, hp]
  refine (if_neg (by simp [h])).trans ?_
  rw [← hx, ← hw]
  by_cases h2 : w.2 = true
  · exact (if_neg (show ¬ (!w.2) = true by rw [h2]; decide)).trans (if_pos h2).symm
  · exact (if_pos (show (!w.2) = true by rw [Bool.eq_false_of_not_eq_true h2]; rfl)).trans (if_neg h2).symm

end

end Sys2Proof.Machine

/-! SUPPORT. The stages and the verdict of an authentication (14 R408, R409). -/

namespace Sys2Proof.Machine
variable {s r q s₀ : State} {t c : Nat}

/-! ## The stages of an authentication (14 R408, R409, R413) -/

/-- An authentication's own figure is done: its units are free, and its verdict or its rejection, `f`, comes in its turn. -/
def authTurn (s : State) (t c stage : Nat) (f : State → State) : State :=
  if commitWaits (modWork (freeUnits s t c) t c (fun w => { w with vals := [stage] })) t c then
    setNeeds (modWork (freeUnits s t c) t c (fun w => { w with vals := [stage] })) t c [.turn]
  else f (modWork (freeUnits s t c) t c (fun w => { w with vals := [stage] }))

theorem authEnd_verdict (s : State) (t c : Nat) : authEnd s t c 2 = authTurn s t c 2 (fun a => authVerdict a t c) := rfl

section stages
variable (hn : authStage s t c < 2)

theorem custodianAuth_rejecting (h : authStage s t c = 3) : custodianAuth t c s = rejectAuth s t c := if_pos h

theorem custodianAuth_judging (h : authStage s t c = 2) : custodianAuth t c s = authVerdict s t c := by
  exact (if_neg (by omega)).trans (if_pos h)

include hn in
theorem custodianAuth_checks (h : par (workDesc s t c) 64 = 0 ∨ (s.ctx t c).work.phase ≠ 0) : custodianAuth t c s = checkAuth t c s :=
  (if_neg (by omega)).trans ((if_neg (by omega)).trans (if_pos h))

section card
variable (hk : par (workDesc s t c) 64 ≠ 0) (hp : (s.ctx t c).work.phase = 0)
include hn hk hp

theorem custodianAuth_card : custodianAuth t c s = match cerChecks s t c 0x0C02 with
    | some st => finishCall s t c st 39 0 []
    | none => setNeeds (askCard s t c (par (workDesc s t c) 64)) t c [.card] :=
  (if_neg (by omega)).trans ((if_neg (by omega)).trans (if_neg fun h => h.elim hk fun h => h hp))

end card

theorem checkAuth_closed (h : cerOf s t c = none) :
    checkAuth t c s = if (s.ctx t c).work.sp = 0 then finishCall s t c stCeremony 39 0 [] else authEnd s t c 2 := by
  simp only [checkAuth, h]

theorem checkAuth_misfit {x : Ceremony} (h : cerOf s t c = some x) (hf : authFields s x (inputOf s t c) = false) :
    checkAuth t c s = authEnd s t c 2 := by
  simp only [checkAuth, h]
  exact if_pos (by simp [hf])

end stages

/-- The signature of a record verifies under its slot's key. -/
def AuthGood (s : State) (b : Bytes) : Prop := p384Verify (tabKey (s.cus.table.getD []) (byteAt b 4)) (b.take 240) (b.drop 240) = true

section runs
variable {x : Ceremony} {pr : List SpStep × List (Nat × Nat)} {z : State × Bool} (h : cerOf s t c = some x)
  (hf : authFields s x (inputOf s t c) = true) (hp : pr = authProg s x (inputOf s t c) (authStage s t c))
  (hz : z = spPart pr.1 true true t c (loadHalf s t c pr.2))
include h hf hp hz

/-- The commands of a stage run up to the next yield point. -/
theorem checkAuth_runs : checkAuth t c s =
    if z.2 = true then authEnd z.1 t c 2
    else if (z.1.ctx t c).work.pc < pr.1.length then z.1
    else if authStage s t c = 0 ∧ bitOf (byteAt (inputOf s t c) 5) 0 = true ∧
        p384Verify (tabKey (s.cus.table.getD []) (byteAt (inputOf s t c) 4)) ((inputOf s t c).take 240) ((inputOf s t c).drop 240) = true then
      modWork z.1 t c (fun k => { k with pc := 0, bits := 0, vals := [1] })
    else authEnd z.1 t c 2 := by
  simp only [checkAuth, h, hf, Bool.not_true, Bool.false_eq_true, if_false, ← hp, ← hz]

theorem checkAuth_bad (hb : z.2 = true) : checkAuth t c s = authEnd z.1 t c 2 := (checkAuth_runs h hf hp hz).trans (if_pos hb)

section good
variable (hb : z.2 = false)
include hb

theorem checkAuth_yields (hm : (z.1.ctx t c).work.pc < pr.1.length) : checkAuth t c s = z.1 :=
  (checkAuth_runs h hf hp hz).trans ((if_neg (by simp [hb])).trans (if_pos hm))

variable (hm : ¬ (z.1.ctx t c).work.pc < pr.1.length)
include hm

theorem checkAuth_agrees (hs : authStage s t c = 0) (hc : bitOf (byteAt (inputOf s t c) 5) 0 = true) (hg : AuthGood s (inputOf s t c)) :
    checkAuth t c s = modWork z.1 t c (fun k => { k with pc := 0, bits := 0, vals := [1] }) :=
  (checkAuth_runs h hf hp hz).trans ((if_neg (by simp [hb])).trans ((if_neg hm).trans (if_pos ⟨hs, hc, hg⟩)))

theorem checkAuth_done (hs : authStage s t c ≠ 0 ∨ bitOf (byteAt (inputOf s t c) 5) 0 = false ∨ ¬ AuthGood s (inputOf s t c)) :
    checkAuth t c s = authEnd z.1 t c 2 :=
  (checkAuth_runs h hf hp hz).trans ((if_neg (by simp [hb])).trans ((if_neg hm).trans (if_neg fun ⟨h1, h2, h3⟩ =>
    hs.elim (· h1) fun g => g.elim (by simp [h2]) (· h3))))

end good
end runs

/-! ## The verdict on a record -/

theorem authVerdict_closed (h : cerOf s t c = none) : authVerdict s t c = finishFree s t c stCeremony [] := by
  simp only [authVerdict, h]

section verdict
variable {x : Ceremony} (h : cerOf s t c = some x)
include h

theorem authVerdict_misfit (hf : authFields s x (inputOf s t c) = false) :
    authVerdict s t c = if (s.ctx t c).work.sp = 0 then rejectAuth s t c else finishFree s t c stCeremony [] := by
  simp only [authVerdict, h]
  exact if_pos (by simp [hf])

variable (hf : authFields s x (inputOf s t c) = true)
include hf

theorem authVerdict_forged (hg : ¬ AuthGood s (inputOf s t c)) : authVerdict s t c = rejectAuth s t c := by
  simp only [authVerdict, h]
  exact (if_neg (by simp [hf])).trans (if_pos (by simpa [AuthGood] using hg))

variable (hg : AuthGood s (inputOf s t c))
include hg

/-- A record with its fields and its signature right is counted, where its slot is not and its component is. -/
theorem authVerdict_good : authVerdict s t c =
    if x.counted.contains (byteAt (inputOf s t c) 4) = true then authDone s t c (bitOf (byteAt (inputOf s t c) 5) 0)
    else if (!bitOf (byteAt (inputOf s t c) 5) 0) = true then
      authDone (acceptAuth s t c (byteAt (inputOf s t c) 4) []) t c (bitOf (byteAt (inputOf s t c) 5) 0)
    else match authComponent s x (inputOf s t c) with
      | none => rejectAuth s t c
      | some z =>
        if x.comps.length ≥ cerWant x then finishFree s t c stBadParam []
        else authDone (acceptAuth s t c (byteAt (inputOf s t c) 4) [z]) t c (bitOf (byteAt (inputOf s t c) 5) 0) := by
  simp only [authVerdict, h]
  exact (if_neg (by simp [hf])).trans (if_neg (by rw [AuthGood] at hg; simp [hg]))

theorem authVerdict_again (hs : byteAt (inputOf s t c) 4 ∈ x.counted) :
    authVerdict s t c = authDone s t c (bitOf (byteAt (inputOf s t c) 5) 0) :=
  (authVerdict_good h hf hg).trans (if_pos (by simpa using hs))

variable (hs : byteAt (inputOf s t c) 4 ∉ x.counted)
include hs

theorem authVerdict_plain (hc : bitOf (byteAt (inputOf s t c) 5) 0 = false) :
    authVerdict s t c = authDone (acceptAuth s t c (byteAt (inputOf s t c) 4) []) t c (bitOf (byteAt (inputOf s t c) 5) 0) :=
  (authVerdict_good h hf hg).trans ((if_neg (by simpa using hs)).trans (if_pos (by simp [hc])))

variable (hc : bitOf (byteAt (inputOf s t c) 5) 0 = true)
include hc

theorem authVerdict_component : authVerdict s t c = match authComponent s x (inputOf s t c) with
      | none => rejectAuth s t c
      | some z =>
        if x.comps.length ≥ cerWant x then finishFree s t c stBadParam []
        else authDone (acceptAuth s t c (byteAt (inputOf s t c) 4) [z]) t c (bitOf (byteAt (inputOf s t c) 5) 0) :=
  (authVerdict_good h hf hg).trans ((if_neg (by simpa using hs)).trans (if_neg (by simp [hc])))

end verdict

theorem authDone_eq {x : Ceremony} (h : cerOf s t c = some x) (comp : Bool) :
    authDone s t c comp = finishCall s t c stOk (if comp then 189068 else 94994) (if comp then 188716 else 94874)
      (leBytes 1 (countOf s x false) ++ leBytes 1 (countOf s x true) ++ leBytes 1 x.comps.length ++ leBytes 1 (flag x.authorized)) := by
  have hn : authCycles comp = if comp then 188716 else 94874 := by cases comp <;> decide
  simp only [authDone, hn, authResults, h]

/-! ## A card's answer (14 R408) -/

theorem exec_card_away {b : Bytes} (h : firstNeed s t c ≠ some .card) :
    exec (.cardResponse t c b) s = .next s ∧ exec (.cardTimeout t c) s = .next s :=
  ⟨if_pos h, congrArg Host.Outcome.next (if_neg h)⟩

theorem exec_cardTimeout_due (h : firstNeed s t c = some .card) :
    exec (.cardTimeout t c) s = .next (authTurn (setActive s (par (workDesc s t c) 64) false) t c 3 (fun a => rejectAuth a t c)) :=
  congrArg Host.Outcome.next (if_pos h)

theorem exec_cardResponse_due {b : Bytes} (h : firstNeed s t c = some .card) : exec (.cardResponse t c b) s =
    if b.length = 338 ∧ b.drop 336 = [0x90, 0x00] then
      .next (setNeeds (modWork (setActive s (par (workDesc s t c) 64) false) t c (fun w => { w with blob := b.take 336, phase := 1 })) t c unitNeeds)
    else .next (authTurn (setActive s (par (workDesc s t c) 64) false) t c 3 (fun a => rejectAuth a t c)) :=
  if_neg (not_not_intro h)

end Sys2Proof.Machine

/-! SUPPORT. The commits of a ceremony (14 R411). -/

namespace Sys2Proof.Machine
variable {s r q s₀ : State} {t c : Nat}

/-! ## Commits (14 R411) -/

/-- A ceremony closes for the call of a context that finds it open, and the call ends. -/
theorem closed_finished {how st table sp : Nat} {b : Bytes} {x : Ceremony} (hc : s.cus.cer = some x) (hl : cerLate s t c = false) :
    (finishCall (closeCer s t c how) t c st table sp b).cus.cer = none ∧
      (finishCall (closeCer s t c how) t c st table sp b).cus.lastClose = how ∧
      (finishCall (closeCer s t c how) t c st table sp b).dome = s.dome := by
  rw [closeCer_now hl]
  refine ⟨(finishCall_keepsCustody ..).cer.trans (closeCeremony_cer ..),
    (finishCall_keepsCustody ..).lastClose.trans (closeCeremony_lastClose hc), ?_⟩
  exact (finishCall_endsCalls ..).dome.trans (closeCeremony_dome ..)

theorem withCeremony_later {f : Ceremony → State → State} (h : (s.ctx t c).work.phase ≠ 0) : withCeremony t c s f = f {} s := if_pos h

theorem withCeremony_refused {f : Ceremony → State → State} {st : Nat} (h : (s.ctx t c).work.phase = 0) (hc : cerChecks s t c 0x0C03 = some st) :
    withCeremony t c s f = finishCall s t c st 39 0 [] := by
  refine (if_neg (not_not_intro h)).trans ?_
  simp only [hc]

theorem withCeremony_open {f : Ceremony → State → State} {x : Ceremony} (h : (s.ctx t c).work.phase = 0) (hc : cerChecks s t c 0x0C03 = none)
    (ho : cerOf s t c = some x) : withCeremony t c s f = f x s := by
  refine (if_neg (not_not_intro h)).trans ?_
  simp only [hc, ho]

/-- A commit whose checks hold is judged by a ceremony of its type. -/
theorem commit_cer (hc : cerChecks s t c 0x0C03 = none) : ∃ y, cerOf s t c = some y ∧ y.typ = par (workDesc s t c) 64 := by
  have he : cerChecks s t c 0x0C03 = match cerOf s t c with
      | none => some stCeremony
      | some y => if y.typ ≠ par (workDesc s t c) 64 then some stBadParam else if (!y.authorized) = true then some stDualControl
        else if par (workDesc s t c) 64 = 6 ∨ par (workDesc s t c) 64 = 7 then some stBadParam else none := rfl
  rw [he] at hc
  cases ho : cerOf s t c with
  | none =>
    rw [ho] at hc
    cases hc
  | some y =>
    rw [ho] at hc
    dsimp only at hc
    split at hc
    · cases hc
    next h => exact ⟨y, rfl, not_not.mp h⟩

/-- It is the open one, where its window has not ended. -/
theorem commit_cer_now {x : Ceremony} (hc : cerChecks s t c 0x0C03 = none) (hl : cerLate s t c = false) (hx : s.cus.cer = some x) :
    cerOf s t c = some x ∧ x.typ = par (workDesc s t c) 64 := by
  obtain ⟨y, ho, hk⟩ := commit_cer hc
  have hs := cerOf_now hl
  rw [ho] at hs
  split at hs
  · cases hs
  · have hxy : y = x := Option.some.inj (hs.trans hx)
    exact ⟨hxy ▸ ho, hxy ▸ hk⟩

theorem forgetPart_ctx (s : State) (p u i : Nat) : (forgetPart s p).ctx u i = s.ctx u i :=
  tcDrop_ctx (dropLines s (fun k _ => keyPart k == p)) (fun _ e => e.part == p) u i

theorem cerLate_forgetPart (s : State) (p t c : Nat) : cerLate (forgetPart s p) t c = cerLate s t c :=
  cerLate_congr (by rw [forgetPart_ctx]) rfl

section commits
variable {x : Ceremony} (hx : s.cus.cer = some x) (hl : cerLate s t c = false)
include hx hl

/-- Components of a CURRENT key are loaded (06 R176). -/
theorem commitDmk_loads (hg : (x.comps.any allZero || !decide x.comps.Nodup || allZero (x.comps.foldl xorB (zeros 32))) = false)
    (hi : byteAt x.input 0 = 0) (hd : s.dome.cur = none) (ha : intRefusal s 6 true 0x20000000 = none) :
    (commitDmk t c x s).dome = { s.dome with cur := some (x.comps.foldl xorB (zeros 32)), tampered := false } ∧
      (commitDmk t c x s).cus.cer = none ∧ (commitDmk t c x s).cus.lastClose = 1 := by
  have hn : (byteAt x.input 0 == 1) = false := by rw [hi]; rfl
  have hrun : commitDmk t c x s = finishCall (closeCer { s with dome := { s.dome with
      cur := some (x.comps.foldl xorB (zeros 32)), tampered := false } } t c 1) t c stOk (if x.comps.length = 2 then 105 else 121) 0
      (fit 9 (x.comps.flatMap kcvAes) ++ kcvAes (x.comps.foldl xorB (zeros 32))) := by
    simp only [commitDmk, hn, hd, domeAccess_allowed ha]
    exact if_neg (by rw [hg]; simp)
  rw [hrun]
  obtain ⟨h1, h2, h3⟩ := closed_finished (how := 1) (st := stOk) (table := if x.comps.length = 2 then 105 else 121) (sp := 0)
    (b := fit 9 (x.comps.flatMap kcvAes) ++ kcvAes (x.comps.foldl xorB (zeros 32)))
    (s := { s with dome := { s.dome with cur := some (x.comps.foldl xorB (zeros 32)), tampered := false } }) (t := t) (c := c) hx hl
  exact ⟨h3, h1, h2⟩

/-- NEXT becomes CURRENT (06 R177). -/
theorem commitPromote_moves {m : Bytes} (hm : s.dome.next = some m) (hv : s.vault.nextReady = true ∨ s.vault.st = 0)
    (ha : intRefusal s 6 true 0x20000000 = none) :
    (commitPromote t c s).dome = { s.dome with cur := some m, next := none } ∧ (commitPromote t c s).cus.cer = none := by
  have hrun : commitPromote t c s = finishCall (closeCer { s with
      dome := { s.dome with cur := some m, next := none }, vault := { s.vault with nextReady := false } } t c 1) t c stOk 57 0 (kcvAes m) := by
    simp only [commitPromote, hm, domeAccess_allowed ha]
    exact if_neg fun ⟨h1, h2⟩ => hv.elim (by simpa using h1) h2
  rw [hrun]
  obtain ⟨h1, _, h3⟩ := closed_finished (how := 1) (st := stOk) (table := 57) (sp := 0) (b := kcvAes m)
    (s := { s with dome := { s.dome with cur := some m, next := none }, vault := { s.vault with nextReady := false } }) (t := t) (c := c) hx hl
  exact ⟨h3, h1⟩

/-- A durable commit of a partition forgets the one that it deletes. -/
def partSettled (s : State) (p : Nat) (create : Bool) : State :=
  if create then s else forgetPart { s with bind := tblSet none s.bind p none } p

omit hx hl in
theorem partSettled_custody (s : State) (p : Nat) (create : Bool) :
    (partSettled s p create).cus = s.cus ∧ cerLate (partSettled s p create) t c = cerLate s t c := by
  cases create with
  | true => exact ⟨rfl, rfl⟩
  | false => exact ⟨rfl, cerLate_forgetPart ..⟩

/-- A partition's batch is durable: its ceremony closes. -/
theorem commitPartition_durable {create : Bool} {y : Ceremony} (hp : (s.ctx t c).work.phase ≠ 0) :
    (commitPartition t c create y s).cus.cer = none ∧ (commitPartition t c create y s).cus.lastClose = 1 := by
  have hrun : commitPartition t c create y s = finishCall (closeCer (partSettled s ((s.ctx t c).work.vals.getD 0 0) create) t c 1) t c stOk
      (if create then 79 else 56) 0 [] := by
    simp only [commitPartition, if_pos hp, if_neg hp]
    rfl
  have hs := partSettled_custody (t := t) (c := c) s ((s.ctx t c).work.vals.getD 0 0) create
  rw [hrun]
  generalize partSettled s ((s.ctx t c).work.vals.getD 0 0) create = r at hs
  have h := closed_finished (s := r) (how := 1) (st := stOk) (table := if create then 79 else 56) (sp := 0) (b := []) (by rw [hs.1]; exact hx)
    (hs.2.trans hl)
  exact ⟨h.1, h.2.1⟩

end commits

/-! ### Partitions (06 R179) -/

/-- The descriptor that a partition's commit writes. -/
def commitDesc (s : State) (x : Ceremony) (create : Bool) : Bytes :=
  if create then newDesc (descOf s (leAt x.input 0 2)) x.input else (descOf s (leAt x.input 0 2)).set 1 0

section partition
variable {x : Ceremony} {create : Bool} (hp : (s.ctx t c).work.phase = 0)
include hp

theorem commitPartition_away (hv : s.vault.st ≠ 3) : commitPartition t c create x s = finishCall s t c stVaultUnreach 39 0 [] := by
  simp only [commitPartition, hp, if_pos hv]
  rfl

variable (hv : s.vault.st = 3)
include hv

theorem commitPartition_taken (hc : create = true) (hs : pstate s (leAt x.input 0 2) ≠ 0) :
    commitPartition t c create x s = finishCall s t c stBadParam 39 0 [] := by
  simp only [commitPartition, hp, if_neg (not_not_intro hv)]
  exact (if_neg (by simp)).trans (if_pos ⟨hc, hs⟩)

theorem commitPartition_writes (hs : create = false ∨ pstate s (leAt x.input 0 2) = 0) : commitPartition t c create x s =
    writeDesc s t c (leAt x.input 0 2) (commitDesc s x create) [] (goOn, if create then 79 else 56, 0, [])
      (fun a => modWork a t c (fun w => { w with phase := 1, vals := [leAt x.input 0 2] })) := by
  simp only [commitPartition, hp, if_neg (not_not_intro hv)]
  refine (if_neg (by simp)).trans ((if_neg fun ⟨h1, h2⟩ => hs.elim (by simp [h1]) (h2 ·)).trans ?_)
  rfl

end partition

section group
variable {p : Nat} {d : Bytes} {held : Nat × Nat × Nat × Bytes} {f : State → State}

theorem writeDesc_unbuilt (hd : descLines s p d = none) : writeDesc s t c p d [] held f = finishCall s t c stVaultUnreach held.2.1 held.2.2.1 [] := by
  simp only [writeDesc, hd]

variable {l : List (Nat × Nat × Bytes) × List KeepCopy} (hd : descLines s p d = some l) (hv : s.vault.st = 3)
include hd hv

theorem writeDesc_built : writeDesc s t c p d [] held f = finalStep s t c (copyKeys l.2) (fun a =>
    passGroup (setDesc (f a) p d) t c { at_ := (t, c), lines := l.1, undo := [(p, descOf s p, d)] } l.2 held) := by
  simp only [writeDesc, hd]
  exact if_neg (by simp [vaultOnline, hv])

theorem writeDesc_waits (hw : waysFor s (copyKeys l.2) = false) :
    writeDesc s t c p d [] held f = setNeeds (freeUnits s t c) t c [.way (copyKeys l.2)] :=
  (writeDesc_built hd hv).trans (if_neg (by simp [hw]))

theorem writeDesc_passes (hw : waysFor s (copyKeys l.2) = true) : writeDesc s t c p d [] held f =
    passGroup (setDesc (f s) p d) t c { at_ := (t, c), lines := l.1, undo := [(p, descOf s p, d)] } l.2 held :=
  (writeDesc_built hd hv).trans (if_pos hw)

end group

/-! ### Changes of the life cycle (14 R397, R398) -/

section lifecycle
variable {x : Ceremony} {g : Nat} (h8 : x.typ = 8 → s.cus.table.any (fun b => tabDigest b == x.input) = true)
include h8

theorem commitLifeCycle_refused (hr : lcRefusal s g ≠ 0) :
    commitLifeCycle t c g x s = finishCall (lcNote s (lcRefusal s g) g) t c stStateNot 39 0 [] :=
  (if_neg fun ⟨h1, h2⟩ => by simp [h8 h1] at h2).trans (if_pos hr)

theorem commitLifeCycle_begins (hr : lcRefusal s g = 0) (ht : s.lcs.transition = none) :
    commitLifeCycle t c g x s = lcBegin s g (some (t, c)) := by
  refine (if_neg fun ⟨h1, h2⟩ => by simp [h8 h1] at h2).trans ((if_neg (not_not_intro hr)).trans ?_)
  simp only [ht]

end lifecycle

end Sys2Proof.Machine

/-! SUPPORT. Ceremonies: the statement. -/

namespace Sys2Proof.Machine
variable {s r q s₀ : State} {t c : Nat}

/-! ## The statement -/

theorem atFigure_typed {k n : Nat} (h : atFigure s₀ t c (if k = n then 0x0C03 else 0x10000) = true) : k = n ∧ atFigure s₀ t c 0x0C03 = true := by
  by_cases hk : k = n
  · exact ⟨hk, by rwa [if_pos hk] at h⟩
  · rw [if_neg hk] at h
    obtain ⟨-, -, -, -, -, ho⟩ := atFigure_call h
    exact absurd ho (opOf_lt _).ne

theorem exec_authorizes (s : State) (t c : Nat) (x : Ceremony) (h : cerOf s t c = some x) (ha : x.authorized = false) :
    cerOf (authorize s t c) t c = some { x with authorized := decide (byteAt (s.cus.table.getD []) 5 ≤ countOf s x false ∧
      byteAt (s.cus.table.getD []) 6 ≤ countOf s x true ∧ (x.typ = 2 → x.comps.length = byteAt x.input 1)) } :=
  @cerOf_authorize s t c x h ha (inferInstanceAs (Decidable (_ ∧ _ ∧ (_ → _))))

/-- A ceremony call whose turn has not come waits for it. -/
theorem exec_waits (hw : commitWaits (pastYield s₀ t c) t c = true) (e : Instr × Nat)
    (he : e ∈ ([(if par (workDesc (pastYield s₀ t c) t c) 64 = 1 then .tableLoad t c .none else .ceremonyOpen t c .none, 0x0C01),
      (.custodianAuth t c .none, 0x0C02), (.ceremonyAbort t c .none, 0x0C04),
      (.dmkLoad t c .none, if par (workDesc (pastYield s₀ t c) t c) 64 = 2 then 0x0C03 else 0x10000),
      (.commission t c .none, if par (workDesc (pastYield s₀ t c) t c) 64 = 8 then 0x0C03 else 0x10000)] : List (Instr × Nat)))
    (ha : atFigure s₀ t c e.2 = true) : exec e.1 s₀ = .next (setNeeds (pastYield s₀ t c) t c [.turn]) := by
  simp only [List.mem_cons, List.not_mem_nil, or_false] at he
  rcases he with rfl | rfl | rfl | rfl | rfl
  · by_cases hk : par (workDesc (pastYield s₀ t c) t c) 64 = 1
    · rw [if_pos hk, exec_tableLoad hk, runCer_waits ha hw]
    · rw [if_neg hk, exec_ceremonyOpen hk, runCer_waits ha hw]
  · exact congrArg Host.Outcome.next (runCer_waits ha hw)
  · exact congrArg Host.Outcome.next (runCer_waits ha hw)
  · obtain ⟨hk, ha⟩ := atFigure_typed ha
    exact congrArg Host.Outcome.next ((runCommit_at hk ..).trans (runCer_waits ha hw))
  · obtain ⟨hk, ha⟩ := atFigure_typed ha
    exact congrArg Host.Outcome.next ((runCommit_at hk ..).trans (runCer_waits ha hw))

section open_
variable (ha : atFigure s₀ t c 0x0C01 = true) (hw : commitWaits (pastYield s₀ t c) t c = false)
include ha hw

theorem exec_tableLoad_turn (h : par (workDesc (pastYield s₀ t c) t c) 64 = 1) :
    exec (.tableLoad t c .none) s₀ = .next (loadTable t c (pastYield s₀ t c)) := by
  rw [exec_tableLoad h, runCer_turn ha hw]

theorem exec_ceremonyOpen_turn (h : par (workDesc (pastYield s₀ t c) t c) 64 ≠ 1) :
    exec (.ceremonyOpen t c .none) s₀ = .next (openCeremony t c (pastYield s₀ t c)) := by
  rw [exec_ceremonyOpen h, runCer_turn ha hw]

theorem exec_open_refused {st : Nat} (h : cerChecks (pastYield s₀ t c) t c 0x0C01 = some st) :
    exec (if par (workDesc (pastYield s₀ t c) t c) 64 = 1 then .tableLoad t c .none else .ceremonyOpen t c .none) s₀ =
      .next (finishCall (pastYield s₀ t c) t c st 39 0 []) := by
  by_cases hk : par (workDesc (pastYield s₀ t c) t c) 64 = 1
  · rw [if_pos hk, exec_tableLoad_turn ha hw hk, loadTable_refused h]
  · rw [if_neg hk, exec_ceremonyOpen_turn ha hw hk, openCeremony_refused h]

end open_

theorem exec_custodianAuth_turn (ha : atFigure s₀ t c 0x0C02 = true) (hw : commitWaits (pastYield s₀ t c) t c = false) :
    exec (.custodianAuth t c .none) s₀ = .next (custodianAuth t c (pastYield s₀ t c)) :=
  congrArg Host.Outcome.next (runCer_turn ha hw)

theorem exec_ceremonyAbort_turn (ha : atFigure s₀ t c 0x0C04 = true) (hw : commitWaits (pastYield s₀ t c) t c = false) :
    exec (.ceremonyAbort t c .none) s₀ = .next (ceremonyAbort t c (pastYield s₀ t c)) :=
  congrArg Host.Outcome.next (runCer_turn ha hw)

/-- The commits of the types. -/
inductive CommitRow (t c : Nat) : Instr → Nat → (Ceremony → State → State) → Prop
  | dmkLoad : CommitRow t c (.dmkLoad t c .none) 2 (commitDmk t c)
  | dmkPromote : CommitRow t c (.dmkPromote t c .none) 3 (fun _ => commitPromote t c)
  | create : CommitRow t c (.partitionCreate t c .none) 4 (commitPartition t c true)
  | delete : CommitRow t c (.partitionDelete t c .none) 5 (commitPartition t c false)
  | commission : CommitRow t c (.commission t c .none) 8 (commitLifeCycle t c 3)
  | recommission : CommitRow t c (.recommission t c .none) 9 (commitLifeCycle t c 2)
  | returnCer : CommitRow t c (.returnCer t c .none) 10 (commitLifeCycle t c 4)
  | scrap : CommitRow t c (.scrap t c .none) 11 (commitLifeCycle t c 5)

theorem commitRow_of_mem {e : Instr × Nat} (he : e ∈ ([(.dmkLoad t c .none, 2), (.dmkPromote t c .none, 3), (.partitionCreate t c .none, 4),
      (.partitionDelete t c .none, 5), (.commission t c .none, 8), (.recommission t c .none, 9), (.returnCer t c .none, 10),
      (.scrap t c .none, 11)] : List (Instr × Nat))) : ∃ f, CommitRow t c e.1 e.2 f := by
  simp only [List.mem_cons, List.not_mem_nil, or_false] at he
  rcases he with rfl | rfl | rfl | rfl | rfl | rfl | rfl | rfl
  · exact ⟨_, .dmkLoad⟩
  · exact ⟨_, .dmkPromote⟩
  · exact ⟨_, .create⟩
  · exact ⟨_, .delete⟩
  · exact ⟨_, .commission⟩
  · exact ⟨_, .recommission⟩
  · exact ⟨_, .returnCer⟩
  · exact ⟨_, .scrap⟩

theorem CommitRow.exec_eq {i : Instr} {k : Nat} {f : Ceremony → State → State} (h : CommitRow t c i k f) (s : State) :
    exec i s = .next (runCommit t c k .none f s) := by
  cases h <;> rfl

section commit
variable {i : Instr} {k : Nat} {f : Ceremony → State → State} (h : CommitRow t c i k f)
include h

theorem CommitRow.exec_other (hk : k ≠ par (workDesc (pastYield s₀ t c) t c) 64) : exec i s₀ = .next s₀ := by
  rw [h.exec_eq, runCommit_other hk]

variable (ha : atFigure s₀ t c 0x0C03 = true) (hw : commitWaits (pastYield s₀ t c) t c = false)
  (hk : k = par (workDesc (pastYield s₀ t c) t c) 64)
include ha hw hk

theorem CommitRow.exec_turn : exec i s₀ = .next (withCeremony t c (pastYield s₀ t c) f) := by
  rw [h.exec_eq, runCommit_at hk.symm, runCer_turn ha hw]

theorem CommitRow.exec_refused (hp : ((pastYield s₀ t c).ctx t c).work.phase = 0) {st : Nat}
    (hc : cerChecks (pastYield s₀ t c) t c 0x0C03 = some st) : exec i s₀ = .next (finishCall (pastYield s₀ t c) t c st 39 0 []) := by
  rw [h.exec_turn ha hw hk, withCeremony_refused hp hc]

theorem CommitRow.exec_open {x : Ceremony} (hp : ((pastYield s₀ t c).ctx t c).work.phase = 0)
    (hc : cerChecks (pastYield s₀ t c) t c 0x0C03 = none) (ho : cerOf (pastYield s₀ t c) t c = some x) :
    exec i s₀ = .next (f x (pastYield s₀ t c)) := by
  rw [h.exec_turn ha hw hk, withCeremony_open hp hc ho]

end commit

theorem commitRow_partition {k : Nat} (h : k = 4 ∨ k = 5) :
    CommitRow t c (if k = 4 then .partitionCreate t c .none else .partitionDelete t c .none) k (commitPartition t c (decide (k = 4))) := by
  rcases h with rfl | rfl
  · exact .create
  · exact .delete

theorem commitRow_lifeCycle {i : Instr} {k g : Nat} (h : (i, k, g) ∈ ([(.commission t c .none, 8, 3), (.recommission t c .none, 9, 2),
    (.returnCer t c .none, 10, 4), (.scrap t c .none, 11, 5)] : List (Instr × Nat × Nat))) : CommitRow t c i k (commitLifeCycle t c g) := by
  simp only [List.mem_cons, List.not_mem_nil, or_false, Prod.mk.injEq] at h
  rcases h with ⟨rfl, rfl, rfl⟩ | ⟨rfl, rfl, rfl⟩ | ⟨rfl, rfl, rfl⟩ | ⟨rfl, rfl, rfl⟩
  · exact .commission
  · exact .recommission
  · exact .returnCer
  · exact .scrap

/-- The window of a ceremony has passed (14 R406). -/
def WindowOver (s : State) (x : Ceremony) : Prop :=
  match x.expires with
  | some e => s.time.st ≠ 0 ∧ 1024 * e ≤ s.time.bell
  | none => x.cyclesLeft = 0

theorem windowOver_iff (s : State) (x : Ceremony) : (match x.expires with
      | some e => timeKnown s && decide (s.time.bell ≥ 1024 * e)
      | none => x.cyclesLeft == 0) = true ↔ WindowOver s x := by
  unfold WindowOver
  cases x.expires with
  | none => exact beq_iff_eq
  | some e => simp [timeKnown]

theorem expireCeremony_none (h : s.cus.cer = none) : expireCeremony s = s := by simp only [expireCeremony, h]

theorem expireCeremony_runs {x : Ceremony} (h : s.cus.cer = some x) (ho : ¬ WindowOver s x) : expireCeremony s = s := by
  simp only [expireCeremony, h]
  exact if_neg (mt (windowOver_iff s x).mp ho)

theorem expireCeremony_passed {x : Ceremony} (h : s.cus.cer = some x) (ho : WindowOver s x) :
    (expireCeremony s).cus.cer = none ∧ (expireCeremony s).cus.lastClose = 3 ∧ (expireCeremony s).dome = s.dome := by
  have he : expireCeremony s = (closeCeremony s 3).setCus { (closeCeremony s 3).cus with
      closing := if cerFlight s s.caller.seq then some (x, s.caller.seq) else none } := by
    simp only [expireCeremony, h]
    exact if_pos ((windowOver_iff s x).mpr ho)
  rw [he]
  exact ⟨closeCeremony_cer .., closeCeremony_lastClose h, closeCeremony_dome ..⟩

theorem exec_ceremonyWindowExpiry (s : State) : exec .ceremonyWindowExpiry s = .next (expireCeremony s) := rfl

theorem exec_attest_at (h : atFigure s₀ t c 0x0B01 = true) :
    exec (.attest t c .none) s₀ = .next (finishSigned (pastYield s₀ t c) t c ((pastYield s₀ t c).ctx t c).work.keep 94762) :=
  congrArg Host.Outcome.next (runFigure_at h _)

theorem statementOf_attest {k : Call} {d : Bytes} (h : opOf d = 0x0B01) : statementOf s k d = jalhavi s k.bell (sub d 64 32) := if_pos h

section open_clauses
variable (ha : atFigure s₀ t c 0x0C01 = true) (hw : commitWaits (pastYield s₀ t c) t c = false)
  (hn : cerChecks (pastYield s₀ t c) t c 0x0C01 = none)
include ha hw hn

/-- TABLE_LOAD, where its checks hold (14 R403). -/
theorem exec_tableLoad_clause (hk : par (workDesc (pastYield s₀ t c) t c) 64 = 1) :
    let s := pastYield s₀ t c
    let b := inputOf s t c
    let n := tableKeys b
    let signed := s.lcs.st = 2 ∧ allZero s.fuse.owner = false
    let v := if signed then 94874 else 0
    exec (.ceremonyOpen t c .none) s₀ = .next s₀ ∧
      (tabLayout b = false → exec (.tableLoad t c .none) s₀ = .next (finishFree s t c stBadParam [])) ∧
      (tabLayout b = true → ¬ TableOwned s b → exec (.tableLoad t c .none) s₀ =
        .next (finishFree { s with cus := { s.cus with rejects := satAdd 32 s.cus.rejects 1 } } t c stAuthRejected [])) ∧
      (tabLayout b = true → TableOwned s b → exec (.tableLoad t c .none) s₀ = .next (finishCall
        ((spCall s t c (tableProg b (decide signed)) (p384Ops (sub b 1568 97) (b.take 1568) (b.drop 1665)) (72 * n + v) false).setCus
          { s.cus with table := some b })
          t c stOk (324 + 72 * n + (if signed then 94899 else 0)) (72 * n + v) [])) := by
  have hrun := exec_tableLoad_turn ha hw hk
  exact ⟨exec_ceremonyOpen_table hk .none, fun hl => hrun.trans (congrArg Host.Outcome.next (loadTable_misshapen hn hl)),
    fun hl ho => hrun.trans (congrArg Host.Outcome.next (loadTable_rejected hn hl ho)),
    fun hl ho => hrun.trans (congrArg Host.Outcome.next (loadTable_held hn hl ho))⟩

end open_clauses

section authentication
variable (ha : atFigure s₀ t c 0x0C02 = true) (hw : commitWaits (pastYield s₀ t c) t c = false)
include ha hw

theorem exec_custodianAuth_of {a : State} (h : custodianAuth t c (pastYield s₀ t c) = a) : exec (.custodianAuth t c .none) s₀ = .next a :=
  (exec_custodianAuth_turn ha hw).trans (congrArg Host.Outcome.next h)

theorem exec_custodianAuth_ends {a : State} (h : custodianAuth t c (pastYield s₀ t c) = authEnd a t c 2) :
    let a1 := modWork (freeUnits a t c) t c (fun y => { y with vals := [2] })
    exec (.custodianAuth t c .none) s₀ = .next (if commitWaits a1 t c then setNeeds a1 t c [.turn] else authVerdict a1 t c) :=
  exec_custodianAuth_of ha hw (h.trans (authEnd_verdict ..))

section verdict
variable {x : Ceremony} (hs : authStage (pastYield s₀ t c) t c = 2) (hc : (pastYield s₀ t c).cus.cer = some x)
  (ho : cerOf (pastYield s₀ t c) t c = some x) (hl : cerLate (pastYield s₀ t c) t c = false)
include hs

theorem exec_custodianAuth_judged {a : State} (h : authVerdict (pastYield s₀ t c) t c = a) : exec (.custodianAuth t c .none) s₀ = .next a :=
  exec_custodianAuth_of ha hw ((custodianAuth_judging hs).trans h)

include hc hl

theorem exec_custodianAuth_counts {slot : Nat} {l : List Bytes} {comp : Bool}
    (h : authVerdict (pastYield s₀ t c) t c = authDone (acceptAuth (pastYield s₀ t c) t c slot l) t c comp) :
    ∃ s' y, exec (.custodianAuth t c .none) s₀ = .next s' ∧ s'.cus.cer = some y ∧ y.counted = x.counted ++ [slot] ∧ y.comps = x.comps ++ l ∧
      (x.authorized = true → y.authorized = true) := by
  obtain ⟨y, hy⟩ := authDone_counts (slot := slot) (l := l) (comp := comp) hc hl
  exact ⟨_, y, exec_custodianAuth_judged ha hw hs h, hy⟩

include ho

theorem exec_custodianAuth_rejected (h : authVerdict (pastYield s₀ t c) t c = rejectAuth (pastYield s₀ t c) t c) :
    ∃ s', exec (.custodianAuth t c .none) s₀ = .next s' ∧ s'.cus.rejects = satAdd 32 (pastYield s₀ t c).cus.rejects 1 ∧
      (x.rejects < 2 → s'.cus.cer = some { x with rejects := x.rejects + 1 }) ∧ (2 ≤ x.rejects → s'.cus.cer = none ∧ s'.cus.lastClose = 4) := by
  obtain ⟨h1, h2, h3⟩ := rejectAuth_rejected hc ho hl
  exact ⟨_, exec_custodianAuth_judged ha hw hs h, h1, h2, h3⟩

end verdict
end authentication

section partition
variable {k : Nat} {x : Ceremony} (hp : (s.ctx t c).work.phase = 0) (hv : s.vault.st = 3)
include hp hv

/-- What a partition's commit comes to: its index is taken, its root is not there, its line has no way, or its group is passed (06 R179). -/
theorem commitPartition_clause {p : Nat} {old d : Bytes} {held : Nat × Nat × Nat × Bytes} (hi : p = leAt x.input 0 2) (ho : old = descOf s p)
    (hd : d = commitDesc s x (decide (k = 4))) (hh : held = (goOn, if k = 4 then 79 else 56, 0, [])) :
    (k = 4 → pstate s p ≠ 0 → commitPartition t c (decide (k = 4)) x s = finishCall s t c stBadParam 39 0 []) ∧
    (k = 5 ∨ pstate s p = 0 → descLines s p d = none → commitPartition t c (decide (k = 4)) x s = finishCall s t c stVaultUnreach held.2.1 0 []) ∧
    (∀ l, k = 5 ∨ pstate s p = 0 → descLines s p d = some l →
      (waysFor s (copyKeys l.2) = false →
        commitPartition t c (decide (k = 4)) x s = setNeeds (freeUnits s t c) t c [.way (copyKeys l.2)]) ∧
      (waysFor s (copyKeys l.2) = true → commitPartition t c (decide (k = 4)) x s = passGroup
        (setDesc (modWork s t c (fun w => { w with phase := 1, vals := [p] })) p d) t c
        { at_ := (t, c), lines := l.1, undo := [(p, old, d)] } l.2 held)) := by
  have hw (hs : k = 5 ∨ pstate s p = 0) : commitPartition t c (decide (k = 4)) x s =
      writeDesc s t c p d [] held (fun a => modWork a t c (fun w => { w with phase := 1, vals := [p] })) := by
    have hs' : decide (k = 4) = false ∨ pstate s (leAt x.input 0 2) = 0 := by
      rw [← hi]
      exact hs.imp_left fun h => by simp [h]
    rw [commitPartition_writes hp hv hs', hd, hh, hi]
    simp only [decide_eq_true_eq]
  have hn : held.2.2.1 = 0 := by rw [hh]
  refine ⟨fun h4 hs => commitPartition_taken hp hv (by simp [h4]) (hi ▸ hs), fun hs hl => ?_, fun l hs hl => ⟨fun hway => ?_, fun hway => ?_⟩⟩
  · rw [hw hs, writeDesc_unbuilt hl, hn]
  · rw [hw hs, writeDesc_waits hl hv hway]
  · rw [hw hs, writeDesc_passes hl hv hway, ho]

end partition

theorem ceremonyAbort_eq (s : State) (t c : Nat) : ceremonyAbort t c s =
    if cerOf s t c = none then finishCall s t c stCeremony 36 0 [] else finishCall (closeCer s t c 2) t c stOk 36 0 [] := by
  simp only [ceremonyAbort, Option.isNone_iff_eq_none]

/-- Settles O12: the turn, the checks and the effect of each ceremony call, by the lemmas of its stages. -/
theorem ceremoniesNeedTheirQuorum : Obligations.CeremoniesNeedTheirQuorum := by
  unfold Obligations.CeremoniesNeedTheirQuorum
  refine ⟨exec_authorizes, fun s₀ t c hw e he ha => exec_waits hw e he ha, fun s₀ t c st ha hw h => exec_open_refused ha hw h,
    ?_, ?_, ?_, ?_, ?_, ?_, ?_, ?_⟩
  case refine_1 =>
    intro s₀ t c s ha hw hn k b r n signed v owned
    refine ⟨fun hk => exec_tableLoad_clause ha hw hn hk, fun hk => ⟨exec_tableLoad_other hk .none, fun h => ?_, fun h => ?_⟩⟩
    · exact (exec_ceremonyOpen_turn ha hw hk).trans (congrArg Host.Outcome.next (openCeremony_misshapen hn h))
    · exact (exec_ceremonyOpen_turn ha hw hk).trans (congrArg Host.Outcome.next (openCeremony_opened hn h rfl rfl rfl rfl rfl))
  case refine_2 =>
    intro s₀ t c s ha hw run k w b slot key comp stage good ends
    refine ⟨fun h => exec_custodianAuth_of ha hw (custodianAuth_rejecting h), fun hs hk hp hn => ?_, fun hs hk hp st hn => ?_, fun hs hk => ?_,
      fun hs ho => exec_custodianAuth_judged ha hw hs (authVerdict_closed ho), fun hs x hc ho hl => ?_⟩
    · exact exec_custodianAuth_of ha hw ((custodianAuth_card hs hk hp).trans (by rw [hn]))
    · exact exec_custodianAuth_of ha hw ((custodianAuth_card hs hk hp).trans (by rw [hn]))
    · have hck := custodianAuth_checks hs hk
      refine ⟨fun ho h0 => exec_custodianAuth_of ha hw (hck.trans ((checkAuth_closed ho).trans (if_pos h0))),
        fun ho h0 => exec_custodianAuth_ends ha hw (hck.trans ((checkAuth_closed ho).trans (if_neg h0))),
        fun x ho hf => exec_custodianAuth_ends ha hw (hck.trans (checkAuth_misfit ho hf)), fun x ho hf => ?_⟩
      intro pr r more
      refine ⟨fun hb => exec_custodianAuth_ends ha hw (hck.trans (checkAuth_bad ho hf rfl rfl hb)),
        fun hb hm => exec_custodianAuth_of ha hw (hck.trans (checkAuth_yields ho hf rfl rfl hb hm)),
        fun hb hm h0 hcomp hg => exec_custodianAuth_of ha hw (hck.trans (checkAuth_agrees ho hf rfl rfl hb hm h0 hcomp hg)),
        fun hb hm h0 => exec_custodianAuth_ends ha hw (hck.trans (checkAuth_done ho hf rfl rfl hb hm h0))⟩
    · have hrej (h : authVerdict s t c = rejectAuth s t c) := exec_custodianAuth_rejected ha hw hs hc ho hl h
      have hcnt {l : List Bytes} (h : authVerdict s t c = authDone (acceptAuth s t c slot l) t c comp) :=
        exec_custodianAuth_counts ha hw hs hc hl h
      refine ⟨fun hf h0 => hrej ((authVerdict_misfit ho (Bool.eq_false_of_not_eq_true hf)).trans (if_pos h0)),
        fun hf h0 => exec_custodianAuth_judged ha hw hs ((authVerdict_misfit ho (Bool.eq_false_of_not_eq_true hf)).trans (if_neg h0)),
        fun hf hg => hrej (authVerdict_forged ho hf hg),
        fun hf hg hin => exec_custodianAuth_judged ha hw hs ((authVerdict_again ho hf hg hin).trans (authDone_eq ho comp)),
        fun hf hg hin hcomp => hcnt (authVerdict_plain ho hf hg hin hcomp),
        fun hf hg hin hcomp hz => hrej ((authVerdict_component ho hf hg hin hcomp).trans (by rw [hz])), fun z hf hg hin hcomp hz => ?_⟩
      have hv := (authVerdict_component ho hf hg hin hcomp).trans (by rw [hz])
      exact ⟨fun hfull => exec_custodianAuth_judged ha hw hs (hv.trans (if_pos hfull)), fun hroom => hcnt (hv.trans (if_neg (not_le.mpr hroom)))⟩
  case refine_3 =>
    exact fun s t c resp => ⟨exec_card_away, fun h => ⟨exec_cardTimeout_due h, exec_cardResponse_due h⟩⟩
  case refine_4 =>
    intro s₀ t c s ha hw k rows phase
    refine ⟨fun e he hk => ?_, fun e he hk hp st hn => ?_, fun x hx hl hp hn => ?_, fun x hx hl hk hp => ?_⟩
    · obtain ⟨f, hf⟩ := commitRow_of_mem he
      exact hf.exec_other hk
    · obtain ⟨f, hf⟩ := commitRow_of_mem he
      exact hf.exec_refused ha hw hk hp hn
    · obtain ⟨ho, htyp⟩ := commit_cer_now hn hl hx
      refine ⟨fun hk hg hi hd hacc => ?_, fun m hk hm hv hacc => ?_, fun hk hv => ?_, fun hk hv => ?_,
        fun i target hrow h8 => ⟨fun hr => ?_, fun hr htr => ?_⟩⟩
      · obtain ⟨hdome, hcer, hhow⟩ := commitDmk_loads hx hl hg hi hd hacc
        exact ⟨_, CommitRow.dmkLoad.exec_open ha hw hk.symm hp hn ho, by rw [hdome], by rw [hdome], by rw [hdome], hcer, hhow⟩
      · obtain ⟨hdome, hcer⟩ := commitPromote_moves hx hl hm hv hacc
        exact ⟨_, CommitRow.dmkPromote.exec_open ha hw hk.symm hp hn ho, by rw [hdome], by rw [hdome], hcer⟩
      · exact ((commitRow_partition hk).exec_open ha hw rfl hp hn ho).trans (congrArg Host.Outcome.next (commitPartition_away hp hv))
      · intro run p old pub d held
        have hrun {a : State} (h : commitPartition t c (decide (k = 4)) x s = a) : run = .next a :=
          ((commitRow_partition hk).exec_open ha hw rfl hp hn ho).trans (congrArg Host.Outcome.next h)
        have hd : d = commitDesc s x (decide (k = 4)) := by
          simp only [commitDesc, decide_eq_true_eq]
          rfl
        obtain ⟨h1, h2, h3⟩ := commitPartition_clause (t := t) (c := c) hp hv (p := p) (old := old) (held := held) rfl rfl hd rfl
        exact ⟨fun h4 hs => hrun (h1 h4 hs), fun hs hl => hrun (h2 hs hl), fun l hs hl => ⟨fun hway => hrun ((h3 l hs hl).1 hway),
          fun hway => hrun ((h3 l hs hl).2 hway)⟩⟩
      · exact ((commitRow_lifeCycle hrow).exec_open ha hw rfl hp hn ho).trans
          (congrArg Host.Outcome.next (commitLifeCycle_refused (fun h => h8 (htyp.symm.trans h)) hr))
      · obtain ⟨hlcs, hjobs, hfuse⟩ := lcBegin_begun (s := s) target (some (t, c))
        exact ⟨_, ((commitRow_lifeCycle hrow).exec_open ha hw rfl hp hn ho).trans
          (congrArg Host.Outcome.next (commitLifeCycle_begins (fun h => h8 (htyp.symm.trans h)) hr htr)), by rw [hlcs], hjobs, rfl, hfuse⟩
    · exact ⟨_, ((commitRow_partition hk).exec_turn ha hw rfl).trans (congrArg Host.Outcome.next (withCeremony_later hp)),
        commitPartition_durable hx hl hp⟩
  case refine_5 =>
    intro s₀ t c s ha hw
    exact (exec_ceremonyAbort_turn ha hw).trans (congrArg Host.Outcome.next (ceremonyAbort_eq ..))
  case refine_6 =>
    exact fun s => ⟨fun h => congrArg Host.Outcome.next (expireCeremony_none h), fun x hx => ⟨
      fun ho => congrArg Host.Outcome.next (expireCeremony_runs hx ho),
      fun ho => ⟨_, exec_ceremonyWindowExpiry s, expireCeremony_passed hx ho⟩⟩⟩
  case refine_7 =>
    intro s₀ t c sg s h body w
    refine ⟨fun hsg => ?_, fun hsg => (exec_attest_at h).trans (congrArg Host.Outcome.next (finishSigned_none hsg))⟩
    exact (exec_attest_at h).trans (congrArg Host.Outcome.next (finishSigned_some hsg))
  case refine_8 =>
    intro s t c k ks ht hc hop hf hcl hca hp hl s1
    exact (keysPassed_built ht hc (by rw [hop]) hf hcl hca hp hl).trans (statementOf_attest hop)

end Sys2Proof.Machine
